-- ==== Sys2Proof/Word.lean ====
section
/-! DEFINITION. The word types of the model: a 64-bit control-space register, a 64-byte line, a byte. -/

namespace Sys2Proof

/-- A control-space register or a Bobbin general register (R1). -/
abbrev Word := BitVec 64

/-- One line of 64 bytes; byte 0 is bits 7..0. -/
abbrev Line := BitVec 512

/-- One byte. -/
abbrev Byte := BitVec 8

end Sys2Proof
end

