-- ==== Sys2Proof/Types.lean ====
section
/-! DEFINITION. The operand types of the commands: who makes an access, a fault report, a token, a line request. Plain data. -/

namespace Sys2Proof

/-- The requester of a control-space access (R4, R488, R490). -/
inductive Who where
  /-- A management core in the trusted world (R483). -/
  | trusted (core : Nat)
  /-- A management core for partition `n` (R488). -/
  | part (core n : Nat)
  /-- A core access with V = 1 and VMID 0 (R488). -/
  | badVmid (core : Nat)
  /-- The host of port `p`, through its BARs (R92). -/
  | head (p : Nat)
  /-- A Seam node, by its SRC (R374). -/
  | node (n : Nat)
  /-- The host of port `p`, writing its BAR0 (R91): the offset is that in BAR0. -/
  | bar0 (p : Nat)
  /-- The host of port `p`, reading through BAR2, or at 0x0600_0000 + 8 q through Spool q's page of BAR4 (R91, R92). -/
  | load (p : Nat)
  deriving DecidableEq, Repr

/-- A report to the fault collector (R458): source ID (R11), element, code, ADDR and DETAIL. -/
structure Report where
  src : Nat
  elem : Nat
  code : Nat
  addr : Nat
  detail : Nat
  /-- The level a chapter gives where it is not the level of R464. -/
  level : Option Nat
  /-- MODEL'S OWN: the word of an SRAM bank, so that the collector can name the region to be tested (R433, R469). -/
  hint : Nat := 0
  deriving DecidableEq, Repr

/-- A token of the Interlining (R27, R39). Directions and classes are numbers: class 0 request, 1 response, 2 data (R29). -/
structure Token where
  srcAgent : Nat
  dstAgent : Nat
  srcRow : Nat
  srcCol : Nat
  dstRow : Nat
  dstCol : Nat
  cls : Nat
  /-- End-to-end number between the two agents (R40). -/
  num : Nat
  /-- What it carries (R31): 0 a line or a request or response about the line of `la`, 1 a control-space access, fault report or Spool doorbell, 2 neither. -/
  carries : Nat
  la : Nat
  data : Line
  /-- The 16-bit check (R39), which its source puts in when the token leaves. -/
  check : Nat
  deriving DecidableEq, Repr

/-- Kinds of request that reach a home-agent slice (R229). -/
inductive ReqKind where
  | readShared | readExclusive | readCurrent | write | writeBack | cleanEvict
  deriving DecidableEq, Repr

/-- Who made a line request. -/
inductive Requester where
  /-- Host-mode port `p`, with its request tag and the generation of the port's link (R112). -/
  | port (p tag gen : Nat)
  /-- A remote node, with the key of its Seam transaction. -/
  | node (n tid : Nat)
  /-- Bobbin `b`, its line access number `v`. -/
  | bob (b v : Nat)
  /-- A stitch of Bobbin `b`, tag `t`; tag 16 is the image loader. -/
  | stitch (b t : Nat)
  /-- The Spool engine: the record or the slot of command `n` of Spool `q`. -/
  | spool (q n : Nat)
  /-- A management core (R438: not regulated). -/
  | core (c : Nat)
  /-- The device's own page operations and engines; `8 + c` is the rebuild engine of channel `c` (R417), `64 + p + 16 n` the n-th poison command of head `p`'s
  mailbox (R105). -/
  | dev (k : Nat)
  /-- No request: the place of Bobbin `b`'s descriptor instruction in the order of its page's accesses (R280). -/
  | desc (b : Nat)
  deriving DecidableEq, Repr

/-- A line request at its home slice: `mask` has one bit per byte written, `master` is the regulated master charged (R438). -/
structure HomeReq where
  kind : ReqKind
  who : Requester
  la : Nat
  data : Line
  mask : Nat
  poison : Bool
  master : Nat
  /-- For a write-back: the MetaValue or KEEP left, 0 I, 1 S, 2 A. For a read exclusive: 1 asks for no data (R233). -/
  mval : Nat
  /-- When it reached its slice (R448). -/
  born : Nat := 0
  /-- OCLS of a remote node's transaction (R372): 1 is an access of one of its Bobbins. -/
  ocls : Nat := 0
  /-- REMOTE + 2 × OVERFLOW of the line's region when it reached its slice (R251). -/
  cr : Nat := 0
  /-- Data that a request has already delivered and that only lacks its place in the line cache: placed before anything else of its line. -/
  front : Bool := false
  /-- MODEL'S OWN: events and warnings that its waiting has counted already, one bit each. -/
  noted : Nat := 0
  deriving DecidableEq, Repr

/-- Whose transaction a Seam source originates (R358): a waiting request for a remote line; a recall to a proxy; or a message of firmware, with its opcode
(CtlRd, CtlWr or SvcWr), node, offset and value. -/
inductive TxnAsk where
  | line (req : HomeReq)
  | snoop (la bit : Nat)
  | fw (opc dst off : Nat) (val : Word)
  deriving DecidableEq, Repr

/-- A request to a DRAM channel (R392): `master` is the regulated master charged, `port` the link port whose panic applies (16 or above: none). -/
structure DramOp where
  id : Nat
  frame : Nat
  line : Nat
  wr : Bool
  master : Nat
  port : Nat
  data : Line
  poison : Bool
  deriving DecidableEq, Repr

/-- Kinds of DDR5 module (R387). -/
inductive ModKind where | rdimm | mrdimm | other
  deriving DecidableEq, Repr

/-- What the SPD of a module says (R387, R388): kind, device width in bits, ranks, stack bits, and the rest of the organisation. -/
structure ModuleInfo where
  kind : ModKind
  width : Nat
  ranks : Nat
  cid : Nat
  sppr : Bool
  dieGb : Nat
  sizeGib : Nat
  rated : Nat
  raaimt : Nat
  raammt : Nat
  rfmSup : Bool
  eccWidth8 : Bool
  readable : Bool
  /-- The modules report their own MBIST (R575). -/
  mbist : Bool
  /-- The raw bytes (DCH_SPDRAW), as one number. -/
  raw : Nat
  deriving DecidableEq, Repr

end Sys2Proof
end

