-- ==== Sys2Proof/Syntax.lean ====
section
/-! DEFINITION. The commands of the block: one constructor per row of the table of operations and events. Commands of a Bobbin's
instructions carry the Bobbin and the fields of the word; an event carries what the environment chooses. -/

namespace Sys2Proof

/-- The commands. -/
inductive Instr where
  /-- R3: A control-space write to a register with no row of its own is checked for width, ownership and world and then applied field by field. -/
  | controlSpaceWrite (who : Who) (off : Nat) (width : Nat) (val : Word) (rival : Bool)
  /-- R27: One four-phase handshake moves a 64-byte token over a node-to-node channel of the Interlining. `flips`: the bits of its data and of its check
  (R39) that change on the way. -/
  | tokenTransfer (plane : Nat) (row : Nat) (col : Nat) (dir : Nat) (inject : Option Token) (inp : Nat) (cls : Nat) (flips : Line × Nat)
  /-- R40: A node's stall watchdog expires on a handshake not completed within 1 to 4 µs and reports ILN_F_STALL. -/
  | stallWatchdog (plane : Nat) (row : Nat) (col : Nat)
  /-- R40: Once every source has resent its tokens, REMAP_BUSY clears and waiting requests for lines of the fenced plane proceed. -/
  | remapComplete (plane : Nat)
  /-- R37: At the end of a measurement window the speed monitors update GLB_SPDMIN and raise ALARM or SPREAD where their conditions hold. -/
  | speedMeasurement (counts : List Nat)
  /-- R36: A write of GLB_SPDCFG.START starts one speed measurement. -/
  | start (who : Who) (val : Word)
  /-- R41: A trusted write of GLB_ILNCFG.PLANE_EN enables or disables planes, and is refused with GLB_E_NO_PLANE if it would leave no usable plane. -/
  | planeEnWrite (who : Who) (val : Word)
  /-- R25: After 1 ms without traffic on the die-to-die link, the Hem controllers hold their gates and the loss is recorded as HEM_F_LINK_LOST. -/
  | d2dLinkLoss
  /-- R72: A descriptor is filled from DRAM into its descriptor-cache share, read from the twin when needed, and checked. -/
  | descriptorFill (page : Nat)
  /-- R72: A descriptor-cache entry is evicted; it first recalls the lines it anchors, and a changed entry is written to both DRAM copies. -/
  | descriptorEvict (page : Nat)
  /-- R102: A host-mode port takes a CXL.mem request flit and translates its HPA through the HDM decoder and head map to an LA or a global address. -/
  | cxlMemRequest (p : Nat) (op : Nat) (mv : Nat) (hpa : Nat) (tag : Nat) (data : Line) (mask : Nat) (poison : Bool) (ideOk : Bool)
  /-- R244: A request whose head-map entry has KIND 1 is handled by the guest slice, which issues Seam transactions to the remote home. -/
  | guestRequest (req : HomeReq)
  /-- R114: PERST_N is held low for 1 µs or more and the port cuts its requests and tears down its link, decoders and IDE stream. -/
  | perstAssert (p : Nat)
  /-- R114: PERST_N rises; once the cut has ended, the port turns on its terminations and trains. -/
  | perstRelease (p : Nat)
  /-- R111: The host link goes down without warning; requests in flight are cut and the link retrains. -/
  | surpriseLinkDown (p : Nat)
  /-- R111: A hot reset cuts requests in flight and uncommits the decoders. -/
  | hotReset (p : Nat)
  /-- R111: Link disable cuts requests in flight and keeps the decoders. -/
  | linkDisable (p : Nat)
  /-- R111: CXL Reset cuts CXL.mem in flight, uncommits the decoders and keeps the link and the IDE stream. -/
  | cxlReset (p : Nat)
  /-- R111: Function level reset ends the running mailbox command and leaves CXL.mem untouched. -/
  | functionLevelReset (p : Nat)
  /-- R87: A host link finishes training; CXL.mem is enabled only at 32 GT/s or more and x4 or wider. -/
  | linkUp (p : Nat) (width : Nat) (speed : Nat) (flit : Nat)
  /-- R88: The link changes width under L0p without losing requests. -/
  | l0pWidthChange (p : Nat) (width : Nat)
  /-- R111: The host link recovers without a reset and replays the completions in its replay buffer. -/
  | linkRecovery (p : Nat)
  /-- R115: A trusted write of PRT_CFG.RELEASE allows the port to train. -/
  | release (who : Who) (p : Nat) (val : Word)
  /-- R97: A write of PRT_HMAPAn is checked for overlap, range and a valid entry, and is applied or refused. -/
  | hmapaWrite (who : Who) (p : Nat) (n : Nat) (val : Word)
  /-- R97: A write of PRT_HMAPBn is refused while the entry is valid and applied otherwise. -/
  | hmapbWrite (who : Who) (p : Nat) (n : Nat) (val : Word)
  /-- R94: A write of PRT_DPALAYOUT is refused when its sizes sum to more than 128 TiB. -/
  | dpalayoutWrite (who : Who) (p : Nat) (val : Word)
  /-- R95: The host commits an HDM decoder; the commit fails without back-invalidate in 256-byte flit mode. `commit`: COMMIT, and
  Mem_Enable as the host has set it (R114). -/
  | hdmCommit (p : Nat) (i : Nat) (base : Nat) (size : Nat) (skip : Nat) (ways : Nat) (gran : Nat) (bi : Bool) (lock : Bool) (commit : Bool × Bool)
  /-- R99: The fabric manager adds an extent, which is checked against the head map and then offered to the host. `offer`: the endpoint
  that asks, and the extents. -/
  | initiateDynamicCapacityAdd (p : Nat) (offer : Nat × List (Nat × Nat))
  /-- R99: The host's Add Dynamic Capacity Response makes the blocks it accepts usable. -/
  | addDcResponse (p : Nat) (extents : List (Nat × Nat))
  /-- R100: The host releases an extent, which stops being usable, and the port is removed from its sharers. -/
  | releaseDc (p : Nat) (extents : List (Nat × Nat))
  /-- R100: The fabric manager forces release of an extent and back-invalidates the lines the port holds. `ask`: the endpoint that asks,
  and the DPA. -/
  | forcedRelease (p : Nat) (ask : Nat × Nat) (len : Nat)
  /-- R108: Mailbox command 0x0100 returns event records. -/
  | getEventRecords (p : Nat) (log : Nat)
  /-- R108: Mailbox command 0x0101 clears event records. -/
  | clearEventRecords (p : Nat) (log : Nat) (all : Bool) (handles : List Nat)
  /-- R108: Mailbox command 0x0102 returns the event interrupt policy. -/
  | getEventInterruptPolicy (p : Nat)
  /-- R108: Mailbox command 0x0103 sets the event interrupt policy. -/
  | setEventInterruptPolicy (p : Nat) (policy : Nat)
  /-- R108: Mailbox command 0x0200 reports the Pattern's firmware version. -/
  | getFwInfo (p : Nat)
  /-- R108: Mailbox command 0x0300 returns the timestamp. -/
  | getTimestamp (p : Nat)
  /-- R108: Mailbox command 0x0301 sets the timestamp, from which the device counts on in fabric time. -/
  | setTimestamp (p : Nat) (value : Nat)
  /-- R108: Mailbox command 0x0400 lists the supported logs. -/
  | getSupportedLogs (p : Nat)
  /-- R108: Mailbox command 0x0401 returns a log. -/
  | getLog (p : Nat) (uuid : Nat) (off : Nat) (len : Nat)
  /-- R94: Mailbox command 0x4000 reports the capacities of the DPA layout. -/
  | identifyMemoryDevice (p : Nat)
  /-- R108: Mailbox command 0x4100 reports volatile partition information. -/
  | getPartitionInfo (p : Nat)
  /-- R108: Mailbox command 0x4200 reports temperature, corrected-error and spare-frame health. -/
  | getHealthInfo (p : Nat)
  /-- R108: Mailbox command 0x4201 returns the alert configuration. -/
  | getAlertConfiguration (p : Nat)
  /-- R108: Mailbox command 0x4202 sets the alert configuration. -/
  | setAlertConfiguration (p : Nat) (alerts : List Nat)
  /-- R105: Mailbox command 0x4300 reports up to 1,024 poisoned lines by DPA. -/
  | getPoisonList (p : Nat) (dpa : Nat) (len : Nat)
  /-- R105: Mailbox command 0x4301 poisons a line by a write through the home slice. -/
  | injectPoison (p : Nat) (dpa : Nat)
  /-- R105: Mailbox command 0x4302 clears poison by a write through the home slice. -/
  | clearPoison (p : Nat) (dpa : Nat) (data : Line)
  /-- R108: Mailbox command 0x4800 reports the Dynamic Capacity configuration. -/
  | getDcConfiguration (p : Nat)
  /-- R101: Mailbox command 0x4801 lists the head's extents. -/
  | getDcExtentList (p : Nat × Nat)
  /-- R108: Mailbox command 0xC000 lists the Spools owned by the head, with their classes. -/
  | getSpoolAssignment (p : Nat)
  /-- R309: Mailbox command 0xC001 resets one Spool owned by the head. -/
  | resetSpool (p : Nat) (q : Nat)
  /-- R313: Mailbox command 0xC002 lists the programs that the head's Spools may name. -/
  | getProgramDirectory (p : Nat × Nat)
  /-- R108: Mailbox command 0xC003 returns the full status behind the last failed command. -/
  | getStatusDetail (p : Nat)
  /-- R108: A mailbox opcode outside the supported set ends with return code Unsupported. -/
  | mailboxUnsupported (p : Nat) (op : Nat)
  /-- R85: A DOE request reads the CDAT tables that the Pattern supplied. -/
  | cdatRead (p : Nat) (off : Nat) (len : Nat)
  /-- R507: The trusted-world SPDM responder answers an SPDM request on one of its transports. -/
  | spdmRequest (transport : Nat) (code : Nat) (arg : Nat)
  /-- R218: A CXL_IDE_KM message inside a secured session installs or switches IDE keys. `key`: the key set and the session. -/
  | cxlIdeKm (p : Nat) (op : Nat) (key : Nat × Nat)
  /-- R233: The home slice serves a read shared request, recalling holders as the directory state requires. -/
  | homeReadShared (req : HomeReq)
  /-- R233: The home slice serves a read exclusive request, invalidating the other holders. -/
  | homeReadExclusive (req : HomeReq)
  /-- R233: The home slice returns current data without recording a holder. -/
  | homeReadCurrent (req : HomeReq)
  /-- R233: The home slice invalidates the holders, merges owner data and places the line in the line cache, with a copy for a protected page. -/
  | homeWrite (req : HomeReq)
  /-- R233: An owner's write-back is written into the line cache as dirty and the directory state is updated. -/
  | homeWriteBack (req : HomeReq)
  /-- R233: A clean evict removes the requester from the sharers. -/
  | homeCleanEvict (req : HomeReq)
  /-- R226: A host BIRsp or a proxy RspI, RspS, RspO or RspWbPending answer to a recall reaches the home. -/
  | recallResponse (la : Nat) (bit : Nat) (rsp : Nat) (data : Option Line) (poison : Bool)
  /-- R238: A recall to a host port goes unanswered within 2^BITMO µs; the port's bit is removed and an owned line is poisoned. -/
  | snoopTimeout (la : Nat) (p : Nat)
  /-- R227: A device acting as a proxy takes a snoop from a remote home, recalls its own holders first, and answers. -/
  | proxySnoop (node : Nat) (tid : Nat)
  /-- R249: A write of DIR_RECALLCTL.START recalls every directory entry of a page range. -/
  | dirRecallStart (who : Who) (val : Word)
  /-- R249: The range recall ends and STATUS is set. -/
  | recallComplete
  /-- R120: A dirty line is written back to its tier: hot frame, mirror pair or cold page. -/
  | lineWriteback (la : Nat)
  /-- R120: A write that waited for an evictable way proceeds once a way becomes evictable. -/
  | waitingWriteResume (la : Nat)
  /-- R140: Held lines are written back once their channel can take writes again. -/
  | heldLineWriteback (la : Nat)
  /-- R140: Reads waiting on a retraining or rejoining channel are served once the channel can serve them. -/
  | waitingReadResume (c : Nat)
  /-- R125: A write of TIR_FLUSHCTL.START starts a range flush, or is refused while one runs. -/
  | flushStart (who : Who) (val : Word)
  /-- R125: The flush ends, and STATUS records whether any line could not be written back. -/
  | flushComplete
  /-- R127: The sectors of one cold segment arrive and are decrypted, decoded and filled. -/
  | coldSegmentRead (la : Nat)
  /-- R182: A Pleat unit grants a free decode lane to waiting work at a segment boundary, by class. -/
  | pleatLaneGrant (u : Nat)
  /-- R129: A dirty eviction into a COLD page promotes it into a new frame. -/
  | promotion (la : Nat)
  /-- R134: CLOSE_US passes after an append that waits on an open stripe, and the stripe is closed early. -/
  | stripeCloseTimeout (g : Nat)
  /-- R134: All chunks of a stripe complete in DRAM, and the appends that waited on it go on. -/
  | stripeWritten (g : Nat) (idx : Nat)
  /-- R132: After its stripes are written, a demotion or compaction move rewrites the descriptor and clears the busy bit. -/
  | demoteFinish (lpn : Nat)
  /-- R136: A write of TIR_LOGTAILg moves the log tail forward, or is refused outside the permitted span. -/
  | logTailWrite (who : Who) (g : Nat) (val : Word)
  /-- R82: A write of TIR_GRBASEn that sets GROUP 3 is refused with TIR_E_ATTR. -/
  | gussetRangeWrite (who : Who) (n : Nat) (val : Word)
  /-- R189: A write of KEY_RGNk is checked for overlap and order and is applied or refused. -/
  | keyRegionWrite (who : Who) (k : Nat) (val : Word)
  /-- R191: KEY_RCTLk.LOAD loads a slot from staging or from the random generator, unless descriptors still use the slot. -/
  | keyLoad (who : Who) (k : Nat) (val : Word)
  /-- R192: A write of KEY_RCTLk.CUR selects the slot for fresh encryption when that slot is LIVE and NEWER. -/
  | keyCurWrite (who : Who) (k : Nat) (val : Word)
  /-- R214: KEY_RCTLk.ERASE zeroes both slots of a region and makes them EMPTY. -/
  | keyErase (who : Who) (k : Nat) (val : Word)
  /-- R212: A write of KEY_SWEEPCTL.START starts the re-key sweep over an LPN range. -/
  | keySweepStart (who : Who) (val : Word)
  /-- R212: The sweep re-encrypts the next page whose key slot differs from the target, or stops on a refusal. -/
  | sweepPage
  /-- R213: A write of KEY_SWEEPCTL.STOP ends the sweep after its current page. -/
  | keySweepStop (who : Who) (val : Word)
  /-- R335: KEY_LINKCTL.LOAD installs a link key into a port's slot for one direction. -/
  | linkKeyLoad (who : Who) (val : Word)
  /-- R217: A cipher unit's two round paths disagree; the computation is repeated and the fault reported. -/
  | keyFUnit (c : Nat)
  /-- R254: A free Bobbin picks a command, loads its image and sets its state for the program's first instruction. -/
  | programLaunch (b : Nat)
  /-- R257: rd gets a + b. -/
  | stAdd (b : Nat) (rd : Nat) (rs1 : Nat) (rs2 : Nat)
  /-- R257: rd gets a − b. -/
  | stSub (b : Nat) (rd : Nat) (rs1 : Nat) (rs2 : Nat)
  /-- R257: rd gets a AND b. -/
  | stAnd (b : Nat) (rd : Nat) (rs1 : Nat) (rs2 : Nat)
  /-- R257: rd gets a OR b. -/
  | stOr (b : Nat) (rd : Nat) (rs1 : Nat) (rs2 : Nat)
  /-- R257: rd gets a XOR b. -/
  | stXor (b : Nat) (rd : Nat) (rs1 : Nat) (rs2 : Nat)
  /-- R257: rd gets a AND NOT b. -/
  | stAndn (b : Nat) (rd : Nat) (rs1 : Nat) (rs2 : Nat)
  /-- R257: Logical shift left. -/
  | stSll (b : Nat) (rd : Nat) (rs1 : Nat) (rs2 : Nat)
  /-- R257: Logical shift right. -/
  | stSrl (b : Nat) (rd : Nat) (rs1 : Nat) (rs2 : Nat)
  /-- R257: Arithmetic shift right. -/
  | stSra (b : Nat) (rd : Nat) (rs1 : Nat) (rs2 : Nat)
  /-- R257: Rotate right. -/
  | stRotr (b : Nat) (rd : Nat) (rs1 : Nat) (rs2 : Nat)
  /-- R257: Signed less-than comparison. -/
  | stSlt (b : Nat) (rd : Nat) (rs1 : Nat) (rs2 : Nat)
  /-- R257: Unsigned less-than comparison. -/
  | stSltu (b : Nat) (rd : Nat) (rs1 : Nat) (rs2 : Nat)
  /-- R257: Low 64 bits of the product. -/
  | stMul (b : Nat) (rd : Nat) (rs1 : Nat) (rs2 : Nat)
  /-- R257: High 64 bits of the unsigned product. -/
  | stMulhu (b : Nat) (rd : Nat) (rs1 : Nat) (rs2 : Nat)
  /-- R257: Unsigned division. -/
  | stDivu (b : Nat) (rd : Nat) (rs1 : Nat) (rs2 : Nat)
  /-- R257: Unsigned remainder. -/
  | stRemu (b : Nat) (rd : Nat) (rs1 : Nat) (rs2 : Nat)
  /-- R257: Signed division, truncated. -/
  | stDiv (b : Nat) (rd : Nat) (rs1 : Nat) (rs2 : Nat)
  /-- R257: Signed remainder, with the sign of a. -/
  | stRem (b : Nat) (rd : Nat) (rs1 : Nat) (rs2 : Nat)
  /-- R257: Count of leading zeros. -/
  | stClz (b : Nat) (rd : Nat) (rs1 : Nat)
  /-- R257: Count of trailing zeros. -/
  | stCtz (b : Nat) (rd : Nat) (rs1 : Nat)
  /-- R257: Count of set bits. -/
  | stPopc (b : Nat) (rd : Nat) (rs1 : Nat)
  /-- R257: Bytes reversed. -/
  | stBswap (b : Nat) (rd : Nat) (rs1 : Nat)
  /-- R258: rd gets rs1 plus a sign-extended immediate. -/
  | stAddi (b : Nat) (rd : Nat) (rs1 : Nat) (imm : Nat)
  /-- R258: rd gets rs1 AND a zero-extended immediate. -/
  | stAndi (b : Nat) (rd : Nat) (rs1 : Nat) (imm : Nat)
  /-- R258: rd gets rs1 OR a zero-extended immediate. -/
  | stOri (b : Nat) (rd : Nat) (rs1 : Nat) (imm : Nat)
  /-- R258: rd gets rs1 XOR a zero-extended immediate. -/
  | stXori (b : Nat) (rd : Nat) (rs1 : Nat) (imm : Nat)
  /-- R258: Signed comparison with an immediate. -/
  | stSlti (b : Nat) (rd : Nat) (rs1 : Nat) (imm : Nat)
  /-- R258: Unsigned comparison with a sign-extended immediate. -/
  | stSltiu (b : Nat) (rd : Nat) (rs1 : Nat) (imm : Nat)
  /-- R258: Shift or rotate by an immediate amount. -/
  | stShi (b : Nat) (rd : Nat) (rs1 : Nat) (imm : Nat)
  /-- R258: Inserts a 16-bit immediate into one quarter of rd. -/
  | stIns16 (b : Nat) (rd : Nat) (k : Nat) (imm : Nat)
  /-- R259: Reads a system value selected by the immediate. -/
  | stRdsys (b : Nat) (rd : Nat) (imm : Nat)
  /-- R260: Branch if equal. -/
  | stBeq (b : Nat) (rs1 : Nat) (rs2 : Nat) (off : Nat)
  /-- R260: Branch if not equal. -/
  | stBne (b : Nat) (rs1 : Nat) (rs2 : Nat) (off : Nat)
  /-- R260: Branch if less, signed. -/
  | stBlt (b : Nat) (rs1 : Nat) (rs2 : Nat) (off : Nat)
  /-- R260: Branch if greater or equal, signed. -/
  | stBge (b : Nat) (rs1 : Nat) (rs2 : Nat) (off : Nat)
  /-- R260: Branch if less, unsigned. -/
  | stBltu (b : Nat) (rs1 : Nat) (rs2 : Nat) (off : Nat)
  /-- R260: Branch if greater or equal, unsigned. -/
  | stBgeu (b : Nat) (rs1 : Nat) (rs2 : Nat) (off : Nat)
  /-- R260: Jump relative, writing the return index. -/
  | stJal (b : Nat) (rd : Nat) (imm : Nat)
  /-- R260: Jump to a register plus an offset, writing the return index. -/
  | stJalr (b : Nat) (rd : Nat) (rs1 : Nat) (imm : Nat)
  /-- R261: Copies a line register, with its poison flag. -/
  | stVmov (b : Nat) (rd : Nat) (rs1 : Nat)
  /-- R261: Exclusive-or of two line registers. -/
  | stVxor (b : Nat) (rd : Nat) (rs1 : Nat) (rs2 : Nat)
  /-- R261: AND of two line registers. -/
  | stVand (b : Nat) (rd : Nat) (rs1 : Nat) (rs2 : Nat)
  /-- R261: OR of two line registers. -/
  | stVor (b : Nat) (rd : Nat) (rs1 : Nat) (rs2 : Nat)
  /-- R261: Zeroes a line register and clears its poison flag. -/
  | stVzero (b : Nat) (rd : Nat)
  /-- R261: Reads one word of a line register into a general register. -/
  | stVget (b : Nat) (rd : Nat) (rs1 : Nat) (i : Nat)
  /-- R261: Writes a general register into one word of a line register. -/
  | stVput (b : Nat) (rd : Nat) (rs1 : Nat) (i : Nat)
  /-- R261: Compares the words of two line registers into a bit mask. -/
  | stVcmp (b : Nat) (rd : Nat) (rs1 : Nat) (rs2 : Nat)
  /-- R263: Loads 1 to 8 bytes from the scratchpad. -/
  | stLds (b : Nat) (rt : Nat) (rb : Nat) (fn : Nat) (imm : Nat)
  /-- R263: Stores 1 to 8 bytes to the scratchpad. -/
  | stSts (b : Nat) (rt : Nat) (rb : Nat) (fn : Nat) (imm : Nat)
  /-- R263: Loads 64 bytes from the scratchpad into a line register. -/
  | stLdv (b : Nat) (rt : Nat) (rb : Nat) (imm : Nat)
  /-- R263: Stores a line register to the scratchpad. -/
  | stStv (b : Nat) (rt : Nat) (rb : Nat) (imm : Nat)
  /-- R264: Atomic add on a scratchpad word at its bank. -/
  | stAadd (b : Nat) (rd : Nat) (rs1 : Nat) (rs2 : Nat)
  /-- R264: Atomic swap on a scratchpad word at its bank. -/
  | stAswp (b : Nat) (rd : Nat) (rs1 : Nat) (rs2 : Nat)
  /-- R266: Issues a line load by global address as a read current. -/
  | stLdl (b : Nat) (rt : Nat) (rb : Nat) (imm : Nat)
  /-- R266: The data of an outstanding LDL arrives in its line register, or the load ends the program. -/
  | ldlReturn (b : Nat) (no : Nat)
  /-- R267: Posts a full-line store by global address. -/
  | stStl (b : Nat) (rt : Nat) (rb : Nat) (imm : Nat)
  /-- R265: Posts a byte-masked line store. -/
  | stStlm (b : Nat) (rd : Nat) (rs1 : Nat) (rs2 : Nat)
  /-- R267: A posted store is applied at its home or ends with an error status that is held for the program. -/
  | storeResult (b : Nat) (no : Nat)
  /-- R268: A STITCH of kind 0 starts a copy. -/
  | stCopy (b : Nat) (rd : Nat) (rs : Nat) (rl : Nat) (tag : Nat) (flags : Nat)
  /-- R268: A STITCH of kind 1 fills a range with a pattern. -/
  | stFill (b : Nat) (rd : Nat) (rs : Nat) (rl : Nat) (tag : Nat) (flags : Nat)
  /-- R268: A STITCH of kind 2 computes a CRC-32C. -/
  | stCrc32c (b : Nat) (rd : Nat) (rs : Nat) (rl : Nat) (tag : Nat) (flags : Nat)
  /-- R272: A STITCH of kind 3 computes the 64-bit hash. -/
  | stHash64 (b : Nat) (rd : Nat) (rs : Nat) (rl : Nat) (tag : Nat) (flags : Nat)
  /-- R273: A STITCH of kind 4 finds the first matching word. -/
  | stScan (b : Nat) (rd : Nat) (rs : Nat) (rl : Nat) (tag : Nat) (flags : Nat)
  /-- R274: A STITCH of kind 5 compresses a page or a stream on a Pleat unit. -/
  | stCmpr (b : Nat) (rd : Nat) (rs : Nat) (rl : Nat) (tag : Nat) (flags : Nat)
  /-- R274: A STITCH of kind 6 decompresses a page or a stream on a Pleat unit. -/
  | stDcmpr (b : Nat) (rd : Nat) (rs : Nat) (rl : Nat) (tag : Nat) (flags : Nat)
  /-- R276: A STITCH of kind 7 with flags[2] clear copies pages line by line. -/
  | stMigrate (b : Nat) (rd : Nat) (rs : Nat) (rl : Nat) (tag : Nat) (flags : Nat)
  /-- R277: A STITCH of kind 7 with flags[2] set relocates one local hot page to a new frame. -/
  | stMigrateRelocate (b : Nat) (rd : Nat) (rs : Nat) (rl : Nat) (tag : Nat) (flags : Nat)
  /-- R278: Every write of a stitch has been applied, and its tag becomes DONE with a status and a result. -/
  | stitchDone (b : Nat) (tag : Nat)
  /-- R278: Waits for a tag to become DONE and returns its status. -/
  | stWait (b : Nat) (rd : Nat) (tag : Nat)
  /-- R278: Returns a tag's status, or BOB_S_PENDING while it runs. -/
  | stTest (b : Nat) (rd : Nat) (tag : Nat)
  /-- R278: Returns a tag's result. -/
  | stTres (b : Nat) (rd : Nat) (tag : Nat)
  /-- R284: Waits until every earlier line store has been applied or ended. -/
  | stFenceL (b : Nat)
  /-- R284: Waits until every issued stitch is DONE. -/
  | stFenceT (b : Nat)
  /-- R284: Waits for both line stores and stitches. -/
  | stFenceA (b : Nat)
  /-- R279: Reads a descriptor into a line register, with its busy bit. -/
  | stDescrd (b : Nat) (rd : Nat) (rs1 : Nat) (rs2 : Nat)
  /-- R280: Writes a whole descriptor after the checks of R73 and R215. -/
  | stDescwr (b : Nat) (rd : Nat) (rs1 : Nat) (rs2 : Nat)
  /-- R280: Writes the ACC field of a descriptor. -/
  | stDescacc (b : Nat) (rd : Nat) (rs1 : Nat) (rs2 : Nat)
  /-- R279: Writes a descriptor only if it still equals the expected value. -/
  | stDesccas (b : Nat) (rd : Nat) (rs1 : Nat) (rs2 : Nat)
  /-- R129: A program promotes a cold page. -/
  | stPromote (b : Nat) (rd : Nat) (rs1 : Nat)
  /-- R132: A program demotes a hot page, or makes a compaction move of a cold page. -/
  | stDemote (b : Nat) (rd : Nat) (rs1 : Nat)
  /-- R281: Pushes a frame into the FIFO of its pool. -/
  | stFramepush (b : Nat) (rd : Nat) (rs1 : Nat)
  /-- R285: Writes the command's completion record after FENCE A, if it claims the slot. -/
  | stPost (b : Nat) (rd : Nat) (rs1 : Nat) (rs2 : Nat)
  /-- R286: Ends the program after FENCE A; the engine posts BOB_E_NO_POST if no POST came. -/
  | stEnd (b : Nat)
  /-- R256: An illegal word about to issue ends the program with BOB_E_ILLEGAL. -/
  | illegalInstruction (b : Nat)
  /-- R287: A faulted or aborted program has drained; its Bobbin is freed and its completion is written if the slot is unclaimed. -/
  | programDrainComplete (b : Nat)
  /-- R288: A program exceeds MAXTIME and ends with BOB_E_TIMEOUT. -/
  | programTimeout (b : Nat)
  /-- R289: A Bobbin hardware check fails; the program stops and BOB_F_ENGINE is reported. -/
  | bobbinEngineFault (b : Nat)
  /-- R303: A doorbell write updates SQTAIL and CQHEAD, or is refused or ignored as stale. -/
  | spoolDoorbell (who : Who) (q : Nat) (val : Word)
  /-- R304: The engine consumes and accepts the next command, and runs the checks of R306. -/
  | spoolConsume (q : Nat)
  /-- R305: Every 10 µs the engine reads again a slot whose SEQ differed or that held poison. -/
  | slotReread (q : Nat)
  /-- R298: Setting SPL_CFG.EN checks the ring placement and enables the Spool. -/
  | en (who : Who) (q : Nat) (val : Word)
  /-- R309: SPL_CFG.RESET starts a Reset Spool from the administrator. -/
  | splReset (who : Who) (q : Nat) (val : Word)
  /-- R309: Once no program of the Spool runs, the aborted records are written and the indexes are zeroed. -/
  | spoolResetFinish (q : Nat)
  /-- R310: SPL_ABORT GO aborts command n by claiming its slot, if it can. -/
  | spoolAbort (who : Who) (q : Nat) (val : Word)
  /-- R312: A write of SPL_CAPw is refused while the Spool is enabled or busy, or above the class ceiling. -/
  | capabilityWrite (who : Who) (q : Nat) (w : Nat) (val : Word)
  /-- R312: A write of SPL_SQBASE or SPL_CQBASE is refused while the Spool is enabled or in flight. -/
  | ringBaseWrite (who : Who) (q : Nat) (cq : Bool) (val : Word)
  /-- R316: Setting BOB_CFG.DRAIN stops a Bobbin from taking new commands. -/
  | drain (who : Who) (b : Nat) (val : Word)
  /-- R322: DELAY_US expires after the oldest unreported record and the Spool's interrupt is raised. -/
  | spoolIrqDelay (q : Nat)
  /-- R333: A Seam transmitter builds and sends the next flit, inserting a skip block every 4,096 flits. -/
  | flitTransmit (p : Nat)
  /-- R337: A Seam receiver corrects, checks and decrypts a flit, then accepts it by sequence or discards it. -/
  | flitReceive (p : Nat) (flit : BitVec 2048)
  /-- R339: No ACK progress for RTO µs starts a replay; the eighth replay moves the link to RETRAIN. -/
  | replayTimeout (p : Nat)
  /-- R562: A received skip block yields the lane-map bytes, which steer the mirroring of a lane onto L16. -/
  | skipBlock (p : Nat) (copiesA : List Nat) (copiesB : List Nat)
  /-- R344: A released Seam port, or one retrying from DOWN, starts a training attempt. -/
  | linkTrain (p : Nat)
  /-- R344: TRAIN or RETRAIN completes alignment and the link enters INIT. -/
  | linkAligned (p : Nat)
  /-- R346: In INIT a port sends an RSYNC every 1 µs until it has received a valid one. -/
  | rsyncSend (p : Nat)
  /-- R346: A valid RSYNC decides between resume and full initialisation, and checks the partner. -/
  | rsyncReceive (p : Nat) (flit : BitVec 2048)
  /-- R344: Loss of symbol lock, or CRC failures on 16 consecutive flits, moves an ACTIVE link to RETRAIN. -/
  | symbolLockLoss (p : Nat)
  /-- R344: A RETRAIN attempt exceeds 500 µs; the third failure in a row moves the link to DOWN. -/
  | retrainAttemptEnd (p : Nat)
  /-- R348: A link enters DOWN and sends LostNotes for unacknowledged messages that have another live route. -/
  | linkDown (p : Nat)
  /-- R355: A message not for this node has its TTL reduced and is forwarded on a port chosen by the route entry. -/
  | messageRoute (p : Nat) (vc : Nat)
  /-- R358: A source originates a transaction with a new TID, FSEQ and deadline. -/
  | transactionIssue (ask : TxnAsk)
  /-- R361: A LostNote makes the source reissue the flow's outstanding transactions in FSEQ order. -/
  | lostnoteReceive (p : Nat)
  /-- R361: RETRY time passes without a completion and the flow's transactions are reissued. -/
  | transactionRetry (tid : Nat)
  /-- R362: A completion retires its transaction, or is discarded as late. -/
  | completionReceive (p : Nat) (vc : Nat)
  /-- R363: The grace period ends without a completion; the transaction ends with FAB_E_UNREACHABLE and a Skip is sent. -/
  | graceExpiry (tid : Nat)
  /-- R365: A destination checks a transaction's deadline, order, duplicate filter and inbound window, then applies it. -/
  | transactionArrival (p : Nat) (vc : Nat)
  /-- R365: A Skip advances the flow's NEXT and records the TID as unreachable. -/
  | skipReceive (p : Nat)
  /-- R374: A SvcNotice delivers a Spool interrupt to its Seam submitter. -/
  | svcNotice (p : Nat)
  /-- R370: FAB_DFCLEAR GO clears one source's filter entries, annex and flow-record source part. -/
  | fabDfclear (who : Who) (val : Word)
  /-- R357: A write of FAB_ROUTEd changes the route for later messages, or is refused. -/
  | routeWrite (who : Who) (d : Nat) (val : Word)
  /-- R379: A write of FAB_TIMESET sets fabric time at the grandmaster, or is refused elsewhere. -/
  | timeSet (who : Who) (val : Word)
  /-- R376: Every 2^INTERVAL µs the master starts an exchange by sending NotchSync. -/
  | notchExchange (p : Nat)
  /-- R376: The follower records t2 on receiving NotchSync. -/
  | notchsync (p : Nat)
  /-- R376: NotchFup delivers t1, and the follower sends NotchReq at t3. -/
  | notchfup (p : Nat)
  /-- R376: The master records t4 and answers with NotchRsp. -/
  | notchreq (p : Nat)
  /-- R376: The follower computes offset and delay and steps or slews fabric time. -/
  | notchrsp (p : Nat)
  /-- R378: Eight missed or voided exchanges, or an upstream port not ACTIVE, put the follower into holdover. -/
  | holdover
  /-- R378: After 10 ms of holdover, VALID clears. -/
  | holdoverTimeout
  /-- R392: A request takes a read or write slot of a channel once a pass is issued to it. -/
  | dramRequestAdmit (c : Nat) (req : DramOp)
  /-- R393: Each time the command bus is free, the scheduler chooses the next DRAM command. -/
  | dramCommandIssue (c : Nat) (ready : List Nat) (port : List Nat)
  /-- R400: A read burst completes and is decoded: clean, corrected, poison or uncorrectable. -/
  | dramReadComplete (c : Nat) (id : Nat) (err : BitVec 640)
  /-- R406: A row test ends as transient, or as lasting with a repair or DCH_F_ROW. -/
  | rowTestComplete (c : Nat) (pass : Bool) (spare : Bool)
  /-- R396: A write burst completes and its checks pass. -/
  | dramWriteComplete (c : Nat) (id : Nat)
  /-- R395: The refresh interval expires and a refresh is issued or postponed. -/
  | refreshDue (c : Nat)
  /-- R395: Every 32 ms MR4 is read to set the refresh interval. -/
  | mr4Read (c : Nat) (hot : Bool)
  /-- R396: ALERT_n reports a parity or write CRC error, and commands are reissued from the oldest not known to be good. -/
  | caParityAlert (c : Nat) (id : Nat)
  /-- R407: DCH_SCRUBCTL.START starts a requested scrub of a frame range. -/
  | scrubStart (who : Who) (c : Nat) (val : Word)
  /-- R407: The scrub reaches its limit, or ends when the channel is fenced. -/
  | scrubComplete (c : Nat)
  /-- R409: Power-good for a channel's slots starts training with the SPD read. -/
  | channelTrain (c : Nat) (mod0 : Option ModuleInfo) (mod1 : Option ModuleInfo)
  /-- R410: A training step ends; the next one starts, a failure is retried once, and a second failure fences the channel. -/
  | trainingStepComplete (c : Nat) (ok : Bool)
  /-- R411: Every 1 ms the DQS oscillator runs per rank and corrects delays, requesting retraining beyond ±1/4 UI. -/
  | dqsTracking (c : Nat) (rank : Nat) (delta : Int)
  /-- R411: Every 128 ms ZQ calibration runs. -/
  | zqCalibration (c : Nat)
  /-- R414: A write of DCH_CTL.DRAIN moves a channel into or out of DRAINING. -/
  | channelDrain (who : Who) (c : Nat) (val : Word)
  /-- R414: DCH_CTL.FENCE requests a planned fence from DRAINING. -/
  | fence (who : Who) (c : Nat) (val : Word)
  /-- R414: DCH_CTL.RETRAIN requests retraining. -/
  | retrain (who : Who) (c : Nat) (val : Word)
  /-- R414: A waiting FENCE or RETRAIN proceeds once the rest of the group is in service. -/
  | channelRequestProceed (c : Nat)
  /-- R414: After 100 ms of waiting, a FENCE ends with DCH_E_GROUP_OUT and a RETRAIN with CAL_E_NO_WINDOW. -/
  | channelRequestTimeout (c : Nat)
  /-- R412: Retraining ends and the channel becomes REJOINING, or FENCED on failure. -/
  | retrainComplete (c : Nat) (ok : Bool)
  /-- R414: The TESTING test passes and the channel enters REJOINING, or it returns to FENCED. -/
  | channelTestComplete (c : Nat) (pass : Bool)
  /-- R390: A PMIC fault or loss of PWR_GOOD fences the channel with DCH_F_MODULE_LOST. -/
  | pmicFault (c : Nat)
  /-- R417: The rebuild engine reads the ring's first line and takes the next entry, or stops on a bad entry. -/
  | rebuildRingPoll (c : Nat)
  /-- R142: The engine rebuilds the frame at the watermark from its twin, from parity or as poison, and then advances the watermark. -/
  | rebuildFrame (c : Nat)
  /-- R417: Writing DCH_RBRING.EN to 1 starts the engine reading the ring and clears a stop. -/
  | rbringEn (who : Who) (c : Nat) (val : Word)
  /-- R429: A bank arbiter takes one read, write, narrow write or atomic and checks the word's code. -/
  | sramAccess (bank : Nat) (word : Nat) (kind : Nat) (val : Word) (mask : Nat) (upset : Nat)
  /-- R432: Every BG_INT µs each quad starts the next region test of the background sweep. -/
  | backgroundRegionTest (quad : Nat)
  /-- R431: SRM_TESTCTL.START starts a requested region test. -/
  | sramTestStart (who : Who) (val : Word)
  /-- R433: A region test ends as transient, as one repairable column, or with a bank fence. -/
  | regionTestComplete (bank : Nat) (result : Nat)
  /-- R442: Every channel clock period, guaranteed and weighted passes are issued to masters with demand. -/
  | regulatePeriod (c : Nat)
  /-- R447: At each 8 µs window boundary, missed guarantees are recorded and the new share settings take effect. -/
  | regulationWindow (c : Nat)
  /-- R441: A write of GUAR is refused if guarantees would exceed 4,096, or if it exceeds CAP. -/
  | qosShareWrite (who : Who) (m : Nat) (occ : Bool) (val : Word)
  /-- R448: QOS_HISTCFGh.CLEAR zeroes a histogram. -/
  | clear (who : Who) (h : Nat) (val : Word)
  /-- R451: PMC_SNAPCTL.GO starts a counter snapshot, at once or at PMC_SNAPAT. -/
  | go (who : Who) (val : Word)
  /-- R451: The capture broadcast leaves and every counter copies itself into its snapshot. -/
  | snapshotBroadcast
  /-- R463: The collector takes one report, classifies it by counting, stores the record and acts on its level. -/
  | faultReport (r : Report)
  /-- R469: A targeted self-test ends as transient or lasting, and a lasting result fences or repairs. -/
  | selftestComplete (src : Nat) (lasting : Bool)
  /-- R469: A self-test that cannot obtain its unit within 100 ms ends with CAL_E_NO_WINDOW. -/
  | selftestNoWindow (src : Nat) (elem : Nat)
  /-- R468: A check failure in the collector's source or global registers records FLT_F_SOURCE_REG or FLT_F_GLOBAL. -/
  | collectorCheckFailure (src : Nat) (glob : Bool)
  /-- R460: FLT_LOG.ACK acknowledges the record named by ACKIDX. -/
  | ack (who : Who) (val : Word)
  /-- R475: FLT_READMIT GO starts re-admission of a fenced unit. -/
  | readmitGo (who : Who) (val : Word)
  /-- R475: A re-admission stage ends and the unit moves to its next stage, to service, or back to FENCED. -/
  | readmitStageComplete (pass : Bool)
  /-- R471: FLT_LEVELCTL.EXIT_BASTING returns the device level from 3 to 0. -/
  | exitBastingWrite (who : Who) (val : Word)
  /-- R473: FLT_LEVELCTL.RELEASE tests the collector and leaves Halt to level 3. -/
  | haltRelease (who : Who) (pass : Bool) (val : Word)
  /-- R486: Thimble service 0x01 returns the Thimble version and the Pattern SVN. -/
  | version (core : Nat)
  /-- R486: Thimble service 0x02 passes the next eligible fault record to the normal world. -/
  | faultNext (core : Nat) (buf : Nat)
  /-- R486: Thimble service 0x03 acknowledges a passed record. -/
  | faultAck (core : Nat) (idx : Nat)
  /-- R486: Thimble service 0x04 re-admits a unit owned by a normal-world partition. -/
  | readmit (core : Nat) (src : Nat) (elem : Nat)
  /-- R486: Thimble service 0x05 leaves Basting mode. -/
  | exitBasting (core : Nat)
  /-- R486: KEY_CTL operation 0 loads a region slot from the generator. -/
  | keyCtlLoad (core : Nat) (region : Nat) (slot : Nat)
  /-- R486: KEY_CTL operation 1 sets a region's CUR. -/
  | keyCtlSetCur (core : Nat) (region : Nat) (slot : Nat)
  /-- R486: KEY_CTL operation 2 erases a region's keys. -/
  | keyCtlErase (core : Nat) (region : Nat)
  /-- R486: KEY_CTL operation 3 sets a region's range. -/
  | keyCtlSetRange (core : Nat) (region : Nat) (base : Nat) (limit : Nat)
  /-- R313: Thimble installs a checked program image in a directory entry. -/
  | progInstall (core : Nat) (id : Nat) (addr : Nat) (classes : Nat)
  /-- R486: Thimble clears a directory entry's VALID. -/
  | progRemove (core : Nat) (id : Nat)
  /-- R505: Thimble extends MR5 to MR7 with a digest. -/
  | measure (core : Nat) (idx : Nat) (addr : Nat)
  /-- R498: Thimble sets the normal-world debug enables allowed by DBGMASK. -/
  | debugN (core : Nat) (bits : Nat)
  /-- R486: Thimble service 0x0B requests a warm reset. -/
  | warmReset (core : Nat)
  /-- R486: Thimble raises the fused minimum SVN to the running Pattern's SVN. -/
  | svnCommit (core : Nat)
  /-- R486: An unknown service number ends with MGT_E_NO_SERVICE. -/
  | ecallNoService (core : Nat) (n : Nat)
  /-- R493: MGT_LOCK.LOCK checks the layouts, then makes the RWL and assignment registers read-only. -/
  | assignmentLock (who : Who) (val : Word)
  /-- R509: MGT_BOOTCTL.DINIT starts writing every descriptor below L as a zero page. -/
  | dinit (who : Who) (val : Word)
  /-- R509: Descriptor initialisation ends and its status is recorded. -/
  | dinitComplete
  /-- R512: MGT_RSTCTL.WARM restarts the management complex while the data path keeps serving. -/
  | warm (who : Who) (val : Word)
  /-- R510: MGT_RSTCTL.CORERST restarts the named cores at Thimble's hart entry. -/
  | corerst (who : Who) (val : Word)
  /-- R505: MGT_MREXT.GO extends the selected MR with the staged digest. -/
  | mrextGo (who : Who) (val : Word)
  /-- R505: MGT_MREXT.LOCK0 closes MR0 until reset. -/
  | lock0 (who : Who) (val : Word)
  /-- R513: The watchdog expires; the first stage reports MGT_F_WATCHDOG and the second causes a warm reset. -/
  | watchdogExpiry
  /-- R513: MGT_WDOGKICK restarts the watchdog count. -/
  | kick (who : Who) (val : Word)
  /-- R511: PWROK rising, or RESET_N low for 10 µs, discharges the Hem gates and starts cold boot. -/
  | coldReset (kind : Nat) (railsOk : Bool)
  /-- R508: A cold-boot step ends and the next one starts, or a failure stops the boot. -/
  | coldBootStepComplete (a : List Nat) (b : List Nat)
  /-- R589: PWROK falls, which is a cold reset. -/
  | pwrokFall
  /-- R499: A debug halt, step or resume request acts on a hart when that world's invasive enable allows it. -/
  | debugHaltRequest (core : Nat) (kind : Nat) (trusted : Bool)
  /-- R518: Once all in-service cores have waited in WFI for 1 µs, the core clock stops. -/
  | p1Entry
  /-- R518: A core interrupt or a debug halt request restarts the core clock. -/
  | p1Exit
  /-- R524: PWR_CTL GO with TARGET 2 checks the refusers and starts entry to Sleep. -/
  | p2Entry (who : Who) (val : Word)
  /-- R524: PWR_CTL GO with TARGET 3 checks the refusers and starts entry to Deep sleep. -/
  | p3Entry (who : Who) (val : Word)
  /-- R524: PWR_CTL GO with TARGET 4 checks the refusers and starts entry to Off. -/
  | p4Entry (who : Who) (val : Word)
  /-- R525: The last entry step ends and the device rests in the target state. -/
  | powerEntryComplete
  /-- R526: An enabled wake source leaves P2 or P3 through its exit sequence, or starts a cold reset from P4. -/
  | wake (src : Nat)
  /-- R526: TIMER_S seconds after entry, the device wakes. -/
  | timerWake
  /-- R529: A step of the P3 resume sequence ends and the next one starts. -/
  | resumeStepComplete (a : List Nat) (b : List Nat) (failed : List Nat)
  /-- R530: A write of PWR_UNITCTLu gates or ungates a unit, within the admitted conditions. -/
  | gate (who : Who) (u : Nat) (val : Word)
  /-- R532: A write of PWR_VCORE.REQ_MV requests a VDD_CORE voltage and interrupts the BMC. -/
  | reqMv (who : Who) (val : Word)
  /-- R538: When every condition holds, the Hem controller starts ramping the gate. -/
  | rampStart (h : Nat)
  /-- R540: The gate reaches full enhancement, PG is set and the channel starts training. -/
  | powerGood (h : Nat)
  /-- R541: The gate misses full enhancement within 1.5 × RAMP_MS, or drops while ON, and is discharged fast. -/
  | hemFGateStuck (h : Nat)
  /-- R542: The sense voltage exceeds VLIM; the controller limits current and the fault timer runs. -/
  | currentLimit (h : Nat)
  /-- R542: The sense voltage falls below VLIM before the fault time, and the controller returns to its previous state. -/
  | currentLimitClear (h : Nat)
  /-- R542: The fault timer ends while limiting; the gate is discharged fast. -/
  | hemFOvercurrent (h : Nat)
  /-- R543: The sense voltage exceeds 2 × VLIM and the gate is pulled below 1 V within 1 µs. -/
  | hemFShort (h : Nat)
  /-- R545: VIN below 10.2 V for 50 µs discharges the gate. -/
  | hemWVinLow (h : Nat)
  /-- R544: The Hem retry timer expires and ramping may start again. -/
  | retryExpiry (h : Nat)
  /-- R547: An edge on HEM_PRSNT_Nn restarts the retry timer and, with the rail on, discharges the gate and fences the channel. -/
  | presenceEdge (h : Nat) (low : Bool)
  /-- R550: HEM_CTL.EN = 0 lowers the rail slowly when the channel is ABSENT or FENCED. -/
  | railOff (who : Who) (h : Nat) (val : Word)
  /-- R538: HEM_CTL.EN = 1 lets the controller ramp under R538. -/
  | railOn (who : Who) (h : Nat) (val : Word)
  /-- R555: HEM_CTL.CLRPEAK restarts the peak record. -/
  | clrpeak (who : Who) (h : Nat) (val : Word)
  /-- R556: A HEM_CFG write with a field out of range is refused with HEM_E_RANGE. -/
  | hemCfgWrite (who : Who) (h : Nat) (val : Word)
  /-- R555: Every 10 µs the rail voltage and sense voltage are converted into telemetry. -/
  | telemetryConversion (h : Nat) (mv : Nat) (uv : Nat)
  /-- R558: After each 2^24-symbol window a lane proposes trims, and may request recalibration. -/
  | trackingWindow (p : Nat) (l : Nat) (eye : Nat) (prop : List Int)
  /-- R559: Every 10 µs each pending trim converter moves one LSB. -/
  | trimStep (p : Nat) (l : Nat)
  /-- R561: CAL_REQ GO with KIND 0 queues a full recalibration of a lane. -/
  | recalibrate (who : Who) (val : Word)
  /-- R568: CAL_REQ GO with KIND 1 queues a lane check. -/
  | laneCheck (who : Who) (val : Word)
  /-- R564: A recalibration step ends: takeover, sweep, plausibility, correction, comparison or hand-back. -/
  | recalStepComplete (p : Nat) (prop : List Int) (eye : Nat) (errs : Nat)
  /-- R566: A lane request that has not reached takeover within 100 ms ends. -/
  | calENoWindow (p : Nat)
  /-- R568: More than BURST_THR corrections on one lane within 1 ms start the targeted lane check. -/
  | calFLaneBurst (p : Nat) (l : Nat) (count : Nat)
  /-- R568: A lane check passes and the lane is handed back, or fails and CAL_F_LANE_LOST is reported. -/
  | laneCheckComplete (p : Nat) (errs : Nat) (spareBad : Bool)
  /-- R572: Enabling a PRBS generator, checker or loopback is refused on a lane in service. -/
  | prbsWrite (who : Who) (p : Nat) (l : Nat) (val : Word)
  /-- R571: CAL_PRBSp_l.CLR zeroes the error and bit counts. -/
  | clr (who : Who) (p : Nat) (l : Nat) (val : Word)
  /-- R575: CAL_MBISTCTL GO with ALG 0 runs March C- on a fenced or testing channel. -/
  | marchC (who : Who) (val : Word)
  /-- R575: CAL_MBISTCTL GO with ALG 1 runs a pattern test of one row per bank. -/
  | rowPerBank (who : Who) (val : Word)
  /-- R575: CAL_MBISTCTL GO with ALG 2 runs the modules' own MBIST. -/
  | moduleMbist (who : Who) (val : Word)
  /-- R575: A DRAM memory test ends, passing or with CAL_E_MBIST_FAIL. -/
  | mbistComplete (failed : Option Nat)
  /-- R574: TAP instruction 0x00 drives the boundary cells when allowed. -/
  | extest
  /-- R573: TAP instruction 0x01 selects the IDCODE register. -/
  | idcode
  /-- R573: TAP instruction 0x02 samples or preloads the boundary cells. -/
  | samplePreload (pins : Nat) (cells : Nat)
  /-- R574: TAP instruction 0x03 clamps outputs when allowed. -/
  | clamp
  /-- R574: TAP instruction 0x04 floats outputs when allowed. -/
  | highz
  /-- R574: TAP instruction 0x05 runs IEEE 1149.6 pulse testing when allowed. -/
  | extestPulse
  /-- R574: TAP instruction 0x06 runs IEEE 1149.6 train testing when allowed. -/
  | extestTrain
  /-- R499: TAP instruction 0x10 reaches the RISC-V debug transport. -/
  | dtmcs
  /-- R499: TAP instruction 0x11 reaches the debug module interface. -/
  | dmi (val : Nat)
  /-- R576: TAP instruction 0x20 runs the production memory test and fuses columns. -/
  | bist (fails : List (Nat × Nat))
  /-- R573: TAP instruction 0xFF, or any unlisted opcode, selects bypass. -/
  | bypass
  /-- R590: A monitored rail stays 50 mV below its minimum for 1 µs; the Hem gates are discharged and the device is held. -/
  | brownout (rails : Nat)
  /-- R596: A sensor comparator trips; THERMTRIP_N is asserted and the device is held until PWROK falls. -/
  | thermalTrip
  /-- R595: Every 250 µs the sensors convert, and SB_ALERT_N follows the alert threshold. -/
  | sensorConversion (core : List Int) (selv : List Int)
  /-- R597: A sideband write to a thermal-page register. -/
  | thermalPageWrite (i : Nat) (val : Word)
  /-- R546: The die-to-die link to the Selvedge die carries traffic again, so HEM_STAT.STALE clears, HEM writes are applied again and new ramps may start. -/
  | d2dLinkReturn
  /-- R354: A message with DST 0x3FFF (CtlRd of GLB_ID, FAB_NODEID or PRT_SEAMSTAT, or its CtlCmp) is taken from the link partner and answered or discarded without forwarding or filtering. -/
  | linkLocalMessage (p : Nat) (vc : Nat)
  /-- R522: A trusted write of MGT_TUSEn sets or clears trusted-use bits, and setting one aborts a normal-world power-state entry that is under way. -/
  | tuseWrite (who : Who) (i : Nat) (val : Word)
  /-- R532: The board regulator moves VDD_CORE toward the requested voltage, changing MEAS_MV and the token-rate floor that applies. -/
  | vddCoreChange (mv : Nat)
  /-- R521: A host-mode link leaves L0 and enters L1 under the host's control, which allows P2 entry and arms the HOST wake source. -/
  | hostLinkL1Entry (p : Nat)
  deriving DecidableEq, Repr

end Sys2Proof
end

