-- ==== Sys2Proof/Decode.lean ====
section
/-! DEFINITION. The words that the table of operations and events gives its rows: it gives none, so no word spells a command. -/

namespace Sys2Proof

/-- The command that a word of the table spells. -/
def decodeTableWord (_nbits _w : Nat) : Option Instr := none

end Sys2Proof
end

