-- ==== Sys2Proof/Machine/Crypto.lean ====
section
/-! DEFINITION. The published algorithms that the spec names: AES-256 (R187), XTS-AES-256 with ciphertext stealing (R207), AES-CMAC (R210), AES-256-GCM
(R219, R334), SHA-384 (R498, R505), CRC-32C (R69, R272). Byte strings are lists of numbers below 256, first byte first. -/

namespace Sys2Proof.Machine

/-- A string of bytes. -/
abbrev Bytes := List Nat

/-- The `n` little-endian bytes of `v`. -/
def leBytes : Nat → Nat → Bytes
  | 0, _ => []
  | n + 1, v => v % 256 :: leBytes n (v / 256)

/-- The number whose little-endian bytes are the list. -/
def leNat : Bytes → Nat
  | [] => 0
  | b :: r => b % 256 + 256 * leNat r

/-- The number whose big-endian bytes are the list. -/
def beNat (l : Bytes) : Nat := leNat l.reverse

/-- The `n` big-endian bytes of `v`. -/
def beBytes (n v : Nat) : Bytes := (leBytes n v).reverse

/-- Bytewise exclusive-or, as long as the shorter string. -/
def xorBytes (a b : Bytes) : Bytes := List.zipWith (fun x y => x ^^^ y) a b

/-- The bytes of a line. -/
def lineBytes (l : Line) : Bytes := leBytes 64 l.toNat

/-- The line of 64 bytes. -/
def lineOf (b : Bytes) : Line := BitVec.ofNat 512 (leNat b)

/-- Split a byte string into pieces of `n` (the last may be shorter); `fuel` bounds the pieces. -/
def chunk (n : Nat) : Nat → Bytes → List Bytes
  | 0, _ => []
  | f + 1, b => if b.isEmpty then [] else b.take n :: chunk n f (b.drop n)

/-! AES-256 (FIPS 197). -/

/-- The S-box, entry `x` in bits `8x+7..8x`. -/
def aesSbox : Nat := 0x16bb54b00f2d99416842e6bf0d89a18cdf2855cee9871e9b948ed9691198f8e19e1dc186b95735610ef6034866b53e708a8bbd4b1f74dde8c6b4a61c2e2578ba08ae7a65eaf4566ca94ed58d6d37c8e779e4959162acd3c25c2406490a3a32e0db0b5ede14b8ee4688902a22dc4f816073195d643d7ea7c41744975fec130ccdd2f3ff1021dab6bcf5389d928f40a351a89f3c507f02f94585334d43fbaaefd0cf584c4a39becb6a5bb1fc20ed00d153842fe329b3d63b52a05a6e1b1a2c830975b227ebe28012079a059618c323c7041531d871f1e5a534ccf73f362693fdb7c072a49cafa2d4adf04759fa7dc982ca76abd7fe2b670130c56f6bf27b777c63

/-- The inverse S-box. -/
def aesInvSbox : Nat := 0x7d0c2155631469e126d677ba7e042b17619953833cbbebc8b0f52aae4d3be0a0ef9cc9939f7ae52d0d4ab519a97f51605fec8027591012b131c7078833a8dd1ff45acd78fec0db9a2079d2c64b3e56fc1bbe18aa0e62b76f89c5291d711af1476edf751ce837f9e28535ade72274ac9673e6b4f0cecff297eadc674f4111913a6b8a130103bdafc1020f3fca8f1e2cd00645b3b80558e4f70ad3bc8c00abd890849d8da75746155edab9edfd5048706c92b6655dcc5ca4d41698688664f6f87225d18b6d49a25b76b224d92866a12e084ec3fa420b954cee3d23c2a632947b54cbe9dec444438e3487ff2f9b8239e37cfbd7f3819ea340bf38a53630d56a0952

def aesSub (x : Nat) : Nat := (aesSbox >>> (8 * x)) % 256
def aesInvSub (x : Nat) : Nat := (aesInvSbox >>> (8 * x)) % 256

/-- Multiplication by x in GF(2^8). -/
def aesX2 (a : Nat) : Nat := if a < 128 then 2 * a else (2 * a - 256) ^^^ 0x1b

/-- One step of the key schedule: from the eight words before, the eight words after. -/
def aesKeyStep (rc : Nat) (k : Bytes) : Bytes :=
  let w := fun i => (k.drop (4 * i)).take 4
  let l := w 7
  let t0 := match l with
    | [a, b, c, d] => [aesSub b ^^^ rc, aesSub c, aesSub d, aesSub a]
    | _ => []
  let n0 := xorBytes (w 0) t0
  let n1 := xorBytes (w 1) n0
  let n2 := xorBytes (w 2) n1
  let n3 := xorBytes (w 3) n2
  let n4 := xorBytes (w 4) (n3.map aesSub)
  let n5 := xorBytes (w 5) n4
  let n6 := xorBytes (w 6) n5
  let n7 := xorBytes (w 7) n6
  n0 ++ n1 ++ n2 ++ n3 ++ n4 ++ n5 ++ n6 ++ n7

def aesExpandFrom (k : Bytes) (rc : Nat) : Nat → Bytes
  | 0 => k
  | n + 1 => k ++ aesExpandFrom (aesKeyStep rc k) (aesX2 rc) n

/-- The fifteen round keys of a 32-byte key. -/
def aesRoundKeys (key : Bytes) : List Bytes := ((aesExpandFrom key 1 7).take 240 |> chunk 16 15)

def aesShiftRows (s : Bytes) : Bytes :=
  match s with
  | [a0, a1, a2, a3, b0, b1, b2, b3, c0, c1, c2, c3, d0, d1, d2, d3] =>
    [a0, b1, c2, d3, b0, c1, d2, a3, c0, d1, a2, b3, d0, a1, b2, c3]
  | _ => s

def aesInvShiftRows (s : Bytes) : Bytes :=
  match s with
  | [a0, a1, a2, a3, b0, b1, b2, b3, c0, c1, c2, c3, d0, d1, d2, d3] =>
    [a0, d1, c2, b3, b0, a1, d2, c3, c0, b1, a2, d3, d0, c1, b2, a3]
  | _ => s

def aesMixCol (a b c d : Nat) : Bytes :=
  let x := a ^^^ b ^^^ c ^^^ d
  [a ^^^ x ^^^ aesX2 (a ^^^ b), b ^^^ x ^^^ aesX2 (b ^^^ c), c ^^^ x ^^^ aesX2 (c ^^^ d), d ^^^ x ^^^ aesX2 (d ^^^ a)]

def aesMix : Bytes → Bytes
  | a :: b :: c :: d :: r => aesMixCol a b c d ++ aesMix r
  | l => l

def aesInvMixPre (a b c d : Nat) : Bytes :=
  let u := aesX2 (aesX2 (a ^^^ c))
  let v := aesX2 (aesX2 (b ^^^ d))
  aesMixCol (a ^^^ u) (b ^^^ v) (c ^^^ u) (d ^^^ v)

def aesInvMix : Bytes → Bytes
  | a :: b :: c :: d :: r => aesInvMixPre a b c d ++ aesInvMix r
  | l => l

def aesEncRounds (s : Bytes) : List Bytes → Bytes
  | [] => s
  | [k] => xorBytes (aesShiftRows (s.map aesSub)) k
  | k :: ks => aesEncRounds (xorBytes (aesMix (aesShiftRows (s.map aesSub))) k) ks

/-- Encrypt one 16-byte block under expanded keys. -/
def aesEncWith (rks : List Bytes) (b : Bytes) : Bytes :=
  match rks with
  | [] => b
  | k :: ks => aesEncRounds (xorBytes b k) ks

def aesDecRounds (s : Bytes) : List Bytes → Bytes
  | [] => s
  | [k] => xorBytes ((aesInvShiftRows s).map aesInvSub) k
  | k :: ks => aesDecRounds (aesInvMix (xorBytes ((aesInvShiftRows s).map aesInvSub) k)) ks

/-- Decrypt one 16-byte block under expanded keys. -/
def aesDecWith (rks : List Bytes) (b : Bytes) : Bytes :=
  match rks.reverse with
  | [] => b
  | k :: ks => aesDecRounds (xorBytes b k) ks

/-- AES-256 of one block under a 32-byte key. -/
def aesEnc (key b : Bytes) : Bytes := aesEncWith (aesRoundKeys key) b

/-! XTS-AES-256 (IEEE 1619, R207). -/

/-- The next tweak: multiplication by the primitive element, little-endian. -/
def xtsNext (t : Nat) : Nat := let d := 2 * t; if d < 2 ^ 128 then d else (d - 2 ^ 128) ^^^ 0x87

def xtsBlock (enc : Bool) (rks : List Bytes) (t : Nat) (b : Bytes) : Bytes :=
  let tb := leBytes 16 t
  xorBytes ((if enc then aesEncWith rks else aesDecWith rks) (xorBytes b tb)) tb

/-- Whole blocks, with ciphertext stealing when the last block is short. -/
def xtsRun (enc : Bool) (rks : List Bytes) (t : Nat) : List Bytes → Bytes
  | [] => []
  | [b] => xtsBlock enc rks t b
  | [a, b] =>
    if b.length = 16 then xtsBlock enc rks t a ++ xtsBlock enc rks (xtsNext t) b
    else if enc then
      let cc := xtsBlock true rks t a
      xtsBlock true rks (xtsNext t) (b ++ cc.drop b.length) ++ cc.take b.length
    else
      let pp := xtsBlock false rks (xtsNext t) a
      xtsBlock false rks t (b ++ pp.drop b.length) ++ pp.take b.length
  | b :: r => xtsBlock enc rks t b ++ xtsRun enc rks (xtsNext t) r

/-- One data unit under data key `k1`, tweak key `k2` and 128-bit tweak value `tw` (R207; a unit of 8 bytes is the exclusive-or the rule gives). -/
def xtsUnit (enc : Bool) (k1 k2 : Bytes) (tw : Nat) (d : Bytes) : Bytes :=
  let t := leNat (aesEnc k2 (leBytes 16 tw))
  let rks := aesRoundKeys k1
  if d.length < 16 then xorBytes d (xtsBlock true rks t (List.replicate 16 0))
  else xtsRun enc rks t (chunk 16 (d.length / 16 + 1) d)

/-! AES-CMAC (SP 800-38B, R210). Blocks are big-endian numbers. -/

def cmacDbl (x : Nat) : Nat := let d := 2 * x; if d < 2 ^ 128 then d else (d - 2 ^ 128) ^^^ 0x87

def cmacRun (rks : List Bytes) (k1 k2 : Nat) (acc : Bytes) : List Bytes → Bytes
  | [] => acc
  | [b] =>
    let m := if b.length = 16 then xorBytes b (beBytes 16 k1)
      else xorBytes (b ++ 0x80 :: List.replicate (15 - b.length) 0) (beBytes 16 k2)
    aesEncWith rks (xorBytes acc m)
  | b :: r => cmacRun rks k1 k2 (aesEncWith rks (xorBytes acc b)) r

/-- AES-256-CMAC of a non-empty message. -/
def aesCmac (key m : Bytes) : Bytes :=
  let rks := aesRoundKeys key
  let k1 := cmacDbl (beNat (aesEncWith rks (List.replicate 16 0)))
  cmacRun rks k1 (cmacDbl k1) (List.replicate 16 0) (chunk 16 (m.length / 16 + 1) m)

/-! AES-256-GCM (SP 800-38D, R219). -/

/-- Product in GCM's field; bit 127 of the number is the first bit. -/
def gcmMulLoop (v z : Nat) : Nat → Nat → Nat
  | 0, _ => z
  | n + 1, x =>
    let z' := if (x >>> n) % 2 = 1 then z ^^^ v else z
    let v' := if v % 2 = 1 then (v / 2) ^^^ (0xe1 <<< 120) else v / 2
    gcmMulLoop v' z' n x

def gcmMul (x y : Nat) : Nat := gcmMulLoop y 0 128 x

def gcmHash (h acc : Nat) : List Bytes → Nat
  | [] => acc
  | b :: r => gcmHash h (gcmMul (acc ^^^ beNat (b ++ List.replicate (16 - b.length) 0)) h) r

def gcmCtr (rks : List Bytes) (iv : Bytes) (c : Nat) : List Bytes → Bytes
  | [] => []
  | b :: r => xorBytes b (aesEncWith rks (iv ++ beBytes 4 c)) ++ gcmCtr rks iv (c + 1) r

/-- Encrypt or decrypt under a 32-byte key and a 12-byte IV. -/
def gcmCrypt (key iv d : Bytes) : Bytes := gcmCtr (aesRoundKeys key) iv 2 (chunk 16 (d.length / 16 + 1) d)

/-- The 16-byte tag over additional data `a` and ciphertext `c`. -/
def gcmTag (key iv a c : Bytes) : Bytes :=
  let rks := aesRoundKeys key
  let h := beNat (aesEncWith rks (List.replicate 16 0))
  let s := gcmHash h (gcmHash h 0 (chunk 16 (a.length / 16 + 1) a)) (chunk 16 (c.length / 16 + 1) c)
  let s' := gcmMul (s ^^^ (8 * a.length * 2 ^ 64 + 8 * c.length)) h
  xorBytes (beBytes 16 s') (aesEncWith rks (iv ++ [0, 0, 0, 1]))

/-! SHA-384 (FIPS 180-4). A table of 64-bit constants is one number, the first constant lowest. -/

/-- Fractional parts of the cube roots of the first eighty primes. -/
def shaRoundTable : Nat := 0x6c44198c4a4758175fcb6fab3ad6faec597f299cfc657e2a4cc5d4becb3e42b6431d67c49c100d4c3c9ebe0a15c9bebc32caab7b40c7249328db77f523047d841b710b35131c471b113f9804bef90dae0a637dc5a2c898a606f067aa72176fbaf57d4f7fee6ed178eada7dd6cde0eb1ed186b8c721c0c207ca273eceea26619cc67178f2e372532bbef9a3f7b2c67915a4506cebde82bde990befffa23631e288cc702081a6439ec84c87814a1f0ab7278a5636f43172f60748f82ee5defb2fc682e6ff3d6b2b8a35b9cca4f7763e3734ed8aa4ae3418acb391c0cb3c5c95a6334b0bcb5e19b48a82748774cdf8eeb991e376c085141ab5319a4c116b8d2d0c8106aa07032bbd1b8f40e35855771202ad69906245565a910d192e819d6ef5218c76c51a30654be30c24b8b70d0f89791a81a664bbc423001a2bfe8a14cf1036492722c851482353b81c2c92e47edaee6766a0abb3c77b2a8650a73548baf63de53380d139d95b3df4d2c6dfc5ac42aed2e1b21385c26c92627b70a8546d22ffc142929670a0e6e7006ca6351e003826fd5a79147930aa725c6e00bf33da88fc2bf597fc7beef0ee4b00327c898fb213fa831c66d2db43210983e5152ee66dfab76f988da831153b55cb0a9dcbd41fbd44a7484aa6ea6e4832de92c6f592b0275240ca1cc77ac9c650fc19dc68b8cd5b5efbe4786384f25e3e49b69c19ef14ad2c19bf174cf6926949bdc06a725c7123580deb1fe3b1696b172be5d74f27b896f550c7dc3d5ffb4e2243185be4ee4b28c12835b0145706fbed807aa98a3030242ab1c5ed5da6d8118923f82a4af194f9b59f111f1b605d0193956c25bf348b538e9b5dba58189dbbcb5c0fbcfec4d3b2f7137449123ef65cd428a2f98d728ae22

/-- Fractional parts of the square roots of the ninth to the sixteenth prime. -/
def shaStartTable : Nat := 0x47b5481dbefa4fa4db0c2e0d64f98fa78eb44a876858151167332667ffc00b31152fecd8f70e59399159015a3070dd17629a292a367cd507cbbb9d5dc1059ed8

/-- The lowest `n` words of a table, the lowest first. -/
def words64 : Nat → Nat → List Nat
  | 0, _ => []
  | n + 1, v => v % 2 ^ 64 :: words64 n (v / 2 ^ 64)

/-- A word turned right by `n` places. -/
def turn64 (n x : Nat) : Nat := x % 2 ^ n * 2 ^ (64 - n) + x / 2 ^ n

/-- Three turns of a word, summed without carries. -/
def turns (l m n x : Nat) : Nat := turn64 l x ^^^ turn64 m x ^^^ turn64 n x

/-- The message schedule grows by a word: `past` holds the words so far, the newest first. -/
def shaGrow (past : List Nat) : List Nat :=
  let far := past.getD 14 0
  let near := past.getD 1 0
  (past.getD 15 0 + past.getD 6 0 + (turn64 1 far ^^^ turn64 8 far ^^^ far / 2 ^ 7) + (turn64 19 near ^^^ turn64 61 near ^^^ near / 2 ^ 6)) % 2 ^ 64 :: past

def shaGrowBy : Nat → List Nat → List Nat
  | 0, past => past
  | n + 1, past => shaGrowBy n (shaGrow past)

/-- The eight working variables as two histories of four words, the newest first: a to d in `up`, e to h in `dn`. -/
structure ShaVars where
  up : List Nat
  dn : List Nat
  deriving DecidableEq, Repr

/-- A round with its word and its constant already added up in `x`. -/
def shaTurn (v : ShaVars) (x : Nat) : ShaVars :=
  let a := v.up.getD 0 0
  let b := v.up.getD 1 0
  let e := v.dn.getD 0 0
  let pick := v.dn.getD 2 0 ^^^ (e &&& (v.dn.getD 1 0 ^^^ v.dn.getD 2 0))
  let most := (a &&& b) ||| (v.up.getD 2 0 &&& (a ||| b))
  let mix := x + v.dn.getD 3 0 + pick + turns 14 18 41 e
  ⟨(mix + most + turns 28 34 39 a) % 2 ^ 64 :: v.up.take 3, (mix + v.up.getD 3 0) % 2 ^ 64 :: v.dn.take 3⟩

/-- A block of 128 bytes is taken into the hash value. -/
def shaAbsorb (h : List Nat) (b : Bytes) : List Nat :=
  let sched := (shaGrowBy 64 ((chunk 8 16 b).map beNat).reverse).reverse
  let v := (List.zipWith (· + ·) sched (words64 80 shaRoundTable)).foldl shaTurn ⟨h.take 4, h.drop 4⟩
  List.zipWith (fun x y => (x + y) % 2 ^ 64) h (v.up ++ v.dn)

/-- A message with its end mark, zeros, and its length in bits, in whole blocks. -/
def shaPad (m : Bytes) : Bytes := m ++ 0x80 :: List.replicate (127 - (m.length + 16) % 128) 0 ++ beBytes 16 (8 * m.length)

/-- SHA-384: 48 bytes. -/
def sha384 (m : Bytes) : Bytes :=
  let p := shaPad m
  (((chunk 128 (p.length / 128) p).foldl shaAbsorb (words64 8 shaStartTable)).take 6).flatMap (beBytes 8)

/-! CRC-32C (R69, R272). -/

def crc32cBits : Nat → Nat → Nat
  | 0, c => c
  | n + 1, c => crc32cBits n (if c % 2 = 1 then (c / 2) ^^^ 0x82f63b78 else c / 2)

/-- Continue a CRC-32C register over a byte string. -/
def crc32cUpd (c : Nat) : Bytes → Nat
  | [] => c
  | b :: r => crc32cUpd (crc32cBits 8 (c ^^^ b)) r

/-- CRC-32C: initial value and final exclusive-or all ones. -/
def crc32c (m : Bytes) : Nat := crc32cUpd 0xffffffff m ^^^ 0xffffffff

end Sys2Proof.Machine
end

