-- ==== Sys2Proof/Machine/Codes.lean ====
section
/-! DEFINITION. The status and fault codes of the chapters (R5, R6 and each chapter's code table). -/

namespace Sys2Proof.Machine.C

/-- Chapter 01. -/
def GLB_W_MONITOR_SPREAD : Nat := 0x1001
/-- Chapter 01. -/
def GLB_E_NO_PLANE : Nat := 0x4002
/-- Chapter 01. -/
def ILN_W_BELOW_ALARM : Nat := 0x1701
/-- Chapter 01. -/
def ILN_F_STALL : Nat := 0x3702
/-- Chapter 01. -/
def ILN_F_TOKEN_CHECK : Nat := 0x3703
/-- Chapter 03. -/
def PRT_E_LINK_RESET : Nat := 0x2081
/-- Chapter 03. -/
def PRT_E_SPEED : Nat := 0x3082
/-- Chapter 03. -/
def PRT_E_HMAP_OVERLAP : Nat := 0x4083
/-- Chapter 03. -/
def PRT_E_HMAP_RANGE : Nat := 0x4084
/-- Chapter 03. -/
def PRT_E_HMAP_BUSY : Nat := 0x4085
/-- Chapter 03. -/
def PRT_E_EXTENT_UNMAPPED : Nat := 0x4086
/-- Chapter 03. -/
def PRT_E_BI_REQUIRED : Nat := 0x4087
/-- Chapter 03. -/
def PRT_W_UNMAPPED : Nat := 0x1088
/-- Chapter 03. -/
def PRT_W_POISON_ON_RESET : Nat := 0x1089
/-- Chapter 03. -/
def PRT_F_LINK : Nat := 0x308A
/-- Chapter 03. -/
def PRT_F_IDE : Nat := 0x308B
/-- Chapter 04. -/
def TIR_W_FRAME_LOW : Nat := 0x1381
/-- Chapter 04. -/
def TIR_W_STRIPE_DEGRADED : Nat := 0x1382
/-- Chapter 04. -/
def TIR_E_LOG_FULL : Nat := 0x2383
/-- Chapter 04. -/
def TIR_E_NO_FRAME : Nat := 0x2384
/-- Chapter 04. -/
def TIR_E_OP_ABORTED : Nat := 0x2385
/-- Chapter 04. -/
def TIR_E_GROUP_DEGRADED : Nat := 0x2386
/-- Chapter 04. -/
def TIR_E_NO_GAIN : Nat := 0x3387
/-- Chapter 04. -/
def TIR_E_BAD_DESCRIPTOR : Nat := 0x4388
/-- Chapter 04. -/
def TIR_E_HOTPIN : Nat := 0x4389
/-- Chapter 04. -/
def TIR_E_STATE : Nat := 0x438A
/-- Chapter 04. -/
def TIR_E_TAIL_RANGE : Nat := 0x438B
/-- Chapter 04. -/
def TIR_E_LAYOUT : Nat := 0x438C
/-- Chapter 04. -/
def TIR_E_FLUSH_BUSY : Nat := 0x438D
/-- Chapter 04. -/
def TIR_F_NOT_STORED : Nat := 0x338E
/-- Chapter 04. -/
def TIR_F_DESC_LOST : Nat := 0x338F
/-- Chapter 04. -/
def TIR_F_COLD_CORRUPT : Nat := 0x3390
/-- Chapter 04. -/
def TIR_F_FRAME_EMPTY : Nat := 0x3391
/-- Chapter 04. -/
def TIR_W_COLD_RETRY : Nat := 0x1392
/-- Chapter 04. -/
def TIR_E_ATTR : Nat := 0x4393
/-- Chapter 04. -/
def TIR_E_FLUSH_INCOMPLETE : Nat := 0x2394
/-- Chapter 05. -/
def PLT_E_ILLEGAL_CODE : Nat := 0x3181
/-- Chapter 05. -/
def PLT_E_DIST_BEYOND : Nat := 0x3182
/-- Chapter 05. -/
def PLT_E_LEN_OVERRUN : Nat := 0x3183
/-- Chapter 05. -/
def PLT_E_HDR_CRC : Nat := 0x3184
/-- Chapter 05. -/
def PLT_E_NO_GAIN : Nat := 0x3185
/-- Chapter 05. -/
def PLT_E_INPUT_END : Nat := 0x3186
/-- Chapter 05. -/
def PLT_E_DATA_CRC : Nat := 0x3187
/-- Chapter 05. -/
def PLT_E_BAD_HEADER : Nat := 0x3188
/-- Chapter 05. -/
def PLT_E_LEN_SHORT : Nat := 0x3189
/-- Chapter 05. -/
def PLT_E_UNIT_FAILED : Nat := 0x218A
/-- Chapter 05. -/
def PLT_E_BAD_JOB : Nat := 0x418B
/-- Chapter 05. -/
def PLT_W_PARTIAL : Nat := 0x108C
/-- Chapter 05. -/
def PLT_F_UNIT : Nat := 0x318D
/-- Chapter 06. -/
def KEY_E_EPOCH_BUSY : Nat := 0x4281
/-- Chapter 06. -/
def KEY_E_NO_KEY : Nat := 0x4282
/-- Chapter 06. -/
def KEY_E_SLOT_IN_USE : Nat := 0x4283
/-- Chapter 06. -/
def KEY_E_NOT_NEWER : Nat := 0x4284
/-- Chapter 06. -/
def KEY_E_RANGE : Nat := 0x4285
/-- Chapter 06. -/
def KEY_E_SWEEP_BUSY : Nat := 0x4286
/-- Chapter 06. -/
def KEY_E_COUNTER_WRITE : Nat := 0x4287
/-- Chapter 06. -/
def KEY_W_LOST_PLACEMENT : Nat := 0x1288
/-- Chapter 06. -/
def KEY_W_EPOCH_LOW : Nat := 0x1289
/-- Chapter 06. -/
def KEY_F_EPOCH_EXHAUSTED : Nat := 0x328A
/-- Chapter 06. -/
def KEY_F_ITAG : Nat := 0x328B
/-- Chapter 06. -/
def KEY_F_UNIT : Nat := 0x328C
/-- Chapter 07. -/
def DIR_W_RO_VIEW : Nat := 0x1301
/-- Chapter 07. -/
def DIR_W_BIND_FULL : Nat := 0x1302
/-- Chapter 07. -/
def DIR_E_NO_PROXY_SLOT : Nat := 0x4303
/-- Chapter 07. -/
def DIR_E_READ_ONLY : Nat := 0x4304
/-- Chapter 07. -/
def DIR_E_REMOTE_DENIED : Nat := 0x4305
/-- Chapter 07. -/
def DIR_E_RECALL_BUSY : Nat := 0x4306
/-- Chapter 07. -/
def DIR_F_SNOOP_TIMEOUT : Nat := 0x3307
/-- Chapter 07. -/
def DIR_F_PROTOCOL : Nat := 0x3308
/-- Chapter 07. -/
def DIR_F_ENTRY : Nat := 0x3309
/-- Chapter 08. -/
def BOB_S_PENDING : Nat := 0x0201
/-- Chapter 08. -/
def BOB_W_POISON_COPIED : Nat := 0x1202
/-- Chapter 08. -/
def BOB_W_ABORTED_FIRST : Nat := 0x1203
/-- Chapter 08. -/
def BOB_E_ENGINE_FAILED : Nat := 0x2204
/-- Chapter 08. -/
def BOB_E_DESC_CHANGED : Nat := 0x2205
/-- Chapter 08. -/
def BOB_E_FIFO_FULL : Nat := 0x2206
/-- Chapter 08. -/
def BOB_E_ILLEGAL : Nat := 0x3207
/-- Chapter 08. -/
def BOB_E_ALIGN : Nat := 0x3208
/-- Chapter 08. -/
def BOB_E_SCRATCH_RANGE : Nat := 0x3209
/-- Chapter 08. -/
def BOB_E_PC_RANGE : Nat := 0x320A
/-- Chapter 08. -/
def BOB_E_TAG_BUSY : Nat := 0x320B
/-- Chapter 08. -/
def BOB_E_POISON_USE : Nat := 0x320C
/-- Chapter 08. -/
def BOB_E_POISON : Nat := 0x320D
/-- Chapter 08. -/
def BOB_E_POST_TWICE : Nat := 0x320E
/-- Chapter 08. -/
def BOB_E_NO_POST : Nat := 0x320F
/-- Chapter 08. -/
def BOB_E_PARAM : Nat := 0x3210
/-- Chapter 08. -/
def BOB_E_TIMEOUT : Nat := 0x3211
/-- Chapter 08. -/
def BOB_E_CAP : Nat := 0x4212
/-- Chapter 08. -/
def BOB_E_FRAME_POOL : Nat := 0x4213
/-- Chapter 08. -/
def BOB_F_ENGINE : Nat := 0x3214
/-- Chapter 09. -/
def SPL_S_NOT_RUNNING : Nat := 0x0801
/-- Chapter 09. -/
def SPL_W_ABORTED : Nat := 0x1802
/-- Chapter 09. -/
def SPL_W_STALE_DOORBELL : Nat := 0x1803
/-- Chapter 09. -/
def SPL_E_CANCELLED : Nat := 0x2804
/-- Chapter 09. -/
def SPL_E_IMAGE_BAD : Nat := 0x3805
/-- Chapter 09. -/
def SPL_E_PROG : Nat := 0x3806
/-- Chapter 09. -/
def SPL_E_NEEDS : Nat := 0x3807
/-- Chapter 09. -/
def SPL_E_DESC : Nat := 0x3808
/-- Chapter 09. -/
def SPL_E_STOPPED : Nat := 0x3809
/-- Chapter 09. -/
def SPL_E_BASTING : Nat := 0x480A
/-- Chapter 09. -/
def SPL_E_DOORBELL : Nat := 0x480B
/-- Chapter 09. -/
def SPL_E_NOT_CONSUMED : Nat := 0x480C
/-- Chapter 09. -/
def SPL_E_CONFIG : Nat := 0x480D
/-- Chapter 09. -/
def SPL_E_CAP_CEILING : Nat := 0x480E
/-- Chapter 10. -/
def PRT_W_SEAM_RETRAIN : Nat := 0x10C1
/-- Chapter 10. -/
def PRT_F_SEAM_DOWN : Nat := 0x30C2
/-- Chapter 10. -/
def PRT_F_SEAM_AUTH : Nat := 0x30C3
/-- Chapter 10. -/
def PRT_E_PARTNER : Nat := 0x40C4
/-- Chapter 10. -/
def PRT_E_NOKEY : Nat := 0x40C5
/-- Chapter 10. -/
def FAB_W_LATE_COMPLETION : Nat := 0x1481
/-- Chapter 10. -/
def FAB_W_REISSUED : Nat := 0x1482
/-- Chapter 10. -/
def FAB_E_UNREACHABLE : Nat := 0x2483
/-- Chapter 10. -/
def FAB_E_FILTER : Nat := 0x2484
/-- Chapter 10. -/
def FAB_E_ACCESS : Nat := 0x4485
/-- Chapter 10. -/
def FAB_E_NO_ROUTE : Nat := 0x4486
/-- Chapter 10. -/
def FAB_E_CONFIG : Nat := 0x4487
/-- Chapter 10. -/
def FAB_E_HALTED : Nat := 0x3488
/-- Chapter 10. -/
def FAB_W_NO_TIME : Nat := 0x1489
/-- Chapter 10. -/
def FAB_W_TIME_HOLDOVER : Nat := 0x148A
/-- Chapter 10. -/
def FAB_F_TIME : Nat := 0x348B
/-- Chapter 10. -/
def FAB_F_ROUTE_LOOP : Nat := 0x348C
/-- Chapter 10. -/
def FAB_F_PROTOCOL : Nat := 0x348D
/-- Chapter 10. -/
def FAB_F_FILTER : Nat := 0x348E
/-- Chapter 10. -/
def FAB_E_ORIG_DISABLED : Nat := 0x448F
/-- Chapter 11. -/
def DCH_W_THROTTLED : Nat := 0x1101
/-- Chapter 11. -/
def DCH_W_RFM_SAT : Nat := 0x1102
/-- Chapter 11. -/
def DCH_W_SPARED : Nat := 0x1103
/-- Chapter 11. -/
def DCH_E_GROUP_OUT : Nat := 0x4104
/-- Chapter 11. -/
def DCH_E_STATE : Nat := 0x4105
/-- Chapter 11. -/
def DCH_E_RANGE : Nat := 0x4106
/-- Chapter 11. -/
def DCH_E_SCRUB_BUSY : Nat := 0x4107
/-- Chapter 11. -/
def DCH_E_REBUILD_ORDER : Nat := 0x4108
/-- Chapter 11. -/
def DCH_E_MODULE : Nat := 0x3109
/-- Chapter 11. -/
def DCH_E_TRAIN : Nat := 0x310A
/-- Chapter 11. -/
def DCH_F_CE : Nat := 0x310B
/-- Chapter 11. -/
def DCH_F_UE : Nat := 0x310C
/-- Chapter 11. -/
def DCH_F_ROW : Nat := 0x310D
/-- Chapter 11. -/
def DCH_F_CA_PARITY : Nat := 0x310E
/-- Chapter 11. -/
def DCH_F_TRACK : Nat := 0x310F
/-- Chapter 11. -/
def DCH_F_MODULE_LOST : Nat := 0x3110
/-- Chapter 12. -/
def SRM_W_COLUMN_REPAIRED : Nat := 0x1401
/-- Chapter 12. -/
def SRM_E_WORD_LOST : Nat := 0x3402
/-- Chapter 12. -/
def SRM_E_TEST_BUSY : Nat := 0x4403
/-- Chapter 12. -/
def SRM_E_BANK_FENCED : Nat := 0x4404
/-- Chapter 12. -/
def SRM_F_CE : Nat := 0x3405
/-- Chapter 12. -/
def SRM_F_UE : Nat := 0x3406
/-- Chapter 12. -/
def SRM_F_BANK : Nat := 0x3407
/-- Chapter 13. -/
def QOS_W_GUAR_MISS : Nat := 0x1881
/-- Chapter 13. -/
def QOS_W_HIST_STEP : Nat := 0x1882
/-- Chapter 13. -/
def QOS_E_OVERCOMMIT : Nat := 0x4883
/-- Chapter 13. -/
def QOS_E_CAP_BELOW : Nat := 0x4884
/-- Chapter 13. -/
def PMC_W_WRAP : Nat := 0x1901
/-- Chapter 13. -/
def PMC_E_SNAP_BUSY : Nat := 0x4902
/-- Chapter 14. -/
def FLT_W_RECORD_LOST : Nat := 0x1F81
/-- Chapter 14. -/
def FLT_E_UNIT_LOST : Nat := 0x2F82
/-- Chapter 14. -/
def FLT_E_BASTING : Nat := 0x4F83
/-- Chapter 14. -/
def FLT_E_STATE : Nat := 0x4F84
/-- Chapter 14. -/
def FLT_E_RELEASE : Nat := 0x4F85
/-- Chapter 14. -/
def FLT_F_SOURCE_REG : Nat := 0x3F86
/-- Chapter 14. -/
def FLT_F_GLOBAL : Nat := 0x3F87
/-- Chapter 15. -/
def MGT_W_DEBUG_ON : Nat := 0x1581
/-- Chapter 15. -/
def MGT_E_NO_SERVICE : Nat := 0x4582
/-- Chapter 15. -/
def MGT_E_POLICY : Nat := 0x4583
/-- Chapter 15. -/
def MGT_E_LOCKED : Nat := 0x4584
/-- Chapter 15. -/
def MGT_E_LAYOUT : Nat := 0x4585
/-- Chapter 15. -/
def MGT_E_ARG : Nat := 0x4586
/-- Chapter 15. -/
def MGT_E_PATTERN_SIG : Nat := 0x3587
/-- Chapter 15. -/
def MGT_E_PATTERN_FMT : Nat := 0x3588
/-- Chapter 15. -/
def MGT_E_PATTERN_SVN : Nat := 0x3589
/-- Chapter 15. -/
def MGT_E_PATTERN_CHANGED : Nat := 0x358A
/-- Chapter 15. -/
def MGT_F_CORE : Nat := 0x358B
/-- Chapter 15. -/
def MGT_F_WATCHDOG : Nat := 0x358C
/-- Chapter 15. -/
def MGT_E_STATE : Nat := 0x458D
/-- Chapter 15. -/
def MGT_E_WARM_RESET : Nat := 0x258E
/-- Chapter 15. -/
def CTL_E_WORLD : Nat := 0x4981
/-- Chapter 15. -/
def CTL_E_NOT_OWNER : Nat := 0x4982
/-- Chapter 15. -/
def CTL_E_WIDTH : Nat := 0x4983
/-- Chapter 15. -/
def CTL_E_NO_REGISTER : Nat := 0x4984
/-- Chapter 15. -/
def CTL_E_PREEMPTED : Nat := 0x4985
/-- Chapter 16. -/
def PWR_E_ABORTED : Nat := 0x2601
/-- Chapter 16. -/
def PWR_E_REFUSED : Nat := 0x4602
/-- Chapter 16. -/
def PWR_E_BUSY : Nat := 0x4603
/-- Chapter 16. -/
def PWR_E_STATE : Nat := 0x4604
/-- Chapter 16. -/
def PWR_E_NOT_GATABLE : Nat := 0x4605
/-- Chapter 16. -/
def PWR_E_VRANGE : Nat := 0x4606
/-- Chapter 17. -/
def HEM_F_OVERCURRENT : Nat := 0x3501
/-- Chapter 17. -/
def HEM_F_SHORT : Nat := 0x3502
/-- Chapter 17. -/
def HEM_F_GATE_STUCK : Nat := 0x3503
/-- Chapter 17. -/
def HEM_F_LINK_LOST : Nat := 0x3504
/-- Chapter 17. -/
def HEM_W_VIN_LOW : Nat := 0x1505
/-- Chapter 17. -/
def HEM_W_REMOVED : Nat := 0x1506
/-- Chapter 17. -/
def HEM_E_STALE : Nat := 0x2507
/-- Chapter 17. -/
def HEM_E_CHANNEL_ACTIVE : Nat := 0x4508
/-- Chapter 17. -/
def HEM_E_RANGE : Nat := 0x4509
/-- Chapter 17. -/
def HEM_E_SELFTEST : Nat := 0x350A
/-- Chapter 18. -/
def CAL_W_IMPLAUSIBLE : Nat := 0x1681
/-- Chapter 18. -/
def CAL_E_NO_WINDOW : Nat := 0x2682
/-- Chapter 18. -/
def CAL_E_INTERRUPTED : Nat := 0x2683
/-- Chapter 18. -/
def CAL_E_STATE : Nat := 0x4684
/-- Chapter 18. -/
def CAL_F_LANE_BURST : Nat := 0x3685
/-- Chapter 18. -/
def CAL_F_LANE_LOST : Nat := 0x3686
/-- Chapter 18. -/
def CAL_E_MBIST_FAIL : Nat := 0x3687
/-- Chapter 18. -/
def CAL_E_REQ_BUSY : Nat := 0x4688

end Sys2Proof.Machine.C
end

