-- ==== Sys2Proof/Config.lean ====
section
/-! DEFINITION. What an implementation fixes and the manual leaves open: free values, constants with no body, so that nothing in
Lean can evaluate them or prove a value of them. Each is named in the assumption log. -/

namespace Sys2Proof.Config

/-- The B0 encoder's page image at EFFORT 2 and 3 (R604), from the effort, the longest code length and the page. -/
opaque pleatPage : Nat → Nat → List Nat → Option (List Nat)

/-- The B0 encoder's coded block body at EFFORT 2 and 3 (R604). -/
opaque pleatBlock : Nat → Nat → List Nat → List Nat

/-- What the on-die random bit generator gives (R191, R209): a number of the given width, by the count of free values drawn before it. -/
opaque randomBits : Nat → Nat → Nat

/-- Content that the manual calls unspecified (R271, R283): so many bits, by the count of free values drawn before. -/
opaque freeBits : Nat → Nat → Nat

/-- The low bits of the status that marks poisoned data in a Seam message: the manual gives a message no place for poison (R350 to R352). -/
opaque poisonCode : Nat

/-- The 512 bits that stand for poison in the data of a Seam write, which has no other place for it (R350: STATUS of a request is zero). -/
opaque poisonData : Nat

/-- The 16-bit check of a token over its routing bits and its data (R39): the manual gives its width and what it covers. -/
opaque tokenCheck : List Nat → Line → Nat

/-- Where an agent sits that the manual places only by a range of nodes (GLB_ILNMAP): row and column within the range. -/
opaque agentPlace : Nat → Nat × Nat

/-- The plane that a source agent chooses for transfers without an address (R31). -/
opaque agentPlane : Nat → Nat

/-- The fused scale of a speed monitor (GLB_SPDMONn.SCALE, R36), by monitor. -/
opaque fusedScale : Nat → Nat

/-- Thimble's version (R486) and the firmware version of Get FW Info (R108), of the accepted Pattern, whose layout does not show them. -/
opaque fwVersion : List Nat → Nat

/-- UUIDs of the two supported logs: the command effects log, and the log of the device's event records (R108, R110). -/
opaque logUuid : Nat → Nat

/-- Bytes of a supported log that R108 does not lay out. -/
opaque logByte : Nat → Nat → Nat

/-- Issue slots that a division takes, of the 36 at most (R290), by its operands. -/
opaque divSlots : Nat → Nat → Nat

/-- The endpoint that the Pattern names as fabric manager (R99), from the Pattern: no section of R503 shows its place. -/
opaque fmEid : List Nat → Nat

/-- The fused unique die identifier, GLB_UID0 and GLB_UID1 (R52). -/
opaque uid : Nat → Nat

/-- Fused trims of a Hem controller, HEM_TRIM (R556). -/
opaque hemTrim : Nat → Nat

/-- CDAT bytes of a head (R85), by the Pattern's CDAT section (R503), head and offset. -/
opaque cdatByte : List Nat → Nat → Nat → Nat

/-- Content of an SPDM response that the SPDM standard defines (R507, R10), by request code, argument and the count of free values drawn before. -/
opaque spdmContent : Nat → Nat → Nat → List Nat

/-- The DeviceID key pair that the fused unique device secret gives, and the alias key pair that it gives with MR0 (R506). -/
opaque deviceKey : Nat
opaque aliasKey : List Nat → Nat

/-- The alias certificate: the alias key signed with the DeviceID key (R506). -/
opaque signCert : Nat → Nat → List Nat

/-- A public key's ECDSA P-384 signature verifies over a message (R504): key, signature, message. -/
opaque ecdsaOk : List Nat → List Nat → List Nat → Bool

/-- Fused key hash of a slot, none when the slot is revoked (R504). -/
opaque keyHash : Nat → Option (List Nat)

/-- JEP106 code in IDCODE (R573), which the manual names only by its owner. -/
opaque jep106 : Nat

end Sys2Proof.Config
end

