-- ==== Sys2Proof/Machine/RegMap.lean ====
section
/-! DEFINITION. The control-space register map, written from the register tables of the chapters of spec/ (R52, R117, R146, R180, R220, R250, R296 and the others): for each register its
address, its fields, their access type (R2), their world attribute (R3) and their reset value. -/

namespace Sys2Proof.Machine

/-- Access types of R2. -/
inductive Acc where | ro | rw | wo | w1c | w1s | rwl
  deriving DecidableEq, Repr

/-- World attributes of R3. -/
inductive WorldAttr where | t | n | a
  deriving DecidableEq, Repr

/-- One named field of a register. -/
structure FieldDesc where
  lo : Nat
  w : Nat
  acc : Acc
  world : WorldAttr
  deriving DecidableEq, Repr

/-- A field as a bit range of a 64-bit register. -/
structure Fld where
  lo : Nat
  w : Nat
  deriving DecidableEq, Repr

/-- The name of each register of the control space. -/
inductive R where
  | GLB_ID | GLB_CAP | GLB_SPDCFG | GLB_SPDMIN | GLB_SPDMON | GLB_ILNSTAT | GLB_ILNCFG | PRT_CFG
  | PRT_LINKSTAT | PRT_DPALAYOUT | PRT_HEADSTAT | PRT_CTLERR | PRT_HMAPA | PRT_HMAPB | TIR_CFG | TIR_EXTENT
  | TIR_LAYOUT | TIR_GLAYOUT | TIR_LOGHEAD | TIR_LOGTAIL | TIR_LOGLIVE | TIR_JCFG | TIR_FRAMECFG | TIR_STAT
  | TIR_FLUSHCTL | TIR_FLUSHBASE | TIR_FLUSHLIM | TIR_GRBASE | TIR_GRLIM | PLT_CFG | PLT_STAT | PLT_ERR
  | PLT_ERRLOC | KEY_CFG | KEY_STAT | KEY_SWEEPCTL | KEY_SWEEPBASE | KEY_SWEEPLIM | KEY_KMAT | KEY_LINKCTL
  | KEY_RGN | KEY_RCTL | DIR_CFG | DIR_STAT | DIR_RECALLCTL | DIR_RECALLBASE | DIR_RECALLLIM | DIR_CRBASE
  | DIR_CRLIM | BOB_CFG | BOB_STAT | BOB_PROGFLT | BOB_LAUNCHES | SPL_DOORBELL | SPL_PROGRESS | SPL_ABORT
  | SPL_STAT | SPL_CFG | SPL_SQBASE | SPL_CQBASE | SPL_CLASSINFO | SPL_IRQ | SPL_CAP | PRT_SEAMCFG
  | PRT_SEAMSTAT | PRT_SEAMCNT | FAB_NODEID | FAB_CFG | FAB_STAT | FAB_DFCFG | FAB_DFBASE | FAB_DFCLEAR
  | FAB_TIMECFG | FAB_TIME | FAB_TIMESET | FAB_TIMESTAT | FAB_INWINA | FAB_INWINB | FAB_ROUTE | DCH_CFG
  | DCH_STAT | DCH_CTL | DCH_MODULE | DCH_SCHED | DCH_RHCFG | DCH_RBRING | DCH_WMARK | DCH_SCRUBCTL
  | DCH_SCRUBBASE | DCH_SCRUBLIM | DCH_SCRUBSUM | DCH_ECCSTAT | DCH_FIFO | DCH_ROWFLT | DCH_SCRUBUE | SRM_CFG
  | SRM_STAT | SRM_ERRLOG | SRM_TESTCTL | SRM_FENCE | QOS_CFG | QOS_STAT | QOS_MISSLOG | QOS_MDRAM
  | QOS_MOCC | QOS_HISTCFG | QOS_HISTSTAT | QOS_HBIN | PMC_CNT | PMC_MODE | PMC_SNAPCTL | PMC_SNAPAT
  | PMC_SNAPTIME | PMC_STAT | PMC_SNAP | FLT_CFG | FLT_STAT | FLT_LOG | FLT_READMIT | FLT_LEVELCTL
  | FLT_REC | FLT_SRCCFG | FLT_SRCSTAT | MGT_BOOTSTAT | MGT_BOOTCTL | MGT_LOCK | MGT_RSTCTL | MGT_DBGCTL
  | MGT_WDOG | MGT_WDOGKICK | MGT_CORESTAT | MGT_FWBASE | MGT_FWLIMIT | MGT_CTLERR | MGT_TUSE | MGT_MRSTAGE
  | MGT_MREXT | MGT_ASSIGN | MGT_IRQRT | MGT_MR | MGT_LOCKDIG | PWR_CFG | PWR_CTL | PWR_STAT
  | PWR_WAKE | PWR_VCORE | PWR_ACCT | PWR_REFCNT | PWR_UNITCTL | HEM_CFG | HEM_CTL | HEM_STAT
  | HEM_TELEM | HEM_PEAK | HEM_ENERGY | CAL_CFG | CAL_LIMITS | CAL_REQ | CAL_MBISTCTL | CAL_MBISTRES
  | CAL_AXTCFG | CAL_LANE | CAL_PRBS | SBT_TEMP | SBT_THERMCFG | SBT_STAT
  deriving DecidableEq, Repr

/-- One register (or array of registers): `dims` gives the stride and count of each index, outermost first. -/
structure RegDesc where
  id : R
  base : Nat
  dims : List (Nat × Nat)
  fields : List FieldDesc
  reset : Nat
  deriving DecidableEq, Repr

/-- Registers of block GLB (chapter 01_architecture_interlining). -/
def regsGLB : List RegDesc :=
  [⟨.GLB_ID, 0x0, [],
    [⟨0, 16, .ro, .a⟩, ⟨16, 8, .ro, .a⟩, ⟨24, 8, .ro, .a⟩], 0x1b09256⟩,
   ⟨.GLB_CAP, 0x8, [],
    [⟨0, 8, .ro, .a⟩, ⟨8, 8, .ro, .a⟩, ⟨16, 8, .ro, .a⟩, ⟨24, 3, .ro, .a⟩], 0x4401810⟩,
   ⟨.GLB_SPDCFG, 0x100, [],
    [⟨0, 8, .rw, .n⟩, ⟨8, 1, .rw, .n⟩, ⟨9, 1, .wo, .n⟩, ⟨10, 1, .ro, .n⟩, ⟨32, 16, .rw, .n⟩], 0x64000000120⟩,
   ⟨.GLB_SPDMIN, 0x108, [],
    [⟨0, 16, .ro, .a⟩, ⟨16, 4, .ro, .a⟩, ⟨32, 16, .ro, .a⟩, ⟨48, 4, .ro, .a⟩, ⟨52, 1, .w1c, .a⟩, ⟨53, 1, .w1c, .a⟩], 0x0⟩,
   ⟨.GLB_SPDMON, 0x180, [(0x8, 16)],
    [⟨0, 32, .ro, .a⟩, ⟨32, 16, .ro, .a⟩, ⟨48, 2, .ro, .a⟩, ⟨50, 1, .ro, .a⟩], 0x0⟩,
   ⟨.GLB_ILNSTAT, 0x200, [],
    [⟨0, 4, .ro, .a⟩, ⟨4, 4, .ro, .a⟩, ⟨8, 1, .w1c, .a⟩, ⟨9, 1, .w1c, .a⟩], 0x0⟩,
   ⟨.GLB_ILNCFG, 0x208, [],
    [⟨0, 4, .rwl, .t⟩], 0xf⟩]

/-- Registers of block PRT (chapter 03_host_ports_cxl/10_seam_fabric). -/
def regsPRT : List RegDesc :=
  [⟨.PRT_CFG, 0x100000, [(0x10000, 16)],
    [⟨0, 1, .rwl, .n⟩, ⟨1, 2, .rwl, .n⟩, ⟨3, 1, .rwl, .n⟩, ⟨4, 2, .rwl, .n⟩, ⟨6, 1, .rw, .n⟩, ⟨7, 1, .rw, .n⟩, ⟨8, 1, .w1s, .t⟩, ⟨16, 4, .rw, .n⟩], 0xa00c0⟩,
   ⟨.PRT_LINKSTAT, 0x100008, [(0x10000, 16)],
    [⟨0, 1, .ro, .a⟩, ⟨1, 2, .ro, .a⟩, ⟨3, 2, .ro, .a⟩, ⟨5, 2, .ro, .a⟩, ⟨7, 2, .ro, .a⟩, ⟨9, 1, .ro, .a⟩, ⟨10, 1, .ro, .a⟩, ⟨32, 16, .ro, .a⟩, ⟨48, 3, .ro, .a⟩], 0x0⟩,
   ⟨.PRT_DPALAYOUT, 0x100010, [(0x10000, 16)],
    [⟨0, 20, .rwl, .n⟩, ⟨20, 20, .rwl, .n⟩, ⟨40, 20, .rwl, .n⟩, ⟨60, 1, .rwl, .n⟩], 0x0⟩,
   ⟨.PRT_HEADSTAT, 0x100018, [(0x10000, 16)],
    [⟨0, 5, .ro, .a⟩, ⟨5, 1, .ro, .a⟩, ⟨6, 1, .ro, .a⟩, ⟨7, 1, .ro, .a⟩, ⟨32, 32, .ro, .a⟩], 0x0⟩,
   ⟨.PRT_CTLERR, 0x100020, [(0x10000, 16)],
    [⟨0, 32, .ro, .n⟩, ⟨32, 16, .ro, .n⟩, ⟨48, 15, .ro, .n⟩, ⟨63, 1, .w1c, .n⟩], 0x0⟩,
   ⟨.PRT_HMAPA, 0x101000, [(0x10000, 16), (0x10, 512)],
    [⟨0, 1, .rw, .n⟩, ⟨1, 1, .rw, .n⟩, ⟨21, 26, .rw, .n⟩, ⟨47, 17, .rw, .n⟩], 0x0⟩,
   ⟨.PRT_HMAPB, 0x101008, [(0x10000, 16), (0x10, 512)],
    [⟨0, 1, .rw, .n⟩, ⟨21, 26, .rw, .n⟩, ⟨47, 14, .rw, .n⟩], 0x0⟩,
   ⟨.PRT_SEAMCFG, 0x100100, [(0x10000, 16)],
    [⟨0, 14, .rwl, .n⟩, ⟨14, 1, .rwl, .n⟩, ⟨16, 4, .rw, .n⟩, ⟨32, 16, .rw, .n⟩], 0x40000⟩,
   ⟨.PRT_SEAMSTAT, 0x100108, [(0x10000, 16)],
    [⟨0, 3, .ro, .a⟩, ⟨3, 1, .ro, .a⟩, ⟨4, 1, .ro, .a⟩, ⟨5, 1, .ro, .a⟩, ⟨6, 1, .ro, .a⟩, ⟨7, 1, .ro, .a⟩, ⟨8, 14, .ro, .a⟩, ⟨22, 4, .ro, .a⟩], 0x0⟩,
   ⟨.PRT_SEAMCNT, 0x100110, [(0x10000, 16)],
    [⟨0, 16, .ro, .a⟩, ⟨16, 16, .ro, .a⟩, ⟨32, 16, .ro, .a⟩, ⟨48, 16, .ro, .a⟩], 0x0⟩]

/-- Registers of block TIR (chapter 04_line_cache_tiers_gusset). -/
def regsTIR : List RegDesc :=
  [⟨.TIR_CFG, 0x400000, [],
    [⟨0, 1, .rw, .n⟩, ⟨1, 1, .rw, .n⟩, ⟨2, 1, .rw, .n⟩], 0x7⟩,
   ⟨.TIR_EXTENT, 0x400008, [],
    [⟨0, 16, .rwl, .t⟩], 0x0⟩,
   ⟨.TIR_LAYOUT, 0x400010, [],
    [⟨0, 11, .rwl, .t⟩, ⟨16, 2, .ro, .t⟩], 0x0⟩,
   ⟨.TIR_GLAYOUT, 0x400018, [(0x8, 2)],
    [⟨0, 11, .rwl, .t⟩, ⟨16, 11, .rwl, .t⟩], 0x0⟩,
   ⟨.TIR_LOGHEAD, 0x400040, [(0x8, 2)],
    [⟨0, 28, .ro, .a⟩, ⟨28, 10, .ro, .a⟩], 0x0⟩,
   ⟨.TIR_LOGTAIL, 0x400050, [(0x8, 2)],
    [⟨0, 28, .rw, .n⟩], 0x0⟩,
   ⟨.TIR_LOGLIVE, 0x400060, [(0x8, 2)],
    [⟨0, 40, .ro, .a⟩], 0x0⟩,
   ⟨.TIR_JCFG, 0x400070, [],
    [⟨0, 10, .rw, .n⟩, ⟨16, 10, .rw, .n⟩], 0x100032⟩,
   ⟨.TIR_FRAMECFG, 0x400078, [],
    [⟨0, 10, .rw, .n⟩, ⟨16, 1, .rw, .n⟩], 0x10100⟩,
   ⟨.TIR_STAT, 0x400080, [],
    [⟨0, 1, .w1c, .a⟩, ⟨1, 1, .w1c, .a⟩, ⟨2, 1, .w1c, .a⟩, ⟨3, 1, .w1c, .a⟩, ⟨4, 1, .w1c, .a⟩, ⟨16, 24, .ro, .a⟩], 0x0⟩,
   ⟨.TIR_FLUSHCTL, 0x400088, [],
    [⟨0, 1, .wo, .n⟩, ⟨1, 1, .ro, .n⟩, ⟨2, 1, .rw, .n⟩, ⟨48, 16, .ro, .n⟩], 0x0⟩,
   ⟨.TIR_FLUSHBASE, 0x400090, [],
    [⟨12, 35, .rw, .n⟩], 0x0⟩,
   ⟨.TIR_FLUSHLIM, 0x400098, [],
    [⟨12, 35, .rw, .n⟩], 0x0⟩,
   ⟨.TIR_GRBASE, 0x401000, [(0x10, 64)],
    [⟨0, 1, .rw, .n⟩, ⟨1, 2, .rw, .n⟩, ⟨3, 1, .rw, .n⟩, ⟨4, 1, .rw, .n⟩, ⟨21, 26, .rw, .n⟩], 0x4⟩,
   ⟨.TIR_GRLIM, 0x401008, [(0x10, 64)],
    [⟨21, 26, .rw, .n⟩], 0x0⟩]

/-- Registers of block PLT (chapter 05_pleat_compression). -/
def regsPLT : List RegDesc :=
  [⟨.PLT_CFG, 0x420000, [(0x1000, 24)],
    [⟨0, 1, .rw, .n⟩, ⟨4, 4, .rw, .n⟩, ⟨8, 1, .rw, .n⟩, ⟨12, 4, .rw, .n⟩], 0x21f1⟩,
   ⟨.PLT_STAT, 0x420008, [(0x1000, 24)],
    [⟨0, 1, .ro, .a⟩, ⟨1, 1, .ro, .a⟩, ⟨8, 5, .ro, .a⟩, ⟨16, 8, .ro, .a⟩], 0x0⟩,
   ⟨.PLT_ERR, 0x420010, [(0x1000, 24)],
    [⟨0, 16, .ro, .n⟩, ⟨16, 3, .ro, .n⟩, ⟨19, 7, .ro, .n⟩, ⟨26, 1, .ro, .n⟩, ⟨27, 1, .ro, .n⟩, ⟨48, 15, .ro, .n⟩, ⟨63, 1, .w1c, .n⟩], 0x0⟩,
   ⟨.PLT_ERRLOC, 0x420018, [(0x1000, 24)],
    [⟨0, 47, .ro, .n⟩], 0x0⟩]

/-- Registers of block KEY (chapter 06_encryption_keys). -/
def regsKEY : List RegDesc :=
  [⟨.KEY_CFG, 0x440000, [],
    [⟨0, 6, .rw, .n⟩, ⟨6, 1, .rw, .n⟩], 0x66⟩,
   ⟨.KEY_STAT, 0x440008, [],
    [⟨0, 1, .w1c, .a⟩, ⟨1, 1, .w1c, .a⟩, ⟨2, 1, .w1c, .a⟩, ⟨3, 1, .w1c, .a⟩, ⟨16, 24, .ro, .a⟩, ⟨40, 5, .ro, .a⟩], 0x0⟩,
   ⟨.KEY_SWEEPCTL, 0x440010, [],
    [⟨0, 1, .wo, .n⟩, ⟨1, 1, .ro, .n⟩, ⟨2, 1, .wo, .n⟩, ⟨48, 16, .ro, .n⟩], 0x0⟩,
   ⟨.KEY_SWEEPBASE, 0x440018, [],
    [⟨12, 35, .rw, .n⟩], 0x0⟩,
   ⟨.KEY_SWEEPLIM, 0x440020, [],
    [⟨12, 35, .rw, .n⟩], 0x0⟩,
   ⟨.KEY_KMAT, 0x440100, [(0x8, 12)],
    [⟨0, 64, .wo, .t⟩], 0x0⟩,
   ⟨.KEY_LINKCTL, 0x440180, [],
    [⟨0, 4, .rw, .t⟩, ⟨4, 1, .rw, .t⟩, ⟨5, 1, .rw, .t⟩, ⟨6, 1, .wo, .t⟩], 0x0⟩,
   ⟨.KEY_RGN, 0x441000, [(0x10, 32)],
    [⟨0, 1, .rw, .t⟩, ⟨1, 26, .rw, .t⟩, ⟨27, 26, .rw, .t⟩], 0x0⟩,
   ⟨.KEY_RCTL, 0x441008, [(0x10, 32)],
    [⟨0, 1, .rw, .t⟩, ⟨1, 1, .ro, .a⟩, ⟨2, 2, .ro, .a⟩, ⟨4, 2, .ro, .a⟩, ⟨6, 1, .ro, .a⟩, ⟨8, 1, .wo, .t⟩, ⟨9, 1, .wo, .t⟩, ⟨10, 1, .wo, .t⟩, ⟨11, 1, .wo, .t⟩], 0x0⟩]

/-- Registers of block DIR (chapter 07_coherence_directory). -/
def regsDIR : List RegDesc :=
  [⟨.DIR_CFG, 0x410000, [],
    [⟨0, 1, .rwl, .n⟩, ⟨1, 1, .rwl, .n⟩, ⟨2, 1, .rw, .n⟩], 0x5⟩,
   ⟨.DIR_STAT, 0x410008, [],
    [⟨0, 1, .w1c, .a⟩, ⟨1, 1, .w1c, .a⟩, ⟨2, 1, .w1c, .a⟩, ⟨3, 1, .w1c, .a⟩, ⟨4, 1, .w1c, .a⟩, ⟨5, 1, .w1c, .a⟩, ⟨32, 14, .ro, .a⟩], 0x0⟩,
   ⟨.DIR_RECALLCTL, 0x410010, [],
    [⟨0, 1, .wo, .n⟩, ⟨1, 1, .ro, .n⟩, ⟨48, 16, .ro, .n⟩], 0x0⟩,
   ⟨.DIR_RECALLBASE, 0x410018, [],
    [⟨12, 35, .rw, .n⟩], 0x0⟩,
   ⟨.DIR_RECALLLIM, 0x410020, [],
    [⟨12, 35, .rw, .n⟩], 0x0⟩,
   ⟨.DIR_CRBASE, 0x411000, [(0x10, 32)],
    [⟨0, 1, .rw, .n⟩, ⟨1, 1, .rw, .n⟩, ⟨2, 1, .rw, .n⟩, ⟨21, 26, .rw, .n⟩], 0x2⟩,
   ⟨.DIR_CRLIM, 0x411008, [(0x10, 32)],
    [⟨21, 26, .rw, .n⟩], 0x0⟩]

/-- Registers of block BOB (chapter 09_spools_services). -/
def regsBOB : List RegDesc :=
  [⟨.BOB_CFG, 0x500000, [(0x1000, 64)],
    [⟨0, 8, .rw, .n⟩, ⟨8, 1, .rw, .n⟩], 0xff⟩,
   ⟨.BOB_STAT, 0x500008, [(0x1000, 64)],
    [⟨0, 3, .ro, .a⟩, ⟨16, 10, .ro, .a⟩, ⟨32, 13, .ro, .a⟩, ⟨48, 3, .ro, .a⟩], 0x0⟩,
   ⟨.BOB_PROGFLT, 0x500010, [(0x1000, 64)],
    [⟨0, 16, .ro, .n⟩, ⟨16, 13, .ro, .n⟩, ⟨32, 10, .ro, .n⟩, ⟨48, 15, .ro, .n⟩, ⟨63, 1, .w1c, .n⟩], 0x0⟩,
   ⟨.BOB_LAUNCHES, 0x500018, [(0x1000, 64)],
    [⟨0, 48, .ro, .a⟩], 0x0⟩]

/-- Registers of block SPL (chapter 09_spools_services). -/
def regsSPL : List RegDesc :=
  [⟨.SPL_DOORBELL, 0x600000, [(0x100, 1024)],
    [⟨0, 32, .rw, .n⟩, ⟨32, 32, .rw, .n⟩], 0x0⟩,
   ⟨.SPL_PROGRESS, 0x600008, [(0x100, 1024)],
    [⟨0, 32, .ro, .n⟩, ⟨32, 32, .ro, .n⟩], 0x0⟩,
   ⟨.SPL_ABORT, 0x600010, [(0x100, 1024)],
    [⟨0, 32, .rw, .n⟩, ⟨32, 1, .wo, .n⟩, ⟨33, 1, .ro, .n⟩, ⟨48, 16, .ro, .n⟩], 0x0⟩,
   ⟨.SPL_STAT, 0x600018, [(0x100, 1024)],
    [⟨0, 3, .ro, .n⟩, ⟨3, 1, .w1c, .n⟩, ⟨8, 7, .ro, .n⟩, ⟨16, 16, .ro, .n⟩, ⟨32, 16, .ro, .n⟩, ⟨48, 16, .ro, .n⟩], 0x0⟩,
   ⟨.SPL_CFG, 0x600040, [(0x100, 1024)],
    [⟨0, 1, .rw, .n⟩, ⟨1, 1, .wo, .n⟩, ⟨2, 1, .rw, .n⟩, ⟨3, 1, .rw, .n⟩, ⟨4, 5, .rw, .n⟩, ⟨10, 6, .rw, .n⟩], 0x440⟩,
   ⟨.SPL_SQBASE, 0x600048, [(0x100, 1024)],
    [⟨12, 35, .rw, .n⟩], 0x0⟩,
   ⟨.SPL_CQBASE, 0x600050, [(0x100, 1024)],
    [⟨12, 35, .rw, .n⟩], 0x0⟩,
   ⟨.SPL_CLASSINFO, 0x600058, [(0x100, 1024)],
    [⟨0, 3, .ro, .n⟩, ⟨8, 5, .ro, .n⟩, ⟨13, 1, .ro, .n⟩, ⟨16, 2, .ro, .n⟩, ⟨18, 14, .ro, .n⟩, ⟨32, 16, .ro, .n⟩], 0x0⟩,
   ⟨.SPL_IRQ, 0x600060, [(0x100, 1024)],
    [⟨0, 6, .rw, .n⟩, ⟨6, 1, .rw, .n⟩, ⟨8, 8, .rw, .n⟩, ⟨16, 16, .rw, .n⟩], 0x106⟩,
   ⟨.SPL_CAP, 0x600070, [(0x100, 1024), (0x8, 17)],
    [⟨0, 64, .rw, .n⟩], 0x0⟩]

/-- Registers of block FAB (chapter 10_seam_fabric). -/
def regsFAB : List RegDesc :=
  [⟨.FAB_NODEID, 0x700000, [],
    [⟨0, 14, .rwl, .n⟩], 0x3fff⟩,
   ⟨.FAB_CFG, 0x700008, [],
    [⟨0, 14, .rw, .n⟩, ⟨16, 14, .rw, .n⟩, ⟨32, 16, .rwl, .n⟩, ⟨48, 1, .rw, .n⟩, ⟨49, 1, .rw, .n⟩], 0x1000000280032⟩,
   ⟨.FAB_STAT, 0x700010, [],
    [⟨0, 1, .w1c, .a⟩, ⟨1, 1, .w1c, .a⟩, ⟨2, 1, .w1c, .a⟩, ⟨3, 1, .w1c, .a⟩, ⟨4, 1, .w1c, .a⟩, ⟨5, 1, .w1c, .a⟩, ⟨32, 13, .ro, .a⟩], 0x0⟩,
   ⟨.FAB_DFCFG, 0x700018, [],
    [⟨0, 14, .rwl, .n⟩], 0x0⟩,
   ⟨.FAB_DFBASE, 0x700020, [],
    [⟨21, 26, .rwl, .n⟩], 0x0⟩,
   ⟨.FAB_DFCLEAR, 0x700028, [],
    [⟨0, 14, .wo, .n⟩, ⟨14, 1, .wo, .n⟩, ⟨15, 1, .ro, .n⟩], 0x0⟩,
   ⟨.FAB_TIMECFG, 0x700030, [],
    [⟨0, 1, .rwl, .n⟩, ⟨1, 4, .rwl, .n⟩, ⟨5, 1, .rw, .n⟩, ⟨6, 4, .rw, .n⟩, ⟨16, 16, .rw, .n⟩], 0x50100⟩,
   ⟨.FAB_TIME, 0x700038, [],
    [⟨0, 64, .ro, .a⟩], 0x0⟩,
   ⟨.FAB_TIMESET, 0x700040, [],
    [⟨0, 64, .wo, .n⟩], 0x0⟩,
   ⟨.FAB_TIMESTAT, 0x700048, [],
    [⟨0, 16, .ro, .a⟩, ⟨16, 16, .ro, .a⟩, ⟨32, 1, .ro, .a⟩, ⟨33, 1, .ro, .a⟩, ⟨34, 1, .w1c, .a⟩, ⟨35, 1, .w1c, .a⟩], 0x0⟩,
   ⟨.FAB_INWINA, 0x700800, [(0x10, 64)],
    [⟨0, 1, .rw, .n⟩, ⟨1, 1, .rw, .n⟩, ⟨2, 1, .rw, .n⟩, ⟨3, 1, .rw, .n⟩, ⟨4, 1, .rw, .n⟩, ⟨5, 1, .rw, .n⟩, ⟨21, 26, .rw, .n⟩, ⟨48, 14, .rw, .n⟩], 0x0⟩,
   ⟨.FAB_INWINB, 0x700808, [(0x10, 64)],
    [⟨0, 14, .rw, .n⟩, ⟨21, 26, .rw, .n⟩], 0x0⟩,
   ⟨.FAB_ROUTE, 0x710000, [(0x8, 16384)],
    [⟨0, 16, .rw, .n⟩, ⟨16, 2, .rw, .n⟩], 0x0⟩]

/-- Registers of block DCH (chapter 11_dram_subsystem). -/
def regsDCH : List RegDesc :=
  [⟨.DCH_CFG, 0x200000, [(0x10000, 24)],
    [⟨0, 2, .rwl, .n⟩, ⟨2, 1, .rw, .n⟩, ⟨3, 1, .rw, .n⟩, ⟨4, 2, .rw, .n⟩], 0x16⟩,
   ⟨.DCH_STAT, 0x200008, [(0x10000, 24)],
    [⟨0, 3, .ro, .a⟩, ⟨3, 1, .ro, .a⟩, ⟨4, 2, .ro, .a⟩, ⟨6, 2, .ro, .a⟩, ⟨8, 1, .w1c, .a⟩, ⟨9, 1, .w1c, .a⟩, ⟨10, 1, .w1c, .a⟩], 0x0⟩,
   ⟨.DCH_CTL, 0x200010, [(0x10000, 24)],
    [⟨0, 1, .rw, .n⟩, ⟨1, 1, .wo, .n⟩, ⟨2, 1, .wo, .n⟩, ⟨3, 1, .ro, .n⟩, ⟨48, 16, .ro, .n⟩], 0x0⟩,
   ⟨.DCH_MODULE, 0x200018, [(0x10000, 24), (0x8, 2)],
    [⟨0, 1, .ro, .a⟩, ⟨1, 1, .ro, .a⟩, ⟨2, 1, .ro, .a⟩, ⟨3, 1, .ro, .a⟩, ⟨4, 2, .ro, .a⟩, ⟨6, 1, .ro, .a⟩, ⟨8, 8, .ro, .a⟩, ⟨16, 16, .ro, .a⟩, ⟨32, 16, .ro, .a⟩], 0x0⟩,
   ⟨.DCH_SCHED, 0x200028, [(0x10000, 24)],
    [⟨0, 7, .rw, .n⟩, ⟨8, 7, .rw, .n⟩, ⟨16, 4, .rw, .n⟩, ⟨20, 4, .rw, .n⟩, ⟨24, 4, .rw, .n⟩], 0xfc81030⟩,
   ⟨.DCH_RHCFG, 0x200030, [(0x10000, 24)],
    [⟨0, 16, .rw, .n⟩, ⟨16, 16, .rw, .n⟩], 0x1f41000⟩,
   ⟨.DCH_RBRING, 0x200038, [(0x10000, 24)],
    [⟨0, 1, .rw, .n⟩, ⟨12, 35, .rw, .n⟩], 0x0⟩,
   ⟨.DCH_WMARK, 0x200040, [(0x10000, 24)],
    [⟨0, 29, .ro, .a⟩, ⟨32, 29, .ro, .a⟩], 0x0⟩,
   ⟨.DCH_SCRUBCTL, 0x200048, [(0x10000, 24)],
    [⟨0, 1, .wo, .n⟩, ⟨1, 1, .ro, .n⟩, ⟨48, 16, .ro, .n⟩], 0x0⟩,
   ⟨.DCH_SCRUBBASE, 0x200050, [(0x10000, 24)],
    [⟨0, 29, .rw, .n⟩], 0x0⟩,
   ⟨.DCH_SCRUBLIM, 0x200058, [(0x10000, 24)],
    [⟨0, 29, .rw, .n⟩], 0x0⟩,
   ⟨.DCH_SCRUBSUM, 0x200060, [(0x10000, 24)],
    [⟨0, 32, .ro, .n⟩, ⟨32, 16, .ro, .n⟩, ⟨48, 16, .ro, .n⟩], 0x0⟩,
   ⟨.DCH_ECCSTAT, 0x200068, [(0x10000, 24)],
    [⟨0, 32, .ro, .a⟩, ⟨32, 16, .ro, .a⟩, ⟨48, 4, .ro, .a⟩, ⟨52, 4, .ro, .a⟩], 0x0⟩,
   ⟨.DCH_FIFO, 0x200070, [(0x10000, 24)],
    [⟨0, 11, .ro, .a⟩, ⟨16, 11, .ro, .a⟩], 0x0⟩,
   ⟨.DCH_ROWFLT, 0x200078, [(0x10000, 24)],
    [⟨0, 45, .ro, .n⟩, ⟨62, 1, .ro, .n⟩, ⟨63, 1, .w1c, .n⟩], 0x0⟩,
   ⟨.DCH_SCRUBUE, 0x200080, [(0x10000, 24), (0x8, 16)],
    [⟨0, 45, .ro, .n⟩, ⟨63, 1, .ro, .n⟩], 0x0⟩]

/-- Registers of block SRM (chapter 12_onchip_sram). -/
def regsSRM : List RegDesc :=
  [⟨.SRM_CFG, 0x800000, [],
    [⟨0, 1, .rw, .n⟩, ⟨1, 1, .rw, .n⟩, ⟨16, 16, .rw, .n⟩], 0x3e80003⟩,
   ⟨.SRM_STAT, 0x800008, [],
    [⟨0, 1, .w1c, .a⟩, ⟨1, 1, .w1c, .a⟩, ⟨2, 1, .w1c, .a⟩, ⟨3, 1, .w1c, .a⟩, ⟨32, 16, .ro, .a⟩], 0x0⟩,
   ⟨.SRM_ERRLOG, 0x800010, [],
    [⟨0, 9, .ro, .n⟩, ⟨9, 14, .ro, .n⟩, ⟨23, 8, .ro, .n⟩, ⟨31, 1, .ro, .n⟩, ⟨48, 15, .ro, .n⟩, ⟨63, 1, .w1c, .n⟩], 0x0⟩,
   ⟨.SRM_TESTCTL, 0x800018, [],
    [⟨0, 9, .rw, .n⟩, ⟨9, 6, .rw, .n⟩, ⟨15, 1, .rw, .n⟩, ⟨16, 1, .wo, .n⟩, ⟨17, 1, .ro, .n⟩, ⟨48, 16, .ro, .n⟩], 0x0⟩,
   ⟨.SRM_FENCE, 0x800020, [(0x8, 8)],
    [⟨0, 64, .ro, .a⟩], 0x0⟩]

/-- Registers of block QOS (chapter 13_regulation_counters). -/
def regsQOS : List RegDesc :=
  [⟨.QOS_CFG, 0x900000, [],
    [⟨0, 1, .rw, .n⟩, ⟨8, 4, .rw, .n⟩], 0x401⟩,
   ⟨.QOS_STAT, 0x900008, [],
    [⟨0, 1, .w1c, .a⟩], 0x0⟩,
   ⟨.QOS_MISSLOG, 0x900010, [],
    [⟨0, 5, .ro, .n⟩, ⟨8, 5, .ro, .n⟩, ⟨16, 16, .ro, .n⟩, ⟨32, 16, .ro, .n⟩, ⟨63, 1, .w1c, .n⟩], 0x0⟩,
   ⟨.QOS_MDRAM, 0x900100, [(0x8, 28)],
    [⟨0, 13, .rw, .n⟩, ⟨16, 8, .rw, .n⟩, ⟨32, 13, .rw, .n⟩], 0x0⟩,
   ⟨.QOS_MOCC, 0x900200, [(0x8, 28)],
    [⟨0, 13, .rw, .n⟩, ⟨16, 8, .rw, .n⟩, ⟨32, 13, .rw, .n⟩], 0x0⟩,
   ⟨.QOS_HISTCFG, 0x900400, [(0x10, 8)],
    [⟨0, 5, .rw, .n⟩, ⟨5, 2, .rw, .n⟩, ⟨7, 2, .rw, .n⟩, ⟨9, 1, .rw, .n⟩, ⟨10, 1, .wo, .n⟩, ⟨16, 16, .rw, .n⟩], 0x0⟩,
   ⟨.QOS_HISTSTAT, 0x900408, [(0x10, 8)],
    [⟨0, 32, .ro, .n⟩, ⟨32, 24, .ro, .n⟩, ⟨56, 8, .ro, .n⟩], 0x0⟩,
   ⟨.QOS_HBIN, 0x910000, [(0x1000, 8), (0x8, 512)],
    [⟨0, 32, .ro, .n⟩, ⟨32, 32, .ro, .n⟩], 0x0⟩]

/-- Registers of block PMC (chapter 13_regulation_counters). -/
def regsPMC : List RegDesc :=
  [⟨.PMC_CNT, 0xa00000, [(0x8, 1536)],
    [⟨0, 48, .ro, .a⟩, ⟨63, 1, .w1c, .a⟩], 0x0⟩,
   ⟨.PMC_MODE, 0xa03000, [(0x8, 24)],
    [⟨0, 64, .rw, .n⟩], 0x0⟩,
   ⟨.PMC_SNAPCTL, 0xa03100, [],
    [⟨0, 1, .wo, .n⟩, ⟨1, 1, .rw, .n⟩, ⟨2, 1, .rw, .n⟩, ⟨3, 1, .ro, .n⟩, ⟨4, 1, .ro, .n⟩], 0x0⟩,
   ⟨.PMC_SNAPAT, 0xa03108, [],
    [⟨0, 64, .rw, .n⟩], 0x0⟩,
   ⟨.PMC_SNAPTIME, 0xa03110, [],
    [⟨0, 64, .ro, .n⟩], 0x0⟩,
   ⟨.PMC_STAT, 0xa03118, [],
    [⟨0, 1, .w1c, .a⟩, ⟨32, 32, .ro, .a⟩], 0x0⟩,
   ⟨.PMC_SNAP, 0xa04000, [(0x8, 1536)],
    [⟨0, 48, .ro, .a⟩, ⟨63, 1, .ro, .a⟩], 0x0⟩]

/-- Registers of block FLT (chapter 14_faults_degraded_operation). -/
def regsFLT : List RegDesc :=
  [⟨.FLT_CFG, 0xb00000, [],
    [⟨0, 3, .rw, .t⟩, ⟨3, 1, .rw, .t⟩], 0x9⟩,
   ⟨.FLT_STAT, 0xb00008, [],
    [⟨0, 3, .ro, .a⟩, ⟨3, 1, .w1c, .a⟩, ⟨4, 1, .ro, .a⟩, ⟨16, 10, .ro, .a⟩, ⟨32, 11, .ro, .a⟩, ⟨48, 10, .ro, .a⟩], 0x0⟩,
   ⟨.FLT_LOG, 0xb00010, [],
    [⟨0, 10, .ro, .t⟩, ⟨16, 16, .ro, .t⟩, ⟨32, 10, .wo, .t⟩, ⟨42, 1, .wo, .t⟩], 0x0⟩,
   ⟨.FLT_READMIT, 0xb00018, [],
    [⟨0, 12, .rw, .t⟩, ⟨12, 16, .rw, .t⟩, ⟨28, 1, .wo, .t⟩, ⟨29, 1, .ro, .t⟩, ⟨30, 2, .ro, .t⟩, ⟨48, 16, .ro, .t⟩], 0x0⟩,
   ⟨.FLT_LEVELCTL, 0xb00020, [],
    [⟨0, 1, .wo, .t⟩, ⟨1, 1, .wo, .t⟩, ⟨48, 16, .ro, .t⟩], 0x0⟩,
   ⟨.FLT_REC, 0xb10000, [(0x20, 1024), (0x8, 4)],
    [⟨0, 64, .ro, .t⟩], 0x0⟩,
   ⟨.FLT_SRCCFG, 0xb20000, [(0x8, 4096)],
    [⟨0, 16, .rw, .t⟩, ⟨16, 32, .rw, .t⟩], 0x0⟩,
   ⟨.FLT_SRCSTAT, 0xb30000, [(0x8, 4096)],
    [⟨0, 3, .ro, .a⟩, ⟨3, 1, .ro, .a⟩, ⟨4, 1, .ro, .a⟩, ⟨16, 16, .ro, .a⟩, ⟨32, 10, .ro, .a⟩], 0x0⟩]

/-- Registers of block MGT (chapter 15_management_worlds_boot). -/
def regsMGT : List RegDesc :=
  [⟨.MGT_BOOTSTAT, 0xe00000, [],
    [⟨0, 4, .ro, .a⟩, ⟨4, 1, .ro, .a⟩, ⟨5, 1, .ro, .a⟩, ⟨8, 16, .ro, .a⟩, ⟨48, 16, .ro, .a⟩], 0x0⟩,
   ⟨.MGT_BOOTCTL, 0xe00008, [],
    [⟨0, 1, .wo, .t⟩, ⟨1, 1, .ro, .t⟩, ⟨48, 16, .ro, .t⟩], 0x0⟩,
   ⟨.MGT_LOCK, 0xe00010, [],
    [⟨0, 1, .w1s, .t⟩, ⟨1, 1, .ro, .a⟩, ⟨48, 16, .ro, .t⟩], 0x0⟩,
   ⟨.MGT_RSTCTL, 0xe00018, [],
    [⟨0, 1, .wo, .t⟩, ⟨4, 4, .wo, .t⟩, ⟨8, 3, .ro, .a⟩, ⟨32, 16, .ro, .a⟩], 0x0⟩,
   ⟨.MGT_DBGCTL, 0xe00020, [],
    [⟨0, 1, .rw, .t⟩, ⟨1, 1, .rw, .t⟩, ⟨2, 1, .rw, .t⟩, ⟨3, 1, .rw, .t⟩], 0x0⟩,
   ⟨.MGT_WDOG, 0xe00028, [],
    [⟨0, 16, .rw, .t⟩, ⟨16, 1, .rw, .t⟩, ⟨17, 1, .w1c, .a⟩], 0x3e8⟩,
   ⟨.MGT_WDOGKICK, 0xe00030, [],
    [⟨0, 1, .wo, .a⟩], 0x0⟩,
   ⟨.MGT_CORESTAT, 0xe00038, [],
    [⟨0, 4, .ro, .a⟩, ⟨4, 4, .ro, .a⟩, ⟨8, 4, .ro, .a⟩, ⟨12, 4, .ro, .a⟩], 0x4444⟩,
   ⟨.MGT_FWBASE, 0xe00040, [],
    [⟨21, 26, .rwl, .t⟩], 0x0⟩,
   ⟨.MGT_FWLIMIT, 0xe00048, [],
    [⟨21, 26, .rwl, .t⟩], 0x0⟩,
   ⟨.MGT_CTLERR, 0xe00050, [],
    [⟨0, 32, .ro, .n⟩, ⟨32, 2, .ro, .n⟩, ⟨48, 16, .ro, .n⟩], 0x0⟩,
   ⟨.MGT_TUSE, 0xe00080, [(0x8, 4)],
    [⟨0, 64, .rw, .t⟩], 0x0⟩,
   ⟨.MGT_MRSTAGE, 0xe000c0, [(0x8, 6)],
    [⟨0, 64, .wo, .t⟩], 0x0⟩,
   ⟨.MGT_MREXT, 0xe000f0, [],
    [⟨0, 3, .rw, .t⟩, ⟨3, 1, .wo, .t⟩, ⟨4, 1, .w1s, .t⟩], 0x0⟩,
   ⟨.MGT_ASSIGN, 0xe00100, [(0x8, 256)],
    [⟨0, 14, .rwl, .t⟩, ⟨14, 2, .rwl, .t⟩], 0xc000⟩,
   ⟨.MGT_IRQRT, 0xe00900, [(0x8, 256)],
    [⟨0, 2, .rwl, .t⟩, ⟨2, 2, .rwl, .t⟩, ⟨4, 5, .rwl, .t⟩], 0x0⟩,
   ⟨.MGT_MR, 0xe01100, [(0x30, 8), (0x8, 6)],
    [⟨0, 64, .ro, .a⟩], 0x0⟩,
   ⟨.MGT_LOCKDIG, 0xe01280, [(0x8, 6)],
    [⟨0, 64, .ro, .a⟩], 0x0⟩]

/-- Registers of block PWR (chapter 16_power_states). -/
def regsPWR : List RegDesc :=
  [⟨.PWR_CFG, 0xc00000, [],
    [⟨0, 1, .rw, .n⟩], 0x1⟩,
   ⟨.PWR_CTL, 0xc00008, [],
    [⟨0, 3, .rw, .n⟩, ⟨3, 1, .wo, .n⟩, ⟨4, 1, .ro, .n⟩, ⟨48, 16, .ro, .n⟩], 0x0⟩,
   ⟨.PWR_STAT, 0xc00010, [],
    [⟨0, 3, .ro, .a⟩, ⟨8, 4, .ro, .a⟩], 0x0⟩,
   ⟨.PWR_WAKE, 0xc00018, [],
    [⟨0, 1, .rw, .n⟩, ⟨1, 1, .rw, .n⟩, ⟨2, 1, .rw, .n⟩, ⟨3, 1, .rw, .n⟩, ⟨4, 1, .rw, .n⟩, ⟨16, 32, .rw, .n⟩], 0x17⟩,
   ⟨.PWR_VCORE, 0xc00020, [],
    [⟨0, 10, .rw, .n⟩, ⟨16, 10, .ro, .a⟩], 0x2ee⟩,
   ⟨.PWR_ACCT, 0xc00040, [(0x8, 4)],
    [⟨0, 16, .ro, .a⟩, ⟨16, 16, .ro, .a⟩, ⟨32, 16, .ro, .a⟩, ⟨48, 16, .ro, .a⟩], 0x0⟩,
   ⟨.PWR_REFCNT, 0xc00080, [(0x8, 32)],
    [⟨0, 32, .ro, .a⟩], 0x0⟩,
   ⟨.PWR_UNITCTL, 0xc01000, [(0x8, 256)],
    [⟨0, 2, .rw, .n⟩, ⟨2, 2, .ro, .a⟩, ⟨48, 16, .ro, .n⟩], 0x0⟩]

/-- Registers of block HEM (chapter 17_hem_hot_swap). -/
def regsHEM : List RegDesc :=
  [⟨.HEM_CFG, 0xc10000, [(0x100, 24)],
    [⟨0, 7, .rw, .n⟩, ⟨8, 8, .rw, .n⟩, ⟨16, 10, .rw, .n⟩, ⟨32, 9, .rw, .n⟩, ⟨48, 16, .rw, .n⟩], 0x138800fa0064140a⟩,
   ⟨.HEM_CTL, 0xc10008, [(0x100, 24)],
    [⟨0, 1, .rw, .n⟩, ⟨1, 1, .wo, .n⟩, ⟨48, 16, .ro, .n⟩], 0x0⟩,
   ⟨.HEM_STAT, 0xc10010, [(0x100, 24)],
    [⟨0, 3, .ro, .a⟩, ⟨3, 1, .ro, .a⟩, ⟨4, 1, .ro, .a⟩, ⟨5, 1, .ro, .a⟩, ⟨6, 1, .ro, .a⟩, ⟨7, 1, .w1c, .a⟩, ⟨8, 16, .ro, .a⟩, ⟨24, 10, .ro, .a⟩, ⟨48, 16, .ro, .a⟩], 0x0⟩,
   ⟨.HEM_TELEM, 0xc10018, [(0x100, 24)],
    [⟨0, 16, .ro, .a⟩, ⟨16, 16, .ro, .a⟩, ⟨32, 16, .ro, .a⟩], 0x0⟩,
   ⟨.HEM_PEAK, 0xc10020, [(0x100, 24)],
    [⟨0, 16, .ro, .a⟩, ⟨16, 16, .ro, .a⟩], 0xffff⟩,
   ⟨.HEM_ENERGY, 0xc10028, [(0x100, 24)],
    [⟨0, 64, .ro, .a⟩], 0x0⟩]

/-- Registers of block CAL (chapter 18_link_calibration_test). -/
def regsCAL : List RegDesc :=
  [⟨.CAL_CFG, 0xd00000, [],
    [⟨0, 1, .rw, .n⟩, ⟨1, 1, .rw, .n⟩, ⟨16, 16, .rw, .n⟩, ⟨32, 16, .rw, .n⟩], 0x10000400003⟩,
   ⟨.CAL_LIMITS, 0xd00008, [],
    [⟨0, 4, .rw, .n⟩, ⟨8, 6, .rw, .n⟩, ⟨16, 6, .rw, .n⟩, ⟨32, 16, .rw, .n⟩], 0x1400100c04⟩,
   ⟨.CAL_REQ, 0xd00010, [],
    [⟨0, 4, .rw, .n⟩, ⟨4, 4, .rw, .n⟩, ⟨8, 1, .rw, .n⟩, ⟨9, 1, .wo, .n⟩, ⟨10, 1, .ro, .n⟩, ⟨48, 16, .ro, .n⟩], 0x0⟩,
   ⟨.CAL_MBISTCTL, 0xd00020, [],
    [⟨0, 5, .rw, .n⟩, ⟨5, 2, .rw, .n⟩, ⟨7, 1, .wo, .n⟩, ⟨8, 1, .ro, .n⟩, ⟨48, 16, .ro, .n⟩], 0x0⟩,
   ⟨.CAL_MBISTRES, 0xd00028, [],
    [⟨0, 45, .ro, .n⟩, ⟨63, 1, .ro, .n⟩], 0x0⟩,
   ⟨.CAL_AXTCFG, 0xd00040, [],
    [⟨0, 1, .rw, .n⟩, ⟨1, 2, .rw, .n⟩, ⟨8, 7, .rw, .n⟩, ⟨32, 32, .ro, .n⟩], 0x0⟩,
   ⟨.CAL_LANE, 0xd01000, [(0x100, 16), (0x8, 17)],
    [⟨0, 5, .ro, .a⟩, ⟨5, 7, .ro, .a⟩, ⟨12, 6, .ro, .a⟩, ⟨18, 6, .ro, .a⟩, ⟨24, 6, .ro, .a⟩, ⟨30, 7, .ro, .a⟩, ⟨38, 3, .ro, .a⟩, ⟨41, 1, .ro, .a⟩, ⟨48, 16, .ro, .a⟩], 0x0⟩,
   ⟨.CAL_PRBS, 0xd02000, [(0x100, 16), (0x8, 17)],
    [⟨0, 1, .rw, .n⟩, ⟨1, 1, .rw, .n⟩, ⟨2, 2, .rw, .n⟩, ⟨4, 1, .ro, .n⟩, ⟨5, 1, .wo, .n⟩, ⟨6, 1, .rw, .n⟩, ⟨16, 24, .ro, .n⟩, ⟨40, 24, .ro, .n⟩], 0xc⟩]

/-- Registers of block SBT (chapter 19_electrical_package). -/
def regsSBT : List RegDesc :=
  [⟨.SBT_TEMP, 0x100000000, [],
    [⟨0, 8, .ro, .a⟩, ⟨8, 5, .ro, .a⟩, ⟨16, 8, .ro, .a⟩, ⟨24, 2, .ro, .a⟩], 0x0⟩,
   ⟨.SBT_THERMCFG, 0x100000008, [],
    [⟨0, 8, .rw, .a⟩, ⟨8, 4, .rw, .a⟩], 0x564⟩,
   ⟨.SBT_STAT, 0x100000010, [],
    [⟨0, 1, .ro, .a⟩, ⟨1, 1, .w1c, .a⟩, ⟨2, 1, .ro, .a⟩, ⟨3, 1, .w1c, .a⟩, ⟨4, 5, .ro, .a⟩], 0x0⟩]

/-- The rows that can hold offset `off`, by block (R58). -/
def regsAt (off : Nat) : List RegDesc :=
  if off < 0x100000 then regsGLB
  else if off < 0x200000 then regsPRT
  else if off < 0x400000 then regsDCH
  else if off < 0x410000 then regsTIR
  else if off < 0x420000 then regsDIR
  else if off < 0x440000 then regsPLT
  else if off < 0x500000 then regsKEY
  else if off < 0x600000 then regsBOB
  else if off < 0x700000 then regsSPL
  else if off < 0x800000 then regsFAB
  else if off < 0x900000 then regsSRM
  else if off < 0xa00000 then regsQOS
  else if off < 0xb00000 then regsPMC
  else if off < 0xc00000 then regsFLT
  else if off < 0xc10000 then regsPWR
  else if off < 0xd00000 then regsHEM
  else if off < 0xe00000 then regsCAL
  else if off < 0xf00000 then regsMGT
  else if off < 0x100000000 then []
  else regsSBT

/-- The indices of `off` in a register array, or none when it is not one of its registers. -/
def regIdx : Nat → List (Nat × Nat) → Option (List Nat)
  | 0, [] => some []
  | _ + 1, [] => none
  | d, (st, cnt) :: rest =>
    if d / st < cnt then
      match regIdx (d % st) rest with
      | some l => some (d / st :: l)
      | none => none
    else none

/-- A register found at an offset, with its indices. -/
structure RegHit where
  desc : RegDesc
  idx : List Nat
  deriving DecidableEq, Repr

/-- First row of `l` that holds `off`. -/
def regFindIn (off : Nat) : List RegDesc → Option RegHit
  | [] => none
  | r :: rest =>
    if r.base ≤ off then
      match regIdx (off - r.base) r.dims with
      | some ix => some ⟨r, ix⟩
      | none => regFindIn off rest
    else regFindIn off rest

/-- The register at control-space offset `off` (R58, R59). -/
def regFind (off : Nat) : Option RegHit := regFindIn off (regsAt off)

/-! Register addresses. -/

/-- Offset of GLB_ID (01_architecture_interlining). -/
def GLB_ID : Nat := 0x0
/-- Offset of GLB_CAP (01_architecture_interlining). -/
def GLB_CAP : Nat := 0x8
/-- Offset of GLB_SPDCFG (01_architecture_interlining). -/
def GLB_SPDCFG : Nat := 0x100
/-- Offset of GLB_SPDMIN (01_architecture_interlining). -/
def GLB_SPDMIN : Nat := 0x108
/-- Offset of GLB_SPDMONn (01_architecture_interlining). -/
def GLB_SPDMON (i : Nat) : Nat := 0x180 + i * 0x8
/-- Offset of GLB_ILNSTAT (01_architecture_interlining). -/
def GLB_ILNSTAT : Nat := 0x200
/-- Offset of GLB_ILNCFG (01_architecture_interlining). -/
def GLB_ILNCFG : Nat := 0x208
/-- Offset of PRT_CFG (03_host_ports_cxl). -/
def PRT_CFG (i : Nat) : Nat := 0x100000 + i * 0x10000
/-- Offset of PRT_LINKSTAT (03_host_ports_cxl). -/
def PRT_LINKSTAT (i : Nat) : Nat := 0x100008 + i * 0x10000
/-- Offset of PRT_DPALAYOUT (03_host_ports_cxl). -/
def PRT_DPALAYOUT (i : Nat) : Nat := 0x100010 + i * 0x10000
/-- Offset of PRT_HEADSTAT (03_host_ports_cxl). -/
def PRT_HEADSTAT (i : Nat) : Nat := 0x100018 + i * 0x10000
/-- Offset of PRT_CTLERR (03_host_ports_cxl). -/
def PRT_CTLERR (i : Nat) : Nat := 0x100020 + i * 0x10000
/-- Offset of PRT_HMAPAn (03_host_ports_cxl). -/
def PRT_HMAPA (i j : Nat) : Nat := 0x101000 + i * 0x10000 + j * 0x10
/-- Offset of PRT_HMAPBn (03_host_ports_cxl). -/
def PRT_HMAPB (i j : Nat) : Nat := 0x101008 + i * 0x10000 + j * 0x10
/-- Offset of TIR_CFG (04_line_cache_tiers_gusset). -/
def TIR_CFG : Nat := 0x400000
/-- Offset of TIR_EXTENT (04_line_cache_tiers_gusset). -/
def TIR_EXTENT : Nat := 0x400008
/-- Offset of TIR_LAYOUT (04_line_cache_tiers_gusset). -/
def TIR_LAYOUT : Nat := 0x400010
/-- Offset of TIR_GLAYOUTg (04_line_cache_tiers_gusset). -/
def TIR_GLAYOUT (i : Nat) : Nat := 0x400018 + i * 0x8
/-- Offset of TIR_LOGHEADg (04_line_cache_tiers_gusset). -/
def TIR_LOGHEAD (i : Nat) : Nat := 0x400040 + i * 0x8
/-- Offset of TIR_LOGTAILg (04_line_cache_tiers_gusset). -/
def TIR_LOGTAIL (i : Nat) : Nat := 0x400050 + i * 0x8
/-- Offset of TIR_LOGLIVEg (04_line_cache_tiers_gusset). -/
def TIR_LOGLIVE (i : Nat) : Nat := 0x400060 + i * 0x8
/-- Offset of TIR_JCFG (04_line_cache_tiers_gusset). -/
def TIR_JCFG : Nat := 0x400070
/-- Offset of TIR_FRAMECFG (04_line_cache_tiers_gusset). -/
def TIR_FRAMECFG : Nat := 0x400078
/-- Offset of TIR_STAT (04_line_cache_tiers_gusset). -/
def TIR_STAT : Nat := 0x400080
/-- Offset of TIR_FLUSHCTL (04_line_cache_tiers_gusset). -/
def TIR_FLUSHCTL : Nat := 0x400088
/-- Offset of TIR_FLUSHBASE (04_line_cache_tiers_gusset). -/
def TIR_FLUSHBASE : Nat := 0x400090
/-- Offset of TIR_FLUSHLIM (04_line_cache_tiers_gusset). -/
def TIR_FLUSHLIM : Nat := 0x400098
/-- Offset of TIR_GRBASEn (04_line_cache_tiers_gusset). -/
def TIR_GRBASE (i : Nat) : Nat := 0x401000 + i * 0x10
/-- Offset of TIR_GRLIMn (04_line_cache_tiers_gusset). -/
def TIR_GRLIM (i : Nat) : Nat := 0x401008 + i * 0x10
/-- Offset of PLT_CFG (05_pleat_compression). -/
def PLT_CFG (i : Nat) : Nat := 0x420000 + i * 0x1000
/-- Offset of PLT_STAT (05_pleat_compression). -/
def PLT_STAT (i : Nat) : Nat := 0x420008 + i * 0x1000
/-- Offset of PLT_ERR (05_pleat_compression). -/
def PLT_ERR (i : Nat) : Nat := 0x420010 + i * 0x1000
/-- Offset of PLT_ERRLOC (05_pleat_compression). -/
def PLT_ERRLOC (i : Nat) : Nat := 0x420018 + i * 0x1000
/-- Offset of KEY_CFG (06_encryption_keys). -/
def KEY_CFG : Nat := 0x440000
/-- Offset of KEY_STAT (06_encryption_keys). -/
def KEY_STAT : Nat := 0x440008
/-- Offset of KEY_SWEEPCTL (06_encryption_keys). -/
def KEY_SWEEPCTL : Nat := 0x440010
/-- Offset of KEY_SWEEPBASE (06_encryption_keys). -/
def KEY_SWEEPBASE : Nat := 0x440018
/-- Offset of KEY_SWEEPLIM (06_encryption_keys). -/
def KEY_SWEEPLIM : Nat := 0x440020
/-- Offset of KEY_KMATw (06_encryption_keys). -/
def KEY_KMAT (i : Nat) : Nat := 0x440100 + i * 0x8
/-- Offset of KEY_LINKCTL (06_encryption_keys). -/
def KEY_LINKCTL : Nat := 0x440180
/-- Offset of KEY_RGNk (06_encryption_keys). -/
def KEY_RGN (i : Nat) : Nat := 0x441000 + i * 0x10
/-- Offset of KEY_RCTLk (06_encryption_keys). -/
def KEY_RCTL (i : Nat) : Nat := 0x441008 + i * 0x10
/-- Offset of DIR_CFG (07_coherence_directory). -/
def DIR_CFG : Nat := 0x410000
/-- Offset of DIR_STAT (07_coherence_directory). -/
def DIR_STAT : Nat := 0x410008
/-- Offset of DIR_RECALLCTL (07_coherence_directory). -/
def DIR_RECALLCTL : Nat := 0x410010
/-- Offset of DIR_RECALLBASE (07_coherence_directory). -/
def DIR_RECALLBASE : Nat := 0x410018
/-- Offset of DIR_RECALLLIM (07_coherence_directory). -/
def DIR_RECALLLIM : Nat := 0x410020
/-- Offset of DIR_CRBASEn (07_coherence_directory). -/
def DIR_CRBASE (i : Nat) : Nat := 0x411000 + i * 0x10
/-- Offset of DIR_CRLIMn (07_coherence_directory). -/
def DIR_CRLIM (i : Nat) : Nat := 0x411008 + i * 0x10
/-- Offset of BOB_CFG (09_spools_services). -/
def BOB_CFG (i : Nat) : Nat := 0x500000 + i * 0x1000
/-- Offset of BOB_STAT (09_spools_services). -/
def BOB_STAT (i : Nat) : Nat := 0x500008 + i * 0x1000
/-- Offset of BOB_PROGFLT (09_spools_services). -/
def BOB_PROGFLT (i : Nat) : Nat := 0x500010 + i * 0x1000
/-- Offset of BOB_LAUNCHES (09_spools_services). -/
def BOB_LAUNCHES (i : Nat) : Nat := 0x500018 + i * 0x1000
/-- Offset of SPL_DOORBELL (09_spools_services). -/
def SPL_DOORBELL (i : Nat) : Nat := 0x600000 + i * 0x100
/-- Offset of SPL_PROGRESS (09_spools_services). -/
def SPL_PROGRESS (i : Nat) : Nat := 0x600008 + i * 0x100
/-- Offset of SPL_ABORT (09_spools_services). -/
def SPL_ABORT (i : Nat) : Nat := 0x600010 + i * 0x100
/-- Offset of SPL_STAT (09_spools_services). -/
def SPL_STAT (i : Nat) : Nat := 0x600018 + i * 0x100
/-- Offset of SPL_CFG (09_spools_services). -/
def SPL_CFG (i : Nat) : Nat := 0x600040 + i * 0x100
/-- Offset of SPL_SQBASE (09_spools_services). -/
def SPL_SQBASE (i : Nat) : Nat := 0x600048 + i * 0x100
/-- Offset of SPL_CQBASE (09_spools_services). -/
def SPL_CQBASE (i : Nat) : Nat := 0x600050 + i * 0x100
/-- Offset of SPL_CLASSINFO (09_spools_services). -/
def SPL_CLASSINFO (i : Nat) : Nat := 0x600058 + i * 0x100
/-- Offset of SPL_IRQ (09_spools_services). -/
def SPL_IRQ (i : Nat) : Nat := 0x600060 + i * 0x100
/-- Offset of SPL_CAPw (09_spools_services). -/
def SPL_CAP (i j : Nat) : Nat := 0x600070 + i * 0x100 + j * 0x8
/-- Offset of PRT_SEAMCFG (10_seam_fabric). -/
def PRT_SEAMCFG (i : Nat) : Nat := 0x100100 + i * 0x10000
/-- Offset of PRT_SEAMSTAT (10_seam_fabric). -/
def PRT_SEAMSTAT (i : Nat) : Nat := 0x100108 + i * 0x10000
/-- Offset of PRT_SEAMCNT (10_seam_fabric). -/
def PRT_SEAMCNT (i : Nat) : Nat := 0x100110 + i * 0x10000
/-- Offset of FAB_NODEID (10_seam_fabric). -/
def FAB_NODEID : Nat := 0x700000
/-- Offset of FAB_CFG (10_seam_fabric). -/
def FAB_CFG : Nat := 0x700008
/-- Offset of FAB_STAT (10_seam_fabric). -/
def FAB_STAT : Nat := 0x700010
/-- Offset of FAB_DFCFG (10_seam_fabric). -/
def FAB_DFCFG : Nat := 0x700018
/-- Offset of FAB_DFBASE (10_seam_fabric). -/
def FAB_DFBASE : Nat := 0x700020
/-- Offset of FAB_DFCLEAR (10_seam_fabric). -/
def FAB_DFCLEAR : Nat := 0x700028
/-- Offset of FAB_TIMECFG (10_seam_fabric). -/
def FAB_TIMECFG : Nat := 0x700030
/-- Offset of FAB_TIME (10_seam_fabric). -/
def FAB_TIME : Nat := 0x700038
/-- Offset of FAB_TIMESET (10_seam_fabric). -/
def FAB_TIMESET : Nat := 0x700040
/-- Offset of FAB_TIMESTAT (10_seam_fabric). -/
def FAB_TIMESTAT : Nat := 0x700048
/-- Offset of FAB_INWINAn (10_seam_fabric). -/
def FAB_INWINA (i : Nat) : Nat := 0x700800 + i * 0x10
/-- Offset of FAB_INWINBn (10_seam_fabric). -/
def FAB_INWINB (i : Nat) : Nat := 0x700808 + i * 0x10
/-- Offset of FAB_ROUTEd (10_seam_fabric). -/
def FAB_ROUTE (i : Nat) : Nat := 0x710000 + i * 0x8
/-- Offset of DCH_CFG (11_dram_subsystem). -/
def DCH_CFG (i : Nat) : Nat := 0x200000 + i * 0x10000
/-- Offset of DCH_STAT (11_dram_subsystem). -/
def DCH_STAT (i : Nat) : Nat := 0x200008 + i * 0x10000
/-- Offset of DCH_CTL (11_dram_subsystem). -/
def DCH_CTL (i : Nat) : Nat := 0x200010 + i * 0x10000
/-- Offset of DCH_MODULEs (11_dram_subsystem). -/
def DCH_MODULE (i j : Nat) : Nat := 0x200018 + i * 0x10000 + j * 0x8
/-- Offset of DCH_SCHED (11_dram_subsystem). -/
def DCH_SCHED (i : Nat) : Nat := 0x200028 + i * 0x10000
/-- Offset of DCH_RHCFG (11_dram_subsystem). -/
def DCH_RHCFG (i : Nat) : Nat := 0x200030 + i * 0x10000
/-- Offset of DCH_RBRING (11_dram_subsystem). -/
def DCH_RBRING (i : Nat) : Nat := 0x200038 + i * 0x10000
/-- Offset of DCH_WMARK (11_dram_subsystem). -/
def DCH_WMARK (i : Nat) : Nat := 0x200040 + i * 0x10000
/-- Offset of DCH_SCRUBCTL (11_dram_subsystem). -/
def DCH_SCRUBCTL (i : Nat) : Nat := 0x200048 + i * 0x10000
/-- Offset of DCH_SCRUBBASE (11_dram_subsystem). -/
def DCH_SCRUBBASE (i : Nat) : Nat := 0x200050 + i * 0x10000
/-- Offset of DCH_SCRUBLIM (11_dram_subsystem). -/
def DCH_SCRUBLIM (i : Nat) : Nat := 0x200058 + i * 0x10000
/-- Offset of DCH_SCRUBSUM (11_dram_subsystem). -/
def DCH_SCRUBSUM (i : Nat) : Nat := 0x200060 + i * 0x10000
/-- Offset of DCH_ECCSTAT (11_dram_subsystem). -/
def DCH_ECCSTAT (i : Nat) : Nat := 0x200068 + i * 0x10000
/-- Offset of DCH_FIFO (11_dram_subsystem). -/
def DCH_FIFO (i : Nat) : Nat := 0x200070 + i * 0x10000
/-- Offset of DCH_ROWFLT (11_dram_subsystem). -/
def DCH_ROWFLT (i : Nat) : Nat := 0x200078 + i * 0x10000
/-- Offset of DCH_SCRUBUEn (11_dram_subsystem). -/
def DCH_SCRUBUE (i j : Nat) : Nat := 0x200080 + i * 0x10000 + j * 0x8
/-- Offset of SRM_CFG (12_onchip_sram). -/
def SRM_CFG : Nat := 0x800000
/-- Offset of SRM_STAT (12_onchip_sram). -/
def SRM_STAT : Nat := 0x800008
/-- Offset of SRM_ERRLOG (12_onchip_sram). -/
def SRM_ERRLOG : Nat := 0x800010
/-- Offset of SRM_TESTCTL (12_onchip_sram). -/
def SRM_TESTCTL : Nat := 0x800018
/-- Offset of SRM_FENCEn (12_onchip_sram). -/
def SRM_FENCE (i : Nat) : Nat := 0x800020 + i * 0x8
/-- Offset of QOS_CFG (13_regulation_counters). -/
def QOS_CFG : Nat := 0x900000
/-- Offset of QOS_STAT (13_regulation_counters). -/
def QOS_STAT : Nat := 0x900008
/-- Offset of QOS_MISSLOG (13_regulation_counters). -/
def QOS_MISSLOG : Nat := 0x900010
/-- Offset of QOS_MDRAMm (13_regulation_counters). -/
def QOS_MDRAM (i : Nat) : Nat := 0x900100 + i * 0x8
/-- Offset of QOS_MOCCm (13_regulation_counters). -/
def QOS_MOCC (i : Nat) : Nat := 0x900200 + i * 0x8
/-- Offset of QOS_HISTCFGh (13_regulation_counters). -/
def QOS_HISTCFG (i : Nat) : Nat := 0x900400 + i * 0x10
/-- Offset of QOS_HISTSTATh (13_regulation_counters). -/
def QOS_HISTSTAT (i : Nat) : Nat := 0x900408 + i * 0x10
/-- Offset of QOS_HBINh_j (13_regulation_counters). -/
def QOS_HBIN (i j : Nat) : Nat := 0x910000 + i * 0x1000 + j * 0x8
/-- Offset of PMC_CNTe (13_regulation_counters). -/
def PMC_CNT (i : Nat) : Nat := 0xa00000 + i * 0x8
/-- Offset of PMC_MODEn (13_regulation_counters). -/
def PMC_MODE (i : Nat) : Nat := 0xa03000 + i * 0x8
/-- Offset of PMC_SNAPCTL (13_regulation_counters). -/
def PMC_SNAPCTL : Nat := 0xa03100
/-- Offset of PMC_SNAPAT (13_regulation_counters). -/
def PMC_SNAPAT : Nat := 0xa03108
/-- Offset of PMC_SNAPTIME (13_regulation_counters). -/
def PMC_SNAPTIME : Nat := 0xa03110
/-- Offset of PMC_STAT (13_regulation_counters). -/
def PMC_STAT : Nat := 0xa03118
/-- Offset of PMC_SNAPe (13_regulation_counters). -/
def PMC_SNAP (i : Nat) : Nat := 0xa04000 + i * 0x8
/-- Offset of FLT_CFG (14_faults_degraded_operation). -/
def FLT_CFG : Nat := 0xb00000
/-- Offset of FLT_STAT (14_faults_degraded_operation). -/
def FLT_STAT : Nat := 0xb00008
/-- Offset of FLT_LOG (14_faults_degraded_operation). -/
def FLT_LOG : Nat := 0xb00010
/-- Offset of FLT_READMIT (14_faults_degraded_operation). -/
def FLT_READMIT : Nat := 0xb00018
/-- Offset of FLT_LEVELCTL (14_faults_degraded_operation). -/
def FLT_LEVELCTL : Nat := 0xb00020
/-- Offset of FLT_RECn_w (14_faults_degraded_operation). -/
def FLT_REC (i j : Nat) : Nat := 0xb10000 + i * 0x20 + j * 0x8
/-- Offset of FLT_SRCCFGi (14_faults_degraded_operation). -/
def FLT_SRCCFG (i : Nat) : Nat := 0xb20000 + i * 0x8
/-- Offset of FLT_SRCSTATi (14_faults_degraded_operation). -/
def FLT_SRCSTAT (i : Nat) : Nat := 0xb30000 + i * 0x8
/-- Offset of MGT_BOOTSTAT (15_management_worlds_boot). -/
def MGT_BOOTSTAT : Nat := 0xe00000
/-- Offset of MGT_BOOTCTL (15_management_worlds_boot). -/
def MGT_BOOTCTL : Nat := 0xe00008
/-- Offset of MGT_LOCK (15_management_worlds_boot). -/
def MGT_LOCK : Nat := 0xe00010
/-- Offset of MGT_RSTCTL (15_management_worlds_boot). -/
def MGT_RSTCTL : Nat := 0xe00018
/-- Offset of MGT_DBGCTL (15_management_worlds_boot). -/
def MGT_DBGCTL : Nat := 0xe00020
/-- Offset of MGT_WDOG (15_management_worlds_boot). -/
def MGT_WDOG : Nat := 0xe00028
/-- Offset of MGT_WDOGKICK (15_management_worlds_boot). -/
def MGT_WDOGKICK : Nat := 0xe00030
/-- Offset of MGT_CORESTAT (15_management_worlds_boot). -/
def MGT_CORESTAT : Nat := 0xe00038
/-- Offset of MGT_FWBASE (15_management_worlds_boot). -/
def MGT_FWBASE : Nat := 0xe00040
/-- Offset of MGT_FWLIMIT (15_management_worlds_boot). -/
def MGT_FWLIMIT : Nat := 0xe00048
/-- Offset of MGT_CTLERR (15_management_worlds_boot). -/
def MGT_CTLERR : Nat := 0xe00050
/-- Offset of MGT_TUSEn (15_management_worlds_boot). -/
def MGT_TUSE (i : Nat) : Nat := 0xe00080 + i * 0x8
/-- Offset of MGT_MRSTAGEw (15_management_worlds_boot). -/
def MGT_MRSTAGE (i : Nat) : Nat := 0xe000c0 + i * 0x8
/-- Offset of MGT_MREXT (15_management_worlds_boot). -/
def MGT_MREXT : Nat := 0xe000f0
/-- Offset of MGT_ASSIGNu (15_management_worlds_boot). -/
def MGT_ASSIGN (i : Nat) : Nat := 0xe00100 + i * 0x8
/-- Offset of MGT_IRQRTn (15_management_worlds_boot). -/
def MGT_IRQRT (i : Nat) : Nat := 0xe00900 + i * 0x8
/-- Offset of MGT_MRk_w (15_management_worlds_boot). -/
def MGT_MR (i j : Nat) : Nat := 0xe01100 + i * 0x30 + j * 0x8
/-- Offset of MGT_LOCKDIG_w (15_management_worlds_boot). -/
def MGT_LOCKDIG (i : Nat) : Nat := 0xe01280 + i * 0x8
/-- Offset of PWR_CFG (16_power_states). -/
def PWR_CFG : Nat := 0xc00000
/-- Offset of PWR_CTL (16_power_states). -/
def PWR_CTL : Nat := 0xc00008
/-- Offset of PWR_STAT (16_power_states). -/
def PWR_STAT : Nat := 0xc00010
/-- Offset of PWR_WAKE (16_power_states). -/
def PWR_WAKE : Nat := 0xc00018
/-- Offset of PWR_VCORE (16_power_states). -/
def PWR_VCORE : Nat := 0xc00020
/-- Offset of PWR_ACCTs (16_power_states). -/
def PWR_ACCT (i : Nat) : Nat := 0xc00040 + i * 0x8
/-- Offset of PWR_REFCNTt (16_power_states). -/
def PWR_REFCNT (i : Nat) : Nat := 0xc00080 + i * 0x8
/-- Offset of PWR_UNITCTLu (16_power_states). -/
def PWR_UNITCTL (i : Nat) : Nat := 0xc01000 + i * 0x8
/-- Offset of HEM_CFG (17_hem_hot_swap). -/
def HEM_CFG (i : Nat) : Nat := 0xc10000 + i * 0x100
/-- Offset of HEM_CTL (17_hem_hot_swap). -/
def HEM_CTL (i : Nat) : Nat := 0xc10008 + i * 0x100
/-- Offset of HEM_STAT (17_hem_hot_swap). -/
def HEM_STAT (i : Nat) : Nat := 0xc10010 + i * 0x100
/-- Offset of HEM_TELEM (17_hem_hot_swap). -/
def HEM_TELEM (i : Nat) : Nat := 0xc10018 + i * 0x100
/-- Offset of HEM_PEAK (17_hem_hot_swap). -/
def HEM_PEAK (i : Nat) : Nat := 0xc10020 + i * 0x100
/-- Offset of HEM_ENERGY (17_hem_hot_swap). -/
def HEM_ENERGY (i : Nat) : Nat := 0xc10028 + i * 0x100
/-- Offset of CAL_CFG (18_link_calibration_test). -/
def CAL_CFG : Nat := 0xd00000
/-- Offset of CAL_LIMITS (18_link_calibration_test). -/
def CAL_LIMITS : Nat := 0xd00008
/-- Offset of CAL_REQ (18_link_calibration_test). -/
def CAL_REQ : Nat := 0xd00010
/-- Offset of CAL_MBISTCTL (18_link_calibration_test). -/
def CAL_MBISTCTL : Nat := 0xd00020
/-- Offset of CAL_MBISTRES (18_link_calibration_test). -/
def CAL_MBISTRES : Nat := 0xd00028
/-- Offset of CAL_AXTCFG (18_link_calibration_test). -/
def CAL_AXTCFG : Nat := 0xd00040
/-- Offset of CAL_LANEp_l (18_link_calibration_test). -/
def CAL_LANE (i j : Nat) : Nat := 0xd01000 + i * 0x100 + j * 0x8
/-- Offset of CAL_PRBSp_l (18_link_calibration_test). -/
def CAL_PRBS (i j : Nat) : Nat := 0xd02000 + i * 0x100 + j * 0x8
/-- Offset of SBT_TEMP (19_electrical_package). -/
def SBT_TEMP : Nat := 0x100000000
/-- Offset of SBT_THERMCFG (19_electrical_package). -/
def SBT_THERMCFG : Nat := 0x100000008
/-- Offset of SBT_STAT (19_electrical_package). -/
def SBT_STAT : Nat := 0x100000010

/-! Fields. -/

namespace F
def GLB_ID_DEVICE : Fld := ⟨0, 16⟩
def GLB_ID_STEPPING : Fld := ⟨16, 8⟩
def GLB_ID_SELV_STEP : Fld := ⟨24, 8⟩
def GLB_CAP_PORTS : Fld := ⟨0, 8⟩
def GLB_CAP_CHANNELS : Fld := ⟨8, 8⟩
def GLB_CAP_BOBBINS : Fld := ⟨16, 8⟩
def GLB_CAP_PLANES : Fld := ⟨24, 3⟩
def GLB_SPDCFG_WINDOW : Fld := ⟨0, 8⟩
def GLB_SPDCFG_CONT : Fld := ⟨8, 1⟩
def GLB_SPDCFG_START : Fld := ⟨9, 1⟩
def GLB_SPDCFG_DONE : Fld := ⟨10, 1⟩
def GLB_SPDCFG_ALARM : Fld := ⟨32, 16⟩
def GLB_SPDMIN_MIN : Fld := ⟨0, 16⟩
def GLB_SPDMIN_MINIDX : Fld := ⟨16, 4⟩
def GLB_SPDMIN_MAX : Fld := ⟨32, 16⟩
def GLB_SPDMIN_MAXIDX : Fld := ⟨48, 4⟩
def GLB_SPDMIN_ALARM : Fld := ⟨52, 1⟩
def GLB_SPDMIN_SPREAD : Fld := ⟨53, 1⟩
def GLB_SPDMON_COUNT : Fld := ⟨0, 32⟩
def GLB_SPDMON_SCALE : Fld := ⟨32, 16⟩
def GLB_SPDMON_PLANE : Fld := ⟨48, 2⟩
def GLB_SPDMON_VALID : Fld := ⟨50, 1⟩
def GLB_ILNSTAT_FENCED : Fld := ⟨0, 4⟩
def GLB_ILNSTAT_REMAP_BUSY : Fld := ⟨4, 4⟩
def GLB_ILNSTAT_STALL : Fld := ⟨8, 1⟩
def GLB_ILNSTAT_CHECK : Fld := ⟨9, 1⟩
def GLB_ILNCFG_PLANE_EN : Fld := ⟨0, 4⟩
def PRT_CFG_MODE : Fld := ⟨0, 1⟩
def PRT_CFG_MAXW : Fld := ⟨1, 2⟩
def PRT_CFG_MAXSPD : Fld := ⟨3, 1⟩
def PRT_CFG_CLKMODE : Fld := ⟨4, 2⟩
def PRT_CFG_L0P_EN : Fld := ⟨6, 1⟩
def PRT_CFG_LOPT_EN : Fld := ⟨7, 1⟩
def PRT_CFG_RELEASE : Fld := ⟨8, 1⟩
def PRT_CFG_BITMO : Fld := ⟨16, 4⟩
def PRT_LINKSTAT_UP : Fld := ⟨0, 1⟩
def PRT_LINKSTAT_WIDTH : Fld := ⟨1, 2⟩
def PRT_LINKSTAT_SPEED : Fld := ⟨3, 2⟩
def PRT_LINKSTAT_FLIT : Fld := ⟨5, 2⟩
def PRT_LINKSTAT_L0PW : Fld := ⟨7, 2⟩
def PRT_LINKSTAT_IDE : Fld := ⟨9, 1⟩
def PRT_LINKSTAT_MEM_EN : Fld := ⟨10, 1⟩
def PRT_LINKSTAT_RESETS : Fld := ⟨32, 16⟩
def PRT_LINKSTAT_LASTRST : Fld := ⟨48, 3⟩
def PRT_DPALAYOUT_STATIC : Fld := ⟨0, 20⟩
def PRT_DPALAYOUT_DCR0 : Fld := ⟨20, 20⟩
def PRT_DPALAYOUT_DCR1 : Fld := ⟨40, 20⟩
def PRT_DPALAYOUT_DCR1_SHARE : Fld := ⟨60, 1⟩
def PRT_HEADSTAT_DEC_COMMIT : Fld := ⟨0, 5⟩
def PRT_HEADSTAT_MEM_ACTIVE : Fld := ⟨5, 1⟩
def PRT_HEADSTAT_FATAL : Fld := ⟨6, 1⟩
def PRT_HEADSTAT_BI : Fld := ⟨7, 1⟩
def PRT_HEADSTAT_POISONED : Fld := ⟨32, 32⟩
def PRT_CTLERR_OFFSET : Fld := ⟨0, 32⟩
def PRT_CTLERR_STATUS : Fld := ⟨32, 16⟩
def PRT_CTLERR_COUNT : Fld := ⟨48, 15⟩
def PRT_CTLERR_VALID : Fld := ⟨63, 1⟩
def PRT_HMAPA_VALID : Fld := ⟨0, 1⟩
def PRT_HMAPA_SHARED : Fld := ⟨1, 1⟩
def PRT_HMAPA_DPABASE : Fld := ⟨21, 26⟩
def PRT_HMAPA_LEN : Fld := ⟨47, 17⟩
def PRT_HMAPB_KIND : Fld := ⟨0, 1⟩
def PRT_HMAPB_LABASE : Fld := ⟨21, 26⟩
def PRT_HMAPB_NODE : Fld := ⟨47, 14⟩
def TIR_CFG_SEGFILL : Fld := ⟨0, 1⟩
def TIR_CFG_ACC_FILL : Fld := ⟨1, 1⟩
def TIR_CFG_ACC_WB : Fld := ⟨2, 1⟩
def TIR_EXTENT_L3G : Fld := ⟨0, 16⟩
def TIR_LAYOUT_DSIZE : Fld := ⟨0, 11⟩
def TIR_LAYOUT_GRP_EN : Fld := ⟨16, 2⟩
def TIR_GLAYOUT_MSIZE : Fld := ⟨0, 11⟩
def TIR_GLAYOUT_CSIZE : Fld := ⟨16, 11⟩
def TIR_LOGHEAD_STRIPE : Fld := ⟨0, 28⟩
def TIR_LOGHEAD_SECT : Fld := ⟨28, 10⟩
def TIR_LOGTAIL_STRIPE : Fld := ⟨0, 28⟩
def TIR_LOGLIVE_SECTORS : Fld := ⟨0, 40⟩
def TIR_JCFG_CLOSE_US : Fld := ⟨0, 10⟩
def TIR_JCFG_RESERVE : Fld := ⟨16, 10⟩
def TIR_FRAMECFG_LOWWM : Fld := ⟨0, 10⟩
def TIR_FRAMECFG_IRQ_EN : Fld := ⟨16, 1⟩
def TIR_STAT_FRAME_LOW : Fld := ⟨0, 1⟩
def TIR_STAT_FRAME_EMPTY : Fld := ⟨1, 1⟩
def TIR_STAT_LOG_RESERVE : Fld := ⟨2, 1⟩
def TIR_STAT_LOG_FULL : Fld := ⟨3, 1⟩
def TIR_STAT_STRIPE_DEGRADED : Fld := ⟨4, 1⟩
def TIR_STAT_FRAME_LOW_CH : Fld := ⟨16, 24⟩
def TIR_FLUSHCTL_START : Fld := ⟨0, 1⟩
def TIR_FLUSHCTL_BUSY : Fld := ⟨1, 1⟩
def TIR_FLUSHCTL_INVAL : Fld := ⟨2, 1⟩
def TIR_FLUSHCTL_STATUS : Fld := ⟨48, 16⟩
def TIR_FLUSHBASE_LPN : Fld := ⟨12, 35⟩
def TIR_FLUSHLIM_LPN : Fld := ⟨12, 35⟩
def TIR_GRBASE_VALID : Fld := ⟨0, 1⟩
def TIR_GRBASE_GROUP : Fld := ⟨1, 2⟩
def TIR_GRBASE_MIRROR : Fld := ⟨3, 1⟩
def TIR_GRBASE_HOTPIN : Fld := ⟨4, 1⟩
def TIR_GRBASE_BASE : Fld := ⟨21, 26⟩
def TIR_GRLIM_LIMIT : Fld := ⟨21, 26⟩
def PLT_CFG_PAGE_EFFORT : Fld := ⟨0, 1⟩
def PLT_CFG_DYN_MAXLEN : Fld := ⟨4, 4⟩
def PLT_CFG_STREAM_EN : Fld := ⟨8, 1⟩
def PLT_CFG_RESV_LANES : Fld := ⟨12, 4⟩
def PLT_STAT_FENCED : Fld := ⟨0, 1⟩
def PLT_STAT_STANDIN : Fld := ⟨1, 1⟩
def PLT_STAT_LANES_BUSY : Fld := ⟨8, 5⟩
def PLT_STAT_QUEUED : Fld := ⟨16, 8⟩
def PLT_ERR_STATUS : Fld := ⟨0, 16⟩
def PLT_ERR_SEG : Fld := ⟨16, 3⟩
def PLT_ERR_WORD : Fld := ⟨19, 7⟩
def PLT_ERR_MODE : Fld := ⟨26, 1⟩
def PLT_ERR_SOURCE : Fld := ⟨27, 1⟩
def PLT_ERR_COUNT : Fld := ⟨48, 15⟩
def PLT_ERR_VALID : Fld := ⟨63, 1⟩
def PLT_ERRLOC_LA : Fld := ⟨0, 47⟩
def KEY_CFG_EXH_WARN : Fld := ⟨0, 6⟩
def KEY_CFG_IRQ_EN : Fld := ⟨6, 1⟩
def KEY_STAT_EXH_WARN : Fld := ⟨0, 1⟩
def KEY_STAT_EXHAUSTED : Fld := ⟨1, 1⟩
def KEY_STAT_LOST_PLACED : Fld := ⟨2, 1⟩
def KEY_STAT_ITAG : Fld := ⟨3, 1⟩
def KEY_STAT_CU_FENCED : Fld := ⟨16, 24⟩
def KEY_STAT_LASTRGN : Fld := ⟨40, 5⟩
def KEY_SWEEPCTL_START : Fld := ⟨0, 1⟩
def KEY_SWEEPCTL_BUSY : Fld := ⟨1, 1⟩
def KEY_SWEEPCTL_STOP : Fld := ⟨2, 1⟩
def KEY_SWEEPCTL_STATUS : Fld := ⟨48, 16⟩
def KEY_SWEEPBASE_LPN : Fld := ⟨12, 35⟩
def KEY_SWEEPLIM_LPN : Fld := ⟨12, 35⟩
def KEY_KMAT_DATA : Fld := ⟨0, 64⟩
def KEY_LINKCTL_PORT : Fld := ⟨0, 4⟩
def KEY_LINKCTL_DIR : Fld := ⟨4, 1⟩
def KEY_LINKCTL_SLOT : Fld := ⟨5, 1⟩
def KEY_LINKCTL_LOAD : Fld := ⟨6, 1⟩
def KEY_RGN_VALID : Fld := ⟨0, 1⟩
def KEY_RGN_BASE : Fld := ⟨1, 26⟩
def KEY_RGN_LIMIT : Fld := ⟨27, 26⟩
def KEY_RCTL_CUR : Fld := ⟨0, 1⟩
def KEY_RCTL_NEWER : Fld := ⟨1, 1⟩
def KEY_RCTL_LIVE : Fld := ⟨2, 2⟩
def KEY_RCTL_INUSE : Fld := ⟨4, 2⟩
def KEY_RCTL_BLOCKED : Fld := ⟨6, 1⟩
def KEY_RCTL_LOAD : Fld := ⟨8, 1⟩
def KEY_RCTL_SLOT : Fld := ⟨9, 1⟩
def KEY_RCTL_GEN : Fld := ⟨10, 1⟩
def KEY_RCTL_ERASE : Fld := ⟨11, 1⟩
def DIR_CFG_DEF_REMOTE : Fld := ⟨0, 1⟩
def DIR_CFG_DEF_OVERFLOW : Fld := ⟨1, 1⟩
def DIR_CFG_IRQ_EN : Fld := ⟨2, 1⟩
def DIR_STAT_BIND_FULL : Fld := ⟨0, 1⟩
def DIR_STAT_RO_VIEW : Fld := ⟨1, 1⟩
def DIR_STAT_REFUSED : Fld := ⟨2, 1⟩
def DIR_STAT_SNOOP_TMO : Fld := ⟨3, 1⟩
def DIR_STAT_ENTRY_LOST : Fld := ⟨4, 1⟩
def DIR_STAT_PROTOCOL : Fld := ⟨5, 1⟩
def DIR_STAT_REGIONS : Fld := ⟨32, 14⟩
def DIR_RECALLCTL_START : Fld := ⟨0, 1⟩
def DIR_RECALLCTL_BUSY : Fld := ⟨1, 1⟩
def DIR_RECALLCTL_STATUS : Fld := ⟨48, 16⟩
def DIR_RECALLBASE_LPN : Fld := ⟨12, 35⟩
def DIR_RECALLLIM_LPN : Fld := ⟨12, 35⟩
def DIR_CRBASE_VALID : Fld := ⟨0, 1⟩
def DIR_CRBASE_REMOTE : Fld := ⟨1, 1⟩
def DIR_CRBASE_OVERFLOW : Fld := ⟨2, 1⟩
def DIR_CRBASE_BASE : Fld := ⟨21, 26⟩
def DIR_CRLIM_LIMIT : Fld := ⟨21, 26⟩
def BOB_CFG_CLASSES : Fld := ⟨0, 8⟩
def BOB_CFG_DRAIN : Fld := ⟨8, 1⟩
def BOB_STAT_STATE : Fld := ⟨0, 3⟩
def BOB_STAT_SPOOL : Fld := ⟨16, 10⟩
def BOB_STAT_PC : Fld := ⟨32, 13⟩
def BOB_STAT_CLASS : Fld := ⟨48, 3⟩
def BOB_PROGFLT_STATUS : Fld := ⟨0, 16⟩
def BOB_PROGFLT_INDEX : Fld := ⟨16, 13⟩
def BOB_PROGFLT_SPOOL : Fld := ⟨32, 10⟩
def BOB_PROGFLT_COUNT : Fld := ⟨48, 15⟩
def BOB_PROGFLT_VALID : Fld := ⟨63, 1⟩
def BOB_LAUNCHES_COUNT : Fld := ⟨0, 48⟩
def SPL_DOORBELL_SQTAIL : Fld := ⟨0, 32⟩
def SPL_DOORBELL_CQHEAD : Fld := ⟨32, 32⟩
def SPL_PROGRESS_CONS : Fld := ⟨0, 32⟩
def SPL_PROGRESS_CQDONE : Fld := ⟨32, 32⟩
def SPL_ABORT_SEQ : Fld := ⟨0, 32⟩
def SPL_ABORT_GO : Fld := ⟨32, 1⟩
def SPL_ABORT_BUSY : Fld := ⟨33, 1⟩
def SPL_ABORT_RESULT : Fld := ⟨48, 16⟩
def SPL_STAT_STATE : Fld := ⟨0, 3⟩
def SPL_STAT_ABORT_LOST : Fld := ⟨3, 1⟩
def SPL_STAT_RUNNING : Fld := ⟨8, 7⟩
def SPL_STAT_QUEUED : Fld := ⟨16, 16⟩
def SPL_STAT_STALE : Fld := ⟨32, 16⟩
def SPL_STAT_LASTDB : Fld := ⟨48, 16⟩
def SPL_CFG_EN : Fld := ⟨0, 1⟩
def SPL_CFG_RESET : Fld := ⟨1, 1⟩
def SPL_CFG_RERUN : Fld := ⟨2, 1⟩
def SPL_CFG_USERIMG : Fld := ⟨3, 1⟩
def SPL_CFG_SQLOG : Fld := ⟨4, 5⟩
def SPL_CFG_MAXRUN : Fld := ⟨10, 6⟩
def SPL_SQBASE_LPN : Fld := ⟨12, 35⟩
def SPL_CQBASE_LPN : Fld := ⟨12, 35⟩
def SPL_CLASSINFO_CLASS : Fld := ⟨0, 3⟩
def SPL_CLASSINFO_FLAGCEIL : Fld := ⟨8, 5⟩
def SPL_CLASSINFO_USERIMG_OK : Fld := ⟨13, 1⟩
def SPL_CLASSINFO_OWNERKIND : Fld := ⟨16, 2⟩
def SPL_CLASSINFO_OWNER : Fld := ⟨18, 14⟩
def SPL_CLASSINFO_MAXCEIL : Fld := ⟨32, 16⟩
def SPL_IRQ_VECTOR : Fld := ⟨0, 6⟩
def SPL_IRQ_EN : Fld := ⟨6, 1⟩
def SPL_IRQ_COUNT : Fld := ⟨8, 8⟩
def SPL_IRQ_DELAY_US : Fld := ⟨16, 16⟩
def SPL_CAP_WORD : Fld := ⟨0, 64⟩
def PRT_SEAMCFG_EXPECT : Fld := ⟨0, 14⟩
def PRT_SEAMCFG_EXPECT_EN : Fld := ⟨14, 1⟩
def PRT_SEAMCFG_RTO : Fld := ⟨16, 4⟩
def PRT_SEAMCFG_ASYM_PS : Fld := ⟨32, 16⟩
def PRT_SEAMSTAT_STATE : Fld := ⟨0, 3⟩
def PRT_SEAMSTAT_NOKEY : Fld := ⟨3, 1⟩
def PRT_SEAMSTAT_RESUMED : Fld := ⟨4, 1⟩
def PRT_SEAMSTAT_SPARE : Fld := ⟨5, 1⟩
def PRT_SEAMSTAT_TXSLOT : Fld := ⟨6, 1⟩
def PRT_SEAMSTAT_RXSLOT : Fld := ⟨7, 1⟩
def PRT_SEAMSTAT_PARTNER : Fld := ⟨8, 14⟩
def PRT_SEAMSTAT_PPORT : Fld := ⟨22, 4⟩
def PRT_SEAMCNT_REPLAYS : Fld := ⟨0, 16⟩
def PRT_SEAMCNT_RETRAINS : Fld := ⟨16, 16⟩
def PRT_SEAMCNT_DOWNS : Fld := ⟨32, 16⟩
def PRT_SEAMCNT_AUTHFAIL : Fld := ⟨48, 16⟩
def FAB_NODEID_NODE : Fld := ⟨0, 14⟩
def FAB_CFG_GRACE_MS : Fld := ⟨0, 14⟩
def FAB_CFG_RETRY : Fld := ⟨16, 14⟩
def FAB_CFG_SEED : Fld := ⟨32, 16⟩
def FAB_CFG_IRQ_EN : Fld := ⟨48, 1⟩
def FAB_CFG_ORIG_EN : Fld := ⟨49, 1⟩
def FAB_STAT_UNREACH : Fld := ⟨0, 1⟩
def FAB_STAT_EXPIRED : Fld := ⟨1, 1⟩
def FAB_STAT_LOOP : Fld := ⟨2, 1⟩
def FAB_STAT_FILTER : Fld := ⟨3, 1⟩
def FAB_STAT_RSQ_FULL : Fld := ⟨4, 1⟩
def FAB_STAT_ACCESS : Fld := ⟨5, 1⟩
def FAB_STAT_OUTSTANDING : Fld := ⟨32, 13⟩
def FAB_DFCFG_MAXNODE : Fld := ⟨0, 14⟩
def FAB_DFBASE_BASE : Fld := ⟨21, 26⟩
def FAB_DFCLEAR_NODE : Fld := ⟨0, 14⟩
def FAB_DFCLEAR_GO : Fld := ⟨14, 1⟩
def FAB_DFCLEAR_BUSY : Fld := ⟨15, 1⟩
def FAB_TIMECFG_GM : Fld := ⟨0, 1⟩
def FAB_TIMECFG_UPPORT : Fld := ⟨1, 4⟩
def FAB_TIMECFG_EN : Fld := ⟨5, 1⟩
def FAB_TIMECFG_INTERVAL : Fld := ⟨6, 4⟩
def FAB_TIMECFG_ALARM_NS : Fld := ⟨16, 16⟩
def FAB_TIME_NS : Fld := ⟨0, 64⟩
def FAB_TIMESET_NS : Fld := ⟨0, 64⟩
def FAB_TIMESTAT_OFFSET_PS : Fld := ⟨0, 16⟩
def FAB_TIMESTAT_DELAY_NS : Fld := ⟨16, 16⟩
def FAB_TIMESTAT_VALID : Fld := ⟨32, 1⟩
def FAB_TIMESTAT_HOLDOVER : Fld := ⟨33, 1⟩
def FAB_TIMESTAT_STEP : Fld := ⟨34, 1⟩
def FAB_TIMESTAT_ALARM : Fld := ⟨35, 1⟩
def FAB_INWINA_VALID : Fld := ⟨0, 1⟩
def FAB_INWINA_R : Fld := ⟨1, 1⟩
def FAB_INWINA_W : Fld := ⟨2, 1⟩
def FAB_INWINA_C : Fld := ⟨3, 1⟩
def FAB_INWINA_M : Fld := ⟨4, 1⟩
def FAB_INWINA_S : Fld := ⟨5, 1⟩
def FAB_INWINA_BASE : Fld := ⟨21, 26⟩
def FAB_INWINA_NODE : Fld := ⟨48, 14⟩
def FAB_INWINB_NMASK : Fld := ⟨0, 14⟩
def FAB_INWINB_LIMIT : Fld := ⟨21, 26⟩
def FAB_ROUTE_PORTS : Fld := ⟨0, 16⟩
def FAB_ROUTE_MODE : Fld := ⟨16, 2⟩
def DCH_CFG_MAXSPD : Fld := ⟨0, 2⟩
def DCH_CFG_REFSB : Fld := ⟨2, 1⟩
def DCH_CFG_FGR : Fld := ⟨3, 1⟩
def DCH_CFG_TEST : Fld := ⟨4, 2⟩
def DCH_STAT_STATE : Fld := ⟨0, 3⟩
def DCH_STAT_FROM_FENCE : Fld := ⟨3, 1⟩
def DCH_STAT_SLOTS : Fld := ⟨4, 2⟩
def DCH_STAT_SPEED : Fld := ⟨6, 2⟩
def DCH_STAT_TRACK : Fld := ⟨8, 1⟩
def DCH_STAT_THROTTLE : Fld := ⟨9, 1⟩
def DCH_STAT_RFMSAT : Fld := ⟨10, 1⟩
def DCH_CTL_DRAIN : Fld := ⟨0, 1⟩
def DCH_CTL_FENCE : Fld := ⟨1, 1⟩
def DCH_CTL_RETRAIN : Fld := ⟨2, 1⟩
def DCH_CTL_BUSY : Fld := ⟨3, 1⟩
def DCH_CTL_STATUS : Fld := ⟨48, 16⟩
def DCH_MODULE_PRESENT : Fld := ⟨0, 1⟩
def DCH_MODULE_MRDIMM : Fld := ⟨1, 1⟩
def DCH_MODULE_X8 : Fld := ⟨2, 1⟩
def DCH_MODULE_RANKS2 : Fld := ⟨3, 1⟩
def DCH_MODULE_CID : Fld := ⟨4, 2⟩
def DCH_MODULE_SPPR : Fld := ⟨6, 1⟩
def DCH_MODULE_DIE_GB : Fld := ⟨8, 8⟩
def DCH_MODULE_SIZE_GIB : Fld := ⟨16, 16⟩
def DCH_MODULE_RATED : Fld := ⟨32, 16⟩
def DCH_SCHED_WR_HI : Fld := ⟨0, 7⟩
def DCH_SCHED_WR_LO : Fld := ⟨8, 7⟩
def DCH_SCHED_PANIC1 : Fld := ⟨16, 4⟩
def DCH_SCHED_PANIC2 : Fld := ⟨20, 4⟩
def DCH_SCHED_PANIC3 : Fld := ⟨24, 4⟩
def DCH_RHCFG_THR_ACT : Fld := ⟨0, 16⟩
def DCH_RHCFG_GAP_NS : Fld := ⟨16, 16⟩
def DCH_RBRING_EN : Fld := ⟨0, 1⟩
def DCH_RBRING_LPN : Fld := ⟨12, 35⟩
def DCH_WMARK_FRAME : Fld := ⟨0, 29⟩
def DCH_WMARK_END : Fld := ⟨32, 29⟩
def DCH_SCRUBCTL_START : Fld := ⟨0, 1⟩
def DCH_SCRUBCTL_BUSY : Fld := ⟨1, 1⟩
def DCH_SCRUBCTL_STATUS : Fld := ⟨48, 16⟩
def DCH_SCRUBBASE_FRAME : Fld := ⟨0, 29⟩
def DCH_SCRUBLIM_FRAME : Fld := ⟨0, 29⟩
def DCH_SCRUBSUM_CE : Fld := ⟨0, 32⟩
def DCH_SCRUBSUM_UE : Fld := ⟨32, 16⟩
def DCH_SCRUBSUM_POISON : Fld := ⟨48, 16⟩
def DCH_ECCSTAT_CE : Fld := ⟨0, 32⟩
def DCH_ECCSTAT_UE : Fld := ⟨32, 16⟩
def DCH_ECCSTAT_MARK0 : Fld := ⟨48, 4⟩
def DCH_ECCSTAT_MARK1 : Fld := ⟨52, 4⟩
def DCH_FIFO_PLAIN : Fld := ⟨0, 11⟩
def DCH_FIFO_MIRROR : Fld := ⟨16, 11⟩
def DCH_ROWFLT_PA : Fld := ⟨0, 45⟩
def DCH_ROWFLT_SPARED : Fld := ⟨62, 1⟩
def DCH_ROWFLT_VALID : Fld := ⟨63, 1⟩
def DCH_SCRUBUE_PA : Fld := ⟨0, 45⟩
def DCH_SCRUBUE_VALID : Fld := ⟨63, 1⟩
def SRM_CFG_BG_EN : Fld := ⟨0, 1⟩
def SRM_CFG_RET_DESC : Fld := ⟨1, 1⟩
def SRM_CFG_BG_INT : Fld := ⟨16, 16⟩
def SRM_STAT_CE : Fld := ⟨0, 1⟩
def SRM_STAT_UE : Fld := ⟨1, 1⟩
def SRM_STAT_REPAIRED : Fld := ⟨2, 1⟩
def SRM_STAT_FENCE : Fld := ⟨3, 1⟩
def SRM_STAT_SWEEPS : Fld := ⟨32, 16⟩
def SRM_ERRLOG_BANK : Fld := ⟨0, 9⟩
def SRM_ERRLOG_WORD : Fld := ⟨9, 14⟩
def SRM_ERRLOG_SYNDROME : Fld := ⟨23, 8⟩
def SRM_ERRLOG_UE : Fld := ⟨31, 1⟩
def SRM_ERRLOG_COUNT : Fld := ⟨48, 15⟩
def SRM_ERRLOG_VALID : Fld := ⟨63, 1⟩
def SRM_TESTCTL_BANK : Fld := ⟨0, 9⟩
def SRM_TESTCTL_REGION : Fld := ⟨9, 6⟩
def SRM_TESTCTL_ALL : Fld := ⟨15, 1⟩
def SRM_TESTCTL_START : Fld := ⟨16, 1⟩
def SRM_TESTCTL_BUSY : Fld := ⟨17, 1⟩
def SRM_TESTCTL_STATUS : Fld := ⟨48, 16⟩
def SRM_FENCE_FENCED : Fld := ⟨0, 64⟩
def QOS_CFG_IRQ_EN : Fld := ⟨0, 1⟩
def QOS_CFG_MGMT_SLOTS : Fld := ⟨8, 4⟩
def QOS_STAT_MISS : Fld := ⟨0, 1⟩
def QOS_MISSLOG_MASTER : Fld := ⟨0, 5⟩
def QOS_MISSLOG_RESOURCE : Fld := ⟨8, 5⟩
def QOS_MISSLOG_SHORT : Fld := ⟨16, 16⟩
def QOS_MISSLOG_COUNT : Fld := ⟨32, 16⟩
def QOS_MISSLOG_VALID : Fld := ⟨63, 1⟩
def QOS_MDRAM_GUAR : Fld := ⟨0, 13⟩
def QOS_MDRAM_WEIGHT : Fld := ⟨16, 8⟩
def QOS_MDRAM_CAP : Fld := ⟨32, 13⟩
def QOS_MOCC_GUAR : Fld := ⟨0, 13⟩
def QOS_MOCC_WEIGHT : Fld := ⟨16, 8⟩
def QOS_MOCC_CAP : Fld := ⟨32, 13⟩
def QOS_HISTCFG_MASTER : Fld := ⟨0, 5⟩
def QOS_HISTCFG_POINT : Fld := ⟨5, 2⟩
def QOS_HISTCFG_KIND : Fld := ⟨7, 2⟩
def QOS_HISTCFG_EN : Fld := ⟨9, 1⟩
def QOS_HISTCFG_CLEAR : Fld := ⟨10, 1⟩
def QOS_HISTCFG_BASE : Fld := ⟨16, 16⟩
def QOS_HISTSTAT_UNDER : Fld := ⟨0, 32⟩
def QOS_HISTSTAT_OVER : Fld := ⟨32, 24⟩
def QOS_HISTSTAT_STEPS : Fld := ⟨56, 8⟩
def QOS_HBIN_BIN_LO : Fld := ⟨0, 32⟩
def QOS_HBIN_BIN_HI : Fld := ⟨32, 32⟩
def PMC_CNT_COUNT : Fld := ⟨0, 48⟩
def PMC_CNT_WRAP : Fld := ⟨63, 1⟩
def PMC_MODE_LEVEL : Fld := ⟨0, 64⟩
def PMC_SNAPCTL_GO : Fld := ⟨0, 1⟩
def PMC_SNAPCTL_CLEAR : Fld := ⟨1, 1⟩
def PMC_SNAPCTL_AT_EN : Fld := ⟨2, 1⟩
def PMC_SNAPCTL_BUSY : Fld := ⟨3, 1⟩
def PMC_SNAPCTL_DONE : Fld := ⟨4, 1⟩
def PMC_SNAPAT_NS : Fld := ⟨0, 64⟩
def PMC_SNAPTIME_NS : Fld := ⟨0, 64⟩
def PMC_STAT_WRAPANY : Fld := ⟨0, 1⟩
def PMC_STAT_SNAPS : Fld := ⟨32, 32⟩
def PMC_SNAP_COUNT : Fld := ⟨0, 48⟩
def PMC_SNAP_WRAP : Fld := ⟨63, 1⟩
def FLT_CFG_IRQ_MIN : Fld := ⟨0, 3⟩
def FLT_CFG_SELFTEST_EN : Fld := ⟨3, 1⟩
def FLT_STAT_DEVLEVEL : Fld := ⟨0, 3⟩
def FLT_STAT_OVERFLOW : Fld := ⟨3, 1⟩
def FLT_STAT_GLOBAL : Fld := ⟨4, 1⟩
def FLT_STAT_LEVELREC : Fld := ⟨16, 10⟩
def FLT_STAT_UNACK : Fld := ⟨32, 11⟩
def FLT_STAT_FENCED : Fld := ⟨48, 10⟩
def FLT_LOG_HEAD : Fld := ⟨0, 10⟩
def FLT_LOG_LOST : Fld := ⟨16, 16⟩
def FLT_LOG_ACKIDX : Fld := ⟨32, 10⟩
def FLT_LOG_ACK : Fld := ⟨42, 1⟩
def FLT_READMIT_SOURCE : Fld := ⟨0, 12⟩
def FLT_READMIT_ELEMENT : Fld := ⟨12, 16⟩
def FLT_READMIT_GO : Fld := ⟨28, 1⟩
def FLT_READMIT_BUSY : Fld := ⟨29, 1⟩
def FLT_READMIT_STAGE : Fld := ⟨30, 2⟩
def FLT_READMIT_STATUS : Fld := ⟨48, 16⟩
def FLT_LEVELCTL_EXIT_BASTING : Fld := ⟨0, 1⟩
def FLT_LEVELCTL_RELEASE : Fld := ⟨1, 1⟩
def FLT_LEVELCTL_STATUS : Fld := ⟨48, 16⟩
def FLT_REC_DATA : Fld := ⟨0, 64⟩
def FLT_SRCCFG_N : Fld := ⟨0, 16⟩
def FLT_SRCCFG_W_MS : Fld := ⟨16, 32⟩
def FLT_SRCSTAT_STATE : Fld := ⟨0, 3⟩
def FLT_SRCSTAT_HANDLING : Fld := ⟨3, 1⟩
def FLT_SRCSTAT_PRIV : Fld := ⟨4, 1⟩
def FLT_SRCSTAT_COUNT : Fld := ⟨16, 16⟩
def FLT_SRCSTAT_LASTREC : Fld := ⟨32, 10⟩
def MGT_BOOTSTAT_STAGE : Fld := ⟨0, 4⟩
def MGT_BOOTSTAT_COPY : Fld := ⟨4, 1⟩
def MGT_BOOTSTAT_DONE : Fld := ⟨5, 1⟩
def MGT_BOOTSTAT_SVN : Fld := ⟨8, 16⟩
def MGT_BOOTSTAT_STATUS : Fld := ⟨48, 16⟩
def MGT_BOOTCTL_DINIT : Fld := ⟨0, 1⟩
def MGT_BOOTCTL_BUSY : Fld := ⟨1, 1⟩
def MGT_BOOTCTL_STATUS : Fld := ⟨48, 16⟩
def MGT_LOCK_LOCK : Fld := ⟨0, 1⟩
def MGT_LOCK_LOCKED : Fld := ⟨1, 1⟩
def MGT_LOCK_STATUS : Fld := ⟨48, 16⟩
def MGT_RSTCTL_WARM : Fld := ⟨0, 1⟩
def MGT_RSTCTL_CORERST : Fld := ⟨4, 4⟩
def MGT_RSTCTL_LASTRST : Fld := ⟨8, 3⟩
def MGT_RSTCTL_WARMS : Fld := ⟨32, 16⟩
def MGT_DBGCTL_T_INV : Fld := ⟨0, 1⟩
def MGT_DBGCTL_T_NINV : Fld := ⟨1, 1⟩
def MGT_DBGCTL_N_INV : Fld := ⟨2, 1⟩
def MGT_DBGCTL_N_NINV : Fld := ⟨3, 1⟩
def MGT_WDOG_TIMEOUT_MS : Fld := ⟨0, 16⟩
def MGT_WDOG_EN : Fld := ⟨16, 1⟩
def MGT_WDOG_STAGE1 : Fld := ⟨17, 1⟩
def MGT_WDOGKICK_KICK : Fld := ⟨0, 1⟩
def MGT_CORESTAT_STATE0 : Fld := ⟨0, 4⟩
def MGT_CORESTAT_STATE1 : Fld := ⟨4, 4⟩
def MGT_CORESTAT_STATE2 : Fld := ⟨8, 4⟩
def MGT_CORESTAT_STATE3 : Fld := ⟨12, 4⟩
def MGT_FWBASE_LA : Fld := ⟨21, 26⟩
def MGT_FWLIMIT_LA : Fld := ⟨21, 26⟩
def MGT_CTLERR_OFFSET : Fld := ⟨0, 32⟩
def MGT_CTLERR_CORE : Fld := ⟨32, 2⟩
def MGT_CTLERR_STATUS : Fld := ⟨48, 16⟩
def MGT_TUSE_TUSE : Fld := ⟨0, 64⟩
def MGT_MRSTAGE_D : Fld := ⟨0, 64⟩
def MGT_MREXT_INDEX : Fld := ⟨0, 3⟩
def MGT_MREXT_GO : Fld := ⟨3, 1⟩
def MGT_MREXT_LOCK0 : Fld := ⟨4, 1⟩
def MGT_ASSIGN_ID : Fld := ⟨0, 14⟩
def MGT_ASSIGN_KIND : Fld := ⟨14, 2⟩
def MGT_IRQRT_KIND : Fld := ⟨0, 2⟩
def MGT_IRQRT_CORE : Fld := ⟨2, 2⟩
def MGT_IRQRT_PART : Fld := ⟨4, 5⟩
def MGT_MR_DATA : Fld := ⟨0, 64⟩
def MGT_LOCKDIG_DATA : Fld := ⟨0, 64⟩
def PWR_CFG_P1_AUTO : Fld := ⟨0, 1⟩
def PWR_CTL_TARGET : Fld := ⟨0, 3⟩
def PWR_CTL_GO : Fld := ⟨3, 1⟩
def PWR_CTL_BUSY : Fld := ⟨4, 1⟩
def PWR_CTL_STATUS : Fld := ⟨48, 16⟩
def PWR_STAT_PREV : Fld := ⟨0, 3⟩
def PWR_STAT_WAKESRC : Fld := ⟨8, 4⟩
def PWR_WAKE_PERST : Fld := ⟨0, 1⟩
def PWR_WAKE_HOST : Fld := ⟨1, 1⟩
def PWR_WAKE_PIN : Fld := ⟨2, 1⟩
def PWR_WAKE_PRESENCE : Fld := ⟨3, 1⟩
def PWR_WAKE_SIDEBAND : Fld := ⟨4, 1⟩
def PWR_WAKE_TIMER_S : Fld := ⟨16, 32⟩
def PWR_VCORE_REQ_MV : Fld := ⟨0, 10⟩
def PWR_VCORE_MEAS_MV : Fld := ⟨16, 10⟩
def PWR_ACCT_REFUSED : Fld := ⟨0, 16⟩
def PWR_ACCT_ABORTED : Fld := ⟨16, 16⟩
def PWR_ACCT_ENTERED : Fld := ⟨32, 16⟩
def PWR_ACCT_LASTREF : Fld := ⟨48, 16⟩
def PWR_REFCNT_COUNT : Fld := ⟨0, 32⟩
def PWR_UNITCTL_GATE : Fld := ⟨0, 2⟩
def PWR_UNITCTL_GATED : Fld := ⟨2, 2⟩
def PWR_UNITCTL_STATUS : Fld := ⟨48, 16⟩
def HEM_CFG_RAMP_MS : Fld := ⟨0, 7⟩
def HEM_CFG_FAULT : Fld := ⟨8, 8⟩
def HEM_CFG_RETRY : Fld := ⟨16, 10⟩
def HEM_CFG_ILIM : Fld := ⟨32, 9⟩
def HEM_CFG_RSENSE : Fld := ⟨48, 16⟩
def HEM_CTL_EN : Fld := ⟨0, 1⟩
def HEM_CTL_CLRPEAK : Fld := ⟨1, 1⟩
def HEM_CTL_STATUS : Fld := ⟨48, 16⟩
def HEM_STAT_STATE : Fld := ⟨0, 3⟩
def HEM_STAT_PG : Fld := ⟨3, 1⟩
def HEM_STAT_PRESENT : Fld := ⟨4, 1⟩
def HEM_STAT_STALE : Fld := ⟨5, 1⟩
def HEM_STAT_VINOK : Fld := ⟨6, 1⟩
def HEM_STAT_LATCH : Fld := ⟨7, 1⟩
def HEM_STAT_LASTFLT : Fld := ⟨8, 16⟩
def HEM_STAT_RETRY_LEFT : Fld := ⟨24, 10⟩
def HEM_STAT_FAULTS : Fld := ⟨48, 16⟩
def HEM_TELEM_VIN_MV : Fld := ⟨0, 16⟩
def HEM_TELEM_I_MA : Fld := ⟨16, 16⟩
def HEM_TELEM_P_DW : Fld := ⟨32, 16⟩
def HEM_PEAK_VMIN_MV : Fld := ⟨0, 16⟩
def HEM_PEAK_IMAX_MA : Fld := ⟨16, 16⟩
def HEM_ENERGY_MJ : Fld := ⟨0, 64⟩
def CAL_CFG_TRACK_EN : Fld := ⟨0, 1⟩
def CAL_CFG_AUTO_RECAL : Fld := ⟨1, 1⟩
def CAL_CFG_BURST_THR : Fld := ⟨16, 16⟩
def CAL_CFG_ERRMAX : Fld := ⟨32, 16⟩
def CAL_LIMITS_CTLE_MAX : Fld := ⟨0, 4⟩
def CAL_LIMITS_DFE_MAX : Fld := ⟨8, 6⟩
def CAL_LIMITS_PHASE_MAX : Fld := ⟨16, 6⟩
def CAL_LIMITS_EYEMIN_MV : Fld := ⟨32, 16⟩
def CAL_REQ_PORT : Fld := ⟨0, 4⟩
def CAL_REQ_LANE : Fld := ⟨4, 4⟩
def CAL_REQ_KIND : Fld := ⟨8, 1⟩
def CAL_REQ_GO : Fld := ⟨9, 1⟩
def CAL_REQ_BUSY : Fld := ⟨10, 1⟩
def CAL_REQ_STATUS : Fld := ⟨48, 16⟩
def CAL_MBISTCTL_CH : Fld := ⟨0, 5⟩
def CAL_MBISTCTL_ALG : Fld := ⟨5, 2⟩
def CAL_MBISTCTL_GO : Fld := ⟨7, 1⟩
def CAL_MBISTCTL_BUSY : Fld := ⟨8, 1⟩
def CAL_MBISTCTL_STATUS : Fld := ⟨48, 16⟩
def CAL_MBISTRES_PA : Fld := ⟨0, 45⟩
def CAL_MBISTRES_VALID : Fld := ⟨63, 1⟩
def CAL_AXTCFG_EN : Fld := ⟨0, 1⟩
def CAL_AXTCFG_RATE : Fld := ⟨1, 2⟩
def CAL_AXTCFG_KINDS : Fld := ⟨8, 7⟩
def CAL_AXTCFG_DROPPED : Fld := ⟨32, 32⟩
def CAL_LANE_CTLE : Fld := ⟨0, 5⟩
def CAL_LANE_DFE1 : Fld := ⟨5, 7⟩
def CAL_LANE_DFE2 : Fld := ⟨12, 6⟩
def CAL_LANE_DFE3 : Fld := ⟨18, 6⟩
def CAL_LANE_DFE4 : Fld := ⟨24, 6⟩
def CAL_LANE_PHASE : Fld := ⟨30, 7⟩
def CAL_LANE_STATE : Fld := ⟨38, 3⟩
def CAL_LANE_SPARED : Fld := ⟨41, 1⟩
def CAL_LANE_EYE_MV : Fld := ⟨48, 16⟩
def CAL_PRBS_GEN_EN : Fld := ⟨0, 1⟩
def CAL_PRBS_CHK_EN : Fld := ⟨1, 1⟩
def CAL_PRBS_POLY : Fld := ⟨2, 2⟩
def CAL_PRBS_LOCK : Fld := ⟨4, 1⟩
def CAL_PRBS_CLR : Fld := ⟨5, 1⟩
def CAL_PRBS_LOOP : Fld := ⟨6, 1⟩
def CAL_PRBS_ERRORS : Fld := ⟨16, 24⟩
def CAL_PRBS_BITS : Fld := ⟨40, 24⟩
def SBT_TEMP_CORE_MAX : Fld := ⟨0, 8⟩
def SBT_TEMP_CORE_IDX : Fld := ⟨8, 5⟩
def SBT_TEMP_SELV_MAX : Fld := ⟨16, 8⟩
def SBT_TEMP_SELV_IDX : Fld := ⟨24, 2⟩
def SBT_THERMCFG_ALERT_C : Fld := ⟨0, 8⟩
def SBT_THERMCFG_HYST_C : Fld := ⟨8, 4⟩
def SBT_STAT_ALERT : Fld := ⟨0, 1⟩
def SBT_STAT_ALERTED : Fld := ⟨1, 1⟩
def SBT_STAT_TRIP : Fld := ⟨2, 1⟩
def SBT_STAT_BROWNOUT : Fld := ⟨3, 1⟩
def SBT_STAT_RAIL : Fld := ⟨4, 5⟩
end F

end Sys2Proof.Machine
end

