-- ==== Sys2Proof/Machine/Tab.lean ====
section
/-! DEFINITION. Sparse tables: a list of (key, value) pairs in ONE canonical form (keys strictly rising, no entry equal to
what an unlisted key reads as). Every sparse piece of State (register file, DRAM, caches, directory) is such a table. -/

namespace Sys2Proof.Machine

/-- A sparse table. What an unlisted key reads as is the `dflt` argument of the operations. -/
abbrev Tab (α : Type) := List (Nat × α)

/-- The value at key `k`. -/
def tabGet {α : Type} (dflt : Nat → α) : Tab α → Nat → α
  | [], k => dflt k
  | (j, v) :: rest, k => if j = k then v else tabGet dflt rest k

/-- Remove key `k`. -/
def tabDel {α : Type} (t : Tab α) (k : Nat) : Tab α := t.filter (fun e => e.1 != k)

/-- Insert or replace the entry of key `k`. -/
def tabIns {α : Type} : Tab α → Nat → α → Tab α
  | [], k, x => [(k, x)]
  | (j, v) :: rest, k, x =>
    if j = k then (k, x) :: rest else if k < j then (k, x) :: (j, v) :: rest else (j, v) :: tabIns rest k x

/-- Set key `k` to `x`; writing the default removes the entry. -/
def tabSet {α : Type} [DecidableEq α] (dflt : Nat → α) (t : Tab α) (k : Nat) (x : α) : Tab α :=
  if x = dflt k then tabDel t k else tabIns t k x

/-- Every key of the list is above `k`. -/
def tabAbove {α : Type} (k : Nat) : Tab α → Bool
  | [] => true
  | (j, _) :: _ => k < j

/-- The canonical form. -/
def tabWf {α : Type} [DecidableEq α] (dflt : Nat → α) : Tab α → Bool
  | [] => true
  | (j, v) :: rest => decide (v ≠ dflt j) && tabAbove j rest && tabWf dflt rest

/-- Remove every entry whose key meets `p`. -/
def tabDrop {α : Type} (p : Nat → Bool) (t : Tab α) : Tab α := t.filter (fun e => !p e.1)

/-- Keys listed in the table that meet `p`. -/
def tabKeys {α : Type} (p : Nat → α → Bool) (t : Tab α) : List Nat := (t.filter (fun e => p e.1 e.2)).map (·.1)

end Sys2Proof.Machine
end

