-- ==== Sys2Proof/Machine/State.lean ====
section
/-! DEFINITION. The state of the block: every register, buffer, queue, counter and mode that the spec gives it, as plain data, and the queue of waiting commands. -/

namespace Sys2Proof.Machine

/-- Outputs of the device, newest first. MODEL'S OWN RECORD (DESIGN CHOICE): what leaves the block at its pins and interfaces. -/
inductive Out where
  /-- A control-space write ended with this status (R3). -/
  | ctlDone (who : Who) (off status : Nat)
  /-- A control-space read returned data with this status (R3, R490). -/
  | ctlData (who : Who) (off : Nat) (data : Word) (status : Nat)
  /-- An interrupt to a core: kind 1 trusted, 2 hypervisor, 3 guest (R492). -/
  | irq (core kind part : Nat)
  /-- A completion to a host (R102, R105): `mv` is the MetaValue granted, 0 I, 1 S, 2 A (R243), and `load` the DevLoad field, 0 Light to 3 Severe Overload
  (R107). -/
  | hostCpl (p tag : Nat) (data : Line) (poison : Bool) (mv load : Nat)
  /-- BIConflictAck to a host (R104). -/
  | biConflictAck (p la : Nat)
  /-- An uncorrectable internal error message to a host (R116). -/
  | internalError (p : Nat)
  /-- A recall to a host port, kinds of R225: 0 invalidate, 1 downgrade, 2 share, 3 current. -/
  | biSnp (p la kind : Nat)
  /-- A recall to a proxy (R225). -/
  | proxySnp (node la kind : Nat)
  /-- Data or a status to a remote requester (R233, R243). -/
  | nodeReply (node tid : Nat) (data : Option Line) (poison : Bool) (status : Nat) (st : Nat)
  /-- Data to a management core's load, or the end of its store. -/
  | coreReply (c : Nat) (la : Nat) (data : Line) (poison : Bool) (status : Nat)
  /-- An MSI-X vector of a head (R110). -/
  | msix (p vector : Nat)
  /-- An answer to the fabric manager: opcode, return code, vendor status (R99, R100). -/
  | fmReply (p op rc vendor : Nat)
  /-- A CXL_IDE_KM message for the trusted world (R218). -/
  | ideKm (p op slot : Nat)
  /-- A channel's read of a line ended: its data, none when uncorrectable (R400, R403). -/
  | dramData (c id : Nat) (data : Option Line) (poison : Bool)
  /-- A write that the channel has not completed returns to its slice as not done (R415). -/
  | dramBack (c id : Nat)
  /-- A module's SPD hub is read on sideband bus `bus`, segment `seg`, at host address `hsa`, in I2C mode, and hub and PMIC are switched to I3C (R389). -/
  | dsb (bus seg hsa : Nat)
  /-- A flit, or a skip block with its two lane-map bytes, leaves a Seam port (R329, R562). -/
  | flit (p : Nat) (bytes : BitVec 2048)
  | skip (p a b : Nat)
  /-- A Spool notice reached its submitter (R374): the device and its Spool. -/
  | notice (node spool : Nat)
  /-- The completion of a transaction of firmware (R358), or a link-local CtlCmp (R354). -/
  | fwDone (tid : Nat) (data : Nat) (status : Nat)
  /-- An access ended at an SRAM bank: the word's old value and a status (R426 to R429). -/
  | sram (bank word : Nat) (val : Word) (status : Nat)
  /-- A test instruction: its opcode and what it shifts out or drives (R573). -/
  | tap (ir val : Nat)
  /-- A packet leaves Axtil (R577). -/
  | axt (kind inst time payload : Nat)
  /-- Bytes of the CDAT leave a DOE mailbox (R85); an SPDM response leaves on a transport (R507). -/
  | doe (p : Nat) (bytes : List Nat)
  | spdm (transport code : Nat) (bytes : List Nat)
  /-- A Thimble service returns to the hypervisor on a core (R486). -/
  | ecall (core a0 a1 : Nat)
  /-- An in-band interrupt to the BMC asks for VDD_CORE in mV (R532). -/
  | bmcVolt (mv : Nat)
  /-- A token was delivered to its agent (R39). -/
  | tokenDelivered (plane : Nat) (tok : Token)
  deriving DecidableEq, Repr

/-- One descriptor-cache way: an entry (R72, R74), or a copy of an entry of the partner share (R425). `page` is the LPN, or 2^35 + the global page number for a guest entry (R244). -/
structure DcEntry where
  page : Nat
  desc : BitVec 512
  busy : Bool
  changed : Bool
  stamp : Nat
  copy : Bool
  deriving DecidableEq, Repr

/-- States of a line-cache line (R120); "Dirty, copied" is `dirty` with a copy in the partner share. -/
inductive LcState where | clean | dirty | held | poisoned
  deriving DecidableEq, Repr

/-- One line-cache way: a line, or a copy of a line of the partner share (R121). `line` is the address divided by 64 (guest lines: R244). -/
structure LcEntry where
  copy : Bool
  line : Nat
  st : LcState
  data : Line
  master : Nat
  stamp : Nat
  deriving DecidableEq, Repr

/-- One directory entry (R229): `state` 0 I, 1 S, 2 E, 3 M, 4 O. -/
structure DirEntry where
  state : Nat
  sharers : Nat
  owner : Nat
  tag : Nat
  stamp : Nat
  deriving DecidableEq, Repr

/-- A recall that awaits its answer (R225); `kind` as in `Out.biSnp`. -/
structure Recall where
  la : Nat
  bit : Nat
  node : Nat
  kind : Nat
  wbPending : Bool
  /-- Sent under R240: an unanswered recall poisons the line. -/
  unknown : Bool
  /-- It has left for its holder: at most 256 snoops of a head are outstanding (R84). -/
  sent : Bool
  /-- A proxy's WbDirty of the line has arrived while the recall was out: an RspWbPending that follows announces nothing more (R226). -/
  wbDone : Bool
  born : Nat
  deriving DecidableEq, Repr

/-- Data returned by an owner for the request in service (R233 "forwarded"); none: the owner had no dirty data. -/
structure Fwd where
  la : Nat
  data : Option Line
  poison : Bool
  deriving DecidableEq, Repr

/-- One region entry of the binding table (R241): 16 nodes (0x3FFF free) and counts. -/
structure BindEntry where
  region : Nat
  nodes : List Nat
  counts : List Nat
  deriving DecidableEq, Repr

/-- A reply that waits to be taken: `bob` is Bobbin b and `slot` the access's number (R266, R267), 64 + b and a stitch's tag or 16 for the
image loader, or 128 + q for the Spool engine. -/
structure BobReply where
  bob : Nat
  slot : Nat
  la : Nat
  data : Line
  poison : Bool
  status : Nat
  deriving DecidableEq, Repr

/-- An open stripe of a journal (R133): sectors appended so far, and whether it has been closed and awaits its write. -/
structure OpenStripe where
  group : Nat
  idx : Nat
  sects : Tab Line
  fill : Nat
  closed : Bool
  since : Nat
  deriving DecidableEq, Repr

/-- A page operation whose descriptor rewrite waits for its stripes (R132 steps 5 and 6, R212). -/
structure PageOp where
  lpn : Nat
  desc : BitVec 512
  group : Nat
  firstStripe : Nat
  lastStripe : Nat
  failed : Bool
  /-- 0 demotion, 1 compaction move, 2 sweep of a cold page, 3 cold merge. -/
  kind : Nat
  bob : Nat
  rd : Nat
  /-- The lines whose data the new image takes from the line cache: the merged line of a cold merge (R131), or those of R216. -/
  merged : List (Nat × Line)
  deriving DecidableEq, Repr

/-- Work that waits for, or holds, lanes of a Pleat unit (R182): its class, its key, how many lanes it needs, one for a segment and eight for a page, and how
many it holds. -/
structure PleatWork where
  unit : Nat
  cls : Nat
  la : Nat
  need : Nat
  lanes : Nat
  /-- It encodes a page, so that the verification of R183 may fail it. -/
  enc : Bool
  /-- It has all its lanes. -/
  granted : Bool
  /-- Its unit has been fenced: the operation ends under R74 or R184. -/
  failed : Bool
  deriving DecidableEq, Repr

/-- A promotion, or the cold merge in its place, between the setting of its page's busy bit and the writing of the page (R129 steps 1 to 3, R131). -/
structure Promo where
  lpn : Nat
  /-- The line whose eviction began it; none: a PROMOTE. -/
  la : Option Nat
  /-- Channel and index of the frame taken, in the mirror pool or the plain one; none: a cold merge. -/
  frame : Option (Nat × Nat)
  mirror : Bool
  deriving DecidableEq, Repr

/-- Key material of one slot (R190): KC, KX1, KX2 as 96 bytes in one number, in-use count, MFLOOR. -/
structure KeySlot where
  mat : Nat
  inuse : Nat
  mfloor : Nat
  deriving DecidableEq, Repr

/-- The key-region store (R190, R209, R219). -/
structure KeyState where
  slots : Tab KeySlot
  /-- Staging words KEY_KMAT0–11 (R191). -/
  kmat : Tab Nat
  metaData : Nat
  metaTweak : Nat
  metaTag : Nat
  /-- Link keys by port × 4 + direction × 2 + slot: key and salt; absent: empty (R219, R336). -/
  link : Tab (Option (Nat × Nat))
  /-- Write-blocked pages (R204). -/
  blocked : List Nat
  /-- A STOP was written to the running sweep (R213). -/
  sweepStop : Bool
  deriving DecidableEq, Repr

/-- A request in a channel's slots (R392): `next` is set once its burst has been issued. -/
structure DramReq where
  op : DramOp
  born : Nat
  issued : Bool
  deriving DecidableEq, Repr

/-- A tracked master of a bank (R398). -/
structure RhEntry where
  master : Nat
  count : Nat
  lastAct : Nat
  throttled : Bool
  deriving DecidableEq, Repr

/-- A rebuild-ring entry in progress (R416). -/
structure RingEntry where
  next : Nat
  left : Nat
  action : Nat
  /-- CONSUMED of the ring when the entry was taken. -/
  consumed : Nat
  deriving DecidableEq, Repr

/-- Regulation of one channel (R442, R443, R447), in units of 1/4,096 of a burst. -/
structure Regul where
  /-- Requests that wait for a pass, oldest first (R444). -/
  held : List DramReq
  passes : Tab Nat
  gacc : Tab Nat
  cacc : Tab Nat
  racc : Nat
  /-- Deficit round robin by WEIGHT: next master and what it may still take. -/
  rr : Nat
  quantum : Nat
  /-- GUAR, WEIGHT and CAP in force by master (R441): GUAR + WEIGHT × 2^16 + CAP × 2^32. -/
  act : Tab Nat
  issued : Tab Nat
  /-- Bursts admitted within the last 8 µs, newest first: master and time (R107). -/
  recent : List (Nat × Nat)
  periods : Nat
  /-- Masters that lacked demand at some moment of the window, and whether the channel or a throttle excuses the window. -/
  idle : List Nat
  excused : Bool
  excusedM : List Nat
  deriving DecidableEq, Repr

/-- A line of a channel's merge buffer (R404): the corrected line, from the controller's read until its write has completed. -/
structure MergeEnt where
  frame : Nat
  line : Nat
  data : Line
  /-- The write's burst has been issued. -/
  issued : Bool
  born : Nat
  /-- The master charged for it: the scrub agent for its own corrections, else none (R438). -/
  master : Nat
  deriving DecidableEq, Repr

/-- A line as the cells hold it, with the key of `DramState`: data, poison, and the errors of its codeword. -/
structure RowLine where
  key : Nat
  data : Line
  poison : Bool
  err : BitVec 640
  deriving DecidableEq, Repr

/-- A running row test (R405): the PA whose row it tests, and the 32 KiB test buffer with the row and its neighbours. -/
structure RowTest where
  pa : Nat
  buf : List RowLine
  deriving DecidableEq, Repr

/-- A command sent to the DIMMs (R396): `kind` 0 ACT, 1 PRE, 2 a read or write burst, 3 refresh, 4 RFM; `id` names the request it serves. -/
structure DramCmd where
  id : Nat
  kind : Nat
  bank : Nat
  row : Nat
  deriving DecidableEq, Repr

/-- One DRAM channel (chapter 11). Banks are numbered PA[38:29] with the subchannel above. -/
structure Chan where
  fifoP : List Nat
  fifoM : List Nat
  slots : List DramReq
  /-- The merge buffer of 32 lines (R404), oldest first. -/
  merge : List MergeEnt
  drainW : Bool
  openRow : Tab (Option Nat)
  raa : Tab Nat
  rh : Tab (List RhEntry)
  rhStart : Nat
  /-- RAAIMT, RAAMMT and refresh-management support of the module in each slot (R397). -/
  raaimt : Tab Nat
  raammt : Tab Nat
  rfmSup : Tab Bool
  rfmDue : List Nat
  /-- Banks whose count has saturated since their last RFM (R397). -/
  saturated : List Nat
  /-- Commands issued and not yet known to be good, oldest first (R396). -/
  cmds : List DramCmd
  refDebt : Nat
  /-- Postponed refreshes are being made up (R395). -/
  refMust : Bool
  /-- MR4 reports a temperature above 85 °C (R395). -/
  hot : Bool
  /-- When the refresh interval began (R395). -/
  refAt : Nat
  /-- Bank address that the next same-bank refresh refreshes (R395). -/
  refBank : Nat
  rowTest : Option RowTest
  rowQueue : List Nat
  trainStep : Nat
  trainRetried : Bool
  atBoot : Bool
  /-- DQS correction since training by rank, in 1/64 UI (R411). -/
  track : Tab Int
  zqRuns : Nat
  /-- A waiting request of R414: 1 FENCE, 2 RETRAIN. -/
  reqWait : Nat
  nibs : Tab Nat
  rejoinHead : Nat
  rejoinTail : Nat
  /-- Stripes that were open when the rejoin began, or have been written since (R417). -/
  rejoinSkip : List Nat
  ring : Option RingEntry
  /-- CONSUMED as last read, while the line of the next entry is being read (R417). -/
  ringSeen : Option Nat
  ringStop : Bool
  scrubLine : Nat
  /-- The modules report their own MBIST (R575). -/
  mbist : Bool
  /-- Slots whose SPD hub and PMIC have been switched to I3C Basic (R389). -/
  i3c : List Nat
  regul : Regul
  deriving DecidableEq, Repr

/-- Regulation at reset: nothing held, nothing accumulated. -/
def Regul.init : Regul :=
  { held := [], passes := [], gacc := [], cacc := [], racc := 0, rr := 0, quantum := 0, act := [], issued := [], recent := [], periods := 0,
    idle := [], excused := false, excusedM := [] }

/-- A channel with nothing in it (R414 ABSENT). -/
def Chan.init : Chan :=
  { fifoP := [], fifoM := [], slots := [], merge := [], drainW := false, openRow := [], raa := [], rh := [], rhStart := 0, raaimt := [],
    raammt := [], rfmSup := [], rfmDue := [], saturated := [], cmds := [], refDebt := 0, refMust := false, hot := false, refAt := 0, refBank := 0, rowTest := none, rowQueue := [],
    trainStep := 0, trainRetried := false, atBoot := false, track := [], zqRuns := 0, reqWait := 0, nibs := [],
    rejoinHead := 0, rejoinTail := 0, rejoinSkip := [], ring := none, ringSeen := none, ringStop := false, scrubLine := 0, mbist := false, i3c := [], regul := Regul.init }

/-- DRAM content (chapters 02 and 11). A line's key is (channel × 2^28 + frame) × 64 + line. -/
structure DramState where
  lines : Tab Line
  poison : Tab Bool
  /-- Errors that the cells hold: 640 bits exclusive-ored onto the codeword (R399). -/
  err : Tab (BitVec 640)
  /-- Chunks skipped by a degraded stripe write (R134), by channel × 2^28 + frame. -/
  lack : Tab Bool
  /-- DSBb_SEL of the four sideband buses: the segment selected (R389). -/
  dsbSel : Tab Nat
  deriving DecidableEq, Repr

/-- What a Seam transaction is told by the home slice (R362, R369). -/
structure NodeReply where
  node : Nat
  tid : Nat
  data : Option Line
  poison : Bool
  status : Nat
  /-- State granted: 0 none, 1 S, 2 E, 3 M. -/
  st : Nat
  /-- The data was forwarded from an owner (R233, R352). -/
  fwd : Bool
  deriving DecidableEq, Repr

/-- The home-agent slices' requests and recalls (chapter 07). -/
structure HomeState where
  toHome : List HomeReq
  waiting : List HomeReq
  recalls : List Recall
  fwd : List Fwd
  bobReplies : List BobReply
  dirEnt : Tab (Option DirEntry)
  binds : Tab (Option BindEntry)
  /-- Lines evicted from the directory whose recalls are out (R237), so that their entries free as the answers come. -/
  evicting : List Nat
  /-- Lines that the running range recall still waits for (R249), and whether one ended without an answer. -/
  recallLines : List Nat
  recallTmo : Bool
  /-- Data that arrived for waiting reads in this step (R127). -/
  arrived : List Fwd
  /-- Requests for remote homes that wait to be sent (R244). -/
  guestReqs : List HomeReq
  /-- Replies to remote requesters that wait to be sent (R362). -/
  nodeReplies : List NodeReply
  /-- The guest's standing at the remote home by guest line (R244): 1 shared, 2 owned. -/
  guestRights : Tab Nat
  /-- Lines whose directory entry was lost and which are being recalled from every possible holder (R240). -/
  lostEntries : List Nat
  /-- Lines that the device knows to be poisoned (R105). -/
  poisonLas : List Nat
  deriving DecidableEq, Repr

/-- The tiers (chapter 04). -/
structure TierState where
  dc : Tab (Option DcEntry)
  lc : Tab (Option LcEntry)
  /-- Last content of the units that hold no entry (R421, R423): a line-cache unit by its key, a descriptor-cache unit by 2^20 + its key. -/
  left : Tab (BitVec 512)
  stripes : List OpenStripe
  ops : List PageOp
  pleat : List PleatWork
  promos : List Promo
  /-- Lines of the running flush that are not yet written back, whether it drops lines, and whether it failed one (R125). -/
  flushWait : List Nat
  flushInval : Bool
  flushBad : Bool
  /-- Lines whose write-back has begun and waits (R49, R75, R120, R182), oldest first. -/
  wbQueue : List Nat
  /-- Highest count of busy ways of a descriptor-cache set since cold reset (TIR_BUSYSTAT). -/
  busyPeak : Nat
  deriving DecidableEq, Repr

/-- An HDM decoder of a head (R95): HPA range, first DPA, interleave ways and granularity, back-invalidate, lock. -/
structure HdmDec where
  base : Nat
  size : Nat
  dpa : Nat
  ways : Nat
  gran : Nat
  bi : Bool
  locked : Bool
  deriving DecidableEq, Repr

/-- A request of a head between its arrival and its completion (R84, R112). -/
structure PReq where
  tag : Nat
  wr : Bool
  la : Nat
  dpa : Nat
  born : Nat
  deriving DecidableEq, Repr

/-- A Dynamic Capacity extent (R99): first DPA and length in bytes. -/
structure Extent where
  dpa : Nat
  len : Nat
  deriving DecidableEq, Repr

/-- An event record (R110); logs 0 informational, 1 warning, 2 failure, 3 fatal, 4 Dynamic Capacity. -/
structure EventRec where
  handle : Nat
  log : Nat
  status : Nat
  src : Nat
  dpa : Nat
  /-- Length of the extent that a Dynamic Capacity record offers (R99), otherwise 0. -/
  len : Nat
  deriving DecidableEq, Repr

/-- A mailbox command's outcome (R108, R109): opcode, return code, vendor status, payload words. -/
structure MboxOut where
  opcode : Nat
  rc : Nat
  vendor : Nat
  payload : List Nat
  deriving DecidableEq, Repr

/-- One link port in host mode (chapter 03). -/
structure Port where
  dec : Tab (Option HdmDec)
  trk : List PReq
  /-- Completions in the replay buffer, oldest first, by tag (R13). -/
  replay : List Nat
  events : List EventRec
  evOverflow : Nat
  evNext : Nat
  evPolicy : Nat
  mbox : Option MboxOut
  mboxBg : Option Nat
  /-- The Inject Poison or Clear Poison whose write is at the home: opcode and number; and the number of the next one (R105). -/
  mboxRun : Option (Nat × Nat)
  mboxNo : Nat
  /-- A Get Poison List that has more records than one payload holds: its range and the records returned so far (R84). -/
  poisonCur : Nat × Nat × Nat
  detail : Nat × Nat
  tsBase : Nat
  tsAt : Nat
  alerts : List Nat
  /-- The alerts whose thresholds are passed, one bit each: temperature, corrected errors, spare frames (R108). -/
  alerted : Nat
  extents : List Extent
  /-- Extents of each Initiate Dynamic Capacity Add that the host has not answered, oldest first (R99). -/
  offered : List (List Extent)
  poisonList : List Nat
  poisonOver : Bool
  /-- PERST_N sequence (R114): 0 none, 1 asserted, 2 released and waiting for the cut to end. -/
  perst : Nat
  terms : Bool
  ideInsecure : Bool
  /-- Width to which the link has trained, as in PRT_LINKSTAT.WIDTH: that to which a re-admitted lane lets it return (R570). -/
  full : Nat
  /-- The host has put the link in L1 (R521). -/
  l1 : Bool
  /-- Generation of the port's link: a cut raises it, so that no completion of an earlier request answers one of the new link (R112). -/
  gen : Nat
  /-- First generation whose requests the directory may record for the port: a cut removes the port from it (R113). -/
  dirGen : Nat
  /-- When requests of the port were held during the last 8 µs, as [from, to) in ns, newest first (R107). -/
  heldLog : List (Nat × Nat)
  /-- HDM decoders whose last commit failed: Error Not Committed (R95). -/
  notCommitted : List Nat
  /-- The host has set Mem_Enable (R114 step 8). -/
  memEn : Bool
  /-- The IDE key set in use in both directions (R218). -/
  ideSet : Option Nat
  /-- The IDE stream runs in containment mode; otherwise in skid mode (R85). -/
  ideContain : Bool
  /-- The MSI-X table (R91) by 8-byte word: word 2v holds vector v's message address, word 2v + 1 its data and, in bit 32, its mask. -/
  msixTab : Tab Nat
  /-- The MSI-X pending-bit array (R91). -/
  msixPend : Nat
  /-- Dynamic Capacity that the host has released and whose earlier requests are still under way (R100): whether the release is forced, and its ranges, DPA and length. -/
  releasing : List (Bool × List (Nat × Nat))
  deriving DecidableEq, Repr

/-- A word of the MSI-X table that nothing has written: the mask of a vector is set. PRESUMED (log entry 174): PCI Express's reset value. -/
def msixReset (w : Nat) : Nat := w % 2 * 2 ^ 32

/-- A port at cold reset. -/
def Port.init : Port :=
  { dec := [], trk := [], replay := [], events := [], evOverflow := 0, evNext := 1, evPolicy := 0, mbox := none, mboxBg := none, mboxRun := none, mboxNo := 0, poisonCur := (0, 0, 0),
    detail := (0, 0), tsBase := 0, tsAt := 0, alerts := [], alerted := 0, extents := [], offered := [], poisonList := [], poisonOver := false,
    perst := 0, terms := false, ideInsecure := false, l1 := false, gen := 0, dirGen := 0, heldLog := [], notCommitted := [], memEn := false, ideSet := none,
    ideContain := false, full := 0, msixTab := [], msixPend := 0, releasing := [] }


/-- A stitch tag (R253): `st` 0 FREE, 1 RUNNING, 2 DONE. -/
structure TagSt where
  st : Nat
  status : Nat
  result : Nat
  deriving DecidableEq, Repr

/-- One line that a stitch writes: the bytes of `mask`; `upto` is the progress once it has been written (R270). -/
structure JobWrite where
  ga : Nat
  mask : Nat
  data : Line
  poison : Bool
  upto : Nat
  deriving DecidableEq, Repr

/-- A stitch in the data mover (R268 to R271). -/
structure Job where
  tag : Nat
  kind : Nat
  flags : Nat
  /-- g[rd], g[rs], g[rl], g[rl + 1]. -/
  d : Nat
  s : Nat
  l : Nat
  x : Nat
  /-- Stores with a smaller number were issued before it (R283). -/
  after : Nat
  /-- A later scratch access hit its range (R283). -/
  racy : Bool
  /-- Source lines read so far, newest first. -/
  lines : List (Line × Bool)
  /-- Its outcome and the lines still to be written, once its source has been read. -/
  prod : Option (Nat × Nat × List JobWrite)
  progress : Nat
  /-- An access is under way. -/
  asked : Bool
  deriving DecidableEq, Repr

/-- A line load under way: its number, its line register, and the instruction's index. -/
structure Load where
  no : Nat
  v : Nat
  pc : Nat
  deriving DecidableEq, Repr

/-- A Bobbin (R253). `run`: 0 no program, 1 a program runs, 2 it drains, 3 its image is being loaded, 4 stopped by a hardware fault. -/
structure Bob where
  run : Nat
  q : Nat
  n : Nat
  cap : List Nat
  g : Tab Word
  v : Tab Line
  /-- Poison flags of the line registers, one bit each. -/
  vp : Nat
  pc : Nat
  /-- Index of the last instruction issued. -/
  last : Nat
  text : Tab Nat
  words : Nat
  /-- Scratchpad by 8-byte word. -/
  scratch : Tab Word
  /-- Words of the scratchpad that are uncorrectable (R428). -/
  lost : Tab Bool
  tags : Tab TagSt
  posted : Bool
  /-- Line accesses issued since reset; each takes the count as its number. -/
  io : Nat
  loads : List Load
  stores : List Nat
  /-- First error status of a store, 0 for none (R267). -/
  held : Nat
  jobs : List Job
  /-- A PROMOTE, DEMOTE or discard under way, with the register of its outcome. -/
  opRd : Option Nat
  /-- The page whose busy bit the present instruction holds: a DESCWR or DESCCAS that discards it while its holders are being recalled (R215), or a PROMOTE or
DEMOTE that waits for its lanes, its journal or a channel (R129, R132 step 1). -/
  disc : Option Nat
  /-- The present instruction waits for a busy bit, and the wait has been counted (R454). -/
  waits : Bool
  /-- The image held: directory ID or IMAGE + 256, and GEN or BCRC (R314). -/
  img : Nat × Nat
  /-- Lines of the image read so far, newest first. -/
  load : List Line
  asked : Bool
  deriving DecidableEq, Repr

/-- A Bobbin at reset. -/
def Bob.init : Bob :=
  { run := 0, q := 0, n := 0, cap := [], g := [], v := [], vp := 0, pc := 0, last := 0, text := [], words := 0, scratch := [], lost := [],
    tags := [], posted := false, io := 0, loads := [], stores := [], held := 0, jobs := [], opRd := none, disc := none, waits := false, img := (0, 0),
    load := [], asked := false }

/-- A consumed command in the in-flight table (R304, R311). `stage`: 0 not launched, 1 on its Bobbin, 2 its program has ended.
`recd`: 0 no record sent, 1 the record is on its way to the ring, 2 written. -/
structure Cmd where
  n : Nat
  desc : Line
  stage : Nat
  bob : Nat
  /-- The claim on its slot: status and result. -/
  claim : Option (Nat × Nat)
  recd : Nat
  /-- The Bobbin whose fault it has met already (R317). -/
  failed : Option Nat
  /-- When it was consumed (R448). -/
  born : Nat
  deriving DecidableEq, Repr

/-- The engine's part of one Spool. -/
structure Spool where
  cmds : List Cmd
  /-- Records not yet reported by an interrupt (R322). -/
  unrep : Nat
  /-- Heads whose mailbox waits for the reset to end (R309). -/
  mbox : List Nat
  /-- The slot read is under way (R304). -/
  asked : Bool
  deriving DecidableEq, Repr

def Spool.init : Spool := { cmds := [], unrep := 0, mbox := [], asked := false }

/-- An entry of the program directory (R313). -/
structure ProgEntry where
  valid : Bool
  addr : Nat
  len : Nat
  needs : Nat
  name : Nat
  pver : Nat
  bcrc : Nat
  classes : Nat
  gen : Nat
  deriving DecidableEq, Repr

def ProgEntry.init : ProgEntry := { valid := false, addr := 0, len := 0, needs := 0, name := 0, pver := 0, bcrc := 0, classes := 0, gen := 0 }

/-- A Seam message (R349 to R352): the fields of its header unit, its address unit, its data (CtlCmp: its second unit). -/
structure Msg where
  opc : Nat
  dst : Nat
  src : Nat
  tid : Nat
  ocls : Nat
  reissue : Bool
  ttl : Nat
  status : Nat
  dl : Nat
  grant : Nat
  addr : Nat
  data : Nat
  deriving DecidableEq, Repr

/-- An entry of the replay buffer (R338): extended sequence number, the flit as sent, and the messages wholly or partly in it that are still held (R348). -/
structure TxFlit where
  seq : Nat
  flit : BitVec 2048
  msgs : List Msg
  deriving DecidableEq, Repr

/-- The link layer of one Seam port (R327 to R348), with the lane-map bytes of its skip blocks (R562). -/
structure SeamPort where
  /-- Messages routed to the port that wait for a flit, oldest first. -/
  txq : List Msg
  /-- The message being placed, and its units still to be placed. -/
  cur : Option Msg
  units : List Nat
  buf : List TxFlit
  /-- Sequence numbers still to be resent. -/
  resend : List Nat
  txNext : Nat
  ctl : Nat
  txSlot : Nat
  /-- Flits sent since the last skip block. -/
  sent : Nat
  rxNext : Nat
  rxAny : Bool
  nakDue : Bool
  /-- Time of the last NAK while the expected flit is still missing. -/
  nakAt : Option Nat
  repAt : Nat
  repCnt : Nat
  /-- Credits held toward the partner, and units owed to it, by VC. -/
  cred : Tab Nat
  owed : Tab Nat
  lastCtl : Nat
  /-- Highest RSYNC count accepted under each receive slot, plus one. -/
  slotCtl : Tab Nat
  /-- Units of the stream that do not yet make a message, and when the flit with the header among them arrived. -/
  stream : List Nat
  headAt : Nat
  /-- VC buffers: accepted messages with their times of arrival, oldest first. -/
  rxq : List (Msg × Nat)
  /-- What is left in the VC buffers came before the last full initialisation: its credits are not returned any more (R346). -/
  stale : Bool
  myGen : Nat
  peerGen : Nat
  /-- Link-layer state is kept (RESUME). -/
  up : Bool
  /-- In INIT: 0 no valid RSYNC yet, 1 one more RSYNC is to be sent. -/
  got : Nat
  crcRun : Nat
  fails : Nat
  /-- A flit that carried a NotchSync or a NotchReq was replayed (R376). -/
  replayedNotch : Bool
  mapA : Nat
  mapB : Nat
  gotA : Nat
  gotB : Nat
  deriving DecidableEq, Repr

def SeamPort.init : SeamPort :=
  { txq := [], cur := none, units := [], buf := [], resend := [], txNext := 0, ctl := 0, txSlot := 0, sent := 0, rxNext := 0, rxAny := false,
    nakDue := false, nakAt := none, repAt := 0, repCnt := 0, cred := [], owed := [], lastCtl := 0, slotCtl := [], stream := [], headAt := 0, rxq := [], stale := false,
    myGen := 0, peerGen := 0, up := false, got := 0, crcRun := 0, fails := 0, replayedNotch := false, mapA := 0x80, mapB := 0x40,
    gotA := 0x80, gotB := 0x40 }

/-- An outstanding transaction at its source (R358 to R363): what was sent, when it was first issued, its agent, and how often it was reissued. -/
structure Txn where
  msg : Msg
  born : Nat
  ask : TxnAsk
  again : Nat
  deriving DecidableEq, Repr

/-- A transaction accepted at its destination, until its completion (R365, R369): `dup` is the recorded GRANT of a duplicate that is answered again. -/
structure InTxn where
  msg : Msg
  dup : Option Nat
  deriving DecidableEq, Repr

/-- The follower's exchange under way (R376), in units of 1/65,536 ns. -/
structure Notch where
  ex : Nat
  t1 : Nat
  t2 : Nat
  t3 : Nat
  void : Bool
  /-- Exchange number of the next exchange that this device starts as a master. -/
  next : Nat
  /-- Exchanges missed or voided in a row, and the time of the last good one (R378). -/
  missed : Nat
  good : Nat
  deriving DecidableEq, Repr

/-- The Seam Fabric (chapter 10). Port 16 is the device itself: a message whose DST is its own node. -/
structure SeamState where
  ports : Tab SeamPort
  /-- Messages that wait for a live port (R355). -/
  outq : List Msg
  /-- The TID counter (R358). -/
  tid : Nat
  txs : List Txn
  /-- Transactions ended under R363 whose Skip is still to be sent. -/
  skips : List Msg
  /-- Next FSEQ of flows to nodes above MAXNODE, which have no flow record. -/
  fseq : Tab Nat
  /-- The resequencer (R365): arriving port and message. -/
  reseq : List (Nat × Msg)
  acc : List InTxn
  /-- Duplicates of PENDING entries (R369). -/
  dups : List (Nat × Msg)
  /-- Snoops accepted as a proxy that are not yet answered (R227). -/
  snoops : List InTxn
  /-- Filter lines found unreadable, by source and line (R370). -/
  bad : List (Nat × Nat)
  /-- The FAB_DFCLEAR under way: source node, and the next line to be rewritten (R370). -/
  clear : Option (Nat × Nat)
  /-- Fraction of fabric time in 1/65,536 ns, the correction still to be slewed in, and the slew allowance (R376). -/
  frac : Nat
  corr : Int
  slew : Nat
  notch : Notch
  deriving DecidableEq, Repr


/-- A region test under way (R431). `kind`: 0 background, 1 requested by SRM_TESTCTL, 2 after an error (R433), 3 re-admission (R435). -/
structure SramTest where
  bank : Nat
  region : Nat
  kind : Nat
  deriving DecidableEq, Repr

/-- The SRAM banks (chapter 12). -/
structure SramState where
  /-- Running tests, at most one in a bank. -/
  tests : List SramTest
  /-- Regions to be tested next in their banks (R433). -/
  due : List (Nat × Nat)
  /-- The test that SRM_TESTCTL has requested: bank, region to be tested next, and whether every region follows (R436). -/
  req : Option (Nat × Nat × Bool)
  /-- Redundant columns in use by bank, of four: fused or latched (R434). -/
  cols : Tab Nat
  /-- Columns of a bank that have been found to fail; boot self-test finds them again after a cold reset (R434). -/
  flaws : Tab Nat
  /-- Next region of the background test by quad, bank in quad × 64 + region, and sweeps of the quad (R432). -/
  bg : Tab Nat
  sweeps : Tab Nat
  /-- Re-admission stage by bank: 0 in service, 1 FENCED, 2 TESTING, 3 REJOINING (R435). -/
  stage : Tab Nat
  /-- Uncorrectable words of banks 480 to 511 that the other copy could not give (R424, R428): bank and word. -/
  bad : List (Nat × Nat)
  deriving DecidableEq, Repr

/-- A targeted self-test under way (R469): source, element and the index of its record. -/
structure FltTest where
  src : Nat
  elem : Nat
  code : Nat
  idx : Nat
  /-- BOB_CFG.DRAIN as software wants it, while an engine self-test drains the Bobbin (R316). -/
  drain : Bool
  deriving DecidableEq, Repr

/-- A transfer between two agents, from when it leaves until it is delivered (R32, R39): its plane, the token that its source keeps, and whether the
destination has accepted and acknowledged it. -/
structure Transit where
  plane : Nat
  tok : Token
  got : Bool
  deriving DecidableEq, Repr

/-- The Interlining (chapter 01). Latches are numbered ((plane × 64 + row × 8 + column) × 8 + input) × 3 + class; inputs 0 to 3 are the channels from
the north, south, east and west neighbours, 4 to 7 the agent ports. -/
structure IlnState where
  latch : Tab (Option Token)
  /-- Transfers under way, in the order in which they left (R32). -/
  held : List Transit
  /-- Tokens that their sources must send again: the plane that failed them, the plane to use, the token (R39, R40). -/
  resend : List (Nat × Nat × Token)
  /-- End-to-end numbers acknowledged, by source and destination (R40). -/
  acked : List (Nat × Nat × Nat)
  /-- A single speed measurement runs (R36). -/
  spd : Bool
  /-- Trips of the stall watchdogs by plane × 64 + node (GLB_ILNWDOG). -/
  trips : Tab Nat
  deriving DecidableEq, Repr

/-- A waiting request of a lane (R561, R568): `kind` 0 recalibration, 1 check; `fw`: CAL_REQ waits for it. -/
structure LaneReq where
  lane : Nat
  kind : Nat
  fw : Bool
  deriving DecidableEq, Repr

/-- The pattern generator and checker of a lane (R571): their shift registers, newest bit lowest. -/
structure PrbsLane where
  gen : Nat
  chk : Nat
  /-- Bits that the checker has taken as its seed, and correct bits in a row since. -/
  seeded : Nat
  run : Nat
  /-- Bits checked that CAL_PRBS.BITS does not show yet. -/
  bits : Nat
  deriving DecidableEq, Repr

/-- Lane calibration of one port (R558 to R569). -/
structure CalPort where
  /-- Requests in arrival order; the first one runs. -/
  queue : List LaneReq
  /-- Last step of R564 that the first one has completed; 7 goes to the hand-back at once. -/
  step : Nat
  /-- Outcome of the first one so far. -/
  status : Nat
  /-- Fenced lane that the spare carries permanently. -/
  fixed : Option Nat
  /-- Trims of the first one's lane before its correction. -/
  old : Nat
  /-- Proposed trims: CTLE, four DFE taps, phase; and the predicted eye. -/
  prop : List Int
  eye : Nat
  /-- Corrections still to be applied by lane, one number per converter (R559). -/
  pend : Tab (List Int)
  /-- Phase correction by lane since its last training or recalibration (R558). -/
  phase : Tab Int
  /-- Pattern hardware that has run, by lane (R571). -/
  prbs : Tab PrbsLane
  deriving DecidableEq, Repr

def CalPort.init : CalPort := { queue := [], step := 0, status := 0, fixed := none, old := 0, prop := [], eye := 0, pend := [], phase := [], prbs := [] }

/-- The test access port (R573, R574). -/
structure TapState where
  ir : Nat
  /-- Boundary cells, as preloaded. -/
  cells : Nat
  /-- An instruction has driven pins: the device serves nothing until its next cold reset. -/
  driven : Bool
  /-- The production fuse lock is burnt (R574). -/
  fuseLock : Bool
  /-- DMI access register of the debug transport. -/
  dmi : Nat
  deriving DecidableEq, Repr

/-- The management complex (chapter 15), as far as it is not registers. The cores' own execution is outside the model: what they do reaches the
device as commands. -/
structure Mgmt where
  /-- Thimble runs. -/
  run : Bool
  /-- Last step of the boot that is complete (R508). -/
  step : Nat
  /-- A failure has stopped the boot. -/
  stopped : Bool
  /-- The boot under way is that of a warm reset (R512). -/
  warm : Bool
  /-- What the flash held at the last step 3: copy A and copy B (R501). -/
  flash : List Nat × List Nat
  /-- The accepted Pattern. -/
  pat : List Nat
  /-- The endpoint that the accepted Pattern names as fabric manager (R99). -/
  fmEid : Nat
  /-- The DeviceID and alias key pairs, and the alias certificate, since the boot derived them (R506). -/
  deviceKey : Option Nat
  aliasKey : Option Nat
  aliasCert : List Nat
  /-- Live SPDM sessions (R507). -/
  sessions : List Nat
  /-- Fused minimum SVN (R486, R504). -/
  minSvn : Nat
  svcmask : Nat
  dbgmask : Nat
  fwdMin : Nat
  /-- Records passed to the normal world (R486). -/
  passed : List Nat
  /-- Harts with a halt request that waits for the trusted world to be left, and harts halted by debug (R499): the core, plus 4 when it was halted in the trusted
  world. -/
  haltReq : List Nat
  halted : List Nat
  /-- Cores that run the hypervisor. -/
  hyp : List Nat
  /-- Digest staged for MGT_MREXT by word. -/
  stage : Tab Nat
  /-- The watchdog has reached its first stage and has not been kicked since (R513). -/
  wdog : Bool
  /-- A descriptor initialisation is complete since cold reset (R508 step 8). -/
  dinit : Bool
  deriving DecidableEq, Repr

/-- A Hem controller on the Selvedge die (chapter 17). Its registers mirror it while the die-to-die link carries traffic (R546). -/
structure Hem where
  /-- 0 off, 1 ramping, 2 on, 3 limiting in a ramp, 4 limiting while on. -/
  gate : Nat
  /-- 0 normal, 1 FENCED, 2 TESTING, 3 REJOINING (R553). -/
  adm : Nat
  /-- The retry timer runs (R544). -/
  retry : Bool
  /-- HEM_PRSNT_Nn is low. -/
  present : Bool
  /-- VIN is at least 10.8 V. -/
  vinok : Bool
  latch : Bool
  lastflt : Nat
  faults : Nat
  vin : Nat
  ma : Nat
  pdw : Nat
  vmin : Nat
  imax : Nat
  /-- Energy in 10 nJ: mV × mA × 10 µs (R555). -/
  energy : Nat
  deriving DecidableEq, Repr

def Hem.init : Hem :=
  { gate := 0, adm := 0, retry := false, present := false, vinok := false, latch := false, lastflt := 0, faults := 0, vin := 0, ma := 0, pdw := 0,
    vmin := 0xFFFF, imax := 0, energy := 0 }

/-- Supplies and power states (chapters 16 and 19), as far as they are not registers. -/
structure Pwr where
  pwrok : Bool
  /-- Held as in cold reset: 0 no, 1 PWROK is low, 2 after a brown-out, 3 after a thermal trip (R590, R596). -/
  held : Nat
  /-- WAKE_N is driven low (R527). -/
  wakeDriven : Bool
  /-- An entry under way was asked for by the normal world (R522). -/
  normal : Bool
  /-- Target state of the entry under way. -/
  target : Nat
  /-- Next step of the resume sequence, 0: none runs (R529). -/
  resume : Nat
  /-- The die-to-die link is lost (R25), and reports that wait for it. -/
  d2dLost : Bool
  lateReports : List Report
  deriving DecidableEq, Repr

/-- What the registers that the spec lists by purpose only would show (log entry 106), by kind × 2^20 + element. -/
structure Diag where
  /-- Counts and values; the kinds are listed at `diagAdd`. -/
  cnt : Tab Nat
  /-- Logs, newest entry first: two numbers an entry. -/
  log : Tab (List (Nat × Nat))
  deriving DecidableEq, Repr

/-- The state of the device. -/
structure State where
  /-- The queue of waiting commands, first in, first out. -/
  pending : List Instr
  /-- Control-space registers and the thermal page, by offset (R58); default `regReset`. -/
  regs : Tab Word
  /-- Fabric time in ns (R376). -/
  time : Nat
  /-- MODEL'S OWN: a counter that each free value reads and advances. -/
  ctr : Nat
  /-- MODEL'S OWN: the clock of least-recently-used replacement (R72, R446, R237). -/
  stamp : Nat
  /-- MODEL'S OWN: what the device has put out, newest first. -/
  out : List Out
  /-- Reports on their way to the fault collector (R459). -/
  reports : List Report
  /-- Last nanosecond counted by a level-mode counter (R450), plus one. -/
  levelNs : Tab Nat
  /-- DRAM content. -/
  dram : DramState
  /-- The 24 channels; default `Chan.init`. -/
  chans : Tab Chan
  /-- Descriptor cache, line cache, journals, page operations, Pleat lanes. -/
  tier : TierState
  /-- The key-region store. -/
  keys : KeyState
  /-- Requests, recalls, directory, bindings. -/
  home : HomeState
  /-- The 16 ports in host mode; default `Port.init`. -/
  ports : Tab Port
  /-- Power state (R516): 0 to 4 for P0 to P4. -/
  pst : Nat
  /-- The 64 Bobbins; default `Bob.init`. -/
  bobs : Tab Bob
  /-- The 1,024 Spools; default `Spool.init`. -/
  spools : Tab Spool
  /-- Spool of each class served last (R315). -/
  lastSpool : Tab Nat
  /-- The program directory (R313); default `ProgEntry.init`. -/
  progs : Tab ProgEntry
  /-- Spool notices that wait to be sent: node and Spool (R322, R374). -/
  notices : List (Nat × Nat)
  /-- The Seam Fabric. -/
  seam : SeamState
  /-- The SRAM banks (chapter 12). -/
  sram : SramState
  /-- Targeted self-tests that the collector waits for (R469). -/
  fltTests : List FltTest
  /-- Indices of the fault log, oldest record first (R459). -/
  fltAge : List Nat
  /-- Start of a source's counting window in ms (R463). -/
  fltStart : Tab Nat
  /-- The Interlining. -/
  iln : IlnState
  /-- Lane calibration by port; default `CalPort.init`. -/
  cal : Tab CalPort
  /-- The test access port. -/
  tap : TapState
  /-- The management complex. -/
  mgmt : Mgmt
  /-- The 24 Hem controllers; default `Hem.init`. -/
  hems : Tab Hem
  /-- Supplies and power states. -/
  pwr : Pwr
  /-- Diagnostic counts and logs. -/
  diag : Diag
  deriving DecidableEq, Repr

/-- The machine after cold reset (R510, R511): registers at the Reset column of their tables, everything else empty. -/
def State.reset : State :=
  { pending := [],
    regs := [],
    time := 0,
    ctr := 3,
    stamp := 0,
    out := [],
    reports := [],
    levelNs := [],
    dram := ⟨[], [], [], [], []⟩,
    chans := [],
    tier := ⟨[], [], [], [], [], [], [], [], false, false, [], 0⟩,
    keys := ⟨[], [], Config.randomBits 256 0, Config.randomBits 256 1, Config.randomBits 256 2, [], [], false⟩,
    home := ⟨[], [], [], [], [], [], [], [], [], false, [], [], [], [], [], []⟩,
    ports := [],
    pst := 0,
    bobs := [],
    spools := [],
    lastSpool := [],
    progs := [],
    notices := [],
    seam := ⟨[], [], 0, [], [], [], [], [], [], [], [], none, 0, 0, 0, ⟨0, 0, 0, 0, false, 0, 0, 0⟩⟩,
    sram := ⟨[], [], none, [], [], [], [], [], []⟩,
    fltTests := [],
    fltAge := [],
    fltStart := [],
    iln := ⟨[], [], [], [], false, []⟩,
    cal := [],
    tap := ⟨1, 0, false, true, 0⟩,
    mgmt := ⟨false, 0, false, false, ([], []), [], 0, none, none, [], [], 0, 0, 0, 0, [], [], [], [], [], false, false⟩,
    hems := [],
    pwr := ⟨true, 0, false, false, 0, 0, false, []⟩,
    diag := ⟨[], []⟩ }

/-- Why the machine stops with a fault. -/
inductive Fault where
  /-- VDD_CORE_CHANGE outside the absolute maximum ratings of R580: the spec gives the device no behaviour there. Safe. -/
  | outsideRatings
  deriving DecidableEq, Repr

/-- Why a command is refused. -/
inductive Refusal where
  /-- Raised by an arm of `exec` whose command has no meaning yet. Safe. -/
  | notModelled (mnemonic : String)
  deriving DecidableEq, Repr

/-- The outcome of a command. -/
abbrev Res := Host.Outcome State Fault Refusal

end Sys2Proof.Machine
end

