-- ==== Sys2Proof/Machine/Ops.lean ====
section
/-! DEFINITION. The shared operations: bit fields, registers, reports, event counters, interrupts, and the one control-space write that
every register command goes through (R1 to R4, R59, R484, R490, R492, R496, R497). -/

namespace Sys2Proof.Machine

/-! Bit fields of numbers. -/

/-- Bits `lo` to `lo + w - 1` of `x`. -/
def getBits (x lo w : Nat) : Nat := x / 2 ^ lo % 2 ^ w

/-- `x` with bits `lo` to `lo + w - 1` replaced by `v`. -/
def putBits (x lo w v : Nat) : Nat := x % 2 ^ lo + v % 2 ^ w * 2 ^ lo + x / 2 ^ (lo + w) * 2 ^ (lo + w)

def fld (x : Nat) (f : Fld) : Nat := getBits x f.lo f.w
def putf (x : Nat) (f : Fld) (v : Nat) : Nat := putBits x f.lo f.w v

/-- Bit `i` of `x` as a Bool. -/
def bit (x i : Nat) : Bool := x / 2 ^ i % 2 == 1

/-- `x` with bit `i` set, or cleared. -/
def withBit (x i : Nat) (b : Bool) : Nat := putBits x i 1 (if b then 1 else 0)

/-- Add with saturation at the largest value of `w` bits. -/
def satAdd (w a b : Nat) : Nat := min (a + b) (2 ^ w - 1)

/-! Registers. -/

/-- Fault source IDs (R11). -/
def srcId (type inst : Nat) : Nat := type * 128 + inst

/-- The source IDs that R11 defines. -/
def srcDefined (i : Nat) : Bool :=
  let t := i / 128
  let n := i % 128
  match t with
  | 1 => n < 16
  | 2 => n < 24
  | 3 => n < 24
  | 4 => n < 64 || n == 127
  | 5 => n < 24 || n == 127
  | 6 => n < 32
  | 7 => n < 2
  | 8 => n < 128
  | 9 => n == 0
  | 10 => n < 24 || n == 127
  | 11 => n < 4 || n == 127
  | 12 => n == 0
  | 13 => n == 0
  | 14 => n < 4
  | 31 => n == 0
  | _ => false

/-- Reset values of N and W_MS by source type (R465). -/
def srcCfgReset (t : Nat) : Nat :=
  let nw : Nat × Nat := match t with
    | 1 => (4, 1000)
    | 2 => (1024, 86400000)
    | 3 => (4, 3600000)
    | 4 => (3, 86400000)
    | 5 => (4, 3600000)
    | 6 => (8, 3600000)
    | 7 => (8, 3600000)
    | 8 => (8, 3600000)
    | 9 => (16, 1000)
    | 10 => (2, 60000)
    | 11 => (2, 3600000)
    | 12 => (4, 3600000)
    | 13 => (8, 3600000)
    | 14 => (4, 1000)
    | 31 => (1, 1000)
    | _ => (0, 0)
  nw.1 + nw.2 * 2 ^ 16

/-- Reset fields that depend on the index (R52, R455, R465); the fused SCALE of a speed monitor is a constant of Config. -/
def regExtra (id : R) (idx : List Nat) : Nat :=
  let i := idx.headD 0
  if id = .GLB_SPDMON then Config.fusedScale i % 2 ^ 16 * 2 ^ 32 + i / 4 * 2 ^ 48
  else if id = .QOS_MDRAM ∨ id = .QOS_MOCC then (if i < 16 then 16 else if i < 24 then 4 else 1) * 2 ^ 16
  else if id = .FLT_SRCCFG then srcCfgReset (i / 128)
  else 0

/-- The value of a register after cold reset: the Reset column of its table. -/
def regReset (off : Nat) : Word :=
  match regFind off with
  | some h => BitVec.ofNat 64 (h.desc.reset + regExtra h.desc.id h.idx)
  | none => 0

/-- The stored value of the register at `off`. -/
def State.rg (s : State) (off : Nat) : Word := tabGet regReset s.regs off

/-- Store a register. -/
def State.setRg (s : State) (off : Nat) (v : Word) : State := { s with regs := tabSet regReset s.regs off v }

/-- One field of a register. -/
def State.fget (s : State) (off : Nat) (f : Fld) : Nat := fld (s.rg off).toNat f

/-- Replace one field of a register. -/
def State.fset (s : State) (off : Nat) (f : Fld) (v : Nat) : State :=
  s.setRg off (BitVec.ofNat 64 (putf (s.rg off).toNat f v))

/-- Add to a saturating field. -/
def State.fsat (s : State) (off : Nat) (f : Fld) (n : Nat) : State := s.fset off f (satAdd f.w (s.fget off f) n)

/-- Set, or clear, bit `i` of a field. -/
def State.fbit (s : State) (off : Nat) (f : Fld) (i : Nat) (b : Bool) : State := s.fset off f (withBit (s.fget off f) i b)

/-- A field's bit `i`. -/
def State.ftest (s : State) (off : Nat) (f : Fld) (i : Nat) : Bool := bit (s.fget off f) i

/-! Records of the model and the collector's inbox. -/

/-- Something left the device. -/
def State.put (s : State) (o : Out) : State := { s with out := o :: s.out }

/-- A report sets off to the collector (R458). -/
def State.report (s : State) (src elem code addr detail : Nat) : State :=
  { s with reports := s.reports ++ [{ src := src, elem := elem, code := code, addr := addr, detail := detail, level := none }] }

/-- A report whose chapter gives its level. -/
def State.reportAt (s : State) (lvl src elem code addr detail : Nat) : State :=
  { s with reports := s.reports ++ [{ src := src, elem := elem, code := code, addr := addr, detail := detail, level := some lvl }] }

/-! Diagnostic counts and logs: what the registers listed by purpose only would show (log entry 106), by kind. -/

/-- GLB_CDCSTAT: crossings of a clock-domain boundary, 0 to 15 the ports, 16 to 39 the channels. -/
def dgCDC : Nat := 0
/-- PRT_FLITERR: FEC corrections, CRC failures, replays of a port. -/
def dgFEC : Nat := 1
def dgCRC : Nat := 2
def dgREPLAY : Nat := 3
/-- PRT_IDECNT: IDE integrity failures and key refreshes of a port. -/
def dgIDEFAIL : Nat := 4
def dgIDEKEY : Nat := 5
/-- PLT_VERIFY: verification decodes run by a Pleat unit, and mismatches found (R183). -/
def dgVERIFY : Nat := 6
def dgVERBAD : Nat := 7
/-- KEY_CUSTAT: lines whose two paths a cipher unit has compared, and mismatches (R217). -/
def dgCUCMP : Nat := 8
def dgCUBAD : Nat := 9
/-- PLT_KAT and KEY_KAT: known-answer tests of a unit that have run; bit 16 is the last result, 1 for a failure. -/
def dgPLTKAT : Nat := 10
def dgKEYKAT : Nat := 11
/-- DIR_SETOCC: highest ways in use of a directory set, by slice × 4,096 + set. -/
def dgSETOCC : Nat := 12
/-- PRT_SEAMFEC: corrected bytes by port × 64 + lane, and by port × 64 + 32 + codeword. -/
def dgSEAMFEC : Nat := 13
/-- FAB_DFSTAT: filter hits, duplicates, stale discards, annex writes. -/
def dgDFSTAT : Nat := 14
/-- SRM_BANKCNT: corrected and uncorrectable words of a bank. -/
def dgBANKCE : Nat := 15
def dgBANKUE : Nat := 16
/-- MGT_COREERR: errors of a core's cache and register file, by core × 2, plus 1 for an uncorrectable one. -/
def dgCOREERR : Nat := 17
/-- HEM_GATEMV: gate voltage relative to VIN of a Hem controller. -/
def dgGATEMV : Nat := 18
/-- PRT_EQSTAT: presets and equalisation of a port's lanes, a value that the manual leaves open. -/
def dgEQ : Nat := 19
/-- DCH_TRAINLOG: result of a channel's training step, by channel × 16 + step. DCH_EYE: delays, voltages and taps of a channel, a value that the manual
leaves open. DCH_SPDRAW: raw SPD of a slot, by channel × 2 + slot. -/
def dgTRAIN : Nat := 20
def dgEYE : Nat := 21
def dgSPD : Nat := 22
/-- Logs: PRT_LTSSMLOG by port (state, time), PRT_NOTCHLOG by port, HEM_RAMPLOG by controller (mV, mA), MGT_JOURNAL (service, argument). -/
def dlLTSSM : Nat := 0
def dlNOTCH : Nat := 1
def dlRAMP : Nat := 2
def dlJOURNAL : Nat := 3

def dgKey (kind i : Nat) : Nat := kind * 2 ^ 20 + i

/-- Count `i` of a kind as it stands. -/
def State.diagGet (s : State) (kind i : Nat) : Nat := tabGet (fun _ => 0) s.diag.cnt (dgKey kind i)

/-- Set, or add to, a diagnostic count. -/
def State.diagSet (s : State) (kind i v : Nat) : State := { s with diag := { s.diag with cnt := tabSet (fun _ => 0) s.diag.cnt (dgKey kind i) v } }
def State.diagAdd (s : State) (kind i n : Nat) : State := s.diagSet kind i (s.diagGet kind i + n)

/-- Put an entry into a diagnostic log of at most `cap` entries. -/
def State.diagLog (s : State) (kind i cap : Nat) (x : Nat × Nat) : State :=
  let k := dgKey kind i
  { s with diag := { s.diag with log := tabSet (fun _ => []) s.diag.log k ((x :: tabGet (fun _ => []) s.diag.log k).take cap) } }

/-! Event counters (R449, R450). -/

/-- Counter `e` adds 1. -/
def State.bump (s : State) (e : Nat) : State :=
  let off := PMC_CNT e
  let c := s.fget off F.PMC_CNT_COUNT
  if c + 1 < 0x1000000000000 then s.fset off F.PMC_CNT_COUNT (c + 1)
  else (((s.fset off F.PMC_CNT_COUNT 0).fset off F.PMC_CNT_WRAP 1).fset PMC_STAT F.PMC_STAT_WRAPANY 1)

/-- Event `e` occurs: in edge mode the counter adds 1, in level mode at most once in a nanosecond. The Bobbins' slot counters ignore the mode. -/
def State.ev (s : State) (e : Nat) : State :=
  if e < 1536 then
    if s.ftest (PMC_MODE (e / 64)) F.PMC_MODE_LEVEL (e % 64) ∧ e / 256 ≠ 4 then
      if tabGet (fun _ => 0) s.levelNs e = s.time + 1 then s
      else { s with levelNs := tabSet (fun _ => 0) s.levelNs e (s.time + 1) }.bump e
    else s.bump e
  else s

/-- Event `e` occurs `n` times. -/
def State.evN (s : State) (e n : Nat) : State := (List.range n).foldl (fun t _ => t.ev e) s

/-! Interrupts (R492). -/

/-- State of core `c` (MGT_CORESTAT): 0 is in service. -/
def State.coreState (s : State) (c : Nat) : Nat := getBits (s.rg MGT_CORESTAT).toNat (4 * c) 4

def State.setCoreState (s : State) (c v : Nat) : State :=
  s.setRg MGT_CORESTAT (BitVec.ofNat 64 (putBits (s.rg MGT_CORESTAT).toNat (4 * c) 4 v))

/-- Lowest-numbered core in service from `c` on. -/
def lowestCore (s : State) : Nat → Nat → Option Nat
  | 0, _ => none
  | n + 1, c => if s.coreState c = 0 then some c else lowestCore s n (c + 1)

/-- An interrupt or a debug halt request restarts the core clock in P1 (R518). -/
def coreWoken (s : State) : State := if s.pst = 1 then { s.fset PWR_STAT F.PWR_STAT_PREV 1 with pst := 0 } else s

/-- Source `n` of the interrupt router. -/
def State.irq (s : State) (n : Nat) : State :=
  let e := MGT_IRQRT n
  let kind := if n = 0 ∨ n = 11 then 1 else s.fget e F.MGT_IRQRT_KIND
  let core := s.fget e F.MGT_IRQRT_CORE
  if kind = 0 then s
  else if s.coreState core = 0 then (coreWoken s).put (.irq core kind (if kind = 3 then s.fget e F.MGT_IRQRT_PART else 0))
  else match lowestCore s 4 0 with
    | some c => (coreWoken s).put (.irq c kind (if kind = 3 then s.fget e F.MGT_IRQRT_PART else 0))
    | none => s

/-- The router's source of the owner of a block (R205, R143). -/
def irqTIR : Nat := 1
def irqKEY : Nat := 2
def irqDIR : Nat := 3
def irqFAB : Nat := 4
def irqQOS : Nat := 5
def irqPWR : Nat := 6
def irqCAL : Nat := 7

/-- A value that the manual leaves open: `n` bits. -/
def State.free (s : State) (n : Nat) : Nat × State := (Config.freeBits n s.ctr % 2 ^ n, { s with ctr := s.ctr + 1 })

/-! Re-admission (R475). -/

/-- A re-admission that ran for this source and element ends (R475). -/
def readmEnd (s : State) (src elem st : Nat) : State :=
  let r := FLT_READMIT
  if s.fget r F.FLT_READMIT_BUSY = 1 ∧ s.fget r F.FLT_READMIT_SOURCE = src ∧ s.fget r F.FLT_READMIT_ELEMENT = elem then
    ((s.fset r F.FLT_READMIT_BUSY 0).fset r F.FLT_READMIT_STAGE 0).fset r F.FLT_READMIT_STATUS st
  else s

/-- The re-admission of this source and element enters a stage: 1 TESTING, 2 REJOINING. -/
def readmStage (s : State) (src elem st : Nat) : State :=
  let r := FLT_READMIT
  if s.fget r F.FLT_READMIT_BUSY = 1 ∧ s.fget r F.FLT_READMIT_SOURCE = src ∧ s.fget r F.FLT_READMIT_ELEMENT = elem then s.fset r F.FLT_READMIT_STAGE st else s

/-- State of a source (FLT_SRCSTAT): 0 in service, 1 FENCED, 2 TESTING, 3 REJOINING. Its count is cleared when it is fenced and when it returns (R463). -/
def setSrcState (s : State) (src st : Nat) : State :=
  let r := FLT_SRCSTAT src
  if s.fget r F.FLT_SRCSTAT_STATE = st then s
  else
    let s1 := s.fset r F.FLT_SRCSTAT_STATE st
    if st ≤ 1 then s1.fset r F.FLT_SRCSTAT_COUNT 0 else s1

/-! Axtil (R577). -/

/-- A packet for Axtil: it leaves when the port runs and its KIND is enabled. -/
def State.axt (s : State) (kind inst payload : Nat) : State :=
  if s.fget CAL_AXTCFG F.CAL_AXTCFG_EN = 1 ∧ s.ftest CAL_AXTCFG F.CAL_AXTCFG_KINDS (kind - 1) then s.put (.axt kind (inst % 32) (s.time % 65536) (payload % 2 ^ 104)) else s

/-! When the core takes work. -/

/-- The device level (R462): 4 is Halt. -/
def State.devLevel (s : State) : Nat := s.fget FLT_STAT F.FLT_STAT_DEVLEVEL

/-- Requests cross into the core: not in Halt (R472), not in P2 to P4, not once a test instruction has driven pins (R574). -/
def coreOpen (s : State) : Bool := decide (s.devLevel < 4) && decide (s.pst < 2) && !s.tap.driven && s.pwr.held == 0

/-- Control-space accesses are served: not in P2 to P4, where their clocks stand (R517), not while the device is held (R590, R596), not once a test
instruction has driven pins (R574). -/
def ctlOpen (s : State) : Bool := decide (s.pst < 2) && !s.tap.driven && s.pwr.held == 0

/-- The self-timed core and its monitors run: not in P3 and P4, which stop everything but what R517 keeps (R26), not while the device is held (R590, R596),
not once a test instruction has driven pins (R574). -/
def coreAlive (s : State) : Bool := decide (s.pst < 3) && !s.tap.driven && s.pwr.held == 0

/-- Assignment unit `u` is gated (R530). -/
def gated (s : State) (u : Nat) : Bool := s.fget (PWR_UNITCTL u) F.PWR_UNITCTL_GATED != 0

/-- A wake event or new work reaches the power controller while an entry is under way (R525): the entry is aborted and the device is in P0. -/
def pwrAbort (s : State) : State :=
  if s.fget PWR_CTL F.PWR_CTL_BUSY = 0 then s
  else
    let t := s.pwr.target
    let s1 := (s.fset PWR_CTL F.PWR_CTL_BUSY 0).fset PWR_CTL F.PWR_CTL_STATUS C.PWR_E_ABORTED
    { (s1.fsat (PWR_ACCT (t - 1)) F.PWR_ACCT_ABORTED 1).ev 0x5C8 with pst := 0, pwr := { s1.pwr with normal := false } }

/-- This device's node ID (R354). -/
def ownNode (s : State) : Nat := s.fget FAB_NODEID F.FAB_NODEID_NODE

/-! Control-space accesses. -/

/-- The assignment lock is set (R493). -/
def State.locked (s : State) : Bool := s.fget MGT_LOCK F.MGT_LOCK_LOCKED == 1

/-- The access is made in the trusted world (R484). -/
def whoTrusted : Who → Bool
  | .trusted _ => true
  | _ => false

/-- The assignment unit of a control-space offset (R489). -/
def unitOf (off : Nat) : Nat :=
  if off < 0x100000 then 0
  else if off < 0x200000 then 1 + (off - 0x100000) / 0x10000
  else if off < 0x400000 then 17 + (off - 0x200000) / 0x10000
  else if off < 0x410000 then 41
  else if off < 0x420000 then 42
  else if off < 0x440000 then 43 + (off - 0x420000) / 0x1000
  else if off < 0x500000 then 67
  else if off < 0x600000 then 68 + (off - 0x500000) / 0x1000
  else if off < 0x700000 then 132
  else if off < 0x800000 then 133
  else if off < 0x900000 then 134
  else if off < 0xA00000 then 135
  else if off < 0xB00000 then 136
  else if off < 0xC00000 then 137
  else if off < 0xC10000 then 138
  else if off < 0xD00000 then 139 + (off - 0xC10000) / 0x100
  else if off < 0xE00000 then 163
  else 164

/-- Owner kind and ID of the unit that holds `off`; the submitter part of a Spool's page is owned as SPL_CLASSINFO says (R489, R297). -/
def ownerOf (s : State) (off : Nat) : Nat × Nat :=
  if 0x600000 ≤ off ∧ off < 0x640000 ∧ off % 0x100 < 0x40 then
    let q := (off - 0x600000) / 0x100
    (s.fget (SPL_CLASSINFO q) F.SPL_CLASSINFO_OWNERKIND, s.fget (SPL_CLASSINFO q) F.SPL_CLASSINFO_OWNER)
  else
    let u := unitOf off
    if 165 ≤ u then (3, 0) else (s.fget (MGT_ASSIGN u) F.MGT_ASSIGN_KIND, s.fget (MGT_ASSIGN u) F.MGT_ASSIGN_ID)

/-- Steps 3 and 4 of R490. -/
def owns (s : State) (w : Who) (off : Nat) : Bool :=
  let o := ownerOf s off
  match w with
  | .trusted _ => true
  | .part _ n => o.1 == 2 && o.2 == n
  | .badVmid _ => false
  | .head p => o.1 == 0 && o.2 == p
  | .node n => o.1 == 1 && o.2 == n
  | .bar0 _ => false
  | .load p => o.1 == 0 && o.2 == p

/-- The field can be written now (R2, R3). -/
def fieldWritable (locked : Bool) (f : FieldDesc) : Bool :=
  match f.acc with
  | .ro => false
  | .rwl => !locked
  | _ => true

/-- The field's attribute admits the writer's world (R3, R484). -/
def fieldAdmits (trusted : Bool) (f : FieldDesc) : Bool := trusted || f.world != .t

/-- One admitted field of a write: the stored value. -/
def applyField (val new : Nat) (f : FieldDesc) : Nat :=
  let v := getBits val f.lo f.w
  let o := getBits new f.lo f.w
  match f.acc with
  | .ro => new
  | .wo => new
  | .rw => putBits new f.lo f.w v
  | .rwl => putBits new f.lo f.w v
  | .w1c => putBits new f.lo f.w (o - (o &&& v))
  | .w1s => putBits new f.lo f.w (o ||| v)

/-- A write field by field (R3): the stored value after it, the bits of the admitted fields as written, and whether a field not admitted would have changed. -/
def applyFields (locked trusted : Bool) (old val : Nat) : List FieldDesc → Nat × Nat × Bool
  | [] => (old, 0, false)
  | f :: r =>
    let x := applyFields locked trusted old val r
    if fieldWritable locked f then
      if fieldAdmits trusted f then (applyField val x.1 f, putBits x.2.1 f.lo f.w (getBits val f.lo f.w), x.2.2)
      else
        let changes := match f.acc with
          | .rw => getBits val f.lo f.w != getBits old f.lo f.w
          | .rwl => getBits val f.lo f.w != getBits old f.lo f.w
          | _ => getBits val f.lo f.w != 0
        (x.1, x.2.1, x.2.2 || changes)
    else x

/-- What a control-space write that passes its checks does: new stored value, admitted bits, and CTL_E_WORLD or not. -/
structure CtlWrite where
  hit : RegHit
  old : Nat
  new : Nat
  act : Nat
  worldErr : Bool
  deriving DecidableEq, Repr

/-- The register exists at this index (R11 for the collector's source registers). -/
def regExists (h : RegHit) : Bool :=
  if h.desc.id = .FLT_SRCCFG ∨ h.desc.id = .FLT_SRCSTAT then srcDefined (h.idx.headD 0) else true

/-- The checks of a control-space write: width (R59), register, ownership (R490), preemption (R496), world (R3). -/
def ctlCheck (w : Who) (off width : Nat) (val : Nat) (rival : Bool) (s : State) : Except Nat CtlWrite :=
  if width ≠ 8 ∨ off % 8 ≠ 0 then .error C.CTL_E_WIDTH
  else match (if off < 0x100000000 then regFind off else none) with
    | none => .error C.CTL_E_NO_REGISTER
    | some h =>
      if regExists h = false then .error C.CTL_E_NO_REGISTER
      else if owns s w off = false then .error C.CTL_E_NOT_OWNER
      else if rival ∧ (whoTrusted w) = false then .error C.CTL_E_PREEMPTED
      else
        let locked := s.locked
        let wr := h.desc.fields.filter (fieldWritable locked)
        let old := (s.rg off).toNat
        if wr.isEmpty then .ok ⟨h, old, old, 0, false⟩
        else if (wr.filter (fieldAdmits (whoTrusted w))).isEmpty then .error C.CTL_E_WORLD
        else
          let x := applyFields locked (whoTrusted w) old val h.desc.fields
          .ok ⟨h, old, x.1, x.2.1, x.2.2⟩

/-- Class of a status (R5, R6). -/
def statusClass (st : Nat) : Nat := st / 4096 % 16

/-- Where a refused access is recorded: MGT_CTLERR for a core (R497), PRT_CTLERR for a head (R92). -/
def ctlRecord (w : Who) (off st : Nat) (s : State) : State :=
  let core := fun c => ((s.fset MGT_CTLERR F.MGT_CTLERR_OFFSET off).fset MGT_CTLERR F.MGT_CTLERR_CORE c).fset MGT_CTLERR F.MGT_CTLERR_STATUS st
  let head := fun p =>
    let r := PRT_CTLERR p
    (((s.fset r F.PRT_CTLERR_OFFSET off).fset r F.PRT_CTLERR_STATUS st).fsat r F.PRT_CTLERR_COUNT 1).fset r F.PRT_CTLERR_VALID 1
  match w with
  | .trusted c => core c
  | .part c _ => core c
  | .badVmid c => core c
  | .head p => head p
  | .load p => head p
  | .node _ => s
  | .bar0 _ => s

/-- What the status `st` of a control-space access leaves: its events, and a record at `off` when it is of class 2 or above (R92, R454). -/
def ctlNote (w : Who) (off st : Nat) (s : State) : State :=
  let s1 := if st = C.CTL_E_WORLD then s.ev 0x5CA else if st = C.CTL_E_NOT_OWNER then s.ev 0x5CB else s
  if 2 ≤ statusClass st then ctlRecord w off st s1 else s1

/-- A control-space write ends with status `st`. -/
def ctlEnd (w : Who) (off st : Nat) (s : State) : State := (ctlNote w off st s).put (.ctlDone w off st)

/-- What a register does when it is written: from its indices, the old and new stored values and the admitted bits, the state after and a status. -/
abbrev Hook := List Nat → Nat → Nat → Nat → State → State × Nat

/-- The control-space write (R3, R59, R490, R496): `hook` acts on a write that passes its checks. -/
def ctlWriteWith (hook : Hook) (w : Who) (off width : Nat) (val : Word) (rival : Bool) (s : State) : State :=
  if ctlOpen s = false then s else
  match ctlCheck w off width val.toNat rival s with
  | .error st => ctlEnd w off st s
  | .ok c =>
    let r := hook c.hit.idx c.old c.new c.act s
    ctlEnd w off (if r.2 ≠ 0 then r.2 else if c.worldErr then C.CTL_E_WORLD else 0) r.1

/-- The plain register: its admitted fields take the written value. -/
def plainHook (off : Nat) : Hook := fun _ _ new _ s => (s.setRg off (BitVec.ofNat 64 new), 0)

/-! Messages of a Seam link: VC, length and cost (R341, R342, R352). -/

/-- VC, length in bytes and "T" of an opcode (R352). -/
def opInfo (o : Nat) : Option (Nat × Nat × Bool) :=
  if o = 0x01 ∨ o = 0x02 ∨ o = 0x03 ∨ o = 0x04 ∨ o = 0x07 then some (0, 32, true)
  else if o = 0x05 ∨ o = 0x06 then some (0, 96, true)
  else if o = 0x10 then some (7, 32, true)
  else if o = 0x11 then some (7, 96, true)
  else if o = 0x20 then some (4, 48, true)
  else if o = 0x21 then some (4, 32, false)
  else if o = 0x30 then some (5, 32, true)
  else if o = 0x31 then some (5, 48, true)
  else if o = 0x32 ∨ o = 0x33 then some (5, 32, false)
  else if 0x40 ≤ o ∧ o ≤ 0x43 then some (2, 32, true)
  else if o = 0x44 then some (2, 80, false)
  else if o = 0x50 then some (1, 16, false)
  else if o = 0x51 then some (1, 80, false)
  else if o = 0x52 then some (1, 32, false)
  else if 0x60 ≤ o ∧ o ≤ 0x63 then some (3, 16, false)
  else if o = 0x65 ∨ o = 0x66 then some (3, 80, false)
  else if 0x70 ≤ o ∧ o ≤ 0x73 then some (6, 32, false)
  else none

def Msg.vc (m : Msg) : Nat := match opInfo m.opc with
  | some x => x.1
  | none => 5
def Msg.len (m : Msg) : Nat := match opInfo m.opc with
  | some x => x.2.1
  | none => 16
def Msg.isT (m : Msg) : Bool := match opInfo m.opc with
  | some x => x.2.2
  | none => false
/-- Credits of a message (R342). -/
def Msg.cost (m : Msg) : Nat := (m.len + 63) / 64

end Sys2Proof.Machine
end

