-- ==== Sys2Proof/Machine/Addr.lean ====
section
/-! DEFINITION. Addresses and placement (chapters 01, 02, 04, 07, 11): home slices, cache sets, descriptor fields and placement, the cold log, physical addresses. -/

namespace Sys2Proof.Machine

/-- Exclusive-or of `n` 5-bit groups of `a`. -/
def xorFold5 : Nat → Nat → Nat
  | 0, _ => 0
  | n + 1, a => (a % 32) ^^^ xorFold5 n (a / 32)

/-- R47. -/
def homeSlice (la : Nat) : Nat := xorFold5 7 (la / 2 ^ 12 % 2 ^ 35)

/-- R244. -/
def guestSlice (ga : Nat) : Nat := xorFold5 10 (ga / 2 ^ 12)

/-- A guest page is numbered 2^35 + its 49-bit global page number; guest lines likewise (R244). -/
def isGuestPage (page : Nat) : Bool := 2 ^ 35 ≤ page
def isGuestLa (la : Nat) : Bool := 2 ^ 47 ≤ la

/-- Slice of a page, local or guest. -/
def pageSlice (page : Nat) : Nat :=
  if isGuestPage page then guestSlice ((page - 2 ^ 35) * 4096) else homeSlice (page * 4096)

/-- Slice of a line address, local or guest. -/
def slice (la : Nat) : Nat := pageSlice (la / 4096)

/-- R72: descriptor-cache set of a page (R244 for a guest page). -/
def dcSet (page : Nat) : Nat :=
  let n := if isGuestPage page then page - 2 ^ 35 else page
  (n % 512) ^^^ (n / 512 % 512)

/-- R119: line-cache set of a line. -/
def lcSet (la : Nat) : Nat :=
  let l := la / 64
  ((l ^^^ (l / 2 ^ 12) ^^^ (l / 2 ^ 24) ^^^ (l / 2 ^ 36)) % 4096) % 768

/-- R228. -/
def dirSet (dset line : Nat) : Nat := line * 64 + dset % 64
def dirTag (dset dway : Nat) : Nat := dset / 64 * 16 + dway

/-- Interlining plane of a line (R31). -/
def planeOf (la : Nat) : Nat := la / 64 % 4

/-! Layout (R61, R62, R147). -/

def gib : Nat := 262144

/-- Frames of the descriptor area. -/
def dFrames (s : State) : Nat := s.fget TIR_LAYOUT F.TIR_LAYOUT_DSIZE * gib

/-- Frames of the mirror pool of group `g`. -/
def mFrames (s : State) (g : Nat) : Nat := s.fget (TIR_GLAYOUT g) F.TIR_GLAYOUT_MSIZE * gib

/-- NS of group `g`: stripes of its cold area. -/
def stripesOf (s : State) (g : Nat) : Nat := s.fget (TIR_GLAYOUT g) F.TIR_GLAYOUT_CSIZE * gib

/-- First frame of the cold area, and of the plain pool. -/
def coldBase (s : State) (g : Nat) : Nat := dFrames s + mFrames s g
def plainBase (s : State) (g : Nat) : Nat := coldBase s g + stripesOf s g

/-- All 12 channels of the group are populated (R62): none is ABSENT. -/
def groupFull (s : State) (g : Nat) : Bool := (List.range 12).all (fun i => s.fget (DCH_STAT (12 * g + i)) F.DCH_STAT_STATE != 0)

/-- Group `g` is enabled (R62): as decided at the assignment lock; before it, by the channels populated now. -/
def groupEn (s : State) (g : Nat) : Bool := if s.locked then s.ftest TIR_LAYOUT F.TIR_LAYOUT_GRP_EN g else groupFull s g

/-- Enabled groups in ascending order. -/
def groupsEn (s : State) : List Nat := [0, 1].filter (groupEn s)

/-- L / 4,096 (R55): pages that have descriptors. -/
def pagesL (s : State) : Nat := s.fget TIR_EXTENT F.TIR_EXTENT_L3G * (3 * gib)

/-- Frames of channel `c` (DCH_WMARK.END). -/
def chanFrames (s : State) (c : Nat) : Nat := s.fget (DCH_WMARK c) F.DCH_WMARK_END

/-- R63: primary channel, twin and frame, line of the descriptor of page `n`. -/
def descPlace (s : State) (n : Nat) : Nat × Nat × Nat × Nat :=
  let gs := groupsEn s
  let np := 6 * gs.length
  let k := n % np
  let entry := n / np
  let p := 12 * gs.getD (k / 6) 0 + k % 6
  (p, p + 6, entry / 64, entry % 64)

/-! Descriptor fields (R65 to R69). -/

abbrev Desc := BitVec 512

def dget (d : Desc) (lo w : Nat) : Nat := getBits d.toNat lo w
def dput (d : Desc) (lo w v : Nat) : Desc := BitVec.ofNat 512 (putBits d.toNat lo w v)

def dState (d : Desc) : Nat := dget d 0 4
def dKreg (d : Desc) : Nat := dget d 4 5
def dEpoch (d : Desc) : Nat := dget d 9 1
def dAcc (d : Desc) : Nat := dget d 10 8
def dFrame (d : Desc) : Nat := dget d 18 36
def dFrameIdx (d : Desc) : Nat := dget d 18 28
def dChan (d : Desc) : Nat := dget d 46 5
def dMajor (d : Desc) : Nat := dget d 54 40
def dMinor (d : Desc) (i : Nat) : Nat := dget d (96 + 6 * i) 6
def dItag (d : Desc) : Nat := dget d 480 32
def dSector (d : Desc) : Nat := dget d 18 40
def dSize (d : Desc) : Nat := dget d 58 4
def dSegoff (d : Desc) (i : Nat) : Nat := dget d (62 + 9 * i) 9
def dCrc (d : Desc) : Nat := dget d 134 32

def stINIT : Nat := 0
def stHOT : Nat := 1
def stMIRROR : Nat := 2
def stCOLD : Nat := 3
def stLOST : Nat := 4

/-- The page is HOT or HOT_MIRROR. -/
def dHot (d : Desc) : Bool := dState d == stHOT || dState d == stMIRROR

/-- The page's dirty lines are protected by copies (R83). -/
def dProtected (d : Desc) : Bool := dState d == stMIRROR || dState d == stCOLD

/-- Common fields of a fresh descriptor. -/
def dCommon (st kreg epoch acc : Nat) : Nat := st % 16 + kreg % 32 * 16 + epoch % 2 * 512 + acc % 256 * 1024

/-- A hot descriptor with every MINOR at 0. -/
def mkHot (st kreg epoch acc ch frame major : Nat) : Desc :=
  BitVec.ofNat 512 (dCommon st kreg epoch acc + frame % 2 ^ 28 * 2 ^ 18 + ch % 32 * 2 ^ 46 + major % 2 ^ 40 * 2 ^ 54)

/-- A cold descriptor. -/
def mkCold (kreg epoch acc sector size : Nat) (segoff : List Nat) (crc : Nat) : Desc :=
  let so := (List.range 8).foldl (fun a i => a + segoff.getD i 0 % 512 * 2 ^ (62 + 9 * i)) 0
  BitVec.ofNat 512 (dCommon stCOLD kreg epoch acc + sector % 2 ^ 40 * 2 ^ 18 + size % 16 * 2 ^ 58 + so + crc % 2 ^ 32 * 2 ^ 134)

/-! The cold log (R70). -/

/-- Channel, frame and line of a sector of group `g`. -/
def coldLocate (s : State) (sector : Nat) : Nat × Nat × Nat :=
  let g := sector / 2 ^ 39 % 2
  let off := sector % 2 ^ 39
  let chunk := off / 64
  let st := chunk / 11
  let j := chunk % 11
  let p := st % 12
  (12 * g + (if j < p then j else j + 1), coldBase s g + st, off % 64)

/-- R73: the descriptor passes its checks. -/
def descOk (s : State) (d : Desc) : Bool :=
  let st := dState d
  if st = stINIT ∨ st = stLOST then dget d 18 494 == 0
  else if st = stHOT ∨ st = stMIRROR then
    let c := dChan d
    let g := c / 12
    let f := dFrameIdx d
    dget d 94 2 == 0 && dget d 51 3 == 0 && c < 24 && groupEn s g &&
      (if st = stHOT then plainBase s g ≤ f && f < chanFrames s c
       else c % 12 < 6 && dFrames s ≤ f && f < coldBase s g)
  else if st = stCOLD then
    let size := dSize d
    let segs := (List.range 8).map (dSegoff d)
    if dget d 166 346 ≠ 0 ∨ 7 < size then false
    else if size = 0 then dSector d == 0 && segs.all (· == 0) && dCrc d == 0
    else
      let g := dSector d / 2 ^ 39
      let inc := (List.range 7).all (fun i => decide (segs.getD i 0 < segs.getD (i + 1) 0))
      groupEn s g && decide (dSector d % 2 ^ 39 + 8 * size ≤ stripesOf s g * 704) && inc && segs.all (· < 64 * size)
  else false

/-! Attributes of addresses (R81, R82). -/

/-- The lowest-numbered of 64 Gusset ranges that contains the page, from `n` on. -/
def gussetRange (s : State) (la : Nat) : Nat → Nat → Option Nat
  | 0, _ => none
  | k + 1, n =>
    let b := TIR_GRBASE n
    let blk := la / 2 ^ 21
    if s.fget b F.TIR_GRBASE_VALID = 1 ∧ s.fget b F.TIR_GRBASE_BASE ≤ blk ∧ blk ≤ s.fget (TIR_GRLIM n) F.TIR_GRLIM_LIMIT then some n
    else gussetRange s la k (n + 1)

/-- GROUP attribute resolved to a group (R82). -/
def groupFor (s : State) (la : Nat) : Nat :=
  let attr := match gussetRange s la 64 0 with
    | some n => s.fget (TIR_GRBASE n) F.TIR_GRBASE_GROUP
    | none => 2
  match groupsEn s with
  | [g] => g
  | _ => if attr = 0 then 0 else if attr = 1 then 1 else if homeSlice la < 16 then 0 else 1

def mirrorAttr (s : State) (la : Nat) : Bool :=
  match gussetRange s la 64 0 with
  | some n => s.fget (TIR_GRBASE n) F.TIR_GRBASE_MIRROR == 1
  | none => false

def hotPin (s : State) (la : Nat) : Bool :=
  match gussetRange s la 64 0 with
  | some n => s.fget (TIR_GRBASE n) F.TIR_GRBASE_HOTPIN == 1
  | none => false

/-- The key region that contains the address (R81, R189), from region `n` on; K0 if none does. -/
def keyRegion (s : State) (la : Nat) : Nat → Nat → Nat
  | 0, _ => 0
  | k + 1, n =>
    let r := KEY_RGN n
    let blk := la / 2 ^ 21
    if s.fget r F.KEY_RGN_VALID = 1 ∧ s.fget r F.KEY_RGN_BASE ≤ blk ∧ blk ≤ s.fget r F.KEY_RGN_LIMIT then n
    else keyRegion s la k (n + 1)

/-- Region of an address. -/
def regionOf (s : State) (la : Nat) : Nat := keyRegion s la 31 1

/-! Channels. -/

def State.chan (s : State) (c : Nat) : Chan := tabGet (fun _ => Chan.init) s.chans c
def State.setChan (s : State) (c : Nat) (x : Chan) : State := { s with chans := tabSet (fun _ => Chan.init) s.chans c x }

/-- DCH_STAT.STATE values (R413). -/
def csABSENT : Nat := 0
def csTRAINING : Nat := 1
def csIN_SERVICE : Nat := 2
def csDRAINING : Nat := 3
def csRETRAINING : Nat := 4
def csFENCED : Nat := 5
def csTESTING : Nat := 6
def csREJOINING : Nat := 7

def State.cstate (s : State) (c : Nat) : Nat := s.fget (DCH_STAT c) F.DCH_STAT_STATE
/-- FLT_SRCSTAT.STATE of a channel's state (R462, R475). -/
def chanSrcState (v : Nat) : Nat := if v = 5 then 1 else if v = 6 then 2 else if v = 7 then 3 else 0

/-- A channel's state changes: its source's state, a re-admission of it and its interrupt source (R492) follow. -/
def State.setCstate (s : State) (c v : Nat) : State :=
  let n := chanSrcState v
  let src := srcId 2 c
  let s1 := (setSrcState (s.fset (DCH_STAT c) F.DCH_STAT_STATE v) src n).irq (16 + c)
  if n = 0 then readmEnd s1 src 0 0 else readmStage s1 src 0 (n - 1)

/-- The channel serves reads of this frame (R413). -/
def canRead (s : State) (c frame : Nat) : Bool :=
  let st := s.cstate c
  st == csIN_SERVICE || st == csDRAINING || (st == csREJOINING && frame < s.fget (DCH_WMARK c) F.DCH_WMARK_FRAME)

/-- The channel takes writes (R413). -/
def canWrite (s : State) (c : Nat) : Bool :=
  let st := s.cstate c
  st == csIN_SERVICE || st == csDRAINING || st == csREJOINING

/-- Reads of this frame will be possible again without loss: wait (R140). -/
def readWaits (s : State) (c : Nat) : Bool :=
  let st := s.cstate c
  st == csRETRAINING || (st == csREJOINING && s.fget (DCH_STAT c) F.DCH_STAT_FROM_FENCE == 0)

/-- R391: the physical address of a line, in the fields of R57. -/
def framePa (s : State) (c f l : Nat) : Nat :=
  let m := DCH_MODULE c 0
  let cb := if s.fget m F.DCH_MODULE_X8 = 1 then 4 else 5
  let two := if s.fget (DCH_STAT c) F.DCH_STAT_SLOTS = 3 then 1 else 0
  let rk := s.fget m F.DCH_MODULE_RANKS2
  let cid := s.fget m F.DCH_MODULE_CID
  let sub := l % 2
  let bg := l / 2 % 8
  let col := l / 16 % 4 * 16 + f % 2 ^ cb * 64
  let f1 := f / 2 ^ cb
  let ba := f1 % 4
  let f2 := f1 / 4
  let slot := f2 % 2 ^ two
  let f3 := f2 / 2 ^ two
  let rank := f3 % 2 ^ rk
  let f4 := f3 / 2 ^ rk
  let ci := f4 % 2 ^ cid
  let row := f4 / 2 ^ cid
  col + row * 2 ^ 11 + ba * 2 ^ 29 + bg * 2 ^ 31 + ci * 2 ^ 34 + rank * 2 ^ 37 + slot * 2 ^ 38 + sub * 2 ^ 39 + c * 2 ^ 40

/-- The frame and line of a PA: the function of R391 read backwards. -/
def paFrame (s : State) (c pa : Nat) : Nat × Nat :=
  let m := DCH_MODULE c 0
  let cb := if s.fget m F.DCH_MODULE_X8 = 1 then 4 else 5
  let two := if s.fget (DCH_STAT c) F.DCH_STAT_SLOTS = 3 then 1 else 0
  let rk := s.fget m F.DCH_MODULE_RANKS2
  let cid := s.fget m F.DCH_MODULE_CID
  let f4 := pa / 2 ^ 11 % 2 ^ 18 * 2 ^ cid + pa / 2 ^ 34 % 2 ^ cid
  let f2 := (f4 * 2 ^ rk + pa / 2 ^ 37 % 2 ^ rk) * 2 ^ two + pa / 2 ^ 38 % 2 ^ two
  ((f2 * 4 + pa / 2 ^ 29 % 4) * 2 ^ cb + pa / 64 % 2 ^ cb, pa / 16 % 4 * 16 + pa / 2 ^ 31 % 8 * 2 + pa / 2 ^ 39 % 2)

/-- Frames of a row with its neighbours' (R405), as the first frame of each: `paFrame` of the same place in the rows below and above. -/
def rowStep (s : State) (c : Nat) : Nat :=
  let m := DCH_MODULE c 0
  2 ^ ((if s.fget m F.DCH_MODULE_X8 = 1 then 4 else 5) + 2 + (if s.fget (DCH_STAT c) F.DCH_STAT_SLOTS = 3 then 1 else 0) +
    s.fget m F.DCH_MODULE_RANKS2 + s.fget m F.DCH_MODULE_CID)

/-- The DRAM keys of the lines of the row of `pa` and of its two logical neighbours (R405). -/
def rowKeys (s : State) (c pa : Nat) : List Nat :=
  let x := paFrame s c pa
  let cb := if s.fget (DCH_MODULE c 0) F.DCH_MODULE_X8 = 1 then 4 else 5
  let first := x.1 / 2 ^ cb * 2 ^ cb
  let rows := (if first < rowStep s c then [] else [first - rowStep s c]) ++ [first] ++ (if first + rowStep s c < chanFrames s c then [first + rowStep s c] else [])
  rows.flatMap fun f => (List.range (2 ^ cb)).flatMap fun i => (List.range 4).map fun k => (c * 2 ^ 28 + f + i) * 64 + (x.2 % 16 + 16 * k)

/-- Bank number of a PA: every field but row and column. -/
def paBank (pa : Nat) : Nat := pa / 2 ^ 29 % 2 ^ 11
def paRow (pa : Nat) : Nat := pa / 2 ^ 11 % 2 ^ 18

/-- The key of a line of DRAM. -/
def dramKey (c frame line : Nat) : Nat := (c * 2 ^ 28 + frame) * 64 + line

end Sys2Proof.Machine
end

