-- ==== Sys2Proof/Machine/Rs.lean ====
section
/-! DEFINITION. The Reed-Solomon code RS(80, 64) over GF(2^8) of a DRAM burst (R399 to R401). A codeword is a list of 80 symbols. -/

namespace Sys2Proof.Machine

/-- Multiplication by α, field polynomial x^8 + x^4 + x^3 + x^2 + 1. -/
def gfX2 (a : Nat) : Nat := 2 * a % 256 ^^^ a / 128 * 0x1d

def gfMulN : Nat → Nat → Nat → Nat
  | 0, _, _ => 0
  | n + 1, a, b => b % 2 * a ^^^ gfMulN n (gfX2 a) (b / 2)

/-- Product in GF(2^8). -/
def gfMul (a b : Nat) : Nat := gfMulN 8 a b

/-- `a` to the power of the `k` low bits of `n`, by squares. -/
def gfPowN : Nat → Nat → Nat → Nat
  | 0, _, _ => 1
  | k + 1, a, n =>
    let r := gfPowN k (gfMul a a) (n / 2)
    if n % 2 = 1 then gfMul a r else r

/-- `a` to the power `n`, below 256. -/
def gfPow (a n : Nat) : Nat := gfPowN 8 a n

/-- Inverse of a non-zero element. -/
def gfInv (a : Nat) : Nat := gfPow a 254

/-- Powers of α. -/
def gfAlpha (n : Nat) : Nat := gfPow 2 (n % 255)

/-- Coefficients of g(x) below x^16, from x^15 down to 1. -/
def rsGenLoop : Nat → Nat → List Nat → List Nat
  | 0, _, g => g
  | n + 1, i, g =>
    let a := gfAlpha i
    rsGenLoop n (i + 1) (List.zipWith (fun x y => x ^^^ y) (g ++ [0]) (0 :: g.map (gfMul a)))

def rsGen : List Nat := (rsGenLoop 16 0 [1]).drop 1

/-- Remainder of the data polynomial times x^16. -/
def rsRem : List Nat → List Nat → List Nat
  | acc, [] => acc
  | acc, d :: r =>
    let f := acc.headD 0 ^^^ d
    rsRem (List.zipWith (fun x y => x ^^^ y) (acc.drop 1 ++ [0]) (rsGen.map (gfMul f))) r

/-- The 16 check symbols of 64 data symbols (R399). -/
def rsCheck (d : Bytes) : Bytes := rsRem (List.replicate 16 0) d

/-- The codeword of a line; a poisoned line has its check symbols exclusive-ored with 0xA5 (R401). -/
def rsEncode (d : Bytes) (poison : Bool) : Bytes :=
  d ++ (if poison then (rsCheck d).map (fun x => x ^^^ 0xa5) else rsCheck d)

/-- Horner evaluation at α^i. -/
def rsEval (i : Nat) (w : Bytes) : Nat := let a := gfAlpha i; w.foldl (fun acc x => gfMul acc a ^^^ x) 0

/-- The 16 syndromes. -/
def rsSyn (w : Bytes) : List Nat := (List.range 16).map (fun i => rsEval i w)

/-- The first row whose head is not 0, and the others. -/
def gfPick : List (List Nat) → Option (List Nat × List (List Nat))
  | [] => none
  | r :: rest =>
    if r.headD 0 ≠ 0 then some (r, rest)
    else match gfPick rest with
      | some (p, o) => some (p, r :: o)
      | none => none

/-- Solve a linear system; each row holds its coefficients and then its right side. None when it has no solution. -/
def gfSolve : Nat → List (List Nat) → Option (List Nat)
  | 0, rows => if rows.all (fun r => r.headD 0 == 0) then some [] else none
  | n + 1, rows =>
    match gfPick rows with
    | none => none
    | some (p, rest) =>
      let iv := gfInv (p.headD 0)
      let pn := (p.drop 1).map (gfMul iv)
      match gfSolve n (rest.map fun r => List.zipWith (fun x y => x ^^^ gfMul (r.headD 0) y) (r.drop 1) pn) with
      | none => none
      | some xs => some ((List.zipWith gfMul pn xs).foldl (fun x y => x ^^^ y) (pn.getLastD 0) :: xs)

/-- Error values at the symbols `js` that explain the syndromes. -/
def rsFit (syn : List Nat) (js : List Nat) : Option (List Nat) :=
  gfSolve js.length ((List.range 16).map fun i => js.map (fun j => gfAlpha (i * (79 - j))) ++ [syn.getD i 0])

/-- The symbols of nibble `d`. -/
def nibSyms (d : Nat) : List Nat := (List.range 8).map (8 * d + ·)

/-- Apply error values to a word. -/
def rsApply (w : Bytes) (js es : List Nat) : Bytes :=
  (js.zip es).foldl (fun a p => a.set p.1 (a.getD p.1 0 ^^^ p.2)) w

/-- What a syndrome decodes to: clean, or the corrected word with the nibbles corrected; none: uncorrectable. -/
def rsOne (w : Bytes) (syn : List Nat) : Nat → Option (Bytes × List Nat)
  | 0 => none
  | n + 1 =>
    let d := 9 - n
    match rsFit syn (nibSyms d) with
    | some es => some (rsApply w (nibSyms d) es, [d])
    | none => rsOne w syn n

/-! The error of up to eight symbols that explains the syndromes, by Berlekamp and Massey. -/

def polyAdd : List Nat → List Nat → List Nat
  | [], b => b
  | a, [] => a
  | x :: a, y :: b => (x ^^^ y) :: polyAdd a b

/-- Error locator so far, the one before its last lengthening, its length, the shift since then, and the discrepancy then. -/
def bmStep (syn : List Nat) (a : List Nat × List Nat × Nat × Nat × Nat) (n : Nat) : List Nat × List Nat × Nat × Nat × Nat :=
  let (c, b, l, m, db) := a
  let d := (List.range (l + 1)).foldl (fun x i => x ^^^ gfMul (c.getD i 0) (syn.getD (n - i) 0)) 0
  if d = 0 then (c, b, l, m + 1, db)
  else
    let t := polyAdd c ((List.replicate m 0) ++ b.map (gfMul (gfMul d (gfInv db))))
    if 2 * l ≤ n then (t, c, n + 1 - l, 1, d) else (t, b, l, m + 1, db)

/-- The symbols in error, when an error of up to eight explains the syndromes; there is then no other. -/
def rsNear (syn : List Nat) : Option (List Nat) :=
  let r := (List.range 16).foldl (bmStep syn) ([1], [1], 0, 1, 1)
  let js := (List.range 80).filter fun j => let x := gfAlpha (255 - (79 - j)); r.1.foldr (fun k acc => gfMul acc x ^^^ k) 0 == 0
  if r.2.2.1 ≤ 8 ∧ js.length = r.2.2.1 then some js else none

/-- An error in those symbols is one that the decoder corrects beside the marked nibble `m`: inside its x8 device, or, for an x4 device, within 4 symbols of one
other nibble (R400). -/
def markAllows (x8 : Bool) (m : Nat) (js : List Nat) : Bool :=
  if x8 then js.all (fun j => j / 16 == m / 2)
  else
    let other := js.filter (fun j => j / 8 != m)
    decide (other.length ≤ 4) && other.all (fun j => j / 8 == other.headD 0 / 8)

/-- A marked x4 nibble with up to 4 more symbols of one other nibble (R400). -/
def rsMarked4 (w : Bytes) (syn : List Nat) (m : Nat) : Nat → Option (Bytes × List Nat)
  | 0 => none
  | n + 1 =>
    let d := 9 - n
    if d = m then rsMarked4 w syn m n
    else
      let js := nibSyms m ++ nibSyms d
      match rsFit syn js with
      | some es => if ((es.drop 8).filter (· != 0)).length ≤ 4 then some (rsApply w js es, [m, d]) else rsMarked4 w syn m n
      | none => rsMarked4 w syn m n

/-- Decode a syndrome under R400. `mark` is the marked nibble plus 1. -/
def rsDecodeSyn (w : Bytes) (syn : List Nat) (x8 : Bool) (mark : Nat) : Option (Bytes × List Nat) :=
  if syn.all (· == 0) then some (w, [])
  else match rsOne w syn 10 with
    | some r => some r
    | none =>
      if mark = 0 then none
      else
        let m := mark - 1
        match rsNear syn with
        | some js =>
          -- an error of up to 8 symbols: corrected within the device and its allowance, and else uncorrectable
          if markAllows x8 m js then (rsFit syn js).map (fun es => (rsApply w js es, (js.map (· / 8)).eraseDups)) else none
        | none =>
          if x8 then
            let e := m / 2 * 2
            let js := nibSyms e ++ nibSyms (e + 1)
            (rsFit syn js).map (fun es => (rsApply w js es, [e, e + 1]))
          else rsMarked4 w syn m 10

/-- The outcome of reading a burst (R400, R401, R403). -/
inductive RdRes where
  | data (d : Line) (nibs : List Nat)
  | poison (nibs : List Nat)
  | ue
  deriving DecidableEq, Repr

/-- Decode a burst: as received, and then less the poison pattern (R401). -/
def rsDecode (w : Bytes) (x8 : Bool) (mark : Nat) : RdRes :=
  match rsDecodeSyn w (rsSyn w) x8 mark with
  | some (c, ns) => .data (lineOf (c.take 64)) ns
  | none =>
    let w' := w.take 64 ++ (w.drop 64).map (fun x => x ^^^ 0xa5)
    match rsDecodeSyn w' (rsSyn w') x8 mark with
    | some (_, ns) => .poison ns
    | none => .ue

end Sys2Proof.Machine
end

