-- ==== Sys2Proof/Machine/Mem.lean ====
section
/-! DEFINITION. The stores of the device and their ciphers: DRAM lines (R187, R399 to R405), line encryption (R196), descriptors in DRAM and in
the descriptor cache (R63, R64, R72, R209, R210), key slots (R190), line-cache ways (R119 to R122). -/

namespace Sys2Proof.Machine

/-! DRAM lines. -/

/-- Configuration of a channel's decoder: x8 devices, and the marked nibble plus 1 of a subchannel. -/
def chanX8 (s : State) (c : Nat) : Bool := s.fget (DCH_MODULE c 0) F.DCH_MODULE_X8 == 1
def markOf (s : State) (c sub : Nat) : Nat :=
  s.fget (DCH_ECCSTAT c) (if sub = 0 then F.DCH_ECCSTAT_MARK0 else F.DCH_ECCSTAT_MARK1)

/-! The cells, and the test buffer of a running row test (R405). -/

/-- A line of the cells. -/
def cellsAt (s : State) (k : Nat) : RowLine :=
  ⟨k, tabGet (fun _ => (0 : Line)) s.dram.lines k, tabGet (fun _ => false) s.dram.poison k, tabGet (fun _ => (0 : BitVec 640)) s.dram.err k⟩

def cellsSet (s : State) (r : RowLine) : State :=
  { s with dram := { s.dram with
      lines := tabSet (fun _ => (0 : Line)) s.dram.lines r.key r.data
      poison := tabSet (fun _ => false) s.dram.poison r.key r.poison
      err := tabSet (fun _ => (0 : BitVec 640)) s.dram.err r.key r.err } }

/-- The test buffer's copy of a line of its rows. -/
def bufFind (x : Chan) (k : Nat) : Option RowLine :=
  match x.rowTest with
  | some t => t.buf.find? (fun r => r.key == k)
  | none => none

/-- A line as its channel serves it: requests to the rows of a running row test are served from its buffer. -/
def lineAt (s : State) (c k : Nat) : RowLine := (bufFind (s.chan c) k).getD (cellsAt s k)

def linePut (s : State) (c : Nat) (r : RowLine) : State :=
  let x := s.chan c
  match x.rowTest with
  | some t =>
    if t.buf.any (fun q => q.key == r.key) then s.setChan c { x with rowTest := some { t with buf := t.buf.map fun q => if q.key = r.key then r else q } }
    else cellsSet s r
  | none => cellsSet s r

/-- All 32 entries of the merge buffer are in use (R404). -/
def mergeFull (s : State) (c : Nat) : Bool := decide (32 ≤ (s.chan c).merge.length)

/-- The first waiting row test starts, where none runs and the merge buffer has room for its lines (R404, R405): the rows are copied with their check bits, and
the patterns go over the cells. -/
def rowNext (s : State) (c : Nat) : State :=
  let x := s.chan c
  match x.rowTest, x.rowQueue with
  | none, pa :: q =>
    if mergeFull s c ∨ canWrite s c = false then s
    else
      let ks := rowKeys s c pa
      let s1 := s.setChan c { x with rowTest := some ⟨pa, ks.map (cellsAt s)⟩, rowQueue := q, openRow := tabDrop (fun b => b == paBank pa) x.openRow }
      ks.foldl (fun t k => cellsSet t ⟨k, 0, false, 0⟩) s1
  | _, _ => s

/-- The rows of the running test are restored, and it is over (R405). -/
def rowRestore (s : State) (c : Nat) : State :=
  match (s.chan c).rowTest with
  | none => s
  | some t => t.buf.foldl cellsSet (s.setChan c { s.chan c with rowTest := none })

/-- Ask for a row test (R405); a test requested while another runs waits for it. -/
def rowTestReq (s : State) (c pa : Nat) : State := rowNext (s.setChan c { s.chan c with rowQueue := (s.chan c).rowQueue ++ [pa] }) c

/-- Both nibbles of the x8 device of nibble `n` were corrected in the codeword (R400). -/
def bothNibs (s : State) (c n : Nat) (ns : List Nat) : Bool := chanX8 s c && ns.contains (n / 2 * 2) && ns.contains (n / 2 * 2 + 1)

/-- Corrections of nibbles are counted, and the sixteenth marks the device; so do the corrections of both nibbles of an x8 device in one codeword, `ns` being all
that were corrected in it (R400). -/
def countNibs (s : State) (c sub pa : Nat) (ns : List Nat) : List Nat → State
  | [] => s
  | n :: r =>
    let k := sub * 16 + n
    let ch := s.chan c
    let v := tabGet (fun _ => 0) ch.nibs k + 1
    let s1 := s.setChan c { ch with nibs := tabSet (fun _ => 0) ch.nibs k v }
    let s2 := if (16 ≤ v ∨ bothNibs s1 c n ns) ∧ markOf s1 c sub = 0 then
        (s1.fset (DCH_ECCSTAT c) (if sub = 0 then F.DCH_ECCSTAT_MARK0 else F.DCH_ECCSTAT_MARK1) (n + 1)).reportAt 1 (srcId 2 c) n C.DCH_F_CE pa 1
      else s1
    countNibs s2 c sub pa ns r

/-- What the decoder makes of a line as the cells hold it (R399 to R401). -/
def dramDecode (s : State) (c frame line : Nat) : RdRes :=
  let k := dramKey c frame line
  let x := lineAt s c k
  if x.err = 0 then (if x.poison then .poison [] else .data x.data [])
  else rsDecode (xorBytes (rsEncode (lineBytes x.data) x.poison) (leBytes 80 x.err.toNat)) (chanX8 s c) (markOf s c (line % 2))

/-- The cells of a line are written: the whole codeword, so that nothing of an error stays. -/
def cellsWrite (s : State) (c frame line : Nat) (d : Line) (poison : Bool) : State :=
  linePut s c ⟨dramKey c frame line, d, poison, 0⟩

/-! The merge buffer (R404). -/

/-- The entry of a line. -/
def mergeFind (s : State) (c frame line : Nat) : Option MergeEnt :=
  (s.chan c).merge.find? (fun e => e.frame == frame && e.line == line)

/-- The write of a merge-buffer entry as a request (R402, R404): a write of the controller's own, with no port. -/
def mergeId (frame line : Nat) : Nat := 2 ^ 64 + 64 * frame + line
def mergeReq (e : MergeEnt) : DramReq := ⟨{ id := mergeId e.frame e.line, wr := true, frame := e.frame, line := e.line, data := e.data, poison := false, master := e.master, port := 16 }, e.born, e.issued⟩

/-- The line's entry goes: its write is done, or a newer write to the line makes it needless (R402, R404). -/
def mergeDrop (s : State) (c frame line : Nat) : State :=
  match mergeFind s c frame line with
  | none => s
  | some e =>
    let x := s.chan c
    s.setChan c { x with merge := x.merge.erase e, regul := { x.regul with held := x.regul.held.filter (fun r => r.op.id != mergeId frame line) } }

/-- An operation that ends within the step needs an entry: with none free it waits for the oldest entry's write to complete (R404). -/
def mergeRoom (s : State) (c : Nat) : State :=
  match mergeFull s c, (s.chan c).merge with
  | true, e :: _ => mergeDrop ((cellsWrite s c e.frame e.line e.data false).ev (0x100 + 16 * c + 2)) c e.frame e.line
  | _, _ => s

/-- A corrected line is written back at once through the merge buffer (R402). `later`: its write is a burst of its own, and the entry holds the line until
that write completes; otherwise the write completes within the step. The write-back of a scrub's correction asks for a pass of the scrub agent (R438). -/
def correct (s : State) (c frame line : Nat) (x : Line) (later : Bool) (m : Nat) : State :=
  if later then
    let ch := s.chan c
    let e : MergeEnt := ⟨frame, line, x, false, s.time, if m = 24 then 24 else 31⟩
    let t := s.setChan c { ch with merge := ch.merge ++ [e], regul := { ch.regul with held := ch.regul.held ++ (if m = 24 then [mergeReq e] else []) } }
    if mergeFull t c then t.ev (0x100 + 16 * c + 15) else t
  else cellsWrite (mergeRoom s c) c frame line x false

/-- A read the controller makes (R400 to R404): what it returns, with its corrections written back and reported. A line of the merge buffer is served from it. -/
def dramReadVia (later : Bool) (m c frame line : Nat) (s : State) : RdRes × State :=
  match mergeFind s c frame line with
  | some e => (.data e.data [], s)
  | none =>
    let s0 := s.ev (0x100 + 16 * c + 1)
    let pa := framePa s0 c frame line
    match dramDecode s0 c frame line with
    | .data x [] => (.data x [], s0)
    | .data x ns =>
      let s1 := correct s0 c frame line x later m
      let s2 := (s1.fsat (DCH_ECCSTAT c) F.DCH_ECCSTAT_CE 1).reportAt 1 (srcId 2 c) 0 C.DCH_F_CE pa 0
      (.data x ns, (countNibs s2 c (line % 2) pa ns ns).ev (0x100 + 16 * c + 8))
    | .poison ns => (.poison ns, s0)
    | .ue => (.ue, ((s0.fsat (DCH_ECCSTAT c) F.DCH_ECCSTAT_UE 1).report (srcId 2 c) 0 C.DCH_F_UE pa 0).ev (0x100 + 16 * c + 9))

/-- A read whose correction, if any, is written back within the step. -/
def dramRead (c frame line : Nat) (s : State) : RdRes × State := dramReadVia false 31 c frame line s

/-- A line written to DRAM, or written as poison (R401); an entry of the merge buffer for it is needless now. -/
def dramWrite (c frame line : Nat) (d : Line) (poison : Bool) (s : State) : State :=
  (cellsWrite (mergeDrop s c frame line) c frame line d poison).ev (0x100 + 16 * c + 2)

/-! Key slots (R190). -/

def State.slot (s : State) (k e : Nat) : KeySlot := tabGet (fun _ => ⟨0, 0, 0⟩) s.keys.slots (2 * k + e)
def State.setSlot (s : State) (k e : Nat) (x : KeySlot) : State :=
  { s with keys := { s.keys with slots := tabSet (fun _ => ⟨0, 0, 0⟩) s.keys.slots (2 * k + e) x } }

/-- The slot is LIVE. -/
def slotLive (s : State) (k e : Nat) : Bool := s.ftest (KEY_RCTL k) F.KEY_RCTL_LIVE e

/-- The three keys of a slot: KC, KX1, KX2, 32 bytes each. -/
def keyKC (x : KeySlot) : Bytes := leBytes 32 x.mat
def keyKX1 (x : KeySlot) : Bytes := leBytes 32 (x.mat / 2 ^ 256)
def keyKX2 (x : KeySlot) : Bytes := leBytes 32 (x.mat / 2 ^ 512)

/-- R196: the counter block. -/
def counterBlock (la major minor j : Nat) : Nat :=
  j % 4 + minor % 64 * 4 + major % 2 ^ 40 * 2 ^ 8 + la / 64 % 2 ^ 41 * 2 ^ 48

/-- R196: the keystream of a line. -/
def keystream (kc : Bytes) (la major minor : Nat) : Bytes :=
  let rks := aesRoundKeys kc
  (List.range 4).flatMap fun j => aesEncWith rks (leBytes 16 (counterBlock la major minor j))

/-- Encrypt, or decrypt, a line of a hot frame. -/
def lineCrypt (x : KeySlot) (la major minor : Nat) (d : Line) : Line := d ^^^ lineOf (keystream (keyKC x) la major minor)

/-- An interrupt to the owner of the KEY block (R205). -/
def keyIrq (s : State) : State := if s.fget KEY_CFG F.KEY_CFG_IRQ_EN = 1 then s.irq irqKEY else s

/-- Warning exponent of R205. -/
def exhWarn (s : State) : Nat := let e := s.fget KEY_CFG F.KEY_CFG_EXH_WARN; if 30 ≤ e ∧ e ≤ 39 then e else 39

/-- R205: a MAJOR or MFLOOR rose to `v` from `old`. -/
def epochWarn (s : State) (k old v : Nat) : State :=
  if old < 2 ^ exhWarn s ∧ 2 ^ exhWarn s ≤ v then
    keyIrq (((s.fset KEY_STAT F.KEY_STAT_EXH_WARN 1).fset KEY_STAT F.KEY_STAT_LASTRGN k).reportAt 0 (srcId 5 127) k C.KEY_W_EPOCH_LOW 0 0)
  else s

/-- R202: raise the slot's MFLOOR to `v` if that is higher. -/
def raiseFloor (s : State) (k e v : Nat) : State :=
  let x := s.slot k e
  if x.mfloor < v then epochWarn (s.setSlot k e { x with mfloor := v }) k x.mfloor v else s

/-! Descriptors in DRAM (R63, R64, R209, R210). -/

/-- ITAG of a descriptor (R210). -/
def itagOf (s : State) (lpn : Nat) (d : Desc) : Nat :=
  leNat ((aesCmac (leBytes 32 s.keys.metaTag) (leBytes 8 lpn ++ leBytes 60 d.toNat)).take 4)

/-- Ciphertext of a descriptor (R209). -/
def descCrypt (s : State) (enc : Bool) (lpn : Nat) (d : Bytes) : Bytes :=
  xtsUnit enc (leBytes 32 s.keys.metaData) (leBytes 32 s.keys.metaTweak) lpn d

/-- Write a descriptor to every copy whose channel takes writes (R64, R139), with its ITAG (R210). -/
def descStore (s : State) (lpn : Nat) (d : Desc) : State :=
  let d' := if dHot d then dput d 480 32 (itagOf s lpn d) else d
  let ct := lineOf (descCrypt s true lpn (leBytes 64 d'.toNat))
  let pl := descPlace s lpn
  let s1 := if canWrite s pl.1 then dramWrite pl.1 pl.2.2.1 pl.2.2.2 ct false s else s
  if canWrite s1 pl.2.1 then dramWrite pl.2.1 pl.2.2.1 pl.2.2.2 ct false s1 else s1

/-- One copy of a descriptor; none: it cannot be read, or fails its tag (R64, R210). Since DINIT a descriptor that nothing has written is that of a zero page
(R509): memory does not list it. -/
def descCopy (s : State) (lpn c f l : Nat) : Option Desc × State :=
  if canRead s c f then
    match dramRead c f l s with
    | (.data x _, s1) =>
      let d : Desc := if s1.mgmt.dinit ∧ x = 0 ∧ (lineAt s1 c (dramKey c f l)).data = 0 then mkCold 0 0 0 0 0 [] 0
        else BitVec.ofNat 512 (leNat (descCrypt s1 false lpn (lineBytes x)))
      if dHot d ∧ dItag d ≠ itagOf s1 lpn d then
        (none, (s1.fset KEY_STAT F.KEY_STAT_ITAG 1).reportAt 1 (srcId 5 127) 0 C.KEY_F_ITAG (lpn * 4096) 0)
      else (some d, s1)
    | (_, s1) => (none, s1)
  else (none, s)

/-- A descriptor read (R64): the primary, or the twin with the primary rewritten; LOST when neither can be read; INIT when it fails R73. -/
def descLoad (s : State) (lpn : Nat) : Desc × State :=
  let pl := descPlace s lpn
  let chk := fun (d : Desc) (t : State) => (if descOk t d then d else 0, t)
  match descCopy s lpn pl.1 pl.2.2.1 pl.2.2.2 with
  | (some d, s1) => chk d s1
  | (none, s1) =>
    match descCopy s1 lpn pl.2.1 pl.2.2.1 pl.2.2.2 with
    | (some d, s2) =>
      let s3 := if canRead s2 pl.1 pl.2.2.1 then
          dramWrite pl.1 pl.2.2.1 pl.2.2.2 (lineOf (descCrypt s2 true lpn (leBytes 64 d.toNat))) false s2
        else s2
      chk d s3
    | (none, s2) =>
      (BitVec.ofNat 512 (dCommon stLOST 0 0 0), s2.reportAt 2 (srcId 7 1) 0 C.TIR_F_DESC_LOST (lpn * 4096) 0)

/-! The descriptor cache (R72). -/

/-- Next stamp of least-recently-used order. -/
def State.tick (s : State) : State := { s with stamp := s.stamp + 1 }

/-- The SRAM bank is fenced or being re-admitted: it takes no access (R435). -/
def bankOut (s : State) (bank : Nat) : Bool := s.ftest (SRM_FENCE (bank / 64)) F.SRM_FENCE_FENCED (bank % 64)

/-! Errors of the on-die SRAM (R426). -/

def evSRM (k : Nat) (s : State) : State := s.ev (0x3E0 + k)

/-- Fault source of a bank's quad (R437). -/
def quadSrc (bank : Nat) : Nat := srcId 8 (bank / 4)

/-- SRM_ERRLOG and SRM_STAT note an error; the syndrome is one that the manual does not give. -/
def srmErr (s : State) (bank word : Nat) (ue : Bool) : State :=
  let r := SRM_ERRLOG
  let y := s.free 8
  let s1 := (((y.2.fset r F.SRM_ERRLOG_BANK bank).fset r F.SRM_ERRLOG_WORD word).fset r F.SRM_ERRLOG_SYNDROME y.1).fset r F.SRM_ERRLOG_UE (if ue then 1 else 0)
  let s2 := ((s1.fsat r F.SRM_ERRLOG_COUNT 1).fset r F.SRM_ERRLOG_VALID 1).fset SRM_STAT (if ue then F.SRM_STAT_UE else F.SRM_STAT_CE) 1
  let s3 := ((evSRM (if ue then 1 else 0) s2).irq 9).diagAdd (if ue then dgBANKUE else dgBANKCE) bank 1
  { s3 with reports := s3.reports ++ [{ src := quadSrc bank, elem := bank, code := if ue then C.SRM_F_UE else C.SRM_F_CE, addr := 0, detail := 0, level := some 1, hint := word }] }

/-- A unit of a cache share that an entry leaves keeps its words until the next entry. -/
def unitLeft (t : Tab (BitVec 512)) (u : Nat) (old : Option (BitVec 512)) (gone : Bool) : Tab (BitVec 512) :=
  match old with
  | some d => if gone then tabSet (fun _ => 0) t u d else t
  | none => t

/-- SRAM banks of a descriptor-cache way and of a line-cache way, by their keys (R421, R423). -/
def dcBank (k : Nat) : Nat := 13 * (k / 8192) + 6 + k % 4
def lcBank (k : Nat) : Nat := 13 * (k / 12288) + k % 12288 % 6

/-- A bank of the share's descriptor cache is out of service. -/
def dcHurt (s : State) (sl : Nat) : Bool := (List.range 4).any (fun i => bankOut s (13 * sl + 6 + i))

def dcKey (sl set way : Nat) : Nat := (sl * 512 + set) * 16 + way

def dcAt (s : State) (k : Nat) : Option DcEntry := tabGet (fun _ => none) s.tier.dc k
def dcSetAt (s : State) (k : Nat) (e : Option DcEntry) : State :=
  { s with tier := { s.tier with dc := tabSet (fun _ => none) s.tier.dc k e
                                 left := unitLeft s.tier.left (2 ^ 20 + k) ((dcAt s k).map (·.desc)) e.isNone } }

/-- Search `n` ways from `w` on for the page's entry, or its copy. -/
def dcScan (s : State) (base page : Nat) (copy : Bool) : Nat → Nat → Option (Nat × DcEntry)
  | 0, _ => none
  | n + 1, w =>
    match dcAt s (base + w) with
    | some e => if e.page = page ∧ e.copy = copy then some (w, e) else dcScan s base page copy n (w + 1)
    | none => dcScan s base page copy n (w + 1)

/-- First key of the page's set. -/
def dcBase (page : Nat) : Nat := dcKey (pageSlice page) (dcSet page) 0

/-- The page's way and entry. -/
def dcFind (s : State) (page : Nat) : Option (Nat × DcEntry) := dcScan s (dcBase page) page false 16 0

/-- First key of the page's set in the partner share, and the way of its copy there (R425). -/
def dcCopyBase (page : Nat) : Nat := dcKey (pageSlice page ^^^ 16) (dcSet page) 0
def dcCopyFind (s : State) (page : Nat) : Option (Nat × DcEntry) := dcScan s (dcCopyBase page) page true 16 0

/-- Drop the page's copy. -/
def dcCopyDrop (s : State) (page : Nat) : State := match dcCopyFind s page with
  | some x => dcSetAt s (dcCopyBase page + x.1) none
  | none => s

/-- An unused way of the page's set. -/
def dcFreeWay (s : State) (base : Nat) : Nat → Nat → Option Nat
  | 0, _ => none
  | n + 1, w => match dcAt s (base + w) with
    | none => if bankOut s (dcBank (base + w)) then dcFreeWay s base n (w + 1) else some w
    | some _ => dcFreeWay s base n (w + 1)

/-- Busy ways of the page's set (R75). -/
def dcBusyWays (s : State) (page : Nat) : Nat :=
  ((List.range 16).filter fun w => match dcAt s (dcBase page + w) with
    | some e => e.busy
    | none => false).length

/-- The page's descriptor in the share. -/
def descOf (s : State) (page : Nat) : Option Desc := (dcFind s page).map (fun x => x.2.desc)

def busyOf (s : State) (page : Nat) : Bool := match dcFind s page with
  | some x => x.2.busy
  | none => false

/-- Rewrite the page's cached entry, when it is present. -/
def dcUpd (s : State) (page : Nat) (f : DcEntry → DcEntry) : State :=
  match dcFind s page with
  | some x => dcSetAt s (dcBase page + x.1) (some (f x.2))
  | none => s

/-- Set, or clear, the page's busy bit; the highest count of a set is kept (TIR_BUSYSTAT). -/
def setBusy (s : State) (page : Nat) (b : Bool) : State :=
  let s1 := dcUpd s page (fun e => { e with busy := b })
  if b then { s1 with tier := { s1.tier with busyPeak := max s1.tier.busyPeak (dcBusyWays s1 page) } } else s1

/-- What a page operation that cannot set the busy bit waits for is counted: the bit itself, or one of the set's busy ways (R49, R75). -/
def busyWait (s : State) (page : Nat) : State := s.ev (0x390 + if busyOf s page then 14 else 15)

/-- A page operation may set the page's busy bit now (R49, R75, R435). -/
def canBusy (s : State) (page : Nat) : Bool := !busyOf s page && decide (dcBusyWays s page < (if dcHurt s (pageSlice page) then 9 else 12))

/-- The slot that a descriptor names, when it counts (R190). -/
def usesSlot (d : Desc) : Option (Nat × Nat) :=
  if dHot d ∨ (dState d = stCOLD ∧ 0 < dSize d) then some (dKreg d, dEpoch d) else none

def addUse (s : State) (u : Option (Nat × Nat)) (up : Bool) : State :=
  match u with
  | none => s
  | some (k, e) =>
    let x := s.slot k e
    s.setSlot k e { x with inuse := if up then x.inuse + 1 else x.inuse - 1 }

/-- TIR_LOGLIVE counts the sectors that COLD descriptors name. -/
def addLive (s : State) (d : Desc) (up : Bool) : State :=
  if dState d = stCOLD ∧ 0 < dSize d then
    let r := TIR_LOGLIVE (dSector d / 2 ^ 39)
    let v := s.fget r F.TIR_LOGLIVE_SECTORS
    s.fset r F.TIR_LOGLIVE_SECTORS (if up then v + 8 * dSize d else v - 8 * dSize d)
  else s

/-- A changed descriptor is written to its DRAM copies, and its copy in the partner share is dropped (R425). -/
def dcWriteBack (s : State) (page : Nat) : State :=
  match dcFind s page with
  | none => dcCopyDrop s page
  | some x => dcCopyDrop (dcUpd (descStore s page x.2.desc) page (fun e => { e with changed := false })) page

/-! What a descriptor anchors (R228 to R230). -/

def dirAt (s : State) (k : Nat) : Option DirEntry := tabGet (fun _ => none) s.home.dirEnt k
def dirPutAt (s : State) (k : Nat) (e : Option DirEntry) : State :=
  { s with home := { s.home with dirEnt := tabSet (fun _ => none) s.home.dirEnt k e } }

/-- First key of the line's directory set, and its tag. -/
def dirPlace (s : State) (la : Nat) : Option (Nat × Nat) :=
  match dcFind s (la / 4096) with
  | none => none
  | some x =>
    let ds := dcSet (la / 4096)
    some ((slice la * 4096 + dirSet ds (la / 64 % 64)) * 16, dirTag ds x.1)

def dirScan (s : State) (base tag : Nat) : Nat → Nat → Option (Nat × DirEntry)
  | 0, _ => none
  | n + 1, w =>
    match dirAt s (base + w) with
    | some e => if e.tag = tag then some (base + w, e) else dirScan s base tag n (w + 1)
    | none => dirScan s base tag n (w + 1)

def dirFind (s : State) (la : Nat) : Option (Nat × DirEntry) :=
  match dirPlace s la with
  | some (b, t) => dirScan s b t 16 0
  | none => none

/-- Line addresses of a page. -/
def pageLines (page : Nat) : List Nat := (List.range 64).map (page * 4096 + · * 64)

/-- Some line of the page has a directory entry. -/
def pageAnchors (s : State) (page : Nat) : Bool := (pageLines page).any (fun la => (dirFind s la).isSome)

/-- The page's entry leaves its way, and its copy with it; a changed descriptor is written to both DRAM copies (R72, R425). -/
def dcDrop (s : State) (page : Nat) : State :=
  match dcFind s page with
  | none => s
  | some (w, e) =>
    let s1 := if e.changed ∧ isGuestPage page = false then descStore s page e.desc else s
    dcSetAt (dcCopyDrop s1 page) (dcBase page + w) none

/-- Least recently used entry of a set that is not busy and lies in a bank in service; `free`: one that anchors no directory entry. -/
def dcRoomVictim (s : State) (base : Nat) (free : Bool) : Nat → Nat → Option (Nat × Nat) → Option (Nat × Nat)
  | 0, _, b => b
  | n + 1, w, b =>
    match dcAt s (base + w) with
    | none => dcRoomVictim s base free n (w + 1) b
    | some e =>
      let better := match b with
        | some x => decide (e.stamp < x.2)
        | none => true
      let fit := !e.busy && !e.copy && better && !bankOut s (dcBank (base + w)) && (!free || (!isGuestPage e.page && !pageAnchors s e.page))
      dcRoomVictim s base free n (w + 1) (if fit then some (e.page, e.stamp) else b)

/-- Copies in the set at `base`, and the one placed first. -/
def dcCopies (s : State) (base : Nat) : List DcEntry :=
  (List.range 16).filterMap fun w => (dcAt s (base + w)).filter (·.copy)

def dcOldest : List DcEntry → Option DcEntry
  | [] => none
  | x :: r => match dcOldest r with
    | some y => if y.stamp < x.stamp then some y else some x
    | none => some x

/-- R425: the page's changed entry has a copy in the partner share before its change counts as made. A copy too many has the oldest written back; a full set
gives up its least recently used entry that nothing keeps. DESIGN CHOICE (log entry 170): where there is none, the descriptor goes to its DRAM copies at once
instead. -/
def dcCopy (s : State) (page : Nat) (d : Desc) : State :=
  let base := dcCopyBase page
  match dcCopyFind s page with
  | some x => dcSetAt s (base + x.1) (some { x.2 with desc := d })
  | none =>
    let cs := dcCopies s base
    let s1 := if cs.length < (if dcHurt s (pageSlice page ^^^ 16) then 3 else 4) then s
      else match dcOldest cs with
        | some e => dcWriteBack s e.page
        | none => s
    let s2 := match dcFreeWay s1 base 16 0 with
      | some _ => s1
      | none => match dcRoomVictim s1 base true 16 0 none with
        | some (v, _) => dcDrop s1 v
        | none => s1
    match dcFreeWay s2 base 16 0 with
    | some w => dcSetAt { s2 with stamp := s2.stamp + 1 } (base + w) (some ⟨page, d, false, false, s2.stamp + 1, true⟩)
    | none => dcWriteBack s2 page

/-- Write new content into the page's cached descriptor: the in-use counts and live sectors follow (R74, R190). -/
def putDesc (s : State) (page : Nat) (d : Desc) : State :=
  match dcFind s page with
  | none => s
  | some x =>
    let s1 := addLive (addUse s (usesSlot x.2.desc) false) x.2.desc false
    let s2 := addLive (addUse s1 (usesSlot d) true) d true
    let s3 := dcUpd s2 page (fun e => { e with desc := d, changed := true })
    if dput d 10 8 0 = dput x.2.desc 10 8 0 ∨ isGuestPage page then s3 else dcCopy s3 page d

/-- Touch the page for replacement. -/
def dcTouch (s : State) (page : Nat) : State := dcUpd s.tick page (fun e => { e with stamp := s.stamp + 1 })

/-- Bring the page's descriptor into the share when a way is unused; the page is below L or a guest page (R72, R244). -/
def descFill (s : State) (page : Nat) : State :=
  match dcFind s page with
  | some _ => dcTouch s page
  | none =>
    match dcFreeWay s (dcBase page) 16 0 with
    | none => s
    | some w =>
      if isGuestPage page then
        dcTouch (dcSetAt (s.ev (0x3C0 + 11)) (dcBase page + w) (some ⟨page, 0, false, false, 0, false⟩)) page
      else
        let r := descLoad s page
        dcTouch (dcSetAt r.2 (dcBase page + w) (some ⟨page, r.1, false, false, 0, false⟩)) page

/-- R124: the access counter rises by 1, saturating. -/
def bumpAcc (s : State) (page : Nat) : State :=
  dcUpd s page (fun e => { e with desc := dput e.desc 10 8 (satAdd 8 (dAcc e.desc) 1), changed := true })

/-! The line cache (R119 to R122). -/

def lcKey (sl set way : Nat) : Nat := (sl * 768 + set) * 16 + way

def lcAt (s : State) (k : Nat) : Option LcEntry := tabGet (fun _ => none) s.tier.lc k
def lcPut (s : State) (k : Nat) (e : Option LcEntry) : State :=
  { s with tier := { s.tier with lc := tabSet (fun _ => none) s.tier.lc k e
                                 left := unitLeft s.tier.left k ((lcAt s k).map (·.data)) e.isNone } }

/-- First key of the line's set, and of the partner share's set (R121). -/
def lcBase (la : Nat) : Nat := lcKey (slice la) (lcSet la) 0
def lcCopyBase (la : Nat) : Nat := lcKey (slice la ^^^ 16) (lcSet la) 0

def lcScan (s : State) (base line : Nat) (copy : Bool) : Nat → Nat → Option (Nat × LcEntry)
  | 0, _ => none
  | n + 1, w =>
    match lcAt s (base + w) with
    | some e => if e.line = line ∧ e.copy = copy then some (base + w, e) else lcScan s base line copy n (w + 1)
    | none => lcScan s base line copy n (w + 1)

/-- The line's key and entry in its share; its copy's in the partner share. -/
def lcFind (s : State) (la : Nat) : Option (Nat × LcEntry) := lcScan s (lcBase la) (la / 64) false 16 0
def copyFind (s : State) (la : Nat) : Option (Nat × LcEntry) := lcScan s (lcCopyBase la) (la / 64) true 16 0

/-- The line's cached instance: its own way or, where that was lost, its copy (R123). -/
def cachedLine (s : State) (la : Nat) : Option LcEntry := match lcFind s la with
  | some x => some x.2
  | none => (copyFind s la).map (·.2)

/-- Drop the line's copy (R122). -/
def dropCopy (s : State) (la : Nat) : State :=
  match copyFind s la with
  | some x => lcPut s x.1 none
  | none => s

/-- The way is fenced: its bank is out of service (R435). -/
def lcWayOut (s : State) (k : Nat) : Bool := bankOut s (lcBank k)

/-- Ways of a set in the order of `w`: unused first, then the least recently used that meets `p`. -/
def lcPick (s : State) (base : Nat) (p : LcEntry → Bool) : Nat → Nat → Option (Nat × Nat) → Option (Nat × Nat)
  | 0, _, best => best
  | n + 1, w, best =>
    let k := base + w
    if lcWayOut s k then lcPick s base p n (w + 1) best
    else
      let cand : Option Nat := match lcAt s k with
        | none => some 0
        | some e => if p e then some (e.stamp + 1) else none
      let best' := match cand, best with
        | some v, some b => if v < b.2 then some (k, v) else some b
        | some v, none => some (k, v)
        | none, b => b
      lcPick s base p n (w + 1) best'

/-- Key of the way that a fill takes: unused, or the least recently used Clean way (R120). -/
def lcCleanWay (s : State) (base : Nat) : Option Nat := (lcPick s base (fun e => e.st == .clean && !e.copy) 16 0 none).map (·.1)

/-- Key of the way that a write takes among all evictable ways (R120). -/
def lcEvictWay (s : State) (base : Nat) : Option Nat := (lcPick s base (fun e => e.st != .held && !e.copy) 16 0 none).map (·.1)

end Sys2Proof.Machine
end

