-- ==== Sys2Proof/Machine/Pleat.lean ====
section
/-! DEFINITION. Pleat (chapter 05): the bit-exact page and stream formats, their decoders (R156, R163, R166, R171), the encoder of
EFFORT 0 and 1 (R604) and the stream jobs (R172 to R176). A bit stream is a number whose bit n is bit n of the stream (R149). -/

namespace Sys2Proof.Machine

/-- A decode error: the status, the segment and the word index within it (PLT_ERR.SEG, WORD). DESIGN CHOICE (log entry 126, R186): an error of a header or a
table block has segment 0, one after the last segment has segment 7, or the count of the block's segments modulo 8; both have word 0. -/
structure PErr where
  code : Nat
  seg : Nat
  word : Nat
  deriving DecidableEq, Repr

/-- Words are 64 bits, little-endian in their bytes (R149). -/
def wordsOf (b : Bytes) : List Nat := (chunk 8 (b.length / 8 + 1) b).map leNat

def bytesOfWords (w : List Nat) : Bytes := w.flatMap (leBytes 8)

/-! Prefix codes (R164 to R166). -/

/-- One code: symbol, length, code value sent most significant bit first. -/
structure PCode where
  sym : Nat
  len : Nat
  code : Nat
  deriving DecidableEq, Repr

/-- Lengths of the static code (R164). -/
def staticLen (s : Nat) : Nat :=
  if s = 0 then 2 else if s ≤ 2 then 3 else if s = 66 then 3 else if s ≤ 6 then 4 else if s ≤ 8 then 5
  else if s ≤ 10 then 6 else if s ≤ 12 then 7 else if s ≤ 22 then 11 else 12

/-- Symbols of length `l` from symbol `s` on, with codes from `nx`. -/
def canonAt (len : Nat → Nat) (l : Nat) : Nat → Nat → Nat → List PCode × Nat
  | 0, _, nx => ([], nx)
  | n + 1, s, nx =>
    if len s = l then
      let r := canonAt len l n (s + 1) (nx + 1)
      (⟨s, l, nx % 65536⟩ :: r.1, r.2)
    else canonAt len l n (s + 1) nx

def canonFrom (len : Nat → Nat) : Nat → Nat → Nat → List PCode
  | 0, _, _ => []
  | n + 1, l, nx => let r := canonAt len l 68 0 nx; r.1 ++ canonFrom len n (l + 1) (2 * r.2)

/-- The canonical construction of R166. -/
def canonical (len : Nat → Nat) (maxlen : Nat) : List PCode := canonFrom len maxlen 1 0

/-- The static code of R164. -/
def staticCode : List PCode := canonical staticLen 12

/-! The bit reader. -/

/-- A bit stream with its limit in bits. -/
structure BitSrc where
  data : Nat
  limit : Nat
  deriving DecidableEq, Repr

def BitSrc.ofBytes (b : Bytes) : BitSrc := ⟨leNat b, 8 * b.length⟩

/-- `fixed(n)` of R163. -/
def BitSrc.fixed (s : BitSrc) (pos n : Nat) : Option Nat :=
  if pos + n ≤ s.limit then some ((s.data >>> pos) % 2 ^ n) else none

/-- `symbol()` of R163: lengths `l` on, `n` more bits allowed. -/
def BitSrc.symLoop (s : BitSrc) (tbl : List PCode) : Nat → Nat → Nat → Nat → Except Nat (Nat × Nat)
  | 0, _, _, _ => .error C.PLT_E_ILLEGAL_CODE
  | n + 1, l, c, pos =>
    match s.fixed pos 1 with
    | none => .error C.PLT_E_INPUT_END
    | some b =>
      let c' := 2 * c + b
      match tbl.find? (fun e => e.len == l && e.code == c') with
      | some e => .ok (e.sym, pos + 1)
      | none => s.symLoop tbl n (l + 1) c' (pos + 1)

/-- A code table with its longest length. -/
structure PTable where
  codes : List PCode
  maxlen : Nat
  deriving DecidableEq, Repr

def staticTable : PTable := ⟨staticCode, 12⟩

def BitSrc.symbol (s : BitSrc) (t : PTable) (pos : Nat) : Except Nat (Nat × Nat) := s.symLoop t.codes t.maxlen 1 0 pos

/-- `value()` of R163 for a class symbol. -/
def BitSrc.value (s : BitSrc) (pos sym : Nat) : Except Nat (Nat × Nat) :=
  if sym = 0 then .ok (0, pos)
  else match s.fixed pos (sym - 1) with
    | some e => .ok (2 ^ (sym - 1) + e, pos + (sym - 1))
    | none => .error C.PLT_E_INPUT_END

/-! Prediction (R159). The history is newest first and starts at the history start. -/

def histAt (h : List Nat) (k : Nat) : Nat := h.getD (k - 1) 0

def zigzag (r : Nat) : Nat := if r < 2 ^ 63 then 2 * r else 2 ^ 65 - 1 - 2 * r
def unzigzag (v : Nat) : Nat := if v % 2 = 0 then v / 2 else 2 ^ 64 - 1 - v / 2

def rebuild (pred : Nat) (h : List Nat) (v : Nat) : Nat :=
  if pred = 0 then v
  else if pred = 1 then (histAt h 1 + unzigzag v) % 2 ^ 64
  else (histAt h (2 ^ (pred - 2)) ^^^ v) % 2 ^ 64

/-- Encoder side of R159. -/
def predicted (pred : Nat) (h : List Nat) (w : Nat) : Nat :=
  if pred = 0 then w
  else if pred = 1 then zigzag ((w + 2 ^ 64 - histAt h 1) % 2 ^ 64)
  else histAt h (2 ^ (pred - 2)) ^^^ w

/-- Copy `n` words from distance `d` (R162). -/
def repeatCopy (d : Nat) : Nat → List Nat → List Nat
  | 0, h => h
  | n + 1, h => repeatCopy d n (histAt h d :: h)

/-! The segment decoder (R163). `left` words are still to come; the history `h` grows with each. -/

def segTokens (s : BitSrc) (t : PTable) (pred nw : Nat) (stream : Bool) : Nat → Nat → Nat → List Nat → Except PErr (Nat × List Nat)
  | 0, pos, _, h => .ok (pos, h)
  | f + 1, pos, left, h =>
    if left = 0 then .ok (pos, h)
    else
      let err := fun c => (Except.error ⟨c, 0, nw - left⟩ : Except PErr (Nat × List Nat))
      match s.symbol t pos with
      | .error c => err c
      | .ok (sym, p1) =>
        if sym ≤ 64 then
          match s.value p1 sym with
          | .error c => err c
          | .ok (v, p2) => segTokens s t pred nw stream f p2 (left - 1) (rebuild pred h v :: h)
        else if sym = 65 then
          match s.symbol t p1 with
          | .error c => err c
          | .ok (s2, p2) =>
            if 64 < s2 then err C.PLT_E_ILLEGAL_CODE
            else match s.value p2 s2 with
              | .error c => err c
              | .ok (v, p3) => segTokens s t pred nw stream f p3 (left - 1) (v :: h)
        else if sym = 66 then
          match s.fixed p1 6, s.fixed (p1 + 6) 6 with
          | some d, some m =>
            if d = 0 then err C.PLT_E_ILLEGAL_CODE
            else if h.length < d then err C.PLT_E_DIST_BEYOND
            else if left < m + 1 then err C.PLT_E_LEN_OVERRUN
            else segTokens s t pred nw stream f (p1 + 12) (left - (m + 1)) (repeatCopy d (m + 1) h)
          | _, _ => err C.PLT_E_INPUT_END
        else err (if stream then C.PLT_E_LEN_SHORT else C.PLT_E_ILLEGAL_CODE)

def segStored (s : BitSrc) (nw : Nat) : Nat → Nat → List Nat → Except PErr (Nat × List Nat)
  | 0, pos, h => .ok (pos, h)
  | n + 1, pos, h =>
    match s.fixed pos 64 with
    | some w => segStored s nw n (pos + 64) (w :: h)
    | none => .error ⟨C.PLT_E_INPUT_END, 0, nw - (n + 1)⟩

/-- `decode_segment`: from bit `pos`, `nw` words, history `h`; answers the next bit and the longer history. -/
def decodeSegment (s : BitSrc) (t : PTable) (nw : Nat) (stream : Bool) (pos : Nat) (h : List Nat) : Except PErr (Nat × List Nat) :=
  match s.fixed pos 8 with
  | none => .error ⟨C.PLT_E_INPUT_END, 0, 0⟩
  | some hd =>
    if 16 ≤ hd then .error ⟨C.PLT_E_ILLEGAL_CODE, 0, 0⟩
    else if hd = 7 then .ok (pos + 8, List.replicate nw 0 ++ h)
    else if hd = 6 then segStored s nw nw ((pos + 8 + 7) / 8 * 8) h
    else if 7 < hd then .error ⟨C.PLT_E_ILLEGAL_CODE, 0, 0⟩
    else segTokens s t hd nw stream nw (pos + 8) nw h

/-- One cold-read segment (R127, R157): the 64 words of a span under the static code, and the bit of the span after its last one. -/
def decodeColdAt (span : Bytes) : Except PErr (List Nat × Nat) :=
  match decodeSegment (BitSrc.ofBytes span) staticTable 64 false 0 [] with
  | .ok (pos, h) => .ok (h.reverse, pos)
  | .error e => .error e

/-- The 64 words of a cold-read segment. -/
def decodeColdSegment (span : Bytes) : Except PErr (List Nat) := (decodeColdAt span).map (·.1)

/-! Table blocks (R165, R166). -/

def tableLens (blk : Nat) (s : Nat) : Nat := if s < 68 then (blk >>> (4 * s)) % 16 else 0

/-- Check a 40-byte table block; answer its table. -/
def readTable (b : Bytes) : Except Nat PTable :=
  let blk := leNat b
  let len := tableLens blk
  let maxlen := (blk >>> 272) % 16
  let lens := (List.range 68).map len
  if crc32c (b.take 38) % 65536 ≠ (blk >>> 304) % 65536 then .error C.PLT_E_HDR_CRC
  else if (blk >>> 276) % 2 ^ 28 ≠ 0 then .error C.PLT_E_BAD_HEADER
  else if maxlen = 0 ∨ lens.foldl max 0 ≠ maxlen then .error C.PLT_E_ILLEGAL_CODE
  else if (lens.take 65).all (· == 0) then .error C.PLT_E_ILLEGAL_CODE
  else if 2 ^ maxlen < (lens.map fun l => if l = 0 then 0 else 2 ^ (maxlen - l)).foldl (· + ·) 0 then .error C.PLT_E_ILLEGAL_CODE
  else .ok ⟨canonical len maxlen, maxlen⟩

/-! Page images (R151 to R156). -/

/-- The fields of the page header. -/
structure PageHdr where
  crc : Nat
  segoff : List Nat
  size : Nat
  dyn : Bool
  deriving DecidableEq, Repr

def pageHdrBytes (p : PageHdr) : Bytes :=
  let so := (List.range 8).foldl (fun a i => a + (p.segoff.getD i 0 % 512) <<< (9 * i)) 0
  let v := p.crc + so <<< 32 + (p.size % 8) <<< 104 + (if p.dyn then 2 ^ 107 else 0) + 1 <<< 108
  let b := leBytes 14 v
  b ++ leBytes 2 (crc32c b % 65536)

def increasing : List Nat → Bool
  | a :: b :: r => a < b && increasing (b :: r)
  | _ => true

/-- R71 and R153: offsets of a stored page. -/
def segoffOk (segoff : List Nat) (size : Nat) : Bool := increasing segoff && segoff.getLastD 0 < 64 * size

def readPageHdr (b : Bytes) : Except Nat PageHdr :=
  let v := leNat (b.take 16)
  let p : PageHdr := ⟨v % 2 ^ 32, (List.range 8).map fun i => (v >>> (32 + 9 * i)) % 512, (v >>> 104) % 8, (v >>> 107) % 2 = 1⟩
  if b.length < 16 then .error C.PLT_E_INPUT_END
  else if crc32c (b.take 14) % 65536 ≠ (v >>> 112) % 65536 then .error C.PLT_E_HDR_CRC
  else if (v >>> 108) % 16 ≠ 1 then .error C.PLT_E_BAD_HEADER
  else if p.size = 0 then
    if p.crc = 0 ∧ p.segoff.all (· == 0) ∧ p.dyn = false then .ok p else .error C.PLT_E_BAD_HEADER
  else if p.segoff.getD 0 0 ≠ (if p.dyn then 7 else 2) ∨ segoffOk p.segoff p.size = false then .error C.PLT_E_BAD_HEADER
  else .ok p

/-- Segments `i` on of a page; the second component is the bit after the last one, from byte 0 of the header. -/
def pageSegs (img : Bytes) (p : PageHdr) (t : PTable) : Nat → Nat → Except PErr (List Nat × Nat)
  | 0, _ => .ok ([], 0)
  | n + 1, i =>
    let a := 8 * p.segoff.getD i 0
    let e := if i = 7 then 512 * p.size else 8 * p.segoff.getD (i + 1) 0
    match decodeSegment (BitSrc.ofBytes ((img.take e).drop a)) t 64 false 0 [] with
    | .error x => .error ⟨x.code, i, x.word⟩
    | .ok (pos, h) =>
      if n = 0 then .ok (h.reverse, 8 * a + pos)
      else match pageSegs img p t n (i + 1) with
        | .error x => .error x
        | .ok (w, q) => .ok (h.reverse ++ w, q)

/-- The full page decode of R156 on an image of the given length. -/
def decodePage (img : Bytes) : Except PErr Bytes :=
  match readPageHdr img with
  | .error c => .error ⟨c, 0, 0⟩
  | .ok p =>
    if p.size = 0 then .ok (List.replicate 4096 0)
    else
      let tbl := if p.dyn then (if img.length < 56 then .error C.PLT_E_INPUT_END else readTable ((img.drop 16).take 40)) else .ok staticTable
      match tbl with
      | .error c => .error ⟨c, 0, 0⟩
      | .ok t =>
        match pageSegs img p t 8 0 with
        | .error x => .error x
        | .ok (w, q) =>
          let tt := (q + 63) / 64 * 8
          let out := bytesOfWords w
          if (tt + 511) / 512 ≠ p.size then .error ⟨C.PLT_E_BAD_HEADER, 7, 0⟩
          else if crc32c out ≠ p.crc then .error ⟨C.PLT_E_DATA_CRC, 7, 0⟩
          else .ok out

/-! The encoder of EFFORT 0 and 1 (R604). Its output is a list of (value, bits), least significant bit first. -/

/-- Significant bits of `v`: 64 − clz(v). -/
def sigBits (v : Nat) : Nat := if v = 0 then 0 else Nat.log2 v + 1

def classCost (v : Nat) : Nat := let c := sigBits v; staticLen c + (c - 1)

/-- Reverse the `n` low bits, so that a code goes out most significant bit first. -/
def revBits : Nat → Nat → Nat
  | 0, _ => 0
  | n + 1, c => (c % 2) * 2 ^ n + revBits n (c / 2)

def emitSym (s : Nat) : List (Nat × Nat) :=
  match staticCode.find? (fun e => e.sym == s) with
  | some e => [(revBits e.len e.code, e.len)]
  | none => []

def emitClass (v : Nat) : List (Nat × Nat) :=
  let c := sigBits v
  emitSym c ++ (if 2 ≤ c then [(v - 2 ^ (c - 1), c - 1)] else [])

/-- The single forms of each word of a segment: (cost, predicted value, literal?). -/
def singles (pred : Nat) : List Nat → List Nat → List (Nat × Nat × Bool)
  | _, [] => []
  | h, w :: r =>
    let v := predicted pred h w
    let cp := classCost v
    let cl := 12 + classCost w
    (if cp ≤ cl then (cp, v, false) else (cl, w, true)) :: singles pred (w :: h) r

/-- Length of the common prefix. -/
def commonPrefix : List Nat → List Nat → Nat
  | a :: x, b :: y => if a = b then commonPrefix x y + 1 else 0
  | _, _ => 0

/-- `L(d)` of R604. -/
def runLen (d : Nat) (h r : List Nat) : Nat := min 64 (commonPrefix ((h.take d).reverse ++ r) r)

/-- The largest run and its smallest distance, over distances `d` on. -/
def bestRun (h r : List Nat) : Nat → Nat → Nat × Nat
  | 0, _ => (0, 0)
  | n + 1, d =>
    if h.length < d then (0, 0)
    else
      let l := runLen d h r
      let b := bestRun h r n (d + 1)
      if b.1 ≤ l then (l, d) else b

/-- Move the first `n` words of `r` into the history. -/
def moveHist : Nat → List Nat → List Nat → List Nat × List Nat
  | n + 1, h, w :: r => moveHist n (w :: h) r
  | _, h, r => (h, r)

/-- The parse of R604: tokens as (value, bits). -/
def parseSeg (maxd : Nat) : Nat → List Nat → List Nat → List (Nat × Nat × Bool) → List (Nat × Nat)
  | 0, _, _, _ => []
  | f + 1, h, r, cs =>
    match r, cs with
    | w :: r', c :: cs' =>
      let b := bestRun h r maxd 1
      if 1 ≤ b.1 ∧ 15 < ((cs.take b.1).map (·.1)).foldl (· + ·) 0 then
        let m := moveHist b.1 h r
        emitSym 66 ++ [(b.2, 6), (b.1 - 1, 6)] ++ parseSeg maxd f m.1 m.2 (cs.drop b.1)
      else
        (if c.2.2 then emitSym 65 ++ emitClass c.2.1 else emitClass c.2.1) ++ parseSeg maxd f (w :: h) r' cs'
    | _, _ => []

def bitCost (l : List (Nat × Nat)) : Nat := (l.map (·.2)).foldl (· + ·) 0

/-- Bits that align position `pos` to a byte. -/
def alignBits (pos : Nat) : Nat := (8 - pos % 8) % 8

/-- Encode one segment at bit `pos` of the stream, after history `h` (R604, R178). -/
def encodeSegment (effort pos : Nat) (h w : List Nat) : List (Nat × Nat) :=
  if w.all (· == 0) then [(7, 8)]
  else
    let maxd := if effort = 0 then 8 else 63
    let preds := if effort = 0 then [0, 1, 2] else [0, 1, 2, 3, 4, 5]
    let al := alignBits (pos + 8)
    let cands : List (Nat × Nat) := preds.map (fun p => (p, 8 + bitCost (parseSeg maxd w.length h w (singles p h w))))
      ++ [(6, 8 + al + 64 * w.length)]
    let best := cands.foldl (fun b c => if c.2 < b.2 then c else b) (cands.headD (6, 0))
    if best.1 = 6 then (6, 8) :: (0, al) :: w.map (fun x => (x, 64))
    else (best.1, 8) :: parseSeg maxd w.length h w (singles best.1 h w)

/-- The number made of a list of (value, bits), least significant first. -/
def packBits : List (Nat × Nat) → Nat
  | [] => 0
  | (v, n) :: r => v + 2 ^ n * packBits r

/-- Segments of a page, each on its own 8-byte boundary: (offset in units, bytes). -/
def pageEncSegs (effort : Nat) : Nat → Nat → List Nat → List (Nat × Bytes)
  | 0, _, _ => []
  | n + 1, u, w =>
    let t := encodeSegment effort 0 [] (w.take 64)
    let len := (bitCost t + 63) / 64
    (u, leBytes (8 * len) (packBits t)) :: pageEncSegs effort n (u + len) (w.drop 64)

/-- What a page encode yields. -/
structure PageImage where
  hdr : PageHdr
  image : Bytes
  deriving DecidableEq, Repr

/-- The page encoder at EFFORT 0 or 1: none when the image has no gain (R155). -/
def encodePageStatic (effort : Nat) (page : Bytes) : Option PageImage :=
  if page.all (· == 0) then
    let h : PageHdr := ⟨0, List.replicate 8 0, 0, false⟩
    some ⟨h, pageHdrBytes h⟩
  else
    let segs := pageEncSegs effort 8 2 (wordsOf page)
    let body := segs.flatMap (·.2)
    let t := 16 + body.length
    if 3584 < t then none
    else
      let size := (t + 511) / 512
      let h : PageHdr := ⟨crc32c page, segs.map (·.1), size, false⟩
      some ⟨h, pageHdrBytes h ++ body ++ List.replicate (512 * size - t) 0⟩

/-- A table block is one that the encoder may write: no code is longer than `maxlen`, or 7 if that is more (R604, R186). -/
def tableFits (maxlen : Nat) (b : Bytes) : Bool := match readTable b with
  | .ok t => decide (t.maxlen ≤ max 7 maxlen)
  | .error _ => false

/-- Segments `i` on of an image, each with zeros from its last bit to where the next begins, or to 512 × SIZE (R151). -/
def tidySegs (img : Bytes) (p : PageHdr) (t : PTable) : Nat → Nat → Bytes
  | 0, _ => []
  | n + 1, i =>
    let a := 8 * p.segoff.getD i 0
    let e := if i = 7 then 512 * p.size else 8 * p.segoff.getD (i + 1) 0
    let span := (img.take e).drop a
    (match decodeSegment (BitSrc.ofBytes span) t 64 false 0 [] with
      | .ok (pos, _) => leBytes (e - a) (leNat span % 2 ^ pos)
      | .error _ => span) ++ tidySegs img p t n (i + 1)

/-- A dynamic image with its gaps and its padding zero, as R151 has them. -/
def tidyPage (img : Bytes) (p : PageHdr) : Bytes :=
  match readTable ((img.drop 16).take 40) with
  | .ok t => img.take 56 ++ tidySegs img p t 8 0
  | .error _ => img

/-- The page encoder: at EFFORT 2 and 3 the B0 encoder's own bytes (a free value), a dynamic image (R179) within the bounds of R604, its gaps and padding
zero (R151); where it gives none within them, the page has no gain. -/
def encodePage (effort maxlen : Nat) (page : Bytes) : Option PageImage :=
  if effort < 2 ∨ page.all (· == 0) then encodePageStatic effort page
  else match Config.pleatPage effort maxlen page with
    | none => none
    | some img =>
      match readPageHdr img, decodePage img with
      | .ok h, .ok out => if out = page ∧ img.length = 512 * h.size ∧ h.dyn ∧ tableFits maxlen ((img.drop 16).take 40) then some ⟨h, tidyPage img h⟩ else none
      | _, _ => none

/-! Stream mode (R167 to R176). -/

/-- A block header. -/
structure BlockHdr where
  btype : Nat
  flush : Bool
  ulen : Nat
  clen : Nat
  ucrc : Nat
  deriving DecidableEq, Repr

def blockHdrBytes (h : BlockHdr) : Bytes :=
  let v := h.btype % 16 + (if h.flush then 16 else 0) + (h.ulen % 2 ^ 17) <<< 8 + (h.clen % 2 ^ 17) <<< 25 + h.ucrc <<< 64
  let b := leBytes 14 v
  b ++ leBytes 2 (crc32c b % 65536)

/-- Checks 1 to 3 of R171. -/
def readBlockHdr (b : Bytes) : Except Nat BlockHdr :=
  let v := leNat (b.take 16)
  let h : BlockHdr := ⟨v % 16, (v >>> 4) % 2 = 1, (v >>> 8) % 2 ^ 17, (v >>> 25) % 2 ^ 17, (v >>> 64) % 2 ^ 32⟩
  if crc32c (b.take 14) % 65536 ≠ (v >>> 112) % 65536 then .error C.PLT_E_HDR_CRC
  else if h.btype ≠ 1 ∧ h.btype ≠ 2 ∧ h.btype ≠ 3 ∧ h.btype ≠ 15 then .error C.PLT_E_ILLEGAL_CODE
  else if (v >>> 5) % 8 ≠ 0 ∨ (v >>> 42) % 2 ^ 22 ≠ 0 ∨ (v >>> 96) % 2 ^ 16 ≠ 0 then .error C.PLT_E_BAD_HEADER
  else if 65536 < h.ulen ∨ (h.btype = 3 ∧ h.clen ≠ h.ulen) then .error C.PLT_E_BAD_HEADER
  else if h.btype = 15 ∧ (h.ulen ≠ 0 ∨ h.clen ≠ 0) then .error C.PLT_E_BAD_HEADER
  else .ok h

/-- Segments of a stream block: `nw` words left, segment number `k`. -/
def blockSegs (s : BitSrc) (t : PTable) : Nat → Nat → Nat → Nat → List Nat → Except PErr (Nat × List Nat)
  | 0, _, _, pos, h => .ok (pos, h)
  | f + 1, k, nw, pos, h =>
    if nw = 0 then .ok (pos, h)
    else match decodeSegment s t (min 64 nw) true pos h with
      | .error e => .error ⟨e.code, k % 8, e.word⟩
      | .ok (p, h') => blockSegs s t f (k + 1) (nw - min 64 nw) p h'

/-- A dynamic body of `ulen` bytes cut after the byte that holds the last bit of END, with zeros after that bit and in the last word (R169); none: it is
no such body. -/
def tidyBody (ulen : Nat) (body : Bytes) : Option Bytes :=
  match readTable (body.take 40) with
  | .error _ => none
  | .ok t =>
    let src := BitSrc.ofBytes (body.drop 40)
    let nw := (ulen + 7) / 8
    match blockSegs src t (nw / 64 + 1) 0 nw 0 [] with
    | .error _ => none
    | .ok (pos, hist) =>
      match src.symbol t pos with
      | .ok (67, q) =>
        if ((bytesOfWords hist.reverse).drop ulen).all (· == 0) then some (body.take 40 ++ leBytes ((q + 7) / 8) (src.data % 2 ^ q)) else none
      | _ => none

/-- Checks 4 to 7 of R171 on the body of a block. -/
def decodeBody (h : BlockHdr) (body : Bytes) : Except PErr Bytes :=
  let fin := fun (out : Bytes) => if crc32c out ≠ h.ucrc then (Except.error ⟨C.PLT_E_DATA_CRC, 0, 0⟩ : Except PErr Bytes) else .ok out
  if h.btype = 15 then (if h.ucrc ≠ 0 then .error ⟨C.PLT_E_DATA_CRC, 0, 0⟩ else .ok [])
  else if h.btype = 3 then fin (body.take h.ulen)
  else
    let tbl := if h.btype = 2 then (if body.length < 40 then .error C.PLT_E_INPUT_END else readTable (body.take 40)) else .ok staticTable
    match tbl with
    | .error c => .error ⟨c, 0, 0⟩
    | .ok t =>
      let src := BitSrc.ofBytes (body.drop (if h.btype = 2 then 40 else 0))
      let nw := (h.ulen + 7) / 8
      match blockSegs src t (nw / 64 + 1) 0 nw 0 [] with
      | .error e => .error e
      | .ok (pos, hist) =>
        match src.symbol t pos with
        | .error c => .error ⟨c, ((nw + 63) / 64) % 8, 0⟩
        | .ok (sy, _) =>
          if sy ≠ 67 then .error ⟨C.PLT_E_LEN_OVERRUN, ((nw + 63) / 64) % 8, 0⟩
          else fin ((bytesOfWords hist.reverse).take h.ulen)

/-- The bit stream of a block's segments under the static code (R169, R604). -/
def encBlockSegs (effort : Nat) : Nat → Nat → List Nat → List Nat → List (Nat × Nat)
  | 0, _, _, _ => []
  | f + 1, pos, h, w =>
    if w.isEmpty then []
    else
      let seg := w.take 64
      let t := encodeSegment effort pos h seg
      t ++ encBlockSegs effort f (pos + bitCost t) (seg.reverse ++ h) (w.drop 64)

/-- Pad a byte string to a multiple of 8. -/
def pad8 (b : Bytes) : Bytes := b ++ List.replicate ((8 - b.length % 8) % 8) 0

/-- The static-coded body of a block. -/
def staticBody (effort : Nat) (d : Bytes) : Bytes :=
  let w := wordsOf (pad8 d)
  let t := encBlockSegs effort (w.length / 64 + 1) 0 [] w ++ emitSym 67
  leBytes ((bitCost t + 7) / 8) (packBits t)

/-- One block for the bytes `d`: coded, or stored when the coded body is not shorter (R174). -/
def encodeBlock (effort maxlen : Nat) (flush : Bool) (d : Bytes) : Bytes :=
  let mk := fun ty (body : Bytes) => blockHdrBytes ⟨ty, flush, d.length, body.length, crc32c d⟩ ++ pad8 body
  let sb := fun e => let b := staticBody e d; if d.length ≤ b.length then mk 3 d else mk 1 b
  if effort < 2 then sb effort
  else
    let b := (tidyBody d.length (Config.pleatBlock effort maxlen d)).getD []
    match decodeBody ⟨2, flush, d.length, b.length, crc32c d⟩ b with
    | .ok out => if out = d ∧ b.length < d.length ∧ tableFits maxlen (b.take 40) then mk 2 b else mk 3 d
    | .error _ => mk 3 d

/-- The end block (R170). -/
def endBlock : Bytes := blockHdrBytes ⟨15, true, 0, 0, 0⟩

/-- What a stream job yields. -/
structure StreamRes where
  consumed : Nat
  out : Bytes
  status : Nat
  sawEnd : Bool
  /-- Segments decoded, and bytes that the failing block has left unspecified after those of `out` (R176). -/
  segs : Nat
  spoil : Nat
  deriving DecidableEq, Repr

/-- Full and last blocks of a compression job (R173, R175). -/
def streamCompLoop (effort maxlen bsize cap : Nat) (flush finish : Bool) : Nat → Bytes → StreamRes → StreamRes
  | 0, _, r => r
  | f + 1, src, r =>
    if src.length < bsize ∧ (src.isEmpty ∨ (flush = false ∧ finish = false)) then
      if finish then
        if cap < r.out.length + 16 then { r with status := C.PLT_W_PARTIAL }
        else { r with out := r.out ++ endBlock, sawEnd := true }
      else r
    else
      let d := src.take bsize
      let b := encodeBlock effort maxlen (d.length < bsize) d
      if cap < r.out.length + b.length then { r with status := C.PLT_W_PARTIAL }
      else streamCompLoop effort maxlen bsize cap flush finish f (src.drop bsize)
        { r with consumed := r.consumed + d.length, out := r.out ++ b }

/-- A stream compression job (R172). -/
def streamCompress (effort maxlen bsize cap : Nat) (flush finish : Bool) (src : Bytes) : StreamRes :=
  if 3 < effort ∨ bsize < 512 ∨ 65536 < bsize ∨ bsize % 512 ≠ 0 ∨ 2 ^ 30 < src.length then ⟨0, [], C.PLT_E_BAD_JOB, false, 0, 0⟩
  else streamCompLoop effort maxlen bsize cap flush finish (src.length / bsize + 2) src ⟨0, [], 0, false, 0, 0⟩

/-- Blocks of a decompression job (R175, R176); the error found, if any, goes with the result. The destination bytes of a block whose body fails are
unspecified: `spoil` counts them, and they become free values (log entry 130). -/
def streamDecLoop (cap : Nat) : Nat → Bytes → StreamRes → StreamRes × Option PErr
  | 0, _, r => (r, none)
  | f + 1, src, r =>
    if src.isEmpty then (r, none)
    else if src.length < 16 then ({ r with status := C.PLT_W_PARTIAL }, none)
    else match readBlockHdr src with
      | .error c => ({ r with status := c }, some ⟨c, 0, 0⟩)
      | .ok h =>
        let len := 16 + (h.clen + 7) / 8 * 8
        if src.length < len ∨ cap < r.out.length + h.ulen then ({ r with status := C.PLT_W_PARTIAL }, none)
        else match decodeBody h ((src.drop 16).take h.clen) with
          | .error e => ({ r with status := e.code, spoil := h.ulen }, some e)
          | .ok d =>
            let r' := { r with consumed := r.consumed + len, out := r.out ++ d, segs := r.segs + (if h.btype = 3 then 0 else (h.ulen + 511) / 512) }
            if h.btype = 15 then ({ r' with sawEnd := true }, none)
            else streamDecLoop cap f (src.drop len) r'

/-- A stream decompression job (R176). -/
def streamDecompress (cap : Nat) (src : Bytes) : StreamRes × Option PErr :=
  streamDecLoop cap (src.length / 16 + 1) src ⟨0, [], 0, false, 0, 0⟩

end Sys2Proof.Machine
end

