-- ==== Sys2Proof/Machine/Tier.lean ====
section
/-! DEFINITION. The tiers (chapters 04 and 06): frame supply, reads by tier, cold segments and parity, write-backs, re-encryption, epoch switch, promotion,
relocation, the cold log and its journal. Each operation is one step of the device and answers the state after it. -/

namespace Sys2Proof.Machine

/-! Small records. -/

def evTIR (k : Nat) (s : State) : State := s.ev (0x390 + k)

/-- TIR_F_NOT_STORED, level 1, TIR instance 1 (R55, R66). -/
def notStored (la : Nat) (s : State) : State := s.reportAt 1 (srcId 7 1) 0 C.TIR_F_NOT_STORED la 0

/-- KEY_E_NO_KEY, level 1 (R194). -/
def noKeyReport (k la : Nat) (s : State) : State := s.reportAt 1 (srcId 5 127) k C.KEY_E_NO_KEY la 0

/-- Twelve channels of a group. -/
def groupChans (g : Nat) : List Nat := (List.range 12).map (12 * g + ·)

/-- Channels of the group that cannot take writes. -/
def chansOut (s : State) (g : Nat) : List Nat := (groupChans g).filter (fun c => !canWrite s c)

/-- The Pleat unit that serves channel `c`: its own, or the next of its group in service (R184). -/
def pltUnitFrom (s : State) (c : Nat) : Nat → Nat → Nat
  | 0, _ => c
  | n + 1, k =>
    let u := c / 12 * 12 + (c % 12 + k) % 12
    if s.fget (PLT_STAT u) F.PLT_STAT_FENCED = 0 then u else pltUnitFrom s c n (k + 1)

def pltUnit (s : State) (c : Nat) : Nat := pltUnitFrom s c 12 0

/-- The cipher unit that serves channel `c`: its own, or the next of its group in service (R217). -/
def cuUnitFrom (s : State) (c : Nat) : Nat → Nat → Nat
  | 0, _ => c
  | n + 1, k =>
    let u := c / 12 * 12 + (c % 12 + k) % 12
    if s.ftest KEY_STAT F.KEY_STAT_CU_FENCED u then cuUnitFrom s c n (k + 1) else u

/-- An operation of channel `c`'s cipher unit; one that a stand-in carries is counted (R217). -/
def cuUse (c : Nat) (s : State) : State :=
  let u := cuUnitFrom s c 12 0
  let s1 := s.diagAdd dgCUCMP u 1
  if u = c then s1 else s1.ev (0x2E1 + 2 * u)

/-- R185: a decode error is recorded in PLT_ERR and PLT_ERRLOC. `mode` 1 is stream mode, `source` 1 a stitch. -/
def pltError (s : State) (u : Nat) (e : PErr) (mode source la : Nat) : State :=
  let r := PLT_ERR u
  let s1 := (((((s.fset r F.PLT_ERR_STATUS e.code).fset r F.PLT_ERR_SEG e.seg).fset r F.PLT_ERR_WORD e.word).fset r F.PLT_ERR_MODE mode).fset r F.PLT_ERR_SOURCE source)
  ((s1.fsat r F.PLT_ERR_COUNT 1).fset r F.PLT_ERR_VALID 1).fset (PLT_ERRLOC u) F.PLT_ERRLOC_LA la

/-! Frame FIFOs (R77, R78, R143). -/

/-- The fill of a FIFO. -/
def fifoLen (s : State) (c : Nat) (mirror : Bool) : Nat :=
  if mirror then (s.chan c).fifoM.length else (s.chan c).fifoP.length

/-- The FIFO's pool has frames (R143). -/
def fifoCounts (s : State) (c : Nat) (mirror : Bool) : Bool :=
  groupEn s (c / 12) && (if mirror then c % 12 < 6 && decide (0 < mFrames s (c / 12)) else decide (plainBase s (c / 12) < chanFrames s c))

/-- The channel may give frames (R78). -/
def frameChanOk (s : State) (c : Nat) (mirror : Bool) : Bool :=
  s.cstate c == csIN_SERVICE && (!mirror || s.cstate (c + 6) == csIN_SERVICE)

/-- Candidates of R78 for a group, in ascending order. -/
def frameCands (s : State) (g : Nat) (mirror : Bool) : List Nat :=
  ((List.range (if mirror then 6 else 12)).map (12 * g + ·)).filter (frameChanOk s · mirror)

/-- The candidate whose FIFO holds the most entries; the lowest channel on a tie; none when every FIFO is empty. -/
def fullest (s : State) (mirror : Bool) (cs : List Nat) : Option Nat :=
  (cs.foldl (fun (b : Option Nat × Nat) c => if b.2 < fifoLen s c mirror then (some c, fifoLen s c mirror) else b) (none, 0)).1

/-- R143: the fill has fallen to the low watermark. -/
def frameLow (s : State) (c : Nat) (mirror : Bool) : State :=
  if fifoCounts s c mirror ∧ fifoLen s c mirror = s.fget TIR_FRAMECFG F.TIR_FRAMECFG_LOWWM then
    let s1 := evTIR 7 ((s.fset TIR_STAT F.TIR_STAT_FRAME_LOW 1).reportAt 0 (srcId 7 1) c C.TIR_W_FRAME_LOW 0 0)
    if s1.fget TIR_FRAMECFG F.TIR_FRAMECFG_IRQ_EN = 1 then s1.irq irqTIR else s1
  else s

/-- Take a frame for a page of group `g` (R78), passing over the channels that `skip` names: channel and index. -/
def framePopBut (s : State) (g : Nat) (mirror : Bool) (skip : List Nat) : Option (Nat × Nat × State) :=
  match fullest s mirror ((frameCands s g mirror).filter (fun c => !skip.contains c)) with
  | none => none
  | some c =>
    let ch := s.chan c
    if mirror then
      match ch.fifoM with
      | f :: r => some (c, f, frameLow (s.setChan c { ch with fifoM := r }) c true)
      | [] => none
    else
      match ch.fifoP with
      | f :: r => some (c, f, frameLow (s.setChan c { ch with fifoP := r }) c false)
      | [] => none

/-- Take a frame for a page of group `g` (R78). -/
def framePop (s : State) (g : Nat) (mirror : Bool) : Option (Nat × Nat × State) := framePopBut s g mirror []

/-- R131: every candidate FIFO is empty. -/
def frameEmpty (s : State) (g : Nat) : State :=
  evTIR 8 ((s.fset TIR_STAT F.TIR_STAT_FRAME_EMPTY 1).reportAt 1 (srcId 7 1) g C.TIR_F_FRAME_EMPTY 0 0)

/-! Hot lines. -/

/-- What a tier gives for a line. -/
inductive TierRes where
  | data (d : Line)
  | poison
  | wait
  deriving DecidableEq, Repr

/-- One line of a frame; an uncorrectable line is `none`. -/
def frameRead (s : State) (x : KeySlot) (la c f : Nat) (major minor : Nat) : Option TierRes × State :=
  match dramRead c f (la / 64 % 64) s with
  | (.data d _, s1) => (some (.data (lineCrypt x la major minor d)), cuUse c s1)
  | (.poison _, s1) => (some .poison, s1)
  | (.ue, s1) => (none, s1)

/-- A line of a HOT or HOT_MIRROR page (R126, R140). -/
def hotRead (s : State) (la : Nat) (d : Desc) : TierRes × State :=
  let x := s.slot (dKreg d) (dEpoch d)
  let c := dChan d
  let f := dFrameIdx d
  let i := la / 64 % 64
  if slotLive s (dKreg d) (dEpoch d) = false then (.poison, noKeyReport (dKreg d) la s)
  else if dState d = stHOT then
    if canRead s c f then
      match frameRead s x la c f (dMajor d) (dMinor d i) with
      | (some r, s1) => (r, s1)
      | (none, s1) => (.poison, s1)
    else if readWaits s c then (.wait, s)
    else (.poison, s)
  else
    let t := c + 6
    let twin := fun (s1 : State) (rewrite : Bool) =>
      if canRead s1 t f then
        match dramRead t f i s1 with
        | (.data raw _, s2) => (TierRes.data (lineCrypt x la (dMajor d) (dMinor d i) raw), if rewrite then dramWrite c f i raw false (cuUse t s2) else cuUse t s2)
        | (.poison _, s2) => (.poison, if rewrite then dramWrite c f i 0 true s2 else s2)
        | (.ue, s2) => (.poison, s2)
      else if rewrite = false ∧ (readWaits s1 c ∨ readWaits s1 t) then (.wait, s1)
      else (.poison, s1)
    if canRead s c f then
      match frameRead s x la c f (dMajor d) (dMinor d i) with
      | (some r, s1) => (r, s1)
      | (none, s1) => twin s1 true
    else
      let r := twin s false
      (r.1, r.2.ev (0x100 + 16 * c + 14))

/-! Cold segments (R127, R128, R138). -/

/-- The exclusive-or of a sector over the other eleven channels; none when a source is missing, poisoned or uncorrectable. -/
def parityFold (c f l : Nat) : List Nat → Option Line → State → Option Line × State
  | [], acc, s => (acc, s)
  | k :: r, acc, s =>
    if k = c then parityFold c f l r acc s
    else if canRead s k f = false ∨ tabGet (fun _ => false) s.dram.lack (k * 2 ^ 28 + f) then parityFold c f l r none s
    else match dramRead k f l s with
      | (.data d _, s1) => parityFold c f l r (acc.map (· ^^^ d)) s1
      | (_, s1) => parityFold c f l r none s1

/-- R138. -/
def parityRebuild (s : State) (c f l : Nat) : Option Line × State :=
  let r := parityFold c f l (groupChans (c / 12)) (some 0) s
  (r.1, evTIR 5 (r.2.ev (0x100 + 16 * c + 14)))

/-- One cold sector, rebuilt when its channel cannot serve it or finds it uncorrectable. -/
def sectorRead (s : State) (sector : Nat) : Option Line × State :=
  let p := coldLocate s sector
  if canRead s p.1 p.2.1 ∧ tabGet (fun _ => false) s.dram.lack (p.1 * 2 ^ 28 + p.2.1) = false then
    match dramRead p.1 p.2.1 p.2.2 s with
    | (.data d _, s1) => (some d, s1)
    | (.poison _, s1) => parityRebuild s1 p.1 p.2.1 p.2.2
    | (.ue, s1) => parityRebuild s1 p.1 p.2.1 p.2.2
  else parityRebuild s p.1 p.2.1 p.2.2

/-- Consecutive sectors; none if one of them is lost. -/
def sectorsRead (read : State → Nat → Option Line × State) (s : State) : Nat → Nat → Option Bytes × State
  | 0, _ => (some [], s)
  | n + 1, x =>
    let r := read s x
    let q := sectorsRead read r.2 n (x + 1)
    match r.1, q.1 with
    | some l, some b => (some (lineBytes l ++ b), q.2)
    | _, _ => (none, q.2)

/-- The same sector rebuilt from parity whatever its channel serves (R128). -/
def sectorRebuilt (s : State) (sector : Nat) : Option Line × State :=
  let p := coldLocate s sector
  parityRebuild s p.1 p.2.1 p.2.2

/-- Byte span of segment `i` (R127). -/
def segSpan (d : Desc) (i : Nat) : Nat × Nat :=
  (8 * dSegoff d i, if i = 7 then 512 * dSize d else 8 * dSegoff d (i + 1))

/-- Tweak of a segment (R207). -/
def segTweak (lpn i : Nat) : Nat := lpn * 8 + i
def hdrTweak (lpn : Nat) : Nat := lpn * 8 + 2 ^ 127

/-- Decrypt and decode one segment from its sectors: its words, and the bit of the segment after its last one. -/
def segDecode (x : KeySlot) (lpn i : Nat) (span : Nat × Nat) (sects : Bytes) : Except PErr (List Nat × Nat) :=
  let raw := (sects.drop (span.1 % 64)).take (span.2 - span.1)
  match decodeColdAt (xtsUnit false (keyKX1 x) (keyKX2 x) (segTweak lpn i) raw) with
  | .ok w => .ok w
  | .error e => .error { e with seg := i }

/-- Write rebuilt sectors back in place (R128). -/
def sectorsWrite (s : State) : Nat → Bytes → Nat → State
  | 0, _, _ => s
  | n + 1, b, x =>
    let p := coldLocate s x
    let s1 := if canWrite s p.1 then dramWrite p.1 p.2.1 p.2.2 (lineOf (b.take 64)) false s else s
    sectorsWrite s1 n (b.drop 64) (x + 1)

/-- What reading one segment of a cold page gives: its words with the bit after the last one and, where they came from the parity retry, the rebuilt sectors. -/
abbrev SegRes := Option (List Nat × Nat) × Option Bytes

/-- Segment `i` of a cold page by Pleat unit `u` and channel `c`'s cipher unit (R127, R128, R129); `force` takes the parity retry at once. Nothing is written
back yet. -/
def segTry (s : State) (u c lpn : Nat) (d : Desc) (i : Nat) (force : Bool) : SegRes × State :=
  let x := s.slot (dKreg d) (dEpoch d)
  let sp := segSpan d i
  let first := dSector d + sp.1 / 64
  let n := (sp.2 + 63) / 64 - sp.1 / 64
  let la := lpn * 4096 + i * 512
  let retry := fun (t : State) =>
    match sectorsRead sectorRebuilt t n first with
    | (some b, t1) =>
      (match segDecode x lpn i sp b with
      | .ok w => ((some w, some b), cuUse c (t1.ev (0x280 + 4 * u)))
      | .error e => ((none, none), pltError t1 u e 0 0 la))
    | (none, t1) => ((none, none), t1)
  if force then retry s
  else match sectorsRead sectorRead s n first with
    | (some b, s1) =>
      (match segDecode x lpn i sp b with
      | .ok w => ((some w, none), cuUse c (s1.ev (0x280 + 4 * u)))
      | .error e => retry (pltError s1 u e 0 0 la))
    | (none, s1) => ((none, none), s1)

/-- The outcome of a segment's read is put on record (R128): a successful retry writes the rebuilt sectors back in place; a failed one is reported. -/
def segSettle (s : State) (lpn : Nat) (d : Desc) (i : Nat) (r : SegRes) : State :=
  let sp := segSpan d i
  let la := lpn * 4096 + i * 512
  match r with
  | (some _, none) => s
  | (some _, some b) =>
    (sectorsWrite s ((sp.2 + 63) / 64 - sp.1 / 64) b (dSector d + sp.1 / 64)).reportAt 1 (srcId 7 1) 0 C.TIR_W_COLD_RETRY la 0
  | (none, _) => s.reportAt 2 (srcId 7 1) 0 C.TIR_F_COLD_CORRUPT la 0

/-- The channel that holds a segment's first sector, and the Pleat unit of a cold read of it (R184). -/
def segChan (s : State) (d : Desc) (i : Nat) : Nat := (coldLocate s (dSector d + (segSpan d i).1 / 64)).1
def segUnit (s : State) (d : Desc) (i : Nat) : Nat := pltUnit s (segChan s d i)

/-- Segment `i` of a cold page: its 64 words, or none (R127, R128). -/
def coldSegment (s : State) (lpn : Nat) (d : Desc) (i : Nat) : Option (List Nat) × State :=
  let r := segTry s (segUnit s d i) (segChan s d i) lpn d i false
  (r.1.1.map (·.1), segSettle (evTIR 4 r.2) lpn d i r.1)

/-- The eight lines of a decoded segment. -/
def segLines (w : List Nat) : List Line := (chunk 64 8 (bytesOfWords w)).map lineOf

/-! Whole pages: 64 lines, each with its poison flag. -/

abbrev PageData := List (Line × Bool)

def zeroPage : PageData := List.replicate 64 (0, false)

def pageBytes (p : PageData) : Bytes := p.flatMap (fun l => lineBytes l.1)

/-- Segments `i` on of a cold page (R129 step 3). -/
def coldSegs (u c lpn : Nat) (d : Desc) (force : Bool) : Nat → Nat → State → List SegRes × State
  | 0, _, s => ([], s)
  | n + 1, i, s =>
    let r := segTry s u c lpn d i force
    let q := coldSegs u c lpn d force n (i + 1) r.2
    (r.1 :: q.1, q.2)

/-- The lines of the segments read; those of a failed one are poison (R130). -/
def segsPage (l : List SegRes) : PageData :=
  l.flatMap fun r => match r.1 with
    | some w => (segLines w.1).map (·, false)
    | none => List.replicate 8 (0, true)

/-- Put every segment's outcome on record. -/
def settleAll (lpn : Nat) (d : Desc) : Nat → List SegRes → State → State
  | _, [], s => s
  | i, r :: l, s => settleAll lpn d (i + 1) l (segSettle s lpn d i r)

/-- The header of a stored image, decrypted from its first sector, which `read` fetches; none: that sector is lost. -/
def coldHdr (read : State → Nat → Option Line × State) (s : State) (lpn : Nat) (d : Desc) : Option Bytes × State :=
  let x := s.slot (dKreg d) (dEpoch d)
  match read s (dSector d) with
  | (some l, s1) => (some (xtsUnit false (keyKX1 x) (keyKX2 x) (hdrTweak lpn) ((lineBytes l).take 16)), s1)
  | (none, s1) => (none, s1)

/-- The header's checks on a tier path (R156): it must have DYN 0 (R157), and SIZE and the places of its segments as the descriptor has them. -/
def hdrCheck (hdr : Option Bytes) (d : Desc) : Option PErr :=
  match hdr with
  | none => none
  | some b => match readPageHdr b with
    | .error c => some ⟨c, 0, 0⟩
    | .ok h => if h.dyn ∨ h.size ≠ dSize d ∨ h.segoff ≠ (List.range 8).map (dSegoff d) then some ⟨C.PLT_E_BAD_HEADER, 0, 0⟩ else none

/-- T of R153, in bytes: the first 8-byte unit after the last bit of segment 7. -/
def coldTail (d : Desc) (segs : List SegRes) : Nat :=
  match (segs.getD 7 (none, none)).1 with
  | some w => (8 * (segSpan d 7).1 + w.2 + 63) / 64 * 8
  | none => 0

/-- The checks that R156 makes after the segments, all of which have decoded: SIZE against the end of segment 7, and the page CRC, by the header and by the
descriptor. -/
def tailCheck (hdr : Option Bytes) (d : Desc) (segs : List SegRes) : Option PErr :=
  let crc := crc32c (pageBytes (segsPage segs))
  if (coldTail d segs + 511) / 512 ≠ dSize d then some ⟨C.PLT_E_BAD_HEADER, 7, 0⟩
  else if crc ≠ dCrc d ∨ hdr.any (fun b => leNat (b.take 4) != crc) then some ⟨C.PLT_E_DATA_CRC, 7, 0⟩
  else none

/-- The LA of an error of a whole-page decode in PLT_ERRLOC (R186). -/
def errLa (lpn : Nat) (e : PErr) : Nat := lpn * 4096 + e.seg * 512

/-- The parity retry of a page of which a check of the whole page has failed (R128): every sector is rebuilt from parity and the page is decoded again. Nothing is
written back unless that succeeds. DESIGN CHOICE (log entry 156): where it fails, or a segment cannot be rebuilt, all 64 lines become poison. -/
def coldAgain (s : State) (u c lpn : Nat) (d : Desc) : PageData × State :=
  let lost := fun (t : State) => (List.replicate 64 (0, true), t.reportAt 2 (srcId 7 1) 0 C.TIR_F_COLD_CORRUPT (lpn * 4096) 0)
  let h := coldHdr sectorRebuilt s lpn d
  match hdrCheck h.1 d with
  | some e => lost (pltError h.2 u e 0 0 (errLa lpn e))
  | none =>
    let q := coldSegs u c lpn d true 8 0 h.2
    if q.1.any (fun x => x.1.isNone) then lost q.2
    else match tailCheck h.1 d q.1 with
      | some e => lost (pltError q.2 u e 0 0 (errLa lpn e))
      | none =>
        let t := settleAll lpn d 0 q.1 q.2
        (segsPage q.1, match sectorRebuilt q.2 (dSector d) with
          | (some l, _) => sectorsWrite t 1 (lineBytes l) (dSector d)
          | (none, _) => t)

/-- A whole cold page by Pleat unit `u` and channel `c`'s cipher unit (R129 step 3, R130, R156), checked in bit-stream order: the header, the segments,
SIZE and the page CRC. A segment that fails its own parity retry leaves poison, and then nothing follows to be checked. DESIGN CHOICE (log entry 156): a header whose
sector is lost, from its channel and from parity, is not checked. -/
def coldPage (s : State) (u c lpn : Nat) (d : Desc) : PageData × State :=
  if dSize d = 0 then (zeroPage, s)
  else
    let h := coldHdr sectorRead s lpn d
    match hdrCheck h.1 d with
    | some e => coldAgain (pltError h.2 u e 0 0 (errLa lpn e)) u c lpn d
    | none =>
      let r := coldSegs u c lpn d false 8 0 h.2
      if r.1.any (fun x => x.1.isNone) then (segsPage r.1, settleAll lpn d 0 r.1 r.2)
      else match tailCheck h.1 d r.1 with
        | none => (segsPage r.1, settleAll lpn d 0 r.1 r.2)
        | some e => coldAgain (pltError r.2 u e 0 0 (errLa lpn e)) u c lpn d

/-- Lines `i` on of a hot page's frame, or its twin's; a line that cannot be read is poison (R199 step 2). -/
def hotPageLines (lpn : Nat) (d : Desc) : Nat → Nat → State → PageData × State
  | 0, _, s => ([], s)
  | n + 1, i, s =>
    let r := hotRead s (lpn * 4096 + i * 64) d
    let q := hotPageLines lpn d n (i + 1) r.2
    match r.1 with
    | .data l => ((l, false) :: q.1, q.2)
    | _ => ((0, true) :: q.1, q.2)

def hotPage (s : State) (lpn : Nat) (d : Desc) : PageData × State := hotPageLines lpn d 64 0 s

/-- The page's lines cannot be read yet: its channel, and for a mirror frame the twin's too, retrains or has still to be rebuilt (R140). -/
def pageWaits (s : State) (d : Desc) : Bool :=
  let c := dChan d
  let f := dFrameIdx d
  if dState d = stMIRROR then !canRead s c f && !canRead s (c + 6) f && (readWaits s c || readWaits s (c + 6))
  else !canRead s c f && readWaits s c

/-- Write a page's 64 lines into a frame under fresh counters (MINOR 0). -/
def frameWrite (x : KeySlot) (lpn c f major : Nat) : PageData → Nat → State → State
  | [], _, s => s
  | (l, p) :: r, i, s =>
    let ct := if p then 0 else lineCrypt x (lpn * 4096 + i * 64) major 0 l
    frameWrite x lpn c f major r (i + 1) (dramWrite c f i ct p s)

/-- Into the frame and, for a mirror frame, its twin; a channel that cannot take writes is skipped (R137). -/
def placeFrame (x : KeySlot) (lpn c f major : Nat) (mirror : Bool) (p : PageData) (s : State) : State :=
  let s1 := if canWrite s c then frameWrite x lpn c f major p 0 (cuUse c s) else s
  if mirror ∧ canWrite s1 (c + 6) then frameWrite x lpn (c + 6) f major p 0 s1 else s1

/-- R193, R204: the slot of a fresh encryption, or the status that refuses it. -/
def freshSlot (s : State) (la : Nat) : Except Nat (Nat × Nat) :=
  let k := regionOf s la
  let e := s.fget (KEY_RCTL k) F.KEY_RCTL_CUR
  let o := 1 - e
  if slotLive s k e = false then .error C.KEY_E_NO_KEY
  else if (s.slot k e).mfloor < 2 ^ 40 then .ok (k, e)
  else if slotLive s k o ∧ s.fget (KEY_RCTL k) F.KEY_RCTL_NEWER = o ∧ (s.slot k o).mfloor < 2 ^ 40 then .ok (k, o)
  else .error C.KEY_E_EPOCH_BUSY

/-- R193: the slot of a fresh encryption of a cold image, which takes no major. -/
def coldSlot (s : State) (la : Nat) : Except Nat (Nat × Nat) :=
  let k := regionOf s la
  let e := s.fget (KEY_RCTL k) F.KEY_RCTL_CUR
  if slotLive s k e = false then .error C.KEY_E_NO_KEY else .ok (k, e)

/-- The page's lines in the cache replace those of `p` (relocation, R140; demotion takes them before). -/
def mergeCached (s : State) (lpn : Nat) : Nat → Nat → PageData → PageData
  | n + 1, i, x :: r =>
    (match cachedLine s (lpn * 4096 + i * 64) with
      | some e => if e.st = .poisoned then (0, true) else (e.data, false)
      | none => x) :: mergeCached s lpn n (i + 1) r
  | _, _, p => p

/-- Every dirty or held line of the page becomes Clean and its copy is dropped (R122). -/
def cleanPage (s : State) (lpn : Nat) : Nat → Nat → State
  | 0, _ => s
  | n + 1, i =>
    let la := lpn * 4096 + i * 64
    match lcFind s la with
    | some e => cleanPage (dropCopy (lcPut s e.1 (if e.2.st = .poisoned then none else some { e.2 with st := .clean })) la) lpn n (i + 1)
    | none => cleanPage (dropCopy s la) lpn n (i + 1)

/-- Write a page into frame `f` of channel `c` under a fresh slot, and rewrite its descriptor (R129 steps 4 and 5). -/
def placeAt (s : State) (lpn c f k e : Nat) (mirror : Bool) (p : PageData) (acc : Nat) : State :=
  let x := s.slot k e
  let s1 := placeFrame x lpn c f x.mfloor mirror p s
  epochWarn (putDesc s1 lpn (mkHot (if mirror then stMIRROR else stHOT) k e acc c f x.mfloor)) k 0 x.mfloor

/-- Place a page in a new frame of its group under the page's busy bit (R129, R140, R66): pops the frame, writes it and rewrites the descriptor. -/
def placePage (s : State) (lpn : Nat) (mirror : Bool) (p : PageData) (acc : Nat) : Except Nat State :=
  let la := lpn * 4096
  match freshSlot s la with
  | .error st => .error st
  | .ok (k, e) =>
    match framePop s (groupFor s la) mirror with
    | none => .error C.TIR_E_NO_FRAME
    | some (c, f, s1) => .ok (setBusy (placeAt (setBusy s1 lpn true) lpn c f k e mirror p acc) lpn false)

/-! The cold log (R133 to R135). -/

/-- Sectors left before the head wraps, and the head's place. -/
def headStripe (s : State) (g : Nat) : Nat := s.fget (TIR_LOGHEAD g) F.TIR_LOGHEAD_STRIPE
def headSect (s : State) (g : Nat) : Nat := s.fget (TIR_LOGHEAD g) F.TIR_LOGHEAD_SECT
def tailStripe (s : State) (g : Nat) : Nat := s.fget (TIR_LOGTAIL g) F.TIR_LOGTAIL_STRIPE

/-- Free stripes (R135). -/
def freeStripes (s : State) (g : Nat) : Nat := let ns := stripesOf s g; (tailStripe s g + 2 * ns - headStripe s g - 1) % ns

/-- Move the head to the next stripe, or leave it on its closed stripe when no free stripe remains; taking the last free one sets LOG_FULL (R135). -/
def headNext (s : State) (g : Nat) : State :=
  if freeStripes s g = 0 then
    (s.fset (TIR_LOGHEAD g) F.TIR_LOGHEAD_SECT 704).fset TIR_STAT F.TIR_STAT_LOG_FULL 1
  else
    let s1 := (s.fset (TIR_LOGHEAD g) F.TIR_LOGHEAD_STRIPE ((headStripe s g + 1) % stripesOf s g)).fset (TIR_LOGHEAD g) F.TIR_LOGHEAD_SECT 0
    if freeStripes s1 g = 0 then s1.fset TIR_STAT F.TIR_STAT_LOG_FULL 1 else s1

def setStripes (s : State) (l : List OpenStripe) : State := { s with tier := { s.tier with stripes := l } }

/-- The open stripe of a group at an index; a fresh one otherwise. -/
def stripeUpd (l : List OpenStripe) (g idx : Nat) (now : Nat) (f : OpenStripe → OpenStripe) : List OpenStripe :=
  if l.any (fun o => o.group == g && o.idx == idx) then l.map (fun o => if o.group = g ∧ o.idx = idx then f o else o)
  else l ++ [f ⟨g, idx, [], 0, false, now⟩]

/-- Close the head's stripe early or when it is full, and move the head (R134). -/
def closeHead (s : State) (g : Nat) (early : Bool) : State :=
  let s1 := setStripes s (stripeUpd s.tier.stripes g (headStripe s g) s.time (fun o => { o with closed := true }))
  let s2 := headNext s1 g
  if early then evTIR 11 s2 else s2

/-- Append one sector at the head. -/
def appendSector (s : State) (g : Nat) (l : Line) : State :=
  let p := headSect s g
  let s1 := setStripes s (stripeUpd s.tier.stripes g (headStripe s g) s.time
    (fun o => { o with sects := tabSet (fun _ => (0 : Line)) o.sects p l, fill := p + 1, since := if o.fill = 0 then s.time else o.since }))
  if p + 1 = 704 then closeHead s1 g false else s1.fset (TIR_LOGHEAD g) F.TIR_LOGHEAD_SECT (p + 1)

def appendAll (s : State) (g : Nat) : List Line → State
  | [] => s
  | l :: r => appendAll (appendSector s g l) g r

/-- A page of `n` sectors would cross from stripe NS − 1 to stripe 0, and starts at stripe 0 instead (R133). -/
def appendWraps (s : State) (g n : Nat) : Bool := decide (stripesOf s g < headStripe s g + (headSect s g + n + 703) / 704)

/-- Free stripes that an append of `n` sectors takes. -/
def appendMoves (s : State) (g n : Nat) : Nat :=
  if appendWraps s g n then (stripesOf s g - headStripe s g) + n / 704 else (headSect s g + n) / 704

/-- Whether the group's log takes an append of `n` sectors (R134, R135); `useReserve`: a cold merge's. -/
def appendCheck (s : State) (g n : Nat) (useReserve : Bool) : Nat :=
  let free := freeStripes s g
  let moves := appendMoves s g n
  if stripesOf s g = 0 then C.TIR_E_LOG_FULL
  else if 2 ≤ (chansOut s g).length then C.TIR_E_GROUP_DEGRADED
  else if headSect s g = 704 ∨ free = 0 ∨ free < moves ∨ (useReserve = false ∧ free < moves + s.fget TIR_JCFG F.TIR_JCFG_RESERVE) then C.TIR_E_LOG_FULL
  else 0

/-- Append a page's sectors (R133, R135): its first sector, first and last stripe; or the status that refuses it; 0: it waits for a place in the journal. -/
def journalAppend (s : State) (g : Nat) (sects : List Line) (useReserve : Bool) : Except Nat (Nat × Nat × Nat × State) :=
  let n := sects.length
  let st := appendCheck s g n useReserve
  if st ≠ 0 then .error st
  else
    let h := headStripe s g
    let wrap := appendWraps s g n
    let skipped := if wrap then stripesOf s g - h else 0
    let opened := if wrap then skipped + (n + 703) / 704 else (headSect s g + n + 703) / 704
    if 4 < (s.tier.stripes.filter (fun o => o.group == g && o.closed)).length + opened then .error 0
    else
      let s1 := (List.range skipped).foldl (fun t _ => closeHead t g true) s
      let first := headStripe s1 g
      .ok (g * 2 ^ 39 + first * 704 + headSect s1 g, first, first + (headSect s1 g + n - 1) / 704, appendAll s1 g sects)

/-- R135: a refused append leaves its mark in TIR_STAT: LOG_FULL where the group has no log or no free stripe remains, and LOG_RESERVE where a demotion or a
compaction move would have left fewer than RESERVE free stripes. -/
def appendRefused (s : State) (g st : Nat) (merge : Bool) : State :=
  let s0 := if st = C.TIR_E_LOG_FULL ∨ st = C.TIR_E_GROUP_DEGRADED then evTIR 13 s else s
  if st = C.TIR_E_LOG_FULL then
    let s1 := if stripesOf s0 g = 0 ∨ headSect s0 g = 704 ∨ freeStripes s0 g = 0 then s0.fset TIR_STAT F.TIR_STAT_LOG_FULL 1 else s0
    if merge ∨ stripesOf s0 g = 0 then s1 else s1.fset TIR_STAT F.TIR_STAT_LOG_RESERVE 1
  else s0

/-- Encrypt the units of an image (R207): header and segments. -/
def imageCrypt (x : KeySlot) (lpn : Nat) (h : PageHdr) (img : Bytes) : Bytes :=
  let unit := fun (tw a b : Nat) => xtsUnit true (keyKX1 x) (keyKX2 x) tw ((img.take b).drop a)
  let seg := fun (i : Nat) => unit (segTweak lpn i) (8 * h.segoff.getD i 0) (if i = 7 then 512 * h.size else 8 * h.segoff.getD (i + 1) 0)
  unit (hdrTweak lpn) 0 16 ++ (List.range 8).flatMap seg

/-- Pending descriptor rewrite of a page operation. -/
def addOp (s : State) (o : PageOp) : State := { s with tier := { s.tier with ops := s.tier.ops ++ [o] } }

/-! Lanes (R182). -/

/-- How a Pleat unit answers work that needs lanes of it. -/
inductive LaneRes where
  /-- It held them, and gives them back as it ends. -/
  | got (s : State)
  /-- It waits for them. -/
  | wait (s : State)
  /-- The unit that it waited for, or held lanes of, has been fenced, or its image has failed its verification. -/
  | failed (s : State)

def dropWork (s : State) (w : PleatWork) : State := { s with tier := { s.tier with pleat := s.tier.pleat.erase w } }

/-- Put Pleat work in a unit's queue (R182). -/
def pleatAsk (s : State) (u cls la need : Nat) (enc : Bool) : State :=
  if s.tier.pleat.any (fun w => w.la == la && w.cls == cls) then s
  else { s with tier := { s.tier with pleat := s.tier.pleat ++ [{ unit := u, cls := cls, la := la, need := need, lanes := 0, enc := enc, granted := false, failed := false }] } }

/-- Work `key` of a class needs lanes of unit `u`: those granted to it, else it asks for them and waits. -/
def laneFor (s : State) (u cls key need : Nat) (enc : Bool) : LaneRes :=
  match s.tier.pleat.find? (fun w => w.la == key && w.cls == cls) with
  | none => .wait (pleatAsk s u cls key need enc)
  | some w =>
    if w.failed then .failed (dropWork s w)
    else if w.unit ≠ u ∨ w.enc ≠ enc then .wait (pleatAsk (dropWork s w) u cls key need enc)
    else if w.granted then .got (dropWork s w)
    else .wait s

/-- Forget work that is no longer needed. -/
def laneDrop (s : State) (cls key : Nat) : State :=
  { s with tier := { s.tier with pleat := s.tier.pleat.filter (fun w => !(w.la == key && w.cls == cls)) } }

/-- A page's work takes eight lanes (R180, R182). -/
def pageLanes : Nat := 8

/-- How a page operation's work ends. -/
inductive OpRes where
  | ok (s : State)
  /-- It waits, for a lane or for room in the journal. -/
  | wait (s : State)
  /-- Its Pleat unit failed under it (R74). -/
  | failed (s : State)
  /-- It is refused with this status. -/
  | error (st : Nat) (s : State)

/-- An encoded page passes its verification decode (R183). -/
def verified (im : PageImage) (page : Bytes) : Bool := match decodePage im.image with
  | .ok out => decide (out = page)
  | .error _ => false

/-- Compress a page in the Pleat unit `u`, in which it has its lane, and append it (R132 steps 3 and 4, R131): the operation then waits for its stripes. `merged`
are the lines whose data comes from the cache. -/
def compressAppend (s : State) (u lpn : Nat) (d : Desc) (p : PageData) (kind bob rd : Nat) (merged : List (Nat × Line)) : OpRes :=
  let la := lpn * 4096
  let g := groupFor s la
  match coldSlot s la with
  | .error st => .error st s
  | .ok (k, e) =>
    match encodePageStatic (s.fget (PLT_CFG u) F.PLT_CFG_PAGE_EFFORT) (pageBytes p) with
    | none => .error C.TIR_E_NO_GAIN (s.ev (0x280 + 4 * u + 2))
    | some im =>
      let s := s.diagAdd dgVERIFY u 1
      if verified im (pageBytes p) = false then .failed ((s.diagAdd dgVERBAD u 1).report (srcId 3 u) 0 C.PLT_F_UNIT 0 0)
      else if im.hdr.size = 0 then
        .ok (addOp (s.ev (0x280 + 4 * u + 1)) ⟨lpn, mkCold k e (dAcc d) 0 0 [] 0, g, 0, 0, false, kind, bob, rd, merged⟩)
      else
        let ct := imageCrypt (s.slot k e) lpn im.hdr im.image
        match journalAppend (cuUse u s) g ((chunk 64 56 ct).map lineOf) (kind = 3) with
        | .error st => if st = 0 then .wait s else .error st s
        | .ok (sector, f, l, s1) =>
          .ok (addOp (s1.ev (0x280 + 4 * u + 1)) ⟨lpn, mkCold k e (dAcc d) sector im.hdr.size im.hdr.segoff im.hdr.crc, g, f, l, false, kind, bob, rd, merged⟩)

/-! Promotion (R129 to R131). -/

/-- Replace one line of a page. -/
def withLine (p : PageData) (i : Nat) (l : Line) (poison : Bool) : PageData := p.set i (l, poison)

/-- The promotion, or the cold merge in its place, that the page's busy bit stands for. -/
def promoOf (s : State) (lpn : Nat) : Option Promo := s.tier.promos.find? (fun p => p.lpn == lpn)
def setPromos (s : State) (l : List Promo) : State := { s with tier := { s.tier with promos := l } }

/-- The promotion is over, and the busy bit with it. -/
def promoOver (s : State) (lpn : Nat) : State := setBusy (setPromos s (s.tier.promos.filter (fun p => p.lpn != lpn))) lpn false

/-- A promotion that cannot be made is given up: its page stays where it is. DESIGN CHOICE (log entry 168): the frame that it has taken goes back to the head of
its FIFO. -/
def promoGiveUp (s : State) (lpn key : Nat) : State :=
  match promoOf s lpn with
  | none => s
  | some p =>
    let s1 := match p.frame with
      | some (c, f) =>
        let ch := s.chan c
        s.setChan c (if p.mirror then { ch with fifoM := f :: ch.fifoM } else { ch with fifoP := f :: ch.fifoP })
      | none => s
    laneDrop (promoOver s1 lpn) 2 key

/-- R129 steps 3 to 6 of a promotion that has its frame: the cipher unit and the Pleat unit are those of the frame's channel; `key` names the work there. -/
def promoGo (s : State) (lpn key : Nat) (d : Desc) (ln : Option (Nat × Line × Bool)) (c f : Nat) (mirror : Bool) : OpRes :=
  let u := pltUnit s c
  let go := fun (t : State) =>
    match freshSlot t (lpn * 4096) with
    | .error st => OpRes.error st (promoGiveUp t lpn key)
    | .ok (k, e) =>
      let r := coldPage t u c lpn d
      let p := match ln with
        | some (i, l, q) => withLine r.1 i l q
        | none => r.1
      .ok (evTIR 0 (promoOver (placeAt r.2 lpn c f k e mirror p (dAcc d)) lpn))
  if frameChanOk s c mirror = false then .failed (promoGiveUp s lpn key)
  else if dSize d = 0 then go s
  else match laneFor s u 2 key pageLanes false with
    | .got t => go t
    | .wait t => .wait t
    | .failed t => .failed (promoGiveUp t lpn key)

/-- Promote a COLD page, for `la` with its evicted line merged if given: its busy bit is set and its frame taken before anything else (R129 steps 1 and 2). -/
def promotePage (s : State) (lpn key : Nat) (d : Desc) (la : Option Nat) (ln : Option (Nat × Line × Bool)) : OpRes :=
  match promoOf s lpn with
  | some p => (match p.frame with
    | some (c, f) => promoGo s lpn key d ln c f p.mirror
    | none => .wait s)
  | none =>
    let mirror := mirrorAttr s (lpn * 4096)
    match freshSlot s (lpn * 4096) with
    | .error st => .error st s
    | .ok _ =>
      match framePop s (groupFor s (lpn * 4096)) mirror with
      | none => .error C.TIR_E_NO_FRAME s
      | some (c, f, s1) => promoGo (setBusy (setPromos s1 (s1.tier.promos ++ [⟨lpn, la, some (c, f), mirror⟩])) lpn true) lpn key d ln c f mirror

/-! Write-backs of hot lines (R197, R199, R203, R204, R137, R140). -/

/-- What a write-back comes to. -/
inductive Wb where
  /-- The line is in DRAM. -/
  | done
  /-- Not made yet: it waits for a busy bit, a descriptor's place, a lane or the journal (R49, R72, R75, R182). -/
  | wait
  /-- Refused (R194, R204): the line stays dirty and is no victim. -/
  | stuck
  /-- The page cannot be placed (R131): the line stays dirty, and a write that needs its way waits. -/
  | unplaced
  /-- The destination cannot take writes: Held (R140). -/
  | held
  /-- The page is INIT or beyond L: the line is dropped (R605). -/
  | dropped
  /-- It ends with the page operation that was started (R131). -/
  | later
  deriving DecidableEq, Repr

/-- Write one line's ciphertext to the page's frame, and to the twin of a mirror frame (R137). -/
def storeHot (s : State) (d : Desc) (i : Nat) (ct : Line) (poison : Bool) : State :=
  let c := dChan d
  let f := dFrameIdx d
  let s1 := if canWrite s c then dramWrite c f i ct poison s else s
  if dState d = stMIRROR ∧ canWrite s1 (c + 6) then dramWrite (c + 6) f i ct poison s1 else s1

def blockKey (k lpn : Nat) : Nat := k * 2 ^ 35 + lpn

/-- The block of R204 ends for a page. -/
def unblock (s : State) (k lpn : Nat) : State :=
  let b := s.keys.blocked.filter (· != blockKey k lpn)
  let s1 := { s with keys := { s.keys with blocked := b } }
  if b.any (fun x => x / 2 ^ 35 == k) then s1 else s1.fset (KEY_RCTL k) F.KEY_RCTL_BLOCKED 0

/-- R204: the page becomes write-blocked. -/
def blockPage (s : State) (k lpn : Nat) : State :=
  if s.keys.blocked.contains (blockKey k lpn) then s
  else
    let s1 := { s with keys := { s.keys with blocked := s.keys.blocked ++ [blockKey k lpn] } }
    keyIrq ((((s1.fset KEY_STAT F.KEY_STAT_EXHAUSTED 1).fset KEY_STAT F.KEY_STAT_LASTRGN k).fset (KEY_RCTL k) F.KEY_RCTL_BLOCKED 1).reportAt
      2 (srcId 5 127) k C.KEY_F_EPOCH_EXHAUSTED (lpn * 4096) lpn)

/-- The epoch switch of a page at its major-counter end is admitted (R203). -/
def switchOk (s : State) (k e : Nat) : Bool := slotLive s k (1 - e) && s.fget (KEY_RCTL k) F.KEY_RCTL_NEWER == 1 - e

/-- Re-encrypt a hot page in place, under its busy bit, under slot `e'` and `major` with one line merged (R199, R203, R212). -/
def reencrypt (s : State) (lpn : Nat) (d : Desc) (k' e' major : Nat) (ln : Option (Nat × Line × Bool)) : State :=
  let r := hotPage s lpn d
  let p := match ln with
    | some (i, l, q) => withLine r.1 i l q
    | none => r.1
  let s1 := placeFrame (s.slot k' e') lpn (dChan d) (dFrameIdx d) major (dState d = stMIRROR) p (setBusy r.2 lpn true)
  let s2 := setBusy (putDesc s1 lpn (mkHot (dState d) k' e' (dAcc d) (dChan d) (dFrameIdx d) major)) lpn false
  epochWarn (s2.ev (0x2E0 + 2 * dChan d)) k' (dMajor d) major

/-- The page's writes are held back by the block of R204: the switch is still not admitted. -/
def writeBlocked (s : State) (lpn : Nat) (d : Desc) : Bool :=
  dHot d && s.keys.blocked.contains (blockKey (dKreg d) lpn) && !switchOk s (dKreg d) (dEpoch d)

/-- Write line `i` of a hot page whose channel, or twin, takes writes. A re-encryption is a page operation: it waits for the busy bit and for the page's
lines (R199). -/
def writeHot (s : State) (lpn : Nat) (d : Desc) (i : Nat) (l : Line) (poison : Bool) : Wb × State :=
  let k := dKreg d
  let e := dEpoch d
  let la := lpn * 4096 + i * 64
  if slotLive s k e = false ∨ writeBlocked s lpn d then (.stuck, s)
  else if dMinor d i < 63 then
    let m := dMinor d i + 1
    let ct := if poison then 0 else lineCrypt (s.slot k e) la (dMajor d) m l
    (.done, putDesc (storeHot (cuUse (dChan d) s) d i ct poison) lpn (dput d (96 + 6 * i) 6 m))
  else if 2 ^ 40 - 1 ≤ dMajor d ∧ switchOk s k e = false then (.stuck, blockPage s k lpn)
  else if pageWaits s d then (.wait, s)
  else if canBusy s lpn = false then (.wait, s)
  else if dMajor d < 2 ^ 40 - 1 then (.done, reencrypt s lpn d k e (dMajor d + 1) (some (i, l, poison)))
  else (.done, unblock (raiseFloor (evTIR 16 (reencrypt s lpn d k (1 - e) 0 (some (i, l, poison)))) k e (2 ^ 40)) k lpn)

/-- Relocate a page off fenced channels (R140): lines in the cache with their data, the others as poison. -/
def relocate (s : State) (lpn : Nat) (d : Desc) : Except Nat State :=
  let p := mergeCached s lpn 64 0 (List.replicate 64 (0, true))
  let s0 := raiseFloor s (dKreg d) (dEpoch d) (dMajor d + 1)
  match placePage s0 lpn (dState d = stMIRROR) p (dAcc d) with
  | .ok s1 => .ok (cleanPage (unblock s1 (dKreg d) lpn) lpn 64 0)
  | .error st => .error st

/-- The frame of a HOT page cannot be written because it retrains, or its content is lost (R140). -/
def frameLost (s : State) (c f : Nat) : Bool :=
  !canWrite s c || (s.cstate c == csREJOINING && s.fget (DCH_STAT c) F.DCH_STAT_FROM_FENCE == 1 && s.fget (DCH_WMARK c) F.DCH_WMARK_FRAME ≤ f)

/-- A page operation that fails for want of a frame reports it (R131). -/
def noteFail (s : State) (lpn st : Nat) : State := if st = C.TIR_E_NO_FRAME then frameEmpty s (groupFor s (lpn * 4096)) else s

/-- A line whose own way, or whose copy where that is its only instance, is dropped with its copy. -/
def lcDrop (s : State) (la : Nat) : State :=
  let s1 := dropCopy s la
  match lcFind s1 la with
  | some (k, _) => lcPut s1 k none
  | none => s1

/-- The first write to a LOST page (R66, R211): a plain frame takes the line, and every other line of the page is poison. -/
def placeLost (s : State) (lpn : Nat) (d : Desc) (i : Nat) (l : Line) (poison : Bool) : Except Nat State :=
  match placePage s lpn false (withLine (List.replicate 64 (0, true)) i l poison) (dAcc d) with
  | .ok s1 =>
    let k := regionOf s1 (lpn * 4096)
    .ok (((s1.fset KEY_STAT F.KEY_STAT_LOST_PLACED 1).fset KEY_STAT F.KEY_STAT_LASTRGN k).reportAt 0 (srcId 5 127) k C.KEY_W_LOST_PLACEMENT (lpn * 4096 + i * 64) 0)
  | .error st => .error st

/-- A status that refuses a placement: no frame leaves the line unplaced, a key status refuses the write-back. -/
def wbRefused (s : State) (lpn st : Nat) : Wb × State :=
  (if st = C.TIR_E_NO_FRAME then .unplaced else .stuck, noteFail s lpn st)

/-- A page operation of an eviction that the busy ways or the busy bit hold back: it is counted once (R49, R75). -/
def wbWaits (s : State) (la lpn : Nat) : Wb × State :=
  (.wait, if s.tier.wbQueue.contains la then s else evTIR (if busyOf s lpn then 14 else 15) s)

/-- An eviction into a page off its channels relocates it (R140). -/
def wbRelocate (s : State) (la lpn : Nat) (d : Desc) : Wb × State :=
  if canBusy s lpn = false then wbWaits s la lpn
  else match relocate s lpn d with
    | .ok s1 => (.done, s1)
    | .error st => wbRefused s lpn st

/-- A cold merge in place of a promotion that finds no frame or no major (R131, R204): page decoded, line merged, image appended. One that the group's log
cannot take is not begun (R134, R135); one whose Pleat unit fails under it, or whose image fails its verification, leaves the line dirty (R74, R183). -/
def wbMerge (s : State) (la lpn : Nat) (d : Desc) (l : Line) (poison : Bool) : Wb × State :=
  let g := groupFor s la
  let c := if dSize d = 0 then 12 * g else (coldLocate s (dSector d)).1
  let u := pltUnit s c
  let key := lpn * 4096
  let st := appendCheck s g 8 true
  if st ≠ 0 then (.unplaced, promoGiveUp (appendRefused s g st true) lpn key)
  else if poison then (.unplaced, promoGiveUp s lpn key)
  else
    let s0 := if (promoOf s lpn).isSome then s else setBusy (setPromos s (s.tier.promos ++ [⟨lpn, some la, none, false⟩])) lpn true
    match laneFor s0 u 2 key pageLanes true with
    | .wait t => (.wait, t)
    | .failed t => (.unplaced, promoGiveUp t lpn key)
    | .got t =>
      let r := coldPage t u c lpn d
      if r.1.any (·.2) then (.unplaced, promoGiveUp r.2 lpn key)
      else match compressAppend r.2 u lpn d (withLine r.1 (la / 64 % 64) l false) 3 0 0 [(la / 64 % 64, l)] with
        | .ok s1 => (.later, setPromos s1 (s1.tier.promos.filter (fun p => p.lpn != lpn)))
        | .wait _ => (.wait, s0)
        | .failed s1 => (.unplaced, promoGiveUp s1 lpn key)
        | .error e s1 => (.unplaced, promoGiveUp (appendRefused s1 g e true) lpn key)

/-- The page operation that this line's eviction has begun: its busy bit is not one to wait for. -/
def ownPromo (s : State) (la : Nat) : Option Promo := s.tier.promos.find? (fun p => p.la == some la)

/-- The write-back of a line of a COLD page (R129, R131). -/
def wbCold (s : State) (la lpn : Nat) (d : Desc) (l : Line) (poison : Bool) : Wb × State :=
  let key := lpn * 4096
  -- R470: in Basting mode neither a promotion nor a cold merge is made
  if s.devLevel = 3 then (.unplaced, promoGiveUp s lpn key)
  else if 0 < dSize d ∧ slotLive s (dKreg d) (dEpoch d) = false then (.stuck, promoGiveUp s lpn key)
  else if (ownPromo s la).any (fun p => p.frame.isNone) then wbMerge s la lpn d l poison
  else if (ownPromo s la).isNone ∧ canBusy s lpn = false then wbWaits s la lpn
  else match promotePage s lpn key d (some la) (some (la / 64 % 64, l, poison)) with
    | .ok s1 => (.done, s1)
    | .wait s1 => (.wait, s1)
    | .failed s1 => (.wait, s1)
    | .error st s1 =>
      if st = C.TIR_E_NO_FRAME ∨ st = C.KEY_E_EPOCH_BUSY then
        wbMerge (if s1.tier.wbQueue.contains la then s1 else noteFail s1 lpn st) la lpn d l poison
      else (.stuck, s1)

/-- The write-back of one line to its tier (R120, R129, R131, R137, R140, R194, R204, R605). -/
def wbTier (s : State) (la : Nat) (l : Line) (poison : Bool) : Wb × State :=
  let lpn := la / 4096
  let i := la / 64 % 64
  if pagesL s ≤ lpn then (.dropped, notStored la s)
  else
    let s := descFill s lpn
    match descOf s lpn with
    | none => (.wait, s)
    | some d =>
      let c := dChan d
      if busyOf s lpn ∧ ownPromo s la = none then wbWaits s la lpn
      else if writeBlocked s lpn d then (.stuck, s)
      else if dState d = stHOT then
        if frameLost s c (dFrameIdx d) then
          if s.cstate c = csRETRAINING then (.held, s) else wbRelocate s la lpn d
        else writeHot s lpn d i l poison
      else if dState d = stMIRROR then
        if canWrite s c ∨ canWrite s (c + 6) then writeHot s lpn d i l poison
        else if s.cstate c = csRETRAINING ∨ s.cstate (c + 6) = csRETRAINING then (.held, s)
        else wbRelocate s la lpn d
      else if dState d = stCOLD then wbCold s la lpn d l poison
      else if dState d = stLOST then
        if canBusy s lpn = false then wbWaits s la lpn
        else match placeLost s lpn d i l poison with
          | .ok s1 => (.done, s1)
          | .error st => wbRefused s lpn st
      else (.dropped, notStored la s)

end Sys2Proof.Machine
end

