-- ==== Sys2Proof/Machine/Home.lean ====
section
/-! DEFINITION. The home-agent slices (chapters 04 and 07): line-cache placement and victims (R120, R121, R446), line reads and stores, the directory and its
transitions (R228 to R240), the binding table (R241 to R243), and the service of requests in arrival order (R48, R233). -/

namespace Sys2Proof.Machine

def evDIR (k : Nat) (s : State) : State := s.ev (0x3C0 + k)

/-! Ports, as the slices see them. -/

def State.port (s : State) (p : Nat) : Port := tabGet (fun _ => Port.init) s.ports p
def State.setPort (s : State) (p : Nat) (x : Port) : State := { s with ports := tabSet (fun _ => Port.init) s.ports p x }

/-- Vector `v` of the head is raised (R91, R110): a masked vector's pending bit is set instead. -/
def msix (s : State) (p v : Nat) : State :=
  let x := s.port p
  if bit (tabGet msixReset x.msixTab (2 * v + 1)) 32 then s.setPort p { x with msixPend := withBit x.msixPend v true } else s.put (.msix p v)

/-- The log that a vendor record goes to. DESIGN CHOICE (log entry 122, R110): by the class of its status, 0 informational, 1 warning, the others failure. -/
def eventLog (st : Nat) : Nat := if statusClass st = 0 then 0 else if statusClass st = 1 then 1 else 2

/-- The head writes an event record (R110); 64 records a log, then the overflow flag; vectors 1 to 5 serve the logs. -/
def portEventIn (s : State) (p log st src dpa len : Nat) : State :=
  let x := s.port p
  if 64 ≤ (x.events.filter (fun e => e.log == log)).length then s.setPort p { x with evOverflow := withBit x.evOverflow log true }
  else
    let s1 := s.setPort p { x with events := x.events ++ [⟨x.evNext, log, st, src, dpa, len⟩], evNext := x.evNext + 1 }
    if bit x.evPolicy log then msix s1 p (1 + log) else s1

def portEvent (s : State) (p st src dpa : Nat) : State := portEventIn s p (eventLog st) st src dpa 0

def portUpd (s : State) (p : Nat) (f : Port → Port) : State := s.setPort p (f (s.port p))

/-- The port is in host mode. -/
def hostMode (s : State) (p : Nat) : Bool := s.fget (PRT_CFG p) F.PRT_CFG_MODE == 0

/-- The port's head is a holder: it has committed a decoder with back-invalidate (R223). -/
def portBI (s : State) (p : Nat) : Bool := hostMode s p && (s.port p).dec.any (fun x => match x.2 with
  | some d => d.bi
  | none => false)

/-! The binding table (R241 to R243). -/

def bindAt (s : State) (k : Nat) : Option BindEntry := tabGet (fun _ => none) s.home.binds k
def bindPut (s : State) (k : Nat) (e : Option BindEntry) : State :=
  { s with home := { s.home with binds := tabSet (fun _ => none) s.home.binds k e } }

def regionNo (la : Nat) : Nat := la / 2 ^ 21
def bindBase (la : Nat) : Nat := (homeSlice (regionNo la * 2 ^ 21) * 32 + regionNo la % 32) * 8

def bindScan (s : State) (base : Nat) (p : Option BindEntry → Bool) : Nat → Nat → Option Nat
  | 0, _ => none
  | n + 1, w => if p (bindAt s (base + w)) then some (base + w) else bindScan s base p n (w + 1)

/-- Key of the region's entry. -/
def bindFind (s : State) (la : Nat) : Option Nat :=
  bindScan s (bindBase la) (fun e => match e with
    | some b => b.region == regionNo la
    | none => false) 8 0

def freeNode : Nat := 0x3FFF

/-- First index of `x` in a list. -/
def idxOf (x : Nat) : List Nat → Nat → Option Nat
  | [], _ => none
  | a :: r, i => if a = x then some i else idxOf x r (i + 1)

/-- The node bound to a slot of the line's region. -/
def nodeOfBit (s : State) (la b : Nat) : Nat :=
  match bindFind s la with
  | some k => (match bindAt s k with
    | some e => e.nodes.getD (b - 16) freeNode
    | none => freeNode)
  | none => freeNode

/-- Coherence range that contains the line, from `n` on (R243): REMOTE and OVERFLOW. -/
def crRange (s : State) (la : Nat) : Nat → Nat → Nat × Nat
  | 0, _ => (s.fget DIR_CFG F.DIR_CFG_DEF_REMOTE, s.fget DIR_CFG F.DIR_CFG_DEF_OVERFLOW)
  | k + 1, n =>
    let b := DIR_CRBASE n
    if s.fget b F.DIR_CRBASE_VALID = 1 ∧ s.fget b F.DIR_CRBASE_BASE ≤ regionNo la ∧ regionNo la ≤ s.fget (DIR_CRLIM n) F.DIR_CRLIM_LIMIT then
      (s.fget b F.DIR_CRBASE_REMOTE, s.fget b F.DIR_CRBASE_OVERFLOW)
    else crRange s la k (n + 1)

/-- How a requester stands toward the directory. -/
inductive Standing where
  /-- Holds under this sharer bit. -/
  | holder (b : Nat)
  /-- Holds no copy. -/
  | none
  /-- Served as a read-only view (R243). -/
  | view
  /-- Refused with this status (R243). -/
  | refused (st : Nat)
  deriving DecidableEq, Repr

def dirIrq (s : State) : State := if s.fget DIR_CFG F.DIR_CFG_IRQ_EN = 1 then s.irq irqDIR else s

/-- The same request, whatever it has counted: its requester and tag tell it from others. -/
def sameReq (a b : HomeReq) : Bool := { a with noted := 0, kind := .write } == { b with noted := 0, kind := .write }

/-- What bit `k` of `noted` stands for has been counted: 0 its full binding set, 1 its busy bit, 2 its view, 3 its place, 4 its miss; bit 5: its lookup has reserved a slot (R242); bit 6: its master's occupancy has held it (R446). It is noted on the request as it waits (its kind there may be another: a view is served as read current, a port's write-back as a write). -/
def noteReq (s : State) (r : HomeReq) (k : Nat) : State :=
  { s with home := { s.home with waiting := s.home.waiting.map (fun q => if sameReq q r then { q with noted := withBit q.noted k true } else q) } }

/-- REMOTE + 2 × OVERFLOW of the line's region (R243). -/
def crOf (s : State) (la : Nat) : Nat := let x := crRange s la 32 0; x.1 + 2 * x.2

/-- R243: the overflow setting of the region, as it was when the request reached its slice (R251). A write-back or clean evict finds a node that holds nothing. -/
def overflow (s : State) (r : HomeReq) : Standing × State :=
  if r.kind = .writeBack ∨ r.kind = .cleanEvict then (.none, s)
  else if 2 ≤ r.cr then
    if r.kind = .write then (.refused C.DIR_E_READ_ONLY, s.fset DIR_STAT F.DIR_STAT_REFUSED 1)
    else (.view, if bit r.noted 2 then s else noteReq (evDIR 3 (s.fset DIR_STAT F.DIR_STAT_RO_VIEW 1)) r 2)
  else (.refused C.DIR_E_NO_PROXY_SLOT, evDIR 4 (s.fset DIR_STAT F.DIR_STAT_REFUSED 1))

def emptyBind (region : Nat) : BindEntry := ⟨region, List.replicate 16 freeNode, List.replicate 16 0⟩

/-- A coherent kind of request: it looks its node up in the bindings (R242). -/
def coherentKind (k : ReqKind) : Bool := k != .readCurrent && k != .write

/-- A waiting request of node `n` has reserved its slot of the line's region by its lookup (R242). -/
def reserves (s : State) (la n : Nat) : Bool :=
  s.home.waiting.any (fun r => regionNo r.la == regionNo la && bit r.noted 5 && (match r.who with
    | .node m _ => m == n
    | _ => false))

/-- Bind a node in the entry at `k` (R242). -/
def bindIn (s : State) (k n : Nat) (e : BindEntry) : Option (Nat × State) :=
  match idxOf n e.nodes 0 with
  | some i => some (16 + i, s)
  | none =>
    match idxOf freeNode e.nodes 0 with
    | some i => some (16 + i, bindPut s k (some { e with nodes := e.nodes.set i n, counts := e.counts.set i 0 }))
    | none => none

/-- Key in the region's set of an entry that can be taken: none is in use there. -/
def bindFreeKey (s : State) (la : Nat) : Option Nat :=
  bindScan s (bindBase la) (fun e => match e with
    | some b => b.nodes.all (· == freeNode)
    | none => true) 8 0

/-- The set of the region is full with no entry of the region (R243): counted once for a request. -/
def bindFull (s : State) (r : HomeReq) : State :=
  if bit r.noted 0 then s
  else noteReq (dirIrq (evDIR 6 ((s.fset DIR_STAT F.DIR_STAT_BIND_FULL 1).reportAt 0 (srcId 6 (slice r.la)) 0 C.DIR_W_BIND_FULL r.la 0))) r 0

/-- A remote node's standing (R242, R243). -/
def nodeStanding (s : State) (r : HomeReq) (n : Nat) : Standing × State :=
  let la := r.la
  if r.cr % 2 = 0 then (.refused C.DIR_E_REMOTE_DENIED, evDIR 5 (s.fset DIR_STAT F.DIR_STAT_REFUSED 1))
  else
    let coherent := coherentKind r.kind
    let kept := fun (t : State) => if bit r.noted 5 then t else noteReq t r 5
    match bindFind s la with
    | some k =>
      (match bindAt s k with
      | some e =>
        if coherent then
          (match bindIn s k n e with
          | some (b, s1) => (.holder b, kept s1)
          | none => overflow s r)
        else match idxOf n e.nodes 0 with
          | some i => (.holder (16 + i), s)
          | none => if e.nodes.contains freeNode then (.none, s) else overflow s r
      | none => (.none, s))
    | none =>
      match bindFreeKey s la with
      | none => overflow (bindFull s r) r
      | some k =>
        if coherent then
          (match bindIn s k n (emptyBind (regionNo la)) with
          | some (b, s1) => (.holder b, kept s1)
          | none => (.none, s))
        else (.none, s)

/-- The requester's standing for a request (R223). A port that a cut has removed from the directory stays out of it, whatever of its old link still runs to its end
(R112, R113). -/
def standing (s : State) (r : HomeReq) : Standing × State :=
  match r.who with
  | .port p _ gen => (if portBI s p ∧ (s.port p).dirGen ≤ gen then .holder p else .none, s)
  | .node n _ => nodeStanding s r n
  | _ => (.none, s)

/-! The directory (R228, R229). -/

/-- The line's entry is used: least-recently-used order follows (R237). -/
def dirTouch (s : State) (la : Nat) : State := match dirFind s la with
  | some (k, e) => dirPutAt s.tick k (some { e with stamp := s.stamp + 1 })
  | none => s

/-- State, sharers and owner of a line: I when it has no entry. -/
def dirOf (s : State) (la : Nat) : DirEntry := match dirFind s la with
  | some x => x.2
  | none => ⟨0, 0, 0, 0, 0⟩

/-- Bits set in a sharer vector, from `b` on. -/
def bitsOf (v : Nat) : Nat → Nat → List Nat
  | 0, _ => []
  | n + 1, b => if bit v b then b :: bitsOf v n (b + 1) else bitsOf v n (b + 1)

def sharerBits (v : Nat) : List Nat := bitsOf v 32 0

/-- A slot's count rises or falls; a slot at zero is freed unless a waiting request of its node reserves it (R242). -/
def slotCount (s : State) (la b : Nat) (up : Bool) : State :=
  match bindFind s la with
  | none => s
  | some k =>
    match bindAt s k with
    | none => s
    | some e =>
      let i := b - 16
      let v := if up then e.counts.getD i 0 + 1 else e.counts.getD i 0 - 1
      let reserved := reserves s la (e.nodes.getD i freeNode)
      let e1 := { e with counts := e.counts.set i v, nodes := if v = 0 ∧ up = false ∧ reserved = false then e.nodes.set i freeNode else e.nodes }
      bindPut s k (if e1.nodes.all (· == freeNode) then none else some e1)

/-- Free way of a directory set. -/
def dirFree (s : State) (base : Nat) : Nat → Nat → Option Nat
  | 0, _ => none
  | n + 1, w => match dirAt s (base + w) with
    | none => some (base + w)
    | some _ => dirFree s base n (w + 1)

/-- Write a line's directory state: the slots' counts follow (R242); state I frees the entry (R229). -/
def dirWrite (s : State) (la st sharers owner : Nat) : State :=
  match dirPlace s la with
  | none => s
  | some (base, tag) =>
    let old := dirScan s base tag 16 0
    let oldS := match old with
      | some x => x.2.sharers
      | none => 0
    let sh := if st = 0 then 0 else sharers
    let gain := (sharerBits sh).filter (fun b => 16 ≤ b && !bit oldS b)
    let lose := (sharerBits oldS).filter (fun b => 16 ≤ b && !bit sh b)
    let s1 := gain.foldl (fun t b => slotCount t la b true) s
    let k := match old with
      | some x => some x.1
      | none => dirFree s1 base 16 0
    let s2 := match k with
      | some kk => if st = 0 then dirPutAt s1 kk none
          else
            let t := dirPutAt s1.tick kk (some ⟨st, sh, if st = 1 then 0 else owner, tag, s1.stamp + 1⟩)
            if old.isSome then t
            else t.diagSet dgSETOCC (base / 16) (max (t.diagGet dgSETOCC (base / 16)) ((List.range 16).filter (fun w => (dirAt t (base + w)).isSome)).length)
      | none => s1
    lose.foldl (fun t b => slotCount t la b false) s2

/-- Remove one holder's bit: the state that is left (R113, R233). DESIGN CHOICE (log entry 157): when the last other sharer leaves a line in O, the line stays in O with
its owner alone. -/
def dirRemove (s : State) (la b : Nat) : State :=
  let e := dirOf s la
  let sh := withBit e.sharers b false
  if e.state = 0 then s
  else if sh = 0 then dirWrite s la 0 0 0
  else if e.owner = b ∧ 2 ≤ e.state then dirWrite s la 1 sh 0
  else dirWrite s la e.state sh e.owner

/-! Recalls (R225). -/

/-- The snoop of a recall leaves for its holder. -/
def recallGo (s : State) (r : Recall) : State :=
  if r.bit < 16 then (evDIR 0 (s.ev (16 * r.bit + 9))).put (.biSnp r.bit r.la r.kind) else (evDIR 1 s).put (.proxySnp r.node r.la r.kind)

/-- Back-invalidate snoops outstanding toward a head (R84). -/
def snoopsOut (s : State) (p : Nat) : Nat := (s.home.recalls.filter (fun r => r.bit == p && r.sent)).length

/-- Send a recall to the holder of a sharer bit; a head has at most 256 snoops outstanding, and one too many waits (R84). A holder that has a recall of the
line already keeps it; under R240 that one becomes a recall of an unknown entry. -/
def sendRecall (s : State) (la b kind : Nat) (unknown : Bool) : State :=
  if s.home.recalls.any (fun r => r.la == la && r.bit == b) then
    { s with home := { s.home with recalls := s.home.recalls.map (fun r => if r.la = la ∧ r.bit = b then { r with unknown := r.unknown || unknown } else r) } }
  else
    let now := decide (16 ≤ b) || decide (snoopsOut s b < 256)
    let r : Recall := ⟨la, b, if b < 16 then b else nodeOfBit s la b, kind, false, unknown, now, false, s.time⟩
    let s1 := { s with home := { s.home with recalls := s.home.recalls ++ [r] } }
    if now then recallGo s1 r else s1

/-- A snoop that waited for room among the head's 256 leaves. -/
def recallNext (s : State) (p : Nat) : State :=
  if 256 ≤ snoopsOut s p then s
  else match s.home.recalls.find? (fun r => r.bit == p && !r.sent) with
    | some r =>
      recallGo { s with home := { s.home with recalls := s.home.recalls.map (fun q => if q.la = r.la ∧ q.bit = r.bit then { q with sent := true, born := s.time } else q) } } r
    | none => s

/-- A recall is over. -/
def endRecall (s : State) (rc : Recall) : State :=
  let s1 := { s with home := { s.home with recalls := s.home.recalls.filter (fun r => !(r.la == rc.la && r.bit == rc.bit)) } }
  if rc.bit < 16 then recallNext s1 rc.bit else s1

def recallsOut (s : State) (la : Nat) : Bool := s.home.recalls.any (fun r => r.la == la)

/-- Address of the line that a directory entry tracks. -/
def dirLa (s : State) (sl : Nat) (set : Nat) (e : DirEntry) : Nat :=
  let ds := e.tag / 16 * 64 + set % 64
  match dcAt s (dcKey sl ds (e.tag % 16)) with
  | some x => x.page * 4096 + set / 64 * 64
  | none => 0

/-- Invalidate every holder of a line, to free its entry (R237, R230, R249). A holder whose earlier recall is still out is invalidated after it (`settle`). -/
def evictLine (s : State) (la : Nat) : State :=
  let e := dirOf s la
  if e.state = 0 ∨ s.home.evicting.contains la then s
  else
    let s1 := { s with home := { s.home with evicting := s.home.evicting ++ [la] } }
    (sharerBits e.sharers).foldl (fun t b => sendRecall t la b 0 false) s1

/-- A directory eviction is counted (R237, R230). -/
def evictCounted (s : State) (la : Nat) : State :=
  if (dirOf s la).state = 0 ∨ s.home.evicting.contains la then s else (evictLine s la).ev (0x310 + 4 * slice la + 3)

/-- The victim of a full set: least recently used among ways that no request uses (R237). -/
def dirVictim (s : State) (sl set : Nat) : Nat → Nat → Option (Nat × Nat) → Option (Nat × Nat)
  | 0, _, b => b
  | n + 1, w, b =>
    match dirAt s ((sl * 4096 + set) * 16 + w) with
    | none => dirVictim s sl set n (w + 1) b
    | some e =>
      let la := dirLa s sl set e
      let used := s.home.waiting.any (fun r => r.la == la) || recallsOut s la
      let better := match b with
        | some x => decide (e.stamp < x.2)
        | none => true
      dirVictim s sl set n (w + 1) (if !used && better then some (la, e.stamp) else b)

/-- Make sure that a line can be recorded: true when it has an entry or a way is free; otherwise a directory eviction starts (R235, R237). -/
def dirRoom (s : State) (la : Nat) : Bool × State :=
  match dirPlace s la with
  | none => (false, s)
  | some (base, tag) =>
    match dirScan s base tag 16 0 with
    | some _ => (true, s)
    | none =>
      match dirFree s base 16 0 with
      | some _ => (true, s)
      | none =>
        let sl := slice la
        let set := base / 16 % 4096
        let busyEv := s.home.evicting.any (fun v => match dirPlace s v with
          | some (b, _) => b == base
          | none => false)
        if busyEv then (false, s)
        else match dirVictim s sl set 16 0 none with
          | some (v, _) => (false, evictCounted s v)
          | none => (false, s)

/-- The recalls that a request needs in the present state of its line (R233): sharer bits and kinds. `rb` is the requester's own bit, 32 when it has none.
A proxy holds back a recall while its own request of the line is out (R227), so that its own bit is passed over; an access of one of its Bobbins (R372) is no
such request, and a partial write from a proxy that the directory has as the owner takes the owner's data first (R234). -/
def needRecalls (r : HomeReq) (rb : Nat) (e : DirEntry) : List (Nat × Nat) :=
  let h := e.owner
  let own := decide (16 ≤ rb) && decide (rb < 32) && r.ocls == 0
  let others := (sharerBits e.sharers).filter (· != rb)
  let proxyR := 16 ≤ rb ∧ rb < 32
  match r.kind with
  | .readShared =>
    if e.state < 2 ∨ h = rb then []
    else if h < 16 then [(h, 1)]
    else if proxyR then [(h, 2)] else [(h, 1)]
  | .readExclusive => if e.state = 0 then [] else others.map (·, 0)
  | .readCurrent => if e.state < 2 ∨ (h = rb ∧ own) then [] else if h < 16 then [(h, 1)] else [(h, 3)]
  | .write => if e.state = 0 then [] else (if own ∧ ¬ (2 ≤ e.state ∧ h = rb ∧ r.mask ≠ 2 ^ 64 - 1) then others else sharerBits e.sharers).map (·, 0)
  | .writeBack => []
  | .cleanEvict => []

/-! Line-cache occupancy (R445, R446). -/

/-- Lines of master `m` in a share. -/
def occupancy (s : State) (sl m : Nat) : Nat :=
  (s.tier.lc.filter (fun e => e.1 / (768 * 16) == sl && (match e.2 with
    | some x => x.master == m
    | none => false))).length

def guarLines (s : State) (m : Nat) : Nat := if m < 28 then s.fget (QOS_MOCC m) F.QOS_MOCC_GUAR * 3 else 0
def capReached (s : State) (sl m : Nat) : Bool :=
  m < 28 && s.fget (QOS_MOCC m) F.QOS_MOCC_CAP != 0 && decide (s.fget (QOS_MOCC m) F.QOS_MOCC_CAP * 3 ≤ occupancy s sl m)

/-- R447: a guarantee was missed. -/
def qosMiss (s : State) (m r short : Nat) : State :=
  let was := s.fget QOS_STAT F.QOS_STAT_MISS
  let s1 := (((s.fset QOS_MISSLOG F.QOS_MISSLOG_MASTER m).fset QOS_MISSLOG F.QOS_MISSLOG_RESOURCE r).fset QOS_MISSLOG F.QOS_MISSLOG_SHORT (min short 65535))
  let s2 := ((s1.fsat QOS_MISSLOG F.QOS_MISSLOG_COUNT 1).fset QOS_MISSLOG F.QOS_MISSLOG_VALID 1).ev (if r = 24 then 0x5B9 else 0x5B8)
  let s3 := s2.fset QOS_STAT F.QOS_STAT_MISS 1
  if was = 0 ∧ s3.fget QOS_CFG F.QOS_CFG_IRQ_EN = 1 then s3.irq irqQOS else s3

/-- The victim of R446 among the ways that meet `p`: unused, else the least recently used of a master above its guarantee, else the least recently used. -/
def lcChoose (s : State) (base : Nat) (p : LcEntry → Bool) : Option Nat :=
  let sl := base / (768 * 16)
  match lcPick s base (fun e => p e && decide (guarLines s e.master < occupancy s sl e.master)) 16 0 none with
  | some x => some x.1
  | none => (lcPick s base p 16 0 none).map (·.1)

/-- The line in way `k` is dropped for master `m`'s allocation (R447). -/
def lcTake (s : State) (k m : Nat) : State :=
  match lcAt s k with
  | none => s
  | some e =>
    let sl := k / (768 * 16)
    let s1 := lcPut s k none
    if e.master ≠ m ∧ e.master < 28 ∧ occupancy s sl e.master ≤ guarLines s e.master then qosMiss s1 e.master 24 1 else s1

/-! Latency histograms (R448). -/

/-- Histogram `h` takes a sample of master `m` at `point` whose interval began at `start`; 2^64 marks an interval that contains a step of fabric time. -/
def histOne (m point : Nat) (wr : Bool) (start : Nat) (s : State) (h : Nat) : State :=
  let c := QOS_HISTCFG h
  let k := s.fget c F.QOS_HISTCFG_KIND
  if s.fget c F.QOS_HISTCFG_EN = 0 ∨ s.fget c F.QOS_HISTCFG_MASTER ≠ m ∨ s.fget c F.QOS_HISTCFG_POINT ≠ point ∨ (k = 1 ∧ wr) ∨ (k = 2 ∧ wr = false) then s
  else if start = 2 ^ 64 then (s.fsat (QOS_HISTSTAT h) F.QOS_HISTSTAT_STEPS 1).ev 0x5BB
  else
    let d := s.time - start
    let base := s.fget c F.QOS_HISTCFG_BASE
    if d < base then s.fsat (QOS_HISTSTAT h) F.QOS_HISTSTAT_UNDER 1
    else if d - base < 1024 then
      s.fsat (QOS_HBIN h ((d - base) / 2)) (if (d - base) % 2 = 0 then F.QOS_HBIN_BIN_LO else F.QOS_HBIN_BIN_HI) 1
    else (s.fsat (QOS_HISTSTAT h) F.QOS_HISTSTAT_OVER 1).ev 0x5BA

/-- Every histogram that measures the master at this point takes the sample. -/
def histSample (m point : Nat) (wr : Bool) (start : Nat) (s : State) : State :=
  (List.range 8).foldl (histOne m point wr start) s

/-- A request of master `m` waits for a pass somewhere (R444). -/
def passHeld (s : State) (m : Nat) : Bool := s.chans.any (fun c => c.2.regul.held.any (fun o => o.op.master == m))

/-- A write of master `m` that needs a new line waits because the master's occupancy has reached its cap (R446). -/
def capHeld (s : State) (m : Nat) : Bool :=
  s.home.waiting.any (fun r => r.master == m && bit r.noted 3 && capReached s (slice r.la) m && (lcFind s r.la).isNone)

/-- A request of the master is held: its port releases no new one (R444, R446). -/
def portHeld (s : State) (m : Nat) : Bool := passHeld s m || capHeld s m

/-- Nanoseconds of the last 8 µs in which a request of the port was held (R107). -/
def heldTime (s : State) (p : Nat) : Nat :=
  ((s.port p).heldLog.map (fun x => min x.2 s.time - max x.1 (s.time - 8000))).foldl (· + ·) 0

/-- What `after` did to the requests that are held is noted for the port: an interval begins or ends, and those of more than 8 µs ago are forgotten (R107). -/
def heldNote (before after : State) (p : Nat) : State :=
  let was := portHeld before p
  let now := portHeld after p
  let x := tabGet (fun _ => Port.init) after.ports p
  let put := fun (l : List (Nat × Nat)) => { after with ports := tabSet (fun _ => Port.init) after.ports p { x with heldLog := l } }
  if was = now then after
  else if now then put ((after.time, 2 ^ 64) :: x.heldLog.filter (fun e => after.time < e.2 + 8000))
  else put (x.heldLog.map (fun e => if e.2 = 2 ^ 64 then (e.1, after.time) else e))

/-- Waiting writes that began to be held, or stopped, are noted for their ports (R107, R446). -/
def heldNotes (before after : State) : State :=
  (((before.home.waiting ++ after.home.waiting).filter (fun r => decide (r.master < 16) && bit r.noted 3)).map (·.master)).eraseDups.foldl (heldNote before) after

/-- The port has had its guaranteed share of some channel's slots during the last 8 µs (R107, R440): a channel that runs at `r` MT/s has `r` bursts in 8 µs. -/
def atShare (s : State) (p : Nat) : Bool :=
  s.chans.any (fun c =>
    let n := (c.2.regul.recent.filter (fun x => x.1 == p && decide (s.time < x.2 + 8000))).length
    0 < n && [6400, 8800, 12800].getD (s.fget (DCH_STAT c.1) F.DCH_STAT_SPEED) 12800 * s.fget (QOS_MDRAM p) F.QOS_MDRAM_GUAR ≤ 4096 * n)

/-- The DevLoad field of a response (R107): 0 Light, 1 Optimal, 2 Moderate Overload, 3 Severe Overload. -/
def devLoad (s : State) (p : Nat) : Nat :=
  if 8000 ≤ 10 * heldTime s p then 3
  else if 0 < heldTime s p ∨ portHeld s p then 2
  else if atShare s p then 1 else 0

/-- A response leaves for the host. -/
def hostResponse (s : State) (p tag : Nat) (d : Line) (poison : Bool) (mv : Nat) : State :=
  let l := devLoad s p
  let s1 := (s.ev (16 * p + 3)).diagAdd dgCDC p 1
  let s2 := if poison then s1.ev (16 * p + 10) else s1
  (if l = 3 then s2.ev (16 * p + 14) else s2).put (.hostCpl p tag d poison mv l)

/-- The tracked request of this tag of the present link: a completion of an earlier generation finds none (R112). -/
def tracked (s : State) (p tag gen : Nat) : Option PReq :=
  if gen = (s.port p).gen then (s.port p).trk.find? (fun r => r.tag == tag) else none

/-- A completion goes to the host, unless its request was cut (R112): it enters the replay buffer (R13). -/
def cplHost (s : State) (p tag gen : Nat) (d : Line) (poison : Bool) (mv : Nat) : State :=
  match tracked s p tag gen with
  | none => s
  | some q =>
    let s0 := histSample p 0 q.wr q.born s
    let x := s0.port p
    hostResponse (s0.setPort p { x with trk := x.trk.filter (fun r => r.tag != tag), replay := x.replay ++ [tag] }) p tag d poison mv

/-- A host write whose completion is withheld (R98, R106, R194, R204, R605): an event record with the status and the DPA. -/
def withhold (s : State) (p tag gen st : Nat) : State :=
  match tracked s p tag gen with
  | none => s
  | some q =>
    let x := s.port p
    portEvent (s.setPort p { x with trk := x.trk.filter (fun r => r.tag != tag) }) p st (srcId 1 p) q.dpa

/-- Entry `n` of the head map: valid, first DPA, length in bytes, whether remote, node, first LA. -/
def hmEntry (s : State) (p n : Nat) : Bool × Nat × Nat × Bool × Nat × Nat :=
  let a := (s.rg (PRT_HMAPA p n)).toNat
  let b := (s.rg (PRT_HMAPB p n)).toNat
  (fld a F.PRT_HMAPA_VALID == 1, fld a F.PRT_HMAPA_DPABASE * 2 ^ 21, (fld a F.PRT_HMAPA_LEN + 1) * 2 ^ 21,
   fld b F.PRT_HMAPB_KIND == 1 && fld b F.PRT_HMAPB_NODE != s.fget FAB_NODEID F.FAB_NODEID_NODE, fld b F.PRT_HMAPB_NODE, fld b F.PRT_HMAPB_LABASE * 2 ^ 21)

/-- Entries of the head map that have been written. -/
def hmWritten (s : State) (p : Nat) : List Nat :=
  s.regs.filterMap fun e => if PRT_HMAPA p 0 ≤ e.1 ∧ e.1 < PRT_HMAPA p 512 ∧ (e.1 - PRT_HMAPA p 0) % 16 = 0 then some ((e.1 - PRT_HMAPA p 0) / 16) else none

/-- DPAs under which the head's map shows a line. -/
def dpasOf (s : State) (p la : Nat) : List Nat :=
  (hmWritten s p).filterMap fun n =>
    let e := hmEntry s p n
    let base := e.2.2.2.2.2 + (if e.2.2.2.1 then 2 ^ 47 + e.2.2.2.2.1 * 2 ^ 47 else 0)
    if e.1 ∧ base ≤ la ∧ la < base + e.2.2.1 then some (e.2.1 + (la - base)) else none

/-- A poisoned line that the head knows of (R105): at most 1,024, then the overflow flag. -/
def notePoison (s : State) (p dpa : Nat) : State :=
  portUpd s p (fun x => if x.poisonList.contains dpa then x else if 1024 ≤ x.poisonList.length then { x with poisonOver := true } else { x with poisonList := x.poisonList ++ [dpa] })

/-- A line has become poison, or has been written whole without poison: the poison lists of the heads that map it follow (R105). -/
def poisonKnown (s : State) (la : Nat) (poison : Bool) : State :=
  let known := s.home.poisonLas.contains la
  if poison = known then s
  else
    let s1 := { s with home := { s.home with poisonLas := if poison then s.home.poisonLas ++ [la] else s.home.poisonLas.filter (· != la) } }
    (List.range 16).foldl (fun t p =>
      if poison then (dpasOf t p la).foldl (fun u d => notePoison u p d) t
      else
        let ds := dpasOf t p la
        if (t.port p).poisonList.any ds.contains then portUpd t p (fun x => { x with poisonList := x.poisonList.filter (fun d => !ds.contains d) }) else t) s1

/-! Write-backs of cached lines. -/

/-- Ask for a request to a remote home (R244); one of a kind at a time for a line. -/
def guestAsk (s : State) (r : HomeReq) : State :=
  if s.home.guestReqs.any (fun q => q.la == r.la && q.kind == r.kind) then s
  else { s with home := { s.home with guestReqs := s.home.guestReqs ++ [r] } }

/-- A dirty write-back counts in ACC when ACC_WB says so (R124). -/
def countWb (s : State) (page : Nat) : State := if s.fget TIR_CFG F.TIR_CFG_ACC_WB = 1 then bumpAcc s page else s

/-- The write-back of a remote line goes to its home as WbDirty (R245). -/
def guestWb (s : State) (la : Nat) (e : LcEntry) : State :=
  guestAsk s { kind := .writeBack, who := .dev 1, la := la, data := e.data, mask := 2 ^ 64 - 1, poison := e.st == .poisoned, master := e.master, mval := 1 }

/-- Write one cached line back, if it is not clean (R120, R122, R123, R124, R140). -/
def wbOnce (s : State) (la : Nat) : Wb × State :=
  match cachedLine s la with
  | none => (.dropped, s)
  | some e =>
    if e.st = .clean then (.done, s)
    else if isGuestLa la then
      let d := dirOf s la
      -- a host that holds the line in E is brought to S first, so that the guest's standing never falls below its hosts' (R244)
      if 2 ≤ d.state then (.wait, sendRecall s la d.owner 1 false) else (.later, guestWb s la e)
    else
      let r := wbTier s la e.data (e.st = .poisoned)
      match r.1, lcFind r.2 la with
      | .done, some (k, x) =>
        (.done, (dropCopy (lcPut (countWb r.2 (la / 4096)) k (if e.st = .poisoned then none else some { x with st := .clean })) la).ev (0x310 + 4 * slice la + 2))
      | .done, none => (.done, dropCopy (countWb r.2 (la / 4096)) la)
      | .held, some (k, x) => (.held, if e.st = .dirty then evTIR 20 (lcPut r.2 k (some { x with st := .held })) else r.2)
      | .dropped, _ => (.dropped, lcDrop r.2 la)
      | w, _ => (w, r.2)

def setWbQueue (s : State) (q : List Nat) : State := { s with tier := { s.tier with wbQueue := q } }

/-- Write one cached line back; one that must wait keeps its place among those that wait (R49, R120). -/
def wbLine (s : State) (la : Nat) : Wb × State :=
  let r := wbOnce s la
  let q := r.2.tier.wbQueue
  if r.1 = .wait then (.wait, setWbQueue r.2 (if q.contains la then q else q ++ [la]))
  else
    let t := setWbQueue r.2 (q.filter (· != la))
    -- a promotion that the eviction had begun, and that has not ended with it, is given up
    (r.1, if (ownPromo t la).isSome then promoGiveUp t (la / 4096) (la / 4096 * 4096) else t)

/-- Write-backs that wait are tried again, oldest first. -/
def wbDrain (s : State) : State := s.tier.wbQueue.foldl (fun t la => (wbLine t la).2) s

/-- A way of a set for a write by master `m` (R120, R131): the victim of R446 is written back before its way is reused, and the write waits for that (no
way is answered); lines whose destination takes no writes, or refuses them, are no victims (R140, R194, R204). -/
def makeWay (s : State) (base m : Nat) : Nat → List Nat → Option Nat × State
  | 0, _ => (none, s)
  | n + 1, skip =>
    match lcChoose s base (fun e => e.st != .held && !e.copy && !(skip.contains e.line)) with
    | none => (none, s)
    | some k =>
      match lcAt s k with
      | none => (some k, s)
      | some e =>
        if e.st = .clean then (some k, lcTake s k m)
        else
          let r := wbLine s (e.line * 64)
          match r.1 with
          | .done => (some k, lcTake r.2 k m)
          | .dropped => (some k, r.2)
          | .held | .stuck => makeWay r.2 base m n (e.line :: skip)
          | _ => (none, r.2)

/-- A read miss fills its line into a Clean way, or starts a write-back so that a later miss finds one (R120, R446). -/
def lcFill (s : State) (la : Nat) (d : Line) (m : Nat) (startWb : Bool) : State :=
  if capReached s (slice la) m then s
  else match lcChoose s (lcBase la) (fun e => e.st == .clean && !e.copy) with
    | some k => lcPut (lcTake s.tick k m) k (some ⟨false, la / 64, .clean, d, m, s.stamp + 1⟩)
    | none =>
      if startWb then
        match lcChoose s (lcBase la) (fun e => e.st != .held && !e.copy) with
        | some k => (match lcAt s k with
          | some e => (wbLine s (e.line * 64)).2
          | none => s)
        | none => s
      else s

/-- Copies in a set, oldest first: (stamp, key, line). -/
def copiesOf (s : State) (base : Nat) : List (Nat × Nat × Nat) :=
  (List.range 16).filterMap fun w => match lcAt s (base + w) with
    | some e => if e.copy then some (e.stamp, base + w, e.line) else none
    | none => none

def oldestCopy : List (Nat × Nat × Nat) → Option (Nat × Nat × Nat)
  | [] => none
  | x :: r => match oldestCopy r with
    | some y => if y.1 < x.1 then some y else some x
    | none => some x

/-- Write, or update, the copy of a protected dirty line in the partner share (R121); false: the write waits. -/
def placeCopy (s : State) (la : Nat) (d : Line) (st : LcState) (m : Nat) : Bool × State :=
  match copyFind s la with
  | some (k, e) => (true, lcPut s k (some { e with data := d, st := st, master := m }))
  | none =>
    let base := lcCopyBase la
    let cs := copiesOf s base
    let room : Bool × State :=
      if cs.length < 4 then (true, s)
      else match oldestCopy cs with
        | some o =>
          let r := wbLine s (o.2.2 * 64)
          (match r.1 with
            | .done => (true, evTIR 21 r.2)
            | .dropped => (true, r.2)
            | _ => (false, r.2))
        | none => (true, s)
    if room.1 = false then room
    else match makeWay room.2 base m 16 [] with
      | (none, s3) => (false, s3)
      | (some k, s3) => (true, lcPut s3.tick k (some ⟨true, la / 64, st, d, m, s3.stamp + 1⟩))

/-- The line is kept twice while dirty: its page is protected (R83), or it is a remote line (R245). -/
def keptTwice (s : State) (la : Nat) : Bool := isGuestLa la || (match descOf s (la / 4096) with
  | some x => dProtected x
  | none => false)

/-- Place a written line in the cache, with its copy when the page is protected (R120, R121); a line whose copy is its only instance keeps it there (R123).
False: the write waits. -/
def placeWay (s : State) (la : Nat) (d : Line) (poison : Bool) (m : Nat) : Bool × State :=
  let st := if poison then LcState.poisoned else .dirty
  match lcFind s la, copyFind s la with
  | none, some (k, e) => (true, lcPut s k (some { e with data := d, st := st, master := m }))
  | some _, _ =>
    let c := if keptTwice s la || (copyFind s la).isSome then placeCopy s la d st m else (true, s)
    if c.1 = false then c
    else (match lcFind c.2 la with
      | some (k, e) => (true, lcPut c.2.tick k (some { e with st := if e.st = .held ∧ !poison then .held else st, data := d, master := m, stamp := c.2.stamp + 1 }))
      | none => (false, c.2))
  | none, none =>
    if capReached s (slice la) m then (false, s)
    else match makeWay s (lcBase la) m 16 [] with
      | (none, s1) => (false, s1)
      | (some k, s1) =>
        -- the way is empty now; the copy goes first, so that a write that waits leaves nothing behind
        let c := if keptTwice s1 la then placeCopy (lcPut s1 k none) la d st m else (true, s1)
        if c.1 then (true, lcPut c.2.tick k (some ⟨false, la / 64, st, d, m, c.2.stamp + 1⟩)) else c

/-- A written line is in the cache, and the poison lists follow (R105). False: the write waits. -/
def placeLine (s : State) (la : Nat) (d : Line) (poison : Bool) (m : Nat) : Bool × State :=
  let r := placeWay s la d poison m
  if r.1 then (true, poisonKnown r.2 la poison) else r

/-! Line reads at the home. -/

def segLa (la : Nat) : Nat := la / 512 * 512

/-- The decode of the line's segment waits for its lane (R127, R182). -/
def segAsk (s : State) (d : Desc) (la : Nat) : State := pleatAsk s (segUnit s d (la / 512 % 8)) 1 (segLa la) 1 false

/-- A read of a requested line from DRAM counts in ACC when ACC_FILL says so (R124). -/
def countFill (s : State) (page : Nat) : State := if s.fget TIR_CFG F.TIR_CFG_ACC_FILL = 1 then bumpAcc s page else s

/-- A line of the hot page is read from DRAM: its key counts, and its frame or the twin serves reads (R126, R194). -/
def hotServed (s : State) (d : Desc) : Bool :=
  slotLive s (dKreg d) (dEpoch d) && (canRead s (dChan d) (dFrameIdx d) || (dState d == stMIRROR && canRead s (dChan d + 6) (dFrameIdx d)))

/-- A line at its home (R123, R126): from the cache, from its copy, from what has just arrived, or from its tier. `again`: the request's miss has been
counted already. -/
def lineRead (s : State) (la m : Nat) (again : Bool) : TierRes × State :=
  let sl := slice la
  let hit := fun (t : State) => t.ev (0x310 + 4 * sl)
  match lcFind s la with
  | some (k, e) => (if e.st = .poisoned then .poison else .data e.data, hit (lcPut s.tick k (some { e with stamp := s.stamp + 1 })))
  | none =>
    match copyFind s la with
    | some (_, e) => (if e.st = .poisoned then .poison else .data e.data, hit s)
    | none =>
      match s.home.arrived.find? (fun a => a.la == la) with
      | some a => (match a.data with
        | some d => if a.poison then .poison else .data d
        | none => .poison, s)
      | none =>
        let s0 := if again then s else s.ev (0x310 + 4 * sl + 1)
        let page := la / 4096
        if isGuestLa la then (.wait, s0)
        else if pagesL s0 ≤ page then (.poison, notStored la s0)
        else match descOf s0 page with
          | none => (.wait, s0)
          | some d =>
            if dHot d then
              let r := hotRead s0 la d
              let counted := if hotServed s0 d then countFill r.2 page else r.2
              match r.1 with
              | .data x => (.data x, lcFill counted la x m true)
              | .poison => (.poison, evTIR 6 (poisonKnown counted la true))
              | .wait => (.wait, r.2)
            else if dState d = stCOLD then
              if dSize d = 0 then (.data 0, lcFill s0 la 0 m true)
              else if slotLive s0 (dKreg d) (dEpoch d) = false then (.poison, noKeyReport (dKreg d) la s0)
              else (.wait, segAsk s0 d la)
            else (.poison, notStored la s0)

/-! Stores at the home. -/

/-- Merge the bytes of `new` that `mask` selects into `old`. -/
def mergeBytes (mask : Nat) (old new : Line) : Line :=
  lineOf ((List.range 64).map fun i => if bit mask i then (lineBytes new).getD i 0 else (lineBytes old).getD i 0)

def fullMask : Nat := 2 ^ 64 - 1

/-- How a store ends. -/
inductive StoreRes where
  | done
  | wait
  /-- Refused with this status (R194, R204, R605). -/
  | refused (st : Nat)
  deriving DecidableEq, Repr

/-- The page's writes are refused now: its slot is EMPTY (R194), or it is write-blocked and the switch is still not admitted (R204). -/
def writeRefusal (s : State) (lpn : Nat) (d : Desc) : Option Nat :=
  let k := dKreg d
  match usesSlot d with
  | none => none
  | some _ =>
    if slotLive s k (dEpoch d) = false then some C.KEY_E_NO_KEY
    else if dHot d ∧ s.keys.blocked.contains (blockKey k lpn) ∧ switchOk s k (dEpoch d) = false then some C.KEY_E_EPOCH_BUSY
    else none

/-- A write that finds no way waits: it is counted once (R120, R446). -/
def writeWaits (s : State) (la m : Nat) (again : Bool) : State :=
  if again then s
  else
    let s1 := evTIR 19 s
    if capReached s1 (slice la) m && (lcFind s1 la).isNone then s1.ev (0x581 + 2 * m) else s1

/-- Place a store's line (R120, R121); it waits where no way can be had. -/
def storePlace (s : State) (la : Nat) (d : Line) (poison : Bool) (m : Nat) (again : Bool) : StoreRes × State :=
  let r := placeLine s la d poison m
  if r.1 then (.done, r.2) else (.wait, writeWaits r.2 la m again)

/-- A partial store merges with the line's cached instance (R105, R123). -/
def storeMerge (s : State) (la : Nat) (e : LcEntry) (d : Line) (mask : Nat) (poison : Bool) (m : Nat) (again : Bool) : StoreRes × State :=
  storePlace s la (mergeBytes mask e.data d) (poison || e.st == .poisoned) m again

/-- A store to a page in LOST (R66): the line, with what the cache has of it, is placed in a new frame, and its cached instance goes. -/
def storeLost (s : State) (la : Nat) (ds : Desc) (d : Line) (mask : Nat) (poison again : Bool) : StoreRes × State :=
  let lpn := la / 4096
  let full := mask == fullMask
  let x : Line × Bool := match cachedLine s la with
    | some e => (mergeBytes mask e.data d, poison || (!full && e.st == .poisoned))
    | none => (mergeBytes mask 0 d, poison || !full)
  if canBusy s lpn = false then (.wait, s)
  else match placeLost s lpn ds (la / 64 % 64) x.1 x.2 with
    | .ok s1 => (.done, poisonKnown (lcDrop s1 la) la x.2)
    | .error st => if st = C.TIR_E_NO_FRAME then (.wait, if again then s else noteFail s lpn st) else (.refused st, s)

/-- A partial store to a hot page whose line is not cached (R198): the cipher unit reads, decrypts, merges and encrypts; it counts as
one write-back (R124, R453). -/
def storeHotPart (s : State) (la : Nat) (ds : Desc) (d : Line) (mask : Nat) (poison : Bool) (m : Nat) (again : Bool) : StoreRes × State :=
  let lpn := la / 4096
  let r := hotRead s la ds
  let l := match r.1 with
    | .data x => mergeBytes mask x d
    | _ => d
  let p := poison || r.1 == .poison
  let takes := if dState ds = stMIRROR then canWrite r.2 (dChan ds) || canWrite r.2 (dChan ds + 6) else !frameLost r.2 (dChan ds) (dFrameIdx ds)
  if r.1 = .wait then (.wait, r.2)
  else if mergeFull s (dChan ds) ∨ (dState ds = stMIRROR ∧ mergeFull s (dChan ds + 6)) then (.wait, s)
  else if takes = false then storePlace r.2 la l p m again
  else match writeHot r.2 lpn ds (la / 64 % 64) l p with
    | (.done, s1) => (.done, poisonKnown ((countWb s1 lpn).ev (0x310 + 4 * slice la + 2)) la p)
    | (.stuck, s1) => (.refused C.KEY_E_EPOCH_BUSY, s1)
    | (_, s1) => (.wait, s1)

/-- A store of the masked bytes of a line (R105, R120, R194, R198, R204, R605, R66); `again`: its waiting has been counted. -/
def lineStore (s : State) (la : Nat) (d : Line) (mask : Nat) (poison : Bool) (m : Nat) (again : Bool) : StoreRes × State :=
  let lpn := la / 4096
  if isGuestLa la then
    if mask = fullMask then storePlace s la d poison m again
    else match cachedLine s la, s.home.arrived.find? (fun a => a.la == la) with
      | some e, _ => storeMerge s la e d mask poison m again
      | none, some a => storePlace s la (mergeBytes mask (a.data.getD 0) d) (poison || a.poison) m again
      | none, none => (.wait, s)
  else if pagesL s ≤ lpn then (.refused C.TIR_E_STATE, notStored la s)
  else match descOf s lpn with
    | none => (.wait, s)
    | some ds =>
      if dState ds = stINIT ∨ 4 < dState ds then (.refused C.TIR_E_STATE, notStored la s)
      else match writeRefusal s lpn ds with
        | some st => (.refused st, if st = C.KEY_E_EPOCH_BUSY then evTIR 17 s else s)
        | none =>
          if dState ds = stLOST then storeLost s la ds d mask poison again
          else if mask = fullMask then storePlace s la d poison m again
          else match cachedLine s la with
            | some e => storeMerge s la e d mask poison m again
            | none =>
              if dHot ds then storeHotPart s la ds d mask poison m again
              else if dSize ds = 0 then storePlace s la (mergeBytes mask 0 d) poison m again
              else
                -- a partial write to a cold page takes the promotion path with its merged line: its segment is read first
                match s.home.arrived.find? (fun a => a.la == la) with
                | some a => storePlace s la (mergeBytes mask (a.data.getD 0) d) (poison || a.poison) m again
                | none => (.wait, segAsk s ds la)

/-! Completion records (R301, R302, R322). -/

def State.spool (s : State) (q : Nat) : Spool := tabGet (fun _ => Spool.init) s.spools q
def State.setSpool (s : State) (q : Nat) (x : Spool) : State := { s with spools := tabSet (fun _ => Spool.init) s.spools q x }

def evSPL (c k : Nat) (s : State) : State := s.ev (0x500 + 8 * c + k)
def spoolClass (s : State) (q : Nat) : Nat := s.fget (SPL_CLASSINFO q) F.SPL_CLASSINFO_CLASS

/-- The Spool's interrupt (R322): MSI-X to a head, a notice to a Seam node, the partition's Spool interrupt. -/
def spoolIrq (s : State) (q : Nat) : State :=
  let s1 := s.setSpool q { s.spool q with unrep := 0 }
  let o := s.fget (SPL_CLASSINFO q) F.SPL_CLASSINFO_OWNER
  match s.fget (SPL_CLASSINFO q) F.SPL_CLASSINFO_OWNERKIND with
  | 0 => msix s1 o (s.fget (SPL_IRQ q) F.SPL_IRQ_VECTOR)
  | 1 => { s1 with notices := s1.notices ++ [(o, q)] }
  | 2 => s1.irq (80 + o)
  | _ => s1

/-- Every index below it has its record written. -/
def cqDone (cons : Nat) (cmds : List Cmd) : Nat :=
  let back := (cmds.filter (fun c => c.recd != 2)).foldl (fun a c => max a ((cons + 2 ^ 32 - c.n) % 2 ^ 32)) 0
  (cons + 2 ^ 32 - back) % 2 ^ 32

/-- The entries left in the in-flight table: those whose record is not written, or whose program still runs. -/
def liveCmds (cmds : List Cmd) : List Cmd := cmds.filter (fun c => c.recd != 2 || c.stage == 1)

/-- The record of command `n` is in the ring: CQDONE follows, the entry is freed and the interrupt is counted. -/
def recordWritten (s : State) (q n : Nat) : State :=
  let x := s.spool q
  match x.cmds.find? (fun c => c.n == n && c.recd == 1) with
  | none => s
  | some c =>
    let cs := x.cmds.map (fun e => if e.n = n then { e with recd := 2 } else e)
    let s1 := s.setSpool q { x with cmds := liveCmds cs, unrep := x.unrep + 1 }
    let s2 := (histSample (16 + spoolClass s q) 3 false c.born s1).fset (SPL_PROGRESS q) F.SPL_PROGRESS_CQDONE (cqDone (s1.fget (SPL_PROGRESS q) F.SPL_PROGRESS_CONS) cs)
    let s3 := evSPL (spoolClass s q) (if (c.claim.getD (0, 0)).1 / 4096 < 2 then 2 else 3) s2
    let now := bit (c.desc.toNat / 2 ^ 48) 1 || max 1 (s3.fget (SPL_IRQ q) F.SPL_IRQ_COUNT) ≤ x.unrep + 1
    if s3.fget (SPL_IRQ q) F.SPL_IRQ_EN = 1 ∧ now then spoolIrq s3 q else s3

/-- A reply that waits to be taken. -/
def addReply (s : State) (x : BobReply) : State := { s with home := { s.home with bobReplies := s.home.bobReplies ++ [x] } }

/-- Take the reply of an access, if it is there. -/
def takeReply (s : State) (who slot : Nat) : Option BobReply × State :=
  match s.home.bobReplies.find? (fun r => r.bob == who && r.slot == slot) with
  | some r => (some r, { s with home := { s.home with bobReplies := s.home.bobReplies.erase r } })
  | none => (none, s)

/-! Ends of requests. -/

/-- A mailbox command's outcome; a failure's status is kept for Get Status Detail (R108, R109). -/
def mboxDone (s : State) (p op rc vendor : Nat) (payload : List Nat) : State :=
  let s1 := portUpd s p (fun x => { x with mbox := some ⟨op, rc, vendor, payload⟩, detail := if rc = 0 then x.detail else (vendor, srcId 1 p) })
  msix s1 p 0

/-- The home has ended the write of an Inject Poison or Clear Poison, number `no` of the head (R105): the mailbox command ends with what the write met. One that a
reset has ended is not completed again (R111). -/
def mboxWritten (s : State) (p no st : Nat) : State :=
  match (s.port p).mboxRun with
  | some (op, k) => if k = no then mboxDone (portUpd s p (fun x => { x with mboxRun := none })) p op (if st = 0 then 0 else 4) st [] else s
  | none => s

def dropFwd (s : State) (la : Nat) : State := { s with home := { s.home with fwd := s.home.fwd.filter (fun f => f.la != la) } }

/-- Mark in the state granted to a node: its data was forwarded from an owner (R233). -/
def fwdMark (r : HomeReq) (fwded : Bool) : Nat := match r.who with
  | .node _ _ => if fwded then 4 else 0
  | _ => 0

/-- Data, or a status, goes back to the requester. `st` is the state granted; a node's has 4 added when the data was forwarded. -/
def answer (s : State) (r : HomeReq) (d : Option Line) (poison : Bool) (status st : Nat) : State :=
  match r.who with
  | .port p tag gen => cplHost s p tag gen (d.getD 0) poison (min st 2)
  | .node n tid =>
    let x : NodeReply := ⟨n, tid, d, poison, status, st % 4, decide (4 ≤ st)⟩
    { s with home := { s.home with nodeReplies := s.home.nodeReplies ++ [x] } }.put (.nodeReply n tid d poison status (st % 4))
  | .bob b v =>
    addReply s ⟨b, v, r.la, d.getD 0, poison, status⟩
  | .core c => s.put (.coreReply c r.la (d.getD 0) poison status)
  | .stitch b t => addReply s ⟨64 + b, t, r.la, d.getD 0, poison, status⟩
  | .spool q n => if r.kind = .write then recordWritten s q n else addReply s ⟨128 + q, 0, r.la, d.getD 0, poison, status⟩
  | .dev k =>
    if 64 ≤ k then mboxWritten s (k % 16) (k / 16 - 4) status
    else if 8 ≤ k ∧ r.kind = .readCurrent then addReply s ⟨2040 + k, 0, r.la, d.getD 0, poison, status⟩ else s
  | .desc _ => s

/-- The slice's answer to a request: its interval at the slice is measured (R448). -/
def reply (s : State) (r : HomeReq) (d : Option Line) (poison : Bool) (status st : Nat) : State :=
  match r.who with
  | .dev _ => answer s r d poison status st
  | _ => answer (histSample r.master 2 (r.kind == .write || r.kind == .writeBack) r.born s) r d poison status st

/-- A write that is refused ends by its kind (R194, R204, R605). -/
def refuse (s : State) (r : HomeReq) (st : Nat) : State :=
  match r.who with
  | .port p tag gen => withhold s p tag gen (if st = C.TIR_E_STATE then C.TIR_F_NOT_STORED else st)
  | _ => reply s r none false st 0

/-- R236: a message that contradicts the directory. -/
def protocolErr (s : State) (la node : Nat) : State :=
  evDIR 8 ((s.fset DIR_STAT F.DIR_STAT_PROTOCOL 1).report (srcId 6 (slice la)) 0 C.DIR_F_PROTOCOL la node)

/-- Put delivered data at the front of the queue, behind what was delivered before it: it is placed before anything else of its line. -/
def frontReq (s : State) (r : HomeReq) : State :=
  { s with home := { s.home with waiting := s.home.waiting.takeWhile (·.front) ++ { r with front := true } :: s.home.waiting.dropWhile (·.front) } }

/-- The slice may place data in the line: its page is stored (R605). -/
def stored (s : State) (la : Nat) : Bool :=
  isGuestLa la || (decide (la / 4096 < pagesL s) && (match descOf s (la / 4096) with
    | some d => dState d != stINIT && decide (dState d ≤ 4)
    | none => true))

/-- The request that places delivered data; `born` is when the message that brought it reached the slice. -/
def placeReq (la : Nat) (d : Line) (poison : Bool) (m : Nat) (who : Requester) (born : Nat) : HomeReq :=
  { kind := .write, who := who, la := la, data := d, mask := fullMask, poison := poison, master := m, mval := 0, born := born }

/-- Data that a holder returned, or poison, is written into the line cache (R225, R247); where it finds no way it goes to the front of the queue. The
answer to `who` follows its placement (R102). -/
def toHomeFor (s : State) (la : Nat) (d : Line) (poison : Bool) (m : Nat) (who : Requester) (born : Nat) : State :=
  let q := placeReq la d poison m who born
  if stored s la = false then refuse (notStored la s) q C.TIR_E_STATE
  else
    let r := if s.home.waiting.any (fun w => w.front && w.la == la) then (false, s) else placeLine s la d poison m
    if r.1 then reply r.2 q none false 0 0 else frontReq r.2 q

def toHomeData (s : State) (la : Nat) (d : Line) (poison : Bool) (m : Nat) : State := toHomeFor s la d poison m (.dev 0) 0

/-- Mark a line poisoned in the line cache (R113, R236, R239). -/
def poisonLine (s : State) (la : Nat) : State := toHomeData s la 0 true 28

/-- A read that may be recorded, with data from `d`. -/
def grantRead (s : State) (r : HomeReq) (rb : Nat) (d : Line) (poison fwded : Bool) : State :=
  let e := dirOf s r.la
  let f := fwdMark r fwded
  if 32 ≤ rb then reply (dropFwd s r.la) r (some d) poison 0 f
  else if r.kind = .readExclusive then
    let st := if fwded ∧ 16 ≤ rb then 3 else 2
    reply (dropFwd (dirWrite s r.la st (2 ^ rb) rb) r.la) r (if r.mval = 1 ∧ bit e.sharers rb ∧ fwded = false then none else some d) poison 0 (st + f)
  else if e.state = 4 ∨ (e.state = 3 ∧ e.owner ≠ rb) then
    reply (dropFwd (dirWrite s r.la 4 (withBit e.sharers rb true) e.owner) r.la) r (some d) poison 0 (1 + f)
  else if 2 ≤ e.state then reply (dropFwd s r.la) r (some d) poison 0 (e.state + f)
  else reply (dropFwd (dirWrite s r.la 1 (withBit e.sharers rb true) 0) r.la) r (some d) poison 0 (1 + f)

/-- Data for a read: forwarded by the owner, or the home's (R233). True: `grantRead` may run. -/
def readData (s : State) (r : HomeReq) : Option (Line × Bool × Bool) × State :=
  match s.home.fwd.find? (fun f => f.la == r.la) with
  | some ⟨_, some d, p⟩ => (some (d, p, true), evDIR 2 s)
  | _ =>
    match lineRead s r.la r.master (bit r.noted 4) with
    | (.data d, s1) => (some (d, false, false), s1)
    | (.poison, s1) => (some (0, true, false), s1)
    | (.wait, s1) => (none, noteReq s1 r 4)

/-- The line's cached instance is not clean: with rights to share only, the guest is the line's owner in O. -/
def dirtyHere (s : State) (la : Nat) : Bool := match cachedLine s la with
  | some e => e.st != .clean
  | none => false

/-- A guest line's request that the remote home must serve first (R244, R245): posts it and waits. A write to a line that the guest owns completes at the
guest; one that it owns in O takes the line from the other holders first. -/
def guestNeed (s : State) (r : HomeReq) : Option State :=
  let rights := tabGet (fun _ => 0) s.home.guestRights (r.la / 64)
  match r.kind with
  | .readShared | .readCurrent =>
    if (cachedLine s r.la).isSome ∨ s.home.fwd.any (fun f => f.la == r.la) ∨ s.home.arrived.any (fun f => f.la == r.la) then none
    else some (guestAsk s { r with who := .dev 1 })
  | .readExclusive => if rights = 2 ∧ ((cachedLine s r.la).isSome ∨ s.home.arrived.any (fun f => f.la == r.la)) then none else some (guestAsk s { r with who := .dev 1, mval := if rights = 1 ∧ (cachedLine s r.la).isSome then 1 else 0 })
  | .write =>
    if rights = 2 then
      if r.mask = fullMask ∨ r.mask = 0 ∨ (cachedLine s r.la).isSome ∨ s.home.arrived.any (fun f => f.la == r.la) then none
      else some (guestAsk s { r with kind := .readExclusive, who := .dev 1, mval := 0 })
    else if rights = 1 ∧ dirtyHere s r.la then some (guestAsk s { r with kind := .readExclusive, who := .dev 1, mval := 1 })
    else if s.home.arrived.any (fun f => f.la == r.la) then none else some (guestAsk s { r with who := .dev 1 })
  | _ => none

/-- The guest keeps nothing of a remote line (R244). -/
def guestDrop (s : State) (la : Nat) : State :=
  let s1 := lcDrop s la
  { s1 with home := { s1.home with guestRights := tabSet (fun _ => 0) s1.home.guestRights (la / 64) 0 } }

/-- The sharer bit under which a requester stands, without binding; 32: none. -/
def ownBit (s : State) (r : HomeReq) : Nat :=
  match r.who with
  | .port p _ gen => if portBI s p ∧ (s.port p).dirGen ≤ gen then p else 32
  | .node n _ => (match bindFind s r.la with
    | some k => (match bindAt s k with
      | some e => (match idxOf n e.nodes 0 with
        | some i => 16 + i
        | none => 32)
      | none => 32)
    | none => 32)
  | _ => 32

/-- A clean evict (R233, R236). -/
def cleanEvict (s : State) (r : HomeReq) : State :=
  let b := ownBit s r
  let e := dirOf s r.la
  let done := fun (t : State) => reply t r none false 0 0
  if 32 ≤ b ∨ bit e.sharers b = false then done s
  else if (e.state = 3 ∨ e.state = 4) ∧ e.owner = b then
    let n := match r.who with
      | .node n _ => n
      | _ => b
    dirWrite (poisonLine (protocolErr s r.la n) r.la) r.la 0 0 0
  else done (dirRemove s r.la b)

/-- An owner's write-back has delivered its data: the state that is left (R233). `keep` 0 I, 1 S, 2 A. -/
def afterWriteBack (s : State) (la b keep : Nat) : State :=
  let e := dirOf s la
  if keep = 2 ∧ b < 16 then s
  else if keep = 0 then dirRemove s la b
  else dirWrite s la 1 e.sharers 0

/-- A slot that a request reserved and that gained no entry is freed when the request ends (R242), unless another request of its node waits in the region. -/
def unreserve (s : State) (r : HomeReq) : State :=
  match r.who with
  | .node n _ =>
    if reserves s r.la n then s
    else (match bindFind s r.la with
    | some k => (match bindAt s k with
      | some e =>
        (match idxOf n e.nodes 0 with
        | some i =>
          if e.counts.getD i 0 = 0 then
            let e1 := { e with nodes := e.nodes.set i freeNode }
            bindPut s k (if e1.nodes.all (· == freeNode) then none else some e1)
          else s
        | none => s)
      | none => s)
    | none => s)
  | _ => s

/-! Write-backs of owners, and answers to recalls (R225, R226, R233). -/

/-- The first waiting request of a line. -/
def headReq (s : State) (la : Nat) : Option HomeReq := s.home.waiting.find? (fun r => r.la == la)

/-- A line whose recalls are all answered and which was being evicted: a holder that is left, because an earlier recall of it was out, is invalidated now;
then the entry is freed (R237, R240, R249). -/
def settle (s : State) (la : Nat) : State :=
  if recallsOut s la then s
  else if s.home.evicting.contains la then
    let e := dirOf s la
    if e.state ≠ 0 ∧ e.sharers ≠ 0 then (sharerBits e.sharers).foldl (fun t b => sendRecall t la b 0 (s.home.lostEntries.contains la)) s
    else
      let s1 := { s with home := { s.home with
        evicting := s.home.evicting.filter (· != la)
        lostEntries := s.home.lostEntries.filter (· != la)
        recallLines := s.home.recallLines.filter (· != la)
        fwd := s.home.fwd.filter (fun f => f.la != la) } }
      dirWrite s1 la 0 0 0
  else { s with home := { s.home with recallLines := s.home.recallLines.filter (· != la) } }

/-- The read exclusive of a proxy waits for the line's recalls: dirty data is forwarded to it (R233). -/
def proxyTakes (s : State) (la : Nat) (rc : Recall) : Bool :=
  !(s.home.evicting.contains la) && !rc.unknown && (match headReq s la with
    | some q => q.kind == .readExclusive && (match q.who with
      | .node _ _ => true
      | _ => false)
    | none => false)

/-- Apply the answer of a recall (R225, R226, R233): `rsp` 0 RspI or BIRsp invalid, 1 RspS or BIRsp shared, 2 RspO; `who` is completed once its data has its
place. -/
def applyAnswer (s : State) (rc : Recall) (rsp : Nat) (d : Option Line) (poison : Bool) (who : Requester) (born : Nat) : State :=
  let la := rc.la
  let s0 := endRecall s rc
  let e := dirOf s0 la
  let m := if rc.bit < 16 then rc.bit else 28
  let home := fun (t : State) => match d with
    | some x => toHomeFor t la x poison m who born
    | none => t
  let stash := fun (t : State) => { dropFwd t la with home := { (dropFwd t la).home with fwd := ⟨la, d, poison⟩ :: (dropFwd t la).home.fwd } }
  let done := fun (t : State) => if d.isSome then reply t (placeReq la 0 false m who born) none false 0 0 else t
  let s1 :=
    if rc.kind = 0 then dirRemove (if proxyTakes s0 la rc ∧ d.isSome then done (stash s0) else home s0) la rc.bit
    else if rc.kind = 1 then
      let t := home s0
      if rsp = 0 then dirRemove t la rc.bit
      else if e.state = 0 then t else dirWrite t la 1 e.sharers 0
    else if rc.kind = 2 then
      if rsp = 2 then dirWrite (stash s0) la 4 e.sharers rc.bit
      else if rsp = 1 then dirWrite (home s0) la 1 e.sharers 0
      else dirRemove (home s0) la rc.bit
    else
      if rsp = 0 then dirRemove (home s0) la rc.bit
      else stash s0
  settle s1 la

/-- The recall of the line that this agent's write-back answers: announced, or sent to the owner or of an unknown entry (R225, R226, R240). -/
def recallFor (s : State) (r : HomeReq) : Option Recall :=
  let b := ownBit s r
  let e := dirOf s r.la
  s.home.recalls.find? (fun c => c.la == r.la && c.bit == b && (c.wbPending || c.unknown || (decide (2 ≤ e.state) && e.owner == b)))

/-- A write-back that answers a recall is never held (R247). -/
def answersRecall (s : State) (r : HomeReq) : Bool := r.kind == .writeBack && (recallFor s r).isSome

/-- A whole line that a write-back delivers: a host's partial MemWr is merged with the home's line (R234). -/
def wholeLine (s : State) (r : HomeReq) : Option (Line × Bool) × State :=
  if r.mask = fullMask then (some (r.data, r.poison), s)
  else match lineRead s r.la r.master (bit r.noted 4) with
    | (.data d, s1) => (some (mergeBytes r.mask d r.data, r.poison), s1)
    | (.poison, s1) => (some (r.data, true), s1)
    | (.wait, s1) => (none, noteReq s1 r 4)

/-- Master of a holder's returned data. -/
def holderMaster (b : Nat) : Nat := if b < 16 then b else 28

/-- A write-back that answers a recall: announced by RspWbPending it is the answer (R226); otherwise its data goes to the home and the answer follows. -/
def answerBack (s : State) (r : HomeReq) (rc : Recall) (d : Line) (poison : Bool) : State :=
  if rc.wbPending ∧ rc.kind ≠ 3 then applyAnswer s rc (if rc.kind = 0 then 0 else if r.mval = 0 then 0 else 1) (some d) poison r.who r.born
  else
    let t := afterWriteBack (toHomeFor s r.la d poison (holderMaster rc.bit) r.who r.born) r.la rc.bit r.mval
    if rc.wbPending then settle (endRecall t rc) r.la
    else if rc.bit < 16 then t
    else { t with home := { t.home with recalls := t.home.recalls.map (fun c => if c.la = rc.la ∧ c.bit = rc.bit then { c with wbDone := true } else c) } }

/-- A write that finds no place waits; one that its master's occupancy holds is marked, for its interval at the holding point (R446, R448). -/
def noteHeld (s : State) (r : HomeReq) : State :=
  let s1 := noteReq s r 3
  if capReached s (slice r.la) r.master ∧ (lcFind s r.la).isNone then noteReq s1 r 6 else s1

/-- An owner's write-back of its own accord (R233): a write that the home may refuse or that may wait for its place, then the state follows KEEP or
MetaValue. -/
def ownerBack (s : State) (r : HomeReq) (b : Nat) : Bool × State :=
  if stored s r.la = false then (true, refuse (notStored r.la s) r C.TIR_E_STATE)
  else match (if isGuestLa r.la then none else (descOf s (r.la / 4096)).bind (writeRefusal s (r.la / 4096))) with
    | some st => (true, refuse (if st = C.KEY_E_EPOCH_BUSY then evTIR 17 s else s) r st)
    | none =>
      match wholeLine s r with
      | (none, s1) => (false, s1)
      | (some x, s1) =>
        let p := placeLine s1 r.la x.1 x.2 (holderMaster b)
        if p.1 then (true, reply (afterWriteBack p.2 r.la b r.mval) r none false 0 0)
        else (false, noteHeld (writeWaits p.2 r.la r.master (bit r.noted 3)) r)

/-! Service of one request (R233). -/

/-- A request that is not stored, because its page lies at or above L (R66, R605). -/
def serveBeyond (r : HomeReq) (s : State) : State :=
  match r.kind with
  | .write | .writeBack => refuse (notStored r.la s) r C.TIR_E_STATE
  | .cleanEvict => reply s r none false 0 0
  | _ => reply (notStored r.la s) r (some 0) true 0 0

/-- A read that needs no recall (R233): it is recorded for a holder, and a view leaves no trace (R243). -/
def serveRead (r : HomeReq) (rb : Nat) (view : Bool) (s : State) : Bool × State :=
  let la := r.la
  let records := rb < 32 ∧ r.kind ≠ .readCurrent
  let room := if records then dirRoom s la else (true, s)
  if room.1 = false then (false, room.2)
  else
    let q := readData room.2 r
    match q.1 with
    | none => (false, q.2)
    | some (d, p, f) =>
      let s2 := if f ∧ r.kind = .readExclusive ∧ rb < 16 then toHomeData q.2 la d p r.master else q.2
      if view then (true, reply (dropFwd s2 la) r (some d) p C.DIR_W_RO_VIEW 0)
      else (true, grantRead s2 r (if r.kind = .readCurrent then 32 else rb) d p f)

/-- A write whose holders have been invalidated (R233); a mask of no bytes is MemInv with MetaValue I, which stores nothing (R224). -/
def serveWrite (r : HomeReq) (s : State) : Bool × State :=
  let la := r.la
  let e := dirOf s la
  let w := if isGuestLa la ∧ tabGet (fun _ => 0) s.home.guestRights (la / 64) ≠ 2 then
      (StoreRes.done, if r.mask = fullMask ∨ r.poison then poisonKnown (guestDrop s la) la r.poison else guestDrop s la)
    else if r.mask = 0 then (StoreRes.done, s) else lineStore s la r.data r.mask r.poison r.master (bit r.noted 3)
  match w.1 with
  | .wait => (false, noteHeld w.2 r)
  | .refused st => (true, refuse w.2 r st)
  | .done => (true, reply (if e.state = 0 then w.2 else dirWrite w.2 la 0 0 0) r none false 0 0)

/-- A write-back of an agent that is not the line's owner: a host port's is a write, a node's contradicts the directory (R233, R236). -/
def asWrite (s : State) (r : HomeReq) (rb : Nat) : HomeReq :=
  let e := dirOf s r.la
  let owner := rb < 32 ∧ 2 ≤ e.state ∧ e.owner = rb
  match r.who with
  | .node _ _ => r
  | _ => if r.kind = .writeBack ∧ ¬ owner then { r with kind := .write } else r

/-- The request's effect in the present state of its line, once it stands as `rb` toward the directory: `view` for the read-only view. -/
def serveLine (r : HomeReq) (rb : Nat) (view : Bool) (s : State) : Bool × State :=
  let la := r.la
  let e := dirOf s la
  if recallsOut s la ∨ s.home.evicting.contains la then (false, s)
  else
    let cur := s.home.fwd.any (fun f => f.la == la)
    let need := if (r.kind = .readCurrent ∨ r.kind = .readShared) ∧ cur then [] else needRecalls r rb e
    match (if isGuestLa la ∧ (r.kind ≠ .write ∨ need = []) then guestNeed s r else none) with
    | some s2 => (false, s2)
    | none =>
      if need ≠ [] then (false, need.foldl (fun t x => sendRecall t la x.1 x.2 false) s)
      else
        let s1 := dirTouch s la
        match r.kind with
        | .write => serveWrite r s1
        | .cleanEvict => (true, cleanEvict s1 r)
        | .writeBack => if rb < 32 ∧ 2 ≤ e.state ∧ e.owner = rb then ownerBack s1 r rb else
            (match r.who with
            | .node n _ => (true, protocolErr s1 la n)
            | _ => (true, reply s1 r none false 0 0))
        | _ => serveRead r rb view s1

/-- Serve one request: true when it has ended; otherwise it stays in the queue, with what it needs asked for. -/
def serve (r : HomeReq) (s : State) : Bool × State :=
  let la := r.la
  let page := la / 4096
  if r.front then
    let p := placeLine s la r.data r.poison r.master
    if p.1 then (true, reply p.2 r none false 0 0) else p
  else match (if r.kind = .writeBack then recallFor s r else none) with
    | some rc =>
      (match wholeLine s r with
      | (none, s1) => (false, s1)
      | (some x, s1) => (true, answerBack s1 r rc x.1 x.2))
    | none =>
      if s.ftest GLB_ILNSTAT F.GLB_ILNSTAT_REMAP_BUSY (planeOf la) then (false, s)
      else if busyOf s page then (false, if bit r.noted 1 then s else noteReq (evTIR 14 s) r 1)
      else if isGuestLa la = false ∧ pagesL s ≤ page then (true, serveBeyond r s)
      else
        let s0 := descFill s page
        if (dcFind s0 page).isNone then (false, s0)
        else
          let sd := standing s0 r
          match sd.1 with
          | .refused st => (true, reply sd.2 r none false st 0)
          | .view => serveLine { r with kind := .readCurrent } 32 true sd.2
          | .holder b => serveLine (asWrite sd.2 r b) b false sd.2
          | .none => serveLine (asWrite sd.2 r 32) 32 false sd.2

/-! Entries of the descriptor cache that leave their ways (R72, R230, R245, R435). -/

/-- Page of the entry that eviction takes from the page's set: least recently used among ways whose busy bit is clear (R72, R75). -/
def dcVictim (s : State) (base : Nat) : Nat → Nat → Option (Nat × Nat) → Option (Nat × Nat)
  | 0, _, b => b
  | n + 1, w, b =>
    match dcAt s (base + w) with
    | none => dcVictim s base n (w + 1) b
    | some e =>
      let better := match b with
        | some x => decide (e.stamp < x.2)
        | none => true
      dcVictim s base n (w + 1) (if !e.busy && !e.copy && better then some (e.page, e.stamp) else b)

/-- Recall every line that the page's descriptor anchors by directory eviction (R230). -/
def recallPage (s : State) (page : Nat) : State := (pageLines page).foldl evictCounted s

/-- A guest entry's lines go home before it leaves (R245): dirty lines by WbDirty, clean ones by EvictClean. -/
def guestLeave (s : State) (page : Nat) : State :=
  (pageLines page).foldl (fun t la =>
    match lcFind t la with
    | some (k, e) =>
      if e.st = .clean then
        guestAsk (lcPut t k none) { kind := .cleanEvict, who := .dev 1, la := la, data := 0, mask := 0, poison := false, master := 28, mval := 0 }
      else (wbLine t la).2
    | none =>
      if (copyFind t la).isSome then (wbLine t la).2
      else if tabGet (fun _ => 0) t.home.guestRights (la / 64) ≠ 0 then
        guestAsk t { kind := .cleanEvict, who := .dev 1, la := la, data := 0, mask := 0, poison := false, master := 28, mval := 0 }
      else t) s

/-- The guest still has lines or rights in the page. -/
def guestStays (s : State) (page : Nat) : Bool :=
  (pageLines page).any (fun la => (lcFind s la).isSome || (copyFind s la).isSome || tabGet (fun _ => 0) s.home.guestRights (la / 64) != 0)

/-- The entry of a page leaves the share (R72, R230, R245); one whose lines have holders first recalls them. -/
def dcLeave (s : State) (page : Nat) : State :=
  if pageAnchors s page then recallPage s page
  else if isGuestPage page then
    let s1 := guestLeave s page
    if guestStays s1 page then s1 else dcDrop s1 page
  else dcDrop s page

/-- The page's entry takes the descriptor that DRAM holds (R64, R428): the in-use counts follow. -/
def dcRefill (s : State) (page : Nat) : State :=
  match dcFind s page with
  | none => s
  | some x =>
    if isGuestPage page then s
    else
      let r := descLoad s page
      let s1 := addLive (addUse r.2 (usesSlot x.2.desc) false) x.2.desc false
      let s2 := addLive (addUse s1 (usesSlot r.1) true) r.1 true
      dcCopyDrop (dcUpd s2 page (fun e => { e with desc := r.1, changed := false })) page

/-- Directory entries of the page name its descriptor's new way. -/
def dirRetag (s : State) (page wOld wNew : Nat) : State :=
  let ds := dcSet page
  (pageLines page).foldl (fun t la =>
    match dirScan t ((slice la * 4096 + dirSet ds (la / 64 % 64)) * 16) (dirTag ds wOld) 16 0 with
    | some (k, e) => dirPutAt t k (some { e with tag := dirTag ds wNew })
    | none => t) s

/-- Room in a set for an entry of a fenced bank (R435): an entry that nothing keeps leaves at once; failing one, a copied descriptor is written back and its copy
dropped; failing that, the least recently used has its lines recalled first (R230). -/
def dcMakeRoom (s : State) (base : Nat) : State :=
  match dcFreeWay s base 16 0 with
  | some _ => s
  | none => match dcRoomVictim s base true 16 0 none with
    | some (v, _) => dcDrop s v
    | none => match dcOldest (dcCopies s base) with
      | some e => dcWriteBack s e.page
      | none => match dcRoomVictim s base false 16 0 none with
        | some (v, _) => if (pageLines v).any s.home.evicting.contains then s else dcLeave s v
        | none => s

/-- A changed entry takes what its copy holds, and any other what DRAM holds (R425, R428). -/
def dcRestore (s : State) (page : Nat) : State :=
  match dcCopyFind s page with
  | some (_, e) => dcUpd s page (fun x => { x with desc := e.desc })
  | none => dcRefill s page

/-- What a way of a fenced bank holds leaves it (R75, R435). A copy is dropped, and its descriptor written to DRAM. A changed or busy entry moves into an enabled
way of its set, restored first on the bank's loss, `lost`; one that finds no room stays until there is some. Any other is dropped, once the lines that it
anchors have been recalled (R230). -/
def dcMove (lost : Bool) (s : State) (k : Nat) : State :=
  match dcAt s k with
  | none => s
  | some e =>
    if e.copy then dcWriteBack (dcSetAt s k none) e.page
    else
      let s1 := if lost then dcRestore s e.page else s
      match dcAt s1 k with
      | none => s1
      | some e1 =>
        if e1.busy = false ∧ e1.changed = false then dcLeave s1 e.page
        else
          let base := k / 16 * 16
          let s2 := dcMakeRoom s1 base
          match dcFreeWay s2 base 16 0, dcAt s2 k with
          | some w, some e2 => dirRetag (dcSetAt (dcSetAt s2 k none) (base + w) (some e2)) e.page (k % 16) w
          | _, _ => s2

/-- Entries that still lie in fenced banks move once their sets have room (R75). -/
def dcSettle (s : State) : State :=
  (s.tier.dc.filter (fun x => x.2.isSome && bankOut s (dcBank x.1))).foldl (fun t x => dcMove false t x.1) s

/-! Ports and the directory. -/

/-- The head's record of lines poisoned on its behalf (R113): the count in PRT_HEADSTAT and an event with the count. -/
def headPoisoned (s : State) (p n : Nat) : State :=
  let s1 := s.fsat (PRT_HEADSTAT p) F.PRT_HEADSTAT_POISONED n
  portEvent s1 p C.PRT_W_POISON_ON_RESET (srcId 1 p) n

/-- Lines of which the port's bit is set in the directory. -/
def heldLines (s : State) (p : Nat) : List Nat :=
  s.home.dirEnt.filterMap fun x => match x.2 with
    | some e => if bit e.sharers p then some (dirLa s (x.1 / (4096 * 16)) (x.1 / 16 % 4096) e) else none
    | none => none

/-- The port leaves the directory (R100, R113): sharers' bits go, owned lines are poisoned; recalls sent to it end, and at a cut none is sent any more. -/
def leaveDirectory (s : State) (p : Nat) (lines : List Nat) (poison : Bool) : State :=
  let owned := lines.filter (fun la => 2 ≤ (dirOf s la).state && (dirOf s la).owner == p)
  let s1 := lines.foldl (fun t la =>
    let own := 2 ≤ (dirOf t la).state && (dirOf t la).owner == p
    let u := dirRemove t la p
    if own && poison then poisonLine u la else u) s
  let ends := fun (r : Recall) => r.bit == p && (lines.contains r.la || poison)
  let s2 := { s1 with home := { s1.home with recalls := s1.home.recalls.filter (fun r => !ends r) } }
  let s3 := ((s1.home.recalls.filter ends).map (·.la)).foldl settle s2
  if poison then (if owned.length ≠ 0 then headPoisoned s3 p owned.length else s3) else recallNext s3 p

/-- The line lies in DPA `lo` to `lo + len` of the head, by some valid entry from `i` on. -/
def laInDpa (s : State) (p la lo len : Nat) : Nat → Nat → Bool
  | 0, _ => false
  | n + 1, i =>
    let e := hmEntry s p i
    let base := e.2.2.2.2.2 + (if e.2.2.2.1 then 2 ^ 47 + e.2.2.2.2.1 * 2 ^ 47 else 0)
    let dpa := e.2.1 + (la - base)
    (e.1 && decide (base ≤ la) && decide (la < base + e.2.2.1) && decide (lo ≤ dpa) && decide (dpa < lo + len)) || laInDpa s p la lo len n (i + 1)

/-- Lines that the port holds in a DPA range. -/
def heldIn (s : State) (p lo len : Nat) : List Nat := (heldLines s p).filter (fun la => laInDpa s p la lo len 512 0)

/-! Released Dynamic Capacity (R100). -/

/-- Requests of the port in these ranges that crossed before the release have completed. -/
def releaseReady (s : State) (p : Nat) (rs : List (Nat × Nat)) : Bool :=
  !((s.port p).trk.any (fun q => rs.any (fun x => decide (x.1 ≤ q.dpa) && decide (q.dpa < x.1 + x.2))))

/-- A release of the port ends: the port leaves the sharer vectors of the lines or, where the release is forced, they are recalled from it; the fabric manager
is told. -/
def releaseEnd (p : Nat) (s : State) (x : Bool × List (Nat × Nat)) : State :=
  let s1 := portUpd s p (fun y => { y with releasing := y.releasing.erase x })
  if x.1 then
    (x.2.foldl (fun t e => (heldIn t p e.1 e.2).foldl (fun u la => sendRecall u la p 0 false) t) s1).put (.fmReply p 2 0 0)
  else (x.2.foldl (fun t e => leaveDirectory t p (heldIn t p e.1 e.2) false) s1).put (.fmReply p 1 0 0)

/-- Every release that nothing holds up any more ends. -/
def releases (s : State) : State :=
  s.ports.foldl (fun t x => (x.2.releasing.filter (fun r => releaseReady t x.1 r.2)).foldl (releaseEnd x.1) t) s

/-! The queue (R48, R49, R233). -/

/-- Two requesters are the same agent: requests of one agent to one line keep their order (R32, R103, R282). -/
def sameAgent : Requester → Requester → Bool
  | .port p _ _, .port q _ _ => p == q
  | .node n _, .node m _ => n == m
  | .bob b _, .bob c _ => b == c
  | .stitch b t, .stitch c u => b == c && t == u
  | .spool q _, .spool r _ => q == r
  | .core c, .core d => c == d
  | .dev _, .dev _ => true
  | _, _ => false

/-- Remove a request from those that wait. -/
def dropReq (l : List HomeReq) (r : HomeReq) : List HomeReq := l.eraseP (fun q => sameReq q r)

/-- The first of the agent's write-backs of the line that wait: none of them overtakes another (R103). -/
def firstBack (s : State) (r : HomeReq) : Bool :=
  match s.home.waiting.find? (fun q => q.la == r.la && q.kind == .writeBack && sameAgent q.who r.who) with
  | some q => sameReq q r
  | none => false

/-- It is no request but the place of a descriptor instruction in the order of its page's accesses (R280). -/
def isPlace (r : HomeReq) : Bool := match r.who with
  | .desc _ => true
  | _ => false

/-- A descriptor instruction of the request's page came before it, and waits (R280). -/
def behindPlace (s : State) (r : HomeReq) : Bool :=
  (s.home.waiting.takeWhile (fun q => !sameReq q r)).any (fun q => isPlace q && q.la / 4096 == r.la / 4096)

/-- Nothing of its line, and no descriptor instruction of its page, waits before the request; or it is an answer, which only an earlier answer of its agent
holds. -/
def itsTurn (s : State) (r : HomeReq) : Bool :=
  (match headReq s r.la with
    | some q => sameReq q r && !isPlace r && !behindPlace s r
    | none => false) || (answersRecall s r && firstBack s r)

/-- A request that its master's occupancy has held is released: its interval at the holding point is measured (R448). -/
def released (s : State) (r : HomeReq) : State := if bit r.noted 6 then histSample r.master 1 true r.born s else s

/-- Give each of these requests its turn, in arrival order. -/
def pumpList : List HomeReq → State → State
  | [], s => s
  | r :: rest, s =>
    if itsTurn s r then
      let x := serve r s
      pumpList rest (if x.1 then unreserve (released { x.2 with home := { x.2.home with waiting := dropReq x.2.home.waiting r } } r) r else x.2)
    else pumpList rest s

/-- Turns go round until none ends a request: what an answer further back sets free is served too (R233, R237). -/
def pumpAll : Nat → State → State
  | 0, s => s
  | n + 1, s =>
    let t := pumpList s.home.waiting s
    if t.home.waiting ≠ [] ∧ s.home.waiting.any (fun r => !(t.home.waiting.any (sameReq r))) then pumpAll n t else t

/-- Give every write-back, every displaced descriptor and every request that waits its turn, then forget what had arrived for them; releases of Dynamic Capacity
that waited for these requests end. In Halt nothing moves: work goes on from where it stopped after RELEASE (R472, R473). -/
def pump (s : State) : State :=
  if s.devLevel = 4 then s else
  let s0 := dcSettle (wbDrain s)
  let s1 := pumpAll (2 * s0.home.waiting.length + 1) s0
  let s2 := { s1 with home := { s1.home with arrived := [] } }
  heldNotes s (if s2.ports.any (fun x => x.2.releasing.any (fun r => releaseReady s2 x.1 r.2)) then
      let s3 := releases s2
      pumpAll (2 * s3.home.waiting.length + 1) s3
    else s2)

/-- A request reaches its slice: it is served at once unless an earlier request of its line waits (R48, R233). -/
def homeTake (r : HomeReq) (s : State) : State :=
  let la := r.la / 64 * 64
  let r' := { r with la := la, born := s.time, cr := crOf s la, front := false, noted := 0 }
  pump { s with home := { s.home with toHome := s.home.toHome.erase r, waiting := s.home.waiting ++ [r'] } }

/-! Ends of recalls. -/

/-- A recall ends without an answer (R238, R239): the holder's bit is removed and an owner's line is poisoned. -/
def recallLost (s : State) (rc : Recall) (elem : Nat) : State :=
  let la := rc.la
  let e := dirOf s la
  let owner := rc.unknown || (2 ≤ e.state && e.owner == rc.bit)
  let tmo := s.home.recallTmo || s.home.recallLines.contains la
  let s0 := endRecall { s with home := { s.home with recallTmo := tmo } } rc
  let s1 := dirRemove s0 la rc.bit
  let s2 := if owner then poisonLine s1 la else s1
  let s3 := dirIrq (evDIR 7 ((s2.fset DIR_STAT F.DIR_STAT_SNOOP_TMO 1).report (srcId 6 (slice la)) elem C.DIR_F_SNOOP_TIMEOUT la 0))
  settle s3 la

/-- R240: the line is recalled from every possible holder. -/
def recoverEntry (s : State) (la bank : Nat) : State :=
  let s0 := evDIR 9 ((s.fset DIR_STAT F.DIR_STAT_ENTRY_LOST 1).report (srcId 6 (slice la)) bank C.DIR_F_ENTRY la 0)
  let ports := (List.range 16).filter (fun p => hostMode s0 p && s0.fget (PRT_LINKSTAT p) F.PRT_LINKSTAT_MEM_EN == 1)
  let nodes := match bindFind s0 la with
    | some k => (match bindAt s0 k with
      | some e => (List.range 16).filter (fun i => e.nodes.getD i freeNode != freeNode)
      | none => [])
    | none => []
  let bits := ports ++ nodes.map (16 + ·)
  let v := bits.foldl (fun a b => withBit a b true) 0
  if v = 0 then dirWrite s0 la 0 0 0
  else
    let s1 := dirWrite s0 la 1 v 0
    let ev := if s1.home.evicting.contains la then s1.home.evicting else s1.home.evicting ++ [la]
    let s2 := { s1 with home := { s1.home with evicting := ev, lostEntries := s1.home.lostEntries ++ [la] } }
    bits.foldl (fun t b => sendRecall t la b 0 true) s2

end Sys2Proof.Machine
end

