-- ==== Sys2Proof/Machine/HomeCmds.lean ====
section
/-! DEFINITION. The commands of the home-agent slices and the directory (chapter 07): the six request kinds (R224, R233), the answers to recalls
(R225, R226, R238), the range recall (R249), and the write-backs and resumptions of waiting lines (R120, R140). -/

namespace Sys2Proof.Machine

/-- A write of a register that has a row of its own. -/
def rowWrite (hook : Hook) (who : Who) (off : Nat) (val : Word) (s : State) : State := ctlWriteWith hook who off 8 val false s

/-- The request can reach its slice now: it is the oldest of its agent for its line on the way there. A management core's access comes from
outside the model. -/
def arrives (s : State) (r : HomeReq) : Bool :=
  match r.who with
  | .core _ => true
  | w => s.home.toHome.find? (fun q => sameAgent q.who w && q.la / 64 == r.la / 64) == some r

/-- A request of kind `k` reaches its slice; one that cannot leaves the state as it is. None does while nothing crosses into the core (R26, R472). -/
def takeKind (k : ReqKind) (r : HomeReq) (s : State) : State :=
  if r.kind = k ∧ coreOpen s ∧ arrives s r then homeTake r { s with home := { s.home with toHome := s.home.toHome.erase r } } else s

/-- A read shared reaches its slice (R224, R233), or waits there. -/
def execHomeReadShared (req : HomeReq) (s : State) : Res := .next (takeKind .readShared req s)

/-- A read exclusive (R233). -/
def execHomeReadExclusive (req : HomeReq) (s : State) : Res := .next (takeKind .readExclusive req s)

/-- A read current (R233). -/
def execHomeReadCurrent (req : HomeReq) (s : State) : Res := .next (takeKind .readCurrent req s)

/-- A clean evict (R233, R236). -/
def execHomeCleanEvict (req : HomeReq) (s : State) : Res := .next (takeKind .cleanEvict req s)

/-- A write-back reaches its slice (R233, R236): it takes its place in the order of requests, unless it answers a recall (R247). -/
def writeBackArrives (req : HomeReq) (s : State) : State := takeKind .writeBack req s

/-- A write (R233); a host port's MemWr is a write-back when the port is the owner. -/
def execHomeWrite (req : HomeReq) (s : State) : Res :=
  .next (if req.kind = .writeBack then writeBackArrives req s else takeKind .write req s)

/-- A write-back reaches its slice. -/
def execHomeWriteBack (req : HomeReq) (s : State) : Res := .next (if req.kind = .writeBack then writeBackArrives req s else s)

/-- An RspWbPending (R226): the WbDirty that it announces is awaited, or has come already. -/
def wbAnnounced (s : State) (rc : Recall) : State :=
  let s1 := evDIR 10 s
  if rc.wbDone then pump (applyAnswer s1 rc (if bit (dirOf s1 rc.la).sharers rc.bit then 1 else 0) none false (.dev 0) 0)
  else { s1 with home := { s1.home with recalls := s1.home.recalls.map (fun r => if r = rc then { r with wbPending := true } else r) } }

/-- An owner's answer that contradicts its recall (R236): its data may be lost, so the line is poisoned, its state becomes I, and the recall is over. -/
def ownerContradicts (s : State) (rc : Recall) : State :=
  pump (settle (dirWrite (poisonLine (endRecall (protocolErr s rc.la rc.node) rc) rc.la) rc.la 0 0 0) rc.la)

/-- An answer to a recall (R225, R226): `rsp` 0 invalid, 1 shared, 2 RspO, 3 RspWbPending, 4 a host's BIConflict (R104). A host returns data by a write-back
before it answers. -/
def recallAnswer (la b rsp : Nat) (data : Option Line) (poison : Bool) (s : State) : State :=
  match s.home.recalls.find? (fun r => r.la == la && r.bit == b && r.sent) with
  | none => if 16 ≤ b ∧ b < 32 ∧ rsp = 2 then protocolErr s la (nodeOfBit s la b) else s
  | some rc =>
    let e := dirOf s la
    let owner := 2 ≤ e.state ∧ e.owner = b
    let mayHave := owner ∨ rc.unknown = true
    let d := if 16 ≤ b ∧ mayHave then data else none
    if rc.wbPending then s
    else if b < 16 then
      if rsp = 4 then s.put (.biConflictAck b la)
      else if rsp < 2 then pump (applyAnswer s rc rsp none poison (.dev 0) 0) else s
    else if rsp = 3 then wbAnnounced s rc
    else if rsp = 2 ∧ ¬ mayHave then protocolErr s la rc.node
    else if rsp = 2 ∧ rc.kind = 0 then ownerContradicts s rc
    else if rsp < 3 then pump (applyAnswer s rc (if rsp = 2 ∧ rc.kind = 2 ∧ d = none then 1 else rsp) d poison (.dev 0) 0)
    else s

/-- A holder answers a recall. -/
def execRecallResponse (la bit rsp : Nat) (data : Option Line) (poison : Bool) (s : State) : Res := .next (recallAnswer la bit rsp data poison s)

/-- A host port has not answered a recall within 2^BITMO µs (R238). -/
def snoopTimeout (la p : Nat) (s : State) : State :=
  match s.home.recalls.find? (fun r => r.la == la && r.bit == p && decide (r.bit < 16) && r.sent) with
  | none => s
  | some rc =>
    let e := dirOf s la
    let owner := rc.unknown || (2 ≤ e.state && e.owner == p)
    let s1 := recallLost s rc p
    pump (if owner then headPoisoned s1 p 1 else s1)

/-- The back-invalidate bound of a port expires. -/
def execSnoopTimeout (la p : Nat) (s : State) : Res := .next (snoopTimeout la p s)

/-! The range recall (R249). -/

/-- Lines with a directory entry in pages `lo` to `hi`. -/
def recallTargets (s : State) (lo hi : Nat) : List Nat :=
  s.home.dirEnt.filterMap fun x => match x.2 with
    | some e =>
      let la := dirLa s (x.1 / (4096 * 16)) (x.1 / 16 % 4096) e
      if lo ≤ la / 4096 ∧ la / 4096 ≤ hi then some la else none
    | none => none

/-- DIR_RECALLCTL (R249). -/
def hookRecallCtl : Hook := fun _ _ _ act s =>
  if fld act F.DIR_RECALLCTL_START = 1 then
    if s.fget DIR_RECALLCTL F.DIR_RECALLCTL_BUSY = 1 then (s, C.DIR_E_RECALL_BUSY)
    else
      let ls := recallTargets s (s.fget DIR_RECALLBASE F.DIR_RECALLBASE_LPN) (s.fget DIR_RECALLLIM F.DIR_RECALLLIM_LPN)
      let s1 := { s with home := { s.home with recallLines := ls, recallTmo := false } }
      (ls.foldl evictLine (s1.fset DIR_RECALLCTL F.DIR_RECALLCTL_BUSY 1), 0)
  else (s, 0)

/-- START recalls every tracked line of the range (R249). -/
def execDirRecallStart (who : Who) (val : Word) (s : State) : Res := .next (rowWrite hookRecallCtl who DIR_RECALLCTL val s)

/-- The range recall ends when its last line has been recalled (R249). -/
def recallComplete (s : State) : State :=
  if s.fget DIR_RECALLCTL F.DIR_RECALLCTL_BUSY = 1 ∧ s.home.recallLines = [] then
    (s.fset DIR_RECALLCTL F.DIR_RECALLCTL_BUSY 0).fset DIR_RECALLCTL F.DIR_RECALLCTL_STATUS (if s.home.recallTmo then C.DIR_F_SNOOP_TIMEOUT else 0)
  else s

/-- The range recall ends. -/
def execRecallComplete (s : State) : Res := .next (recallComplete s)

/-! Write-backs and resumptions. -/

/-- A dirty line is written back to its tier (R120), in Halt and in P2 to P4 none (R472, R517); a Held line waits for its channel (R140). -/
def lineWriteback (la : Nat) (s : State) : State :=
  if coreOpen s = false then s else
  let l := la / 64 * 64
  match lcFind s l with
  | some (_, e) => if e.st = .held then s else pump (wbLine s l).2
  | none => pump (wbLine s l).2

/-- A dirty line is written back. -/
def execLineWriteback (la : Nat) (s : State) : Res := .next (lineWriteback la s)

/-- A way of a waiting write's set has become evictable (R120): the waiting requests are tried again. -/
def execWaitingWriteResume (la : Nat) (s : State) : Res :=
  .next (if s.home.waiting.any (fun r => r.la == la / 64 * 64) then pump s else s)

/-- A Held line, or a line whose only instance is its copy, is written once its channel takes writes again (R140, R123). -/
def heldWriteback (la : Nat) (s : State) : State :=
  if coreOpen s = false then s else
  let l := la / 64 * 64
  match lcFind s l with
  | some (_, e) => if e.st = .held then pump (wbLine s l).2 else s
  | none => pump (wbLine s l).2

/-- A Held line is written. -/
def execHeldLineWriteback (la : Nat) (s : State) : Res := .next (heldWriteback la s)

/-- Reads that waited for channel `c` are tried again once it serves reads (R140). -/
def execWaitingReadResume (c : Nat) (s : State) : Res := .next (if s.cstate c = csRETRAINING then s else pump s)

end Sys2Proof.Machine
end

