-- ==== Sys2Proof/Machine/TierCmds.lean ====
section
/-! DEFINITION. The commands of the tiers (chapters 02, 04 and 05): descriptor fill and eviction (R72, R230, R245), flush (R125), cold segment reads
(R127, R182), promotion (R129), stripes (R134), the end of a page operation (R132), log tail (R136) and Gusset ranges (R82). -/

namespace Sys2Proof.Machine

/-! Descriptors. -/

/-- A descriptor is filled into its share (R72). -/
def execDescriptorFill (page : Nat) (s : State) : Res :=
  .next (if coreOpen s ∧ (page < pagesL s ∨ (2 ^ 35 ≤ page ∧ page < 2 ^ 35 + 2 ^ 49)) then pump (descFill s page) else s)

/-- A full set gives up its victim (R72); one whose entries are all busy, a copy, so that no access to another page is held by busy bits (R75). -/
def descriptorEvict (page : Nat) (s : State) : State :=
  if coreOpen s = false then s else
  let base := dcBase page
  match dcFreeWay s base 16 0 with
  | some _ => s
  | none =>
    match dcVictim s base 16 0 none with
    | some (v, _) => pump (dcLeave s v)
    | none => match dcOldest (dcCopies s base) with
      | some e => pump (dcWriteBack s e.page)
      | none => s

/-- A full set of the descriptor cache gives up its least recently used entry. -/
def execDescriptorEvict (page : Nat) (s : State) : Res := .next (descriptorEvict page s)

/-! Flush (R125). -/

/-- Lines of the range in the cache, each once; copies whose primary is lost included. -/
def flushLines (s : State) (lo hi : Nat) : List Nat :=
  (s.tier.lc.filterMap fun x => match x.2 with
    | some e => if lo ≤ e.line / 64 ∧ e.line / 64 ≤ hi then some (e.line * 64) else none
    | none => none).eraseDups

/-- Flush one line: what is left to do of it is remembered, and a line that cannot be written back is noted (R125). -/
def flushLine (inval : Bool) (s : State) (la : Nat) : State :=
  let later := fun (t : State) => { t with tier := { t.tier with flushWait := t.tier.flushWait ++ [la] } }
  if busyOf s (la / 4096) then later s
  else
    let r := wbLine s la
    match r.1 with
    | .done => if inval then lcDrop r.2 la else r.2
    | .dropped => r.2
    | .later | .wait => later r.2
    | .held | .stuck | .unplaced => { r.2 with tier := { r.2.tier with flushBad := true } }

/-- TIR_FLUSHCTL (R125). -/
def hookFlushCtl : Hook := fun _ _ new act s =>
  let s0 := s.fset TIR_FLUSHCTL F.TIR_FLUSHCTL_INVAL (fld new F.TIR_FLUSHCTL_INVAL)
  if fld act F.TIR_FLUSHCTL_START = 1 then
    if s.fget TIR_FLUSHCTL F.TIR_FLUSHCTL_BUSY = 1 then (s0, C.TIR_E_FLUSH_BUSY)
    else
      let inval := fld new F.TIR_FLUSHCTL_INVAL == 1
      let s1 := evTIR 22 { s0 with tier := { s0.tier with flushWait := [], flushBad := false, flushInval := inval } }
      let ls := flushLines s1 (s.fget TIR_FLUSHBASE F.TIR_FLUSHBASE_LPN) (s.fget TIR_FLUSHLIM F.TIR_FLUSHLIM_LPN)
      (ls.foldl (flushLine inval) (s1.fset TIR_FLUSHCTL F.TIR_FLUSHCTL_BUSY 1), 0)
  else (s0, 0)

/-- START writes back every dirty line of the range (R125). -/
def execFlushStart (who : Who) (val : Word) (s : State) : Res := .next (rowWrite hookFlushCtl who TIR_FLUSHCTL val s)

/-- The flush ends once no line of it waits (R125). -/
def flushComplete (s : State) : State :=
  if s.fget TIR_FLUSHCTL F.TIR_FLUSHCTL_BUSY = 1 ∧ coreOpen s then
    let ls := s.tier.flushWait
    let s1 := ls.foldl (flushLine s.tier.flushInval) { s with tier := { s.tier with flushWait := [] } }
    if s1.tier.flushWait = [] then
      pump ((s1.fset TIR_FLUSHCTL F.TIR_FLUSHCTL_BUSY 0).fset TIR_FLUSHCTL F.TIR_FLUSHCTL_STATUS (if s1.tier.flushBad then C.TIR_E_FLUSH_INCOMPLETE else 0))
    else s1
  else s

/-- The flush ends. -/
def execFlushComplete (s : State) : Res := .next (flushComplete s)

/-! Cold reads (R127, R182). -/

/-- Lanes of a unit that work of these classes holds. -/
def lanesOf (s : State) (u : Nat) (p : Nat → Bool) : Nat := ((s.tier.pleat.filter (fun w => w.unit == u && p w.cls)).map (·.lanes)).foldl (· + ·) 0

/-- Lanes of a unit that hold work. -/
def lanesBusy (s : State) (u : Nat) : Nat := lanesOf s u (fun _ => true)

/-- First waiting work of a unit in class order. -/
def pleatNext (s : State) (u : Nat) : Nat → Nat → Option PleatWork
  | 0, _ => none
  | n + 1, c => match s.tier.pleat.find? (fun w => w.unit == u && w.cls == c && !w.granted && !w.failed) with
    | some w => some w
    | none => pleatNext s u n (c + 1)

/-- RESV_LANES: above 8 it acts as 8 (R186). -/
def resvLanes (s : State) (u : Nat) : Nat := min 8 (s.fget (PLT_CFG u) F.PLT_CFG_RESV_LANES)

/-- Lanes that a grant gives, the work they go to, and whether that is all it needs. Waiting work is taken in class order, and within a class in arrival order; while
work of classes 3 or 4 waits, RESV_LANES lanes are kept for those classes (R182). DESIGN CHOICE (log entry 169): work of classes 1 and 2 takes all its lanes in one
grant; work of classes 3 and 4 collects them, so that the reserve lets a page through. -/
def pleatPick (s : State) (u : Nat) : Option (PleatWork × Nat) :=
  let free := 16 - lanesBusy s u
  let low := match pleatNext s u 1 3 with
    | some w => some w
    | none => pleatNext s u 1 4
  let resv := if low.isSome then resvLanes s u - lanesOf s u (3 ≤ ·) else 0
  match pleatNext s u 2 1, low with
  | some w, none => if w.need ≤ free then some (w, w.need) else none
  | some w, some x =>
    if w.need + resv ≤ free then some (w, w.need)
    else
      let n := min (min resv free) (x.need - x.lanes)
      if n = 0 then none else some (x, n)
  | none, some x =>
    let n := min free (x.need - x.lanes)
    if n = 0 then none else some (x, n)
  | none, none => none

/-- A unit grants free lanes (R182), unless it stands in Halt (R472); an eviction's promotion that waited for them goes on. -/
def pleatGrant (u : Nat) (s : State) : State :=
  match (if coreOpen s then pleatPick s u else none) with
  | none => s
  | some (w, n) =>
    let x := { w with lanes := w.lanes + n, granted := decide (w.need ≤ w.lanes + n) }
    let t0 := { s with tier := { s.tier with pleat := s.tier.pleat.map (fun y => if y = w then x else y) } }
    let t := if lanesBusy s u < 16 ∧ lanesBusy t0 u = 16 then t0.ev (0x283 + 4 * u) else t0
    if w.cls = 2 then pump t else t

/-- A Pleat unit grants a lane. -/
def execPleatLaneGrant (u : Nat) (s : State) : Res := .next (pleatGrant u s)

/-- The eight lines of a segment with the lines decoded, or none. -/
def arrivedLines (la : Nat) (w : Option (List Nat)) : List Fwd :=
  (List.range 8).map fun i => match w with
    | some ws => ⟨la + i * 64, some ((segLines ws).getD i 0), false⟩
    | none => ⟨la + i * 64, some 0, true⟩

/-- Fill the lines of a decoded segment (R127, R124): the requested ones as any read miss, the others where a Clean way is free. The lines of a segment that could
not be decoded are poison: they fill nothing (R126), but the requested ones have been read from DRAM. DESIGN CHOICE (log entry 124): a
line that no request asked for is charged to no regulated master (28), where R445 names only the allocating master. -/
def segFill (s : State) : List Fwd → State
  | [] => s
  | f :: r =>
    let wanted := s.home.waiting.find? (fun q => q.la == f.la)
    let count := fun (t : State) => countFill t (f.la / 4096)
    let s1 :=
      match f.data, (cachedLine s f.la) with
      | some d, none =>
        (match wanted with
        | some q => if f.poison then count s else lcFill (count s) f.la d q.master true
        | none =>
          if s.fget TIR_CFG F.TIR_CFG_SEGFILL = 1 ∧ f.poison = false then
            let t := lcFill s f.la d 28 false
            if (lcFind t f.la).isSome then count t else t
          else s)
      | _, _ => s
    segFill s1 r

/-- The sectors of a segment arrive (R127, R128): its lines are decoded, filled and given to the waiting requests. -/
def coldSegmentRead (la : Nat) (s : State) : State :=
  let sl := segLa la
  let page := la / 4096
  match (if coreOpen s then s.tier.pleat.find? (fun w => w.la == sl && w.cls == 1 && w.granted) else none) with
  | none => s
  | some w =>
    let s0 := { s with tier := { s.tier with pleat := s.tier.pleat.erase w } }
    match descOf s0 page with
    | none => pump (descFill s0 page)
    | some d =>
      if dState d = stCOLD ∧ 0 < dSize d ∧ slotLive s0 (dKreg d) (dEpoch d) then
        let r := coldSegment s0 page d (sl / 512 % 8)
        let ls := arrivedLines sl r.1
        let s1 := segFill (if r.1.isSome then r.2 else evTIR 6 r.2) ls
        pump { s1 with home := { s1.home with arrived := s1.home.arrived ++ ls } }
      else pump s0

/-- The sectors of one cold segment arrive. -/
def execColdSegmentRead (la : Nat) (s : State) : Res := .next (coldSegmentRead la s)

/-- A dirty eviction into a COLD page promotes it (R129, R131). -/
def promotion (la : Nat) (s : State) : State :=
  let l := la / 64 * 64
  match descOf s (l / 4096) with
  | some d => if dState d = stCOLD ∧ coreOpen s then pump (wbLine s l).2 else s
  | none => s

/-- A dirty eviction into a COLD page promotes it. -/
def execPromotion (la : Nat) (s : State) : Res := .next (promotion la s)

/-! Stripes (R134). -/

/-- CLOSE_US have passed since an append that waits on the group's open stripe. -/
def stripeCloseTimeout (g : Nat) (s : State) : State :=
  let o := s.tier.stripes.find? (fun o => o.group == g && !o.closed && decide (0 < o.fill))
  match o with
  | some _ => if headSect s g = 0 ∨ headSect s g = 704 ∨ coreOpen s = false then s else closeHead s g true
  | none => s

/-- The open stripe is closed early. -/
def execStripeCloseTimeout (g : Nat) (s : State) : Res := .next (stripeCloseTimeout g s)

/-- Line `l` of a stripe's chunk at position `pos`; position idx mod 12 is parity. -/
def chunkLine (o : OpenStripe) (pos l : Nat) : Line :=
  let p := o.idx % 12
  let sect := fun (j : Nat) => tabGet (fun _ => (0 : Line)) o.sects (j * 64 + l)
  if pos = p then (List.range 11).foldl (fun a j => a ^^^ sect j) 0
  else sect (if pos < p then pos else pos - 1)

/-- Write the chunk of one channel. -/
def chunkWrite (s : State) (o : OpenStripe) (pos : Nat) : State :=
  let c := 12 * o.group + pos
  let f := coldBase s o.group + o.idx
  let s1 := (List.range 64).foldl (fun t l => dramWrite c f l (chunkLine o pos l) false t) s
  let s2 := { s1 with dram := { s1.dram with lack := tabSet (fun _ => false) s1.dram.lack (c * 2 ^ 28 + f) false } }
  -- a rejoining channel need not rebuild the stripe (R141)
  if s2.cstate c = csREJOINING then s2.setChan c { s2.chan c with rejoinSkip := (s2.chan c).rejoinSkip ++ [o.idx] } else s2

/-- An operation that has a sector in the stripe. -/
def opTouches (o : PageOp) (g idx : Nat) : Bool := o.group == g && o.firstStripe ≤ idx && idx ≤ o.lastStripe && dSize o.desc != 0

/-- A closed stripe is written (R134): stripes of a group go in ascending order; one channel out leaves its chunk; two leave the stripe unwritten. -/
def stripeWritten (g idx : Nat) (s : State) : State :=
  match s.tier.stripes.find? (fun o => o.group == g && o.closed) with
  | none => s
  | some o =>
    if o.idx ≠ idx ∨ coreOpen s = false then s
    else
      let out := chansOut s g
      let s0 := setStripes s (s.tier.stripes.erase o)
      match out with
      | [] => evTIR (9 + g) ((List.range 12).foldl (fun t p => chunkWrite t o p) s0)
      | [c] =>
        let s1 := ((List.range 12).filter (fun p => 12 * g + p != c)).foldl (fun t p => chunkWrite t o p) s0
        let s2 := { s1 with dram := { s1.dram with lack := tabSet (fun _ => false) s1.dram.lack (c * 2 ^ 28 + (coldBase s1 g + idx)) true } }
        evTIR 12 (evTIR (9 + g) ((s2.fset TIR_STAT F.TIR_STAT_STRIPE_DEGRADED 1).reportAt 0 (srcId 7 1) c C.TIR_W_STRIPE_DEGRADED 0 0))
      | _ => { s0 with tier := { s0.tier with ops := s0.tier.ops.map (fun x => if opTouches x g idx then { x with failed := true } else x) } }

/-- A closed stripe is written; what waited for room in the journal goes on. -/
def execStripeWritten (g idx : Nat) (s : State) : Res := .next (pump (stripeWritten g idx s))

/-! The end of a page operation (R132 steps 5 to 7, R134). -/

/-- The stripes of an operation have all been written. -/
def opReady (s : State) (o : PageOp) : Bool := !(s.tier.stripes.any (fun x => opTouches o x.group x.idx))

/-- Lines that the new image has taken from the cache and that nothing has written since become Clean, and their copies go (R122, R216). -/
def mergedClean (s : State) (lpn : Nat) (m : List (Nat × Line)) : State :=
  m.foldl (fun t x =>
    let la := lpn * 4096 + x.1 * 64
    match lcFind t la with
    | some (k, e) => if e.data = x.2 ∧ (e.st = .dirty ∨ e.st = .held) then dropCopy (lcPut t k (some { e with st := .clean })) la else t
    | none => (match copyFind t la with
      | some (_, e) => if e.data = x.2 then dropCopy t la else t
      | none => t)) s

/-- Every line of the page that stays dirty has a copy in the partner share, as a protected page's must (R83, R121); `merged` are those whose data goes elsewhere.
False: a copy must wait for its place. -/
def protectLines (s : State) (merged : List (Nat × Line)) : List Nat → Bool × State
  | [] => (true, s)
  | la :: r =>
    match lcFind s la with
    | some (_, e) =>
      let clean := e.st == .clean || merged.any (fun x => la / 4096 * 4096 + x.1 * 64 == la && x.2 == e.data)
      if clean ∨ (copyFind s la).isSome then protectLines s merged r
      else
        let c := placeCopy s la e.data (if e.st = .poisoned then .poisoned else .dirty) e.master
        if c.1 then protectLines c.2 merged r else c
    | none => protectLines s merged r

/-- Rewrite the page's descriptor at the end of an operation that has its stripes; the page's ACC is kept (R124, R202, R204). -/
def opRewrite (s : State) (o : PageOp) (d : Desc) : State :=
  let s1 := if dHot d then unblock (raiseFloor s (dKreg d) (dEpoch d) (dMajor d + 1)) (dKreg d) o.lpn else s
  let s2 := if o.kind = 3 then (o.merged.foldl (fun t _ => countWb t o.lpn) s1) else s1
  let acc := (descOf s2 o.lpn).elim (dAcc d) dAcc
  mergedClean (setBusy (putDesc s2 o.lpn (dput o.desc 10 8 acc)) o.lpn false) o.lpn o.merged

/-- End the operation of a page: the operation, its status, and what its program gets (frame and channel freed); none: it cannot end yet. -/
def opFinish (s : State) (lpn : Nat) : Option (PageOp × Nat × Nat) × State :=
  match s.tier.ops.find? (fun o => o.lpn == lpn), descOf s lpn with
  | some o, some d =>
    -- a Bobbin that has stopped ends its operation when it is fenced (R74)
    if coreOpen s = false ∨ opReady s o = false ∨ (o.kind < 2 ∧ (tabGet (fun _ => Bob.init) s.bobs o.bob).run = 4) then (none, s)
    else
      let drop := fun (t : State) => { t with tier := { t.tier with ops := t.tier.ops.erase o } }
      if o.failed then (some (o, C.TIR_E_GROUP_DEGRADED, 0), setBusy (drop s) lpn false)
      else
        let p := if dHot d then protectLines s o.merged (pageLines lpn) else (true, s)
        if p.1 = false then (none, p.2)
        else
          let freed := if dHot d then dFrameIdx d + dChan d * 2 ^ 28 else 0
          let k := if o.kind = 0 then 1 else if o.kind = 1 then 2 else if o.kind = 3 then 3 else 18
          (some (o, 0, freed), evTIR k (opRewrite (drop p.2) o d))
  | _, _ => (none, s)

/-! Log tail (R136) and Gusset ranges (R82). -/

/-- TIR_LOGTAILg. -/
def hookLogTail : Hook := fun idx _ new _ s =>
  let g := idx.headD 0
  let ns := stripesOf s g
  let v := fld new F.TIR_LOGTAIL_STRIPE
  let t := tailStripe s g
  let h := headStripe s g
  if ns = 0 then (s, if v = 0 then 0 else C.TIR_E_TAIL_RANGE)
  else if ns ≤ v ∨ (h + ns - t) % ns < (v + ns - t) % ns then (s, C.TIR_E_TAIL_RANGE)
  else
    let s1 := s.fset (TIR_LOGTAIL g) F.TIR_LOGTAIL_STRIPE v
    (if headSect s1 g = 704 ∧ 0 < freeStripes s1 g then headNext s1 g else s1, 0)

/-- A write of a log tail (R136, R135). -/
def execLogTailWrite (who : Who) (g : Nat) (val : Word) (s : State) : Res := .next (rowWrite hookLogTail who (TIR_LOGTAIL g) val s)

/-- TIR_GRBASEn: GROUP 3 is reserved (R82). -/
def hookGrBase : Hook := fun idx _ new _ s =>
  if fld new F.TIR_GRBASE_GROUP = 3 then (s, C.TIR_E_ATTR) else (s.setRg (TIR_GRBASE (idx.headD 0)) (BitVec.ofNat 64 new), 0)

/-- A write of a Gusset range's base and attributes (R82). -/
def execGussetRangeWrite (who : Who) (n : Nat) (val : Word) (s : State) : Res := .next (rowWrite hookGrBase who (TIR_GRBASE n) val s)

end Sys2Proof.Machine
end

