-- ==== Sys2Proof/Machine/KeyCmds.lean ====
section
/-! DEFINITION. The commands of the key block (chapter 06): region ranges (R189), slots (R191, R192, R214), the re-key sweep (R212, R213), link keys
(R218, R219) and cipher-unit mismatches (R217). -/

namespace Sys2Proof.Machine

/-- A free value of `n` bits, and the state that has drawn it. -/
def State.rand (s : State) (n : Nat) : Nat × State := (Config.randomBits n s.ctr % 2 ^ n, { s with ctr := s.ctr + 1 })

/-! Regions. -/

/-- The range overlaps that of another valid region. -/
def rgnOverlap (s : State) (k base limit : Nat) : Bool :=
  ((List.range 31).map (· + 1)).any fun j =>
    j != k && s.fget (KEY_RGN j) F.KEY_RGN_VALID == 1 &&
      decide (s.fget (KEY_RGN j) F.KEY_RGN_BASE ≤ limit) && decide (base ≤ s.fget (KEY_RGN j) F.KEY_RGN_LIMIT)

/-- KEY_RGNk (R189). -/
def hookKeyRgn : Hook := fun idx _ new _ s =>
  let k := idx.headD 0
  let b := fld new F.KEY_RGN_BASE
  let l := fld new F.KEY_RGN_LIMIT
  if k = 0 ∨ l < b ∨ (fld new F.KEY_RGN_VALID = 1 ∧ rgnOverlap s k b l) then (s, C.KEY_E_RANGE)
  else (s.setRg (KEY_RGN k) (BitVec.ofNat 64 new), 0)

/-- A write of a region's range (R189). -/
def execKeyRegionWrite (who : Who) (k : Nat) (val : Word) (s : State) : Res := .next (rowWrite hookKeyRgn who (KEY_RGN k) val s)

/-! Slots. -/

/-- Words `a` to `a + n - 1` of the staging registers as one number. -/
def kmatWords (s : State) (a n : Nat) : Nat := (List.range n).foldl (fun v i => v + tabGet (fun _ => 0) s.keys.kmat (a + i) * 2 ^ (64 * i)) 0

/-- Zero the staging registers (R191). -/
def kmatClear (s : State) : State := { s with keys := { s.keys with kmat := [] } }

/-- ERASE (R214). -/
def keyErase (s : State) (k : Nat) : State :=
  let z := fun (t : State) (e : Nat) => t.setSlot k e { t.slot k e with mat := 0 }
  (z (z s 0) 1).fset (KEY_RCTL k) F.KEY_RCTL_LIVE 0

/-- LOAD (R191); it ends the block of the region's pages, which all name the other slot (R204). -/
def keyLoad (s : State) (k e : Nat) (gen : Bool) : State × Nat :=
  if (s.slot k e).inuse ≠ 0 then (s, C.KEY_E_SLOT_IN_USE)
  else
    let r := if gen then s.rand 768 else (kmatWords s 0 12, s)
    let s1 := kmatClear (r.2.setSlot k e ⟨r.1, 0, 0⟩)
    let s2 := (s1.fbit (KEY_RCTL k) F.KEY_RCTL_LIVE e true).fset (KEY_RCTL k) F.KEY_RCTL_NEWER e
    let s3 := { s2 with keys := { s2.keys with blocked := s2.keys.blocked.filter (fun x => x / 2 ^ 35 != k) } }
    (s3.fset (KEY_RCTL k) F.KEY_RCTL_BLOCKED 0, 0)

/-- CUR (R192). -/
def keyCur (s : State) (k e : Nat) : State × Nat :=
  if e = s.fget (KEY_RCTL k) F.KEY_RCTL_CUR then (s, 0)
  else if slotLive s k e = false then (s, C.KEY_E_NO_KEY)
  else if s.fget (KEY_RCTL k) F.KEY_RCTL_NEWER ≠ e then (s, C.KEY_E_NOT_NEWER)
  else (s.fset (KEY_RCTL k) F.KEY_RCTL_CUR e, 0)

/-- KEY_RCTLk: ERASE, LOAD and CUR in this order, each against what the parts before it leave (R192). -/
def hookKeyRctl : Hook := fun idx _ new act s =>
  let k := idx.headD 0
  let s1 := if fld act F.KEY_RCTL_ERASE = 1 then keyErase s k else s
  let l := if fld act F.KEY_RCTL_LOAD = 1 then keyLoad s1 k (fld act F.KEY_RCTL_SLOT) (fld act F.KEY_RCTL_GEN == 1) else (s1, 0)
  let c := keyCur l.1 k (fld new F.KEY_RCTL_CUR)
  (pump c.1, if l.2 ≠ 0 then l.2 else c.2)

/-- A key slot is loaded (R191). -/
def execKeyLoad (who : Who) (k : Nat) (val : Word) (s : State) : Res := .next (rowWrite hookKeyRctl who (KEY_RCTL k) val s)

/-- CUR is written (R192). -/
def execKeyCurWrite (who : Who) (k : Nat) (val : Word) (s : State) : Res := .next (rowWrite hookKeyRctl who (KEY_RCTL k) val s)

/-- A region's slots are erased (R214). -/
def execKeyErase (who : Who) (k : Nat) (val : Word) (s : State) : Res := .next (rowWrite hookKeyRctl who (KEY_RCTL k) val s)

/-- A staging register: its word is kept where no world can read it (R191). -/
def hookKmat : Hook := fun idx _ _ act s =>
  ({ s with keys := { s.keys with kmat := tabSet (fun _ => 0) s.keys.kmat (idx.headD 0) (act % 2 ^ 64) } }, 0)

def State.sp (s : State) (p : Nat) : SeamPort := tabGet (fun _ => SeamPort.init) s.seam.ports p
def State.setSp (s : State) (p : Nat) (x : SeamPort) : State :=
  { s with seam := { s.seam with ports := tabSet (fun _ => SeamPort.init) s.seam.ports p x } }

/-- Link key of port `p`, direction 0 transmit or 1 receive, and slot (R219). -/
def linkKey (s : State) (p dir slot : Nat) : Option (Nat × Nat) := tabGet (fun _ => none) s.keys.link (p * 4 + dir * 2 + slot)

/-- The port has a key for each direction (R346). -/
def linkKeyed (s : State) (p : Nat) : Bool :=
  ((linkKey s p 0 0).isSome || (linkKey s p 0 1).isSome) && ((linkKey s p 1 0).isSome || (linkKey s p 1 1).isSome)

/-- KEY_LINKCTL (R218, R219): a transmit key in the slot not in use is used from the next new flit onward (R335), a receive key resets the records of
its slot (R336), and a port that waited for keys goes on (R346). -/
def hookLinkCtl : Hook := fun _ _ new act s =>
  let s1 := s.setRg KEY_LINKCTL (BitVec.ofNat 64 new)
  if fld act F.KEY_LINKCTL_LOAD = 1 then
    let k := fld new F.KEY_LINKCTL_PORT * 4 + fld new F.KEY_LINKCTL_DIR * 2 + fld new F.KEY_LINKCTL_SLOT
    let e := some (kmatWords s 0 4, kmatWords s 4 1)
    let p := fld new F.KEY_LINKCTL_PORT
    let slot := fld new F.KEY_LINKCTL_SLOT
    let s2 := kmatClear { s1 with keys := { s1.keys with link := tabSet (fun _ => none) s1.keys.link k e } }
    let x := s2.sp p
    let s3 := if fld new F.KEY_LINKCTL_DIR = 0 then s2.setSp p { x with txSlot := slot }
      else s2.setSp p { x with slotCtl := tabSet (fun _ => 0) x.slotCtl slot 0 }
    (if s3.fget (PRT_SEAMSTAT p) F.PRT_SEAMSTAT_NOKEY = 1 ∧ linkKeyed s3 p then s3.fset (PRT_SEAMSTAT p) F.PRT_SEAMSTAT_NOKEY 0 else s3, 0)
  else (s1, 0)

/-- A link key is installed (R218, R219). -/
def execLinkKeyLoad (who : Who) (val : Word) (s : State) : Res := .next (rowWrite hookLinkCtl who KEY_LINKCTL val s)

/-- The round paths of cipher unit `c` disagree (R217): reported, and the computation is repeated. -/
def execKeyFUnit (c : Nat) (s : State) : Res := .next ((s.diagAdd dgCUBAD c 1).report (srcId 5 c) 0 C.KEY_F_UNIT 0 0)

/-! The re-key sweep (R212, R213). -/

/-- KEY_SWEEPCTL. -/
def hookSweepCtl : Hook := fun _ _ _ act s =>
  let busy := s.fget KEY_SWEEPCTL F.KEY_SWEEPCTL_BUSY == 1
  let s1 := if fld act F.KEY_SWEEPCTL_STOP = 1 ∧ busy then { s with keys := { s.keys with sweepStop := true } } else s
  if fld act F.KEY_SWEEPCTL_START = 1 then
    if busy then (s1, C.KEY_E_SWEEP_BUSY)
    else if s.devLevel = 3 then (s1, C.FLT_E_BASTING)
    else ({ s1 with keys := { s1.keys with sweepStop := false } }.fset KEY_SWEEPCTL F.KEY_SWEEPCTL_BUSY 1, 0)
  else (s1, 0)

/-- The sweep starts (R212). -/
def execKeySweepStart (who : Who) (val : Word) (s : State) : Res := .next (rowWrite hookSweepCtl who KEY_SWEEPCTL val s)

/-- The sweep is told to stop after its page (R213). -/
def execKeySweepStop (who : Who) (val : Word) (s : State) : Res := .next (rowWrite hookSweepCtl who KEY_SWEEPCTL val s)

/-- The sweep ends with a status. -/
def sweepEnd (s : State) (st : Nat) : State :=
  ({ s with keys := { s.keys with sweepStop := false } }.fset KEY_SWEEPCTL F.KEY_SWEEPCTL_BUSY 0).fset KEY_SWEEPCTL F.KEY_SWEEPCTL_STATUS st

/-- The sweep is done with page `lpn`: KEY_SWEEPBASE advances, and the sweep ends after its last page, at L, or on a STOP. -/
def sweepAdvance (s : State) (lpn : Nat) : State :=
  let s1 := s.fset KEY_SWEEPBASE F.KEY_SWEEPBASE_LPN (lpn + 1)
  if s1.devLevel = 3 then sweepEnd s1 C.FLT_E_BASTING
  else if s1.keys.sweepStop ∨ s1.fget KEY_SWEEPLIM F.KEY_SWEEPLIM_LPN ≤ lpn ∨ pagesL s1 ≤ lpn + 1 then sweepEnd s1 0 else s1

/-- The units of a stored image, decrypted under one slot and encrypted under another (R207, R208). -/
def imageRecrypt (x y : KeySlot) (lpn : Nat) (d : Desc) (img : Bytes) : Bytes :=
  let unit := fun (tw a b : Nat) => xtsUnit true (keyKX1 y) (keyKX2 y) tw (xtsUnit false (keyKX1 x) (keyKX2 x) tw ((img.take b).drop a))
  unit (hdrTweak lpn) 0 16 ++ (List.range 8).flatMap fun i => unit (segTweak lpn i) (segSpan d i).1 (segSpan d i).2

/-- The page is under the target of R193 already: its region's CUR. -/
def sweptAlready (s : State) (lpn : Nat) (d : Desc) : Bool :=
  dKreg d == regionOf s (lpn * 4096) && dEpoch d == s.fget (KEY_RCTL (dKreg d)) F.KEY_RCTL_CUR

/-- A hot page is swept in place (R212, R213, R202). DESIGN CHOICE (log entry 125): a frame that cannot be written ends the sweep with TIR_E_OP_ABORTED, as
the manual names no status for it; one whose channel retrains makes it wait. -/
def sweepHot (s : State) (lpn : Nat) (d : Desc) : State :=
  let k0 := dKreg d
  let e0 := dEpoch d
  if sweptAlready s lpn d then sweepAdvance s lpn
  else if slotLive s k0 e0 = false then sweepEnd s C.KEY_E_NO_KEY
  else
    let s0 := raiseFloor s k0 e0 (dMajor d + 1)
    match freshSlot s0 (lpn * 4096) with
    | .error st => sweepEnd s st
    | .ok (k, e) =>
      if k = k0 ∧ e = e0 then sweepAdvance s lpn
      else if pageWaits s d then s
      else
        let w := canWrite s (dChan d) || (dState d == stMIRROR && canWrite s (dChan d + 6))
        if w = false then
          if s.cstate (dChan d) = csRETRAINING then s else sweepEnd s C.TIR_E_OP_ABORTED
        else sweepAdvance (evTIR 18 (unblock (reencrypt s0 lpn d k e (s0.slot k e).mfloor none) k0 lpn)) lpn

/-- A cold page is read, encrypted afresh and appended (R212); its end is DEMOTE_FINISH. DESIGN CHOICE (log entry 125): a page with a sector that cannot be read
ends the sweep with TIR_F_COLD_CORRUPT, as the manual names no status for it. -/
def sweepCold (s : State) (lpn : Nat) (d : Desc) : State :=
  if sweptAlready s lpn d then sweepAdvance s lpn
  else match coldSlot s (lpn * 4096) with
  | .error st => sweepEnd s st
  | .ok (k, e) =>
    let g := dSector d / 2 ^ 39
    let st := appendCheck s g (8 * dSize d) false
    if slotLive s (dKreg d) (dEpoch d) = false then sweepEnd s C.KEY_E_NO_KEY
    else if st ≠ 0 then sweepEnd (appendRefused s g st false) st
    else
      match sectorsRead sectorRead s (8 * dSize d) (dSector d) with
      | (none, s1) => sweepEnd s1 C.TIR_F_COLD_CORRUPT
      | (some img, s1) =>
        let ct := imageRecrypt (s1.slot (dKreg d) (dEpoch d)) (s1.slot k e) lpn d img
        match journalAppend s1 g ((chunk 64 56 ct).map lineOf) false with
        | .error _ => s
        | .ok (sector, f, l, s2) =>
          let d' := dput (dput (dput d 4 5 k) 9 1 e) 18 40 sector
          setBusy (addOp s2 ⟨lpn, d', g, f, l, false, 2, 0, 0, []⟩) lpn true

/-- The sweep takes its next page (R212, R213). -/
def sweepPage (s : State) : State :=
  if s.fget KEY_SWEEPCTL F.KEY_SWEEPCTL_BUSY = 0 ∨ coreOpen s = false then s
  else
    let lpn := s.fget KEY_SWEEPBASE F.KEY_SWEEPBASE_LPN
    if s.fget KEY_SWEEPLIM F.KEY_SWEEPLIM_LPN < lpn ∨ pagesL s ≤ lpn then sweepEnd s 0
    else
      let s0 := descFill s lpn
      match descOf s0 lpn with
      | none => s0
      | some d =>
        if canBusy s0 lpn = false then busyWait s0 lpn
        else if dHot d then pump (sweepHot s0 lpn d)
        else if dState d = stCOLD ∧ 0 < dSize d then sweepCold s0 lpn d
        else sweepAdvance s0 lpn

/-- The sweep takes its next page. -/
def execSweepPage (s : State) : Res := .next (sweepPage s)

end Sys2Proof.Machine
end

