-- ==== Sys2Proof/Machine/Wake.lean ====
section
/-! DEFINITION. Cold reset (R510, R511) and waking (R526 to R528): what other chapters' events reach. -/

namespace Sys2Proof.Machine

/-- What the Selvedge die keeps of a Hem controller through a cold reset (R511, R551): the gate is discharged fast, presence and VIN stand. -/
def hemCold (x : Hem) : Hem := { Hem.init with present := x.present, vinok := x.vinok, retry := x.retry || x.gate != 0, adm := 0 }

/-- Registers of a controller after a cold reset. -/
def hemColdRegs (s : State) (h : Nat) : State :=
  let x := tabGet (fun _ => Hem.init) s.hems h
  let b := fun (v : Bool) => if v then 1 else 0
  (((s.fset (HEM_STAT h) F.HEM_STAT_PRESENT (b x.present)).fset (HEM_STAT h) F.HEM_STAT_VINOK (b x.vinok)).fset (HEM_STAT h) F.HEM_STAT_RETRY_LEFT
    (if x.retry then s.fget (HEM_CFG h) F.HEM_CFG_RETRY else 0))

/-- The machine after a cold reset: its Reset column, fresh metadata keys (R209), no DRAM content (R195, R510). The fuses, the sticky bits of the thermal page
(R597), the pins and what the Selvedge die senses stand. `last` goes to MGT_RSTCTL.LASTRST. -/
def coldState (s : State) (last : Nat) : State :=
  let z := State.reset
  let hm := (List.range 24).foldl (fun t h => tabSet (fun _ => Hem.init) t h (hemCold (tabGet (fun _ => Hem.init) s.hems h))) []
  let pt := (List.range 16).foldl (fun t p => tabSet (fun _ => Port.init) t p { Port.init with perst := (tabGet (fun _ => Port.init) s.ports p).perst }) []
  let s1 : State :=
    { z with pending := s.pending, out := s.out, ctr := s.ctr + 3,
             keys := { z.keys with metaData := Config.randomBits 256 s.ctr, metaTweak := Config.randomBits 256 (s.ctr + 1), metaTag := Config.randomBits 256 (s.ctr + 2) },
             ports := pt, hems := hm, tap := { z.tap with fuseLock := s.tap.fuseLock }, mgmt := { z.mgmt with minSvn := s.mgmt.minSvn },
             sram := { z.sram with flaws := s.sram.flaws }, pwr := { z.pwr with pwrok := s.pwr.pwrok, d2dLost := false } }
  let s2 := (s1.setRg SBT_STAT (s.rg SBT_STAT)).fset MGT_RSTCTL F.MGT_RSTCTL_LASTRST last
  (List.range 24).foldl hemColdRegs s2

/-- The device is held as in cold reset (R589, R590, R596): `why` as in `Pwr.held`. -/
def holdCold (s : State) (why : Nat) : State :=
  let t := coldState s (s.fget MGT_RSTCTL F.MGT_RSTCTL_LASTRST)
  { t with pwr := { t.pwr with held := why } }

/-- The source's bit of PWR_WAKE (R526): 14 is the timer, 15 a fault record. -/
def wakeEnabled (s : State) (src : Nat) : Bool :=
  match src with
  | 0 => s.fget PWR_WAKE F.PWR_WAKE_PERST == 1
  | 1 => s.fget PWR_WAKE F.PWR_WAKE_HOST == 1
  | 2 => s.fget PWR_WAKE F.PWR_WAKE_PIN == 1 && !s.pwr.wakeDriven
  | 3 => s.fget PWR_WAKE F.PWR_WAKE_PRESENCE == 1
  | 4 => s.fget PWR_WAKE F.PWR_WAKE_SIDEBAND == 1
  | 14 => s.fget PWR_WAKE F.PWR_WAKE_TIMER_S != 0
  | 15 => true
  | _ => false

/-- The states that a source wakes from (R526). -/
def wakeFrom (src st : Nat) : Bool :=
  match src with
  | 1 => st == 2
  | 15 => st == 2
  | 0 => st == 2 || st == 3
  | 4 => st == 2 || st == 3
  | 2 => st == 2 || st == 3 || st == 4
  | 3 => st == 2 || st == 3 || st == 4
  | 14 => st == 2 || st == 3 || st == 4
  | _ => false

/-- The state left and the source that ended it (PWR_STAT). -/
def notePrev (s : State) (st src : Nat) : State := (s.fset PWR_STAT F.PWR_STAT_PREV st).fset PWR_STAT F.PWR_STAT_WAKESRC src

/-- A wake source acts (R525 to R529): an entry under way is aborted; P2 is left; P3 starts its resume sequence; P4 starts a cold reset, or, while PWROK
is low, drives WAKE_N for PRESENCE and TIMER. -/
def wake (src : Nat) (s : State) : State :=
  if wakeEnabled s src = false then s
  else if s.fget PWR_CTL F.PWR_CTL_BUSY = 1 then (if wakeFrom src s.pwr.target then pwrAbort s else s)
  else if wakeFrom src s.pst = false then s
  else if s.pst = 2 then notePrev { s with pst := 0 } 2 src
  else if s.pst = 3 then (if s.pwr.resume = 0 then (notePrev s 3 src |> fun t => { t with pwr := { t.pwr with resume := 1 } }) else s)
  else if s.pwr.pwrok then notePrev (coldState s 0) 4 src
  else if src = 3 ∨ src = 14 then (notePrev s 4 src |> fun t => { t with pwr := { t.pwr with wakeDriven := true } })
  else s

/-- The host of port `p` is active (R525, R526): its link leaves L1, an entry under way is aborted, P2 is left. -/
def hostActive (s : State) (p : Nat) : State :=
  let s1 := if s.fget PWR_CTL F.PWR_CTL_BUSY = 1 then pwrAbort s else wake 1 s
  if s1.pst < 2 then { s1 with ports := tabSet (fun _ => Port.init) s1.ports p { tabGet (fun _ => Port.init) s1.ports p with l1 := false } } else s1

end Sys2Proof.Machine
end

