-- ==== Sys2Proof/Machine/Lane.lean ====
section
/-! DEFINITION. Lanes and fault records as other chapters reach them: what a recovery or a reset does to a calibration (R567), and the fields of a
record of the fault collector (R458). -/

namespace Sys2Proof.Machine

/-! Records (R458). -/

def recWord (s : State) (i w : Nat) : Nat := (s.rg (FLT_REC i w)).toNat

/-- Replace bits of word 1 of record `i`. -/
def recPut (s : State) (i lo w v : Nat) : State := if 1024 ≤ i then s else s.setRg (FLT_REC i 1) (BitVec.ofNat 64 (putBits (recWord s i 1) lo w v))

def recSource (s : State) (i : Nat) : Nat := getBits (recWord s i 1) 0 12
def recLevel (s : State) (i : Nat) : Nat := getBits (recWord s i 1) 12 3
def recCode (s : State) (i : Nat) : Nat := getBits (recWord s i 1) 16 16
def recElem (s : State) (i : Nat) : Nat := getBits (recWord s i 1) 32 16

/-- The record needs acknowledgement and has not had it. -/
def recOpen (s : State) (i : Nat) : Bool := getBits (recWord s i 1) 53 2 == 1

/-- Records of the log with an open acknowledgement. -/
def openRecs (s : State) : List Nat :=
  s.regs.filterMap fun e =>
    if FLT_REC 0 0 ≤ e.1 ∧ e.1 < FLT_REC 1024 0 ∧ e.1 % 32 = 8 ∧ recOpen s ((e.1 - FLT_REC 0 0) / 32) then some ((e.1 - FLT_REC 0 0) / 32) else none

/-- HANDLING of a source (R468): a self-test runs for it, or a record of it awaits acknowledgement. -/
def setHandling (s : State) (src : Nat) : State :=
  let h := s.fltTests.any (fun t => t.src == src) || (openRecs s).any (fun i => recSource s i == src)
  s.fset (FLT_SRCSTAT src) F.FLT_SRCSTAT_HANDLING (if h then 1 else 0)

/-- The collector's test of a source and element. -/
def fltTest (s : State) (src elem : Nat) : Option FltTest := s.fltTests.find? (fun t => t.src == src && t.elem == elem)

/-- The DRAIN that an engine self-test set is withdrawn: what software asked for stands again (R316). -/
def drainBack (s : State) (t : FltTest) : State :=
  if t.code = C.BOB_F_ENGINE then s.fset (BOB_CFG (t.src % 128)) F.BOB_CFG_DRAIN (if t.drain then 1 else 0) else s

/-- A targeted self-test ends (R469): `v` 0 not made, 2 transient, 3 lasting; `act` is the ACTION that the original record takes, when it changes. -/
def fltTestEnd (s : State) (src elem v : Nat) (act : Option Nat) : State :=
  match fltTest s src elem with
  | none => s
  | some t =>
    let s1 := recPut (drainBack { s with fltTests := s.fltTests.erase t } t) t.idx 48 2 v
    let s2 := match act with
      | some a => recPut s1 t.idx 50 3 a
      | none => s1
    setHandling (if v = 2 then s2.ev 0x5C5 else if v = 3 then s2.ev 0x5C6 else s2) src

/-- The self-tests of a source are abandoned (R468): its unit is fenced. -/
def fltAbandon (s : State) (src : Nat) : State := (s.fltTests.filter (fun t => t.src == src)).foldl (fun u t => fltTestEnd u src t.elem 0 none) s

/-! Lanes. -/

def State.calp (s : State) (p : Nat) : CalPort := tabGet (fun _ => CalPort.init) s.cal p
def State.setCalp (s : State) (p : Nat) (x : CalPort) : State := { s with cal := tabSet (fun _ => CalPort.init) s.cal p x }

/-- Element of lane `l` (R11). -/
def laneElem (l : Nat) : Nat := 0x8000 + l

/-- The lane-map byte B that this end sends on a Seam port (R562). -/
def setMapB (s : State) (p v : Nat) : State :=
  let x := tabGet (fun _ => SeamPort.init) s.seam.ports p
  { s with seam := { s.seam with ports := tabSet (fun _ => SeamPort.init) s.seam.ports p { x with mapB := v } } }

/-- What this end asks the partner to mirror: a fenced lane for good, or nothing. -/
def restMapB (x : CalPort) : Nat := match x.fixed with
  | some l => 0x70 + l
  | none => 0x40

def laneState (s : State) (p l : Nat) : Nat := s.fget (CAL_LANE p l) F.CAL_LANE_STATE
def setLaneState (s : State) (p l v : Nat) : State := s.fset (CAL_LANE p l) F.CAL_LANE_STATE v

/-- PRT_SEAMSTAT.SPARE: L16 of a Seam port carries a data lane (R382). -/
def seamSpare (s : State) (p : Nat) (on : Bool) : State :=
  if s.fget (PRT_CFG p) F.PRT_CFG_MODE = 1 then s.fset (PRT_SEAMSTAT p) F.PRT_SEAMSTAT_SPARE (if on then 1 else 0) else s

/-- The first request of the port ends with a status; the next one takes its place. -/
def laneReqEnd (s : State) (p st : Nat) : State :=
  let x := s.calp p
  match x.queue with
  | [] => s
  | r :: rest =>
    let s1 := s.setCalp p { x with queue := rest, step := 0, status := 0, prop := [], old := 0, eye := 0 }
    let s2 := setMapB (if laneState s1 p r.lane = 1 then setLaneState s1 p r.lane 0 else s1) p (restMapB x)
    let s3 := if x.fixed = some r.lane then s2 else seamSpare (s2.fset (CAL_LANE p r.lane) F.CAL_LANE_SPARED 0) p x.fixed.isSome
    if r.fw then (s3.fset CAL_REQ F.CAL_REQ_BUSY 0).fset CAL_REQ F.CAL_REQ_STATUS st else s3

/-- R567: a takeover under way ends with CAL_E_INTERRUPTED. -/
def calInterrupt (s : State) (p : Nat) : State :=
  let x := s.calp p
  match x.queue with
  | r :: _ =>
    if x.step = 0 then s
    else
      let s1 := laneReqEnd (s.setCalp p { x with pend := tabDel x.pend r.lane }) p C.CAL_E_INTERRUPTED
      fltTestEnd s1 (srcId 1 p) (laneElem r.lane) 0 none
  | [] => s

/-- The trims that training sets govern (R567): values that the manual does not give. -/
def calTrained (s : State) (p : Nat) : State :=
  let s1 := s.setCalp p { s.calp p with pend := [], phase := [] }
  (List.range 17).foldl (fun t l =>
    let f := t.free 37
    f.2.setRg (CAL_LANE p l) (BitVec.ofNat 64 (putBits (f.2.rg (CAL_LANE p l)).toNat 0 37 f.1))) s1

end Sys2Proof.Machine
end

