-- ==== Sys2Proof/Machine/DramCmds.lean ====
section
/-! DEFINITION. The DRAM channels (chapter 11): slots and scheduling (R392 to R397), row-disturbance throttling (R398), completions (R400 to R404),
row tests (R405, R406), scrubbing (R407, R408), training (R409 to R412), channel states (R413 to R415) and the rebuild engine (R416, R417). -/

namespace Sys2Proof.Machine

def evDCH (c k : Nat) (s : State) : State := s.ev (0x100 + 16 * c + k)

def chanUpd (s : State) (c : Nat) (f : Chan → Chan) : State := s.setChan c (f (s.chan c))

/-! Admission (R392, R442, R444). -/

/-- Slots in use by reads, or writes, and by unregulated masters. -/
def slotsUsed (x : Chan) (wr : Bool) : Nat := (x.slots.filter (fun r => r.op.wr == wr)).length
def mgmtUsed (x : Chan) : Nat := (x.slots.filter (fun r => 28 ≤ r.op.master)).length

/-- Passes that master `m` holds for channel `c`. -/
def passes (s : State) (c m : Nat) : Nat := tabGet (fun _ => 0) (s.chan c).regul.passes m

/-- The hot page that occupies a frame, as the descriptor caches have it. -/
def framePage (s : State) (c f : Nat) : Option Nat :=
  (s.tier.dc.find? fun e => match e.2 with
    | some d => !d.copy && dHot d.desc && dFrameIdx d.desc == f && (dChan d.desc == c || (dState d.desc == stMIRROR && dChan d.desc + 6 == c))
    | none => false).bind (fun e => e.2.map (·.page))

/-- The cached line that a line of a frame holds. -/
def frameLine (s : State) (c f l : Nat) : Option LcEntry := (framePage s c f).bind fun page => cachedLine s (page * 4096 + l * 64)

/-- A request with the master that it is charged to: the write-back of a dirty line is charged to the master of the last write to the line (R398, R439). -/
def charged (s : State) (c : Nat) (req : DramOp) : DramOp :=
  if req.wr = false ∨ 24 ≤ req.master then req
  else match frameLine s c req.frame req.line with
    | some e => if e.st = .clean then req else { req with master := e.master }
    | none => req

/-- A write reaches the controller: the write-back of a correction to its line that has not been issued is dropped (R402). -/
def newerWrite (s : State) (c : Nat) (req : DramOp) : State :=
  match mergeFind s c req.frame req.line with
  | some e => if req.wr ∧ e.issued = false then mergeDrop s c req.frame req.line else s
  | none => s

/-- A request asks for a slot: it takes one when its pass and a slot are there, and waits at its slice otherwise. None crosses in Halt and in P2 to P4, where the
DIMMs are in self-refresh (R472, R517). -/
def dramAdmit (c : Nat) (op : DramOp) (s : State) : State :=
  let req := charged s c op
  let x := s.chan c
  let serves := if req.wr then canWrite s c else canRead s c req.frame
  if coreOpen s = false ∨ serves = false ∨ chanFrames s c ≤ req.frame ∨ 64 ≤ req.line ∨ x.slots.any (fun r => r.op.id == req.id) then s
  else
    let lim := if req.wr then 64 else 128
    let full := decide (lim ≤ slotsUsed x req.wr)
    let mgmt := 28 ≤ req.master
    let ok := if mgmt then decide (mgmtUsed x < max 1 (s.fget QOS_CFG F.QOS_CFG_MGMT_SLOTS)) else decide (0 < passes s c req.master)
    let held := x.regul.held.filter (fun o => o.op.id != req.id)
    let since := match x.regul.held.find? (fun o => o.op.id == req.id) with
      | some o => o.born
      | none => s.time
    if full ∨ ok = false then
      if x.regul.held.any (fun o => o.op.id == req.id) then s
      else
        let s1 := s.setChan c { x with regul := { x.regul with held := x.regul.held ++ [⟨req, s.time, false⟩] } }
        if ok = false ∧ req.master < 28 then s1.ev (0x580 + 2 * req.master) else s1
    else
      let p := if mgmt then x.regul.passes else tabSet (fun _ => 0) x.regul.passes req.master (passes s c req.master - 1)
      let n := tabSet (fun _ => 0) x.regul.issued req.master (tabGet (fun _ => 0) x.regul.issued req.master + 1)
      let recent := (req.master, s.time) :: x.regul.recent.filter (fun e => decide (s.time < e.2 + 8000))
      let s1 := newerWrite ((histSample req.master 1 req.wr since s).setChan c { x with slots := x.slots ++ [⟨req, s.time, false⟩], regul := { x.regul with held := held, passes := p, issued := n, recent := recent } }) c req
      if slotsUsed x req.wr + 1 = lim then evDCH c (if req.wr then 13 else 12) s1 else s1

/-- A request asks for a slot of channel `c`. -/
def execDramRequestAdmit (c : Nat) (req : DramOp) (s : State) : Res :=
  .next (if (charged s c req).master < 16 then heldNote s (dramAdmit c req s) (charged s c req).master else dramAdmit c req s)

/-! Commands (R393 to R398). -/

/-- Bank and row of a request. -/
def reqPa (s : State) (c : Nat) (r : DramReq) : Nat := framePa s c r.op.frame r.op.line
def reqBank (s : State) (c : Nat) (r : DramReq) : Nat := paBank (reqPa s c r)
def reqRow (s : State) (c : Nat) (r : DramReq) : Nat := paRow (reqPa s c r)
def openRow (s : State) (c b : Nat) : Option Nat := tabGet (fun _ => none) (s.chan c).openRow b
def rowHit (s : State) (c : Nat) (r : DramReq) : Bool := openRow s c (reqBank s c r) == some (reqRow s c r)

/-- Fill level of a port in sixteenths of its request buffer (R394): the request tracker of R84, or the VC0 receive buffer of a Seam port (R341). -/
def portFill (s : State) (p : Nat) : Nat :=
  if s.fget (PRT_CFG p) F.PRT_CFG_MODE = 0 then (s.port p).trk.length * 16 / 2048
  else (((tabGet (fun _ => SeamPort.init) s.seam.ports p).rxq.filter (fun e => e.1.vc == 0)).foldl (fun a e => a + e.1.cost) 0) * 16 / 512

/-- Panic level of a request from the fill level of its port (R394). -/
def panic (s : State) (c : Nat) (r : DramReq) : Nat :=
  if 16 ≤ r.op.port then 0
  else
    let v := portFill s r.op.port
    let q := DCH_SCHED c
    if s.fget q F.DCH_SCHED_PANIC3 ≤ v then 3 else if s.fget q F.DCH_SCHED_PANIC2 ≤ v then 2 else if s.fget q F.DCH_SCHED_PANIC1 ≤ v then 1 else 0

/-- The requests of a list that no earlier request to the same line holds back: a read passes no write, a write passes nothing. -/
def notBehind : List DramReq → List DramReq → List DramReq
  | _, [] => []
  | seen, r :: rest =>
    let blocked := seen.any (fun e => e.op.frame == r.op.frame && e.op.line == r.op.line && (e.op.wr || r.op.wr))
    let more := notBehind (seen ++ [r]) rest
    if blocked then more else r :: more

/-- The throttle entry of a master on a bank. -/
def rhEntry (s : State) (c b m : Nat) : Option RhEntry := (tabGet (fun _ => []) (s.chan c).rh b).find? (fun e => e.master == m)

/-- RAAIMT, RAAMMT and refresh-management support of a bank's module (R397). -/
def bankSlot (b : Nat) : Nat := b / 512 % 2
def raaimtOf (x : Chan) (b : Nat) : Nat := tabGet (fun _ => 0) x.raaimt (bankSlot b)
def raammtOf (x : Chan) (b : Nat) : Nat := tabGet (fun _ => 0) x.raammt (bankSlot b)
def rfmSupOf (x : Chan) (b : Nat) : Bool := tabGet (fun _ => false) x.rfmSup (bankSlot b)

/-- The request's line is in the test buffer; or its bank is held by the row test (R405). -/
def inTest (s : State) (c : Nat) (r : DramReq) : Bool := (bufFind (s.chan c) (dramKey c r.op.frame r.op.line)).isSome
def testHolds (s : State) (c : Nat) (r : DramReq) : Bool :=
  match (s.chan c).rowTest with
  | some t => paBank t.pa == reqBank s c r && !inTest s c r
  | none => false

/-- The activation that a request needs must wait: its bank is saturated, or its master is throttled there (R397, R398). -/
def actHeld (s : State) (c : Nat) (r : DramReq) : Bool :=
  let b := reqBank s c r
  let x := s.chan c
  if openRow s c b = none then
    x.saturated.contains b ||
    (match rhEntry s c b r.op.master with
    | some e => e.throttled && decide (s.time < e.lastAct + s.fget (DCH_RHCFG c) F.DCH_RHCFG_GAP_NS) && decide (s.time < x.rhStart + 32000000)
    | none => false)
  else false

/-- The oldest of a list, by arrival. -/
def oldest : List DramReq → Option DramReq
  | [] => none
  | r :: rest => match oldest rest with
    | some q => if q.born < r.born then some q else some r
    | none => some r

/-- The best by panic level, then row hit, then age. -/
def best (s : State) (c : Nat) : List DramReq → Option DramReq
  | [] => none
  | r :: rest =>
    let k := fun (q : DramReq) => panic s c q * 2 + (if rowHit s c q then 1 else 0)
    match best s c rest with
    | some q => if k r < k q ∨ (k r = k q ∧ q.born < r.born) then some q else some r
    | none => some r

/-- The entry of a table that has counted most. -/
def heaviest : List RhEntry → Option RhEntry
  | [] => none
  | e :: rest => match heaviest rest with
    | some h => if e.count < h.count then some h else some e
    | none => some e

/-- The `n` heaviest masters of a bank: with 4, the table of R398 (DCH_RAA). -/
def rhTable : Nat → List RhEntry → List RhEntry
  | 0, _ => []
  | n + 1, es => match heaviest es with
    | some h => h :: rhTable n (es.erase h)
    | none => []

/-- An activation is counted for refresh management and for its master (R397, R398). Every master that has activated the bank in the window is counted, so that
any that becomes one of the four heaviest stands in the table with its count (log entry 183). -/
def countAct (s : State) (c b m : Nat) : State :=
  let x := s.chan c
  let a := tabGet (fun _ => 0) x.raa b + 1
  let sup := rfmSupOf x b
  let lim := raammtOf x b
  let sat := sup && decide (0 < lim) && decide (lim ≤ a)
  let a' := if sat then lim else a
  let due := if sup ∧ 0 < raaimtOf x b ∧ raaimtOf x b ≤ a' ∧ x.rfmDue.contains b = false then x.rfmDue ++ [b] else x.rfmDue
  let roll := decide (x.rhStart + 32000000 ≤ s.time)
  let rh := if roll then [] else x.rh
  let start := if roll then s.time else x.rhStart
  let es := tabGet (fun _ => []) rh b
  let thr := s.fget (DCH_RHCFG c) F.DCH_RHCFG_THR_ACT
  let old := es.find? (fun e => e.master == m)
  let n := match old with
    | some e => e.count + 1
    | none => 1
  let was := match old with
    | some e => e.throttled
    | none => false
  let e' : RhEntry := ⟨m, n, s.time, was || decide (thr < n)⟩
  let es' := match old with
    | some _ => es.map (fun e => if e.master = m then e' else e)
    | none => es ++ [e']
  let sats := if sat ∧ x.saturated.contains b = false then x.saturated ++ [b] else x.saturated
  let rh' := if 28 ≤ m then rh else tabSet (fun _ => []) rh b es'
  let s1 := s.setChan c { x with raa := tabSet (fun _ => 0) x.raa b a', rfmDue := due, saturated := sats, rh := rh', rhStart := start }
  let s2 := if sat ∧ x.saturated.contains b = false then (s1.fset (DCH_STAT c) F.DCH_STAT_RFMSAT 1).reportAt 0 (srcId 2 c) b C.DCH_W_RFM_SAT 0 0 else s1
  if m < 28 ∧ thr < n ∧ was = false then (s2.fset (DCH_STAT c) F.DCH_STAT_THROTTLE 1).reportAt 0 (srcId 2 c) m C.DCH_W_THROTTLED 0 b else s2

/-- A command is sent: until a later burst has passed its checks it may have to be sent again (R396). -/
def sendCmd (c : Nat) (k : DramCmd) (s : State) : State := chanUpd s c (fun x => { x with cmds := x.cmds ++ [k] })

/-- The commands up to the last one of a request that has passed its checks are known to be good. -/
def goodFrom (id : Nat) : List DramCmd → List DramCmd
  | [] => []
  | k :: rest => if rest.any (fun q => q.id == id) ∨ k.id = id then goodFrom id rest else k :: rest
def cmdsGood (c id : Nat) (s : State) : State := chanUpd s c (fun x => if x.cmds.any (fun k => k.id == id) then { x with cmds := goodFrom id x.cmds } else x)

/-- The burst of a write-back that a scrub caused takes a pass of the scrub agent (R438). -/
def mergePass (c : Nat) (r : DramReq) (s : State) : State :=
  if r.op.id < 2 ^ 64 ∨ 28 ≤ r.op.master then s
  else
    let m := r.op.master
    chanUpd s c (fun x => { x with regul := { x.regul with passes := tabSet (fun _ => 0) x.regul.passes m (tabGet (fun _ => 0) x.regul.passes m - 1)
                                                           issued := tabSet (fun _ => 0) x.regul.issued m (tabGet (fun _ => 0) x.regul.issued m + 1)
                                                           held := x.regul.held.filter (fun q => q.op.id != r.op.id) } })

/-- The chosen request's next command is issued: its burst, a precharge of another row, or its activation. -/
def issueFor (s : State) (c : Nat) (r : DramReq) : State :=
  let b := reqBank s c r
  let burst := fun (t : State) => mergePass c r (chanUpd t c (fun x => { x with
        slots := x.slots.map (fun q => if q.op.id = r.op.id then { q with issued := true } else q)
        merge := x.merge.map (fun e => if mergeId e.frame e.line = r.op.id then { e with issued := true } else e) }))
  if inTest s c r then burst s
  else match openRow s c b with
  | some row =>
    if row = reqRow s c r then evDCH c 3 (sendCmd c ⟨r.op.id, 2, b, row⟩ (burst s))
    else evDCH c 4 (sendCmd c ⟨r.op.id, 1, b, row⟩ (chanUpd s c (fun x => { x with openRow := tabSet (fun _ => none) x.openRow b none })))
  | none => countAct (evDCH c 0 (sendCmd c ⟨r.op.id, 0, b, reqRow s c r⟩ (chanUpd s c (fun x => { x with openRow := tabSet (fun _ => none) x.openRow b (some (reqRow s c r)) })))) c b r.op.master

/-- A refresh is due now: none may be postponed for waiting reads (R395). -/
def refreshDueNow (x : Chan) : Bool :=
  decide (0 < x.refDebt) && (x.refMust || x.slots.all (fun r => r.op.wr || r.issued))

/-- The names of refresh and RFM commands among the commands sent. -/
def refId : Nat := 2 ^ 96
def rfmId (b : Nat) : Nat := 2 ^ 96 + 1 + b

/-- The next refresh covers a bank: every one, or with REFSB those of one bank address (R395). -/
def refCovers (s : State) (c b : Nat) : Bool := s.fget (DCH_CFG c) F.DCH_CFG_REFSB != 1 || b % 4 == (s.chan c).refBank

/-- A refresh command is made: the rows of its banks close, and their activation counts fall by RAAIMT (R395, R397). An all-bank refresh covers every
bank; a same-bank refresh covers the banks of one bank address, and the fourth of them completes the refresh that was due. -/
def doRefresh (s : State) (c : Nat) : State :=
  let sb := s.fget (DCH_CFG c) F.DCH_CFG_REFSB = 1
  evDCH c 5 (sendCmd c ⟨refId, 3, (s.chan c).refBank, 0⟩ (chanUpd s c (fun x =>
    let covers := refCovers s c
    let d := if sb ∧ x.refBank < 3 then x.refDebt else x.refDebt - 1
    let low := x.raa.map (fun e => (e.1, if covers e.1 then e.2 - raaimtOf x e.1 else e.2))
    { x with refDebt := d, refMust := x.refMust && decide (0 < d), refBank := if sb then (x.refBank + 1) % 4 else 0, openRow := tabDrop covers x.openRow,
             raa := low.filter (fun e => e.2 != 0) })))

/-- RFMsb to a bank (R397). -/
def doRfm (s : State) (c b : Nat) : State :=
  evDCH c 6 (sendCmd c ⟨rfmId b, 4, b, 0⟩ (chanUpd s c (fun x => { x with
    rfmDue := x.rfmDue.filter (· != b)
    saturated := x.saturated.filter (· != b)
    openRow := tabSet (fun _ => none) x.openRow b none
    raa := tabSet (fun _ => 0) x.raa b (tabGet (fun _ => 0) x.raa b - raaimtOf x b) })))

/-- The drain state for the present fill of the queues (R393). -/
def drainState (s : State) (c : Nat) (x : Chan) : Bool :=
  let wq := slotsUsed x true
  let rq := slotsUsed x false
  let d := if s.fget (DCH_SCHED c) F.DCH_SCHED_WR_HI ≤ wq then true else x.drainW
  if wq ≤ s.fget (DCH_SCHED c) F.DCH_SCHED_WR_LO ∨ rq = 0 then decide (0 < wq) && rq == 0 else d

/-- The channel's state lets a request be served (R413), its bank is not held by a row test (R405), and a write-back that is charged has its pass (R438). -/
def mayServe (s : State) (c : Nat) (r : DramReq) : Bool :=
  (if r.op.wr then canWrite s c else canRead s c r.op.frame) && !testHolds s c r &&
    (decide (r.op.id < 2 ^ 64) || decide (28 ≤ r.op.master) || decide (0 < passes s c r.op.master))

/-- The channel refreshes its DIMMs: from the end of training on, while its contents are kept, and not while they refresh themselves (R395, R409, R472, R517). -/
def refreshes (s : State) (c : Nat) : Bool := coreOpen s && (canWrite s c || s.cstate c == csTESTING || s.cstate c == csRETRAINING)

/-- The command bus is free: the scheduler chooses (R393). `ready` names the requests whose next command meets DRAM timing now, and `tight` the banks to which a
refresh or an RFM does not meet it. -/
def dramIssue (c : Nat) (ready tight : List Nat) (s : State) : State :=
  let x := s.chan c
  if refreshes s c = false then s
  else if refreshDueNow x ∧ tight.any (refCovers s c) = false then doRefresh s c
  else match x.rfmDue.filter (fun b => !tight.contains b) with
  | b :: _ => doRfm s c b
  | [] =>
    let waiting := (notBehind [] (x.merge.map mergeReq) ++ notBehind [] x.slots).filter (fun r => !r.issued && ready.contains r.op.id && mayServe s c r)
    let s0 := if waiting.any (actHeld s c) then evDCH c 7 s else s
    let cand := waiting.filter (fun r => !actHeld s c r)
    match oldest (cand.filter (fun r => r.born + 2000 < s.time)) with
    | some r => issueFor s0 c r
    | none =>
      let d := drainState s0 c x
      let s1 := (if d ∧ x.drainW = false then evDCH c 10 s0 else s0)
      let s2 := chanUpd s1 c (fun y => { y with drainW := d })
      let reads := cand.filter (fun r => !r.op.wr)
      let set := if d then cand.filter (fun r => r.op.wr || panic s c r == 3)
        else if reads.isEmpty then cand else reads
      match best s c set with
      | some r => issueFor (if d ∧ r.op.wr = false then evDCH c 11 s2 else s2) c r
      | none => s2

/-- The command bus of channel `c` is free. -/
def execDramCommandIssue (c : Nat) (ready tight : List Nat) (s : State) : Res := .next (dramIssue c ready tight s)

/-! Completions (R400 to R404, R407, R408). -/

/-- The tally of a scrub read; the scrub advances past its line (R407, R408). -/
def scrubTally (s : State) (c frame line : Nat) (r : RdRes) : State :=
  let su := DCH_SCRUBSUM c
  let s1 := match r with
    | .data _ [] => s
    | .data _ _ => s.fsat su F.DCH_SCRUBSUM_CE 1
    | .poison _ => s.fsat su F.DCH_SCRUBSUM_POISON 1
    | .ue =>
      let n := s.fget su F.DCH_SCRUBSUM_UE
      let t := s.fsat su F.DCH_SCRUBSUM_UE 1
      if n < 16 then (t.fset (DCH_SCRUBUE c n) F.DCH_SCRUBUE_PA (framePa s c frame line)).fset (DCH_SCRUBUE c n) F.DCH_SCRUBUE_VALID 1 else t
  if line = 63 then (chanUpd s1 c (fun x => { x with scrubLine := 0 })).fset (DCH_SCRUBBASE c) F.DCH_SCRUBBASE_FRAME (frame + 1)
  else chanUpd s1 c (fun x => { x with scrubLine := line + 1 })

/-- What a read gives its requester. -/
def rdOut (c id : Nat) (r : RdRes) : Out :=
  match r with
  | .data d _ => .dramData c id (some d) false
  | .poison _ => .dramData c id (some 0) true
  | .ue => .dramData c id none false

/-- The burst of a read ends; `err` is what the cells and wires have added to the codeword. A corrected line goes into the merge buffer, and its write-back
is a burst of its own; with all 32 entries in use the read waits in its slot (R402, R404). -/
def dramReadComplete (c id : Nat) (err : BitVec 640) (s : State) : State :=
  match (s.chan c).slots.find? (fun r => r.op.id == id && r.issued && !r.op.wr) with
  | none => s
  | some q =>
    let k := dramKey c q.op.frame q.op.line
    let noEntry := mergeFind s c q.op.frame q.op.line == none
    let cell := lineAt s c k
    let s1 := linePut s c { cell with err := cell.err ^^^ err }
    let fix : Bool := match dramDecode s1 c q.op.frame q.op.line with
      | .data _ (_ :: _) => true
      | _ => false
    if noEntry ∧ fix ∧ mergeFull s c then s else
    let s2 := cmdsGood c id (chanUpd s1 c (fun x => { x with slots := x.slots.filter (fun r => r.op.id != id) }))
    let r := dramReadVia true q.op.master c q.op.frame q.op.line s2
    let s3 := r.2.put (rdOut c id r.1)
    if q.op.master = 24 ∧ s3.fget (DCH_SCRUBCTL c) F.DCH_SCRUBCTL_BUSY = 1 ∧ q.op.frame = s3.fget (DCH_SCRUBBASE c) F.DCH_SCRUBBASE_FRAME ∧
        q.op.line = (s3.chan c).scrubLine ∧ q.op.frame ≤ s3.fget (DCH_SCRUBLIM c) F.DCH_SCRUBLIM_FRAME then
      scrubTally s3 c q.op.frame q.op.line r.1
    else s3

/-- The burst of a read ends. -/
def execDramReadComplete (c id : Nat) (err : BitVec 640) (s : State) : Res := .next (dramReadComplete c id err s)

/-- The burst of a write has passed its checks (R396), that of a merge-buffer entry among them (R404): a row test that waited for an entry may start. -/
def dramWriteComplete (c id : Nat) (s : State) : State :=
  match (s.chan c).merge.find? (fun e => e.issued && mergeId e.frame e.line == id) with
  | some e => rowNext (dramWrite c e.frame e.line e.data false (cmdsGood c id s)) c
  | none =>
  match (s.chan c).slots.find? (fun r => r.op.id == id && r.issued && r.op.wr) with
  | none => s
  | some q => dramWrite c q.op.frame q.op.line q.op.data q.op.poison (cmdsGood c id (chanUpd s c (fun x => { x with slots := x.slots.filter (fun r => r.op.id != id) })))

/-- The burst of a write has passed its checks. -/
def execDramWriteComplete (c id : Nat) (s : State) : Res := .next (dramWriteComplete c id s)

/-- A command is sent again: it counts as a command once more, and leaves its bank as it left it the first time (log entry 184). -/
def resend (c : Nat) (s : State) (k : DramCmd) : State :=
  let bank := fun (row : Option Nat) (t : State) => chanUpd t c (fun x => { x with openRow := tabSet (fun _ => none) x.openRow k.bank row })
  match k.kind with
  | 0 => evDCH c 0 (bank (some k.row) s)
  | 1 => bank none s
  | 3 => evDCH c 5 s
  | 4 => evDCH c 6 (bank none s)
  | _ => s

/-- ALERT_n: every command from the oldest one not known to be good, of the request `id`, is issued again in order; those before it are good (R396). -/
def caParityAlert (c id : Nat) (s : State) : State :=
  if s.cstate c = csABSENT ∨ coreOpen s = false then s
  else
    let ks := (s.chan c).cmds.dropWhile (fun k => k.id != id)
    (ks.foldl (resend c) (chanUpd s c (fun x => { x with cmds := ks }))).reportAt 1 (srcId 2 c) 0 C.DCH_F_CA_PARITY 0 0

/-- A command, address or write-CRC error. -/
def execCaParityAlert (c id : Nat) (s : State) : Res := .next (caParityAlert c id s)

/-- tREFI in nanoseconds: halved by FGR, or by a device above 85 °C (R395). -/
def refInterval (s : State) (c : Nat) : Nat := if s.fget (DCH_CFG c) F.DCH_CFG_FGR = 1 ∨ (s.chan c).hot then 1950 else 3900

/-- tREFI has passed: up to four refreshes are postponed, and then all are made up (R395). -/
def refreshDue (c : Nat) (s : State) : State :=
  if refreshes s c ∧ (s.chan c).refAt + refInterval s c ≤ s.time then
    chanUpd s c (fun x => { x with refDebt := x.refDebt + 1, refMust := x.refMust || decide (4 < x.refDebt + 1), refAt := s.time })
  else s

/-- A refresh falls due. -/
def execRefreshDue (c : Nat) (s : State) : Res := .next (refreshDue c s)

/-- MR4 is read (R395, R411). -/
def execMr4Read (c : Nat) (hot : Bool) (s : State) : Res := .next (if coreOpen s then chanUpd s c (fun x => { x with hot := hot }) else s)

/-! Row tests (R405, R406). -/

/-- The running row test ends: `pass` the patterns read back with no error, `spare` a spare row is free. -/
def rowTestComplete (c : Nat) (pass spare : Bool) (s : State) : State :=
  match (s.chan c).rowTest with
  | none => s
  | some t =>
    let pa := t.pa
    let s1 := rowNext (rowRestore s c) c
    if pass then
      match s.fltTests.find? (fun t => t.src == srcId 2 c && t.code == C.DCH_F_CE) with
      | some t => fltTestEnd s1 (srcId 2 c) t.elem 2 none
      | none => s1
    else
      let slot := pa / 2 ^ 38 % 2
      let fix := s1.fget (DCH_MODULE c slot) F.DCH_MODULE_SPPR == 1 && spare
      let r := DCH_ROWFLT c
      let s2 := ((s1.fset r F.DCH_ROWFLT_PA pa).fset r F.DCH_ROWFLT_SPARED (if fix then 1 else 0)).fset r F.DCH_ROWFLT_VALID 1
      if fix then s2.report (srcId 2 c) 0 C.DCH_W_SPARED pa 0 else s2.reportAt 2 (srcId 2 c) 0 C.DCH_F_ROW pa 0

/-- A row test ends. -/
def execRowTestComplete (c : Nat) (pass spare : Bool) (s : State) : Res := .next (rowTestComplete c pass spare s)

/-! Scrubbing (R407, R408). -/

/-- Clear the summary and its list of lines. -/
def scrubClear (s : State) (c : Nat) : State :=
  (List.range 16).foldl (fun t n => t.setRg (DCH_SCRUBUE c n) 0) (s.setRg (DCH_SCRUBSUM c) 0)

/-- DCH_SCRUBCTL. -/
def hookScrubCtl : Hook := fun idx _ _ act s =>
  let c := idx.headD 0
  if fld act F.DCH_SCRUBCTL_START = 1 then
    let st := s.cstate c
    let base := s.fget (DCH_SCRUBBASE c) F.DCH_SCRUBBASE_FRAME
    let lim := s.fget (DCH_SCRUBLIM c) F.DCH_SCRUBLIM_FRAME
    if s.fget (DCH_SCRUBCTL c) F.DCH_SCRUBCTL_BUSY = 1 then (s, C.DCH_E_SCRUB_BUSY)
    else if st = csABSENT ∨ st = csTRAINING ∨ st = csFENCED ∨ st = csTESTING then (s, C.DCH_E_STATE)
    else if chanFrames s c ≤ lim ∨ chanFrames s c ≤ base then (s, C.DCH_E_RANGE)
    else ((chanUpd (scrubClear s c) c (fun x => { x with scrubLine := 0 })).fset (DCH_SCRUBCTL c) F.DCH_SCRUBCTL_BUSY 1, 0)
  else (s, 0)

/-- A scrub starts. -/
def execScrubStart (who : Who) (c : Nat) (val : Word) (s : State) : Res := .next (rowWrite hookScrubCtl who (DCH_SCRUBCTL c) val s)

/-- The scrub ends with a status. -/
def scrubEnd (s : State) (c st : Nat) : State :=
  if s.fget (DCH_SCRUBCTL c) F.DCH_SCRUBCTL_BUSY = 1 then
    (s.fset (DCH_SCRUBCTL c) F.DCH_SCRUBCTL_BUSY 0).fset (DCH_SCRUBCTL c) F.DCH_SCRUBCTL_STATUS st
  else s

/-- The scrub has read its last frame; on a rejoining channel, its last below the watermark. -/
def scrubComplete (c : Nat) (s : State) : State :=
  let base := s.fget (DCH_SCRUBBASE c) F.DCH_SCRUBBASE_FRAME
  if s.fget (DCH_SCRUBLIM c) F.DCH_SCRUBLIM_FRAME < base ∨
      (s.cstate c = csREJOINING ∧ s.fget (DCH_WMARK c) F.DCH_WMARK_FRAME ≤ base) then scrubEnd s c 0
  else s

/-- A scrub ends. -/
def execScrubComplete (c : Nat) (s : State) : Res := .next (scrubComplete c s)

/-! Channel states (R412 to R415). -/

/-- The outcome of a FENCE or RETRAIN request (R414). -/
def reqEnd (s : State) (c st : Nat) : State :=
  ((chanUpd s c (fun x => { x with reqWait := 0 })).fset (DCH_CTL c) F.DCH_CTL_BUSY 0).fset (DCH_CTL c) F.DCH_CTL_STATUS st

/-- A waiting request ends when the channel leaves the states that allow it (R414). -/
def reqCheck (s : State) (c : Nat) : State :=
  let w := (s.chan c).reqWait
  let st := s.cstate c
  if (w = 1 ∧ st ≠ csDRAINING) ∨ (w = 2 ∧ st ≠ csDRAINING ∧ st ≠ csIN_SERVICE) then reqEnd s c C.DCH_E_STATE else s

/-- Area of a frame (R61): 0 descriptor, 1 mirror, 2 cold, 3 plain. -/
def areaOf (s : State) (c f : Nat) : Nat :=
  if f < dFrames s then 0 else if f < coldBase s (c / 12) then 1 else if f < plainBase s (c / 12) then 2 else 3

/-- The channel six positions away in the group (R62). -/
def twinOf (c : Nat) : Nat := c / 12 * 12 + (c % 12 + 6) % 12

/-- The home slice issues a read again around the channel: to the twin, or through parity; a plain frame gives poison (R415, R126, R138, R19). -/
def readAround (s : State) (c : Nat) (r : DramReq) : State :=
  let f := r.op.frame
  let a := areaOf s c f
  if a < 2 then
    if canRead s (twinOf c) f then let x := dramRead (twinOf c) f r.op.line (evDCH c 14 s); x.2.put (match x.1 with
      | .data d _ => .dramData c r.op.id (some d) false
      | _ => .dramData c r.op.id (some 0) true)
    else s.put (.dramData c r.op.id (some 0) true)
  else if a = 2 then
    let x := parityRebuild s c f r.op.line
    x.2.put (match x.1 with
    | some d => .dramData c r.op.id (some d) false
    | none => .dramData c r.op.id (some 0) true)
  else s.put (.dramData c r.op.id (some 0) true)

/-- A write that the channel has not completed goes back as not done: a chunk is missing from its stripe (R134), and a line that is cached is dirty again, to be
handled under R140. -/
def writeBackAgain (s : State) (c : Nat) (r : DramReq) : State :=
  let f := r.op.frame
  let s1 := if areaOf s c f = 2 then { s with dram := { s.dram with lack := tabSet (fun _ => false) s.dram.lack (c * 2 ^ 28 + f) true } } else s
  let s2 := match framePage s1 c f with
    | some page =>
      let la := page * 4096 + r.op.line * 64
      match lcFind s1 la with
      | some x => if x.2.st = LcState.clean ∧ areaOf s c f = 3 then lcPut s1 x.1 (some { x.2 with st := .dirty }) else s1
      | none => s1
    | none => s1
  s2.put (.dramBack c r.op.id)

/-- The channel stops serving: its requests go back to their slices, those with a slot and those that wait for one (R412, R415). While it retrains, reads of a plain
frame wait at their slice and scrub reads stay paused (R140, R407). -/
def leaveService (s : State) (c : Nat) (retrain : Bool) : State :=
  let x := s.chan c
  let all := x.slots ++ x.regul.held.filter (fun r => decide (r.op.id < 2 ^ 64))
  let stays := fun (r : DramReq) => retrain && !r.op.wr && (areaOf s c r.op.frame == 3 || r.op.master == 24)
  let s1 := s.setChan c { x with slots := [], regul := { x.regul with held := (all.filter stays).map (fun r => { r with issued := false }) } }
  let s2 := (all.filter (fun r => !stays r && !(r.op.master == 24 && !r.op.wr))).foldl (fun t r => if r.op.wr then writeBackAgain t c r else readAround t c r) s1
  (List.range 16).foldl (heldNote s) s2

/-- The channel enters FENCED (R415): its bursts and write-backs go back to their slices, its scrub and its waiting request end, the engine stops. -/
def fenceChannel (s : State) (c : Nat) : State :=
  if s.cstate c = csFENCED then s
  else
    let s1 := fltAbandon (s.setCstate c csFENCED) (srcId 2 c)
    let s2 := chanUpd (leaveService (rowRestore s1 c) c false) c (fun x => { x with merge := [], cmds := [], ring := none, ringSeen := none, rowQueue := [], openRow := [], trainStep := 0 })
    pump (reqCheck (scrubEnd s2 c C.DCH_E_STATE) c)

/-- The other channels of the group are IN_SERVICE or DRAINING (R414). -/
def groupServes (s : State) (c : Nat) : Bool :=
  (groupChans (c / 12)).all (fun k => k == c || s.cstate k == csIN_SERVICE || s.cstate k == csDRAINING)

/-- DCH_CTL: DRAIN, then FENCE or RETRAIN (R414). -/
def hookDchCtl : Hook := fun idx _ new act s =>
  let c := idx.headD 0
  let r := DCH_CTL c
  let st := s.cstate c
  let d := fld new F.DCH_CTL_DRAIN
  let d0 := s.fget r F.DCH_CTL_DRAIN
  let drain : State × Nat :=
    if d = 1 then
      if st = csIN_SERVICE then ((s.fset r F.DCH_CTL_DRAIN 1).setCstate c csDRAINING, 0)
      else if d0 = 1 ∨ st = csDRAINING then (s.fset r F.DCH_CTL_DRAIN 1, 0)
      else (s, C.DCH_E_STATE)
    else
      let s1 := s.fset r F.DCH_CTL_DRAIN 0
      if st = csDRAINING then (reqCheck (s1.setCstate c csIN_SERVICE) c, 0) else (s1, if d0 = 1 then C.DCH_E_STATE else 0)
  let asked := decide (d ≠ d0 ∨ drain.1.cstate c ≠ st)
  let s1 := if asked then drain.1.fset r F.DCH_CTL_STATUS drain.2 else drain.1
  let f := fld act F.DCH_CTL_FENCE == 1
  let t := fld act F.DCH_CTL_RETRAIN == 1
  let st1 := s1.cstate c
  if f = false ∧ t = false then (s1, drain.2)
  else if (f ∧ t) ∨ s1.fget r F.DCH_CTL_BUSY = 1 ∨ (f ∧ st1 ≠ csDRAINING) ∨ (t ∧ st1 ≠ csDRAINING ∧ st1 ≠ csIN_SERVICE) then
    (s1.fset r F.DCH_CTL_STATUS C.DCH_E_STATE, C.DCH_E_STATE)
  else ((chanUpd s1 c (fun x => { x with reqWait := if f then 1 else 2 })).fset r F.DCH_CTL_BUSY 1, drain.2)

/-- DCH_CTL.DRAIN is written. -/
def execChannelDrain (who : Who) (c : Nat) (val : Word) (s : State) : Res := .next (rowWrite hookDchCtl who (DCH_CTL c) val s)

/-- A planned fence is requested. -/
def execFence (who : Who) (c : Nat) (val : Word) (s : State) : Res := .next (rowWrite hookDchCtl who (DCH_CTL c) val s)

/-- Retraining is requested. -/
def execRetrain (who : Who) (c : Nat) (val : Word) (s : State) : Res := .next (rowWrite hookDchCtl who (DCH_CTL c) val s)

/-- A waiting request proceeds once the rest of the group serves (R414); retraining waits for bursts in flight (R412). -/
def requestProceed (c : Nat) (s : State) : State :=
  let w := (s.chan c).reqWait
  if w = 0 ∨ ctlOpen s = false ∨ groupServes s c = false then s
  else if w = 1 then fenceChannel (reqEnd s c 0) c
  else if (s.chan c).slots.any (·.issued) ∨ (s.chan c).merge.any (·.issued) ∨ (s.chan c).rowTest.isSome then s
  else leaveService (chanUpd ((reqEnd s c 0).setCstate c csRETRAINING) c (fun x => { x with trainStep := 4, trainRetried := false, openRow := [], cmds := [] })) c true

/-- A waiting FENCE or RETRAIN proceeds. -/
def execChannelRequestProceed (c : Nat) (s : State) : Res := .next (requestProceed c s)

/-- 100 ms have passed without the group serving (R414). -/
def requestTimeout (c : Nat) (s : State) : State :=
  let w := (s.chan c).reqWait
  if w = 0 ∨ ctlOpen s = false ∨ groupServes s c then s
  else if w = 1 then reqEnd s c C.DCH_E_GROUP_OUT
  else reqEnd (s.ev (0x5C0 + 15)) c C.CAL_E_NO_WINDOW

/-- A waiting request times out. -/
def execChannelRequestTimeout (c : Nat) (s : State) : Res := .next (requestTimeout c s)

/-- Stripes that a rejoining channel need not rebuild: those open in the journal now, the head's own included (R417). -/
def openStripes (s : State) (g : Nat) : List Nat :=
  (s.tier.stripes.filter (fun o => o.group == g)).map (·.idx) ++ (if headSect s g < 704 then [headStripe s g] else [])

/-- The channel enters REJOINING (R141, R417). -/
def enterRejoin (s : State) (c : Nat) (fromFence : Bool) : State :=
  let g := c / 12
  let s1 := ((s.setCstate c csREJOINING).fset (DCH_STAT c) F.DCH_STAT_FROM_FENCE (if fromFence then 1 else 0)).fset (DCH_WMARK c) F.DCH_WMARK_FRAME 0
  pump (chanUpd s1 c (fun x => { x with rejoinHead := headStripe s g, rejoinTail := tailStripe s g, rejoinSkip := openStripes s g, ring := none, ringSeen := none, ringStop := false }))

/-- Training has failed twice in one step (R410, R412): the channel is FENCED with DCH_E_TRAIN. -/
def retrainFail (s : State) (c : Nat) : State := (fenceChannel s c).report (srcId 2 c) 0 C.DCH_E_TRAIN 0 0

/-- Retraining ends (R412): steps 4 to 9 are done, or a step that has been repeated has failed. -/
def retrainComplete (c : Nat) (ok : Bool) (s : State) : State :=
  let x := s.chan c
  if s.cstate c ≠ csRETRAINING ∨ ctlOpen s = false then s
  else if ok then
    if x.trainStep < 10 then s else enterRejoin (chanUpd s c (fun x => { x with trainStep := 0, trainRetried := false, track := [] })) c false
  else if x.trainRetried then retrainFail s c else s

/-- Retraining ends. -/
def execRetrainComplete (c : Nat) (ok : Bool) (s : State) : Res := .next (retrainComplete c ok s)

/-- The content of a channel is lost with its power (R548). -/
def contentLost (s : State) (c : Nat) : State :=
  let own := fun (k : Nat) => k / 2 ^ 34 == c
  { s with dram := { lines := tabDrop own s.dram.lines, poison := tabDrop own s.dram.poison, err := tabDrop own s.dram.err,
                     lack := tabDrop (fun k => k / 2 ^ 28 == c) s.dram.lack, dsbSel := s.dram.dsbSel } }

/-- The test of a channel in TESTING ends (R414): DCH_CFG.TEST 0 tests nothing, and passes; a test that ran has lost the contents (R575). -/
def channelTestComplete (c : Nat) (pass : Bool) (s : State) : State :=
  if s.cstate c ≠ csTESTING then s
  else
    let none := s.fget (DCH_CFG c) F.DCH_CFG_TEST = 0
    let s1 := if none then s else contentLost s c
    if none ∨ pass then enterRejoin s1 c true
    else readmEnd (s1.setCstate c csFENCED) (srcId 2 c) 0 C.CAL_E_MBIST_FAIL

/-- The test of a channel in TESTING ends. -/
def execChannelTestComplete (c : Nat) (pass : Bool) (s : State) : Res := .next (channelTestComplete c pass s)

/-- The channel's modules have lost power or presence (R390, R415, R547, R548). -/
def moduleLost (s : State) (c : Nat) : State :=
  let st := s.cstate c
  if st = csABSENT ∨ st = csFENCED then s
  else (readmEnd (fenceChannel s c) (srcId 2 c) 0 C.DCH_F_MODULE_LOST).report (srcId 2 c) 0 C.DCH_F_MODULE_LOST 0 0

/-- The PMIC reports a fault, or withdraws PWR_GOOD (R390). -/
def execPmicFault (c : Nat) (s : State) : Res := .next (moduleLost s c)

/-! Training (R386 to R388, R409, R410). -/

/-- The organisation as DCH_MODULEs shows it. -/
def isMrdimm (m : ModuleInfo) : Bool := m.kind == .mrdimm
def isX8 (m : ModuleInfo) : Bool := m.width == 8
def hasRanks2 (m : ModuleInfo) : Bool := m.ranks == 2

/-- The module meets R387. -/
def moduleOk (m : ModuleInfo) : Bool :=
  (m.kind == .rdimm || m.kind == .mrdimm) && (m.width == 4 || m.width == 8) && (m.ranks == 1 || m.ranks == 2) && m.readable && m.eccWidth8 && [16, 24, 32, 48, 64].contains m.dieGb && m.cid < 4 && 32 ≤ m.sizeGib && m.sizeGib ≤ 512

/-- Data rate code (0 6,400, 1 8,800, 2 12,800) of a population, or none (R386, R388). -/
def rateOf (maxspd : Nat) (m0 : ModuleInfo) (m1 : Option ModuleInfo) : Option Nat :=
  match m1 with
  | none =>
    if isMrdimm m0 then (if 12800 ≤ m0.rated ∧ 2 ≤ maxspd then some 2 else none)
    else if 8800 ≤ m0.rated ∧ 1 ≤ maxspd then some 1
    else if 6400 ≤ m0.rated then some 0 else none
  | some m =>
    let same := m0.width == m.width && m0.dieGb == m.dieGb && m0.ranks == m.ranks && m0.cid == m.cid && m0.sizeGib == m.sizeGib
    if isMrdimm m0 ∨ isMrdimm m ∨ same = false ∨ moduleOk m = false then none
    else if 6400 ≤ m0.rated ∧ 6400 ≤ m.rated then some 0 else none

/-- Frames of a channel (R391): 4,096 rows for each Gb of the die. -/
def framesOf (m0 : ModuleInfo) (two : Bool) : Nat :=
  2 ^ ((if isX8 m0 then 4 else 5) + 2 + (if two then 1 else 0) + (if hasRanks2 m0 then 1 else 0) + m0.cid) * (m0.dieGb * 4096)

/-- DCH_MODULEs for a module. -/
def moduleReg (m : ModuleInfo) : Nat :=
  let b := fun (x : Bool) => if x then 1 else 0
  1 + b (isMrdimm m) * 2 + b (isX8 m) * 4 + b (hasRanks2 m) * 8 + m.cid % 4 * 16 + b m.sppr * 64 + m.dieGb % 256 * 2 ^ 8 + m.sizeGib % 65536 * 2 ^ 16 + m.rated % 65536 * 2 ^ 32

/-- A table by slot. -/
def slotTab {α : Type} [DecidableEq α] (dflt : Nat → α) (a : α) (b : Option α) : Tab α :=
  let t := tabSet dflt [] 0 a
  match b with
  | some v => tabSet dflt t 1 v
  | none => t

/-- A module's SPD is read: DSBb_SEL selects the slot's segment, the hub answers at the slot's HSA, and hub and PMIC are switched to I3C (R389). -/
def spdRead (c slot : Nat) (m : Option ModuleInfo) (s : State) : State :=
  match m with
  | none => s
  | some i =>
    let s1 := { s with dram := { s.dram with dsbSel := tabSet (fun _ => 0) s.dram.dsbSel (c / 6) slot } }
    let s2 := chanUpd (s1.put (.dsb (c / 6) slot (c % 6))) c (fun x => { x with i3c := (x.i3c.filter (· != slot)) ++ [slot] })
    s2.diagSet dgSPD (2 * c + slot) i.raw

/-- Step 1 of R409 with what the SPDs say: a population that breaks R387 or R388 is not used. -/
def channelTrain (c : Nat) (mod0 mod1 : Option ModuleInfo) (s00 : State) : State :=
  let s := spdRead c 1 mod1 (spdRead c 0 mod0 (chanUpd s00 c (fun x => { x with i3c := [] })))
  let st := s00.cstate c
  if (st ≠ csABSENT ∧ st ≠ csFENCED) ∨ ctlOpen s00 = false ∨ s.fget (HEM_STAT c) F.HEM_STAT_PG = 0 ∨ gated s (17 + c) then s00
  else match mod0, mod1 with
  | none, none => s00
  | _, _ =>
    let reject :=
      let t := ((s.setRg (DCH_MODULE c 0) 0).setRg (DCH_MODULE c 1) 0).setCstate c csABSENT
      let off := ((t.fset (HEM_CTL c) F.HEM_CTL_EN 0).fset (HEM_STAT c) F.HEM_STAT_STATE 0).fset (HEM_STAT c) F.HEM_STAT_PG 0
      let hm := { off with hems := tabSet (fun _ => Hem.init) off.hems c { tabGet (fun _ => Hem.init) off.hems c with gate := 0 } }
      (hm.fset (DCH_STAT c) F.DCH_STAT_SLOTS 0).report (srcId 2 c) 0 C.DCH_E_MODULE 0 0
    match mod0 with
    | none => reject
    | some m0 =>
      let rate := rateOf (min 2 (s.fget (DCH_CFG c) F.DCH_CFG_MAXSPD)) m0 mod1
      match (if moduleOk m0 then rate else none) with
      | none => reject
      | some v =>
        let two := mod1.isSome
        let s0 := contentLost s c
        let s1 := (s0.setRg (DCH_MODULE c 0) (BitVec.ofNat 64 (moduleReg m0))).setRg (DCH_MODULE c 1)
          (match mod1 with
          | some m1 => BitVec.ofNat 64 (moduleReg m1)
          | none => 0)
        let s2 := (s1.fset (DCH_STAT c) F.DCH_STAT_SLOTS (if two then 3 else 1)).fset (DCH_STAT c) F.DCH_STAT_SPEED v
        let s3 := s2.fset (DCH_WMARK c) F.DCH_WMARK_END (min (framesOf m0 two) (2 ^ 28))
        let boot := st == csABSENT
        let s4 := if boot then s3.setCstate c csTRAINING else s3
        chanUpd s4 c (fun x => { x with trainStep := 2, trainRetried := false, atBoot := boot && !s.locked
                                        raaimt := slotTab (fun _ => 0) m0.raaimt (mod1.map (·.raaimt)), raammt := slotTab (fun _ => 0) m0.raammt (mod1.map (·.raammt))
                                        rfmSup := slotTab (fun _ => false) m0.rfmSup (mod1.map (·.rfmSup)), saturated := [], rfmDue := [], cmds := [], mbist := m0.mbist && (mod1.all (fun m => m.mbist)), track := [], openRow := [], raa := [], rh := [], refDebt := 0, refMust := false, refBank := 0 })

/-- A channel's modules are read and checked. -/
def execChannelTrain (c : Nat) (mod0 mod1 : Option ModuleInfo) (s : State) : Res := .next (channelTrain c mod0 mod1 s)

/-- A step's result and margin go to DCH_TRAINLOG, and the settings it found to DCH_EYE: values that the manual leaves open. -/
def trainLog (c : Nat) (ok : Bool) (s : State) : State :=
  let m := s.free 32
  let e := m.2.free 64
  (e.2.diagSet dgTRAIN (16 * c + (s.chan c).trainStep) ((if ok then 1 else 2) + 4 * m.1)).diagSet dgEYE c e.1

/-- A training step ends (R409, R410); retraining runs steps 4 to 9 (R412), and RETRAIN_COMPLETE follows the last. -/
def trainingStep (c : Nat) (ok : Bool) (s0 : State) : State :=
  let s := if (s0.chan c).trainStep = 0 ∨ ctlOpen s0 = false then s0 else trainLog c ok s0
  let x := s.chan c
  if x.trainStep = 0 ∨ ctlOpen s = false then s
  else if s.cstate c = csRETRAINING then
    if ok then s.setChan c { x with trainStep := min 10 (x.trainStep + 1), trainRetried := false }
    else if 10 ≤ x.trainStep then s
    else if x.trainRetried then retrainFail s c
    else s.setChan c { x with trainRetried := true }
  else if ok then
    if x.trainStep < 10 then s.setChan c { x with trainStep := x.trainStep + 1, trainRetried := false }
    else
      let s1 := s.setChan c { x with trainStep := 0, trainRetried := false, refAt := s.time }
      if x.atBoot then
        (s1.setCstate c csIN_SERVICE).fset (DCH_WMARK c) F.DCH_WMARK_FRAME (chanFrames s1 c)
      else s1.setCstate c csTESTING
  else if x.trainRetried then
    (readmEnd ((s.setChan c { x with trainStep := 0, trainRetried := false }).setCstate c csFENCED) (srcId 2 c) 0 C.DCH_E_TRAIN).report (srcId 2 c) 0 C.DCH_E_TRAIN 0 0
  else s.setChan c { x with trainRetried := true }

/-- A training step ends. -/
def execTrainingStepComplete (c : Nat) (ok : Bool) (s : State) : Res := .next (trainingStep c ok s)

/-- The DQS oscillators of a rank are read: the delays are corrected by at most 1/64 UI; beyond 1/4 UI in all, retraining is requested (R411). -/
def dqsTracking (c rank : Nat) (delta : Int) (s : State) : State :=
  if canWrite s c = false ∨ coreOpen s = false then s
  else
    let x := s.chan c
    let d : Int := if delta < 0 then -1 else if 0 < delta then 1 else 0
    let v := tabGet (fun _ => (0 : Int)) x.track rank + d
    let s1 := s.setChan c { x with track := tabSet (fun _ => (0 : Int)) x.track rank v }
    if 16 < v.natAbs then
      let s2 := (s1.fset (DCH_STAT c) F.DCH_STAT_TRACK 1).report (srcId 2 c) rank C.DCH_F_TRACK 0 0
      let st := s2.cstate c
      if x.reqWait = 0 ∧ (st = csIN_SERVICE ∨ st = csDRAINING) then
        (chanUpd s2 c (fun y => { y with reqWait := 2 })).fset (DCH_CTL c) F.DCH_CTL_BUSY 1
      else s2.fset (DCH_CTL c) F.DCH_CTL_STATUS C.DCH_E_STATE
    else s1

/-- The DQS oscillators of a rank are read. -/
def execDqsTracking (c rank : Nat) (delta : Int) (s : State) : Res := .next (dqsTracking c rank delta s)

/-- ZQ calibration (R411). -/
def execZqCalibration (c : Nat) (s : State) : Res := .next (if canWrite s c ∧ coreOpen s then chanUpd s c (fun x => { x with zqRuns := x.zqRuns + 1 }) else s)

/-! The rebuild engine (R416, R417, R142). -/

/-- Bytes `a` to `a + n - 1` of a line as a little-endian number. -/
def lineNum (l : Line) (a n : Nat) : Nat := getBits l.toNat (8 * a) (8 * n)

/-- The rebuild engine of channel `c` as a requester. -/
def ringWho (c : Nat) : Requester := .dev (8 + c)

/-- A request of the engine has not been served yet. -/
def ringWaits (s : State) (c : Nat) : Bool := s.home.waiting.any (fun r => r.who == ringWho c)

/-- The engine reads a line of the ring page at its slice, like any agent; none while the answer is awaited. -/
def ringRead (s : State) (c la : Nat) : Option BobReply × State :=
  let got := fun (t : State) => match takeReply t (2048 + c) 0 with
    | (some r, u) => if r.la = la then (some r, u) else (none, u)
    | (none, u) => (none, u)
  if s.home.bobReplies.any (fun r => r.bob == 2048 + c && r.la == la) then got s
  else if ringWaits s c then (none, s)
  else got (homeTake { kind := .readCurrent, who := ringWho c, la := la, data := 0, mask := 0, poison := false, master := 26, mval := 0 } (got s).2)

/-- The engine writes `n` bytes at byte `a` of the ring page's first line: a write at its slice. -/
def ringStore (s : State) (c base a n v : Nat) : State :=
  homeTake { kind := .write, who := ringWho c, la := base, data := BitVec.ofNat 512 (v % 2 ^ (8 * n) * 2 ^ (8 * a)), mask := (2 ^ n - 1) * 2 ^ a, poison := false,
             master := 26, mval := 0 } s

/-- The stripe lay in the log when the rejoin began (R417). -/
def inLiveLog (s : State) (c idx : Nat) : Bool :=
  let ns := stripesOf s (c / 12)
  let x := s.chan c
  decide (0 < ns) && decide ((idx + ns - x.rejoinTail) % ns ≤ (x.rejoinHead + ns - x.rejoinTail) % ns)

/-- An action is allowed for every frame from `f` to `l` (R417). -/
def actionAll (s : State) (c action f l : Nat) : Bool :=
  let g := c / 12
  let cb := coldBase s g
  let pb := plainBase s g
  match action with
  | 0 => true
  | 1 => decide (l < cb)
  | 2 => decide (cb ≤ f) && decide (l < pb)
  | 3 => decide (pb ≤ f)
  | 4 =>
    let ns := stripesOf s g
    let a := f - cb
    let b := min l (pb - 1) - cb
    decide (cb ≤ f) && (decide (l < pb) || s.fget (DCH_STAT c) F.DCH_STAT_FROM_FENCE == 0) &&
      (decide (pb ≤ f) || (!inLiveLog s c a && decide (b - a < ((s.chan c).rejoinTail + ns - a) % ns)))
  | _ => false

/-- The engine stops with DCH_E_REBUILD_ORDER (R417). -/
def ringFail (s : State) (c base : Nat) : State :=
  chanUpd (ringStore s c base 14 2 C.DCH_E_REBUILD_ORDER) c (fun x => { x with ringStop := true, ringSeen := none })

/-- An entry of the ring as its line holds it is taken, or stops the engine (R417). -/
def ringTake (s : State) (c base consumed : Nat) (e : Line) : State :=
  let o := 16 * (consumed % 252) % 64
  let first := lineNum e o 4
  let count := lineNum e (o + 4) 4
  let action := lineNum e (o + 8) 1
  if first ≠ s.fget (DCH_WMARK c) F.DCH_WMARK_FRAME ∨ count = 0 ∨ chanFrames s c < first + count ∨ lineNum e (o + 9) 7 ≠ 0 ∨ 4 < action then ringFail s c base
  else if action ≠ 0 ∧ actionAll s c action first (first + count - 1) = false then ringFail s c base
  else chanUpd s c (fun y => { y with ring := some ⟨first, count, action, consumed⟩, ringSeen := none })

/-- The line that holds the slot of entry `consumed`. -/
def ringSlotLa (base consumed : Nat) : Nat := base + (64 + 16 * (consumed % 252)) / 64 * 64

/-- The engine reads the slot of entry `consumed` (R417). -/
def ringEntry (s : State) (c base consumed : Nat) : State :=
  match ringRead s c (ringSlotLa base consumed) with
  | (none, t) => chanUpd t c (fun y => { y with ringSeen := some consumed })
  | (some r, t) => if r.poison ∨ 2 ≤ statusClass r.status then ringFail t c base else ringTake t c base consumed r.data

/-- The engine reads its ring (R417); in Halt it has stopped (R472). -/
def ringPoll (c : Nat) (s : State) : State :=
  let x := s.chan c
  let base := s.fget (DCH_RBRING c) F.DCH_RBRING_LPN * 4096
  if coreOpen s = false ∨ s.fget (DCH_RBRING c) F.DCH_RBRING_EN = 0 ∨ x.ringStop ∨ x.ring.isSome ∨ s.cstate c ≠ csREJOINING then s
  else match x.ringSeen with
  | some n => ringEntry s c base n
  | none =>
    match ringRead s c base with
    | (none, t) => t
    | (some r, t) =>
      if r.poison ∨ 2 ≤ statusClass r.status ∨ lineNum r.data 0 8 ≤ lineNum r.data 8 4 then t
      else ringEntry t c base (lineNum r.data 8 4)

/-- The engine reads its ring. -/
def execRebuildRingPoll (c : Nat) (s : State) : Res := .next (ringPoll c s)

/-- Copy a frame from the channel six positions away, line by line; a source that gives no data leaves poison. -/
def twinRebuild (s : State) (c f : Nat) : State :=
  let t := twinOf c
  (List.range 64).foldl (fun a l =>
    if canRead a t f then
      match dramRead t f l a with
      | (.data d _, b) => dramWrite c f l d false b
      | (_, b) => dramWrite c f l 0 true b
    else dramWrite c f l 0 true a) s

/-- Rebuild a frame from the other eleven channels. -/
def parityFrame (s : State) (c f : Nat) : State :=
  let s1 := (List.range 64).foldl (fun a l =>
    let r := parityFold c f l (groupChans (c / 12)) (some 0) a
    match r.1 with
    | some d => dramWrite c f l d false r.2
    | none => dramWrite c f l 0 true r.2) s
  { s1 with dram := { s1.dram with lack := tabSet (fun _ => false) s1.dram.lack (c * 2 ^ 28 + f) false } }

def poisonFrame (s : State) (c f : Nat) : State := (List.range 64).foldl (fun a l => dramWrite c f l 0 true a) s

/-- The action taken for a frame: AUTO resolved by area (R417). -/
def actionFor (s : State) (c action f : Nat) : Nat :=
  if action ≠ 0 then action
  else match areaOf s c f with
  | 0 => 1
  | 1 => 1
  | 2 =>
    let idx := f - coldBase s (c / 12)
    if inLiveLog s c idx ∧ (s.chan c).rejoinSkip.contains idx = false then 2 else 4
  | _ => if s.fget (DCH_STAT c) F.DCH_STAT_FROM_FENCE = 1 then 3 else 4

/-- The channels whose passes a frame's rebuild takes, 64 each: its sources and the channel itself (R438, R439). -/
def rebuildChans (c action : Nat) : List Nat :=
  if action = 1 then [twinOf c, c] else if action = 2 then groupChans (c / 12) else if action = 3 then [c] else []

/-- The rebuild agent's demand for 64 passes at channel `k`, for the engine of channel `c`: a request for each line of the frame waits there. -/
def rebuildAsk (c k f : Nat) (s : State) : State :=
  let ask := (List.range 64).map fun l => (⟨{ id := 2 ^ 80 + 2 ^ 40 * c + 64 * f + l, wr := k == c, frame := f, line := l, master := 26, port := 16, data := 0, poison := false }, s.time, false⟩ : DramReq)
  if (s.chan k).regul.held.any (fun r => r.op.id == 2 ^ 80 + 2 ^ 40 * c + 64 * f) then s
  else chanUpd s k (fun x => { x with regul := { x.regul with held := x.regul.held ++ ask } })

/-- Its 64 passes at channel `k` are spent. -/
def rebuildSpend (c k f : Nat) (s : State) : State :=
  chanUpd s k (fun x => { x with regul := { x.regul with
    passes := tabSet (fun _ => 0) x.regul.passes 26 (tabGet (fun _ => 0) x.regul.passes 26 - 64)
    issued := tabSet (fun _ => 0) x.regul.issued 26 (tabGet (fun _ => 0) x.regul.issued 26 + 64)
    held := x.regul.held.filter (fun r => r.op.id / 64 != 2 ^ 74 + 2 ^ 34 * c + f) } })

/-- The engine rebuilds the frame at the watermark, and the watermark passes it (R142, R417, R414). It is regulated as the rebuild agent: without its passes the
frame waits for them. -/
def rebuildFrame (c : Nat) (s0 : State) : State :=
  match (s0.chan c).ring with
  | none => s0
  | some e =>
    let ks := rebuildChans c (actionFor s0 c e.action e.next)
    if s0.cstate c ≠ csREJOINING ∨ coreOpen s0 = false then s0
    else if ks.any (fun k => decide (passes s0 k 26 < 64)) then ks.foldl (fun t k => rebuildAsk c k e.next t) s0
    else
      let s := ks.foldl (fun t k => rebuildSpend c k e.next t) s0
      let f := e.next
      let a := actionFor s c e.action f
      let s1 := if a = 1 then twinRebuild s c f else if a = 2 then parityFrame s c f else if a = 3 then poisonFrame s c f else s
      let s2 := s1.fset (DCH_WMARK c) F.DCH_WMARK_FRAME (f + 1)
      let base := s2.fget (DCH_RBRING c) F.DCH_RBRING_LPN * 4096
      let s3 :=
        if e.left ≤ 1 then
          ringStore (chanUpd s2 c (fun x => { x with ring := none })) c base 8 4 (e.consumed + 1)
        else chanUpd s2 c (fun x => { x with ring := some { e with next := f + 1, left := e.left - 1 } })
      if f + 1 = chanFrames s3 c then pump ((ringStore s3 c base 12 1 1).setCstate c csIN_SERVICE) else pump s3

/-- The engine rebuilds one frame. -/
def execRebuildFrame (c : Nat) (s : State) : Res := .next (rebuildFrame c s)

/-- DCH_RBRING: writing EN 1 clears a stop (R417). -/
def hookRbRing : Hook := fun idx _ new _ s =>
  let c := idx.headD 0
  let s1 := s.setRg (DCH_RBRING c) (BitVec.ofNat 64 new)
  (if fld new F.DCH_RBRING_EN = 1 then chanUpd s1 c (fun x => { x with ringStop := false }) else s1, 0)

/-- The ring of a channel is set. -/
def execRbringEn (who : Who) (c : Nat) (val : Word) (s : State) : Res := .next (rowWrite hookRbRing who (DCH_RBRING c) val s)

end Sys2Proof.Machine
end

