-- ==== Sys2Proof/Machine/Ports.lean ====
section
/-! DEFINITION. The host-mode ports (chapter 03): requests (R84 to R106), resets (R111 to R115), link events (R86 to R88), head map, DPA layout and HDM
decoders (R94 to R97), Dynamic Capacity (R99, R100) and CXL_IDE_KM (R218). -/

namespace Sys2Proof.Machine

def evPRT (p k : Nat) (s : State) : State := s.ev (16 * p + k)

/-- The port's link is up in host mode. -/
def linkUp (s : State) (p : Nat) : Bool := !s.tap.driven && hostMode s p && s.fget (PRT_LINKSTAT p) F.PRT_LINKSTAT_UP == 1

/-! Address translation (R94 to R98). -/

/-- The head's DPA layout in bytes: S, R0, R1 (R94). -/
def dpaS (s : State) (p : Nat) : Nat := s.fget (PRT_DPALAYOUT p) F.PRT_DPALAYOUT_STATIC * 2 ^ 28
def dpaR0 (s : State) (p : Nat) : Nat := s.fget (PRT_DPALAYOUT p) F.PRT_DPALAYOUT_DCR0 * 2 ^ 28
def dpaR1 (s : State) (p : Nat) : Nat := s.fget (PRT_DPALAYOUT p) F.PRT_DPALAYOUT_DCR1 * 2 ^ 28
def dpaEnd (s : State) (p : Nat) : Nat := dpaS s p + dpaR0 s p + dpaR1 s p

def portDec (s : State) (p i : Nat) : Option HdmDec := tabGet (fun _ => none) (s.port p).dec i

/-- DPA of an offset in an interleaved decoder (R95): the way bits above the granularity are removed, and a factor of 3 divided out. -/
def decOffset (ways gran off : Nat) : Nat :=
  let chunk := off / gran
  let pow := if ways % 3 = 0 then ways / 3 else ways
  let c1 := chunk / pow
  (if ways % 3 = 0 then c1 / 3 else c1) * gran + off % gran

/-- HPA to DPA: the committed decoder that holds the address (R95), from decoder `i` on. -/
def hpaToDpa (s : State) (p hpa : Nat) : Nat → Nat → Option Nat
  | 0, _ => none
  | n + 1, i =>
    match portDec s p i with
    | some d => if d.base ≤ hpa ∧ hpa < d.base + d.size then some (d.dpa + decOffset d.ways d.gran (hpa - d.base)) else hpaToDpa s p hpa n (i + 1)
    | none => hpaToDpa s p hpa n (i + 1)

/-- The valid head-map entry that covers a DPA, from entry `i` on. -/
def hmFind (s : State) (p dpa : Nat) : Nat → Nat → Option Nat
  | 0, _ => none
  | n + 1, i =>
    let e := hmEntry s p i
    if e.1 ∧ e.2.1 ≤ dpa ∧ dpa < e.2.1 + e.2.2.1 then some i else hmFind s p dpa n (i + 1)

/-- Address of a DPA: an LA, or 2^47 plus a global address (R96). -/
def dpaToLa (s : State) (p dpa : Nat) : Option Nat :=
  match hmFind s p dpa 512 0 with
  | some i =>
    let e := hmEntry s p i
    let la := e.2.2.2.2.2 + (dpa - e.2.1)
    some (if e.2.2.2.1 then 2 ^ 47 + e.2.2.2.2.1 * 2 ^ 47 + la % 2 ^ 47 else la % 2 ^ 47)
  | none => none

/-- The DPA may be used: mapped, and in an accepted extent where Dynamic Capacity lies (R98). -/
def dpaUsable (s : State) (p dpa : Nat) : Bool :=
  (hmFind s p dpa 512 0).isSome && (dpa < dpaS s p || (s.port p).extents.any (fun e => e.dpa ≤ dpa && dpa < e.dpa + e.len))

/-! Requests (R84, R98, R102, R103). -/

/-- The kind of request that an M2S message is: `op` 0 MemRd, 1 MemInv, 2 MemWr, 3 MemClnEvct, 4 MemSpecRd; `mv` 0 I, 1 S, 2 A (R224). -/
def m2sKind (op mv : Nat) : ReqKind :=
  match op with
  | 0 => if mv = 2 then .readExclusive else if mv = 1 then .readShared else .readCurrent
  | 1 => if mv = 2 then .readExclusive else .write
  | 2 => .writeBack
  | 3 => .cleanEvict
  | _ => .readCurrent

/-- An IDE integrity check has failed (R118): the stream is insecure until it is established again. -/
def ideFails (s : State) (p : Nat) : State :=
  let s1 := portEvent ((portUpd s p (fun x => { x with ideInsecure := true })).fset (PRT_LINKSTAT p) F.PRT_LINKSTAT_IDE 0) p C.PRT_F_IDE (srcId 1 p) 0
  (s1.report (srcId 1 p) 0 C.PRT_F_IDE 0 0).diagAdd dgIDEFAIL p 1

/-- The port takes a request (R84, R98, R102, R103), unless its master is held (R444): it translates the address and sends it to its home slice. -/
def takeRequest (p op mv hpa tag : Nat) (data : Line) (mask : Nat) (poison : Bool) (s : State) : State :=
  let x := s.port p
  if 2048 ≤ x.trk.length ∨ portHeld s p then s
  else
    let wr := op == 2
    let s0 := (evPRT p (if wr then 2 else 1) (evPRT p 0 s)).diagAdd dgCDC p 1
    let dpa := (hpaToDpa s p hpa 16 0).getD 0
    let ok := (hpaToDpa s p hpa 16 0).isSome && dpaUsable s p dpa
    match (if ok then dpaToLa s p dpa else none) with
    | none =>
      let s1 := (portEvent s0 p C.PRT_W_UNMAPPED (srcId 1 p) dpa).reportAt 1 (srcId 1 p) 0 C.PRT_W_UNMAPPED dpa 0
      if wr then s1 else hostResponse s1 p tag 0 true 0
    | some la =>
      let l := la / 64 * 64
      let m := if op = 1 ∧ mv ≠ 2 then 0 else if op = 2 then mask % 2 ^ 64 else 2 ^ 64 - 1
      let r : HomeReq := { kind := m2sKind op mv, who := .port p tag x.gen, la := l, data := data, mask := m, poison := poison && wr, master := p,
                           mval := if op = 1 ∧ mv = 2 then 1 else if wr then mv else 0 }
      let s1 := portUpd s0 p (fun x => { x with trk := x.trk ++ [⟨tag, wr, l, dpa, s.time⟩] })
      let s2 := if x.trk.length = 2047 then evPRT p 13 s1 else s1
      { s2 with home := { s2.home with toHome := s2.home.toHome ++ [r] } }

/-- A CXL.mem request flit (R84, R85); a port in Device Fatal serves none before its next reset (R473). A flit that fails its IDE check is served before the check is complete in skid mode, and discarded in containment mode. -/
def cxlMemRequest (p op mv hpa tag : Nat) (data : Line) (mask : Nat) (poison ideOk : Bool) (s : State) : State :=
  let x := s.port p
  if linkUp s p = false ∨ s.fget (PRT_LINKSTAT p) F.PRT_LINKSTAT_MEM_EN = 0 ∨ s.fget (PRT_HEADSTAT p) F.PRT_HEADSTAT_FATAL = 1 ∨ x.ideInsecure ∨ coreOpen s = false ∨ x.trk.any (fun r => r.tag == tag) then s
  else
    let bad := s.fget (PRT_LINKSTAT p) F.PRT_LINKSTAT_IDE = 1 ∧ ideOk = false
    if bad ∧ x.ideContain then ideFails s p
    else
      let t := takeRequest p op mv hpa tag data mask poison s
      if bad then ideFails t p else t

/-- A host-mode port takes a CXL.mem request flit. -/
def execCxlMemRequest (p op mv hpa tag : Nat) (data : Line) (mask : Nat) (poison ideOk : Bool) (s : State) : Res :=
  .next (cxlMemRequest p op mv hpa tag data mask poison ideOk (if linkUp s p then hostActive s p else s))

/-- A request for a remote line reaches its guest slice (R244, R245): it is served there by the same rules, and what only the remote home can
give is asked of it. -/
def execGuestRequest (req : HomeReq) (s : State) : Res :=
  .next (if isGuestLa req.la then
      (match req.kind with
      | .writeBack => writeBackArrives req s
      | k => takeKind k req s)
    else s)

/-! Resets and the cut (R111 to R114). -/

/-- The cut (R112, R113): what has crossed into the core runs to its end, and its completions find no request of the link's new generation. -/
def cutPort (s : State) (p : Nat) : State :=
  let s1 := portUpd s p (fun x => { x with trk := [], replay := [], gen := x.gen + 1, dirGen := x.gen + 1 })
  pump (leaveDirectory s1 p (heldLines s1 p) true)

/-- The mailbox command that runs is ended with PRT_E_LINK_RESET (R111). DESIGN CHOICE (log entry 155): its return code, which the spec does not name, is 4. -/
def endMailbox (s : State) (p : Nat) : State :=
  portUpd s p (fun x => match x.mboxBg.orElse (fun _ => x.mboxRun.map (·.1)) with
    | some op => { x with mboxBg := none, mboxRun := none, mbox := some ⟨op, 4, C.PRT_E_LINK_RESET, []⟩, detail := (C.PRT_E_LINK_RESET, srcId 1 p) }
    | none => x)

/-- CXL.mem is enabled: the link is up at 32 GT/s or more and at x4 or wider (R87), and the host has set Mem_Enable (R114). -/
def memEnable (s : State) (p : Nat) : State :=
  let r := PRT_LINKSTAT p
  s.fset r F.PRT_LINKSTAT_MEM_EN (if s.fget r F.PRT_LINKSTAT_UP = 1 ∧ 1 ≤ s.fget r F.PRT_LINKSTAT_SPEED ∧ s.fget r F.PRT_LINKSTAT_WIDTH < 3 ∧ (s.port p).memEn then 1 else 0)

/-- The decoders are uncommitted, and Mem_Enable is clear (R111, R114). -/
def uncommitAll (s : State) (p : Nat) : State :=
  memEnable (((portUpd s p (fun x => { x with dec := [], notCommitted := [], memEn := false })).fset (PRT_HEADSTAT p) F.PRT_HEADSTAT_DEC_COMMIT 0).fset (PRT_HEADSTAT p) F.PRT_HEADSTAT_BI 0) p

/-- The IDE stream is torn down. -/
def tearIde (s : State) (p : Nat) : State := (portUpd s p (fun x => { x with ideInsecure := false, ideSet := none })).fset (PRT_LINKSTAT p) F.PRT_LINKSTAT_IDE 0

/-- A transition of the port's link-training state machine (PRT_LTSSMLOG): 0 Detect, 1 L0, 2 Recovery, 3 Disabled, 4 Hot Reset. -/
def ltssm (s : State) (p st : Nat) : State := s.diagLog dlLTSSM p 32 (st, s.time)

def linkDown (s0 : State) (p : Nat) : State :=
  let s := calInterrupt s0 p
  let r := PRT_LINKSTAT p
  portUpd ((((ltssm s p 0).fset r F.PRT_LINKSTAT_UP 0).fset r F.PRT_LINKSTAT_MEM_EN 0).irq (64 + p)) p (fun x => { x with l1 := false })

def countReset (s : State) (p kind : Nat) : State :=
  (s.fsat (PRT_LINKSTAT p) F.PRT_LINKSTAT_RESETS 1).fset (PRT_LINKSTAT p) F.PRT_LINKSTAT_LASTRST kind

def clearFatal (s : State) (p : Nat) : State := if s.devLevel < 4 then s.fset (PRT_HEADSTAT p) F.PRT_HEADSTAT_FATAL 0 else s

/-- PERST_N has been low for 1 µs (R114). In P3 and P4 the port itself stands, and only the pin's level is seen (R26, R517). -/
def perstAssert (p : Nat) (s : State) : State :=
  if 3 ≤ s.pst then portUpd s p (fun x => { x with perst := 1 })
  else if hostMode s p then
    clearFatal (portUpd (countReset (endMailbox (tearIde (uncommitAll (cutPort (linkDown s p) p) p) p) p) p 1) p (fun x => { x with perst := 1, terms := false })) p
  else s

/-- PERST_N is asserted; either edge is a wake source (R526). -/
def execPerstAssert (p : Nat) (s : State) : Res := .next (perstAssert p (wake 0 s))

/-- PERST_N rises: terminations on and Detect once the port is released (R114, R115). -/
def perstRelease (p : Nat) (s : State) : State :=
  if (s.port p).perst = 1 then portUpd s p (fun x => { x with perst := 0, terms := decide (s.pst < 3) && s.fget (PRT_CFG p) F.PRT_CFG_RELEASE == 1 }) else s

/-- PERST_N is released; either edge is a wake source (R526). -/
def execPerstRelease (p : Nat) (s : State) : Res := .next (perstRelease p (wake 0 s))

/-- The link goes down, with the decoders kept (R111): `kind` 2 surprise link down, 4 link disable, 6 fence. -/
def downKept (s : State) (p kind : Nat) : State := countReset (endMailbox (tearIde (cutPort (linkDown s p) p) p) p) p kind

/-- The host link goes down without warning (R111). -/
def execSurpriseLinkDown (p : Nat) (s : State) : Res :=
  .next (if linkUp s p then (portEvent (downKept s p 2) p C.PRT_F_LINK (srcId 1 p) 0).report (srcId 1 p) 0 C.PRT_F_LINK 0 0 else s)

/-- Hot reset (R111). -/
def execHotReset (p : Nat) (s : State) : Res :=
  .next (if linkUp s p then clearFatal (uncommitAll (downKept (ltssm s p 4) p 3) p) p else s)

/-- Link disable (R111). -/
def execLinkDisable (p : Nat) (s : State) : Res := .next (if linkUp s p then downKept (ltssm s p 3) p 4 else s)

/-- CXL Reset (R111): the link and the IDE stream stay. -/
def execCxlReset (p : Nat) (s : State) : Res :=
  .next (if linkUp s p then clearFatal (countReset (endMailbox (uncommitAll (cutPort (calInterrupt s p) p) p) p) p 5) p else s)

/-- Function level reset (R111): counted as a port reset (R117); LASTRST has no value for it and stays. -/
def execFunctionLevelReset (p : Nat) (s : State) : Res :=
  .next (if linkUp s p then (endMailbox s p).fsat (PRT_LINKSTAT p) F.PRT_LINKSTAT_RESETS 1 else s)

/-! Link events (R86 to R88). -/

/-- The port is fenced (R475). -/
def portFenced (s : State) (p : Nat) : Bool := s.fget (FLT_SRCSTAT (srcId 1 p)) F.FLT_SRCSTAT_STATE == 1

/-- The host link has trained: `width` 0 x16 to 3 narrower, `speed` 0 below 32 GT/s to 2, `flit` 0 68-byte to 2 latency-optimised. -/
def hostLinkUp (p width speed flit : Nat) (s : State) : State :=
  let cfg := PRT_CFG p
  let fit := decide (s.fget cfg F.PRT_CFG_MAXW ≤ width) && width < 4 && speed < 3 && flit < 3 &&
    (speed != 2 || s.fget cfg F.PRT_CFG_MAXSPD == 0) && ((speed == 2) == (0 < flit)) && (flit != 2 || s.fget cfg F.PRT_CFG_LOPT_EN == 1)
  if hostMode s p = false ∨ s.fget cfg F.PRT_CFG_RELEASE = 0 ∨ (s.port p).perst ≠ 0 ∨ portFenced s p ∨ linkUp s p ∨ gated s (1 + p) ∨ 2 ≤ s.pst ∨ fit = false then s
  else
    let r := PRT_LINKSTAT p
    let mem := 1 ≤ speed ∧ width < 3
    let s1 := ((((s.fset r F.PRT_LINKSTAT_UP 1).fset r F.PRT_LINKSTAT_WIDTH width).fset r F.PRT_LINKSTAT_SPEED speed).fset r F.PRT_LINKSTAT_FLIT flit).fset r F.PRT_LINKSTAT_L0PW width
    let fr := s1.free 256
    let s2 := memEnable (portUpd (calTrained ((ltssm (fr.2.diagSet dgEQ p fr.1) p 1).irq (64 + p)) p) p (fun x => { x with terms := true, l1 := false, full := width })) p
    if mem then s2 else portEvent s2 p C.PRT_E_SPEED (srcId 1 p) 0

/-- The host link has trained. -/
def execLinkUp (p width speed flit : Nat) (s : State) : Res := .next (hostLinkUp p width speed flit s)

/-- L0p (R88). -/
def execL0pWidthChange (p width : Nat) (s : State) : Res :=
  .next (if linkUp s p ∧ s.fget (PRT_CFG p) F.PRT_CFG_L0P_EN = 1 ∧ s.fget (PRT_LINKSTAT p) F.PRT_LINKSTAT_SPEED = 2 ∧
      s.fget (PRT_LINKSTAT p) F.PRT_LINKSTAT_WIDTH ≤ width ∧ width < 3 then
    evPRT p 12 (s.fset (PRT_LINKSTAT p) F.PRT_LINKSTAT_L0PW width) else s)

/-- The host link recovers: the completions of its replay buffer reach the host (R111). -/
def execLinkRecovery (p : Nat) (s : State) : Res :=
  .next (if linkUp s p then
      let s1 := if (s.port p).l1 then hostActive s p else s
      evPRT p 11 (portUpd (calTrained (calInterrupt (ltssm (ltssm (s1.diagAdd dgREPLAY p (s.port p).replay.length) p 2) p 1) p) p) p (fun x => { x with replay := [] }))
    else s)

/-! Registers of the head. -/

/-- PRT_CFG: RELEASE lets the port train (R115); a Seam link is DISABLED at MODE 0 (R344). -/
def hookPrtCfg : Hook := fun idx old new _ s =>
  let p := idx.headD 0
  let s1 := s.setRg (PRT_CFG p) (BitVec.ofNat 64 new)
  let s1 := if fld new F.PRT_CFG_MODE = 0 ∧ fld old F.PRT_CFG_MODE = 1 then s1.fset (PRT_SEAMSTAT p) F.PRT_SEAMSTAT_STATE 0 else s1
  if fld new F.PRT_CFG_RELEASE = 1 ∧ fld old F.PRT_CFG_RELEASE = 0 ∧ fld new F.PRT_CFG_MODE = 0 then
    ((portUpd s1 p (fun x => { x with terms := x.perst == 0 })).fset (PRT_HEADSTAT p) F.PRT_HEADSTAT_MEM_ACTIVE 1, 0)
  else (s1, 0)

/-- A trusted write of PRT_CFG.RELEASE (R115). -/
def execRelease (who : Who) (p : Nat) (val : Word) (s : State) : Res := .next (rowWrite hookPrtCfg who (PRT_CFG p) val s)

/-- The entry that a pair of register values describes overlaps another valid entry of the head, from entry `i` on. -/
def hmOverlap (s : State) (p self lo hi : Nat) : Nat → Nat → Bool
  | 0, _ => false
  | n + 1, i =>
    let e := hmEntry s p i
    (i != self && e.1 && decide (e.2.1 < hi) && decide (lo < e.2.1 + e.2.2.1)) || hmOverlap s p self lo hi n (i + 1)

/-- PRT_HMAPAn (R97). -/
def hookHmapA : Hook := fun idx old new _ s =>
  let p := idx.headD 0
  let n := idx.getD 1 0
  let off := PRT_HMAPA p n
  let v0 := fld old F.PRT_HMAPA_VALID
  let v1 := fld new F.PRT_HMAPA_VALID
  if v0 = 1 then
    let e := hmEntry s p n
    if new = old then (s, 0)
    else if new = putf old F.PRT_HMAPA_VALID 0 then
      (portUpd (s.setRg off (BitVec.ofNat 64 new)) p (fun x => { x with poisonList := x.poisonList.filter (fun d => !(decide (e.2.1 ≤ d) && decide (d < e.2.1 + e.2.2.1))) }), 0)
    else (s, C.PRT_E_HMAP_BUSY)
  else if v1 = 0 then (s.setRg off (BitVec.ofNat 64 new), 0)
  else
    let lo := fld new F.PRT_HMAPA_DPABASE * 2 ^ 21
    let len := (fld new F.PRT_HMAPA_LEN + 1) * 2 ^ 21
    let b := (s.rg (PRT_HMAPB p n)).toNat
    if hmOverlap s p n lo (lo + len) 512 0 then (s, C.PRT_E_HMAP_OVERLAP)
    else if dpaEnd s p < lo + len ∨ (fld b F.PRT_HMAPB_KIND = 0 ∧ pagesL s * 4096 < fld b F.PRT_HMAPB_LABASE * 2 ^ 21 + len) then (s, C.PRT_E_HMAP_RANGE)
    else
      let s1 := s.setRg off (BitVec.ofNat 64 new)
      (s1.home.poisonLas.foldl (fun t la => (dpasOf t p la).foldl (fun u d => if lo ≤ d ∧ d < lo + len then notePoison u p d else u) t) s1, 0)

/-- A write of PRT_HMAPAn (R97). -/
def execHmapaWrite (who : Who) (p n : Nat) (val : Word) (s : State) : Res := .next (rowWrite hookHmapA who (PRT_HMAPA p n) val s)

/-- PRT_HMAPBn (R97). -/
def hookHmapB : Hook := fun idx _ new _ s =>
  let p := idx.headD 0
  let n := idx.getD 1 0
  if s.fget (PRT_HMAPA p n) F.PRT_HMAPA_VALID = 1 then (s, C.PRT_E_HMAP_BUSY) else (s.setRg (PRT_HMAPB p n) (BitVec.ofNat 64 new), 0)

/-- A write of PRT_HMAPBn (R97). -/
def execHmapbWrite (who : Who) (p n : Nat) (val : Word) (s : State) : Res := .next (rowWrite hookHmapB who (PRT_HMAPB p n) val s)

/-- PRT_DPALAYOUT: the sizes sum to at most 128 TiB (R94, R117). -/
def hookDpaLayout : Hook := fun idx _ new _ s =>
  if 2 ^ 19 < fld new F.PRT_DPALAYOUT_STATIC + fld new F.PRT_DPALAYOUT_DCR0 + fld new F.PRT_DPALAYOUT_DCR1 then (s, C.PRT_E_HMAP_RANGE)
  else (s.setRg (PRT_DPALAYOUT (idx.headD 0)) (BitVec.ofNat 64 new), 0)

/-- A write of PRT_DPALAYOUT (R94). -/
def execDpalayoutWrite (who : Who) (p : Nat) (val : Word) (s : State) : Res := .next (rowWrite hookDpaLayout who (PRT_DPALAYOUT p) val s)

/-! HDM decoders (R95). -/

def decWays : List Nat := [1, 2, 3, 4, 6, 8, 12, 16]
def decGrans : List Nat := [256, 512, 1024, 2048, 4096, 8192, 16384]

/-- Committed decoders of a head, lowest first. -/
def decList (s : State) (p : Nat) : List HdmDec := (s.port p).dec.filterMap (·.2)

/-- DEC_COMMIT and BI follow the decoders (R223). -/
def decStat (s : State) (p : Nat) : State :=
  let l := decList s p
  (s.fset (PRT_HEADSTAT p) F.PRT_HEADSTAT_DEC_COMMIT l.length).fset (PRT_HEADSTAT p) F.PRT_HEADSTAT_BI (if l.length ≠ 0 ∧ l.all (·.bi) then 1 else 0)

/-- Some valid head-map entry that meets DPA `lo` to `hi` has SHARED 1. -/
def hmShared (s : State) (p lo hi : Nat) : Nat → Nat → Bool
  | 0, _ => false
  | n + 1, i =>
    let e := hmEntry s p i
    (e.1 && decide (e.2.1 < hi) && decide (lo < e.2.1 + e.2.2.1) && s.fget (PRT_HMAPA p i) F.PRT_HMAPA_SHARED == 1) || hmShared s p lo hi n (i + 1)

/-- The commit fails: Error Not Committed stands in the decoder's control until it commits (R95). -/
def notCommit (s : State) (p i : Nat) : State := portUpd s p (fun x => { x with notCommitted := if x.notCommitted.contains i then x.notCommitted else x.notCommitted ++ [i] })

/-- The host commits, or uncommits, an HDM decoder (R95). -/
def hdmCommit (p i base size skip ways gran : Nat) (bi lock commit : Bool) (s : State) : State :=
  if linkUp s p = false ∨ 16 ≤ i then s
  else match portDec s p i with
  | some d => if commit ∨ d.locked then s else decStat (portUpd s p (fun x => { x with dec := tabSet (fun _ => none) x.dec i none })) p
  | none =>
    if commit = false then s
    else
      let below := decList s p
      let dpa0 := below.foldl (fun a d => max a (d.dpa + d.size / d.ways)) 0 + skip
      let inOrder := below.length == i
      let okForm := base % 2 ^ 28 == 0 && 0 < size && decWays.contains ways && decGrans.contains gran && size % (2 ^ 28 * ways) == 0 &&
        below.all (fun d => decide (d.base + d.size ≤ base))
      if inOrder = false ∨ okForm = false then notCommit s p i
      else
        let flit68 := s.fget (PRT_LINKSTAT p) F.PRT_LINKSTAT_FLIT == 0
        if bi = false ∧ (flit68 = false ∨ hmShared s p dpa0 (dpa0 + size / ways) 512 0) then portEvent (notCommit s p i) p C.PRT_E_BI_REQUIRED (srcId 1 p) 0
        else decStat (portUpd s p (fun x => { x with dec := tabSet (fun _ => none) x.dec i (some ⟨base, size, dpa0, ways, gran, bi, lock⟩), notCommitted := x.notCommitted.filter (· != i) })) p

/-- The host commits an HDM decoder; `memEn` is its Mem_Enable from now on (R114 step 8). -/
def execHdmCommit (p i base size skip ways gran : Nat) (bi lock : Bool) (commit : Bool × Bool) (s : State) : Res :=
  .next (if linkUp s p then memEnable (portUpd (hdmCommit p i base size skip ways gran bi lock commit.1 s) p (fun x => { x with memEn := commit.2 })) p else s)

/-! Dynamic Capacity (R99, R100). -/

/-- Every block from `a` to `b` is covered by valid head-map entries; each step passes one entry. -/
def hmCovers (s : State) (p b : Nat) : Nat → Nat → Bool
  | 0, _ => false
  | n + 1, a =>
    if b ≤ a then true
    else match hmFind s p a 512 0 with
      | some i => hmCovers s p b n ((hmEntry s p i).2.1 + (hmEntry s p i).2.2.1)
      | none => false

/-- An extent lies in a Dynamic Capacity region, in whole blocks. -/
def extentFits (s : State) (p : Nat) (e : Nat × Nat) : Bool :=
  e.1 % 2 ^ 21 == 0 && e.2 % 2 ^ 21 == 0 && 0 < e.2 &&
    ((decide (dpaS s p ≤ e.1) && decide (e.1 + e.2 ≤ dpaS s p + dpaR0 s p)) || (decide (dpaS s p + dpaR0 s p ≤ e.1) && decide (e.1 + e.2 ≤ dpaEnd s p)))

/-- Initiate Dynamic Capacity Add (R99): return code 0 success, 2 Invalid Input. A message from another endpoint than the fabric manager's is not taken. -/
def initiateDcAdd (p eid : Nat) (extents : List (Nat × Nat)) (s : State) : State :=
  if hostMode s p = false ∨ eid ≠ s.mgmt.fmEid then s
  else if extents.any (fun e => !hmCovers s p (e.1 + e.2) 513 e.1) then s.put (.fmReply p 0 2 C.PRT_E_EXTENT_UNMAPPED)
  else if extents.any (fun e => !extentFits s p e) then s.put (.fmReply p 0 2 0)
  else
    let s1 := portUpd s p (fun x => { x with offered := x.offered ++ [extents.map (fun e => ⟨e.1, e.2⟩)] })
    (extents.foldl (fun t e => portEventIn t p 4 0 (srcId 1 p) e.1 e.2) s1).put (.fmReply p 0 0 0)

/-- Initiate Dynamic Capacity Add. -/
def execInitiateDynamicCapacityAdd (p : Nat) (offer : Nat × List (Nat × Nat)) (s : State) : Res := .next (initiateDcAdd p offer.1 offer.2 s)

/-- The head takes mailbox commands: its link is up, and none is under way in the foreground. -/
def mboxOpen (s : State) (p : Nat) : Bool := linkUp s p && (s.port p).mboxRun.isNone

/-- Add DC Response (R99): it answers the oldest offer; the accepted extents lie in it and become usable, and the rest of that offer lapses. -/
def addDcResponse (p : Nat) (extents : List (Nat × Nat)) (s : State) : State :=
  if mboxOpen s p = false then s
  else
    let x := s.port p
    let ok := extents.all (fun e => 0 < e.2 && e.1 % 2 ^ 21 == 0 && e.2 % 2 ^ 21 == 0 && (x.offered.headD []).any (fun o => o.dpa ≤ e.1 && e.1 + e.2 ≤ o.dpa + o.len))
    if ok then mboxDone (portUpd s p (fun y => { y with extents := y.extents ++ extents.map (fun e => ⟨e.1, e.2⟩), offered := y.offered.drop 1 })) p 0x4802 0 0 []
    else mboxDone s p 0x4802 2 0 []

/-- Add DC Response. -/
def execAddDcResponse (p : Nat) (extents : List (Nat × Nat)) (s : State) : Res := .next (addDcResponse p extents s)

/-- Take one range out of a list of extents. -/
def extentCut (lo len : Nat) : List Extent → List Extent
  | [] => []
  | e :: r =>
    let hi := lo + len
    let eh := e.dpa + e.len
    if hi ≤ e.dpa ∨ eh ≤ lo then e :: extentCut lo len r
    else
      (if e.dpa < lo then [⟨e.dpa, lo - e.dpa⟩] else []) ++ (if hi < eh then [⟨hi, eh - hi⟩] else []) ++ extentCut lo len r

/-- Release DC (R100): the extents stop being usable; once the requests that crossed earlier have completed, the port leaves the sharer vectors of their lines
(`releaseEnd`). -/
def releaseDc (p : Nat) (extents : List (Nat × Nat)) (s : State) : State :=
  if mboxOpen s p = false then s
  else
    let ok := extents.all (fun e => (s.port p).extents.any (fun o => o.dpa ≤ e.1 && e.1 + e.2 ≤ o.dpa + o.len))
    if ok = false then mboxDone s p 0x4803 2 0 []
    else
      let s1 := extents.foldl (fun t e => portUpd t p (fun y => { y with extents := extentCut e.1 e.2 y.extents })) s
      pump (mboxDone (portUpd s1 p (fun y => { y with releasing := y.releasing ++ [(false, extents)] })) p 0x4803 0 0 [])

/-- Release DC. -/
def execReleaseDc (p : Nat) (extents : List (Nat × Nat)) (s : State) : Res := .next (releaseDc p extents s)

/-- A forced release by the fabric manager (R100): the range stops being usable, and what the port holds of it, once the
requests that crossed earlier have completed, is back-invalidated. -/
def forcedRelease (p eid dpa len : Nat) (s : State) : State :=
  if hostMode s p = false ∨ eid ≠ s.mgmt.fmEid then s
  else
    let s1 := portUpd s p (fun y => { y with extents := extentCut dpa len y.extents, offered := y.offered.map (extentCut dpa len) })
    pump (portUpd s1 p (fun y => { y with releasing := y.releasing ++ [(true, [(dpa, len)])] }))

/-- A forced release. -/
def execForcedRelease (p : Nat) (ask : Nat × Nat) (len : Nat) (s : State) : Res := .next (forcedRelease p ask.1 ask.2 len s)

/-! CXL_IDE_KM (R85, R218). -/

/-- `op` 0 KEY_PROG, whose key the trusted world installs by KEY_LINKCTL; 1 K_SET_GO of the key set `slot` mod 2, which switches the stream to it, in containment mode
where bit 1 of `slot` is set and otherwise in skid mode (R85, log entry 166); 2 K_SET_STOP. A message outside a live SPDM session is not taken. -/
def cxlIdeKm (p op slot session : Nat) (s : State) : State :=
  if linkUp s p = false ∨ s.mgmt.run = false ∨ s.mgmt.sessions.contains session = false then s
  else match op with
  | 0 => s.put (.ideKm p 0 slot)
  | 1 =>
    let has := fun (d : Nat) => (tabGet (fun _ => none) s.keys.link (p * 4 + d * 2 + slot % 2)).isSome
    if has 0 ∧ has 1 then
      let t := if (s.port p).ideSet.isSome then s.diagAdd dgIDEKEY p 1 else s
      ((portUpd t p (fun x => { x with ideInsecure := false, ideSet := some (slot % 2), ideContain := bit slot 1 })).fset (PRT_LINKSTAT p) F.PRT_LINKSTAT_IDE 1).put (.ideKm p 1 slot)
    else s.put (.ideKm p 1 slot)
  | _ => (if (s.port p).ideSet = some (slot % 2) then (portUpd s p (fun x => { x with ideSet := none })).fset (PRT_LINKSTAT p) F.PRT_LINKSTAT_IDE 0 else s).put (.ideKm p op slot)

/-- A CXL_IDE_KM message. -/
def execCxlIdeKm (p op : Nat) (key : Nat × Nat) (s : State) : Res := .next (cxlIdeKm p op key.1 key.2 s)

end Sys2Proof.Machine
end

