-- ==== Sys2Proof/Machine/Bobbin.lean ====
section
/-! DEFINITION. The Bobbin (chapter 08): its state's accessors (R253), the encodings of Stitch words (R255, R256), the issue of an instruction, the ends
of a program (R286 to R289, R311), and the integer, branch and line-register instructions (R257 to R262). -/

namespace Sys2Proof.Machine

/-! State. -/

def State.bob (s : State) (b : Nat) : Bob := tabGet (fun _ => Bob.init) s.bobs b
def State.setBob (s : State) (b : Nat) (x : Bob) : State := { s with bobs := tabSet (fun _ => Bob.init) s.bobs b x }

/-- General register `r`; g0 reads as zero (R253). -/
def Bob.gr (x : Bob) (r : Nat) : Word := if r = 0 then 0 else tabGet (fun _ => 0) x.g r

/-- Write a general register; writes to g0 are discarded (R253). -/
def Bob.setG (x : Bob) (r : Nat) (v : Word) : Bob := if r = 0 then x else { x with g := tabSet (fun _ => 0) x.g r v }

def Bob.vr (x : Bob) (r : Nat) : Line := tabGet (fun _ => 0) x.v r
def Bob.vpois (x : Bob) (r : Nat) : Bool := bit x.vp r

/-- Write a line register with its poison flag. -/
def Bob.setV (x : Bob) (r : Nat) (v : Line) (p : Bool) : Bob :=
  { x with v := tabSet (fun _ => 0) x.v r v, vp := withBit x.vp r p }

def tagFree : Nat → TagSt := fun _ => { st := 0, status := 0, result := 0 }
def Bob.tag (x : Bob) (t : Nat) : TagSt := tabGet tagFree x.tags t
def Bob.setTag (x : Bob) (t : Nat) (v : TagSt) : Bob := { x with tags := tabSet tagFree x.tags t v }

/-! Issue slots (R290, R452). -/

/-- Slots of the instruction at the PC: class M three, Q at most 36, S three for a load, X six; any other one. -/
def slotsOf (x : Bob) : Nat :=
  let w := tabGet (fun _ => 0) x.text x.pc
  let op := getBits w 26 6
  let fu := getBits w 0 11
  if op = 0x01 then
    if fu = 0x10 ∨ fu = 0x11 then 3
    else if 0x12 ≤ fu ∧ fu ≤ 0x15 then Config.divSlots (x.gr (getBits w 16 5)).toNat (x.gr (getBits w 11 5)).toNat % 36 + 1
    else 1
  else if op = 0x03 then 6
  else if op = 0x10 ∨ op = 0x14 then 3
  else 1

/-- Slots of a class of R452: 0 retired, 1 wasted, 2 front-starved, 3 back-starved. -/
def evSlots (b k n : Nat) (s : State) : State := s.evN (0x400 + 4 * b + k) n

/-! Encodings (R255). A field that does not fit its place makes no word. -/

def wordA (op rd rs1 rs2 func : Nat) : Option Nat :=
  if rd < 32 ∧ rs1 < 32 ∧ rs2 < 32 ∧ func < 2048 then some (op * 2 ^ 26 + rd * 2 ^ 21 + rs1 * 2 ^ 16 + rs2 * 2 ^ 11 + func) else none

def wordB (op rd rs1 imm : Nat) : Option Nat :=
  if rd < 32 ∧ rs1 < 32 ∧ imm < 65536 then some (op * 2 ^ 26 + rd * 2 ^ 21 + rs1 * 2 ^ 16 + imm) else none

def wordC (op rt rb fn imm : Nat) : Option Nat :=
  if rt < 32 ∧ rb < 32 ∧ fn < 8 ∧ imm < 8192 then some (op * 2 ^ 26 + rt * 2 ^ 21 + rb * 2 ^ 16 + fn * 2 ^ 13 + imm) else none

def wordD (op rs1 rs2 off : Nat) : Option Nat := wordB op rs1 rs2 off

def wordE (kind rd rs rl tag flags : Nat) : Option Nat :=
  if kind < 16 ∧ rd < 32 ∧ rs < 32 ∧ rl < 32 ∧ tag < 16 ∧ flags < 8 then
    some (0x38 * 2 ^ 26 + kind * 2 ^ 22 + rd * 2 ^ 17 + rs * 2 ^ 12 + rl * 2 ^ 7 + tag * 2 ^ 3 + flags) else none

/-- A word whose named line registers are 0 to 7. -/
def vregs (l : List Nat) (w : Option Nat) : Option Nat := if l.all (· < 8) then w else none

/-- The word is an instruction (R255, R256). -/
def stitchLegal (w : Nat) : Bool :=
  let op := getBits w 26 6
  let rd := getBits w 21 5
  let r1 := getBits w 16 5
  let r2 := getBits w 11 5
  let fu := getBits w 0 11
  let im := getBits w 0 16
  let fn := getBits w 13 3
  if op = 0x01 then fu < 0x0C || (0x10 ≤ fu && fu ≤ 0x15) || (0x20 ≤ fu && fu ≤ 0x23 && r2 == 0)
  else if op = 0x02 then
    if fu = 0 then r2 == 0 && rd < 8 && r1 < 8
    else if fu = 1 ∨ fu = 2 ∨ fu = 3 then rd < 8 && r1 < 8 && r2 < 8
    else if fu = 4 then r1 == 0 && r2 == 0 && rd < 8
    else if 8 ≤ fu ∧ fu < 16 then r2 == 0 && r1 < 8
    else if 16 ≤ fu ∧ fu < 24 then r2 == 0 && rd < 8
    else fu == 24 && r1 < 8 && r2 < 8
  else if op = 0x03 then fu < 2
  else if op = 0x04 then fu == 0 && rd < 8
  else if 0x08 ≤ op ∧ op ≤ 0x0D then true
  else if op = 0x0E then im < 256
  else if op = 0x0F then r1 < 4
  else if op = 0x10 then fn < 7
  else if op = 0x11 then fn < 4
  else if 0x12 ≤ op ∧ op ≤ 0x15 then fn == 0 && rd < 8
  else if 0x18 ≤ op ∧ op ≤ 0x1D then true
  else if op = 0x1E then r1 == 0
  else if op = 0x1F then true
  else if op = 0x20 then
    if fu < 4 then r2 < 8 else fu < 7 && r2 == 0
  else if op = 0x30 ∨ op = 0x31 ∨ op = 0x32 then r1 == 0 && im < 16
  else if op = 0x33 then rd == 0 && r1 == 0 && im < 3
  else if op = 0x34 then fu == 0
  else if op = 0x35 then getBits w 0 26 == 0
  else if op = 0x36 then r1 == 0 && im < 8
  else if op = 0x38 then getBits w 22 4 < 8
  else false

/-! Completion records and claims (R301, R302, R311). -/

/-- The slot of command `n` is claimed. -/
def slotClaimed (s : State) (q n : Nat) : Bool := ((s.spool q).cmds.find? (fun c => c.n == n)).any (fun c => c.claim.isSome)

/-- Change command `n` of a Spool. -/
def cmdUpd (s : State) (q n : Nat) (f : Cmd → Cmd) : State :=
  let x := s.spool q
  s.setSpool q { x with cmds := x.cmds.map (fun c => if c.n = n then f c else c) }

/-- Claim the slot with a status and a result; the first claim stays (R311). -/
def claimSlot (s : State) (q n st res : Nat) : State :=
  cmdUpd s q n (fun c => if c.claim.isNone then { c with claim := some (st, res) } else c)

def sqLog (s : State) (q : Nat) : Nat := s.fget (SPL_CFG q) F.SPL_CFG_SQLOG

/-- The 16 bytes of a completion record (R301). -/
def recordBytes (s : State) (q : Nat) (c : Cmd) : Bytes :=
  let cl := c.claim.getD (0, 0)
  leBytes 8 cl.2 ++ leBytes 4 c.n ++ leBytes 2 cl.1 ++ [c.bob % 256, if c.n / 2 ^ sqLog s q % 2 = 0 then 1 else 0]

/-- The record of a claimed command sets off to its slot, as one write at the line's home (R302). -/
def sendRecord (s : State) (q n : Nat) : State :=
  match (s.spool q).cmds.find? (fun c => c.n == n && c.recd == 0 && c.claim.isSome) with
  | none => s
  | some c =>
    let a := s.fget (SPL_CQBASE q) F.SPL_CQBASE_LPN * 4096 + c.n % 2 ^ sqLog s q * 16
    let off := a % 64
    let d := lineOf (List.replicate off 0 ++ recordBytes s q c)
    let s1 := cmdUpd s q n (fun e => { e with recd := 1 })
    homeTake { kind := .write, who := .spool q n, la := a / 64 * 64, data := d, mask := (2 ^ 16 - 1) * 2 ^ off, poison := false, master := 28, mval := 0 } s1

/-! Ends of a program. -/

/-- Class of the command that the Bobbin runs. -/
def bobClass (s : State) (b : Nat) : Nat := s.fget (BOB_STAT b) F.BOB_STAT_CLASS

/-- Key of a Bobbin's own work in a Pleat unit, and of its stitch of a tag. -/
def bobWork (b : Nat) : Nat := 2 ^ 63 + b
def jobWork (b tag : Nat) : Nat := 2 ^ 64 + 16 * b + tag

/-- The discard of page `n` by Bobbin `b` is over, or none runs. -/
def discardOver (u : State) (b n : Nat) : State :=
  if (u.bob b).disc = some n then setBusy (u.setBob b { u.bob b with disc := none }) n false else u

/-- The place of the Bobbin's descriptor instruction among the accesses of page `n` (R280): no line has this address. -/
def slotReq (b n : Nat) : HomeReq :=
  { kind := .readCurrent, who := .desc b, la := n * 4096 + 1, data := 0, mask := 0, poison := false, master := 28, mval := 0 }

/-- The instruction takes its place, behind what has reached the page's slice before it. -/
def takePlace (b n : Nat) (s : State) : State :=
  if s.home.waiting.contains (slotReq b n) then s else { s with home := { s.home with waiting := s.home.waiting ++ [slotReq b n] } }

/-- The Bobbin's instruction has no place any more. -/
def leavePlace (b : Nat) (s : State) : State :=
  { s with home := { s.home with waiting := s.home.waiting.filter (fun r => r.who != .desc b) } }

/-- The Bobbin's instruction has a place among a page's accesses. -/
def hasPlace (s : State) (b : Nat) : Bool := s.home.waiting.any (fun r => r.who == .desc b)

/-- An instruction that waits is given up: its discard or its page operation ends, it wants no Pleat lane any more, and it leaves its place in its page's
order; what waited behind it goes on. -/
def giveUp (b : Nat) (s : State) : State :=
  let s1 := match (s.bob b).disc with
    | some n => discardOver (if (promoOf s n).any (fun p => p.la.isNone) then promoGiveUp s n (bobWork b) else s) b n
    | none => s
  let s2 := laneDrop (laneDrop s1 2 (bobWork b)) 3 (bobWork b)
  if (s.bob b).disc.isSome ∨ hasPlace s b then pump (leavePlace b s2) else s2

/-- A program ends with a status at instruction `idx` (R287): recorded, its claim made, and the drain begins. -/
def progFault (b st idx : Nat) (s : State) : State :=
  let x := s.bob b
  let r := BOB_PROGFLT b
  let s1 := (((s.fset r F.BOB_PROGFLT_STATUS st).fset r F.BOB_PROGFLT_INDEX idx).fset r F.BOB_PROGFLT_SPOOL x.q)
  let s2 := evSPL (bobClass s b) 7 ((s1.fsat r F.BOB_PROGFLT_COUNT 1).fset r F.BOB_PROGFLT_VALID 1)
  let s3 := if x.posted then s2 else claimSlot s2 x.q x.n st (idx % 8192)
  s3.setBob b { x with run := 2 }

/-- A program fault at instruction `idx` (R287). -/
def bobFaultAt (b st idx : Nat) (s : State) : State := progFault b st idx (giveUp b s)

/-- A fault of the instruction that has issued: its slots are wasted (R452). -/
def bobFault (b st : Nat) (s : State) : State := bobFaultAt b st (s.bob b).last (evSlots b 1 (slotsOf (s.bob b)) s)

/-- The collector has an engine self-test to run on the Bobbin (R469). -/
def bobTestDue (s : State) (b : Nat) : Bool := s.fltTests.any (fun t => t.src == srcId 4 b && t.code == C.BOB_F_ENGINE)

/-- BOB_STAT.STATE of a Bobbin without a program: TESTING for a self-test, DRAINED, or IDLE (R316). -/
def bobIdle (s : State) (b : Nat) : Nat := if bobTestDue s b then 4 else if s.fget (BOB_CFG b) F.BOB_CFG_DRAIN = 1 then 2 else 0

/-- The Bobbin's program is gone: its state is IDLE, DRAINED or TESTING, unless the collector holds it elsewhere (R316). -/
def bobFree (b : Nat) (s0 : State) : State :=
  let s := giveUp b s0
  let x := s.bob b
  let s1 := s.setBob b { x with run := 0, loads := [], stores := [], jobs := [], opRd := none, waits := false, held := 0, posted := false, load := [], asked := false }
  let st := s1.fget (BOB_STAT b) F.BOB_STAT_STATE
  if st = 1 then s1.fset (BOB_STAT b) F.BOB_STAT_STATE (bobIdle s1 b) else s1

/-- A command's program has ended: its entry goes once its record is written. -/
def cmdEnd (s : State) (q n : Nat) : State :=
  let s1 := cmdUpd s q n (fun c => { c with stage := 2 })
  let x := s1.spool q
  s1.setSpool q { x with cmds := liveCmds x.cmds }

/-! Issue. -/

/-- No line register that the instruction reads or writes awaits a load (R266). -/
def vfree (x : Bob) (vs : List Nat) : Bool := vs.all (fun v => !(x.loads.any (fun l => l.v == v)))

/-- The instruction `w` is at the PC of a running program and can issue. One that has begun its page operation goes on to the boundary at which an aborted program
ends (R288). -/
def canIssue (s : State) (b : Nat) (w : Option Nat) (vs : List Nat) : Bool :=
  let x := s.bob b
  coreOpen s && (x.run == 1 || (x.run == 2 && x.disc.isSome)) && x.opRd.isNone && decide (x.pc < x.words) && (some (tabGet (fun _ => 0) x.text x.pc) == w) && vfree x vs

/-- Issue an instruction: `f` is its effect on the state with its index noted. One that cannot issue now leaves the state as it is. -/
def issue (b : Nat) (w : Option Nat) (vs : List Nat) (f : Bob → State → State) (s : State) : State :=
  if canIssue s b w vs then
    let x := { s.bob b with last := (s.bob b).pc }
    f x (s.setBob b x)
  else s

/-- The instruction retires with the Bobbin's state `x`, and its slots with it (R452): the PC goes on, or falls through the end of the text (R260). -/
def retire (b : Nat) (x : Bob) (s : State) : State :=
  if x.words ≤ x.pc + 1 ∧ x.run = 1 then bobFaultAt b C.BOB_E_PC_RANGE x.last (evSlots b 0 (slotsOf (s.bob b)) (s.setBob b x)) else (evSlots b 0 (slotsOf (s.bob b)) s).setBob b { x with pc := x.pc + 1, waits := false }

/-- Axtil shows a Bobbin's PC, with its Spool (R577). -/
def traceBob (b : Nat) (x : Bob) (s : State) : State := s.axt 2 b (x.pc + x.q * 2 ^ 32)

/-- A taken branch or jump (R260): out of range, it does not take effect. Its second slot is wasted (R452). -/
def jump (b : Nat) (tgt : Int) (old x : Bob) (s : State) : State :=
  if tgt < 0 ∨ (old.words : Int) ≤ tgt then bobFault b C.BOB_E_PC_RANGE (s.setBob b old) else (traceBob b old (evSlots b 1 1 (evSlots b 0 1 s))).setBob b { x with pc := tgt.toNat }

/-- Immediates (R255). -/
def sext (n v : Nat) : Word := (BitVec.ofNat n v).signExtend 64
def sextI (n v : Nat) : Int := (BitVec.ofNat n v).toInt

/-! Integer instructions (R257, R258). -/

/-- A three-register operation of op 0x01. -/
def alu (b func rd rs1 rs2 : Nat) (f : Word → Word → Word) (s : State) : Res :=
  .next (issue b (wordA 1 rd rs1 rs2 func) [] (fun x t => retire b (x.setG rd (f (x.gr rs1) (x.gr rs2))) t) s)

/-- A unary operation of op 0x01. -/
def alu1 (b func rd rs1 : Nat) (f : Word → Word) (s : State) : Res :=
  .next (issue b (wordA 1 rd rs1 0 func) [] (fun x t => retire b (x.setG rd (f (x.gr rs1))) t) s)

/-- A format B operation. -/
def aluI (b op rd rs1 imm : Nat) (f : Word → Word) (s : State) : Res :=
  .next (issue b (wordB op rd rs1 imm) [] (fun x t => retire b (x.setG rd (f (x.gr rs1))) t) s)

def amount (v : Word) : Nat := v.toNat % 64
def flag (p : Bool) : Word := if p then 1 else 0

def divu (a b : Word) : Word := if b = 0 then BitVec.allOnes 64 else a / b
def remu (a b : Word) : Word := if b = 0 then a else a % b
def divs (a b : Word) : Word := if b = 0 then BitVec.allOnes 64 else BitVec.ofInt 64 (a.toInt.tdiv b.toInt)
def rems (a b : Word) : Word := if b = 0 then a else BitVec.ofInt 64 (a.toInt.tmod b.toInt)
def mulhu (a b : Word) : Word := BitVec.ofNat 64 (a.toNat * b.toNat / 2 ^ 64)

/-- Zeros below bit `n` of `v` counted from the top: leading zeros of an `n`-bit value. -/
def clzN (v : Nat) : Nat → Nat
  | 0 => 0
  | n + 1 => if bit v n then 0 else 1 + clzN v n

/-- Trailing zeros among `n` bits from bit `i`. -/
def ctzN (v : Nat) : Nat → Nat → Nat
  | 0, _ => 0
  | n + 1, i => if bit v i then 0 else 1 + ctzN v n (i + 1)

def popN (v : Nat) : Nat → Nat
  | 0 => 0
  | n + 1 => popN v n + (if bit v n then 1 else 0)

def bswap (v : Word) : Word := BitVec.ofNat 64 (leNat (leBytes 8 v.toNat).reverse)

def execStAdd (b rd rs1 rs2 : Nat) (s : State) : Res := alu b 0x000 rd rs1 rs2 (· + ·) s
def execStSub (b rd rs1 rs2 : Nat) (s : State) : Res := alu b 0x001 rd rs1 rs2 (· - ·) s
def execStAnd (b rd rs1 rs2 : Nat) (s : State) : Res := alu b 0x002 rd rs1 rs2 (· &&& ·) s
def execStOr (b rd rs1 rs2 : Nat) (s : State) : Res := alu b 0x003 rd rs1 rs2 (· ||| ·) s
def execStXor (b rd rs1 rs2 : Nat) (s : State) : Res := alu b 0x004 rd rs1 rs2 (· ^^^ ·) s
def execStAndn (b rd rs1 rs2 : Nat) (s : State) : Res := alu b 0x005 rd rs1 rs2 (fun x y => x &&& ~~~y) s
def execStSll (b rd rs1 rs2 : Nat) (s : State) : Res := alu b 0x006 rd rs1 rs2 (fun x y => x <<< amount y) s
def execStSrl (b rd rs1 rs2 : Nat) (s : State) : Res := alu b 0x007 rd rs1 rs2 (fun x y => x >>> amount y) s
def execStSra (b rd rs1 rs2 : Nat) (s : State) : Res := alu b 0x008 rd rs1 rs2 (fun x y => x.sshiftRight (amount y)) s
def execStRotr (b rd rs1 rs2 : Nat) (s : State) : Res := alu b 0x009 rd rs1 rs2 (fun x y => x.rotateRight (amount y)) s
def execStSlt (b rd rs1 rs2 : Nat) (s : State) : Res := alu b 0x00A rd rs1 rs2 (fun x y => flag (x.slt y)) s
def execStSltu (b rd rs1 rs2 : Nat) (s : State) : Res := alu b 0x00B rd rs1 rs2 (fun x y => flag (x.ult y)) s
def execStMul (b rd rs1 rs2 : Nat) (s : State) : Res := alu b 0x010 rd rs1 rs2 (· * ·) s
def execStMulhu (b rd rs1 rs2 : Nat) (s : State) : Res := alu b 0x011 rd rs1 rs2 mulhu s
/-- Division by zero gives all ones (R257). -/
def execStDivu (b rd rs1 rs2 : Nat) (s : State) : Res := alu b 0x012 rd rs1 rs2 divu s
/-- The remainder of a division by zero is the dividend (R257). -/
def execStRemu (b rd rs1 rs2 : Nat) (s : State) : Res := alu b 0x013 rd rs1 rs2 remu s
def execStDiv (b rd rs1 rs2 : Nat) (s : State) : Res := alu b 0x014 rd rs1 rs2 divs s
def execStRem (b rd rs1 rs2 : Nat) (s : State) : Res := alu b 0x015 rd rs1 rs2 rems s
def execStClz (b rd rs1 : Nat) (s : State) : Res := alu1 b 0x020 rd rs1 (fun a => BitVec.ofNat 64 (clzN a.toNat 64)) s
def execStCtz (b rd rs1 : Nat) (s : State) : Res := alu1 b 0x021 rd rs1 (fun a => BitVec.ofNat 64 (ctzN a.toNat 64 0)) s
def execStPopc (b rd rs1 : Nat) (s : State) : Res := alu1 b 0x022 rd rs1 (fun a => BitVec.ofNat 64 (popN a.toNat 64)) s
def execStBswap (b rd rs1 : Nat) (s : State) : Res := alu1 b 0x023 rd rs1 bswap s

def execStAddi (b rd rs1 imm : Nat) (s : State) : Res := aluI b 0x08 rd rs1 imm (fun a => a + sext 16 imm) s
/-- ANDI, ORI and XORI zero-extend (R258). -/
def execStAndi (b rd rs1 imm : Nat) (s : State) : Res := aluI b 0x09 rd rs1 imm (fun a => a &&& BitVec.ofNat 64 imm) s
def execStOri (b rd rs1 imm : Nat) (s : State) : Res := aluI b 0x0A rd rs1 imm (fun a => a ||| BitVec.ofNat 64 imm) s
def execStXori (b rd rs1 imm : Nat) (s : State) : Res := aluI b 0x0B rd rs1 imm (fun a => a ^^^ BitVec.ofNat 64 imm) s
def execStSlti (b rd rs1 imm : Nat) (s : State) : Res := aluI b 0x0C rd rs1 imm (fun a => flag (a.slt (sext 16 imm))) s
def execStSltiu (b rd rs1 imm : Nat) (s : State) : Res := aluI b 0x0D rd rs1 imm (fun a => flag (a.ult (sext 16 imm))) s

/-- SHI: imm[7:6] 0 SLL, 1 SRL, 2 SRA, 3 ROTR; imm[15:8] zero. -/
def shi (imm : Nat) (a : Word) : Word :=
  let n := imm % 64
  match imm / 64 % 4 with
  | 0 => a <<< n
  | 1 => a >>> n
  | 2 => a.sshiftRight n
  | _ => a.rotateRight n

def execStShi (b rd rs1 imm : Nat) (s : State) : Res :=
  .next (issue b (if imm < 256 then wordB 0x0E rd rs1 imm else none) [] (fun x t => retire b (x.setG rd (shi imm (x.gr rs1))) t) s)

/-- INS16: quarter `k` of rd; it reads rd. -/
def execStIns16 (b rd k imm : Nat) (s : State) : Res :=
  .next (issue b (if k < 4 then wordB 0x0F rd k imm else none) []
    (fun x t => retire b (x.setG rd (BitVec.ofNat 64 (putBits (x.gr rd).toNat (16 * k) 16 imm))) t) s)

/-- The system values of R259. -/
def sysValue (s : State) (b sel : Nat) : Word :=
  let x := s.bob b
  match sel with
  | 0 => BitVec.ofNat 64 (s.fget FAB_NODEID F.FAB_NODEID_NODE)
  | 1 => BitVec.ofNat 64 b
  | 2 => BitVec.ofNat 64 x.q
  | 3 => BitVec.ofNat 64 s.time
  | 4 => BitVec.ofNat 64 (bobClass s b)
  | 5 => BitVec.ofNat 64 (pagesL s * 4096)
  | 6 => BitVec.ofNat 64 (s.fget TIR_LAYOUT F.TIR_LAYOUT_GRP_EN)
  | _ => BitVec.ofNat 64 (x.cap.getD 0 0)

def execStRdsys (b rd imm : Nat) (s : State) : Res :=
  .next (issue b (if imm < 8 then wordB 0x36 rd 0 imm else none) [] (fun x t => retire b (x.setG rd (sysValue t b imm)) t) s)

/-! Branches and jumps (R260). -/

/-- A format D branch on condition `p`. -/
def branch (b op rs1 rs2 off : Nat) (p : Word → Word → Bool) (s : State) : Res :=
  .next (issue b (wordD op rs1 rs2 off) [] (fun x t =>
    if p (x.gr rs1) (x.gr rs2) then jump b ((x.pc : Int) + sextI 16 off) x x t else retire b x t) s)

def execStBeq (b rs1 rs2 off : Nat) (s : State) : Res := branch b 0x18 rs1 rs2 off (fun x y => x == y) s
def execStBne (b rs1 rs2 off : Nat) (s : State) : Res := branch b 0x19 rs1 rs2 off (fun x y => x != y) s
def execStBlt (b rs1 rs2 off : Nat) (s : State) : Res := branch b 0x1A rs1 rs2 off (fun x y => x.slt y) s
def execStBge (b rs1 rs2 off : Nat) (s : State) : Res := branch b 0x1B rs1 rs2 off (fun x y => !x.slt y) s
def execStBltu (b rs1 rs2 off : Nat) (s : State) : Res := branch b 0x1C rs1 rs2 off (fun x y => x.ult y) s
def execStBgeu (b rs1 rs2 off : Nat) (s : State) : Res := branch b 0x1D rs1 rs2 off (fun x y => !x.ult y) s

/-- JAL: rd gets PC + 1; out of range, rd is unchanged. -/
def execStJal (b rd imm : Nat) (s : State) : Res :=
  .next (issue b (wordB 0x1E rd 0 imm) [] (fun x t => jump b ((x.pc : Int) + sextI 16 imm) x (x.setG rd (BitVec.ofNat 64 (x.pc + 1))) t) s)

/-- JALR: the target is a signed value, never wrapped; rs1 is read before rd is written. -/
def execStJalr (b rd rs1 imm : Nat) (s : State) : Res :=
  .next (issue b (wordB 0x1F rd rs1 imm) []
    (fun x t => jump b ((x.gr rs1).toInt + sextI 16 imm) x (x.setG rd (BitVec.ofNat 64 (x.pc + 1))) t) s)

/-! Line registers (R261, R262). -/

/-- Word `i` of a line. -/
def lineWord (l : Line) (i : Nat) : Nat := l.toNat / 2 ^ (64 * i) % 2 ^ 64
def setLineWord (l : Line) (i : Nat) (w : Word) : Line := BitVec.ofNat 512 (putBits l.toNat (64 * i) 64 w.toNat)

/-- A two-operand line operation; the poison flags are ORed. -/
def vop (b func rd rs1 rs2 : Nat) (f : Line → Line → Line) (s : State) : Res :=
  .next (issue b (vregs [rd, rs1, rs2] (wordA 2 rd rs1 rs2 func)) [rd, rs1, rs2]
    (fun x t => retire b (x.setV rd (f (x.vr rs1) (x.vr rs2)) (x.vpois rs1 || x.vpois rs2)) t) s)

def execStVmov (b rd rs1 : Nat) (s : State) : Res :=
  .next (issue b (vregs [rd, rs1] (wordA 2 rd rs1 0 0)) [rd, rs1] (fun x t => retire b (x.setV rd (x.vr rs1) (x.vpois rs1)) t) s)
def execStVxor (b rd rs1 rs2 : Nat) (s : State) : Res := vop b 1 rd rs1 rs2 (· ^^^ ·) s
def execStVand (b rd rs1 rs2 : Nat) (s : State) : Res := vop b 2 rd rs1 rs2 (· &&& ·) s
def execStVor (b rd rs1 rs2 : Nat) (s : State) : Res := vop b 3 rd rs1 rs2 (· ||| ·) s
def execStVzero (b rd : Nat) (s : State) : Res :=
  .next (issue b (vregs [rd] (wordA 2 rd 0 0 4)) [rd] (fun x t => retire b (x.setV rd 0 false) t) s)

/-- VGET: a poisoned register ends the program (R262). -/
def execStVget (b rd rs1 i : Nat) (s : State) : Res :=
  .next (issue b (if i < 8 then vregs [rs1] (wordA 2 rd rs1 0 (8 + i)) else none) [rs1] (fun x t =>
    if x.vpois rs1 then bobFault b C.BOB_E_POISON_USE t else retire b (x.setG rd (BitVec.ofNat 64 (lineWord (x.vr rs1) i))) t) s)

/-- VPUT: the poison flag is unchanged. -/
def execStVput (b rd rs1 i : Nat) (s : State) : Res :=
  .next (issue b (if i < 8 then vregs [rd] (wordA 2 rd rs1 0 (16 + i)) else none) [rd]
    (fun x t => retire b (x.setV rd (setLineWord (x.vr rd) i (x.gr rs1)) (x.vpois rd)) t) s)

/-- Bit `i` is set where words `i` agree. -/
def vcmp (a c : Line) : Word := BitVec.ofNat 64 ((List.range 8).foldl (fun v i => if lineWord a i = lineWord c i then v + 2 ^ i else v) 0)

def execStVcmp (b rd rs1 rs2 : Nat) (s : State) : Res :=
  .next (issue b (vregs [rs1, rs2] (wordA 2 rd rs1 rs2 24)) [rs1, rs2] (fun x t =>
    if x.vpois rs1 ∨ x.vpois rs2 then bobFault b C.BOB_E_POISON_USE t else retire b (x.setG rd (vcmp (x.vr rs1) (x.vr rs2))) t) s)

/-- An illegal word about to issue ends the program (R256). -/
def illegalInstruction (b : Nat) (s : State) : State :=
  let x := s.bob b
  let w := tabGet (fun _ => 0) x.text x.pc
  if coreOpen s ∧ x.run = 1 ∧ x.opRd = none ∧ x.pc < x.words ∧ stitchLegal w = false then bobFault b C.BOB_E_ILLEGAL (s.setBob b { x with last := x.pc }) else s

def execIllegalInstruction (b : Nat) (s : State) : Res := .next (illegalInstruction b s)

end Sys2Proof.Machine
end

