-- ==== Sys2Proof/Machine/BobMem.lean ====
section
/-! DEFINITION. A Bobbin's memory: the capability's checks (R292, R293), the scratchpad and atomics (R263, R264), line accesses (R265 to R267), fences
(R284), and the stitches of the data mover (R268 to R278). -/

namespace Sys2Proof.Machine

/-! The capability (R292, R293). -/

def capFlag (x : Bob) (i : Nat) : Bool := bit (x.cap.getD 0 0) i
def capTIER : Nat := 0
def capREMOTE : Nat := 1
def capSCRATCH : Nat := 2
def capPLEAT : Nat := 3
def capMIGRATE : Nat := 4

/-- Node ID of a global address (R56). -/
def gaNode (ga : Nat) : Nat := ga / 2 ^ 47 % 2 ^ 14
def gaLocal (s : State) (ga : Nat) : Bool := gaNode ga == ownNode s

/-- The range lies inside one valid window that grants the permission: bit 1 R, bit 2 W (R293). -/
def capRange (cap : List Nat) (ga len perm : Nat) : Bool :=
  (List.range 8).any fun w =>
    let a := cap.getD (1 + 2 * w) 0
    let z := cap.getD (2 + 2 * w) 0
    bit a 0 && bit a perm && decide (getBits a 12 49 ≤ ga / 4096) && decide ((ga + len - 1) / 4096 ≤ getBits z 12 49)

/-- The check of a range of logical memory; a range outside this node also needs REMOTE. An empty range touches nothing. -/
def capOk (s : State) (x : Bob) (ga len perm : Nat) : Bool :=
  len == 0 || (capRange x.cap ga len perm && ((gaLocal s ga && gaLocal s (ga + len - 1)) || capFlag x capREMOTE))

/-! The scratchpad. -/

def scratchSize : Nat := 0x20000

/-- `n` bytes at `a`, as a little-endian number; the access does not cross an 8-byte word, or is whole words. -/
def scrWord (x : Bob) (i : Nat) : Nat := (tabGet (fun _ => 0) x.scratch i).toNat
def scrPut (x : Bob) (i v : Nat) : Bob := { x with scratch := tabSet (fun _ => 0) x.scratch i (BitVec.ofNat 64 v) }

def scrByte (x : Bob) (a : Nat) : Nat := scrWord x (a / 8) / 2 ^ (8 * (a % 8)) % 256

/-- The bytes from `a` on. -/
def scrBytes (x : Bob) (a n : Nat) : Bytes := (List.range n).map fun i => scrByte x (a + i)

/-- A range meets an uncorrectable word (R428). -/
def scrLost (x : Bob) (a n : Nat) : Bool := x.lost.any (fun w => decide (w.1 * 8 < a + n) && decide (a < w.1 * 8 + 8))

/-- A full 8-byte write heals a word (R427); of a range, the words wholly in it. -/
def scrHeal (x : Bob) (a n : Nat) : Bob :=
  { x with lost := tabDrop (fun w => decide (a ≤ w * 8) && decide (w * 8 + 8 ≤ a + n)) x.lost }

/-- A write of a range meets an uncorrectable word that it does not replace whole: the narrow write is not applied (R427). -/
def scrNarrowLost (x : Bob) (a n : Nat) : Bool := scrLost (scrHeal x a n) a n

/-- The lost words of scratchpad `b` that an access at byte `a`, `n` bytes long, meets, those apart that a write replaces whole; the bank reports each of the
first `m` (R426). -/
def scrMet (b a n m : Nat) (wr : Bool) (s : State) : State :=
  let hit := fun (w : Nat) => decide (w * 8 < a + n) && decide (a < w * 8 + 8) && !(wr && decide (a ≤ w * 8) && decide (w * 8 + 8 ≤ a + n))
  (((s.bob b).lost.filter (fun w => hit w.1)).take m).foldl (fun t w => srmErr t (416 + b) w.1 true) s

/-- Store bytes from `a` on. -/
def scrStore (x : Bob) (a : Nat) : Bytes → Bob
  | [] => x
  | v :: r => scrStore (scrPut x (a / 8) (putBits (scrWord x (a / 8)) (8 * (a % 8)) 8 v)) (a + 1) r

/-- Scratch ranges that a stitch reads or writes. -/
def jobRanges (j : Job) : List (Nat × Nat) :=
  (if bit j.flags 0 ∧ j.kind ≠ 1 ∧ j.kind ≠ 7 then [(j.s, j.l)] else []) ++
  (if bit j.flags 1 ∧ (j.kind < 2 ∨ j.kind = 5 ∨ j.kind = 6) then [(j.d, if j.kind < 2 then j.l else getBits j.x 32 31)] else [])

def overlap (a n c m : Nat) : Bool := decide (a < c + m) && decide (c < a + n)

/-- The access meets a range of a running stitch (R283). -/
def scrRaces (x : Bob) (a n : Nat) : Bool := x.jobs.any (fun j => (jobRanges j).any (fun r => overlap a n r.1 r.2))

/-- A load of `n` bytes: what the scratchpad holds, or an unspecified value where a stitch runs on it (R283). -/
def scrLoad (s : State) (b a n : Nat) : Nat × State :=
  let x := s.bob b
  if scrRaces x a n then s.free (8 * n) else (leNat (scrBytes x a n), s)

/-- Leave unspecified content in a range. -/
def scrScramble (s : State) (b a n : Nat) : State :=
  let f := s.free (8 * n)
  f.2.setBob b (scrStore (f.2.bob b) a (leBytes n f.1))

/-- A store of bytes; one that meets the range of a running stitch leaves that range unspecified, and the stitch with it (R283). -/
def scrWrite (s : State) (b a : Nat) (d : Bytes) : State :=
  let x := s.bob b
  let hit := fun (j : Job) => (jobRanges j).any (fun r => overlap a d.length r.1 r.2)
  let s1 := s.setBob b (scrStore { scrHeal x a d.length with jobs := x.jobs.map (fun j => if hit j then { j with racy := true } else j) } a d)
  (x.jobs.filter hit).foldl (fun t j => ((jobRanges j).filter (fun r => overlap a d.length r.1 r.2)).foldl (fun u r => scrScramble u b r.1 r.2) t) s1

/-- A lost word ends the program (R428); each lost word that the access meets is reported (R426). -/
def scrFault (b a n : Nat) (t : State) : State := bobFault b C.SRM_E_WORD_LOST (scrMet b a n 8 false t)

/-- The checks of R263 on the exact address: aligned, then inside the scratchpad. -/
def scrCheck (a : Int) (n : Nat) : Option Nat :=
  if a % (n : Int) ≠ 0 then some C.BOB_E_ALIGN
  else if a < 0 ∨ (scratchSize : Int) < a + n then some C.BOB_E_SCRATCH_RANGE
  else none

/-- The exact address g[rb] + sext(imm13) × unit. -/
def scrAddr (x : Bob) (rb imm unit : Nat) : Int := ((x.gr rb).toNat : Int) + sextI 13 imm * unit

/-- LDS (R263): fn 0 to 3 zero-extend 1, 2, 4 or 8 bytes; fn 4 to 6 sign-extend 1, 2 or 4. -/
def execStLds (b rt rb fn imm : Nat) (s : State) : Res :=
  .next (issue b (if fn < 7 then wordC 0x10 rt rb fn imm else none) [] (fun x t =>
    let n := 2 ^ (fn % 4)
    let a := scrAddr x rb imm 1
    match scrCheck a n with
    | some st => bobFault b st t
    | none =>
      if scrLost x a.toNat n then scrFault b a.toNat n t else
      let r := scrLoad t b a.toNat n
      let v := if fn < 4 then BitVec.ofNat 64 r.1 else sext (8 * n) r.1
      retire b ((r.2.bob b).setG rt v) r.2) s)

/-- STS (R263): the low 1, 2, 4 or 8 bytes of g[rt]. -/
def execStSts (b rt rb fn imm : Nat) (s : State) : Res :=
  .next (issue b (if fn < 4 then wordC 0x11 rt rb fn imm else none) [] (fun x t =>
    let n := 2 ^ fn
    let a := scrAddr x rb imm 1
    match scrCheck a n with
    | some st => bobFault b st t
    | none =>
      if scrNarrowLost x a.toNat n then scrFault b a.toNat n t else
      let u := scrWrite t b a.toNat (leBytes n ((x.gr rt).toNat % 2 ^ (8 * n)))
      retire b (u.bob b) u) s)

/-- LDV (R263): 64 bytes, poison flag clear. -/
def execStLdv (b rt rb imm : Nat) (s : State) : Res :=
  .next (issue b (vregs [rt] (wordC 0x14 rt rb 0 imm)) [rt] (fun x t =>
    let a := scrAddr x rb imm 64
    match scrCheck a 64 with
    | some st => bobFault b st t
    | none =>
      if scrLost x a.toNat 64 then scrFault b a.toNat 64 t else
      let r := scrLoad t b a.toNat 64
      retire b ((r.2.bob b).setV rt (BitVec.ofNat 512 r.1) false) r.2) s)

/-- STV (R263): from a poisoned register it ends the program (R262). -/
def execStStv (b rt rb imm : Nat) (s : State) : Res :=
  .next (issue b (vregs [rt] (wordC 0x15 rt rb 0 imm)) [rt] (fun x t =>
    let a := scrAddr x rb imm 64
    if x.vpois rt then bobFault b C.BOB_E_POISON_USE t
    else match scrCheck a 64 with
    | some st => bobFault b st t
    | none =>
      let u := scrWrite t b a.toNat (lineBytes (x.vr rt))
      retire b (u.bob b) u) s)

/-- AADD and ASWP (R264): at the bank that holds the word; the old value goes to rd. DESIGN CHOICE (log entry 176): a fenced bank takes no access (R435), and the
instruction waits for it. -/
def atomic (b func rd rs1 rs2 : Nat) (f : Word → Word → Word) (s : State) : Res :=
  .next (issue b (wordA 3 rd rs1 rs2 func) [] (fun x t =>
    let a := (x.gr rs1).toNat
    let o := a / 2 ^ 17 % 64
    let off := a % 2 ^ 17
    if 2 ^ 23 ≤ a ∨ a % 8 ≠ 0 then bobFault b C.BOB_E_ALIGN t
    else if o ≠ b ∧ capFlag x capSCRATCH = false then bobFault b C.BOB_E_CAP t
    else if bankOut t (416 + o) then s
    else if scrLost (t.bob o) off 8 then bobFault b C.SRM_E_WORD_LOST (scrMet o off 8 8 false t)
    else
      let r := scrLoad t o off 8
      let old := BitVec.ofNat 64 r.1
      let d := leBytes 8 (f old (x.gr rs2)).toNat
      let u := scrWrite r.2 o off d
      retire b ((u.bob b).setG rd old) u) s)

def execStAadd (b rd rs1 rs2 : Nat) (s : State) : Res := atomic b 0 rd rs1 rs2 (· + ·) s
def execStAswp (b rd rs1 rs2 : Nat) (s : State) : Res := atomic b 1 rd rs1 rs2 (fun _ y => y) s

/-! Line access (R265 to R267). -/

/-- The Bobbin's class waits for a pass somewhere: no line access or transfer of it leaves (R444). -/
def classHeld (s : State) (b : Nat) : Bool := portHeld s (16 + bobClass s b)

/-- Guest address of a remote line (R244): beyond every logical address. -/
def guestLa (ga : Nat) : Nat := 2 ^ 47 + ga

/-- A line access leaves the Bobbin: to its home slice, or to a remote home over Seam. -/
def bobSend (s : State) (who : Requester) (kind : ReqKind) (ga : Nat) (d : Line) (mask : Nat) (poison : Bool) (master : Nat) : State :=
  if gaLocal s ga then
    { s with home := { s.home with toHome := s.home.toHome ++ [{ kind := kind, who := who, la := ga % 2 ^ 47, data := d, mask := mask, poison := poison, master := master, mval := 0 }] } }
  else
    { s with home := { s.home with guestReqs := s.home.guestReqs ++ [{ kind := kind, who := who, la := guestLa ga, data := d, mask := mask, poison := poison, master := master, mval := 0 }] } }

/-- Address of LDL and STL: g[rb] + sext(imm13) × 64. -/
def lineAddr (x : Bob) (rb imm : Nat) : Nat := (x.gr rb + BitVec.ofInt 64 (sextI 13 imm * 64)).toNat

/-- A posted store of the line register `v`. -/
def postStore (b v ga mask : Nat) (x : Bob) (t : State) : State :=
  if ga % 64 ≠ 0 then bobFault b C.BOB_E_ALIGN t
  else if capOk t x ga 64 2 = false then bobFault b C.BOB_E_CAP t
  else
    let u := bobSend t (.bob b x.io) .write ga (x.vr v) mask (x.vpois v) (16 + bobClass t b)
    retire b { x with io := x.io + 1, stores := x.stores ++ [x.io] } u

/-- LDL (R265, R266): a read current; only its register is held. -/
def execStLdl (b rt rb imm : Nat) (s : State) : Res :=
  .next (if classHeld s b then s else issue b (vregs [rt] (wordC 0x12 rt rb 0 imm)) [rt] (fun x t =>
    let ga := lineAddr x rb imm
    if ga % 64 ≠ 0 then bobFault b C.BOB_E_ALIGN t
    else if capOk t x ga 64 1 = false then bobFault b C.BOB_E_CAP t
    else
      let u := bobSend t (.bob b x.io) .readCurrent ga 0 0 false (16 + bobClass t b)
      retire b { x with io := x.io + 1, loads := x.loads ++ [⟨x.io, rt, x.pc⟩] } u) s)

/-- STL (R267). -/
def execStStl (b rt rb imm : Nat) (s : State) : Res :=
  .next (if classHeld s b then s else issue b (vregs [rt] (wordC 0x13 rt rb 0 imm)) [rt]
    (fun x t => postStore b rt (lineAddr x rb imm) fullMask x t) s)

/-- STLM (R265): bit j of g[rs2] enables byte j; a mask of zero does nothing. -/
def execStStlm (b rd rs1 rs2 : Nat) (s : State) : Res :=
  .next (if classHeld s b then s else issue b (vregs [rd] (wordA 4 rd rs1 rs2 0)) [rd] (fun x t =>
    if x.gr rs2 = 0 then retire b x t else postStore b rd (x.gr rs1).toNat (x.gr rs2).toNat x t) s)

/-- The data of a load arrives in its register, with the line's poison; or the status that ended the load ends the program (R262, R266). -/
def ldlReturn (b no : Nat) (s : State) : State :=
  match takeReply s b no with
  | (none, _) => s
  | (some r, s1) =>
    let x := s1.bob b
    match x.loads.find? (fun l => l.no == no) with
    | some l =>
      let y := { x with loads := x.loads.filter (fun e => e.no != no) }
      if 2 ≤ statusClass r.status then
        (if y.run = 1 then bobFaultAt b r.status l.pc (s1.setBob b y) else s1.setBob b y)
      else s1.setBob b (y.setV l.v r.data r.poison)
    | none => if x.stores.contains no then s else s1

def execLdlReturn (b no : Nat) (s : State) : Res := .next (ldlReturn b no s)

/-- A store has been applied at its home, or has ended; the first error status is held (R267). -/
def storeResult (b no : Nat) (s : State) : State :=
  let x := s.bob b
  if x.stores.contains no then
    match takeReply s b no with
    | (none, _) => s
    | (some r, s1) =>
      s1.setBob b { x with stores := x.stores.filter (· != no), held := if x.held = 0 ∧ 2 ≤ statusClass r.status then r.status else x.held }
  else s

def execStoreResult (b no : Nat) (s : State) : Res := .next (storeResult b no s)

/-! Fences and ends (R284 to R287). -/

/-- Every store issued has been applied or has ended; every stitch issued is DONE. -/
def storesDone (x : Bob) : Bool := x.stores.isEmpty
def stitchesDone (x : Bob) : Bool := x.jobs.isEmpty

/-- After a fence, a held store status ends the program (R267). -/
def orHeld (b : Nat) (f : Bob → State → State) (x : Bob) (t : State) : State := if x.held ≠ 0 then bobFault b x.held t else f x t

/-- A fence waits while its condition does not hold. -/
def fence (b imm : Nat) (ready : Bob → Bool) (f : Bob → State → State) (s : State) : Res :=
  .next (if ready (s.bob b) then issue b (wordB 0x33 0 0 imm) [] f s else s)

def execStFenceL (b : Nat) (s : State) : Res := fence b 0 storesDone (orHeld b (retire b)) s
def execStFenceT (b : Nat) (s : State) : Res := fence b 1 stitchesDone (retire b) s
def execStFenceA (b : Nat) (s : State) : Res := fence b 2 (fun x => storesDone x && stitchesDone x) (orHeld b (retire b)) s

/-- POST (R285): after a FENCE A it claims the slot and its record is written; a second POST ends the program. -/
def postEffect (b rd rs1 rs2 : Nat) (x : Bob) (t : State) : State :=
  let won := !slotClaimed t x.q x.n
  let t1 := if won then sendRecord (claimSlot t x.q x.n ((x.gr rs1).toNat % 65536) (x.gr rs2).toNat) x.q x.n else t
  retire b ({ t1.bob b with posted := true }.setG rd (if won then 0 else BitVec.ofNat 64 C.BOB_W_ABORTED_FIRST)) t1

def execStPost (b rd rs1 rs2 : Nat) (s : State) : Res :=
  let w := wordA 0x34 rd rs1 rs2 0
  let x := s.bob b
  .next (if x.posted then issue b w [] (fun _ t => bobFault b C.BOB_E_POST_TWICE t) s
    else if storesDone x ∧ stitchesDone x then issue b w [] (orHeld b (postEffect b rd rs1 rs2)) s
    else s)

/-- The Bobbin is freed and its command ends; a claim that still has no record gets it (R286, R287). -/
def bobEnd (b : Nat) (s : State) : State :=
  let x := s.bob b
  cmdEnd (bobFree b (sendRecord s x.q x.n)) x.q x.n

/-- END (R286): after a FENCE A the program ends; without a POST the engine completes it with BOB_E_NO_POST. -/
def execStEnd (b : Nat) (s : State) : Res :=
  let x := s.bob b
  .next (if storesDone x ∧ stitchesDone x then
      issue b (some (0x35 * 2 ^ 26)) [] (orHeld b (fun x t => bobEnd b (evSlots b 0 1 (if x.posted then t else claimSlot t x.q x.n C.BOB_E_NO_POST 0)))) s
    else s)

/-- Transfers of the Bobbin's data mover that are still under way: at a home slice, on their way there, or on Seam. -/
def moverBusy (s : State) (b : Nat) : Bool :=
  let mine := fun (r : HomeReq) => match r.who with
    | .stitch c _ => c == b
    | _ => false
  let sent := fun (t : Txn) => match t.ask with
    | .line r => mine r
    | _ => false
  s.home.waiting.any mine || s.home.toHome.any mine || s.home.guestReqs.any mine || s.seam.txs.any sent

/-- A drained program's Bobbin is freed (R287, R288); after a hardware fault the engine claims an unclaimed slot, or relaunches the command once
on another Bobbin (R317), once the collector has ended its page operations (R74). -/
def drainComplete (b : Nat) (s : State) : State :=
  let x := s.bob b
  -- in Halt no program drains and no record is written (R320, R472)
  if s.devLevel = 4 then s else
  let opsOver := x.disc = none ∧ s.tier.ops.all (fun o => !(decide (o.kind < 2) && o.bob == b))
  if x.run = 2 ∧ storesDone x ∧ stitchesDone x ∧ x.opRd = none ∧ x.disc = none then bobEnd b s
  else if x.run = 4 ∧ storesDone x ∧ moverBusy s b = false ∧ opsOver then
    let c := (s.spool x.q).cmds.find? (fun c => c.n == x.n)
    if (c.any (fun e => e.claim.isNone && e.failed.isNone)) ∧ s.fget (SPL_CFG x.q) F.SPL_CFG_RERUN = 1 then
      bobFree b (cmdUpd s x.q x.n (fun e => { e with stage := 0, bob := 255, failed := some b }))
    else bobEnd b (claimSlot s x.q x.n C.BOB_E_ENGINE_FAILED x.last)
  else s

def execProgramDrainComplete (b : Nat) (s : State) : Res := .next (drainComplete b s)

/-- MAXTIME has passed since launch (R288): an instruction that has begun its page operation ends first. -/
def programTimeout (b : Nat) (s : State) : State :=
  let x := s.bob b
  if x.run = 1 ∧ getBits (x.cap.getD 0 0) 16 16 ≠ 0 then progFault b C.BOB_E_TIMEOUT x.pc s else s

def execProgramTimeout (b : Nat) (s : State) : Res := .next (programTimeout b s)

/-- The page operations that the Bobbin carries end under R74, once the collector has fenced it: the page stays where its descriptor says, and its busy bit
is cleared. -/
def bobOpsEnd (b : Nat) (s : State) : State :=
  let mine := s.tier.ops.filter (fun o => o.kind < 2 && o.bob == b)
  let s1 := mine.foldl (fun t o => setBusy { t with tier := { t.tier with ops := t.tier.ops.erase o } } o.lpn false) (giveUp b s)
  pump (s1.setBob b { s1.bob b with opRd := none })

/-- The Bobbin stops at once (R289); its page operations go no further, and end when the collector fences it (R74). -/
def bobStop (b : Nat) (s : State) : State :=
  let x := s.bob b
  let r := BOB_PROGFLT b
  if x.run = 0 ∨ x.run = 4 then s
  else
    let s1 := (((s.fset r F.BOB_PROGFLT_STATUS C.BOB_F_ENGINE).fset r F.BOB_PROGFLT_INDEX x.last).fset r F.BOB_PROGFLT_SPOOL x.q)
    let s2 := (s1.fsat r F.BOB_PROGFLT_COUNT 1).fset r F.BOB_PROGFLT_VALID 1
    let s3 := x.jobs.foldl (fun t j => laneDrop t 4 (jobWork b j.tag)) s2
    s3.setBob b { s3.bob b with run := 4, jobs := [] }

/-- A hardware check fails in the Bobbin (R289). -/
def engineFault (b : Nat) (s : State) : State := if b < 64 then (bobStop b s).report (srcId 4 b) 0 C.BOB_F_ENGINE 0 0 else s

def execBobbinEngineFault (b : Nat) (s : State) : Res := .next (engineFault b s)

/-! Collecting outcomes (R278). -/

/-- WAIT: waits while the tag is RUNNING. -/
def execStWait (b rd tag : Nat) (s : State) : Res :=
  .next (if ((s.bob b).tag tag).st = 1 then s
    else issue b (if tag < 16 then wordB 0x30 rd 0 tag else none) [] (fun x t =>
      retire b (x.setG rd (if (x.tag tag).st = 2 then BitVec.ofNat 64 (x.tag tag).status else 0)) t) s)

def execStTest (b rd tag : Nat) (s : State) : Res :=
  .next (issue b (if tag < 16 then wordB 0x31 rd 0 tag else none) [] (fun x t =>
    let g := x.tag tag
    retire b (x.setG rd (BitVec.ofNat 64 (if g.st = 2 then g.status else if g.st = 1 then C.BOB_S_PENDING else 0))) t) s)

def execStTres (b rd tag : Nat) (s : State) : Res :=
  .next (issue b (if tag < 16 then wordB 0x32 rd 0 tag else none) [] (fun x t =>
    retire b (x.setG rd (if (x.tag tag).st = 2 then BitVec.ofNat 64 (x.tag tag).result else 0)) t) s)

/-! Slots in which no instruction issues (R452). -/

/-- Line registers that the instruction word reads or writes (R256). -/
def wordRegs (w : Nat) : List Nat :=
  let op := getBits w 26 6
  let fu := getBits w 0 11
  let rd := getBits w 21 5
  let rs1 := getBits w 16 5
  let rs2 := getBits w 11 5
  if op = 0x02 then
    if fu = 0 then [rd, rs1] else if fu < 4 then [rd, rs1, rs2] else if fu < 8 then [rd] else if fu < 16 then [rs1] else if fu < 24 then [rd] else [rs1, rs2]
  else if op = 0x04 ∨ (0x12 ≤ op ∧ op ≤ 0x15) then [rd]
  else if op = 0x20 then (if fu < 3 then [rs2] else if fu = 3 then [rs2, rs2 ^^^ 1] else [])
  else []

/-- The instruction at the PC waits: for a load's result, a descriptor operation, WAIT, a FENCE, or the fence of POST or END. -/
def backStarved (x : Bob) : Bool :=
  let w := tabGet (fun _ => 0) x.text x.pc
  let op := getBits w 26 6
  let imm := getBits w 0 16
  x.opRd.isSome || x.disc.isSome || x.waits || !vfree x (wordRegs w) ||
    (op == 0x20 && !storesDone x) ||
    (op == 0x30 && (x.tag imm).st == 1) ||
    (op == 0x33 && ((imm != 1 && !storesDone x) || (imm != 0 && !stitchesDone x))) ||
    ((op == 0x35 || (op == 0x34 && !x.posted)) && !(storesDone x && stitchesDone x))

/-- A nanosecond, two slots of class I (R290), of a Bobbin that issues nothing: front-starved while its image loads, back-starved while its instruction
waits. -/
def slotTick (s : State) (b : Nat) : State :=
  let x := s.bob b
  if x.run = 3 then evSlots b 2 2 s
  else if x.run = 1 ∧ backStarved x then evSlots b 3 2 s
  else s

end Sys2Proof.Machine
end

