-- ==== Sys2Proof/Machine/BobStitch.lean ====
section
/-! DEFINITION. The stitches (R268 to R277): their issue and its checks, and the data mover's run of one stitch, which ends at STITCH_DONE. -/

namespace Sys2Proof.Machine

/-! Issue (R268, R269, R293). -/

def jobStream (x : Nat) : Bool := bit x 2
def jobCap (x : Nat) : Nat := getBits x 32 31

/-- A parameter is out of range (R268, R269, R274, R276, R277). -/
def badParam (s : State) (kind d sr l x flags rl : Nat) : Bool :=
  let ssp := bit flags 0
  let dsp := bit flags 1
  let scr := fun (a n : Nat) => decide (scratchSize < a + n)
  let gaBad := fun (a : Nat) => decide (2 ^ 61 ≤ a)
  if rl % 2 = 1 then true
  else if kind = 7 then
    ssp || dsp || d % 4096 != 0 || sr % 4096 != 0 || x != 0 || gaBad d || gaBad sr ||
    (if bit flags 2 then d != sr || l != 1 || !gaLocal s d else l == 0 || decide (4096 < l))
  else
    let dl := if kind = 5 ∨ kind = 6 then jobCap x else l
    bit flags 2 || decide (2 ^ 30 < l) ||
    ((kind == 5 || kind == 6) && (getBits x 13 19 != 0 || bit x 63 ||
      (if jobStream x then kind == 5 && (getBits x 5 8 == 0 || decide (128 < getBits x 5 8))
       else if kind = 5 then l != 4096 || decide (dl < 3584)
       else decide (l < 16) || decide (dl < 4096)))) ||
    (kind == 1 && (d % 8 != 0 || l % 8 != 0)) ||
    (kind == 4 && (sr % 8 != 0 || l % 8 != 0)) ||
    (kind != 1 && (if ssp then scr sr l else gaBad sr)) ||
    ((kind == 0 || kind == 1 || kind == 5 || kind == 6) && (if dsp then scr d dl else gaBad d))

/-- Ranges of logical memory that the stitch touches, with the permission each needs: 1 R, 2 W (R293). -/
def jobWindows (kind d sr l x flags : Nat) : List (Nat × Nat × Nat) :=
  if kind = 7 then (if bit flags 2 then [] else [(sr, l * 4096, 1), (d, l * 4096, 2)])
  else
    (if kind ≠ 1 ∧ bit flags 0 = false then [(sr, l, 1)] else []) ++
    (if (kind = 0 ∨ kind = 1) ∧ bit flags 1 = false then [(d, l, 2)] else []) ++
    (if (kind = 5 ∨ kind = 6) ∧ bit flags 1 = false then [(d, jobCap x, 2)] else [])

/-- HASH64 (R272). -/
def hash64Loop : Nat → Bytes → Nat → Nat
  | 0, _, h => h
  | n + 1, b, h =>
    if b.isEmpty then h
    else
      let w := leNat (b.take 8)
      let a := (h ^^^ (w * 0xC7F12B960A5E83D3 % 2 ^ 64))
      let r := (a * 2 ^ 29 + a / 2 ^ 35) % 2 ^ 64
      hash64Loop n (b.drop 8) (r * 0x91E64D2FB83A7C55 % 2 ^ 64)

def hash64 (b : Bytes) (seed : Nat) : Nat :=
  let h := hash64Loop (b.length / 8 + 1) b (seed ^^^ (b.length * 0x5D3A61C9E48B0F27 % 2 ^ 64))
  let h1 := h ^^^ (h / 2 ^ 32)
  let h2 := h1 * 0xC7F12B960A5E83D3 % 2 ^ 64
  h2 ^^^ (h2 / 2 ^ 29)

/-- CRC-32C of `b` after bytes whose CRC is `c` (R150, R271). -/
def crc32cFrom (c : Nat) (b : Bytes) : Nat := crc32cUpd (c % 2 ^ 32 ^^^ 0xffffffff) b ^^^ 0xffffffff

/-- SCAN (R273): byte offset of the first matching word at or after offset `i`. -/
def scanFrom (mask pat : Nat) : Nat → Bytes → Nat → Option Nat
  | 0, _, _ => none
  | n + 1, b, i =>
    if b.length < 8 then none
    else if leNat (b.take 8) &&& mask = pat &&& mask then some i
    else scanFrom mask pat n (b.drop 8) (i + 8)

def scan (mask pat : Nat) (b : Bytes) : Option Nat := scanFrom mask pat (b.length / 8 + 1) b 0

/-- A length of zero completes at once (R268); the stream CMPR that writes an end block has its work still (R175). -/
def zeroJob (kind l x : Nat) : Option Nat :=
  if l ≠ 0 ∨ kind = 7 then none
  else if kind = 5 ∧ bit x 4 then none
  else some (if kind = 2 then x % 2 ^ 32 else if kind = 3 then hash64 [] x else if kind = 4 then 2 ^ 64 - 1 else 0)

/-- STITCH issues a stitch of a kind on a tag. -/
def stitchIssue (b kind rd rs rl tag flags : Nat) (x : Bob) (t : State) : State :=
  let d := (x.gr rd).toNat
  let sr := (x.gr rs).toNat
  let l := (x.gr rl).toNat
  let y := if rl = 31 then 0 else (x.gr (rl + 1)).toNat
  let need := if kind = 5 ∨ kind = 6 then some capPLEAT else if kind = 7 then some (if bit flags 2 then capTIER else capMIGRATE) else none
  let bad := badParam t kind d sr l y flags rl
  let done := fun (st r : Nat) => retire b (x.setTag tag { st := 2, status := st, result := r }) (traceBob b x t)
  if (match need with
    | some f => !capFlag x f
    | none => false) then bobFault b C.BOB_E_CAP t
  else if bad = false ∧ (jobWindows kind d sr l y flags).any (fun w => !capOk t x w.1 w.2.1 w.2.2) then bobFault b C.BOB_E_CAP t
  else if (x.tag tag).st = 1 then bobFault b C.BOB_E_TAG_BUSY t
  else if bad then done (if kind = 5 ∨ kind = 6 then C.PLT_E_BAD_JOB else C.BOB_E_PARAM) 0
  else match zeroJob kind l y with
    | some r => done 0 r
    | none =>
      let j : Job := { tag := tag, kind := kind, flags := flags, d := d, s := sr, l := l, x := y, after := x.io, racy := false, lines := [],
                       prod := none, progress := 0, asked := false }
      retire b { x.setTag tag { st := 1, status := 0, result := 0 } with jobs := x.jobs ++ [j] } (traceBob b x t)

def stitchCmd (b kind rd rs rl tag flags : Nat) (s : State) : Res :=
  .next (issue b (wordE kind rd rs rl tag flags) [] (orHeld b (stitchIssue b kind rd rs rl tag flags)) s)

def execStCopy (b rd rs rl tag flags : Nat) (s : State) : Res := stitchCmd b 0 rd rs rl tag flags s
def execStFill (b rd rs rl tag flags : Nat) (s : State) : Res := stitchCmd b 1 rd rs rl tag flags s
def execStCrc32c (b rd rs rl tag flags : Nat) (s : State) : Res := stitchCmd b 2 rd rs rl tag flags s
def execStHash64 (b rd rs rl tag flags : Nat) (s : State) : Res := stitchCmd b 3 rd rs rl tag flags s
def execStScan (b rd rs rl tag flags : Nat) (s : State) : Res := stitchCmd b 4 rd rs rl tag flags s
def execStCmpr (b rd rs rl tag flags : Nat) (s : State) : Res := stitchCmd b 5 rd rs rl tag flags s
def execStDcmpr (b rd rs rl tag flags : Nat) (s : State) : Res := stitchCmd b 6 rd rs rl tag flags s

/-- MIGRATE with flags[2] clear (R276). -/
def execStMigrate (b rd rs rl tag flags : Nat) (s : State) : Res := if bit flags 2 then .next s else stitchCmd b 7 rd rs rl tag flags s

/-- MIGRATE with flags[2] set (R277). -/
def execStMigrateRelocate (b rd rs rl tag flags : Nat) (s : State) : Res := if bit flags 2 then stitchCmd b 7 rd rs rl tag flags s else .next s

/-! The run of a stitch. -/

/-- Source bytes of the stitch in logical memory; none when its source is in the scratchpad or it has none. -/
def jobSource (j : Job) : Option (Nat × Nat) :=
  if j.kind = 1 then none
  else if bit j.flags 0 then none
  else some (j.s, j.l)

/-- Lines of a byte range. -/
def lineCount (a n : Nat) : Nat := if n = 0 then 0 else (a + n - 1) / 64 - a / 64 + 1

/-- One line access of a stitch: its reply, or none while it is under way. -/
def jobAccess (b : Nat) (j : Job) (kind : ReqKind) (ga : Nat) (d : Line) (mask : Nat) (poison : Bool) (s : State) : Option BobReply × State :=
  match takeReply s (64 + b) j.tag with
  | (some r, s1) => (some r, s1)
  | (none, _) =>
    if j.asked then (none, s)
    else
      let m := 16 + bobClass s b
      let who := Requester.stitch b j.tag
      let s1 := if gaLocal s ga then homeTake { kind := kind, who := who, la := ga % 2 ^ 47, data := d, mask := mask, poison := poison, master := m, mval := 0 } s
        else bobSend s who kind ga d mask poison m
      takeReply s1 (64 + b) j.tag

/-- The lines that a write of bytes at `d` makes; `bad i` says that byte i comes from a poisoned line. -/
def lineWrites (d : Nat) (data : Bytes) (bad : Nat → Bool) : List JobWrite :=
  (List.range (lineCount d data.length)).map fun k =>
    let ga := (d / 64 + k) * 64
    let idx := fun (i : Nat) => ga + i - d
    let inside := fun (i : Nat) => decide (d ≤ ga + i) && decide (ga + i < d + data.length)
    let bytes := (List.range 64).map fun i => if inside i then data.getD (idx i) 0 else 0
    { ga := ga, mask := (List.range 64).foldl (fun m i => if inside i then m + 2 ^ i else m) 0, data := lineOf bytes,
      poison := (List.range 64).any (fun i => inside i && bad (idx i)), upto := min (ga + 64 - d) data.length }

/-- Put the product of a stitch in place: lines of logical memory still to be written, or the scratchpad at once. Racing scratch content is unspecified. -/
def jobProduct (b : Nat) (j : Job) (st res : Nat) (data : Bytes) (bad : Nat → Bool) (s : State) : Job × State :=
  if data.isEmpty then ({ j with prod := some (st, res, []), asked := false }, s)
  else if bit j.flags 1 ∧ j.kind ≠ 7 then
    if scrNarrowLost (s.bob b) j.d data.length then ({ j with prod := some (C.SRM_E_WORD_LOST, 0, []), asked := false }, scrMet b j.d data.length 2 true s) else
    let f := if j.racy then s.free (8 * data.length) else (0, s)
    let out := if j.racy then leBytes data.length f.1 else data
    ({ j with prod := some (st, res, []), progress := data.length, asked := false }, f.2.setBob b (scrStore (scrHeal (f.2.bob b) j.d out.length) j.d out))
  else ({ j with prod := some (st, res, lineWrites j.d data bad), asked := false }, s)

/-- Pleat unit of a Bobbin's jobs (R275). -/
def stitchUnit (n : Nat) : Nat := 2 * (min 6 (max 1 (n / 8)) - 1) + n % 2 + (if 4 ≤ n % 8 then 12 else 0)

/-- The unit that takes a stitch job for unit `u`: itself, or its stand-in (R184), the next of its group in service. DESIGN CHOICE (log entry 127): a stand-in whose own
STREAM_EN is 0 passes the job on as well, and with no unit left the job ends with PLT_E_UNIT_FAILED. -/
def streamUnit (s : State) (u : Nat) : Nat → Nat → Option Nat
  | 0, _ => none
  | n + 1, k =>
    let v := u / 12 * 12 + (u % 12 + k) % 12
    if s.fget (PLT_STAT v) F.PLT_STAT_FENCED = 0 ∧ s.fget (PLT_CFG v) F.PLT_CFG_STREAM_EN = 1 then some v else streamUnit s u n (k + 1)

def packCounts (consumed produced : Nat) (sawEnd : Bool) : Nat := consumed % 2 ^ 32 + produced % 2 ^ 31 * 2 ^ 32 + (if sawEnd then 2 ^ 63 else 0)

/-- CMPR (R274). A page image is decoded by a second lane before the job ends (R183). -/
def jobCmpr (b u : Nat) (j : Job) (src : Bytes) (s : State) : Job × State :=
  let ml := max 7 (s.fget (PLT_CFG u) F.PLT_CFG_DYN_MAXLEN)
  let eff := j.x % 4
  if jobStream j.x then
    let r := streamCompress eff ml (getBits j.x 5 8 * 512) (jobCap j.x) (bit j.x 3) (bit j.x 4) src
    jobProduct b j r.status (packCounts r.consumed r.out.length false) r.out (fun _ => false) s
  else match encodePage eff ml src with
    | some im =>
      let s := s.diagAdd dgVERIFY u 1
      if verified im src then jobProduct b j 0 (packCounts 4096 im.image.length false) im.image (fun _ => false) (s.ev (0x280 + 4 * u + 1))
      else jobProduct b j C.PLT_E_UNIT_FAILED 0 [] (fun _ => false) ((s.diagAdd dgVERBAD u 1).report (srcId 3 u) 0 C.PLT_F_UNIT 0 0)
    | none => jobProduct b j C.PLT_E_NO_GAIN 0 [] (fun _ => false) (s.ev (0x280 + 4 * u + 2))

/-- DCMPR (R274); an error goes to PLT_ERR (R185). What a failing block leaves in its destination is unspecified (R176, log entry 130). DESIGN CHOICE (log entry
128): PLT_ERRLOC.LA of a source in the scratchpad is its scratch offset. -/
def jobDcmpr (b u : Nat) (j : Job) (src : Bytes) (s : State) : Job × State :=
  if jobStream j.x then
    let r := streamDecompress (jobCap j.x) src
    let s1 := match r.2 with
      | some e => pltError s u e 1 1 ((j.s + r.1.consumed) % 2 ^ 47)
      | none => s
    let f := if r.1.spoil = 0 then (0, s1) else s1.free (8 * r.1.spoil)
    jobProduct b j r.1.status (packCounts r.1.consumed r.1.out.length r.1.sawEnd) (r.1.out ++ leBytes r.1.spoil f.1) (fun _ => false) (f.2.evN (0x280 + 4 * u) r.1.segs)
  else match decodePage src with
    | .ok out => jobProduct b j 0 (packCounts src.length 4096 false) out (fun _ => false) (s.evN (0x280 + 4 * u) 8)
    | .error e => jobProduct b j e.code 0 [] (fun _ => false) (pltError s u e 0 1 (j.s % 2 ^ 47))

/-- What the stitch yields from its source. `cut`: the first poisoned line stopped a COPY into the scratchpad; `u`: the Pleat unit of a CMPR or DCMPR. -/
def jobCompute (b u : Nat) (j : Job) (src : Bytes) (bad : Nat → Bool) (cut : Bool) (s : State) : Job × State :=
  match j.kind with
  | 0 =>
    let crossed := decide (bit j.flags 0 = bit j.flags 1) && overlap j.s j.l j.d j.l
    let f := if crossed then s.free (8 * src.length) else (0, s)
    let data := if crossed then leBytes src.length f.1 else src
    if cut then jobProduct b j C.BOB_E_POISON src.length data (fun _ => false) f.2
    else jobProduct b j (if (List.range src.length).any bad then C.BOB_W_POISON_COPIED else 0) src.length data bad f.2
  | 1 => jobProduct b j 0 j.l ((List.range (j.l / 8)).flatMap fun _ => leBytes 8 j.s) (fun _ => false) s
  | 2 => jobProduct b j 0 (crc32cFrom j.x src) [] (fun _ => false) s
  | 3 => jobProduct b j 0 (hash64 src j.x) [] (fun _ => false) s
  | 4 => jobProduct b j 0 ((scan j.d j.x src).getD (2 ^ 64 - 1)) [] (fun _ => false) s
  | 5 => jobCmpr b u j src s
  | _ => jobDcmpr b u j src s

/-- A CMPR or DCMPR is class 4 work of its Pleat unit (R182, R275): it waits for its lanes, eight for a page and one for a stream (log entry 169), which it keeps until
it ends, and ends with PLT_E_UNIT_FAILED when its
unit is fenced (R184). The other kinds need none. -/
def jobLane (b : Nat) (j : Job) (s : State) : LaneRes × Nat :=
  if j.kind ≠ 5 ∧ j.kind ≠ 6 then (.got s, 0)
  else match streamUnit s (stitchUnit b) 12 0 with
    | none => (.failed s, 0)
    | some u =>
      let page := !jobStream j.x
      let n := if page then pageLanes else 1
      let enc := page && j.kind == 5
      (match laneFor s u 4 (jobWork b j.tag) n enc with
      | .got t => .got { t with tier := { t.tier with pleat := t.tier.pleat ++ [⟨u, 4, jobWork b j.tag, n, n, enc, true, false⟩] } }
      | r => r, u)

/-- The Pleat unit has failed under the stitch. -/
def laneLost (s : State) (b : Nat) (j : Job) : Bool := s.tier.pleat.any (fun w => w.cls == 4 && w.la == jobWork b j.tag && w.failed)

/-- The bytes read so far, and which of them are poisoned. -/
def jobBytes (j : Job) (a n : Nat) : Bytes := ((j.lines.reverse.flatMap fun l => lineBytes l.1).drop (a % 64)).take n
def jobBad (j : Job) (a : Nat) (i : Nat) : Bool := ((j.lines.reverse.getD ((a % 64 + i) / 64) (0, false)).2)

/-- How far a stitch has come. -/
inductive JobEnd where
  | waits (j : Job)
  | done (st res : Nat)
  deriving DecidableEq, Repr

/-- Poison where the result depends on the data (R270). -/
def poisonStops (j : Job) : Bool := (j.kind == 0 && bit j.flags 1) || j.kind != 0

/-- The outcome of a stitch's source is computed; the stitch goes on from it by `k`. -/
def jobYield (b : Nat) (j : Job) (src : Bytes) (bad : Nat → Bool) (cut : Bool) (k : Job → State → JobEnd × State) (s : State) : JobEnd × State :=
  match jobLane b j s with
  | (.wait s1, _) => (.waits j, s1)
  | (.failed s1, _) => (.done C.PLT_E_UNIT_FAILED 0, s1)
  | (.got s1, u) =>
    let c := jobCompute b u j src bad cut s1
    k c.1 c.2

/-- Run the stitch from where it stands. One whose Pleat unit has failed ends once the line access that it has under way has been applied (R278). -/
def jobRun (b : Nat) : Nat → Job → State → JobEnd × State
  | 0, j, s => (.waits j, s)
  | n + 1, j, s =>
    if laneLost s b j ∧ j.asked = false then (.done C.PLT_E_UNIT_FAILED j.progress, s) else
    match j.prod with
    | some (st, res, []) => (.done st res, s)
    | some (st, res, w :: ws) =>
      (match jobAccess b j .write w.ga w.data w.mask w.poison s with
      | (none, s1) => (.waits { j with asked := true }, s1)
      | (some r, s1) =>
        if 2 ≤ statusClass r.status then (.done r.status j.progress, s1)
        else jobRun b n { j with prod := some (st, res, ws), progress := w.upto, asked := false } s1)
    | none =>
      match jobSource j with
      | none =>
        if j.kind ≠ 1 ∧ scrLost (s.bob b) j.s j.l then (.done C.SRM_E_WORD_LOST 0, scrMet b j.s j.l 1 false s) else
        let f := if j.racy then s.free (8 * j.l) else (0, s)
        let src := if j.kind = 1 then [] else if j.racy then leBytes j.l f.1 else scrBytes (s.bob b) j.s j.l
        jobYield b j src (fun _ => false) false (jobRun b n) f.2
      | some (a, len) =>
        let cnt := j.lines.length
        if cnt = lineCount a len then jobYield b j (jobBytes j a len) (jobBad j a) false (jobRun b n) s
        else
          (match jobAccess b j .readCurrent ((a / 64 + cnt) * 64) 0 0 false s with
          | (none, s1) => (.waits { j with asked := true }, s1)
          | (some r, s1) =>
            let upto := if cnt = 0 then 0 else (a / 64 + cnt) * 64 - a
            if 2 ≤ statusClass r.status then (.done r.status j.progress, s1)
            else if r.poison ∧ poisonStops j then
              if j.kind = 0 then jobYield b j (jobBytes j a upto) (fun _ => false) true (jobRun b n) s1
              else (.done C.BOB_E_POISON 0, s1)
            else
              let j1 := { j with lines := (r.data, r.poison) :: j.lines, asked := false }
              let seen := jobBytes j1 a (min len ((a / 64 + cnt + 1) * 64 - a))
              if j.kind = 4 ∧ (scan j.d j.x seen).isSome then (.done 0 ((scan j.d j.x seen).getD 0), s1)
              else jobRun b n j1 s1)

/-- A MIGRATE copy (R276): line by line in ascending order, each read and then written. DESIGN CHOICE (log entry 158): a poisoned source line is stored as poison, and
the stitch ends with BOB_W_POISON_COPIED, as R270 has it of a COPY. `prod` holds the status so far and the line still to be written. -/
def copyRun (b : Nat) : Nat → Job → State → JobEnd × State
  | 0, j, s => (.waits j, s)
  | n + 1, j, s =>
    let st := match j.prod with
      | some (v, _, _) => v
      | none => 0
    match j.prod with
    | some (_, _, w :: _) =>
      (match jobAccess b j .write w.ga w.data w.mask w.poison s with
      | (none, s1) => (.waits { j with asked := true }, s1)
      | (some r, s1) =>
        if 2 ≤ statusClass r.status then (.done r.status (j.progress / 4096), s1)
        else copyRun b n { j with prod := some (st, 0, []), progress := w.upto, asked := false } s1)
    | _ =>
      if j.l * 4096 ≤ j.progress then (.done st j.l, s)
      else
        (match jobAccess b j .readCurrent (j.s + j.progress) 0 0 false s with
        | (none, s1) => (.waits { j with asked := true }, s1)
        | (some r, s1) =>
          if 2 ≤ statusClass r.status then (.done r.status (j.progress / 4096), s1)
          else
            let w : JobWrite := { ga := j.d + j.progress, mask := fullMask, data := r.data, poison := r.poison, upto := j.progress + 64 }
            copyRun b n { j with prod := some (if r.poison then C.BOB_W_POISON_COPIED else st, 0, [w]), asked := false } s1)

/-- The lines that a stitch reads and writes, at most. -/
def jobFuel (j : Job) : Nat := 2 * (j.l * (if j.kind = 7 then 4096 else 1) / 64) + jobCap j.x / 64 + 16

/-- Lines of a page that could not be read from DRAM, with their data where the cache holds them, and as poison otherwise (R126, R140). -/
def orCached (s : State) (lpn : Nat) (p : PageData) : PageData :=
  (p.zip (mergeCached s lpn 64 0 p)).map fun x => if x.1.2 then x.2 else x.1

/-- A relocation (R277): under its busy bit the page moves to a new frame of its group on another channel, encrypted afresh under the attributes of its range (R82);
its frame is given back in the result. Lines that stay dirty have their copies where the page becomes protected (R83, R121). -/
def relocatePage (s : State) (lpn : Nat) : Option (Nat × Nat) × State :=
  if pagesL s ≤ lpn then (some (C.TIR_E_STATE, 0), s)
  else
    let s0 := descFill s lpn
    match descOf s0 lpn with
    | none => (none, s0)
    | some d =>
      if canBusy s0 lpn = false then (none, busyWait s0 lpn)
      else if dHot d = false then (some (C.TIR_E_STATE, 0), s0)
      else
        let la := lpn * 4096
        let c := dChan d
        let was := dState d == stMIRROR
        let mirror := mirrorAttr s0 la
        let copies := if mirror then protectLines s0 [] (pageLines lpn) else (true, s0)
        if pageWaits s0 d then (none, s0)
        else if copies.1 = false then (none, copies.2)
        else
          let s0 := copies.2
          let s1 := raiseFloor s0 (dKreg d) (dEpoch d) (dMajor d + 1)
          match freshSlot s1 la with
          | .error st => (some (st, 0), s0)
          | .ok (k, e) =>
            match framePopBut s1 (groupFor s0 la) mirror (if was then [c, c + 6] else if mirror ∧ 6 ≤ c % 12 then [c, c - 6] else [c]) with
            | none => (some (C.TIR_E_NO_FRAME, 0), frameEmpty s0 (groupFor s0 la))
            | some (c', f', s2) =>
              let r := hotPage (setBusy s2 lpn true) lpn d
              let p := if r.1.any (·.2) then orCached r.2 lpn r.1 else r.1
              let s3 := unblock (placeAt r.2 lpn c' f' k e mirror p (dAcc d)) (dKreg d) lpn
              (some (0, dFrame d + 2 ^ 36 + (if was then 2 ^ 37 else 0)), pump (setBusy s3 lpn false))

/-- The tag becomes DONE. -/
def tagDone (b tag st res : Nat) (s : State) : State :=
  let x := s.bob b
  laneDrop (s.setBob b { x.setTag tag { st := 2, status := st, result := res } with jobs := x.jobs.filter (fun j => j.tag != tag) }) 4 (jobWork b tag)

/-- The stitch of a tag may run: one of the first four, and every earlier store has been applied (R271, R283). -/
def jobMayRun (s : State) (b tag : Nat) : Option Job :=
  let x := s.bob b
  match (x.jobs.take 4).find? (fun j => j.tag == tag) with
  | some j => if coreOpen s ∧ (x.run = 1 ∨ x.run = 2) ∧ classHeld s b = false ∧ x.stores.all (fun k => j.after ≤ k) then some j else none
  | none => none

/-- A stitch runs and its tag becomes DONE (R278); one that must wait keeps what it has done. -/
def stitchDone (b tag : Nat) (s : State) : State :=
  match jobMayRun s b tag with
  | none => s
  | some j =>
    if j.kind = 7 ∧ bit j.flags 2 then
      (match relocatePage s (j.d % 2 ^ 47 / 4096) with
      | (some (st, r), s1) => tagDone b tag st r s1
      | (none, s1) => s1)
    else
      match (if j.kind = 7 then copyRun b (jobFuel j) j s else jobRun b (jobFuel j) j s) with
      | (.done st r, s1) => tagDone b tag st r s1
      | (.waits j1, s1) => s1.setBob b { s1.bob b with jobs := (s1.bob b).jobs.map (fun k => if k.tag = tag then j1 else k) }

def execStitchDone (b tag : Nat) (s : State) : Res := .next (stitchDone b tag s)

end Sys2Proof.Machine
end

