-- ==== Sys2Proof/Machine/BobDesc.lean ====
section
/-! DEFINITION. The descriptor operations of a Bobbin (R279 to R281, R129, R132, R215) and the end of page operations (R132 steps 5 to 7). -/

namespace Sys2Proof.Machine

/-- A descriptor operation: it needs TIER, completes a FENCE L first (R279), and ends a program with a held store status. -/
def descOp (b : Nat) (w : Option Nat) (vs : List Nat) (f : Bob → State → State) (s : State) : Res :=
  let x := s.bob b
  .next (if capFlag x capTIER ∧ storesDone x = false then s
    else issue b w vs (fun x t => if capFlag x capTIER = false then bobFault b C.BOB_E_CAP t else orHeld b f x t) s)

/-- The operation ends with the outcome `v` in rd. -/
def descEnd (b rd v : Nat) (s : State) : State := retire b ((s.bob b).setG rd (BitVec.ofNat 64 v)) s

/-- The status of an LPN that names no page: bits above [34:0], or a page at or above L (R279). -/
def lpnStatus (s : State) (n : Nat) : Nat := if 2 ^ 35 ≤ n then C.BOB_E_PARAM else if pagesL s ≤ n then C.TIR_E_STATE else 0

/-- The page's descriptor at its home slice; the operation waits when it finds no place there (R72). -/
def withDesc (b rd : Nat) (n : Nat) (f : Desc → State → State) (old t : State) : State :=
  let st := lpnStatus t n
  if st ≠ 0 then descEnd b rd st t
  else
    let t1 := descFill t n
    match descOf t1 n with
    | none => { old with tier := t1.tier }
    | some d => f d t1

/-- DESCRD: the descriptor as held, with its busy bit; it does not wait for the bit. -/
def execStDescrd (b rd rs1 rs2 : Nat) (s : State) : Res :=
  descOp b (vregs [rs2] (wordA 0x20 rd rs1 rs2 0)) [rs2] (fun x t =>
    let n := (x.gr rs1).toNat
    withDesc b rd n (fun d u => descEnd b rd (if busyOf u n then 65536 else 0) (u.setBob b ((u.bob b).setV rs2 d false))) s t) s

/-- R215: why a descriptor may not be written, or 0. -/
def descWrStatus (s : State) (old new : Desc) : Nat :=
  if descOk s new = false then C.TIR_E_BAD_DESCRIPTOR
  else if dHot new ∧ dHot old = false then C.KEY_E_COUNTER_WRITE
  else if dHot new ∧ dput new 10 8 (dAcc old) ≠ old then C.KEY_E_COUNTER_WRITE
  else if dState new = stCOLD ∧ 0 < dSize new ∧ slotLive s (dKreg new) (dEpoch new) = false then C.KEY_E_NO_KEY
  else 0

/-- The write discards the page's lines: STATE INIT is written, or a hot page stops being hot (R215, R280). DESIGN CHOICE (log entry
159): also to COLD with SIZE above 0, or to LOST. -/
def discards (old new : Desc) : Bool := dState new == stINIT || (dHot old && !dHot new)

/-- Drop every line of a page from the line cache, with their copies. -/
def dropLines (s : State) (page : Nat) : State := (pageLines page).foldl lcDrop s

/-- Requests to lines of the page, or descriptor instructions of other Bobbins, have reached its slice before the instruction and wait (R49, R280). -/
def pageQueued (s : State) (b n : Nat) : Bool := (s.home.waiting.takeWhile (fun r => r != slotReq b n)).any (fun r => r.la / 4096 == n)

/-- The instruction waits: what it has begun outside its Bobbin is kept. -/
def bobStays (s u : State) : State := { u with bobs := s.bobs }

/-- The instruction waits for the page's busy bit, or for a busy way of its set; the wait is counted once. -/
def opWaits (b n : Nat) (s u : State) : State :=
  if (s.bob b).waits then bobStays s u else (busyWait (bobStays s u) n).setBob b { s.bob b with waits := true }

/-- The instruction holds the page's busy bit, or may set it now. -/
def mayHold (u : State) (b n : Nat) : Bool := (u.bob b).disc == some n || canBusy u n

/-- The instruction has set the page's busy bit, and waits. -/
def holdPage (b n : Nat) (s u : State) : State := (bobStays s (setBusy u n true)).setBob b { s.bob b with disc := some n }

/-- The instruction ends with the outcome `v` in rd; the busy bit that it holds is cleared, and what waited for it goes on. -/
def pageEnd (b rd n v : Nat) (u : State) : State := descEnd b rd v (if (u.bob b).disc = some n then pump (discardOver u b n) else u)

/-- Write a whole descriptor after its checks; a discard runs under the busy bit (R215): it recalls the page's holders, drops its lines, raises the floor and
writes the descriptor. -/
def descWrite (b rd n : Nat) (old new : Desc) (s u : State) : State :=
  let st := descWrStatus u old new
  if st ≠ 0 then descEnd b rd st (discardOver u b n)
  else if discards old new then
    if mayHold u b n = false then opWaits b n s { u with home := (takePlace b n s).home }
    else if pageAnchors u n then holdPage b n s (recallPage (setBusy u n true) n)
    else
      let u1 := dropLines u n
      let u2 := if dHot old then unblock (raiseFloor u1 (dKreg old) (dEpoch old) (dMajor old + 1)) (dKreg old) n else u1
      let v := if dHot old then dFrame old * 65536 + 2 ^ 52 + (if dState old = stMIRROR then 2 ^ 53 else 0) else 0
      descEnd b rd v (pump (discardOver (putDesc u2 n new) b n))
  else descEnd b rd 0 (pump (putDesc u n new))

/-- A descriptor access takes its place in the order of the page's accesses (R280): it waits for the busy bit, unless its own discard holds it, and for the
requests that came before it; those that come later wait behind it. -/
def descTurn (b n : Nat) (s u : State) (f : State → State) : State :=
  if (u.bob b).disc = some n then f u
  else if busyOf u n then opWaits b n s (takePlace b n u)
  else if pageQueued u b n then bobStays s (takePlace b n u)
  else if hasPlace u b then pump (f (leavePlace b u))
  else f u

/-- DESCWR (R279, R280, R215). -/
def execStDescwr (b rd rs1 rs2 : Nat) (s : State) : Res :=
  descOp b (vregs [rs2] (wordA 0x20 rd rs1 rs2 1)) [rs2] (fun x t =>
    let n := (x.gr rs1).toNat
    if x.vpois rs2 then bobFault b C.BOB_E_POISON_USE t
    else withDesc b rd n (fun d u => descTurn b n s u (descWrite b rd n d (x.vr rs2) s)) s t) s

/-- DESCACC (R280): only ACC changes; a page in INIT ends with TIR_E_STATE. -/
def execStDescacc (b rd rs1 rs2 : Nat) (s : State) : Res :=
  descOp b (vregs [rs2] (wordA 0x20 rd rs1 rs2 2)) [rs2] (fun x t =>
    let n := (x.gr rs1).toNat
    if x.vpois rs2 then bobFault b C.BOB_E_POISON_USE t
    else withDesc b rd n (fun d u => descTurn b n s u (fun u =>
      if dState d = stINIT then descEnd b rd C.TIR_E_STATE u
      else descEnd b rd 0 (putDesc u n (dput d 10 8 (dAcc (x.vr rs2)))))) s t) s

/-- DESCCAS (R279, R280): as DESCWR, if the present descriptor equals v[rs2 XOR 1]. -/
def execStDesccas (b rd rs1 rs2 : Nat) (s : State) : Res :=
  descOp b (vregs [rs2] (wordA 0x20 rd rs1 rs2 3)) [rs2, rs2 ^^^ 1] (fun x t =>
    let n := (x.gr rs1).toNat
    if x.vpois rs2 ∨ x.vpois (rs2 ^^^ 1) then bobFault b C.BOB_E_POISON_USE t
    else withDesc b rd n (fun d u => descTurn b n s u (fun u =>
      if d ≠ x.vr (rs2 ^^^ 1) then descEnd b rd C.BOB_E_DESC_CHANGED (discardOver u b n)
      else descWrite b rd n d (x.vr rs2) s u)) s t) s

/-- PROMOTE (R129, R131). -/
def execStPromote (b rd rs1 : Nat) (s : State) : Res :=
  if classHeld s b then .next s
  else descOp b (wordA 0x20 rd rs1 0 4) [] (fun x t =>
    let n := (x.gr rs1).toNat
    withDesc b rd n (fun d u =>
      if mayHold u b n = false then opWaits b n s u
      else if dState d ≠ stCOLD then pageEnd b rd n C.TIR_E_STATE u
      else if 0 < dSize d ∧ slotLive u (dKreg d) (dEpoch d) = false then pageEnd b rd n C.KEY_E_NO_KEY (promoGiveUp u n (bobWork b))
      else match promotePage u n (bobWork b) d none none with
        | .ok u1 => descEnd b rd 0 (pump (discardOver u1 b n))
        | .wait u1 => holdPage b n s u1
        | .failed u1 => pageEnd b rd n C.TIR_E_OP_ABORTED u1
        | .error st u1 => pageEnd b rd n st (noteFail u1 n st)) s t) s

/-- Write the page's dirty lines back to its frame (R132 step 2). -/
def writePage (s : State) (page : Nat) : State :=
  (pageLines page).foldl (fun t la => match lcFind t la with
    | some (_, e) => if e.st = .clean then t else (wbLine t la).2
    | none => if (copyFind t la).isSome then (wbLine t la).2 else t) s

/-- The operation goes on under the busy bit, and the instruction waits for it. -/
def opStart (b rd n : Nat) (u : State) : State :=
  let u1 := setBusy u n true
  u1.setBob b { u1.bob b with opRd := some rd, disc := none }

/-- Lines of the page that are still dirty in the cache, by their place in the page (R216). -/
def stillDirty (s : State) (n : Nat) : List (Nat × LcEntry) :=
  (List.range 64).filterMap fun i => match cachedLine s (n * 4096 + i * 64) with
    | some e => if e.st = .clean then none else some (i, e)
    | none => none

/-- The page's content with the lines that a refused write-back has left in the cache. -/
def withDirty (p : PageData) (l : List (Nat × LcEntry)) : PageData := l.foldl (fun q x => withLine q x.1 x.2.data (x.2.st == .poisoned)) p

/-- The page's content, cached lines included, is all zero. -/
def contentZero (u : State) (n : Nat) (d : Desc) : Bool := (withDirty (hotPage u n d).1 (stillDirty u n)).all (fun x => x.1 == 0 && !x.2)

/-- Why the group's log refuses a demotion before it begins, or 0 (R134, R135): an image takes eight sectors at least, and an all-zero page none. -/
def demoteRefusal (u : State) (g n : Nat) (d : Desc) : Nat :=
  if stripesOf u g = 0 then C.TIR_E_LOG_FULL
  else
    let st := appendCheck u g 8 false
    if st = 0 ∨ contentZero u n d then 0 else st

/-- Demotion of a hot page (R132 steps 1 to 4); one that the log refuses ends before step 2 (R134, R135). While it waits, for a channel, for its lanes or for its
journal, it holds the page's busy bit. DESIGN CHOICE (log entry 36): a page with a line that cannot be read ends with TIR_E_OP_ABORTED. -/
def demoteHot (b rd n : Nat) (d0 : Desc) (s u : State) : State :=
  let g := groupFor u (n * 4096)
  let un := pltUnit u (dChan d0)
  let fin := fun (st : Nat) (t : State) => pageEnd b rd n st t
  let st := demoteRefusal u g n d0
  if hotPin u (n * 4096) then fin C.TIR_E_HOTPIN u
  else if st ≠ 0 then fin st (appendRefused u g st false)
  else if slotLive u (dKreg d0) (dEpoch d0) = false then fin C.KEY_E_NO_KEY u
  else if pageWaits u d0 then holdPage b n s u
  else match laneFor u un 3 (bobWork b) pageLanes true with
    | .wait u1 => holdPage b n s u1
    | .failed u1 => fin C.TIR_E_OP_ABORTED u1
    | .got u0 =>
      -- step 2: the page's own write-backs do not wait for its busy bit
      let u1 := setBusy (writePage (setBusy u0 n false) n) n true
      match descOf u1 n with
      | none => s
      | some d =>
        let left := stillDirty u1 n
        let r := hotPage u1 n d
        let p := withDirty r.1 left
        let u2 := setBusy r.2 n (busyOf u0 n)
        if p.any (·.2) then fin C.TIR_E_OP_ABORTED u2
        else match compressAppend u2 un n d p 0 b rd (left.map fun x => (x.1, x.2.data)) with
          | .ok u3 => opStart b rd n u3
          | .wait _ => holdPage b n s u
          | .failed u3 => fin C.TIR_E_OP_ABORTED u3
          | .error st u3 =>
            if st = C.TIR_E_LOG_FULL ∨ st = C.TIR_E_GROUP_DEGRADED then fin st (appendRefused u0 g st false) else fin st u3

/-- Compaction move of a cold page (R132 step 4c): its ciphertext sectors go to the log head unchanged; a move that the log refuses ends before that (R134, R135).
DESIGN CHOICE (log entry 36): a page with a sector that cannot be read ends with TIR_E_OP_ABORTED. -/
def compactCold (b rd n : Nat) (d : Desc) (s u : State) : State :=
  let g := if dSize d = 0 then groupFor u (n * 4096) else dSector d / 2 ^ 39
  let fin := fun (st : Nat) (t : State) => pageEnd b rd n st t
  let st := if dSize d = 0 then (if stripesOf u g = 0 then C.TIR_E_LOG_FULL else 0) else appendCheck u g (8 * dSize d) false
  if st ≠ 0 then fin st (appendRefused u g st false)
  else if dSize d = 0 then fin 0 u
  else match sectorsRead sectorRead u (8 * dSize d) (dSector d) with
    | (none, u1) => fin C.TIR_E_OP_ABORTED u1
    | (some img, u1) =>
      match journalAppend u1 g ((chunk 64 56 img).map lineOf) false with
      | .error _ => holdPage b n s u
      | .ok (sector, f, l, u2) =>
        opStart b rd n (addOp u2 { lpn := n, desc := dput d 18 40 sector, group := g, firstStripe := f, lastStripe := l, failed := false, kind := 1,
                                   bob := b, rd := rd, merged := [] })

/-- DEMOTE (R132). -/
def execStDemote (b rd rs1 : Nat) (s : State) : Res :=
  if classHeld s b then .next s
  else descOp b (wordA 0x20 rd rs1 0 5) [] (fun x t =>
    let n := (x.gr rs1).toNat
    withDesc b rd n (fun d u =>
      if mayHold u b n = false then opWaits b n s u
      else if dHot d then demoteHot b rd n d s u
      else if dState d = stCOLD then compactCold b rd n d s u
      else pageEnd b rd n C.TIR_E_STATE u) s t) s

/-- The outcome of a page operation reaches the program that waits for it. -/
def opResult (b rd v : Nat) (s : State) : State :=
  let x := s.bob b
  if x.opRd = some rd then
    let y := { x with opRd := none }
    if y.run = 1 then retire b (y.setG rd (BitVec.ofNat 64 v)) s else s.setBob b y
  else s

/-- A page operation ends once its stripes are written (R132 steps 5 to 7, R134, R212). -/
def demoteFinish (lpn : Nat) (s : State) : State :=
  let mirror := match descOf s lpn with
    | some d => dState d == stMIRROR
    | none => false
  match opFinish s lpn with
  | (none, s1) => s1
  | (some (o, st, freed), s1) =>
    let s2 := pump s1
    if o.kind = 0 then opResult o.bob o.rd (if st ≠ 0 then st else freed * 65536 + 2 ^ 52 + (if mirror then 2 ^ 53 else 0)) s2
    else if o.kind = 1 then opResult o.bob o.rd st s2
    else if o.kind = 2 then (if st = 0 then sweepAdvance s2 lpn else sweepEnd s2 st)
    else s2

def execDemoteFinish (lpn : Nat) (s : State) : Res := .next (demoteFinish lpn s)

/-- Whether a frame lies in its channel's mirror pool, or in its plain pool; none: in neither (R281). -/
def framePool (s : State) (f : Nat) : Option Bool :=
  let c := f / 2 ^ 28 % 32
  let i := f % 2 ^ 28
  let g := c / 12
  if 2 ^ 33 ≤ f ∨ 24 ≤ c ∨ groupEn s g = false then none
  else if plainBase s g ≤ i ∧ i < chanFrames s c then some false
  else if c % 12 < 6 ∧ dFrames s ≤ i ∧ i < coldBase s g then some true
  else none

/-- FRAMEPUSH (R281, R77). -/
def execStFramepush (b rd rs1 : Nat) (s : State) : Res :=
  descOp b (wordA 0x20 rd rs1 0 6) [] (fun x t =>
    let f := (x.gr rs1).toNat
    let c := f / 2 ^ 28 % 32
    let ch := t.chan c
    match framePool t f with
    | none => descEnd b rd C.BOB_E_FRAME_POOL t
    | some m =>
      if 1024 ≤ fifoLen t c m then descEnd b rd C.BOB_E_FIFO_FULL t
      else descEnd b rd 0 (t.setChan c (if m then { ch with fifoM := ch.fifoM ++ [f % 2 ^ 28] } else { ch with fifoP := ch.fifoP ++ [f % 2 ^ 28] }))) s

/-- Channels with a counted FIFO at or below LOWWM now (R143): one bit each. -/
def frameLowCh (s : State) : Nat :=
  let wm := s.fget TIR_FRAMECFG F.TIR_FRAMECFG_LOWWM
  (List.range 24).foldl (fun v c =>
    if (fifoCounts s c false ∧ fifoLen s c false ≤ wm) ∨ (fifoCounts s c true ∧ fifoLen s c true ≤ wm) then v + 2 ^ c else v) 0

end Sys2Proof.Machine
end

