-- ==== Sys2Proof/Machine/SeamLink.lean ====
section
/-! DEFINITION. The Seam link layer (chapter 10): messages and their units (R349 to R352), the flit with its CRC-64, forward-error code and
AES-256-GCM (R329 to R334), routing (R355, R356), replay and credits (R337 to R342), and entry to DOWN (R348). -/

namespace Sys2Proof.Machine

def evFAB (k : Nat) (s : State) : State := s.ev (0x540 + k)
def evSeam (p k : Nat) (s : State) : State := if p < 16 then s.ev (16 * p + k) else s

/-! Messages. -/

/-- The opcode has an address unit: its length is not that of header and data alone (R349, R352). -/
def opAddr (o len : Nat) : Bool := (len == 32 && o != 0x52) || len == 48 || len == 96

/-- Fields of the address unit (R351). -/
def Msg.la (m : Msg) : Nat := getBits m.addr 0 47
def Msg.fseq (m : Msg) : Nat := getBits m.addr 47 16
def Msg.mask (m : Msg) : Nat := getBits m.addr 64 64
def mkAddr (la fseq mask : Nat) : Nat := la % 2 ^ 47 + fseq % 2 ^ 16 * 2 ^ 47 + mask % 2 ^ 64 * 2 ^ 64

/-- The header unit (R350). -/
def hdrUnit (m : Msg) : Nat :=
  m.opc % 2 ^ 8 + m.dst % 2 ^ 14 * 2 ^ 8 + m.src % 2 ^ 14 * 2 ^ 22 + m.tid % 2 ^ 32 * 2 ^ 36 + m.ocls % 4 * 2 ^ 68 +
    (if m.reissue then 2 ^ 70 else 0) + m.ttl % 32 * 2 ^ 71 + m.status % 2 ^ 16 * 2 ^ 80 + m.dl % 2 ^ 24 * 2 ^ 96 + m.grant % 8 * 2 ^ 120

/-- Units of 128 bits of a number. -/
def unitsOf : Nat → Nat → List Nat
  | 0, _ => []
  | n + 1, x => x % 2 ^ 128 :: unitsOf n (x / 2 ^ 128)

/-- A message's units (R349). -/
def msgUnits (m : Msg) : List Nat :=
  let a := opAddr m.opc m.len
  let n := m.len / 16 - 1 - (if a then 1 else 0)
  hdrUnit m :: (if a then [m.addr % 2 ^ 128] else []) ++ unitsOf n m.data

/-- Number of a list of units, the first lowest. -/
def unitsNat : List Nat → Nat
  | [] => 0
  | u :: r => u + 2 ^ 128 * unitsNat r

/-- The message that a header unit and the units after it spell. -/
def msgOf (h : Nat) (len : Nat) (rest : List Nat) : Msg :=
  let o := getBits h 0 8
  let a := opAddr o len
  { opc := o, dst := getBits h 8 14, src := getBits h 22 14, tid := getBits h 36 32, ocls := getBits h 68 2, reissue := bit h 70,
    ttl := getBits h 71 5, status := getBits h 80 16, dl := getBits h 96 24, grant := getBits h 120 3,
    addr := if a then rest.headD 0 else 0, data := unitsNat (if a then rest.drop 1 else rest) }

/-- A field that the tables of R350, R351 and R376 reserve is not zero. -/
def msgReserved (h : Nat) (m : Msg) : Bool :=
  getBits h 76 4 != 0 || getBits h 123 5 != 0 ||
    (if 0x70 ≤ m.opc then getBits m.addr 97 31 != 0 else bit m.addr 63)

/-- What a stream of units holds: complete messages, the number discarded, and the units left over (R349, R352). -/
def parseUnits : Nat → List Nat → List Msg × List Msg × Nat × List Nat
  | 0, us => ([], [], 0, us)
  | _, [] => ([], [], 0, [])
  | n + 1, u :: r =>
    if u % 256 = 0 then parseUnits n r
    else match opInfo (u % 256) with
      | none => let x := parseUnits n r; (x.1, x.2.1, x.2.2.1 + 1, x.2.2.2)
      | some (_, len, _) =>
        let k := len / 16 - 1
        if r.length < k then ([], [], 0, u :: r)
        else
          let m := msgOf u len (r.take k)
          let x := parseUnits n (r.drop k)
          if msgReserved u m then (x.1, m :: x.2.1, x.2.2.1 + 1, x.2.2.2) else (m :: x.1, x.2.1, x.2.2.1, x.2.2.2)

/-! The flit. -/

/-- CRC-64 (R331), bit by bit from the most significant. -/
def crc64Bits : Nat → Nat → Nat
  | 0, c => c
  | n + 1, c => crc64Bits n (if 2 ^ 63 ≤ c then ((2 * c) % 2 ^ 64) ^^^ 0x42F0E1EBA9EA3693 else 2 * c)

def crc64Upd (c : Nat) : Bytes → Nat
  | [] => c
  | b :: r => crc64Upd (crc64Bits 8 (c ^^^ (b * 2 ^ 56))) r

def crc64 (m : Bytes) : Nat := crc64Upd (2 ^ 64 - 1) m ^^^ (2 ^ 64 - 1)

/-- Positions of codeword `w` (R332). -/
def fecPos (w : Nat) : List Nat := (List.range 256).filter (fun i => i % 3 == w)

/-- Remainder of m(x)·x² by x² + 3x + 2: the coefficients of x¹ and x⁰. -/
def fecRem : Nat × Nat → Bytes → Nat × Nat
  | r, [] => r
  | r, b :: m => let f := r.1 ^^^ b; fecRem (r.2 ^^^ gfMul 3 f, gfMul 2 f) m

/-- Parity bytes 250 to 255 of 250 bytes. -/
def fecParity (b : Bytes) : Bytes :=
  let par := fun w => fecRem (0, 0) (((fecPos w).filter (· < 250)).map fun i => b.getD i 0)
  [(par 1).1, (par 2).1, (par 0).1, (par 1).2, (par 2).2, (par 0).2]

/-- Degree of the byte in error: the power of α that takes `a` to `b`. -/
def fecLog (a b : Nat) : Nat → Nat → Option Nat
  | 0, _ => none
  | n + 1, k => if a = b then some k else fecLog (gfMul 2 a) b n (k + 1)

/-- The byte of codeword `w` that is in error, and what is wrong in it (R332); none: no error, or more than can be corrected. -/
def fecFind (w : Nat) (f : Bytes) : Option (Nat × Nat) :=
  let ps := fecPos w
  let c := ps.map fun i => f.getD i 0
  let s0 := rsEval 0 c
  let s1 := rsEval 1 c
  if s0 = 0 ∨ s1 = 0 then none else (fecLog s0 s1 ps.length 0).map fun k => (ps.getD (ps.length - 1 - k) 0, s0)

/-- Correct at most one byte of each codeword: the flit, and the positions corrected. -/
def fecFix (f : Bytes) : Bytes × List Nat :=
  ([0, 1, 2].filterMap (fun w => fecFind w f)).foldl (fun a e => (a.1.set e.1 (a.1.getD e.1 0 ^^^ e.2), e.1 :: a.2)) (f, [])

/-- The 96-bit IV (R334): the salt, then E; most significant byte first. -/
def flitIv (salt e : Nat) : Bytes := beBytes 4 (salt % 2 ^ 32) ++ beBytes 8 (e % 2 ^ 64)

/-- Key bytes of a link key. -/
def linkKeyBytes (k : Nat) : Bytes := leBytes 32 k

/-- Ciphertext and tag of a flit (R333, R334): an RSYNC's payload is sent in clear and authenticated. -/
def flitSeal (key : Nat × Nat) (clear : Bool) (e : Nat) (hdr pay : Bytes) : Bytes × Bytes :=
  let iv := flitIv key.2 e
  if clear then (pay, (gcmTag (linkKeyBytes key.1) iv (hdr ++ pay) []).take 8)
  else
    let c := gcmCrypt (linkKeyBytes key.1) iv pay
    (c, (gcmTag (linkKeyBytes key.1) iv hdr c).take 8)

/-- The flit as sent (R333). -/
def flitBuild (key : Nat × Nat) (clear : Bool) (e hdr : Nat) (pay : Bytes) : BitVec 2048 :=
  let h := leBytes 10 hdr
  let x := flitSeal key clear e h pay
  let body := h ++ x.1 ++ x.2
  let b := body ++ beBytes 8 (crc64 body)
  BitVec.ofNat 2048 (leNat (b ++ fecParity b))

/-- A flit after correction: bytes 0 to 249, and the positions of corrected bytes. -/
def flitFix (f : BitVec 2048) : Bytes × List Nat :=
  let r := fecFix (leBytes 256 f.toNat)
  (r.1.take 250, r.2)

/-- PRT_SEAMFEC counts corrected bytes by lane and by codeword (R382). -/
def countFec (s : State) (p : Nat) (l : List Nat) : State :=
  l.foldl (fun t i => (t.diagAdd dgSEAMFEC (p * 64 + i % 16) 1).diagAdd dgSEAMFEC (p * 64 + 32 + i % 3) 1) s

/-- The CRC holds and the header is well formed (R330, R331). -/
def flitCrcOk (b : Bytes) : Bool :=
  let h := leNat (b.take 10)
  beNat (b.drop 242) == crc64 (b.take 242) && decide (getBits h 0 4 < 3) && getBits h 7 1 == 0 && getBits h 76 4 == 0

/-- Header of a flit (R330). -/
def flitHdr (ftype slot : Nat) (ackv nak : Bool) (seq ack : Nat) (cr : List Nat) : Nat :=
  ftype + slot % 2 * 16 + (if ackv then 32 else 0) + (if nak then 64 else 0) + seq % 65536 * 2 ^ 8 + ack % 65536 * 2 ^ 24 +
    cr.getD 0 0 % 4096 * 2 ^ 40 + cr.getD 1 0 % 4096 * 2 ^ 52 + cr.getD 2 0 % 4096 * 2 ^ 64

/-! Link states (R344). -/

def seamMode (s : State) (p : Nat) : Bool := s.fget (PRT_CFG p) F.PRT_CFG_MODE == 1
def linkState (s : State) (p : Nat) : Nat := s.fget (PRT_SEAMSTAT p) F.PRT_SEAMSTAT_STATE
def setLink (s : State) (p v : Nat) : State := s.fset (PRT_SEAMSTAT p) F.PRT_SEAMSTAT_STATE v

/-- A port is live for routing only while ACTIVE. -/
def seamLive (s : State) (p : Nat) : Bool := seamMode s p && linkState s p == 3


/-- A sticky bit of FAB_STAT; its first setting interrupts the owner of the block. -/
def fabStat (s : State) (f : Fld) : State :=
  let s1 := s.fset FAB_STAT f 1
  if s.fget FAB_STAT f = 0 ∧ s.fget FAB_CFG F.FAB_CFG_IRQ_EN = 1 then s1.irq irqFAB else s1

def fabReport (s : State) (code addr detail : Nat) : State := s.report (srcId 9 0) 0 code addr detail
def fabCount (s : State) (code : Nat) : State := s.reportAt 0 (srcId 9 0) 0 code 0 0

/-! Routing (R355, R356). -/

def rotl16 (x r : Nat) : Nat := (x * 2 ^ r) % 65536 ||| (x / 2 ^ (16 - r))

/-- The flow hash (R356), before the choice among live ports. -/
def flowHash (src dst ocls self seed : Nat) : Nat :=
  let h := src ^^^ rotl16 dst 5 ^^^ rotl16 self 11 ^^^ (ocls * 2 ^ 14) ^^^ seed
  (h ^^^ (h / 256)) % 256

/-- Live ports of an entry's mask, lowest first, without port `no`. -/
def livePorts (s : State) (mask no : Nat) : List Nat := (List.range 16).filter fun p => bit mask p && p != no && seamLive s p

/-- The port for a message (R355), avoiding port `no`; none: no live port, or MODE 0. -/
def routePort (s : State) (m : Msg) (no : Nat) : Option Nat :=
  let e := FAB_ROUTE m.dst
  let live := livePorts s (s.fget e F.FAB_ROUTE_PORTS) no
  match s.fget e F.FAB_ROUTE_MODE with
  | 1 => if live = [] then none
      else live[flowHash m.src m.dst m.ocls (ownNode s) (s.fget FAB_CFG F.FAB_CFG_SEED) % live.length]?
  | 2 => live.head?
  | _ => none

def nowStamp (s : State) : Nat := s.time * 65536 + s.seam.frac

/-- Put a message in a port's queue. -/
def pushTx (s : State) (p : Nat) (m : Msg) : State := let x := s.sp p; s.setSp p { x with txq := x.txq ++ [m] }

/-- One message: for this device it is delivered to itself; without a live port it waits for one (R348, R355). -/
def sendOne (s : State) (m : Msg) : State :=
  if m.dst = ownNode s then let x := s.sp 16; s.setSp 16 { x with rxq := x.rxq ++ [(m, nowStamp s)] }
  else match routePort s m 16 with
    | some p => pushTx s p m
    | none => { s with seam := { s.seam with outq := s.seam.outq ++ [m] } }

/-- Messages that waited for a live port are routed again. -/
def routeWaiting (s : State) : State :=
  s.seam.outq.foldl sendOne { s with seam := { s.seam with outq := [] } }

/-- Send a message behind those that have waited for a port longer. -/
def sendMsg (s : State) (m : Msg) : State := sendOne (routeWaiting s) m

/-- A completion, of the request's TID with SRC and DST exchanged (R352). -/
def reqAnswer (s : State) (m : Msg) (opc status grant data : Nat) : Msg :=
  { opc := opc, dst := m.src, src := if m.dst = 0x3FFF then 0x3FFF else ownNode s, tid := m.tid, ocls := m.ocls, reissue := false, ttl := 31, status := status,
    dl := 0, grant := grant, addr := 0, data := data }

/-! Entry to DOWN (R348). -/

def lostNote (s : State) (m : Msg) : Msg :=
  { opc := 0x32, dst := m.src, src := ownNode s, tid := m.tid, ocls := m.ocls, reissue := false, ttl := 31, status := 0, dl := 0, grant := 0,
    addr := mkAddr 0 m.fseq 0, data := 0 }

/-- Another live port serves the message's DST; a message to the link partner has no other. -/
def otherRoute (s : State) (p : Nat) (m : Msg) : Bool := m.dst != 0x3FFF && (m.dst == ownNode s || (routePort s m p).isSome)

/-- Messages of the replay buffer, each once. -/
def heldMsgs (x : SeamPort) : List Msg := (x.buf.flatMap (·.msgs)).eraseDups

/-- The messages that have another live route are dropped, and a transaction's source is told; the rest stay. -/
def dropRouted (s : State) (p : Nat) : State :=
  let go := (heldMsgs (s.sp p)).filter (otherRoute s p)
  let x := s.sp p
  let s1 := s.setSp p { x with buf := x.buf.map (fun f => { f with msgs := f.msgs.filter (fun m => !(go.contains m)) }) }
  (go.filter (·.isT)).foldl (fun t m => evFAB 3 (sendMsg t (lostNote t m))) s1

/-- Enter DOWN (R344, R348). Messages that no flit carries yet are routed afresh, those to the link partner apart. -/
def seamDown (s : State) (p : Nat) : State :=
  let s1 := ((setLink s p 5).fsat (PRT_SEAMCNT p) F.PRT_SEAMCNT_DOWNS 1).report (srcId 1 p) 0 C.PRT_F_SEAM_DOWN 0 0
  let s2 := dropRouted s1 p
  let x := s2.sp p
  (x.txq.filter (fun m => m.dst != 0x3FFF)).foldl sendMsg (s2.setSp p { x with txq := x.txq.filter (fun m => m.dst == 0x3FFF), resend := [], nakAt := none, nakDue := false, crcRun := 0, fails := 0 })

/-- Enter RETRAIN (R340, R344). -/
def seamRetrain (s0 : State) (p : Nat) : State :=
  let s := calInterrupt s0 p
  let x := s.sp p
  evSeam p 11 ((((setLink s p 4).fsat (PRT_SEAMCNT p) F.PRT_SEAMCNT_RETRAINS 1).reportAt 0 (srcId 1 p) 0 C.PRT_W_SEAM_RETRAIN 0 0).setSp p
    { x with crcRun := 0, resend := [], nakAt := none, nakDue := false })

/-! Replay (R337 to R340). -/

/-- Replay every unacknowledged flit (R339); the eighth replay that starts at one oldest flit moves the link to RETRAIN, and so does each eighth after it, since only
an ACK resets the count (R340; log entry 178). -/
def startReplay (s : State) (p : Nat) : State :=
  let x := s.sp p
  match x.buf with
  | [] => s
  | f :: _ =>
    let n := if x.repAt = f.seq + 1 then x.repCnt + 1 else 1
    let notch := x.buf.any (fun b => b.msgs.any (fun m => m.opc == 0x70 || m.opc == 0x72))
    let s1 := (s.setSp p { x with resend := x.buf.map (·.seq), repAt := f.seq + 1, repCnt := n, replayedNotch := x.replayedNotch || notch }).fsat
      (PRT_SEAMCNT p) F.PRT_SEAMCNT_REPLAYS 1
    if n % 8 = 0 then seamRetrain s1 p else s1

/-- An ACK frees the flits that it covers (R338). -/
def takeAck (x : SeamPort) (ack : Nat) : SeamPort :=
  match x.buf.find? (fun f => f.seq % 65536 == ack) with
  | none => x
  | some f => { x with buf := x.buf.filter (fun g => f.seq < g.seq), resend := x.resend.filter (f.seq < ·), repAt := 0, repCnt := 0 }

/-- Credits that a flit returns (R330, R342). -/
def takeCredit (x : SeamPort) (cr : Nat) : SeamPort :=
  let n := cr / 8 % 512
  if n = 0 then x else { x with cred := tabSet (fun _ => 0) x.cred (cr % 8) (tabGet (fun _ => 0) x.cred (cr % 8) + n) }

/-- ACK and credits of an accepted flit's header. -/
def takeReturns (s : State) (p h : Nat) : State :=
  let x := s.sp p
  let x1 := if bit h 5 then takeAck x (getBits h 24 16) else x
  s.setSp p (takeCredit (takeCredit (takeCredit x1 (getBits h 40 12)) (getBits h 52 12)) (getBits h 64 12))

/-- What the header of an accepted flit says. In INIT a NAK asks for what the link's resumption does anyway (R346). -/
def takeHeader (s : State) (p h : Nat) : State :=
  let s1 := takeReturns s p h
  if bit h 6 ∧ linkState s p = 3 then startReplay s1 p else s1

/-- A discarded flit asks for a replay, at most once in 2 µs while the expected flit is missing (R339). -/
def wantNak (s : State) (p : Nat) : State :=
  let x := s.sp p
  match x.nakAt with
  | some t => if t + 2000 ≤ s.time then s.setSp p { x with nakDue := true } else s
  | none => s.setSp p { x with nakDue := true }

/-- A flit whose CRC fails (R333, R344). -/
def crcFail (s : State) (p : Nat) : State :=
  let x := s.sp p
  let s1 := evSeam p 8 (wantNak (s.setSp p { x with crcRun := x.crcRun + 1 }) p)
  if 15 ≤ x.crcRun ∧ linkState s p = 3 then seamRetrain s1 p else s1

/-- A flit whose tag fails (R333). -/
def tagFail (s : State) (p : Nat) : State :=
  let s1 := (s.fsat (PRT_SEAMCNT p) F.PRT_SEAMCNT_AUTHFAIL 1).report (srcId 1 p) 0 C.PRT_F_SEAM_AUTH 0 0
  let x := s1.sp p
  evSeam p 8 (wantNak (s1.setSp p { x with crcRun := 0 }) p)

/-- The 64-bit number of a DATA flit: the nearest from the expected one on, or one of the 1,024 below it (R334, R337). -/
def extSeq (next seq : Nat) : Nat :=
  let back := (next % 65536 + 65536 - seq) % 65536
  if 1 ≤ back ∧ back ≤ 1024 ∧ back ≤ next then next - back else next + (seq + 65536 - next % 65536) % 65536

/-- The 64-bit control count of a NULL flit: the nearest above the last one accepted. -/
def extCtl (last seq : Nat) : Nat := last + (seq + 65536 - last % 65536) % 65536

/-- A request that a port receives is counted, and reads and writes apart (R454). -/
def countReq (p : Nat) (s : State) (m : Msg) : State :=
  if m.isT = false then s
  else
    let s1 := evSeam p 0 s
    if [0x01, 0x02, 0x04, 0x10, 0x30].contains m.opc then evSeam p 1 s1 else if [0x05, 0x06, 0x11, 0x20, 0x31].contains m.opc then evSeam p 2 s1 else s1

/-- Times of arrival of a flit's messages: that of the flit with the header unit (R376), which for the first may be an earlier flit. -/
def stampMsgs (x : SeamPort) (now : Nat) : List Msg → List (Msg × Nat)
  | [] => []
  | m :: r => (m, if x.stream.headD 0 = hdrUnit m then x.headAt else now) :: r.map (fun k => (k, now))

/-- Put the messages of the stream in the VC buffers; bad ones are discarded, each with its report (R349, R352). -/
def takeUnits (s : State) (p : Nat) (us : List Nat) : State :=
  let x := s.sp p
  let all := x.stream ++ us
  let r := parseUnits (all.length + 1) all
  let owed := r.2.1.foldl (fun o m => tabSet (fun _ => 0) o m.vc (tabGet (fun _ => 0) o m.vc + m.cost)) x.owed
  let at' := if x.stream ≠ [] ∧ r.1 = [] ∧ r.2.2.1 = 0 then x.headAt else nowStamp s
  let s1 := s.setSp p { x with stream := r.2.2.2, headAt := at', rxq := x.rxq ++ stampMsgs x (nowStamp s) r.1, owed := owed }
  (List.replicate r.2.2.1 ()).foldl (fun t _ => fabReport t C.FAB_F_PROTOCOL 0 0) (r.1.foldl (countReq p) s1)

/-- The oldest message of a VC buffer, with its time of arrival. -/
def rxHead (s : State) (p vc : Nat) : Option (Msg × Nat) := (s.sp p).rxq.find? (fun e => e.1.vc == vc)

/-- The oldest message of a VC buffer leaves it, and its credits are returned (R342), unless a full initialisation has restarted the accounts since (R346). -/
def rxPop (s : State) (p vc : Nat) : State :=
  match rxHead s p vc with
  | none => s
  | some e =>
    let x := s.sp p
    let q := x.rxq.erase e
    s.setSp p { x with rxq := q, stale := x.stale && !q.isEmpty,
                       owed := if x.stale then x.owed else tabSet (fun _ => 0) x.owed vc (tabGet (fun _ => 0) x.owed vc + e.1.cost) }

/-! Placing messages in flits. -/

/-- The oldest message whose VC has credit and no older message waiting. -/
def pickMsg (cred : Tab Nat) (blocked : List Nat) : List Msg → Option Msg
  | [] => none
  | m :: r =>
    if blocked.contains m.vc then pickMsg cred blocked r
    else if m.cost ≤ tabGet (fun _ => 0) cred m.vc then some m
    else pickMsg cred (m.vc :: blocked) r

/-- Fill a flit's payload, unit by unit: units, messages in it, messages whose header it carries. -/
def fillUnits : Nat → SeamPort → List Nat × List Msg × List Msg × SeamPort
  | 0, x => ([], [], [], x)
  | n + 1, x =>
    match x.units, x.cur with
    | u :: us, some m =>
      let r := fillUnits n { x with units := us }
      (u :: r.1, m :: r.2.1, r.2.2.1, r.2.2.2)
    | _, _ =>
      match pickMsg x.cred [] x.txq with
      | none => ([], [], [], { x with cur := none, units := [] })
      | some m =>
        match msgUnits m with
        | [] => ([], [], [], x)
        | u :: us =>
          let c := tabGet (fun _ => 0) x.cred m.vc
          let r := fillUnits n { x with cur := some m, units := us, txq := x.txq.erase m, cred := tabSet (fun _ => 0) x.cred m.vc (c - m.cost) }
          (u :: r.1, m :: r.2.1, m :: r.2.2.1, r.2.2.2)

/-- Credit returns for the next flit: at most three VCs, 511 units each (R330). -/
def takeOwed (x : SeamPort) : List Nat × SeamPort :=
  let due := (x.owed.filter (fun e => 0 < e.2)).take 3
  (due.map (fun e => e.1 + min e.2 511 * 8), { x with owed := due.foldl (fun o e => tabSet (fun _ => 0) o e.1 (e.2 - min e.2 511)) x.owed })

/-- Header fields common to every new flit: slot, ACK, NAK and credits. -/
def newHeader (s : State) (x : SeamPort) (ftype seq : Nat) : Nat × SeamPort :=
  let o := takeOwed x
  (flitHdr ftype x.txSlot x.rxAny x.nakDue seq (x.rxNext + 65535) o.1,
    { o.2 with nakDue := false, nakAt := if x.nakDue then some s.time else x.nakAt })

end Sys2Proof.Machine
end

