-- ==== Sys2Proof/Machine/SeamSrc.lean ====
section
/-! DEFINITION. The Seam source (chapter 10): the duplicate filter's table in memory (R366, R367), the origin of transactions (R358 to R364), their
completions at the guest slices, Bobbins and home slices (R244, R245), the answers to remote requesters (R369) and to snoops (R227, R353). -/

namespace Sys2Proof.Machine

/-! Poison. The manual gives a message no place for it (log entry 53): a completion carries a status of the model's own, and a write, whose STATUS is zero (R350), data
of the model's own. -/

/-- The mark of poisoned data in the STATUS of a completion: a free value of class 3. -/
def poisonMark : Nat := 0x3000 + Config.poisonCode % 4096

/-- The data of a poisoned write. -/
def poisonBits : Nat := Config.poisonData % 2 ^ 512

/-! The table of the filter (R366). -/

def dfBase (s : State) : Nat := s.fget FAB_DFBASE F.FAB_DFBASE_BASE * 2 ^ 21
def maxNode (s : State) : Nat := s.fget FAB_DFCFG F.FAB_DFCFG_MAXNODE
def dfEntryLa (s : State) (src tid : Nat) : Nat := dfBase s + src * 0x50000 + 16 * (tid % 4096)
def dfAnnexLa (s : State) (src tid : Nat) : Nat := dfBase s + src * 0x50000 + 0x10000 + 64 * (tid % 4096)
def dfFlowLa (s : State) (n : Nat) : Nat := dfBase s + (maxNode s + 1) * 0x50000 + 32 * n

/-- A line of the table: none, when the access must wait; some none, when it is unreadable. -/
def dfRead (s : State) (la : Nat) : Option (Option Line) × State :=
  let l := la / 64 * 64
  let s0 := descFill s (l / 4096)
  if busyOf s0 (l / 4096) then (none, s0)
  else match lineRead s0 l 28 false with
    | (.data d, s1) => (some (some d), s1)
    | (.poison, s1) => (some none, s1)
    | (.wait, s1) => (none, s1)

/-- Write a line of the table: true once the home slice has stored it. -/
def dfStore (s : State) (la : Nat) (d : Line) : Bool × State :=
  let l := la / 64 * 64
  let s0 := descFill s (l / 4096)
  if busyOf s0 (l / 4096) then (false, s0)
  else match lineStore s0 l d fullMask false 28 false with
    | (.done, s1) => (true, s1)
    | (_, s1) => (false, s1)

/-- As `dfStore`; none, when the write must wait: what depends on it is then not done either, so that a check and its record are one update (R368). -/
def dfWrite (s : State) (la : Nat) (d : Line) : Option State :=
  let r := dfStore s la d
  if r.1 then some r.2 else none

/-- Bring a line of the table into the cache as one that can be written, by a write of what it holds: true when it is there, or unreadable. -/
def dfHold (s : State) (la : Nat) : Bool × State := match dfRead s la with
  | (none, s1) => (false, s1)
  | (some none, s1) => (true, s1)
  | (some (some d), s1) => dfStore s1 la d

/-- First bit of a byte address in its line. -/
def bitAt (la : Nat) : Nat := 8 * (la % 64)

/-- A field of the filter entry at `la` in its line (R367). -/
def dfGet (d : Line) (la lo w : Nat) : Nat := getBits d.toNat (bitAt la + lo) w
def dfPut (d : Line) (la lo w v : Nat) : Line := BitVec.ofNat 512 (putBits d.toNat (bitAt la + lo) w v)

/-- Record a transaction in its entry (R367, R368): TID, STATE, RESERVE, ANNEX, GRANT, STATUS; none: the entry must wait. An unreadable line holds no record. -/
def dfRecord (s : State) (src tid st reserve annex grant status : Nat) : Option State :=
  let la := dfEntryLa s src tid
  match dfRead s la with
  | (some (some d), s1) =>
    dfWrite s1 la (dfPut d la 0 128 (tid % 2 ^ 32 + st * 2 ^ 32 + reserve * 2 ^ 34 + annex * 2 ^ 35 + grant * 2 ^ 36 + status % 65536 * 2 ^ 48))
  | (some none, s1) => some s1
  | (none, _) => none

/-- An accepted transaction is DONE. -/
def dfDone (s : State) (m : Msg) (reserve annex : Bool) (grant status : Nat) : Option State :=
  dfRecord s m.src m.tid 2 (if reserve then 1 else 0) (if annex then 1 else 0) grant status

/-! Lines at the home of a remote requester. -/

/-- The operand that a remote request gives the home slice (R224). -/
def remoteReq (m : Msg) (master : Nat) : HomeReq :=
  let k := match m.opc with
    | 0x01 => ReqKind.readShared
    | 0x02 => .readExclusive
    | 0x03 => .readExclusive
    | 0x05 => .write
    | 0x11 => .write
    | 0x06 => .writeBack
    | 0x07 => .cleanEvict
    | _ => .readCurrent
  { kind := k, who := .node m.src m.tid, la := m.la / 64 * 64, data := BitVec.ofNat 512 m.data, mask := if m.opc = 0x06 then fullMask else m.mask,
    poison := (m.opc == 0x05 || m.opc == 0x06 || m.opc == 0x11) && m.data == poisonBits, master := master, mval := if m.opc = 0x03 then 1 else m.grant, ocls := m.ocls }

def isReadOp (o : Nat) : Bool := o == 0x01 || o == 0x02 || o == 0x04 || o == 0x10

/-- The opcode of the completion of a transaction that carries only a status (R352). -/
def plainCpl (o : Nat) : Nat :=
  if isReadOp o then 0x51 else if o = 0x30 then 0x52 else if 0x40 ≤ o ∧ o ≤ 0x43 then 0x60 else 0x50

/-- A transaction completes with a status alone. -/
def sendStatus (s : State) (m : Msg) (st : Nat) : State := sendMsg s (reqAnswer s m (plainCpl m.opc) st 0 0)

/-- A request goes to the home slice of its line. -/
def toSlice (s : State) (r : HomeReq) : State := { s with home := { s.home with toHome := s.home.toHome ++ [r] } }

/-- Counts of FAB_DFSTAT: 0 filter hits, 1 duplicates answered, 2 stale discards, 3 annex writes. -/
def countDf (k : Nat) (s : State) : State := s.diagAdd dgDFSTAT k 1

/-- A duplicate of a DONE entry is answered (R369); none: its annex line must wait. A CtlRd is served by the caller. -/
def dupAnswer (s : State) (m : Msg) (d : Line) : Option State :=
  let la := dfEntryLa s m.src m.tid
  let grant := dfGet d la 36 3
  let status := dfGet d la 48 16
  let s0 := countDf 1 (evFAB 4 s)
  if dfGet d la 35 1 = 1 then
    match dfRead s0 (dfAnnexLa s m.src m.tid) with
    | (some (some x), s1) => some (sendMsg s1 (reqAnswer s1 m 0x44 status grant x.toNat))
    | (some none, s1) => some (sendMsg s1 (reqAnswer s1 m 0x44 poisonMark grant 0))
    | (none, _) => none
  else if dfGet d la 34 1 = 1 then
    if 0x40 ≤ m.opc ∧ m.opc ≤ 0x43 then some { s0 with seam := { s0.seam with snoops := s0.seam.snoops ++ [⟨m, some grant⟩] } }
    else some (toSlice { s0 with seam := { s0.seam with acc := s0.seam.acc ++ [⟨m, some grant⟩] } } { remoteReq m 28 with kind := .readCurrent })
  else some (sendMsg s0 (reqAnswer s0 m (plainCpl m.opc) status grant 0))

/-- The source's line of the filter is refused until FAB_DFCLEAR (R370). -/
def lineBad (s : State) (src la : Nat) : Bool := s.seam.bad.contains (src, la / 64 * 64)

/-- A transaction that maps to an unreadable line. -/
def filterLost (s : State) (m : Msg) (la : Nat) : State :=
  let k := (m.src, la / 64 * 64)
  let s1 := if s.seam.bad.contains k then s else { s with seam := { s.seam with bad := s.seam.bad ++ [k] } }
  sendStatus (fabReport (fabStat s1 F.FAB_STAT_FILTER) C.FAB_F_FILTER la m.src) m C.FAB_E_FILTER

/-- How an arriving TID stands to an entry: 0 newer or EMPTY, 1 equal, 2 older. -/
def tidStands (d : Line) (la tid : Nat) : Nat :=
  let e := dfGet d la 0 32
  if dfGet d la 32 2 = 0 then 0
  else if e = tid then 1
  else if (tid + 2 ^ 32 - e) % 2 ^ 32 < 2 ^ 31 then 0 else 2

/-- A duplicate that waits for its entry to be DONE (R369); none: it still waits. One whose entry has been cleared or has passed on is discarded: its source no
longer waits for it, or sends it again. -/
def dupTake (s : State) (m : Msg) : Option State :=
  let la := dfEntryLa s m.src m.tid
  match dfRead s la with
  | (none, _) => none
  | (some none, s1) => some (filterLost s1 m la)
  | (some (some d), s1) => if tidStands d la m.tid ≠ 1 then some (countDf 2 (evFAB 5 s1)) else if dfGet d la 32 2 = 1 then none else dupAnswer s1 m d

/-- Every waiting duplicate whose turn has come is answered, in order of arrival. -/
def dupsGo (s : State) : State :=
  s.seam.dups.foldl (fun t e => (dupTake { t with seam := { t.seam with dups := t.seam.dups.erase e } } e.2).getD t) s

/-- The home slice has answered a remote request: its completion is recorded and sent (R362, R365 step 4, R369); none: the record must wait. -/
def finishReply (s : State) (x : NodeReply) : Option State :=
  match s.seam.acc.find? (fun a => a.msg.src == x.node && a.msg.tid == x.tid) with
  | none => some s
  | some a =>
    let m := a.msg
    let s0 := { s with seam := { s.seam with acc := s.seam.acc.erase a } }
    let read := isReadOp m.opc
    let grant := match a.dup with
      | some g => g
      | none => if read then x.st % 4 else 0
    let status := if read ∧ x.poison ∧ statusClass x.status < 2 then poisonMark else x.status
    let data := (x.data.getD 0).toNat
    let annex := read && x.st == 3
    let answer := fun (t : State) => sendMsg t (reqAnswer t m (if read ∧ x.fwd then 0x44 else plainCpl m.opc) status grant (if read then data else 0))
    if a.dup.isSome then some (answer s0)
    else
      let s1 := if annex then dfWrite (countDf 3 s0) (dfAnnexLa s0 m.src m.tid) (x.data.getD 0) else some s0
      let s2 := s1.map fun t => if m.opc = 0x03 ∧ x.st = 3 then toHomeData t (m.la / 64 * 64) (x.data.getD 0) x.poison 28 else t
      (s2.bind fun t => dfDone t m (read && !annex && decide (statusClass status < 2 ∨ status = poisonMark)) annex grant status).map answer

/-- An answer of the home slices is taken, or goes on waiting with the lines that its record needs asked for. -/
def nodeReplied (s : State) (x : NodeReply) : State := match finishReply s x with
  | some t => t
  | none =>
    let s1 := (dfHold (dfHold s (dfEntryLa s x.node x.tid)).2 (dfAnnexLa s x.node x.tid)).2
    { s1 with home := { s1.home with nodeReplies := s1.home.nodeReplies ++ [x] } }

/-- What waits to be sent on: answers of the home slices with the duplicates that wait for them, Spool notices (R322), and messages without a live port. -/
def seamFlush (s : State) : State :=
  let s1 := dupsGo (s.home.nodeReplies.foldl nodeReplied { s with home := { s.home with nodeReplies := [] } })
  let s2 := s1.notices.foldl (fun t n => sendMsg t
    { opc := 0x21, dst := n.1, src := ownNode t, tid := 0, ocls := 2, reissue := false, ttl := 31, status := 0, dl := 0, grant := 0, addr := mkAddr n.2 0 0, data := 0 })
    { s1 with notices := [] }
  routeWaiting s2

/-! Origin (R358 to R360). -/

/-- The counter's next TID whose low 12 bits are not those of an outstanding one. -/
def nextTid (txs : List Txn) : Nat → Nat → Nat
  | 0, t => t
  | n + 1, t => if txs.any (fun x => x.msg.tid % 4096 == t % 4096) then nextTid txs n ((t + 1) % 2 ^ 32) else t

/-- The node and the address at that node of a guest line. -/
def guestNode (la : Nat) : Nat := (la - 2 ^ 47) / 2 ^ 47 % 2 ^ 14
def guestAddr (la : Nat) : Nat := la % 2 ^ 47

/-- The message of a transaction, without TID, FSEQ and DL (R224, R359, R372); none: its agent does not wait, or an earlier request of that agent to the
line waits before it (R282). -/
def askMsg (s : State) (a : TxnAsk) : Option Msg :=
  let mk := fun (opc dst ocls la mask data grant : Nat) =>
    ({ opc := opc, dst := dst, src := ownNode s, tid := 0, ocls := ocls, reissue := false, ttl := 31, status := 0, dl := 0, grant := grant,
       addr := mkAddr la 0 mask, data := data } : Msg)
  match a with
  | .line r =>
    if s.home.guestReqs.find? (fun q => sameAgent q.who r.who && q.la == r.la) ≠ some r then none
    else
      let dst := guestNode r.la
      let la := guestAddr r.la
      let sent := fun (p : Bool) (d : Line) => if p then poisonBits else d.toNat
      (match r.who with
      | .dev _ =>
        (match r.kind with
        | .readShared => some (mk 0x01 dst 0 la 0 0 0)
        | .readExclusive => some (mk (if r.mval = 1 then 0x03 else 0x02) dst 0 la 0 0 0)
        | .readCurrent => some (mk 0x04 dst 0 la 0 0 0)
        | .write => some (mk 0x05 dst 0 la r.mask (sent r.poison r.data) 0)
        | .writeBack =>
          let e : Option LcEntry := match lcFind s r.la with
            | some x => some x.2
            | none => (copyFind s r.la).map (·.2)
          (match e with
          | some x => some (mk 0x06 dst 0 la 0 (sent (x.st == .poisoned) x.data) r.mval)
          | none => some (mk 0x06 dst 0 la 0 (sent r.poison r.data) r.mval))
        | .cleanEvict => some (mk 0x07 dst 0 la 0 0 0))
      | .stitch _ _ => some (if r.kind = .write then mk 0x11 dst 1 la r.mask (sent r.poison r.data) 0 else mk 0x10 dst 1 la 0 0 0)
      | _ => some (if r.kind = .write then mk 0x05 dst 1 la r.mask (sent r.poison r.data) 0 else mk 0x04 dst 1 la 0 0 0))
  | .snoop la b =>
    (match s.home.recalls.find? (fun c => c.la == la && c.bit == b && decide (16 ≤ b) && !c.wbPending) with
    | some c => if s.seam.txs.any (fun t => t.ask == a) then none else some (mk (0x40 + c.kind % 4) c.node 3 la 0 0 0)
    | none => none)
  | .fw o dst off v =>
    if 0x3FFF ≤ dst then none
    else if o = 0x30 then some (mk o dst 2 off 0 0 0)
    else if o = 0x20 ∨ o = 0x31 then some (mk o dst 2 off 0 v.toNat 0)
    else none

/-! Ends of a transaction at its agent. -/

/-- Drop a request that waited for a remote home. -/
def dropAsk (s : State) (a : TxnAsk) : State := match a with
  | .line r => { s with home := { s.home with guestReqs := s.home.guestReqs.erase r } }
  | _ => s

/-- The head's request of this line that the remote home failed ends (R106): a host's write waits as a write or, as it came, as a write-back. -/
def guestFail (s : State) (r : HomeReq) (st : Nat) : State :=
  let isWrite := fun (k : ReqKind) => k == .write || k == .writeBack
  match s.home.waiting.find? (fun q => q.la == r.la && (q.kind == r.kind || (isWrite q.kind && (r.kind == .write || r.kind == .readExclusive)))) with
  | none => s
  | some q =>
    let s0 := { s with home := { s.home with waiting := s.home.waiting.erase q } }
    let s1 := match q.who with
      | .port p tag gen =>
        if isWrite q.kind then withhold s0 p tag gen st
        else
          let s2 := cplHost s0 p tag gen 0 true 0
          (match tracked s0 p tag gen with
          | some t => portEvent s2 p st (srcId 1 p) t.dpa
          | none => s2)
      | _ => reply s0 q none false st 0
    pump s1

/-- A transaction ends without a completion, with this status (R355, R363, R371, R239). -/
def endAsk (s : State) (a : TxnAsk) (tid st : Nat) : State :=
  match a with
  | .line r =>
    (match r.who with
    | .dev _ => if r.kind = .writeBack ∨ r.kind = .cleanEvict then s else guestFail s r st
    | _ => answer s r none false st 0)
  | .snoop la b =>
    (match s.home.recalls.find? (fun c => c.la == la && c.bit == b) with
    | some c => pump (recallLost s c c.node)
    | none => s)
  | .fw _ _ _ _ => s.put (.fwDone tid 0 st)

/-- FSEQ of the next transaction of a flow, and the flow record with it advanced (R359, R366); none: the record must wait. DESIGN CHOICE (log entry 164): of a record
that cannot be read, which the manual does not speak of, FSEQ is a free value. -/
def takeFseq (s : State) (dst ocls : Nat) : Option (Nat × State) :=
  if maxNode s < dst then
    let k := dst * 4 + ocls
    let v := tabGet (fun _ => 0) s.seam.fseq k
    some (v, { s with seam := { s.seam with fseq := tabSet (fun _ => 0) s.seam.fseq k ((v + 1) % 65536) } })
  else
    let la := dfFlowLa s dst
    match dfRead s la with
    | (none, _) => none
    | (some none, s1) => some (s1.free 16)
    | (some (some d), s1) =>
      let v := dfGet d la (64 + 16 * ocls) 16
      (dfWrite s1 la (dfPut d la (64 + 16 * ocls) 16 ((v + 1) % 65536))).map fun t => (v, t)

/-- Same flow (R359). -/
def sameFlow (a b : Msg) : Bool := a.dst == b.dst && a.ocls == b.ocls

/-- What the guest holds once its write-back is on its way (R244): shared, or nothing. -/
def rightsOf (s : State) (la : Nat) : Nat := tabGet (fun _ => 0) s.home.guestRights (la / 64)
def setRights (s : State) (la v : Nat) : State :=
  { s with home := { s.home with guestRights := tabSet (fun _ => 0) s.home.guestRights (la / 64) v } }

/-- The registers that a link partner may read (R354). -/
def linkLocalReg (off : Nat) : Bool := off == GLB_ID || off == FAB_NODEID || (List.range 16).any (fun q => off == PRT_SEAMSTAT q)

/-- A CtlRd for the link partner of port `p` (R354): not a transaction, with a TID that firmware gives. -/
def linkRead (p off tid : Nat) (s : State) : State :=
  if p < 16 ∧ seamLive s p ∧ linkLocalReg off then
    pushTx s p { opc := 0x30, dst := 0x3FFF, src := ownNode s, tid := tid % 2 ^ 32, ocls := 2, reissue := false, ttl := 31, status := 0, dl := 0, grant := 0,
                 addr := mkAddr off 0 0, data := 0 }
  else s

/-- A source originates a transaction (R355, R358 to R360, R363, R371), behind what its flow still has to send (R361, R363). -/
def issueNew (a : TxnAsk) (s0 : State) : State :=
  let s := routeWaiting s0
  match askMsg s a with
  | none => s
  | some m =>
    if 4096 ≤ s.seam.txs.length then s
    else if s.fget FAB_CFG F.FAB_CFG_ORIG_EN = 0 then endAsk (dropAsk s a) a 0 C.FAB_E_ORIG_DISABLED
    else if ownNode s = 0x3FFF ∨ (m.dst ≠ ownNode s ∧ (routePort s m 16).isNone) then endAsk (dropAsk s a) a 0 C.FAB_E_NO_ROUTE
    else match takeFseq s m.dst m.ocls with
      | none => (dfHold s (dfFlowLa s m.dst)).2
      | some (f, s1) =>
        let t := nextTid s1.seam.txs 4096 s1.seam.tid
        let m1 := { m with tid := t, addr := mkAddr m.la f m.mask, dl := (s1.time / 1000 + 750 * s1.fget FAB_CFG F.FAB_CFG_GRACE_MS) % 2 ^ 24 }
        let go := s1.seam.skips.filter (sameFlow m)
        let seam1 : SeamState := { s1.seam with skips := s1.seam.skips.filter (fun k => !sameFlow m k), tid := (t + 1) % 2 ^ 32, txs := s1.seam.txs ++ [⟨m1, s1.time, a, 0⟩] }
        let s2 := go.foldl sendMsg { (dropAsk s1 a) with seam := seam1 }
        let s3 := match a with
          | .line r => if r.kind = .writeBack ∨ r.kind = .cleanEvict then setRights s2 r.la (if r.kind = .writeBack then r.mval % 2 else 0) else s2
          | _ => s2
        evFAB 0 (sendMsg s3 m1)

/-- What a source sends: a transaction, or firmware's CtlRd for a link partner, which names its port in the bits above the node ID 0x3FFF (log entry 179). -/
def issueTxn (a : TxnAsk) (s : State) : State :=
  match a with
  | .fw o dst off v => if o = 0x30 ∧ dst % 2 ^ 14 = 0x3FFF then linkRead (dst / 2 ^ 14) off v.toNat s else issueNew a s
  | _ => issueNew a s

/-- A source originates a transaction. -/
def execTransactionIssue (ask : TxnAsk) (s : State) : Res := .next (issueTxn ask s)

/-! Completions (R362). -/

def arrive (s : State) (la : Nat) (d : Option Line) (poison : Bool) : State :=
  { s with home := { s.home with arrived := ⟨la, d, poison⟩ :: s.home.arrived } }

/-- The first waiting read of the line is served as a view (R243): nothing is recorded or kept. -/
def viewFirst (la : Nat) : List HomeReq → List HomeReq
  | [] => []
  | q :: r => if q.la = la then { q with kind := if q.kind = .readShared ∨ q.kind = .readExclusive then .readCurrent else q.kind } :: r else q :: viewFirst la r

/-- The remote home has completed a request of the guest slice (R243 to R245). -/
def guestDone (s : State) (r : HomeReq) (m : Msg) : State :=
  let la := r.la
  let d : Line := BitVec.ofNat 512 m.data
  let poison := m.status == poisonMark
  if 2 ≤ statusClass m.status ∧ poison = false then
    if r.kind = .writeBack ∨ r.kind = .cleanEvict then s else guestFail s r m.status
  else match r.kind with
    | .writeBack =>
      (match lcFind s la with
      | some (k, e) =>
        let keep := r.mval = 1 ∧ e.st ≠ .poisoned
        pump (dropCopy (lcPut s k (if keep then some { e with st := .clean } else none)) la)
      | none => pump (dropCopy s la))
    | .cleanEvict => s
    | .write => pump (arrive s la none false)
    | .readCurrent => pump (arrive s la (some d) poison)
    | _ =>
      if m.status = C.DIR_W_RO_VIEW then
        pump (arrive { s with home := { s.home with waiting := viewFirst la s.home.waiting } } la (some d) poison)
      else if m.opc = 0x50 then pump (setRights s la 2)
      else
        let s1 := setRights s la (if m.grant = 0 then 0 else if m.grant = 1 then 1 else 2)
        let s2 := if m.grant = 3 then toHomeData s1 la d poison r.master
          else if m.grant = 0 ∨ poison ∨ (lcFind s1 la).isSome then s1 else lcFill s1 la d r.master false
        pump (arrive s2 la (some d) poison)

/-- What a snoop response says (R226): 0 RspI, 1 RspS, 2 RspO, 3 RspWbPending, and whether it carries data. -/
def rspOf (o : Nat) : Nat × Bool := if o = 0x65 then (1, true) else if o = 0x66 then (2, true) else (o - 0x60, false)

/-- The first completion retires a transaction (R358, R362). -/
def finishTxn (s : State) (t : Txn) (m : Msg) : State :=
  let poison := m.status == poisonMark
  match t.ask with
  | .fw _ _ _ _ => s.put (.fwDone m.tid (m.data % 2 ^ 64) m.status)
  | .snoop la b =>
    if 2 ≤ statusClass m.status ∧ poison = false ∨ m.opc < 0x60 then endAsk s t.ask m.tid m.status
    else
      let x := rspOf m.opc
      recallAnswer la b x.1 (if x.2 then some (BitVec.ofNat 512 m.data) else none) poison s
  | .line r =>
    match r.who with
    | .dev _ => guestDone s r m
    | _ =>
      if 2 ≤ statusClass m.status ∧ poison = false then answer s r none false m.status 0
      else answer s r (some (BitVec.ofNat 512 m.data)) poison 0 0

/-- The message completes something. -/
def isCpl (o : Nat) : Bool := o == 0x44 || (0x50 ≤ o && o ≤ 0x66)

/-- A completion arrives (R362). -/
def completionReceive (p vc : Nat) (s : State) : State :=
  match rxHead s p vc with
  | none => s
  | some (m, _) =>
    if isCpl m.opc = false ∨ m.dst ≠ ownNode s ∨ m.dst = 0x3FFF then s
    else
      let s0 := rxPop s p vc
      match s0.seam.txs.find? (fun t => t.msg.tid == m.tid && t.msg.dst == m.src) with
      | none => evFAB 6 (fabCount s0 C.FAB_W_LATE_COMPLETION)
      | some t => finishTxn { s0 with seam := { s0.seam with txs := s0.seam.txs.erase t } } t m

/-- A completion arrives. -/
def execCompletionReceive (p vc : Nat) (s : State) : Res := .next (completionReceive p vc s)

/-! Reissue (R361). -/

/-- Distance of a transaction from FSEQ `f` in its flow. -/
def fseqFrom (f : Nat) (t : Txn) : Nat := (t.msg.fseq + 65536 - f) % 65536

def insBy (f : Nat) (t : Txn) : List Txn → List Txn
  | [] => [t]
  | u :: r => if fseqFrom f t < fseqFrom f u then t :: u :: r else u :: insBy f t r

/-- Every outstanding transaction of the flow from FSEQ `f` on is sent again, in order. -/
def reissueFlow (s : State) (m : Msg) (f : Nat) : State :=
  let go := (s.seam.txs.filter (fun t => sameFlow t.msg m && decide (fseqFrom f t < 32768))).foldl (fun l t => insBy f t l) []
  let s1 := { s with seam := { s.seam with txs := s.seam.txs.map (fun t => if go.contains t then { t with again := t.again + 1 } else t) } }
  go.foldl (fun t x => evFAB 2 (fabCount (sendMsg t { x.msg with reissue := true }) C.FAB_W_REISSUED)) s1

/-- A LostNote arrives (R361). -/
def lostNoteReceive (p : Nat) (s : State) : State :=
  match rxHead s p 5 with
  | none => s
  | some (m, _) =>
    if m.opc ≠ 0x32 ∨ m.dst ≠ ownNode s then s
    else
      let s0 := rxPop s p 5
      match s0.seam.txs.find? (fun t => t.msg.tid == m.tid) with
      | none => s0
      | some t => reissueFlow s0 t.msg t.msg.fseq

/-- A LostNote arrives. -/
def execLostnoteReceive (p : Nat) (s : State) : Res := .next (lostNoteReceive p s)

/-- The RETRY time of a transaction has passed (R361). -/
def execTransactionRetry (tid : Nat) (s : State) : Res :=
  .next (match s.seam.txs.find? (fun t => t.msg.tid == tid) with
    | some t => reissueFlow s t.msg t.msg.fseq
    | none => s)

/-- The grace period of a transaction has passed (R363, R364). -/
def graceExpiry (tid : Nat) (s : State) : State :=
  match s.seam.txs.find? (fun t => t.msg.tid == tid) with
  | none => s
  | some t =>
    let left := s.seam.txs.erase t
    let skip := { t.msg with opc := 0x33, reissue := false, dl := 0, status := 0, grant := 0, addr := mkAddr 0 t.msg.fseq 0, data := 0 }
    let s1 := { s with seam := { s.seam with txs := left } }
    let s2 := if left.any (fun u => sameFlow u.msg t.msg && decide (fseqFrom t.msg.fseq u < 32768)) then sendMsg s1 skip
      else { s1 with seam := { s1.seam with skips := s1.seam.skips ++ [skip] } }
    endAsk (evFAB 7 (fabStat s2 F.FAB_STAT_UNREACH)) t.ask tid C.FAB_E_UNREACHABLE

/-- The grace period of a transaction has passed. -/
def execGraceExpiry (tid : Nat) (s : State) : Res := .next (graceExpiry tid s)

/-! FAB_DFCLEAR (R370). -/

/-- A clear ends: the source is served again (R370). -/
def dfClearEnd (s : State) (n : Nat) : State :=
  { s with seam := { s.seam with clear := none, bad := s.seam.bad.filter (fun b => b.1 != n) } }.fset FAB_DFCLEAR F.FAB_DFCLEAR_BUSY 0

/-- The flow record's line without the source part of node `n` (R370). Of a line that cannot be read the rest is lost too: DESIGN CHOICE (log entry 182), the next FSEQ of
this device's own flows become free values, and the neighbour in the line is refused until its own clear. -/
def dfFlowClear (s : State) (n : Nat) : Option State :=
  let la := dfFlowLa s n
  match dfRead s la with
  | (none, _) => none
  | (some (some d), s1) => dfWrite s1 la (dfPut (dfPut d la 0 64 0) la 128 4 0)
  | (some none, s1) =>
    let o := if la % 64 = 0 then n + 1 else n - 1
    let f := s1.free 128
    let d := dfPut (dfPut 0 la 64 64 (f.1 % 2 ^ 64)) (dfFlowLa s o) 64 64 (f.1 / 2 ^ 64)
    (dfWrite f.2 la d).map fun t => { t with seam := { t.seam with bad := (o, la / 64 * 64) :: t.seam.bad } }

/-- The clear under way goes on, line by line: one source's filter entries and annex, then the source part of its flow record (R370). It waits where a line cannot be
written yet; a line whose page is not stored is passed over. -/
def dfClearGo : Nat → State → State
  | 0, s => s
  | k + 1, s =>
    match s.seam.clear with
    | none => s
    | some (n, i) =>
      let on := fun (t : State) => dfClearGo k { t with seam := { t.seam with clear := some (n, i + 1) } }
      if i < 5120 then
        let la := dfBase s + n * 0x50000 + 64 * i
        let r := dfStore s la 0
        if r.1 then on r.2 else if (descOf r.2 (la / 4096)).isSome ∧ stored r.2 la = false then on r.2 else r.2
      else match dfFlowClear s n with
        | some t => dfClearEnd t n
        | none => (dfHold s (dfFlowLa s n)).2

/-! The proxy (R227, R244, R353). -/

/-- A snoop is answered (R352, R369); none: its record must wait. -/
def snoopAnswer (s : State) (a : InTxn) (opc status data : Nat) : Option State :=
  let s0 := { s with seam := { s.seam with snoops := s.seam.snoops.erase a } }
  (if a.dup.isSome then some s0 else (dfDone s0 a.msg true false 0 status).map dupsGo).map fun t => sendMsg t (reqAnswer t a.msg opc status 0 data)

/-- The guest line of a snoop: LA at the home that sent it. -/
def snoopLa (m : Msg) : Nat := 2 ^ 47 + m.src * 2 ^ 47 + m.la / 64 * 64

/-- The proxy's own holders have answered: its resulting state and data (R226, R353). The second answer to a SnpClean gives the data of the line that the first one
left clean once more: the first may have been RspSD (log entry 180). -/
def proxyAnswer (s : State) (a : InTxn) : Option State :=
  let la := snoopLa a.msg
  let kind := a.msg.opc - 0x40
  let rights := rightsOf s la
  let held : Option LcEntry := match lcFind s la with
    | some x => some x.2
    | none => (copyFind s la).map (·.2)
  match held with
  | none =>
    let holds := dirOf s la
    if kind = 0 then snoopAnswer (setRights s la 0) a 0x60 0 0
    else if holds.state = 0 ∧ rights = 0 then snoopAnswer s a 0x60 0 0
    else if kind = 3 then snoopAnswer s a (if rights = 2 then 0x62 else 0x61) 0 0
    else snoopAnswer (setRights s la (min rights 1)) a 0x61 0 0
  | some e =>
    let dirty := e.st != .clean
    let status := if e.st = .poisoned then poisonMark else 0
    let d := e.data.toNat
    if kind = 0 then
      if dirty then
        let s1 := { s with home := { s.home with guestReqs := s.home.guestReqs.filter (fun q => !(q.la == la && q.kind == .writeBack)) } }
        let s2 := guestAsk s1 { kind := .writeBack, who := .dev 1, la := la, data := e.data, mask := fullMask, poison := e.st == .poisoned, master := e.master, mval := 0 }
        snoopAnswer (setRights s2 la 0) a 0x63 0 0
      else snoopAnswer (guestDrop s la) a 0x60 0 0
    else if kind = 1 then
      if dirty then
        let s1 := match lcFind s la with
          | some (k, x) => dropCopy (lcPut s k (if x.st = .poisoned then none else some { x with st := .clean })) la
          | none => dropCopy s la
        snoopAnswer (setRights s1 la 1) a 0x65 status d
      else snoopAnswer (setRights s la (min rights 1)) a (if a.dup.isSome then 0x65 else 0x61) 0 (if a.dup.isSome then d else 0)
    else if kind = 2 then
      if dirty then snoopAnswer (setRights s la 1) a 0x66 status d
      else snoopAnswer (setRights s la (min rights 1)) a 0x61 0 0
    else if dirty then snoopAnswer s a 0x66 status d
    else snoopAnswer s a (if rights = 2 then 0x62 else 0x61) 0 0

/-- A proxy carries out a snoop (R227, R244, R373): it waits for its own completion on the line, recalls its own holders, then answers. -/
def proxySnoop (node tid : Nat) (s0 : State) : State :=
  match s0.seam.snoops.find? (fun a => a.msg.src == node && a.msg.tid == tid) with
  | none => s0
  | some a =>
    let s := (dfHold s0 (dfEntryLa s0 node tid)).2
    let la := snoopLa a.msg
    if (dcFind s (la / 4096)).isNone then (snoopAnswer (fabReport s C.FAB_F_PROTOCOL la node) a 0x60 0 0).getD s
    else if s.seam.txs.any (fun t => match t.ask with
        | .line r => r.la == la && (match r.who with
          | .dev _ => true
          | _ => false)
        | _ => false) then s
    else if recallsOut s la ∨ s.home.evicting.contains la then s
    else
      let e := dirOf s la
      if a.msg.opc = 0x40 ∧ e.state ≠ 0 then evictLine s la
      else if a.msg.opc ≠ 0x40 ∧ 2 ≤ e.state then sendRecall s la e.owner 1 false
      else (proxyAnswer s a).getD s

/-- A device acting as a proxy takes a snoop. -/
def execProxySnoop (node tid : Nat) (s : State) : Res := .next (proxySnoop node tid s)

/-- A Spool notice is delivered (R374): `p` is the port at which it has arrived. -/
def svcNotice (p : Nat) (s : State) : State :=
  match rxHead s p 4 with
  | none => s
  | some (m, _) => if m.opc ≠ 0x21 ∨ m.dst ≠ ownNode s then s else (rxPop s p 4).put (.notice m.src (m.la % 1024))

/-- A SvcNotice is delivered to the submitter. -/
def execSvcNotice (p : Nat) (s : State) : Res := .next (svcNotice p (seamFlush s))

end Sys2Proof.Machine
end

