-- ==== Sys2Proof/Machine/SeamFlit.lean ====
section
/-! DEFINITION. The commands of a Seam link (chapter 10): flits sent and received (R328, R333 to R342), link states (R344 to R348), forwarding (R354 to
R357), and skip blocks with their lane-map bytes (R562). -/

namespace Sys2Proof.Machine

/-! Sending (R328, R333, R338). -/

/-- The lane-map byte that answers the partner's request (R562, R563 steps 2 and 4). -/
def mapForRequest (b : Nat) : Nat := if bit b 4 then 0x80 + b % 16 + 16 + (if bit b 5 then 32 else 0) else 0x80

/-- A skip block is due after 4,096 flits (R328). -/
def sendSkip (s : State) (p : Nat) : State :=
  let x := s.sp p
  if x.sent < 4096 then s
  else
    let a := mapForRequest x.gotB
    (s.setSp p { x with sent := 0, mapA := a }).put (.skip p a x.mapB)

/-- A flit leaves the port. -/
def putFlit (s : State) (p : Nat) (f : BitVec 2048) : State :=
  let x := s.sp p
  evSeam p 5 ((s.setSp p { x with sent := x.sent + 1 }).put (.flit p f))

/-- What a message's header leaving the pins brings about: counts, and the notch timestamps t1 and t3 (R376). -/
def headerLeaves (p : Nat) (s : State) (m : Msg) : State :=
  let s1 := if m.vc = 1 ∨ m.vc = 3 then evSeam p 3 s else if 0x40 ≤ m.opc ∧ m.opc ≤ 0x43 then evSeam p 9 s else s
  if m.opc = 0x70 then
    pushTx s1 p { m with opc := 0x71, addr := nowStamp s1 / 65536 % 2 ^ 64 + nowStamp s1 % 65536 * 2 ^ 64 + getBits m.addr 80 16 * 2 ^ 80 }
  else if m.opc = 0x72 then { s1 with seam := { s1.seam with notch := { s1.seam.notch with t3 := nowStamp s1 } } }
  else s1

/-- A NULL flit: no messages, its payload zero (R330, R338). -/
def sendNull (s : State) (p : Nat) (key : Nat × Nat) : State :=
  let x := s.sp p
  let h := newHeader s x 0 x.ctl
  let f := flitBuild key false (2 * x.ctl + 1) h.1 (List.replicate 224 0)
  putFlit ((s.setSp p { h.2 with ctl := x.ctl + 1 }).fset (PRT_SEAMSTAT p) F.PRT_SEAMSTAT_TXSLOT x.txSlot) p f

/-- A new DATA flit with these units (R337, R349). -/
def sendData (s : State) (p : Nat) (key : Nat × Nat) (us : List Nat) (ms : List Msg) (x : SeamPort) : State :=
  let pay := us.flatMap (leBytes 16)
  let h := newHeader s x 1 x.txNext
  let f := flitBuild key false (2 * x.txNext) h.1 (pay ++ List.replicate (224 - pay.length) 0)
  putFlit ((s.setSp p { h.2 with txNext := x.txNext + 1, buf := x.buf ++ [⟨x.txNext, f, ms.eraseDups⟩] }).fset (PRT_SEAMSTAT p) F.PRT_SEAMSTAT_TXSLOT x.txSlot) p f

/-- The transmitter of an ACTIVE link sends its next flit: a replayed one, a new DATA flit, or a NULL flit. -/
def sendFlit (s0 : State) (p : Nat) : State :=
  let x0 := s0.sp p
  match linkKey s0 p 0 x0.txSlot with
  | none => s0
  | some key =>
    let s := sendSkip s0 p
    let x := s.sp p
    match x.resend with
    | q :: rest =>
      (match x.buf.find? (fun f => f.seq == q) with
      | some f => evSeam p 6 (putFlit (s.setSp p { x with resend := rest }) p f.flit)
      | none => s.setSp p { x with resend := rest })
    | [] =>
      if 1024 ≤ x.buf.length then sendNull s p key
      else
        let r := fillUnits 14 x
        let s1 := if x.txq ≠ [] ∧ (pickMsg x.cred [] x.txq).isNone then evSeam p 14 s else s
        if r.1 = [] then sendNull s1 p key
        else r.2.2.1.foldl (headerLeaves p) (sendData s1 p key r.1 r.2.1 r.2.2.2)

/-- A Seam transmitter sends its next flit. -/
def flitTransmit (p : Nat) (s : State) : State :=
  let s1 := dfClearGo 5121 (seamFlush s)
  if seamLive s1 p ∧ p < 16 then sendFlit s1 p else s1

/-- A Seam transmitter sends its next flit. -/
def execFlitTransmit (p : Nat) (s : State) : Res := .next (flitTransmit p s)

/-! RSYNC (R345, R346). -/

/-- Credits advertised by VC (R341). -/
def vcCredits : List Nat := [512, 640, 256, 512, 128, 64, 16, 944]

def credWord : List Nat → Nat
  | [] => 0
  | c :: r => c + 65536 * credWord r

/-- Payload of an RSYNC flit (R345). -/
def rsyncPayload (s : State) (p : Nat) (x : SeamPort) : Bytes :=
  leBytes 2 (ownNode s) ++ [p, if x.up then 1 else 0] ++ leBytes 4 x.myGen ++ leBytes 4 x.peerGen ++ leBytes 8 x.rxNext ++ leBytes 8 x.txNext ++
    leBytes 8 x.ctl ++ leBytes 16 (credWord vcCredits) ++ List.replicate 172 0

/-- In INIT a port sends an RSYNC; the one after a valid one was received is the last, and the link is ACTIVE (R346). It waits until the VC buffers of
the earlier run are empty. -/
def rsyncSend (p : Nat) (s : State) : State :=
  if linkState s p ≠ 2 ∨ seamMode s p = false then s
  else if linkKeyed s p = false then s.fset (PRT_SEAMSTAT p) F.PRT_SEAMSTAT_NOKEY 1
  else
    match linkKey s p 0 (s.sp p).txSlot with
    | none => s
    | some key =>
      let s := sendSkip s p
      let x := s.sp p
      let h := newHeader s x 2 x.ctl
      let f := flitBuild key true (2 * x.ctl + 1) h.1 (rsyncPayload s p x)
      let s1 := putFlit ((s.setSp p { h.2 with ctl := x.ctl + 1 }).fset (PRT_SEAMSTAT p) F.PRT_SEAMSTAT_TXSLOT x.txSlot) p f
      if x.got = 1 ∧ x.stale = false then setLink s1 p 3 else s1

/-- In INIT a port sends an RSYNC. -/
def execRsyncSend (p : Nat) (s : State) : Res := .next (rsyncSend p s)

def bytesAt (b : Bytes) (i n : Nat) : Nat := leNat ((b.drop i).take n)

/-- The link resumes (R346): the partner's RXNEXT acknowledges, and the rest is replayed, which counts as a replay (R340). -/
def initResume (s : State) (p rxn : Nat) : State :=
  let x := s.sp p
  let b := x.buf.filter (fun f => rxn ≤ f.seq)
  let kept := b.length = x.buf.length
  startReplay ((s.setSp p { x with buf := b, got := 1, repAt := if kept then x.repAt else 0, repCnt := if kept then x.repCnt else 0 }).fset (PRT_SEAMSTAT p)
    F.PRT_SEAMSTAT_RESUMED 1) p

/-- What R348 drops at the next full initialisation of port `p`: messages in transit, and messages of this device that wait for a port, whose route has no live port
and names `p`, or that have come by `p` and have no route. -/
def dropHeld (s : State) (p : Nat) : State :=
  let dead := fun (own : Bool) (m : Msg) => m.dst != ownNode s && m.dst != 0x3FFF && (routePort s m 16).isNone &&
    (own || s.ftest (FAB_ROUTE m.dst) F.FAB_ROUTE_PORTS p || s.fget (FAB_ROUTE m.dst) F.FAB_ROUTE_MODE == 0)
  let s1 := { s with seam := { s.seam with outq := s.seam.outq.filter (fun m => !dead false m) } }
  (List.range 16).foldl (fun t q => let x := t.sp q; t.setSp q { x with rxq := x.rxq.filter (fun e => !dead (q == p) e.1) }) s1

def credTab (cred : Nat) : Tab Nat := (List.range 8).foldl (fun t i => tabSet (fun _ => 0) t i (cred / 65536 ^ i % 65536)) []

/-- A full initialisation (R346): new generation, the replay buffer as in DOWN, credits afresh. -/
def initFull (s : State) (p gen txn cred : Nat) : State :=
  let s1 := dropHeld (dropRouted s p) p
  let g := s1.rand 32
  let x := s1.sp p
  let y : SeamPort := { x with buf := [], resend := [], cur := none, units := [], stream := [], cred := credTab cred, owed := [], rxNext := txn, rxAny := false, stale := !x.rxq.isEmpty }
  let z : SeamPort := { y with myGen := g.1, peerGen := gen, up := true, got := 1, repAt := 0, repCnt := 0 }
  (g.2.setSp p z).fset (PRT_SEAMSTAT p) F.PRT_SEAMSTAT_RESUMED 0

/-- A valid RSYNC has arrived (R345, R346). -/
def rsyncTaken (s : State) (p : Nat) (pay : Bytes) : State :=
  let node := bytesAt pay 0 2 % 2 ^ 14
  let gen := bytesAt pay 4 4
  let x := s.sp p
  let s1 := ((s.fset (PRT_SEAMSTAT p) F.PRT_SEAMSTAT_PARTNER node).fset (PRT_SEAMSTAT p) F.PRT_SEAMSTAT_PPORT (bytesAt pay 2 1 % 16))
  if linkState s p = 3 then s1.setSp p { x with peerGen := gen }
  else if linkState s p ≠ 2 then s1
  else if s.fget (PRT_SEAMCFG p) F.PRT_SEAMCFG_EXPECT_EN = 1 ∧ node ≠ s.fget (PRT_SEAMCFG p) F.PRT_SEAMCFG_EXPECT then
    s1.report (srcId 1 p) 0 C.PRT_E_PARTNER 0 node
  else if x.got = 1 then s1.setSp p { x with peerGen := gen }
  else if x.up ∧ bytesAt pay 3 1 % 2 = 1 ∧ bytesAt pay 8 4 = x.myGen ∧ gen = x.peerGen then initResume s1 p (bytesAt pay 12 8)
  else initFull s1 p gen (bytesAt pay 20 8) (bytesAt pay 36 16)

/-- An RSYNC flit after correction and CRC: its tag and its control count decide whether it is valid (R334, R336, R346). -/
def rsyncChecked (s : State) (p : Nat) (b : Bytes) : State :=
  let h := leNat (b.take 10)
  let slot := getBits h 4 1
  let pay := (b.drop 10).take 224
  let ctl := bytesAt pay 28 8
  match linkKey s p 1 slot with
  | none => tagFail s p
  | some key =>
    if (flitSeal key true (2 * ctl + 1) (b.take 10) pay).2 ≠ (b.drop 234).take 8 then tagFail s p
    else
      let x := s.sp p
      if ctl < tabGet (fun _ => 0) x.slotCtl slot then s
      else
        let x1 := { x with slotCtl := tabSet (fun _ => 0) x.slotCtl slot (ctl + 1), lastCtl := ctl, crcRun := 0 }
        rsyncTaken (takeHeader ((s.setSp p x1).fset (PRT_SEAMSTAT p) F.PRT_SEAMSTAT_RXSLOT slot) p h) p pay

/-- The type of a corrected flit. -/
def flitType (b : Bytes) : Nat := getBits (leNat (b.take 10)) 0 4

/-- An RSYNC flit arrives in INIT or ACTIVE; one whose CRC fails is discarded as any flit is (R333). -/
def rsyncReceive (p : Nat) (flit : BitVec 2048) (s : State) : State :=
  if seamMode s p = false ∨ (linkState s p ≠ 2 ∧ linkState s p ≠ 3) then s
  else
    let f := flitFix flit
    let s1 := countFec (evSeam p 4 (if f.2 ≠ [] then evSeam p 7 s else s)) p f.2
    if flitCrcOk f.1 = false then crcFail s1 p else if flitType f.1 = 2 then rsyncChecked s1 p f.1 else s

/-- An RSYNC flit arrives. -/
def execRsyncReceive (p : Nat) (flit : BitVec 2048) (s : State) : Res := .next (rsyncReceive p flit s)

/-! Receiving (R333, R337). -/

/-- A DATA flit whose tag holds, with its sequence number (R337). -/
def dataChecked (s : State) (p h seq : Nat) (pay : Bytes) : State :=
  let x := s.sp p
  if seq = x.rxNext then
    let s1 := takeHeader (s.setSp p { x with rxNext := seq + 1, rxAny := true, nakAt := none, nakDue := false, crcRun := 0 }) p h
    takeUnits (s1.fset (PRT_SEAMSTAT p) F.PRT_SEAMSTAT_RXSLOT (getBits h 4 1)) p ((chunk 16 14 pay).map leNat)
  else if seq < x.rxNext then s.setSp p { x with crcRun := 0 }
  else wantNak (s.setSp p { x with crcRun := 0 }) p

/-- A flit after correction and CRC (R333, R334). -/
def flitChecked (s : State) (p : Nat) (b : Bytes) : State :=
  let h := leNat (b.take 10)
  let ft := flitType b
  if ft = 2 then rsyncChecked s p b
  else
    let x := s.sp p
    let n := if ft = 1 then extSeq x.rxNext (getBits h 8 16) else extCtl (x.lastCtl + 1) (getBits h 8 16)
    let c := (b.drop 10).take 224
    match linkKey s p 1 (getBits h 4 1) with
    | none => tagFail s p
    | some key =>
      let e := if ft = 1 then 2 * n else 2 * n + 1
      if (gcmTag (linkKeyBytes key.1) (flitIv key.2 e) (b.take 10) c).take 8 ≠ (b.drop 234).take 8 then tagFail s p
      else if ft = 1 then dataChecked s p h n (gcmCrypt (linkKeyBytes key.1) (flitIv key.2 e) c)
      else takeHeader ((s.setSp p { x with lastCtl := n, crcRun := 0 }).fset (PRT_SEAMSTAT p) F.PRT_SEAMSTAT_RXSLOT (getBits h 4 1)) p h

/-- A flit reaches an ACTIVE port, or one in INIT, which takes only RSYNC flits and discards others. -/
def flitReceive (p : Nat) (flit : BitVec 2048) (s : State) : State :=
  if seamMode s p = false ∨ (linkState s p ≠ 2 ∧ linkState s p ≠ 3) then s
  else
    let f := flitFix flit
    let s1 := countFec (evSeam p 4 (if f.2 ≠ [] then evSeam p 7 s else s)) p f.2
    if flitCrcOk f.1 = false then crcFail s1 p
    else if linkState s p = 2 ∧ flitType f.1 ≠ 2 then wantNak s1 p
    else flitChecked s1 p f.1

/-- A Seam receiver takes a flit. -/
def execFlitReceive (p : Nat) (flit : BitVec 2048) (s : State) : Res := .next (flitReceive p flit s)

/-- No ACK progress for RTO µs (R339, R340). -/
def execReplayTimeout (p : Nat) (s : State) : Res := .next (if seamLive s p then startReplay s p else s)

/-- A byte of which at least five copies agree (R562). -/
def majority (l : List Nat) : Option Nat := l.find? (fun b => 5 ≤ (l.filter (· == b)).length)

/-- A skip block arrives with eight copies of each lane-map byte (R328, R562). -/
def skipBlock (p : Nat) (a b : List Nat) (s : State) : State :=
  if seamLive s p = false then s
  else
    let x := s.sp p
    s.setSp p { x with gotA := (majority (a.take 8)).getD x.gotA % 256, gotB := (majority (b.take 8)).getD x.gotB % 256 }

/-- A skip block arrives. -/
def execSkipBlock (p : Nat) (copiesA copiesB : List Nat) (s : State) : Res := .next (skipBlock p copiesA copiesB s)

/-! Link states (R344). -/

/-- Lanes of a port that are fenced and that its spare does not carry: with one, a Seam link cannot run x16 (R569). -/
def lanesOut (s : State) (p : Nat) : List Nat := (List.range 16).filter (fun l => laneState s p l == 2 && (s.calp p).fixed != some l)

/-- A released Seam port, or one in DOWN, starts a training attempt. -/
def linkTrain (p : Nat) (s : State) : State :=
  if p < 16 ∧ seamMode s p ∧ s.fget (PRT_CFG p) F.PRT_CFG_RELEASE = 1 ∧ portFenced s p = false ∧ lanesOut s p = [] ∧ gated s (1 + p) = false ∧ s.pst < 2 ∧ (linkState s p = 0 ∨ linkState s p = 5) then setLink s p 1 else s

/-- A training attempt starts. -/
def execLinkTrain (p : Nat) (s : State) : Res := .next (linkTrain p s)

/-- Alignment is complete: the link enters INIT (R344), and waits there for keys (R346). -/
def linkAligned (p : Nat) (s : State) : State :=
  if seamMode s p ∧ (linkState s p = 1 ∨ linkState s p = 4) then
    let x := s.sp p
    ((setLink (calTrained s p) p 2).setSp p { x with got := 0, fails := 0 }).fset (PRT_SEAMSTAT p) F.PRT_SEAMSTAT_NOKEY (if linkKeyed s p then 0 else 1)
  else s

/-- Alignment is complete. -/
def execLinkAligned (p : Nat) (s : State) : Res := .next (linkAligned p s)

/-- Symbol lock is lost (R344); DEDUCED (log entry 181): in INIT too, which the table leaves only for ACTIVE. -/
def symbolLockLoss (p : Nat) (s : State) : State := if seamLive s p ∨ (seamMode s p ∧ linkState s p = 2) then seamRetrain s p else s

/-- Symbol lock is lost. -/
def execSymbolLockLoss (p : Nat) (s : State) : Res := .next (symbolLockLoss p s)

/-- A RETRAIN attempt has failed; the third in a row moves the link to DOWN (R344). -/
def retrainAttemptEnd (p : Nat) (s : State) : State :=
  if seamMode s p ∧ linkState s p = 4 then
    let x := s.sp p
    if 2 ≤ x.fails then seamDown s p else s.setSp p { x with fails := x.fails + 1 }
  else s

/-- A RETRAIN attempt has failed. -/
def execRetrainAttemptEnd (p : Nat) (s : State) : Res := .next (retrainAttemptEnd p s)

/-- Symbol lock has been lost for 2 ms without a break (R344, R348). -/
def execLinkDown (p : Nat) (s : State) : Res := .next (if seamMode s p ∧ 2 ≤ linkState s p ∧ linkState s p ≤ 4 then seamDown s p else s)

/-! Forwarding (R354, R355). -/

/-- A message for another node is sent on, or discarded when its hops are used up. One without a live port stays where it is (R348). -/
def messageRoute (p vc : Nat) (s : State) : State :=
  match rxHead s p vc with
  | none => s
  | some (m, _) =>
    if m.dst = ownNode s ∨ m.dst = 0x3FFF ∨ ownNode s = 0x3FFF ∨ s.devLevel = 4 then s
    else if m.ttl ≤ 1 then fabReport (evFAB 13 (fabStat (rxPop s p vc) F.FAB_STAT_LOOP)) C.FAB_F_ROUTE_LOOP 0 m.src
    else match routePort s m 16 with
      | none => s
      | some q => evFAB 12 (pushTx (rxPop s p vc) q { m with ttl := m.ttl - 1 })

/-- A message for another node is forwarded. -/
def execMessageRoute (p vc : Nat) (s : State) : Res := .next (messageRoute p vc s)

/-- FAB_ROUTEd (R355, R357, R383). -/
def hookRoute : Hook := fun idx _ new _ s =>
  let ports := fld new F.FAB_ROUTE_PORTS
  if fld new F.FAB_ROUTE_MODE = 3 ∨ (List.range 16).any (fun p => bit ports p && hostMode s p) then (s, C.FAB_E_CONFIG)
  else (s.setRg (FAB_ROUTE (idx.headD 0)) (BitVec.ofNat 64 new), 0)

/-- A write of FAB_ROUTEd. -/
def execRouteWrite (who : Who) (d : Nat) (val : Word) (s : State) : Res := .next (rowWrite hookRoute who (FAB_ROUTE d) val s)

/-- FAB_CFG (R383): GRACE_MS and RETRY lie in 1 to 10,000; ORIG_EN is cleared only by cold reset. -/
def hookFabCfg : Hook := fun _ old new _ s =>
  let g := fld new F.FAB_CFG_GRACE_MS
  let r := fld new F.FAB_CFG_RETRY
  if g = 0 ∨ 10000 < g ∨ r = 0 ∨ 10000 < r then (s, C.FAB_E_CONFIG)
  else (s.setRg FAB_CFG (BitVec.ofNat 64 (putf new F.FAB_CFG_ORIG_EN (max (fld new F.FAB_CFG_ORIG_EN) (fld old F.FAB_CFG_ORIG_EN)))), 0)

/-- FAB_DFCLEAR (R370): refused while a clear runs. -/
def hookDfClear : Hook := fun _ _ _ act s =>
  let n := fld act F.FAB_DFCLEAR_NODE
  if fld act F.FAB_DFCLEAR_GO = 0 then (s, 0)
  else if s.fget FAB_DFCLEAR F.FAB_DFCLEAR_BUSY = 1 then (s, C.FAB_E_CONFIG)
  else if maxNode s < n then (s, 0)
  else (dfClearGo 5121 ({ s with seam := { s.seam with clear := some (n, 0) } }.fset FAB_DFCLEAR F.FAB_DFCLEAR_BUSY 1), 0)

/-- FAB_DFCLEAR.GO. -/
def execFabDfclear (who : Who) (val : Word) (s : State) : Res := .next (rowWrite hookDfClear who FAB_DFCLEAR val s)

/-! Fabric time (R376 to R379). -/

/-- Time jumps; measurements under way contain a step (R448). -/
def stepTime (s : State) (t : Nat) : State :=
  { s with time := t / 65536 % 2 ^ 64, seam := { s.seam with frac := t % 65536, corr := 0, notch := { s.seam.notch with good := t / 65536 % 2 ^ 64 } },
           ports := s.ports.map (fun e => (e.1, { e.2 with trk := e.2.trk.map (fun r => { r with born := 2 ^ 64 }) })),
           home := { s.home with waiting := s.home.waiting.map (fun r => { r with born := 2 ^ 64 }) },
           spools := s.spools.map (fun e => (e.1, { e.2 with cmds := e.2.cmds.map (fun c => { c with born := 2 ^ 64 }) })),
           chans := s.chans.map (fun e => (e.1, { e.2 with regul := { e.2.regul with held := e.2.regul.held.map (fun r => { r with born := 2 ^ 64 }) } })) }

/-- FAB_TIMESET (R379). -/
def hookTimeSet : Hook := fun _ _ _ act s =>
  if s.fget FAB_TIMECFG F.FAB_TIMECFG_GM = 1 then (stepTime s (fld act F.FAB_TIMESET_NS * 65536), 0) else (s, C.FAB_E_CONFIG)

/-- A write of FAB_TIMESET. -/
def execTimeSet (who : Who) (val : Word) (s : State) : Res := .next (rowWrite hookTimeSet who FAB_TIMESET val s)

/-- Drift in holdover (R378): once in 2^20 ns fabric time differs by a free value of at most 52.4 ps, 50 ns in a second, from its last corrected rate; in units of
1/65,536 ns, with 3,436 added. -/
def driftOf (s : State) : Nat × State :=
  if s.fget FAB_TIMESTAT F.FAB_TIMESTAT_HOLDOVER = 1 ∧ s.time % 2 ^ 20 = 0 then
    let f := s.free 32
    (f.1 % 6873, f.2)
  else (3436, s)

/-- One nanosecond passes: fabric time advances, and the correction is slewed in at no more than 10 parts in a million (R376).
Axtil carries the time every 65,536 ns (R577). -/
def tickTime (s : State) : State :=
  let room := s.seam.slew + 65536
  let go := 100000 ≤ room ∧ s.seam.corr ≠ 0
  let d : Nat := if go then (if 0 < s.seam.corr then 65537 else 65535) else 65536
  let w := driftOf s
  let t := s.time * 65536 + s.seam.frac + d + w.1 - 3436
  let sm := { s.seam with frac := t % 65536, slew := if go then room - 100000 else min room 100000,
                          corr := if go then (if 0 < s.seam.corr then s.seam.corr - 1 else s.seam.corr + 1) else s.seam.corr }
  let s1 : State := { w.2 with time := t / 65536 % 2 ^ 64, seam := sm }
  if s1.time % 65536 = 0 ∧ s.time % 65536 ≠ 0 then s1.axt 6 0 s1.time else s1

def timeEn (s : State) : Bool := s.fget FAB_TIMECFG F.FAB_TIMECFG_EN == 1
def upPort (s : State) : Nat := s.fget FAB_TIMECFG F.FAB_TIMECFG_UPPORT
def isGM (s : State) : Bool := s.fget FAB_TIMECFG F.FAB_TIMECFG_GM == 1

/-- The device follows through this port. -/
def follows (s : State) (p : Nat) : Bool := timeEn s && !isGM s && p == upPort s

/-- A notch message (R376): link-local, with its timestamp, exchange number and VOID. -/
def notchMsg (opc ts ex : Nat) (void : Bool) : Msg :=
  { opc := opc, dst := 0x3FFF, src := 0x3FFF, tid := 0, ocls := 0, reissue := false, ttl := 31, status := 0, dl := 0, grant := 0,
    addr := ts / 65536 % 2 ^ 64 + ts % 65536 * 2 ^ 64 + ex % 65536 * 2 ^ 80 + (if void then 2 ^ 96 else 0), data := 0 }

/-- Timestamp of a notch message, in units of 1/65,536 ns. -/
def notchTs (m : Msg) : Nat := getBits m.addr 0 64 * 65536 + getBits m.addr 64 16
def notchEx (m : Msg) : Nat := getBits m.addr 80 16

/-- A device starts an exchange as master on a port that is not its own upstream port (R376). -/
def notchExchange (p : Nat) (s : State) : State :=
  if p < 16 ∧ seamLive s p ∧ timeEn s ∧ (isGM s ∨ p ≠ upPort s) then
    let n := s.seam.notch
    let x := s.sp p
    pushTx { (s.setSp p { x with replayedNotch := false }) with seam := { (s.setSp p { x with replayedNotch := false }).seam with notch := { n with next := (n.next + 1) % 65536 } } } p
      (notchMsg 0x70 0 n.next false)
  else s

/-- The master starts an exchange. -/
def execNotchExchange (p : Nat) (s : State) : Res := .next (notchExchange p s)

def setNotch (s : State) (n : Notch) : State := { s with seam := { s.seam with notch := n } }

/-- The notch message of opcode `opc` at the front of VC6, with its time of arrival. -/
def notchHead (s : State) (p opc : Nat) : Option (Msg × Nat) := match rxHead s p 6 with
  | some e => if e.1.opc = opc ∧ e.1.dst = 0x3FFF then some e else none
  | none => none

/-- Exchanges that the follower has missed since exchange `a`, when exchange `b` begins or ends (R378). -/
def missedFrom (a b : Nat) : Nat := (b + 65536 - a) % 65536 - 1

/-- NotchSync: the follower records t2. An exchange that has not come to its end is missed (R378). -/
def notchSync (p : Nat) (s : State) : State :=
  match notchHead s p 0x70 with
  | none => s
  | some (m, t) =>
    let s1 := rxPop s p 6
    if follows s p then
      let x := s1.sp p
      let n := s1.seam.notch
      setNotch (s1.setSp p { x with replayedNotch := false }) { n with ex := notchEx m, t1 := 0, t2 := t, t3 := 0, void := bit m.addr 96,
                                                                        missed := n.missed + missedFrom n.ex (notchEx m) + (if n.t2 = 0 then 0 else 1) }
    else s1

/-- NotchSync arrives. -/
def execNotchsync (p : Nat) (s : State) : Res := .next (notchSync p s)

/-- NotchFup: t1 arrives, and the follower sends NotchReq. -/
def notchFup (p : Nat) (s : State) : State :=
  match notchHead s p 0x71 with
  | none => s
  | some (m, _) =>
    let s1 := rxPop s p 6
    let n := s1.seam.notch
    if follows s p ∧ notchEx m = n.ex then
      pushTx (setNotch s1 { n with t1 := notchTs m, void := n.void || bit m.addr 96 }) p (notchMsg 0x72 0 n.ex false)
    else s1

/-- NotchFup arrives. -/
def execNotchfup (p : Nat) (s : State) : Res := .next (notchFup p s)

/-- NotchReq: the master records t4 and sends it; VOID when a flit of the exchange was replayed. -/
def notchReq (p : Nat) (s : State) : State :=
  match notchHead s p 0x72 with
  | none => s
  | some (m, t) => let s1 := rxPop s p 6; pushTx s1 p (notchMsg 0x73 t (notchEx m) ((s1.sp p).replayedNotch || bit m.addr 96))

/-- NotchReq arrives. -/
def execNotchreq (p : Nat) (s : State) : Res := .next (notchReq p s)

/-- A signed 16-bit field's value. -/
def signed16 (v : Nat) : Int := if v < 32768 then (v : Int) else (v : Int) - 65536

/-- Two's complement of a value limited to 16 bits. -/
def field16 (v : Int) : Nat := (max (-32768) (min 32767 v) % 65536).toNat

/-- The follower's servo (R376, R378): `off` positive when it is ahead. -/
def servo (s : State) (delay off : Int) : State :=
  let r := FAB_TIMESTAT
  let s1 := (((s.fset r F.FAB_TIMESTAT_OFFSET_PS (field16 (Int.tdiv (off * 1000) 65536))).fset r F.FAB_TIMESTAT_DELAY_NS (min (delay / 65536).toNat 65535)).fset r
    F.FAB_TIMESTAT_VALID 1).fset r F.FAB_TIMESTAT_HOLDOVER 0
  let s2 := if (s.fget FAB_TIMECFG F.FAB_TIMECFG_ALARM_NS : Int) * 65536 < off.natAbs then fabReport (s1.fset r F.FAB_TIMESTAT_ALARM 1) C.FAB_F_TIME 0 0 else s1
  if (1000 * 65536 : Int) < off.natAbs then (stepTime s2 ((nowStamp s2 : Int) - off).toNat).fset r F.FAB_TIMESTAT_STEP 1
  else { s2 with seam := { s2.seam with corr := -off } }

/-- NotchRsp: the follower computes delay and offset, and steps or slews (R376). -/
def notchRsp (p : Nat) (s : State) : State :=
  match notchHead s p 0x73 with
  | none => s
  | some (m, _) =>
    let s1 := rxPop s p 6
    let n := s1.seam.notch
    if follows s p = false ∨ notchEx m ≠ n.ex then s1
    else if n.void ∨ bit m.addr 96 ∨ (s1.sp p).replayedNotch then evFAB 15 (setNotch s1 { n with t2 := 0, missed := n.missed + 1 })
    else
      let s1 := (setNotch s1 { n with t2 := 0, missed := 0, good := s.time }).diagLog dlNOTCH p 16
        (n.ex, n.t1 + n.t2 * 2 ^ 80 + n.t3 * 2 ^ 160 + notchTs m * 2 ^ 240)
      let a : Int := (n.t2 : Int) - n.t1
      let b : Int := (notchTs m : Int) - n.t3
      let asym : Int := signed16 (s.fget (PRT_SEAMCFG p) F.PRT_SEAMCFG_ASYM_PS) * 65536 / 1000
      evFAB 14 (servo s1 (Int.tdiv (a + b) 2) (Int.tdiv (a - b - asym) 2))

/-- NotchRsp arrives. -/
def execNotchrsp (p : Nat) (s : State) : Res := .next (notchRsp p s)

/-- Eight exchanges in a row were missed or voided, or the upstream port is not ACTIVE (R378). Exchanges that never begin are told by the time since the last good
one. -/
def outOfSync (s : State) : Bool :=
  !seamLive s (upPort s) || decide (8 ≤ s.seam.notch.missed) ||
    decide (s.seam.notch.good + 8 * 2 ^ min 10 (s.fget FAB_TIMECFG F.FAB_TIMECFG_INTERVAL) * 1000 ≤ s.time)

/-- The follower enters holdover (R378). -/
def holdover (s : State) : State :=
  if timeEn s ∧ isGM s = false ∧ outOfSync s ∧ s.fget FAB_TIMESTAT F.FAB_TIMESTAT_HOLDOVER = 0 then
    evFAB 16 (fabCount (s.fset FAB_TIMESTAT F.FAB_TIMESTAT_HOLDOVER 1) C.FAB_W_TIME_HOLDOVER)
  else s

/-- The follower enters holdover. -/
def execHoldover (s : State) : Res := .next (holdover s)

/-- 10 ms of holdover have passed (R378). -/
def execHoldoverTimeout (s : State) : Res :=
  .next (if s.fget FAB_TIMESTAT F.FAB_TIMESTAT_HOLDOVER = 1 then s.fset FAB_TIMESTAT F.FAB_TIMESTAT_VALID 0 else s)

end Sys2Proof.Machine
end

