-- ==== Sys2Proof/Machine/Spools.lean ====
section
/-! DEFINITION. The Spool engine (chapter 09): rings and doorbells (R298 to R305), checks of a consumed command (R306), launch and placement (R307, R313
to R315), resets and aborts (R309 to R311), capabilities (R312), and what Basting mode stops (R319). -/

namespace Sys2Proof.Machine

/-! The state of a Spool. -/

def splState (s : State) (q : Nat) : Nat := s.fget (SPL_STAT q) F.SPL_STAT_STATE
def setSplState (s : State) (q v : Nat) : State := s.fset (SPL_STAT q) F.SPL_STAT_STATE v
def splEn (s : State) (q : Nat) : Bool := s.fget (SPL_CFG q) F.SPL_CFG_EN == 1
def splCons (s : State) (q : Nat) : Nat := s.fget (SPL_PROGRESS q) F.SPL_PROGRESS_CONS
def splTail (s : State) (q : Nat) : Nat := s.fget (SPL_DOORBELL q) F.SPL_DOORBELL_SQTAIL
def splHead (s : State) (q : Nat) : Nat := s.fget (SPL_DOORBELL q) F.SPL_DOORBELL_CQHEAD
def splDone (s : State) (q : Nat) : Nat := s.fget (SPL_PROGRESS q) F.SPL_PROGRESS_CQDONE

/-- ACTIVE, or BASTING while the device is in Basting mode. -/
def splLive (s : State) : Nat := if s.devLevel = 3 then 5 else 1

/-- How far `a` is ahead of `b`, modulo 2^32 (R303). -/
def ahead (a b : Nat) : Nat := (a + 2 ^ 32 - b) % 2 ^ 32

/-- `a` is larger than `b`, compared modulo 2^32. -/
def larger (a b : Nat) : Bool := ahead a b != 0 && decide (ahead a b < 2 ^ 31)

/-! Doorbells (R303). -/

/-- SPL_DOORBELL. -/
def hookDoorbell : Hook := fun idx _ new _ s0 =>
  let s := pwrAbort s0
  let q := idx.headD 0
  let t := fld new F.SPL_DOORBELL_SQTAIL
  let h := fld new F.SPL_DOORBELL_CQHEAD
  let t' := if larger t (splTail s q) then t else splTail s q
  let h' := if larger h (splHead s q) then h else splHead s q
  if 2 ^ sqLog s q < ahead t' (splCons s q) ∨ larger h' (splDone s q) then
    (s.fset (SPL_STAT q) F.SPL_STAT_LASTDB C.SPL_E_DOORBELL, C.SPL_E_DOORBELL)
  else
    let stale := !(larger t (splTail s q)) || !(larger h (splHead s q))
    let s1 := if stale then evSPL (spoolClass s q) 5 (s.fsat (SPL_STAT q) F.SPL_STAT_STALE 1) else s
    let s2 := (s1.fset (SPL_DOORBELL q) F.SPL_DOORBELL_SQTAIL t').fset (SPL_DOORBELL q) F.SPL_DOORBELL_CQHEAD h'
    (if splState s2 q = 2 ∨ splState s2 q = 3 then setSplState s2 q (splLive s2) else s2, 0)

/-- A head's doorbell write that is refused is recorded at its place in BAR4, not in control space (R92, R117). -/
def bar4Record (s : State) (who : Who) (q : Nat) (t : State) : State :=
  match who, t.out.head? with
  | .head p, some (.ctlDone _ _ st) => if ctlOpen s ∧ 2 ≤ statusClass st then t.fset (PRT_CTLERR p) F.PRT_CTLERR_OFFSET (0x6000000 + 8 * q) else t
  | _, _ => t

/-- A doorbell write. -/
def execSpoolDoorbell (who : Who) (q : Nat) (val : Word) (s : State) : Res := .next (bar4Record s who q (rowWrite hookDoorbell who (SPL_DOORBELL q) val s))

/-! Consumption (R304 to R306). -/

/-- Fields of a submission descriptor (R299). -/
def dSeq (d : Line) : Nat := getBits d.toNat 0 32
def dProg (d : Line) : Nat := getBits d.toNat 32 16
def dFlags (d : Line) : Nat := getBits d.toNat 48 16
def dImage (d : Line) : Nat := getBits d.toNat 64 64

def State.prog (s : State) (i : Nat) : ProgEntry := tabGet (fun _ => ProgEntry.init) s.progs i

/-- The checks of R306: a status, or 0. -/
def cmdStatus (s : State) (q : Nat) (d : Line) : Nat :=
  let p := dProg d
  let e := s.prog p
  if dFlags d / 8 ≠ 0 ∨ (p < 256 ∧ dImage d ≠ 0) ∨ (p = 0xFFFF ∧ dImage d % 64 ≠ 0) ∨ (256 ≤ p ∧ p < 0xFFFF) then C.SPL_E_DESC
  else if p < 256 ∧ (e.valid = false ∨ bit e.classes (spoolClass s q) = false) then C.SPL_E_PROG
  else if p = 0xFFFF ∧ (s.fget (SPL_CFG q) F.SPL_CFG_USERIMG = 0 ∨ s.fget (SPL_CLASSINFO q) F.SPL_CLASSINFO_USERIMG_OK = 0) then C.SPL_E_PROG
  else if s.devLevel = 3 then C.SPL_E_BASTING
  else 0

/-- Commands in flight, of all Spools. -/
def inFlight (s : State) : Nat := s.spools.foldl (fun n e => n + e.2.cmds.length) 0

/-- Command `n` may be consumed once its slot is right (R304). -/
def mayConsume (s : State) (q : Nat) : Bool :=
  coreOpen s && s.fget PWR_CTL F.PWR_CTL_BUSY == 0 && splEn s q && splState s q != 4 && larger (splTail s q) (splCons s q) &&
  decide (ahead (splCons s q) (splHead s q) < 2 ^ sqLog s q) && decide (inFlight s < 4096)

/-- Complete a command that no program runs: its slot is claimed and its record set off. -/
def completeNow (s : State) (q n st : Nat) : State :=
  sendRecord (cmdUpd (claimSlot s q n st 0) q n (fun c => { c with stage := 2 })) q n

/-- The slot has been read (R304, R305): the command is consumed, or the Spool waits for its slot. -/
def slotRead (q : Nat) (d : Line) (poison : Bool) (s : State) : State :=
  let n := splCons s q
  if poison then setSplState s q 3
  else if dSeq d ≠ n then setSplState s q 2
  else
    let s1 := (setSplState s q (splLive s)).fset (SPL_PROGRESS q) F.SPL_PROGRESS_CONS ((n + 1) % 2 ^ 32)
    let s2 := evSPL (spoolClass s q) 0 (s1.setSpool q { s1.spool q with cmds := (s1.spool q).cmds ++ [{ n := n, desc := d, stage := 0, bob := 255, claim := none, recd := 0, failed := none, born := s.time }] })
    let st := cmdStatus s2 q d
    if st = 0 then s2 else completeNow s2 q n st

/-- Read the slot of the next command at its home, and consume it. -/
def consume (q : Nat) (s : State) : State :=
  if mayConsume s q = false then s
  else
    let got := fun (r : BobReply) (t : State) => slotRead q r.data (r.poison || decide (2 ≤ statusClass r.status)) (t.setSpool q { t.spool q with asked := false })
    match takeReply s (128 + q) 0 with
    | (some r, s1) => got r s1
    | (none, _) =>
      if (s.spool q).asked then s
      else
        let n := splCons s q
        let la := s.fget (SPL_SQBASE q) F.SPL_SQBASE_LPN * 4096 + n % 2 ^ sqLog s q * 64
        let s1 := homeTake { kind := .readCurrent, who := .spool q n, la := la, data := 0, mask := 0, poison := false, master := 28, mval := 0 } s
        match takeReply s1 (128 + q) 0 with
        | (some r, s2) => got r s2
        | (none, _) => s1.setSpool q { s1.spool q with asked := true }

/-- The engine consumes the next command; a slot that was wrong is not read again before a doorbell or SLOT_REREAD. -/
def execSpoolConsume (q : Nat) (s : State) : Res := .next (if splState s q = 2 ∨ splState s q = 3 then s else consume q s)

/-- Every 10 µs the engine reads a wrong slot again (R305). -/
def execSlotReread (q : Nat) (s : State) : Res := .next (if splState s q = 2 ∨ splState s q = 3 then consume q s else s)

/-! Launch (R254, R294, R295, R300, R312, R314). -/

/-- The effective capability of a Spool: 17 words. -/
def effectiveCap (s : State) (q : Nat) : List Nat :=
  let w0 := (s.rg (SPL_CAP q 0)).toNat
  let ci := SPL_CLASSINFO q
  let a := getBits w0 16 16
  let c := s.fget ci F.SPL_CLASSINFO_MAXCEIL
  let mt := if a = 0 then c else if c = 0 then a else min a c
  ((w0 % 32 &&& s.fget ci F.SPL_CLASSINFO_FLAGCEIL) + mt * 2 ^ 16) :: (List.range 16).map (fun i => (s.rg (SPL_CAP q (i + 1))).toNat)

/-- An n-byte little-endian field of an image header. -/
def hdrField (h : Bytes) (off n : Nat) : Nat := leNat ((h.drop off).take n)

def imgText (h : Bytes) : Nat := hdrField h 28 4
def imgEntry (h : Bytes) : Nat := hdrField h 32 4
def imgSOff (h : Bytes) : Nat := hdrField h 36 4
def imgSLen (h : Bytes) : Nat := hdrField h 40 4
def imgNeeds (h : Bytes) : Nat := hdrField h 6 2
def imgBcrc (h : Bytes) : Nat := hdrField h 56 4

/-- Length of the image that a header describes (R294). -/
def imgLen (h : Bytes) : Nat := 64 + (4 * imgText h + imgSLen h + 7) / 8 * 8

/-- The checks of R295 on the header. -/
def imgHdrOk (h : Bytes) : Bool :=
  hdrField h 0 4 == 0x48435453 && hdrField h 4 2 == 1 && imgNeeds h / 32 == 0 && hdrField h 44 12 == 0 &&
  decide (1 ≤ imgText h) && decide (imgText h ≤ 8192) && decide (imgEntry h < imgText h) && imgSOff h % 8 == 0 &&
  decide (imgSOff h + imgSLen h ≤ 131072) && crc32c (h.take 60) == hdrField h 60 4

/-- The checks of R295 on a whole image. DESIGN CHOICE (log entry 160): the padding whose bytes must be zero is what follows the body, and not the end of NAME. -/
def imgOk (m : Bytes) : Bool :=
  let h := m.take 64
  imgHdrOk h && m.length == imgLen h && crc32c (m.drop 64) == imgBcrc h && (m.drop (64 + 4 * imgText h + imgSLen h)).all (· == 0)

/-- Tab of the instruction words of an image. -/
def imgWords (m : Bytes) : Nat → Nat → Tab Nat → Tab Nat
  | 0, _, t => t
  | n + 1, i, t => imgWords m n (i + 1) (tabSet (fun _ => 0) t i (hdrField m (64 + 4 * i) 4))

/-- The Bobbin's state before the first instruction (R254, R300). -/
def launchState (x : Bob) (d : Line) (m : Bytes) (id : Nat × Nat) : Bob :=
  let g := (List.range 6).foldl (fun (t : Tab Word) k => tabSet (fun _ => 0) t (k + 1) (BitVec.ofNat 64 (getBits d.toNat (128 + 64 * k) 64))) []
  let y := { x with run := 1, g := g, v := tabSet (fun _ => 0) [] 0 d, vp := 0, pc := imgEntry m, last := imgEntry m,
                    text := if x.img = id then x.text else imgWords m (imgText m) 0 [], words := imgText m, scratch := [], lost := [], tags := [],
                    posted := false, loads := [], stores := [], held := 0, jobs := [], opRd := none, img := id, load := [], asked := false, disc := none }
  scrStore y (imgSOff m) ((m.drop (64 + 4 * imgText m)).take (imgSLen m))

/-- The launch ends with a status; no instruction runs (R314). -/
def launchEnd (b st : Nat) (s : State) : State :=
  let x := s.bob b
  bobEnd b (claimSlot s x.q x.n st 0)

/-- Global address of a command's image, with the directory entry's authority or the Spool's. DESIGN CHOICE (log entry 163): an entry removed between consumption and
launch still gives its address. -/
def imageAddr (s : State) (d : Line) : Nat := if dProg d = 0xFFFF then dImage d else (s.prog (dProg d)).addr

def launchDone (b : Nat) (d : Line) (m : Bytes) (s : State) : State :=
  let x := s.bob b
  let id := if dProg d = 0xFFFF then (256 + dImage d, imgBcrc m) else (dProg d, (s.prog (dProg d)).gen)
  if imgOk m = false then launchEnd b C.SPL_E_IMAGE_BAD s
  else if (imgNeeds m &&& (x.cap.getD 0 0) % 32) ≠ imgNeeds m then launchEnd b C.SPL_E_NEEDS s
  else
    let r := BOB_LAUNCHES b
    let s1 := s.fset r F.BOB_LAUNCHES_COUNT (s.fget r F.BOB_LAUNCHES_COUNT + 1)
    let s2 := cmdUpd s1 x.q x.n (fun c => { c with bob := b })
    evSPL (bobClass s b) 1 (s2.setBob b (launchState x d m id))

/-- Read the image line by line (R314) and start the program; a line that has to wait leaves the launch where it stands. -/
def loadImage (b : Nat) (d : Line) : Nat → State → State
  | 0, s => s
  | n + 1, s =>
    let x := s.bob b
    let ga := imageAddr s d
    let got := x.load.length
    let bytes := (x.load.reverse.flatMap lineBytes).drop (ga % 64)
    let hdr := lineCount ga 64
    let user := dProg d == 0xFFFF
    if got = 0 ∧ user ∧ capOk s x ga 64 1 = false then launchEnd b C.BOB_E_CAP s
    else if hdr ≤ got ∧ imgHdrOk (bytes.take 64) = false then launchEnd b C.SPL_E_IMAGE_BAD s
    else if hdr ≤ got ∧ user ∧ capOk s x ga (imgLen (bytes.take 64)) 1 = false then launchEnd b C.BOB_E_CAP s
    else if hdr ≤ got ∧ lineCount ga (imgLen (bytes.take 64)) ≤ got then launchDone b d (bytes.take (imgLen (bytes.take 64))) s
    else
      let line := (ga / 64 + got) * 64
      let next := fun (r : BobReply) (t : State) =>
        if r.poison ∨ 2 ≤ statusClass r.status then launchEnd b C.SPL_E_IMAGE_BAD t
        else loadImage b d n (t.setBob b { t.bob b with load := r.data :: (t.bob b).load, asked := false })
      match takeReply s (64 + b) 16 with
      | (some r, s1) => next r s1
      | (none, _) =>
        if x.asked then s
        else
          let who := Requester.stitch b 16
          let s1 := if gaLocal s line then homeTake { kind := .readCurrent, who := who, la := line % 2 ^ 47, data := 0, mask := 0, poison := false, master := 28, mval := 0 } s
            else bobSend s who .readCurrent line 0 0 false 28
          match takeReply s1 (64 + b) 16 with
          | (some r, s2) => next r s2
          | (none, _) => s1.setBob b { s1.bob b with asked := true }

/-! Placement (R307, R315). -/

def oldestUnlaunched (s : State) (q : Nat) : Option Cmd := (s.spool q).cmds.find? (fun c => c.stage == 0)

/-- The Spool's oldest unlaunched command may launch on Bobbin `b` (R307, R317). -/
def launchable (s : State) (b q : Nat) : Option Cmd :=
  let cs := (s.spool q).cmds
  let mr := s.fget (SPL_CFG q) F.SPL_CFG_MAXRUN
  match oldestUnlaunched s q with
  | none => none
  | some c =>
    let ok := splState s q != 4 && decide ((cs.filter (fun e => e.stage == 1)).length < if mr = 0 then 64 else mr) &&
      (!bit (dFlags c.desc) 0 || (cs.takeWhile (fun e => e.n != c.n)).all (fun e => e.recd == 2)) &&
      (!bit (dFlags c.desc) 2 || frameLowCh s != 0) && c.failed != some b
    if ok then some c else none

def pickSpool (s : State) (b c last : Nat) : Nat → Nat → Option (Nat × Cmd)
  | 0, _ => none
  | n + 1, j =>
    let q := (last + j) % 1024
    match (if spoolClass s q = c then launchable s b q else none) with
    | some x => some (q, x)
    | none => pickSpool s b c last n (j + 1)

/-- pick() of R315: class, Spool and command. -/
def pickClass (s : State) (b : Nat) : Nat → Nat → Option (Nat × Nat × Cmd)
  | 0, _ => none
  | n + 1, i =>
    let c := (bobClass s b + i) % 8
    if bit (s.fget (BOB_CFG b) F.BOB_CFG_CLASSES) c then
      match pickSpool s b c (tabGet (fun _ => 0) s.lastSpool c) 1024 1 with
      | some (q, x) => some (c, q, x)
      | none => pickClass s b n (i + 1)
    else pickClass s b n (i + 1)

/-- The command that Bobbin `b` runs. -/
def bobCmd (s : State) (b : Nat) : Option Cmd := (s.spool (s.bob b).q).cmds.find? (fun c => c.n == (s.bob b).n)

/-- A free Bobbin picks a command and loads its image. DESIGN CHOICE (log entry 161): a fault while it loads gives as index that of the Bobbin's last instruction before,
of an earlier program. -/
def programLaunch (b : Nat) (s : State) : State :=
  if 64 ≤ b ∨ coreOpen s = false ∨ s.devLevel = 3 ∨ gated s (68 + b) then s
  else
    let x := s.bob b
    if x.run = 3 then
      match bobCmd s b with
      | some c => loadImage b c.desc 4096 s
      | none => s
    else if x.run = 0 ∧ s.fget (BOB_STAT b) F.BOB_STAT_STATE = 0 ∧ moverBusy s b = false then
      match pickClass s b 8 1 with
      | none => s
      | some (c, q, cmd) =>
        let s1 := { cmdUpd s q cmd.n (fun e => { e with stage := 1 }) with lastSpool := tabSet (fun _ => 0) s.lastSpool c q }
        let r := BOB_STAT b
        let s2 := ((s1.fset r F.BOB_STAT_STATE 1).fset r F.BOB_STAT_SPOOL q).fset r F.BOB_STAT_CLASS c
        let s3 := { s2 with home := { s2.home with bobReplies := s2.home.bobReplies.filter (fun e => e.bob != 64 + b && e.bob != b) } }
        loadImage b cmd.desc 4096 (s3.setBob b { x with run := 3, q := q, n := cmd.n, cap := effectiveCap s q, load := [], asked := false, posted := false, held := 0 })
    else s

def execProgramLaunch (b : Nat) (s : State) : Res := .next (programLaunch b s)

/-! Aborts, resets, Basting (R309 to R311, R319). -/

/-- The Bobbin that runs a command. -/
def bobOf (s : State) (q n : Nat) : Option Nat := (s.bobs.find? (fun e => e.2.run != 0 && e.2.q == q && e.2.n == n)).map (·.1)

/-- A program is told to stop: it ends at the next instruction boundary and drains (R288). -/
def stopProgram (s : State) (q n : Nat) : State :=
  match bobOf s q n with
  | some b => if (s.bob b).run = 1 ∨ (s.bob b).run = 3 then s.setBob b { s.bob b with run := 2 } else s
  | none => s

/-- Stop a command: `cancelled` if it has not launched, `stopped` if it runs. DESIGN CHOICE (log entry 162): one that waits for its rerun has not launched. A slot
already claimed is left (R311), and so is its program, unless `all`
programs stop (R319). -/
def stopCmd (all : Bool) (cancelled stopped : Nat) (q : Nat) (s : State) (c : Cmd) : State :=
  if c.stage = 0 then (if c.claim.isNone then completeNow s q c.n cancelled else s)
  else if c.stage = 1 ∧ (all ∨ c.claim.isNone) then stopProgram (claimSlot s q c.n stopped 0) q c.n
  else s

def stopCmds (all : Bool) (cancelled stopped : Nat) (s : State) (q : Nat) : State := (s.spool q).cmds.foldl (stopCmd all cancelled stopped q) s

/-- The slot read under way is given up: its answer is no slot of a later ring (R304). -/
def dropSlotRead (s : State) (q : Nat) : State :=
  let mine := fun (r : HomeReq) => match r.who with
    | .spool p _ => p == q && r.kind == .readCurrent
    | _ => false
  { s.setSpool q { s.spool q with asked := false } with home := { s.home with
    waiting := s.home.waiting.filter (fun r => !mine r), toHome := s.home.toHome.filter (fun r => !mine r),
    bobReplies := s.home.bobReplies.filter (fun r => r.bob != 128 + q) } }

/-- Reset Spool, steps 1 and 2 (R309). -/
def resetSpool (s : State) (q : Nat) : State := stopCmds false C.SPL_E_CANCELLED C.SPL_W_ABORTED (dropSlotRead (setSplState s q 4) q) q

/-- Ring placement (R298). -/
def ringsOk (s : State) (q lg : Nat) : Bool :=
  let sq := s.fget (SPL_SQBASE q) F.SPL_SQBASE_LPN * 4096
  let cq := s.fget (SPL_CQBASE q) F.SPL_CQBASE_LPN * 4096
  let l := pagesL s * 4096
  decide (4 ≤ lg) && decide (lg ≤ 16) && decide (sq + 64 * 2 ^ lg ≤ l) && decide (cq + 16 * 2 ^ lg ≤ l) && !(overlap sq (64 * 2 ^ lg) cq (16 * 2 ^ lg))

def zeroIndexes (s : State) (q : Nat) : State := (s.setRg (SPL_PROGRESS q) 0).setRg (SPL_DOORBELL q) 0

/-- SPL_CFG (R298, R309, R312). -/
def hookSplCfg : Hook := fun idx old new act s =>
  let q := idx.headD 0
  let en := fld new F.SPL_CFG_EN == 1
  let was := fld old F.SPL_CFG_EN == 1
  let busy := splState s q == 4 || !(s.spool q).cmds.isEmpty
  if was ∧ fld new F.SPL_CFG_SQLOG ≠ fld old F.SPL_CFG_SQLOG then (s, C.SPL_E_CONFIG)
  else if fld act F.SPL_CFG_RESET = 1 ∧ splState s q = 4 then (s, C.SPL_E_CONFIG)
  else if en ∧ was = false ∧ (busy ∨ ringsOk s q (fld new F.SPL_CFG_SQLOG) = false) then (s, C.SPL_E_CONFIG)
  else
    let s1 := s.setRg (SPL_CFG q) (BitVec.ofNat 64 new)
    let s2 := if en ∧ was = false then setSplState ((zeroIndexes (dropSlotRead s1 q) q).fset (SPL_STAT q) F.SPL_STAT_STALE 0) q (splLive s1)
      else if was ∧ en = false ∧ splState s1 q ≠ 4 then setSplState s1 q 0 else s1
    (if fld act F.SPL_CFG_RESET = 1 then resetSpool s2 q else s2, 0)

/-- Setting SPL_CFG.EN. -/
def execEn (who : Who) (q : Nat) (val : Word) (s : State) : Res := .next (rowWrite hookSplCfg who (SPL_CFG q) val s)

/-- Reset Spool from the administrator. -/
def execSplReset (who : Who) (q : Nat) (val : Word) (s : State) : Res := .next (rowWrite hookSplCfg who (SPL_CFG q) val s)

/-- The mailbox command that waited for the reset returns Success (R309). -/
def mboxResetDone (s : State) (p : Nat) : State :=
  let x := s.port p
  match x.mboxBg with
  | some op => mboxDone (s.setPort p { x with mboxBg := none }) p op 0 0 []
  | none => s

/-- Steps 3 and 4 of R309: no program of the Spool runs and its records are written. -/
def resetFinish (q : Nat) (s : State) : State :=
  if splState s q = 4 ∧ (s.spool q).cmds = [] then
    let x := s.spool q
    let s1 := setSplState ((zeroIndexes s q).fset (SPL_CFG q) F.SPL_CFG_EN 0) q 0
    x.mbox.foldl mboxResetDone (s1.setSpool q { x with mbox := [] })
  else s

def execSpoolResetFinish (q : Nat) (s : State) : Res := .next (resetFinish q s)

/-- The outcome of an abort of command `n` (R310), with its effect. -/
def abortCmd (q n : Nat) (s : State) : Nat × State :=
  let cons := splCons s q
  let back := ahead cons n
  if back = 0 ∨ 2 ^ 31 ≤ back then (C.SPL_E_NOT_CONSUMED, s)
  else if 2 ^ sqLog s q < back then (C.SPL_S_NOT_RUNNING, s)
  else match (s.spool q).cmds.find? (fun c => c.n == n) with
    | none => (C.SPL_S_NOT_RUNNING, s)
    | some c =>
      if c.claim.isSome then (C.SPL_S_NOT_RUNNING, s)
      else (0, evSPL (spoolClass s q) 4 (stopCmd false C.SPL_E_CANCELLED C.SPL_W_ABORTED q s c))

/-- SPL_ABORT (R310). -/
def hookAbort : Hook := fun idx _ new act s =>
  let q := idx.headD 0
  let r := SPL_ABORT q
  if fld act F.SPL_ABORT_GO = 1 then
    if s.fget r F.SPL_ABORT_BUSY = 1 then (s.fset (SPL_STAT q) F.SPL_STAT_ABORT_LOST 1, 0)
    else
      let n := fld new F.SPL_ABORT_SEQ
      let o := abortCmd q n (s.fset r F.SPL_ABORT_SEQ n)
      (o.2.fset r F.SPL_ABORT_RESULT o.1, 0)
  else (s.fset r F.SPL_ABORT_SEQ (fld new F.SPL_ABORT_SEQ), 0)

/-- The submitter aborts a command. -/
def execSpoolAbort (who : Who) (q : Nat) (val : Word) (s : State) : Res := .next (rowWrite hookAbort who (SPL_ABORT q) val s)

/-- A write that needs the Spool disabled with nothing in flight (R312). -/
def splQuiet (s : State) (q : Nat) : Bool := !splEn s q && (s.spool q).cmds.isEmpty

/-- SPL_CAPw. -/
def hookCap : Hook := fun idx _ new _ s =>
  let q := idx.headD 0
  let w := idx.getD 1 0
  if splQuiet s q = false then (s, C.SPL_E_CONFIG)
  else if w = 0 ∧ (new % 32 &&& s.fget (SPL_CLASSINFO q) F.SPL_CLASSINFO_FLAGCEIL) ≠ new % 32 then (s, C.SPL_E_CAP_CEILING)
  else (s.setRg (SPL_CAP q w) (BitVec.ofNat 64 new), 0)

def execCapabilityWrite (who : Who) (q w : Nat) (val : Word) (s : State) : Res := .next (rowWrite hookCap who (SPL_CAP q w) val s)

def hookSqBase : Hook := fun idx _ new _ s =>
  let q := idx.headD 0
  if splQuiet s q = false then (s, C.SPL_E_CONFIG) else (s.setRg (SPL_SQBASE q) (BitVec.ofNat 64 new), 0)

def hookCqBase : Hook := fun idx _ new _ s =>
  let q := idx.headD 0
  if splQuiet s q = false then (s, C.SPL_E_CONFIG) else (s.setRg (SPL_CQBASE q) (BitVec.ofNat 64 new), 0)

/-- A write of SPL_SQBASE or SPL_CQBASE. -/
def execRingBaseWrite (who : Who) (q : Nat) (cq : Bool) (val : Word) (s : State) : Res :=
  .next (if cq then rowWrite hookCqBase who (SPL_CQBASE q) val s else rowWrite hookSqBase who (SPL_SQBASE q) val s)

/-- BOB_CFG (R316). While a self-test drains the Bobbin, DRAIN stays set, and what software wrote stands when the test has ended. -/
def hookBobCfg : Hook := fun idx _ new _ s =>
  let b := idx.headD 0
  let st := s.fget (BOB_STAT b) F.BOB_STAT_STATE
  let d := fld new F.BOB_CFG_DRAIN == 1
  let s0 := s.setRg (BOB_CFG b) (BitVec.ofNat 64 new)
  let s1 := if bobTestDue s b then { s0.fset (BOB_CFG b) F.BOB_CFG_DRAIN 1 with fltTests := s.fltTests.map (fun t => if t.src = srcId 4 b then { t with drain := d } else t) } else s0
  (if d ∧ st = 0 then s1.fset (BOB_STAT b) F.BOB_STAT_STATE 2
   else if d = false ∧ st = 2 then s1.fset (BOB_STAT b) F.BOB_STAT_STATE 0 else s1, 0)

/-- Setting BOB_CFG.DRAIN. -/
def execDrain (who : Who) (b : Nat) (val : Word) (s : State) : Res := .next (rowWrite hookBobCfg who (BOB_CFG b) val s)

/-- DELAY_US have passed since the oldest unreported record (R322). -/
def execSpoolIrqDelay (q : Nat) (s : State) : Res :=
  .next (if s.fget (SPL_IRQ q) F.SPL_IRQ_EN = 1 ∧ 0 < (s.spool q).unrep ∧ s.fget (SPL_IRQ q) F.SPL_IRQ_DELAY_US ≠ 0 then spoolIrq s q else s)

/-- Entry to Basting mode (R319): unlaunched commands complete with SPL_E_BASTING, programs are stopped with SPL_E_STOPPED. -/
def bastingSpools (s : State) : State :=
  let s1 := s.spools.foldl (fun t e => stopCmds true C.SPL_E_BASTING C.SPL_E_STOPPED t e.1) s
  (List.range 1024).foldl (fun t q => if splEn t q ∧ splState t q ≠ 4 then setSplState t q 5 else t) s1

/-- Spools take work again (R471). -/
def unbasteSpools (s : State) : State := (List.range 1024).foldl (fun t q => if splState t q = 5 then setSplState t q 1 else t) s

end Sys2Proof.Machine
end

