-- ==== Sys2Proof/Machine/Sram.lean ====
section
/-! DEFINITION. The on-chip SRAM (chapter 12): accesses at a bank and their code (R426 to R429), region tests (R431 to R433), column repair (R434),
fences of a bank and the recovery of what it held (R123, R425, R428, R435). -/

namespace Sys2Proof.Machine

/-- What a word of the on-die SRAM reads as where the manual lays out no content: a word of banks 480 to 511 whose structure is in use (R424), a lost word, a word
of a bank that takes no access; by state, bank and word. No two of these values are related. -/
opaque Config.sramBank : State → Nat → Nat → Nat

/-- Partition of a bank (R421): 0 line cache, 1 descriptor cache, 2 directory, 3 scratchpad, 4 banks 480 to 511. -/
def partOf (bank : Nat) : Nat :=
  if bank < 416 then (if bank % 13 < 6 then 0 else if bank % 13 < 10 then 1 else 2) else if bank < 480 then 3 else 4

/-! What a word holds (R60, R423, R424). -/

/-- The 48 bits of a directory entry (R229). -/
def dirBits (e : DirEntry) : Nat := e.sharers % 2 ^ 32 + e.state % 8 * 2 ^ 32 + e.owner % 32 * 2 ^ 35 + e.tag % 128 * 2 ^ 40
def dirOfBits (v stamp : Nat) : Option DirEntry :=
  if v = 0 then none else some { state := getBits v 32 3, sharers := getBits v 0 32, owner := getBits v 35 5, tag := getBits v 40 7, stamp := stamp }

/-- Key of the cache unit that a word belongs to (R423); keys of the four directory entries that have a slice in it. DESIGN CHOICE (log entry 154): the entries at set ×
16 + way = 4 w to 4 w + 3 share word w of each of the three banks, the first in bits [15:0]. -/
def lcUnit (bank word : Nat) : Nat := bank / 13 * 12288 + word / 8 * 6 + bank % 13
def dcUnit (bank word : Nat) : Nat := bank / 13 * 8192 + word / 8 * 4 + (bank % 13 - 6)
def dirUnit (bank word i : Nat) : Nat := bank / 13 * 65536 + word * 4 + i

/-- The 64 bytes of a cache unit: of its entry, or what the last one left. -/
def lcWords (s : State) (k : Nat) : BitVec 512 := match lcAt s k with
  | some e => e.data
  | none => tabGet (fun _ => 0) s.tier.left k
def dcWords (s : State) (k : Nat) : BitVec 512 := match dcAt s k with
  | some e => e.desc
  | none => tabGet (fun _ => 0) s.tier.left (2 ^ 20 + k)

/-- The other bank of a pair of banks 480 to 511 (R424). -/
def twinBank (bank : Nat) : Nat := if bank < 496 then bank + 16 else bank - 16

/-- Nothing has been written yet, since cold reset, to the structure of R424 at a bank offset: its words are the zeros of R421. DESIGN CHOICE (log entry 172): the
stamp, which every use of a descriptor advances, tells so for the structures that need one. -/
def pairUnused (s : State) (o : Nat) : Bool :=
  if o < 6 then s.stamp == 0
  else if o < 8 then s.stamp == 0 && s.seam.tid == 0 && s.seam.txs.isEmpty && s.seam.reseq.isEmpty
  else if o < 9 then s.spools.isEmpty
  else if o < 13 then s.stamp == 0 && s.home.binds.isEmpty
  else s.mgmt.step == 0

/-- The word is uncorrectable and has not been written since (R427, R428). -/
def sramLost (s : State) (bank word : Nat) : Bool := match partOf bank with
  | 3 => scrLost (s.bob (bank - 416)) (word * 8) 8
  | 4 => s.sram.bad.contains (bank, word) && (bankOut s (twinBank bank) || s.sram.bad.contains (twinBank bank, word))
  | _ => false

/-- The aligned 8 bytes of a bank, corrected (R60, R423). -/
def sramWord (s : State) (bank word : Nat) : Nat :=
  if bankOut s bank ∨ sramLost s bank word then Config.sramBank s bank word % 2 ^ 64
  else match partOf bank with
  | 0 => getBits (lcWords s (lcUnit bank word)).toNat (64 * (word % 8)) 64
  | 1 => getBits (dcWords s (dcUnit bank word)).toNat (64 * (word % 8)) 64
  | 2 => (List.range 4).foldl (fun v i => match dirAt s (dirUnit bank word i) with
      | some e => v + getBits (dirBits e) (16 * (bank % 13 - 10)) 16 * 2 ^ (16 * i)
      | none => v) 0
  | 3 => (tabGet (fun _ => (0 : Word)) (s.bob (bank - 416)).scratch word).toNat
  | _ => if pairUnused s ((bank - 480) % 16) then 0 else Config.sramBank s (480 + (bank - 480) % 16) word % 2 ^ 64

/-- Write the word (R427). Of banks 480 to 511, whose content State does not lay out, both copies are written and healed (R424); log entry 173. -/
def sramPut (s : State) (bank word v : Nat) : State :=
  let into := fun (x : BitVec 512) => BitVec.ofNat 512 (putBits x.toNat (64 * (word % 8)) 64 v)
  match partOf bank with
  | 0 =>
    let k := lcUnit bank word
    (match lcAt s k with
    | some e => lcPut s k (some { e with data := into e.data })
    | none => { s with tier := { s.tier with left := tabSet (fun _ => 0) s.tier.left k (into (lcWords s k)) } })
  | 1 =>
    let k := dcUnit bank word
    (match dcAt s k with
    | some e => dcSetAt s k (some { e with desc := into e.desc })
    | none => { s with tier := { s.tier with left := tabSet (fun _ => 0) s.tier.left (2 ^ 20 + k) (into (dcWords s k)) } })
  | 2 => (List.range 4).foldl (fun t i =>
      let k := dirUnit bank word i
      let old := match dirAt t k with
        | some e => (dirBits e, e.stamp)
        | none => (0, 0)
      dirPutAt t k (dirOfBits (putBits old.1 (16 * (bank % 13 - 10)) 16 (getBits v (16 * i) 16)) old.2)) s
  | 3 =>
    let x := s.bob (bank - 416)
    s.setBob (bank - 416) { scrHeal x (word * 8) 8 with scratch := tabSet (fun _ => 0) x.scratch word (BitVec.ofNat 64 v) }
  | _ => { s with sram := { s.sram with bad := s.sram.bad.filter (fun x => x != (bank, word) && x != (twinBank bank, word)) } }

/-! What is lost with a word or a bank. -/

/-- A line-cache way is lost (R123, R428): a copy's line is written back at once; a line with a copy is written back from it; another dirty line is
poisoned; a clean line is dropped. -/
def lcLost (s : State) (k : Nat) : State :=
  match lcAt s k with
  | none => s
  | some e =>
    let la := e.line * 64
    let s1 := lcPut s k none
    if e.copy then
      match lcFind s1 la with
      | some _ => (wbLine s1 la).2
      | none => poisonLine s1 la
    else if e.st = .clean then s1
    else match copyFind s1 la with
      | some _ => (wbLine s1 la).2
      | none => poisonLine s1 la

/-- A descriptor-cache way is lost with its word (R425, R428): a copy's descriptor is written to DRAM at once; a descriptor is restored from its copy, or filled
again from DRAM. -/
def dcWordLost (s : State) (k : Nat) : State :=
  match dcAt s k with
  | none => s
  | some e => if e.copy then dcWriteBack (dcSetAt s k none) e.page else dcRestore s e.page

/-- The line of a directory entry, by its key, is recovered under R240. -/
def dirWordLost (bank : Nat) (s : State) (k : Nat) : State :=
  match dirAt s k with
  | none => s
  | some e => recoverEntry s (dirLa s (k / 65536) (k % 65536 / 16) e) bank

/-- An uncorrectable word (R428). One of banks 480 to 511 is taken from the other copy and rewritten, when that one can give it. -/
def wordLost (s : State) (bank word : Nat) : State :=
  match partOf bank with
  | 0 => pump (lcLost s (lcUnit bank word))
  | 1 => pump (dcWordLost s (dcUnit bank word))
  | 2 => pump ((List.range 4).foldl (fun t i => dirWordLost bank t (dirUnit bank word i)) s)
  | 3 => let b := bank - 416; s.setBob b { s.bob b with lost := tabSet (fun _ => false) (s.bob b).lost word true }
  | _ =>
    if bankOut s (twinBank bank) ∨ s.sram.bad.contains (twinBank bank, word) then { s with sram := { s.sram with bad := (bank, word) :: s.sram.bad.erase (bank, word) } }
    else { s with sram := { s.sram with bad := s.sram.bad.erase (bank, word) } }

/-! Accesses (R426, R427, R429). -/

/-- An access ends at its bank: an old value and a status. -/
def srmEnd (s : State) (bank word : Nat) (v : Nat) (st : Nat) : State := s.put (.sram bank word (BitVec.ofNat 64 v) st)

/-- One access at the arbiter of a bank (R429): `kind` 0 read, 1 write, 2 narrow write, 3 AADD, 4 ASWP. `upset` is the number of bits of the word
that have flipped since it was last written: one is corrected, two are uncorrectable (R426), and a full write takes no notice of them. The access puts out the
word's old value. One that needs an uncorrectable word is not applied, and ends with SRM_E_WORD_LOST (R427; of a read, log entry 173), but a read of banks 480 to
511, which the other copy serves (R424, R428). -/
def sramAccess (bank word kind : Nat) (val : Word) (mask upset : Nat) (s : State) : State :=
  if 512 ≤ bank ∨ 16384 ≤ word ∨ 4 < kind ∨ bankOut s bank then s
  else
    let old := sramWord s bank word
    let was := sramLost s bank word
    let ue := kind != 1 && (decide (2 ≤ upset) || was)
    let s1 := if ue then (if 2 ≤ upset then wordLost (srmErr s bank word true) bank word else srmErr s bank word true)
      else if kind = 1 ∨ upset = 0 then s else srmErr s bank word false
    let s2 := if 3 ≤ kind then evSRM 4 s1 else s1
    if ue ∧ (kind ≠ 0 ∨ partOf bank ≠ 4 ∨ sramLost s1 bank word) then srmEnd s2 bank word 0 C.SRM_E_WORD_LOST
    else
      let merged := (List.range 8).foldl (fun (v : Nat) i => if bit mask i then putBits v (8 * i) 8 (getBits val.toNat (8 * i) 8) else v) old
      let new := match kind with
        | 0 => old
        | 2 => merged
        | 3 => (BitVec.ofNat 64 old + val).toNat
        | _ => val.toNat
      srmEnd (if kind = 0 then s2 else sramPut s2 bank word new) bank word old 0

/-- One access at a bank. -/
def execSramAccess (bank word kind : Nat) (val : Word) (mask upset : Nat) (s : State) : Res := .next (sramAccess bank word kind val mask upset s)

/-! Fences (R435). -/

def srmStage (s : State) (bank : Nat) : Nat := tabGet (fun _ => 0) s.sram.stage bank

/-- State of an SRAM source: that of the most affected bank of the quad (R477). -/
def quadState (s : State) (q : Nat) : Nat :=
  let st := (List.range 4).map (fun i => srmStage s (4 * q + i))
  if st.contains 1 then 1 else if st.contains 2 then 2 else if st.contains 3 then 3 else 0

/-- A bank's stage changes: SRM_FENCE and the state of its source follow. -/
def setStage (s : State) (bank v : Nat) : State :=
  let s1 := { s with sram := { s.sram with stage := tabSet (fun _ => 0) s.sram.stage bank v } }
  let s2 := s1.fbit (SRM_FENCE (bank / 64)) F.SRM_FENCE_FENCED (bank % 64) (v != 0)
  let s3 := setSrcState s2 (quadSrc bank) (quadState s2 (bank / 4))
  if v = 0 then readmEnd s3 (quadSrc bank) bank 0 else if v = 1 then readmEnd s3 (quadSrc bank) bank C.SRM_F_BANK else readmStage s3 (quadSrc bank) bank (v - 1)

/-- Keys of a table's entries that meet `p`. -/
def keysOf {α : Type} (t : Tab α) (p : Nat → Bool) : List Nat := (t.filter (fun e => p e.1)).map (·.1)

/-- A fenced bank's contents are recovered (R435). -/
def bankLost (s : State) (bank : Nat) : State :=
  let sl := bank / 13
  match partOf bank with
  | 0 => pump ((keysOf s.tier.lc (fun k => k / 12288 == sl && lcBank k == bank)).foldl lcLost s)
  | 1 => pump ((keysOf s.tier.dc (fun k => k / 8192 == sl && dcBank k == bank)).foldl (dcMove true) s)
  | 2 =>
    let s1 := (keysOf s.home.dirEnt (fun k => k / 65536 == sl)).foldl (dirWordLost bank) s
    pump (s1.reportAt 2 (srcId 6 sl) bank C.DIR_F_ENTRY 0 0)
  | 3 =>
    let b := bank - 416
    let s1 := setSrcState (fltAbandon (bobStop b s) (srcId 4 b)) (srcId 4 b) 1
    s1.fset (BOB_STAT b) F.BOB_STAT_STATE 3
  | _ => s

/-- The test that SRM_TESTCTL has requested is of this bank (R436). -/
def reqOf (s : State) (bank : Nat) : Option (Nat × Nat × Bool) := s.sram.req.filter (fun x => x.1 == bank)

/-- The requested test is over (R436). -/
def reqTestEnd (s : State) : State := { s with sram := { s.sram with req := none } }.fset SRM_TESTCTL F.SRM_TESTCTL_BUSY 0

/-- The bank takes no access from now on (R435); its tests end, one that has been requested and still waits too. -/
def bankFence (s : State) (bank : Nat) : State :=
  if srmStage s bank = 1 ∨ 512 ≤ bank then s
  else
    let was := srmStage s bank
    let s1 := { s with sram := { s.sram with tests := s.sram.tests.filter (fun t => t.bank != bank), due := s.sram.due.filter (fun d => d.1 != bank) } }
    let s2 := (setStage s1 bank 1).fset SRM_STAT F.SRM_STAT_FENCE 1
    let s3 := if (reqOf s bank).isSome then (reqTestEnd s2).fset SRM_TESTCTL F.SRM_TESTCTL_STATUS C.SRM_F_BANK else s2
    if was = 0 then bankLost s3 bank else s3

/-! Region tests. -/

def bankTest (s : State) (bank : Nat) : Option SramTest := s.sram.tests.find? (fun t => t.bank == bank)

def startTest (s : State) (bank region kind : Nat) : State :=
  { s with sram := { s.sram with tests := s.sram.tests ++ [⟨bank, region, kind⟩] } }

/-- The region of a word is tested next in its bank (R433). -/
def regionDue (s : State) (bank region : Nat) : State :=
  if 512 ≤ bank ∨ srmStage s bank ≠ 0 then s
  else match bankTest s bank with
    | none => startTest s bank region 2
    | some _ => { s with sram := { s.sram with due := s.sram.due ++ [(bank, region)] } }

/-- The next region of a quad's background test (R432): banks in ascending order, fenced ones passed over; after the 256th the quad's sweep is
complete, and SWEEPS counts the sweeps that every quad has completed. -/
def bgAdvance (s : State) (q pos : Nat) : State :=
  let d := fun (_ : Nat) => (0 : Nat)
  if pos < 256 then { s with sram := { s.sram with bg := tabSet d s.sram.bg q pos } }
  else
    let sw := tabSet d s.sram.sweeps q (tabGet d s.sram.sweeps q + 1)
    let s1 := { s with sram := { s.sram with bg := tabSet d s.sram.bg q 0, sweeps := sw } }
    let all := (List.range 128).foldl (fun m i => min m (tabGet d sw i)) (tabGet d sw 0)
    s1.fset SRM_STAT F.SRM_STAT_SWEEPS (min all 65535)

/-- A quad starts the next region test of the background sweep (R432): one at a time in the quad, and one test at a time in a bank (R431). -/
def backgroundTest (quad : Nat) (s : State) : State :=
  let pos := tabGet (fun _ => 0) s.sram.bg quad
  let bank := 4 * quad + pos / 64
  if 128 ≤ quad ∨ 3 ≤ s.pst ∨ s.fget SRM_CFG F.SRM_CFG_BG_EN = 0 ∨ s.sram.tests.any (fun t => t.bank / 4 == quad && t.kind == 0) then s
  else if srmStage s bank ≠ 0 then bgAdvance s quad (pos / 64 * 64 + 64)
  else match bankTest s bank with
    | some _ => s
    | none => evSRM 2 (startTest s bank (pos % 64) 0)

/-- A quad starts the next background region test. -/
def execBackgroundRegionTest (quad : Nat) (s : State) : Res := .next (backgroundTest quad s)

/-- A test of the bank may start: one due after an error first, then the requested one (R431, R433). -/
def nextTest (s : State) (bank : Nat) : State :=
  match bankTest s bank, s.sram.due.find? (fun d => d.1 == bank), reqOf s bank with
  | some _, _, _ => s
  | none, some d, _ => startTest { s with sram := { s.sram with due := s.sram.due.erase d } } bank d.2 2
  | none, none, some x => startTest s bank x.2.1 1
  | none, none, none => s

/-- SRM_TESTCTL (R436): START tests a region, or with ALL every region of the bank in turn; it waits for a test that runs in the bank. -/
def hookSrmTest : Hook := fun _ _ new act s =>
  let bank := fld new F.SRM_TESTCTL_BANK
  let region := fld new F.SRM_TESTCTL_REGION
  let all := fld new F.SRM_TESTCTL_ALL
  let s0 := ((s.fset SRM_TESTCTL F.SRM_TESTCTL_BANK bank).fset SRM_TESTCTL F.SRM_TESTCTL_REGION region).fset SRM_TESTCTL F.SRM_TESTCTL_ALL all
  if fld act F.SRM_TESTCTL_START = 0 then (s0, 0)
  else if s.fget SRM_TESTCTL F.SRM_TESTCTL_BUSY = 1 then (s, C.SRM_E_TEST_BUSY)
  else if srmStage s bank ≠ 0 then (s0, C.SRM_E_BANK_FENCED)
  else
    let s1 := evSRM 2 (s0.fset SRM_TESTCTL F.SRM_TESTCTL_BUSY 1)
    (nextTest { s1 with sram := { s1.sram with req := some (bank, if all = 1 then 0 else region, all == 1) } } bank, 0)

/-- SRM_TESTCTL.START. -/
def execSramTestStart (who : Who) (val : Word) (s : State) : Res := .next (rowWrite hookSrmTest who SRM_TESTCTL val s)

/-- After a requested test of a region passed, or its column was repaired: the next region under ALL, or the end. STATUS is that of the test as a whole. -/
def reqAdvance (s : State) (bank region st : Nat) : State :=
  match reqOf s bank with
  | none => s
  | some x =>
    let s1 := if st ≠ 0 ∨ x.2.2 = false ∨ region = 0 then s.fset SRM_TESTCTL F.SRM_TESTCTL_STATUS st else s
    if x.2.2 ∧ region < 63 then { s1 with sram := { s1.sram with req := some (bank, region + 1, true) } } else reqTestEnd s1

/-- A re-admission test passed: the next region, or REJOINING (R435). -/
def readmTest (s : State) (bank region : Nat) : State := if region < 63 then startTest s bank (region + 1) 3 else setStage s bank 3

/-- After a region test that leaves its bank in service: what follows for its kind, then the bank's next test. -/
def afterTest (s : State) (t : SramTest) (st : Nat) : State :=
  let s1 := match t.kind with
    | 0 => bgAdvance s (t.bank / 4) (t.bank % 4 * 64 + t.region + 1)
    | 1 => reqAdvance s t.bank t.region st
    | 2 => if st = 0 then fltTestEnd s (quadSrc t.bank) t.bank 2 none else s
    | _ => readmTest s t.bank t.region
  nextTest s1 t.bank

/-- A region test ends (R433): `result` 0 passes, 1 fails in cells of one column, 2 fails otherwise. A repair walks the bank's words within the step (R434). -/
def regionTestComplete (bank result : Nat) (s : State) : State :=
  match bankTest s bank with
  | none => s
  | some t =>
    let s1 := { s with sram := { s.sram with tests := s.sram.tests.erase t } }
    let d := fun (_ : Nat) => (0 : Nat)
    let used := tabGet d s1.sram.cols bank
    if result = 0 then afterTest s1 t 0
    else if t.kind = 3 then (setStage s1 bank 1).report (quadSrc bank) bank C.SRM_F_BANK 0 0
    else if result = 1 ∧ used < 4 then
      let s2 := { s1 with sram := { s1.sram with cols := tabSet d s1.sram.cols bank (used + 1), flaws := tabSet d s1.sram.flaws bank (used + 1) } }
      let s3 := (evSRM 3 (s2.fset SRM_STAT F.SRM_STAT_REPAIRED 1)).report (quadSrc bank) bank C.SRM_W_COLUMN_REPAIRED 0 0
      afterTest s3 t C.SRM_W_COLUMN_REPAIRED
    else bankFence (s1.reportAt 2 (quadSrc bank) bank C.SRM_F_BANK 0 0) bank

/-- A region test ends. -/
def execRegionTestComplete (bank result : Nat) (s : State) : Res := .next (regionTestComplete bank result s)

/-- A bank's REJOINING ends (R435): its ways come back empty, a scratchpad is cleared, a bank of 480 to 511 holds the other copy's content, with the words that
are lost there. -/
def bankRejoined (s : State) (bank : Nat) : State :=
  let s1 := setStage s bank 0
  match partOf bank with
  | 3 => s1.setBob (bank - 416) { s1.bob (bank - 416) with scratch := [], lost := [] }
  | 4 =>
    let b := s1.sram.bad.filter (fun x => x.1 != bank)
    { s1 with sram := { s1.sram with bad := (b.filter (fun x => x.1 == twinBank bank)).map (fun x => (bank, x.2)) ++ b } }
  | _ => s1

end Sys2Proof.Machine
end

