-- ==== Sys2Proof/Machine/Cal.lean ====
section
/-! DEFINITION. Link calibration and test (chapter 18): tracking and trims (R558 to R560), recalibration and lane checks on the spare lane (R561 to R568),
fences of lanes (R569, R570), PRBS (R571, R572), the test access port (R573, R574, R576) and DRAM self-tests (R575). -/

namespace Sys2Proof.Machine

/-! Trims. -/

/-- Converters of a lane in the order CTLE, DFE taps 1 to 4, phase: field, smallest and largest value. -/
def converters : List (Fld × Int × Int) :=
  [(F.CAL_LANE_CTLE, 0, 31), (F.CAL_LANE_DFE1, -64, 63), (F.CAL_LANE_DFE2, -32, 31), (F.CAL_LANE_DFE3, -32, 31), (F.CAL_LANE_DFE4, -32, 31), (F.CAL_LANE_PHASE, -64, 63)]

def conv (i : Nat) : Fld × Int × Int := converters.getD i (F.CAL_LANE_CTLE, 0, 31)

/-- A converter's value in CAL_LANE. -/
def trimOf (reg i : Nat) : Int :=
  let c := conv i
  let v := (fld reg c.1 : Int)
  if c.2.1 < 0 ∧ 2 ^ (c.1.w - 1) ≤ v then v - 2 ^ c.1.w else v

/-- Store a converter's value, held inside its range. -/
def trimPut (reg i : Nat) (v : Int) : Nat :=
  let c := conv i
  let u := max c.2.1 (min c.2.2 v)
  putf reg c.1 (if u < 0 then (u + 2 ^ c.1.w).toNat else u.toNat)

def laneReg (s : State) (p l : Nat) : Nat := (s.rg (CAL_LANE p l)).toNat
def setLaneReg (s : State) (p l v : Nat) : State := s.setRg (CAL_LANE p l) (BitVec.ofNat 64 v)

/-- The port's link carries data: a host-mode link that is up, a Seam link that is ACTIVE. -/
def laneLive (s : State) (p : Nat) : Bool := linkUp s p || seamLive s p

/-- The lane of the port's running request is being swept or checked: its tracking is suspended (R564). -/
def laneHeld (s : State) (p l : Nat) : Bool :=
  let x := s.calp p
  match x.queue with
  | r :: _ => r.lane == l && decide (1 ≤ x.step)
  | [] => false

/-- A request that cannot get its lane ends (R566): the collector's test was not made (R469). -/
def laneNoWindow (s : State) (p : Nat) : State :=
  match (s.calp p).queue with
  | r :: _ => fltTestEnd (laneReqEnd (s.ev 0x5CF) p C.CAL_E_NO_WINDOW) (srcId 1 p) (laneElem r.lane) 0 none
  | [] => s

/-- Join a port's queue, one request per lane (R561). -/
def laneAsk (s : State) (p : Nat) (r : LaneReq) : State :=
  let x := s.calp p
  if x.queue.any (fun q => q.lane == r.lane) then
    s.setCalp p { x with queue := x.queue.map (fun q => if q.lane = r.lane then { q with fw := q.fw || r.fw } else q) }
  else
    let s1 := s.setCalp p { x with queue := x.queue ++ [r] }
    -- a spare that a fenced lane holds for good serves no other request
    if x.fixed.isSome ∧ x.queue = [] then laneNoWindow s1 p else s1

def stepSign (d : Int) : Int := if 0 < d then 1 else if d < 0 then -1 else 0

/-- A window of 2^24 symbols ends (R558): an eye and a proposal, each converter's at most one LSB. -/
def trackingWindow (p l eye : Nat) (prop : List Int) (s : State) : State :=
  if s.fget CAL_CFG F.CAL_CFG_TRACK_EN = 0 ∨ 16 ≤ p ∨ 17 ≤ l ∨ laneLive s p = false ∨ laneHeld s p l ∨ laneState s p l ≠ 0 then s
  else
    let x := s.calp p
    let d := (List.range 6).map (fun i => stepSign (prop.getD i 0))
    let s1 := s.fset (CAL_LANE p l) F.CAL_LANE_EYE_MV eye
    s1.setCalp p { x with pend := tabSet (fun _ => []) x.pend l (if d.all (· == 0) then [] else d) }

/-- A tracking window ends. -/
def execTrackingWindow (p l eye : Nat) (prop : List Int) (s : State) : Res := .next (trackingWindow p l eye prop s)

/-- Each converter with a pending correction moves one LSB (R559); a lane whose phase has moved by more than a quarter of a UI asks for its
own recalibration (R558). -/
def trimStep (p l : Nat) (s : State) : State :=
  let x := s.calp p
  match tabGet (fun _ => []) x.pend l with
  | [] => s
  | d =>
    let reg := (List.range 6).foldl (fun r i => trimPut r i (trimOf r i + stepSign (d.getD i 0))) (laneReg s p l)
    let left := d.map (fun v => v - stepSign v)
    let done := left.all (· == 0)
    let total := tabGet (fun _ => (0 : Int)) x.phase l + stepSign (d.getD 5 0)
    let y := { x with pend := tabSet (fun _ => []) x.pend l (if done then [] else left), phase := tabSet (fun _ => (0 : Int)) x.phase l total }
    let s1 := (setLaneReg s p l reg).setCalp p y
    let s2 := if done then s1.ev 0x5CC else s1
    if s2.fget CAL_CFG F.CAL_CFG_AUTO_RECAL = 1 ∧ l < 16 ∧ (32 < total ∨ total < -32) ∧ laneHeld s p l = false then laneAsk s2 p ⟨l, 0, false⟩ else s2

/-- A trim step. -/
def execTrimStep (p l : Nat) (s : State) : Res := .next (trimStep p l s)

/-! Recalibration (R561 to R567). -/

/-- CAL_REQ (R561, R566, R568). -/
def hookCalReq : Hook := fun _ _ new act s =>
  let s0 := s.setRg CAL_REQ (BitVec.ofNat 64 new)
  if fld act F.CAL_REQ_GO = 0 then (s0, 0)
  else if s.fget CAL_REQ F.CAL_REQ_BUSY = 1 then (s, C.CAL_E_REQ_BUSY)
  else
    let p := fld new F.CAL_REQ_PORT
    let l := fld new F.CAL_REQ_LANE
    (laneAsk (s0.fset CAL_REQ F.CAL_REQ_BUSY 1) p ⟨l, fld new F.CAL_REQ_KIND, true⟩, 0)

/-- CAL_REQ.GO with KIND 0. -/
def execRecalibrate (who : Who) (val : Word) (s : State) : Res := .next (rowWrite hookCalReq who CAL_REQ val s)

/-- CAL_REQ.GO with KIND 1. -/
def execLaneCheck (who : Who) (val : Word) (s : State) : Res := .next (rowWrite hookCalReq who CAL_REQ val s)

/-- The spare's data agrees with the lane's, which it now carries: the partner mirrors the lane (R563), or a host-mode port's spare receiver has adapted to
it (R565). -/
def spareReady (s : State) (p l errs : Nat) : Bool :=
  errs == 0 && (if hostMode s p then linkUp s p else seamLive s p && (s.sp p).gotA % 32 == 16 + l)

/-- The trims of the spare receiver of a host-mode port (R90, R565): the lane's own to begin with, then as it has adapted. -/
def spareTrims (s : State) (p trims : Nat) : State :=
  if hostMode s p then setLaneReg s p 16 (putBits (laneReg s p 16) 0 37 (trims % 2 ^ 37)) else s

/-- A converter setting from a sweep's result. -/
def trimsOf (reg : Nat) (prop : List Int) : Nat := (List.range 6).foldl (fun r i => trimPut r i (prop.getD i 0)) reg

/-- R560. -/
def plausible (s : State) (reg : Nat) (prop : List Int) (eye : Nat) : Bool :=
  let diff := fun i => (prop.getD i 0 - trimOf reg i).natAbs
  decide (diff 0 ≤ s.fget CAL_LIMITS F.CAL_LIMITS_CTLE_MAX) && [1, 2, 3, 4].all (fun i => decide (diff i ≤ s.fget CAL_LIMITS F.CAL_LIMITS_DFE_MAX)) &&
  decide (diff 5 ≤ s.fget CAL_LIMITS F.CAL_LIMITS_PHASE_MAX) && decide (s.fget CAL_LIMITS F.CAL_LIMITS_EYEMIN_MV ≤ eye)

def calStep (s : State) (p n : Nat) : State := s.setCalp p { s.calp p with step := n }

/-- A step of R564 ends for the port's first request: `prop` and `eye` are the sweep's result, or at step 2 the spare's as it has adapted, `errs` the
differences of the comparison. -/
def recalStep (p : Nat) (prop : List Int) (eye errs : Nat) (s : State) : State :=
  let x := s.calp p
  match x.queue with
  | [] => s
  | r :: _ =>
    let l := r.lane
    if 16 ≤ p then s
    else if x.step = 0 then
      if x.fixed.isSome ∨ laneState s p l ≠ 0 then laneNoWindow s p
      else if laneLive s p = false then s
      else setMapB (spareTrims (setLaneState (calStep s p 1) p l 1) p (laneReg s p l)) p (0x50 + l)
    else if x.step = 1 then
      if spareReady s p l errs then
        evPRT p 15 ((seamSpare ((spareTrims (calStep s p 2) p (trimsOf (laneReg s p 16) prop)).fset (CAL_LANE p l) F.CAL_LANE_SPARED 1) p true).ev 0x5CE)
      else s
    else if r.kind = 1 then s
    else if x.step = 2 then
      s.setCalp p { x with step := 3, prop := prop, eye := eye, old := laneReg s p l }
    else if x.step = 3 then
      if plausible s (laneReg s p l) x.prop x.eye then calStep s p 4
      else
        ((s.setCalp p { x with step := 6, status := C.CAL_W_IMPLAUSIBLE }).reportAt 0 (srcId 1 p) (laneElem l) C.CAL_W_IMPLAUSIBLE 0 0).ev 0x5CD
    else if x.step = 4 then
      let d := (List.range 6).map (fun i => x.prop.getD i 0 - trimOf (laneReg s p l) i)
      (s.setCalp p { x with step := 5, pend := tabSet (fun _ => []) x.pend l (if d.all (· == 0) then [] else d) }).fset (CAL_LANE p l) F.CAL_LANE_EYE_MV x.eye
    else if x.step = 5 then
      if tabGet (fun _ => []) x.pend l ≠ [] then s
      else if errs ≤ s.fget CAL_CFG F.CAL_CFG_ERRMAX then s.setCalp p { x with step := 6, phase := tabDel x.phase l }
      else (setLaneReg s p l (putBits (laneReg s p l) 0 37 x.old)).setCalp p { x with step := 6, status := C.CAL_E_INTERRUPTED }
    else laneReqEnd s p x.status

/-- A recalibration step ends. -/
def execRecalStepComplete (p : Nat) (prop : List Int) (eye errs : Nat) (s : State) : Res := .next (recalStep p prop eye errs s)

/-- The port's first request has not reached step 2 of R564, its takeover, within 100 ms (R566). -/
def execCalENoWindow (p : Nat) (s : State) : Res := .next (if (s.calp p).step = 0 then laneNoWindow s p else s)

/-! Lane faults (R568 to R570). -/

/-- More than BURST_THR corrections on one lane within 1 ms. -/
def execCalFLaneBurst (p l count : Nat) (s : State) : Res :=
  .next (if p < 16 ∧ l < 16 ∧ laneLive s p ∧ laneState s p l < 2 ∧ s.fget CAL_CFG F.CAL_CFG_BURST_THR < count then s.report (srcId 1 p) (laneElem l) C.CAL_F_LANE_BURST 0 0 else s)

/-- The link recovers at the widest width of R86 that excludes the lane; below x4 CXL.mem is not enabled (R87, R569). -/
def narrowLink (s : State) (p l : Nat) : State :=
  let r := PRT_LINKSTAT p
  let s1 := calTrained (evPRT p 11 s) p
  if 8 ≤ l then (s1.fset r F.PRT_LINKSTAT_WIDTH (max 1 (s.fget r F.PRT_LINKSTAT_WIDTH))).fset r F.PRT_LINKSTAT_L0PW (max 1 (s.fget r F.PRT_LINKSTAT_L0PW))
  else if 4 ≤ l then (s1.fset r F.PRT_LINKSTAT_WIDTH (max 2 (s.fget r F.PRT_LINKSTAT_WIDTH))).fset r F.PRT_LINKSTAT_L0PW (max 2 (s.fget r F.PRT_LINKSTAT_L0PW))
  else portEvent (((s1.fset r F.PRT_LINKSTAT_WIDTH 3).fset r F.PRT_LINKSTAT_L0PW 3).fset r F.PRT_LINKSTAT_MEM_EN 0) p C.PRT_E_SPEED (srcId 1 p) 0

/-- A lane is fenced (R569). `rx`: the fault lies in the lane's own receiver. -/
def laneFence (s : State) (p l : Nat) (rx : Bool) : State :=
  if laneState s p l = 2 ∨ 16 ≤ p ∨ 16 ≤ l then s
  else
    let x := s.calp p
    let s1 := setLaneState s p l 2
    let hold := fun (t : State) => ((setMapB (t.setCalp p { t.calp p with fixed := some l }) p (0x70 + l)).fset (CAL_LANE p l) F.CAL_LANE_SPARED 1)
    if hostMode s p then
      if rx ∧ x.fixed = none then hold s1 else if linkUp s1 p then narrowLink s1 p l else s1
    else if x.fixed = none then (hold s1).fset (PRT_SEAMSTAT p) F.PRT_SEAMSTAT_SPARE 1
    else if seamLive s1 p ∨ linkState s1 p = 4 then seamDown s1 p else s1

/-- A lane check ends (R568): `errs` errors in 2^31 bits; `spareBad`: in host mode the spare path shows a burst as well. -/
def laneCheckComplete (p errs : Nat) (spareBad : Bool) (s : State) : State :=
  let x := s.calp p
  match x.queue with
  | [] => s
  | r :: _ =>
    if r.kind ≠ 1 ∨ x.step < 2 ∨ 16 ≤ p then s
    else
      let pass := errs ≤ s.fget CAL_CFG F.CAL_CFG_ERRMAX
      if pass then fltTestEnd (laneReqEnd s p 0) (srcId 1 p) (laneElem r.lane) 2 none
      else
        let s1 := laneReqEnd (laneFence (setLaneState s p r.lane 0) p r.lane (!spareBad)) p C.CAL_F_LANE_LOST
        s1.reportAt 2 (srcId 1 p) (laneElem r.lane) C.CAL_F_LANE_LOST 0 0

/-- A lane check ends. -/
def execLaneCheckComplete (p errs : Nat) (spareBad : Bool) (s : State) : Res := .next (laneCheckComplete p errs spareBad s)

/-- The host link recovers at the widest width, of those to which it had trained, that excludes every lane still fenced (R569, R570). -/
def widenLink (s : State) (p : Nat) : State :=
  let out := lanesOut s p
  let w := max (s.port p).full (if out.any (· < 4) then 3 else if out.any (· < 8) then 2 else if out ≠ [] then 1 else 0)
  let r := PRT_LINKSTAT p
  if linkUp s p = false ∨ s.fget r F.PRT_LINKSTAT_WIDTH ≤ w then s
  else memEnable (((calTrained (evPRT p 11 s) p).fset r F.PRT_LINKSTAT_WIDTH w).fset r F.PRT_LINKSTAT_L0PW w) p

/-- A lane is back in service (R570). -/
def laneReadmitted (s : State) (p l : Nat) : State :=
  let x := s.calp p
  let s1 := (setLaneState s p l 0).fset (CAL_LANE p l) F.CAL_LANE_SPARED 0
  if x.fixed = some l then (setMapB (s1.setCalp p { x with fixed := none }) p 0x40).fset (PRT_SEAMSTAT p) F.PRT_SEAMSTAT_SPARE 0 else widenLink s1 p

/-! PRBS (R571, R572). -/

/-- Firmware may use the lane's pattern hardware. -/
def prbsFree (s : State) (p l : Nat) : Bool :=
  laneState s p l == 2 || (if hostMode s p then !linkUp s p else linkState s p == 0 || linkState s p == 5)

/-- Exponents of a pattern's polynomial, its degree first (R571). -/
def polyTaps : Nat → Nat × Nat
  | 0 => (7, 6)
  | 1 => (15, 14)
  | 2 => (23, 18)
  | _ => (31, 28)

/-- The bit that follows those of a register, newest lowest: the exclusive-or of the bits that the polynomial names. -/
def prbsBit (poly reg : Nat) : Nat := (reg / 2 ^ ((polyTaps poly).1 - 1) + reg / 2 ^ ((polyTaps poly).2 - 1)) % 2

def prbsShift (poly reg b : Nat) : Nat := (2 * reg + b % 2) % 2 ^ (polyTaps poly).1

/-- `n` bits of a generator, first bit first, and its register after them. -/
def prbsGen (poly : Nat) : Nat → Nat → Nat × List Nat
  | 0, reg => (reg, [])
  | n + 1, reg =>
    let b := prbsBit poly reg
    let r := prbsGen poly n (prbsShift poly reg b)
    (r.1, b :: r.2)

/-- PAM4 (R571): the level of two pattern bits, the first the more significant, and the bits of a level. -/
def grayLevel : Nat → Nat → Nat
  | 0, 0 => 0
  | 0, _ => 1
  | _, 0 => 3
  | _, _ => 2

def grayBits : Nat → List Nat
  | 0 => [0, 0]
  | 1 => [0, 1]
  | 2 => [1, 1]
  | _ => [1, 0]

/-- The symbols of a bit sequence, and the bits of a symbol sequence. -/
def toSymbols : List Nat → List Nat
  | a :: b :: r => grayLevel a b :: toSymbols r
  | _ => []

def fromSymbols (l : List Nat) : List Nat := l.flatMap grayBits

/-- The checker takes one bit (R571): it seeds itself from what it receives until 64 bits in a row are correct, and from then on runs by itself; it answers
1 for a bit error. -/
def prbsTake (poly : Nat) (x : PrbsLane) (b : Nat) : PrbsLane × Nat :=
  if x.seeded < (polyTaps poly).1 then ({ x with chk := prbsShift poly x.chk b, seeded := x.seeded + 1 }, 0)
  else
    let w := prbsBit poly x.chk
    if 64 ≤ x.run then ({ x with chk := prbsShift poly x.chk w, bits := x.bits + 1 }, if b = w then 0 else 1)
    else ({ x with chk := prbsShift poly x.chk b, run := if b = w then x.run + 1 else 0 }, 0)

def prbsTakeAll (poly : Nat) (x : PrbsLane) (l : List Nat) : PrbsLane × Nat :=
  l.foldl (fun a b => let r := prbsTake poly a.1 b; (r.1, a.2 + r.2)) (x, 0)

/-- Pattern hardware that is off, and as it starts: a generator with every bit 1 (DESIGN CHOICE, log entry 133), a checker without a seed. -/
def PrbsLane.init : PrbsLane := { gen := 0, chk := 0, seeded := 0, run := 0, bits := 0 }
def PrbsLane.fresh : PrbsLane := { PrbsLane.init with gen := 2 ^ 31 - 1 }

/-- Bits that a lane carries in a nanosecond: 112 Gbit/s in Seam mode, 64 GT/s in host mode. -/
def laneBits (s : State) (p : Nat) : Nat := if hostMode s p then 64 else 112

def prbsPut (s : State) (p l : Nat) (x : PrbsLane) : State :=
  s.setCalp p { s.calp p with prbs := tabSet (fun _ => PrbsLane.init) (s.calp p).prbs l x }

/-- What the lane's checker receives in a nanosecond: by the loopback what the generator sends, otherwise what the partner sends, which is free. -/
def prbsRx (s : State) (p l n : Nat) (sent : List Nat) : List Nat × State :=
  if s.fget (CAL_PRBS p l) F.CAL_PRBS_GEN_EN = 1 ∧ s.fget (CAL_PRBS p l) F.CAL_PRBS_LOOP = 1 then (fromSymbols (toSymbols sent), s)
  else ((List.range n).map (fun i => getBits (s.free n).1 i 1), (s.free n).2)

/-- A lane's checker takes bits: LOCK, ERRORS and BITS follow. -/
def prbsCheck (p l poly : Nat) (x : PrbsLane) (rx : List Nat) (s : State) : State :=
  let r := CAL_PRBS p l
  let c := prbsTakeAll poly x rx
  let s1 := (s.fsat r F.CAL_PRBS_ERRORS c.2).fsat r F.CAL_PRBS_BITS (c.1.bits / 65536)
  prbsPut (s1.fset r F.CAL_PRBS_LOCK (if 64 ≤ c.1.run then 1 else 0)) p l { c.1 with bits := c.1.bits % 65536 }

/-- The pattern hardware of a lane for one nanosecond (R571). -/
def prbsRun (s : State) (p l : Nat) (x : PrbsLane) : State :=
  let poly := s.fget (CAL_PRBS p l) F.CAL_PRBS_POLY
  let n := laneBits s p
  let g := if s.fget (CAL_PRBS p l) F.CAL_PRBS_GEN_EN = 1 then prbsGen poly n x.gen else (x.gen, [])
  if prbsFree s p l = false then s
  else if s.fget (CAL_PRBS p l) F.CAL_PRBS_CHK_EN = 0 then prbsPut s p l { x with gen := g.1 }
  else prbsCheck p l poly { x with gen := g.1 } (prbsRx s p l n g.2).1 (prbsRx s p l n g.2).2

/-- The pattern hardware of every lane that has it on. -/
def prbsTick (s : State) : State := s.cal.foldl (fun t e => e.2.prbs.foldl (fun u x => prbsRun u e.1 x.1 x.2) t) s

/-! Counters in level mode (R450). -/

/-- The condition that event `e` stands for holds now (R450, R454); an event that is a happening has none. -/
def condHolds (s : State) (e : Nat) : Bool :=
  let i := e % 16
  if e < 0x100 then
    let p := e / 16
    if i = 13 then hostMode s p && decide (2048 ≤ (s.port p).trk.length)
    else if i = 14 then seamLive s p && !(s.sp p).txq.isEmpty && (pickMsg (s.sp p).cred [] (s.sp p).txq).isNone
    else i == 15 && (List.range 16).any (fun l => s.fget (CAL_LANE p l) F.CAL_LANE_SPARED == 1)
  else if e < 0x280 then
    let c := e / 16 - 16
    if i = 10 then (s.chan c).drainW
    else if i = 12 then decide (128 ≤ slotsUsed (s.chan c) false)
    else if i = 13 then decide (64 ≤ slotsUsed (s.chan c) true)
    else i == 15 && mergeFull s c
  else if e < 0x2E0 then e % 4 == 3 && lanesBusy s ((e - 0x280) / 4) == 16
  else if e = 0x3A4 then s.tier.lc.any (fun x => x.2.any (fun v => v.st == .held))
  else if 0x580 ≤ e ∧ e < 0x5B8 then
    let m := (e - 0x580) / 2
    if e % 2 = 0 then passHeld s m else capHeld s m
  else false

/-- A nanosecond is counted for every condition that holds and whose counter is in level mode. -/
def levelTick (s : State) : State :=
  (List.range 24).foldl (fun t w =>
    let m := (t.rg (PMC_MODE w)).toNat
    if m = 0 then t else (List.range 64).foldl (fun u k => if bit m k && condHolds u (64 * w + k) then u.ev (64 * w + k) else u) t) s

/-- A nanosecond of every Bobbin that has run, while the Bobbins are clocked (R452). -/
def bobTick (s : State) : State := if coreOpen s then s.bobs.foldl (fun t e => slotTick t e.1) s else s

/-- What happens while no command waits: a nanosecond passes, where the clocks of P3 and P4 and a device held in reset do not stand (R517, R590). -/
def idle (s : State) : State :=
  if 3 ≤ s.pst ∨ s.pwr.held ≠ 0 then s else levelTick (bobTick (prbsTick (tickTime s)))

/-- The pattern hardware after a write of CAL_PRBS: what was off, or changes its pattern, starts anew. -/
def prbsSet (s : State) (p l old new : Nat) : State :=
  let x := s.calp p
  let on := fun (v : Nat) (f : Fld) => fld v f == 1
  let moved := fld old F.CAL_PRBS_POLY != fld new F.CAL_PRBS_POLY
  let y := tabGet (fun _ => PrbsLane.init) x.prbs l
  let y1 := if on old F.CAL_PRBS_GEN_EN && !moved then y else { y with gen := PrbsLane.fresh.gen }
  let y2 := if on old F.CAL_PRBS_CHK_EN && on new F.CAL_PRBS_CHK_EN && !moved then y1 else { PrbsLane.fresh with gen := y1.gen }
  let s1 := if y2.run < 64 then s.fset (CAL_PRBS p l) F.CAL_PRBS_LOCK 0 else s
  if on new F.CAL_PRBS_GEN_EN || on new F.CAL_PRBS_CHK_EN then s1.setCalp p { x with prbs := tabSet (fun _ => PrbsLane.init) x.prbs l y2 }
  else s1.setCalp p { x with prbs := tabDel x.prbs l }

/-- CAL_PRBS. -/
def hookPrbs : Hook := fun idx old new act s =>
  let p := idx.getD 0 0
  let l := idx.getD 1 0
  if (fld new F.CAL_PRBS_GEN_EN = 1 ∨ fld new F.CAL_PRBS_CHK_EN = 1 ∨ fld new F.CAL_PRBS_LOOP = 1) ∧ prbsFree s p l = false then (s, C.CAL_E_STATE)
  else
    let s1 := prbsSet (s.setRg (CAL_PRBS p l) (BitVec.ofNat 64 new)) p l old new
    (if fld act F.CAL_PRBS_CLR = 1 then (s1.fset (CAL_PRBS p l) F.CAL_PRBS_ERRORS 0).fset (CAL_PRBS p l) F.CAL_PRBS_BITS 0 else s1, 0)

/-- A write of CAL_PRBS. -/
def execPrbsWrite (who : Who) (p l : Nat) (val : Word) (s : State) : Res := .next (rowWrite hookPrbs who (CAL_PRBS p l) val s)

/-- CAL_PRBS.CLR. -/
def execClr (who : Who) (p l : Nat) (val : Word) (s : State) : Res := .next (rowWrite hookPrbs who (CAL_PRBS p l) val s)

/-! DRAM self-tests (R575). -/

/-- CAL_MBISTCTL. -/
def hookMbist : Hook := fun _ _ new act s =>
  let c := fld new F.CAL_MBISTCTL_CH
  let alg := fld new F.CAL_MBISTCTL_ALG
  if s.fget CAL_MBISTCTL F.CAL_MBISTCTL_BUSY = 1 then (s, if fld act F.CAL_MBISTCTL_GO = 1 then C.CAL_E_STATE else 0)
  else
    let s0 := s.setRg CAL_MBISTCTL (BitVec.ofNat 64 new)
    if fld act F.CAL_MBISTCTL_GO = 0 then (s0, 0)
    else if alg = 3 ∨ 24 ≤ c ∨ (s.cstate c ≠ csFENCED ∧ s.cstate c ≠ csTESTING) ∨ (alg = 2 ∧ (s.chan c).mbist = false) then
      (s0.fset CAL_MBISTCTL F.CAL_MBISTCTL_STATUS C.CAL_E_STATE, C.CAL_E_STATE)
    else ((s0.fset CAL_MBISTCTL F.CAL_MBISTCTL_BUSY 1).fset CAL_MBISTRES F.CAL_MBISTRES_VALID 0, 0)

/-- CAL_MBISTCTL.GO with ALG 0. -/
def execMarchC (who : Who) (val : Word) (s : State) : Res := .next (rowWrite hookMbist who CAL_MBISTCTL val s)

/-- CAL_MBISTCTL.GO with ALG 1. -/
def execRowPerBank (who : Who) (val : Word) (s : State) : Res := .next (rowWrite hookMbist who CAL_MBISTCTL val s)

/-- CAL_MBISTCTL.GO with ALG 2. -/
def execModuleMbist (who : Who) (val : Word) (s : State) : Res := .next (rowWrite hookMbist who CAL_MBISTCTL val s)

/-- A DRAM memory test ends: the channel's content is lost in every case; failing lines return the channel to FENCED. -/
def mbistComplete (failed : Option Nat) (s : State) : State :=
  if s.fget CAL_MBISTCTL F.CAL_MBISTCTL_BUSY = 0 then s
  else
    let c := s.fget CAL_MBISTCTL F.CAL_MBISTCTL_CH
    let s1 := contentLost (s.fset CAL_MBISTCTL F.CAL_MBISTCTL_BUSY 0) c
    match failed with
    | none => s1.fset CAL_MBISTCTL F.CAL_MBISTCTL_STATUS 0
    | some pa =>
      let s2 := ((s1.fset CAL_MBISTCTL F.CAL_MBISTCTL_STATUS C.CAL_E_MBIST_FAIL).fset CAL_MBISTRES F.CAL_MBISTRES_PA pa).fset CAL_MBISTRES F.CAL_MBISTRES_VALID 1
      if s2.cstate c = csTESTING then readmEnd (s2.setCstate c csFENCED) (srcId 2 c) 0 C.CAL_E_MBIST_FAIL else s2

/-- A DRAM memory test ends: none, or the PA of its first failing line. -/
def execMbistComplete (failed : Option Nat) (s : State) : Res := .next (mbistComplete failed s)

/-! The test access port (R573, R574, R576). -/

/-- Instructions that drive pins are honoured before step 5 of cold boot, or with T_INV (R574). -/
def tapAllowed (s : State) : Bool := (decide (s.mgmt.step < 4) && !s.mgmt.warm) || s.fget MGT_DBGCTL F.MGT_DBGCTL_T_INV == 1

/-- The access port answers while its domain has power: P3 and P4 gate all but what they keep (R26, R517, R524). -/
def tapOn (f : State → State) (s : State) : State := if s.pst < 3 then f s else s

def tapSet (s : State) (ir : Nat) : State := { s with tap := { s.tap with ir := ir } }

/-- BYPASS: the TAP's one-bit register; nothing else happens. -/
def tapBypass (s : State) : State := (tapSet s 0xFF).put (.tap 0xFF 0)

/-- An instruction drives the pins from the boundary cells. -/
def tapDrive (ir : Nat) (s : State) : State :=
  if tapAllowed s then { tapSet s ir with tap := { (tapSet s ir).tap with driven := true } }.put (.tap ir s.tap.cells) else tapBypass s

/-- EXTEST (R574): opcode 0x00. -/
def execExtest (s : State) : Res := .next (tapOn (tapDrive 0x00) s)
/-- IDCODE (R573): opcode 0x01. -/
def execIdcode (s : State) : Res := 
  .next (tapOn (fun s => (tapSet s 0x01).put (.tap 0x01 (1 * 2 ^ 28 + 0x9256 * 2 ^ 12 + Config.jep106 % 2 ^ 11 * 2 + 1))) s)
/-- SAMPLE/PRELOAD (R573): opcode 0x02; the cells' sample `pins` is shifted out while `cells` is shifted in. -/
def execSamplePreload (pins cells : Nat) (s : State) : Res := 
  .next (tapOn (fun s => { tapSet s 0x02 with tap := { (tapSet s 0x02).tap with cells := cells } }.put (.tap 0x02 pins)) s)
/-- CLAMP (R574): opcode 0x03. -/
def execClamp (s : State) : Res := .next (tapOn (tapDrive 0x03) s)
/-- HIGHZ (R574): opcode 0x04. -/
def execHighz (s : State) : Res := .next (tapOn (tapDrive 0x04) s)
/-- EXTEST_PULSE (R574): opcode 0x05. -/
def execExtestPulse (s : State) : Res := .next (tapOn (tapDrive 0x05) s)
/-- EXTEST_TRAIN (R574): opcode 0x06. -/
def execExtestTrain (s : State) : Res := .next (tapOn (tapDrive 0x06) s)
/-- BYPASS (R573): opcode 0xFF and every unlisted opcode. -/
def execBypass (s : State) : Res := .next (tapOn tapBypass s)

/-- Failing columns of a bank are fused while the production fuse lock is unburnt (R574, R576): four to a bank; a fifth fails the part. -/
def fuseBank (a : State × Bool) (f : Nat × Nat) : State × Bool :=
  let used := tabGet (fun _ => 0) a.1.sram.cols f.1
  if used + f.2 ≤ 4 then
    ({ a.1 with sram := { a.1.sram with cols := tabSet (fun _ => 0) a.1.sram.cols f.1 (used + f.2), flaws := tabSet (fun _ => 0) a.1.sram.flaws f.1 (used + f.2) } }, a.2)
  else (a.1, false)

/-- BIST (R576): opcode 0x20; `fails` gives banks with their failing columns. The part's result is shifted out: 1 good, 0 bad. -/
def bist (fails : List (Nat × Nat)) (s : State) : State :=
  if tapAllowed s = false then tapBypass s
  else
    let s1 := { tapSet s 0x20 with tap := { (tapSet s 0x20).tap with driven := true } }
    let r := if s.tap.fuseLock then (s1, fails.all (fun f => f.2 == 0)) else fails.foldl fuseBank (s1, true)
    r.1.put (.tap 0x20 (if r.2 then 1 else 0))

/-- BIST. -/
def execBist (fails : List (Nat × Nat)) (s : State) : Res := .next (tapOn (bist fails) s)

end Sys2Proof.Machine
end

