-- ==== Sys2Proof/Machine/Hem.lean ====
section
/-! DEFINITION. The Hem hot-swap controllers (chapter 17): ramps and power-good, protection, presence, telemetry, their registers, and the loss of the
die-to-die link (R25, R546). -/

namespace Sys2Proof.Machine

def State.hem (s : State) (h : Nat) : Hem := tabGet (fun _ => Hem.init) s.hems h
def State.setHem (s : State) (h : Nat) (x : Hem) : State := { s with hems := tabSet (fun _ => Hem.init) s.hems h x }

def hemSrc (h : Nat) : Nat := srcId 10 h

/-- HEM_CTL.EN. -/
def hemEn (s : State) (h : Nat) : Bool := s.fget (HEM_CTL h) F.HEM_CTL_EN == 1

/-- The gate is fully on and the controller is not limiting (R540). -/
def hemPg (x : Hem) : Bool := x.gate == 2

/-- HEM_STAT.STATE (R556). -/
def hemStateOf (s : State) (h : Nat) (x : Hem) : Nat :=
  if x.adm = 1 then 5 else if x.adm = 2 then 6 else if x.adm = 3 then 7
  else match x.gate with
    | 0 => if hemEn s h then 1 else 0
    | 1 => 2
    | 2 => 3
    | _ => 4

/-- Registers of the controller at its present state. -/
def hemMirror (s : State) (h : Nat) : State :=
  let x := s.hem h
  let r := HEM_STAT h
  let b := fun (v : Bool) => if v then 1 else 0
  let s1 := (((s.fset r F.HEM_STAT_STATE (hemStateOf s h x)).fset r F.HEM_STAT_PG (b (hemPg x))).fset r F.HEM_STAT_PRESENT (b x.present)).fset r F.HEM_STAT_STALE 0
  let s2 := (((s1.fset r F.HEM_STAT_VINOK (b x.vinok)).fset r F.HEM_STAT_LATCH (b x.latch)).fset r F.HEM_STAT_LASTFLT x.lastflt).fset r F.HEM_STAT_FAULTS x.faults
  let s3 := s2.fset r F.HEM_STAT_RETRY_LEFT (if x.retry then s.fget (HEM_CFG h) F.HEM_CFG_RETRY else 0)
  let t := HEM_TELEM h
  let s4 := ((s3.fset t F.HEM_TELEM_VIN_MV x.vin).fset t F.HEM_TELEM_I_MA x.ma).fset t F.HEM_TELEM_P_DW x.pdw
  let s5 := (s4.fset (HEM_PEAK h) F.HEM_PEAK_VMIN_MV x.vmin).fset (HEM_PEAK h) F.HEM_PEAK_IMAX_MA x.imax
  s5.setRg (HEM_ENERGY h) (BitVec.ofNat 64 (x.energy / 100000000))

/-- A re-admission of the controller ends (R553): in service once it has reached power-good, FENCED again after a fault. -/
def hemRejoined (s : State) (h : Nat) : State :=
  let x := s.hem h
  let src := hemSrc h
  if s.fget (FLT_SRCSTAT src) F.FLT_SRCSTAT_STATE ≠ 3 then s
  else if x.adm = 0 then readmEnd (setSrcState s src 0) src 0 0
  else if x.adm = 1 then readmEnd (setSrcState s src 1) src 0 x.lastflt
  else s

/-- The core die sees the controller: when power-good has cleared, the channel has lost its modules (R390, R540). -/
def hemSync (s : State) (h : Nat) : State :=
  if s.pwr.d2dLost then s
  else
    let was := s.fget (HEM_STAT h) F.HEM_STAT_PG
    let s1 := hemMirror (hemRejoined s h) h
    if was = 1 ∧ hemPg (s1.hem h) = false then moduleLost s1 h else s1

/-- The controller changes, and the core die sees it. -/
def hemUpd (s : State) (h : Nat) (f : Hem → Hem) : State := if h < 24 then hemSync (s.setHem h (f (s.hem h))) h else s

/-- A report of the Selvedge die reaches the core die: a fault is counted and raises the controller's interrupt (R454, R492). -/
def hemDeliver (s : State) (r : Report) : State :=
  let h := r.src % 128
  let s1 := { s with reports := s.reports ++ [r] }
  if r.level = none then (s1.ev (0x5D0 + h)).irq (40 + h) else s1

/-- A report of the Selvedge die; it waits while the link is lost. -/
def hemReport (s : State) (h code : Nat) (lvl : Option Nat) : State :=
  let r : Report := { src := hemSrc h, elem := 0, code := code, addr := 0, detail := 0, level := lvl }
  if s.pwr.d2dLost then { s with pwr := { s.pwr with lateReports := s.pwr.lateReports ++ [r] } } else hemDeliver s r

/-- A fast discharge (R544): the gate falls, the retry timer starts; that of a FENCED controller stands still (R553). -/
def fastDischarge (x : Hem) : Hem := { x with gate := 0, retry := x.adm != 1 }

/-! Ramps (R538 to R540). -/

/-- Every condition of R538 that the controller holds: EN, not FENCED, retry expired, present, VIN; no new ramp while the link is lost (R546). -/
def rampReady (s : State) (h : Nat) : Bool :=
  let x := s.hem h
  hemEn s h && (x.adm == 0 || x.adm == 3) && !x.retry && x.present && x.vinok && x.gate == 0 && !s.pwr.d2dLost

/-- A ramp starts. -/
def execRampStart (h : Nat) (s : State) : Res :=
  .next (if rampReady s h then hemUpd { s with diag := { s.diag with log := tabSet (fun _ => []) s.diag.log (dgKey dlRAMP h) [] } } h (fun x => { x with gate := 1 }) else s)

/-- The gate reaches full enhancement (R540): power-good, and a re-admission is complete (R553). -/
def powerGood (h : Nat) (s : State) : State :=
  if 24 ≤ h ∨ (s.hem h).gate ≠ 1 then s else hemUpd s h (fun x => { x with gate := 2, adm := 0 })

/-- The gate reaches full enhancement. -/
def execPowerGood (h : Nat) (s : State) : Res := .next (powerGood h s)

/-! Protection (R541 to R545). -/

/-- A fault is latched: fast discharge, retry timer, report (R541 to R544); during REJOINING the controller returns to FENCED (R553). -/
def hemFault (h code : Nat) (s : State) : State :=
  hemReport (hemUpd s h (fun x =>
    { fastDischarge { x with adm := if x.adm = 3 then 1 else x.adm } with latch := true, lastflt := code, faults := satAdd 16 x.faults 1 })) h code none

/-- The gate misses, or does not hold, full enhancement (R541). -/
def execHemFGateStuck (h : Nat) (s : State) : Res :=
  .next (if h < 24 ∧ ((s.hem h).gate = 1 ∨ (s.hem h).gate = 2) then hemFault h C.HEM_F_GATE_STUCK s else s)

/-- The current limit takes the gate (R542). -/
def execCurrentLimit (h : Nat) (s : State) : Res :=
  .next (if (s.hem h).gate = 1 ∨ (s.hem h).gate = 2 then hemUpd s h (fun x => { x with gate := x.gate + 2 }) else s)

/-- The current falls below the limit before the fault time: the controller returns to the state it left (R542). -/
def execCurrentLimitClear (h : Nat) (s : State) : Res := .next (if 3 ≤ (s.hem h).gate then hemUpd s h (fun x => { x with gate := x.gate - 2 }) else s)

/-- The fault timer ends (R542). -/
def execHemFOvercurrent (h : Nat) (s : State) : Res := .next (if h < 24 ∧ 3 ≤ (s.hem h).gate then hemFault h C.HEM_F_OVERCURRENT s else s)

/-- A hard short (R543). -/
def execHemFShort (h : Nat) (s : State) : Res := .next (if h < 24 ∧ (s.hem h).gate ≠ 0 then hemFault h C.HEM_F_SHORT s else s)

/-- VIN below 10.2 V for 50 µs (R545). -/
def execHemWVinLow (h : Nat) (s : State) : Res :=
  .next (if h < 24 ∧ (s.hem h).gate ≠ 0 then hemReport (hemUpd s h (fun x => { fastDischarge x with vinok := false })) h C.HEM_W_VIN_LOW (some 0) else s)

/-- The retry timer expires (R544). -/
def execRetryExpiry (h : Nat) (s : State) : Res := .next (if (s.hem h).retry then hemUpd s h (fun x => { x with retry := false }) else s)

/-- An edge of HEM_PRSNT_Nn (R547): the retry timer restarts, unless the controller is FENCED (R553); with the gate on, the rail is discharged. -/
def presenceEdge (h : Nat) (low : Bool) (s : State) : State :=
  if 24 ≤ h ∨ (s.hem h).present = low then s
  else
    let on := (s.hem h).gate != 0
    let s1 := hemUpd s h (fun x => { fastDischarge x with present := low })
    if on then hemReport s1 h C.HEM_W_REMOVED (some 0) else s1

/-- An edge of HEM_PRSNT_Nn. -/
def execPresenceEdge (h : Nat) (low : Bool) (s : State) : Res := .next (if h < 24 ∧ (s.hem h).present ≠ low then wake 3 (presenceEdge h low s) else s)

/-! Registers. -/

/-- The outcome of a write goes to HEM_CTL.STATUS. -/
def hemStatus (s : State) (h st : Nat) : State × Nat := (s.fset (HEM_CTL h) F.HEM_CTL_STATUS st, st)

/-- HEM_CTL (R538, R546, R550, R555). -/
def hookHemCtl : Hook := fun idx _ new act s =>
  let h := idx.headD 0
  let en := fld new F.HEM_CTL_EN
  if s.pwr.d2dLost then (s, C.HEM_E_STALE)
  else if en = 0 ∧ s.cstate h ≠ csABSENT ∧ s.cstate h ≠ csFENCED then hemStatus s h C.HEM_E_CHANNEL_ACTIVE
  else
    let s1 := s.fset (HEM_CTL h) F.HEM_CTL_EN en
    let s2 := hemUpd s1 h (fun x =>
      let y := if en = 0 then { x with gate := 0 } else x
      if fld act F.HEM_CTL_CLRPEAK = 1 then { y with vmin := 0xFFFF, imax := 0 } else y)
    hemStatus s2 h 0

/-- HEM_CTL.EN = 0. -/
def execRailOff (who : Who) (h : Nat) (val : Word) (s : State) : Res := .next (rowWrite hookHemCtl who (HEM_CTL h) val s)

/-- HEM_CTL.EN = 1. -/
def execRailOn (who : Who) (h : Nat) (val : Word) (s : State) : Res := .next (rowWrite hookHemCtl who (HEM_CTL h) val s)

/-- HEM_CTL.CLRPEAK. -/
def execClrpeak (who : Who) (h : Nat) (val : Word) (s : State) : Res := .next (rowWrite hookHemCtl who (HEM_CTL h) val s)

def inRange (v lo hi : Nat) : Bool := decide (lo ≤ v) && decide (v ≤ hi)

/-- HEM_CFG (R556): a field out of range refuses the whole write. -/
def hookHemCfg : Hook := fun idx _ new _ s =>
  let h := idx.headD 0
  let ok := inRange (fld new F.HEM_CFG_RAMP_MS) 1 100 && inRange (fld new F.HEM_CFG_FAULT) 1 200 && inRange (fld new F.HEM_CFG_RETRY) 1 1000 &&
    inRange (fld new F.HEM_CFG_ILIM) 100 400 && inRange (fld new F.HEM_CFG_RSENSE) 1000 20000
  if s.pwr.d2dLost then (s, C.HEM_E_STALE)
  else if ok then hemStatus (s.setRg (HEM_CFG h) (BitVec.ofNat 64 new)) h 0
  else hemStatus s h C.HEM_E_RANGE

/-- A write of HEM_CFG. -/
def execHemCfgWrite (who : Who) (h : Nat) (val : Word) (s : State) : Res := .next (rowWrite hookHemCfg who (HEM_CFG h) val s)

/-- HEM_STAT: LATCH is cleared by writing 1. While the link is lost the register holds its last value (R546), and nothing reaches the controller. -/
def hookHemStat : Hook := fun idx _ new _ s =>
  let h := idx.headD 0
  if s.pwr.d2dLost then (s, 0) else
  ((s.setHem h { s.hem h with latch := (s.hem h).latch && fld new F.HEM_STAT_LATCH == 1 }).setRg (HEM_STAT h) (BitVec.ofNat 64 new), 0)

/-- HEM_RAMPLOG and HEM_GATEMV at a conversion: the first one in each millisecond of a ramp is kept (millisecond × 2^16 + mV, mA); the gate voltage is a value
that no rule gives. -/
def rampLog (h mv ma : Nat) (s : State) : State :=
  let r := s.free 16
  let s1 := r.2.diagSet dgGATEMV h r.1
  let ms := s.time / 1000000
  if h < 24 ∧ ((s.hem h).gate = 1 ∨ (s.hem h).gate = 3) ∧ ((tabGet (fun _ => []) s.diag.log (dgKey dlRAMP h)).head?).all (fun x => x.1 / 65536 != ms) then
    s1.diagLog dlRAMP h 1024 (ms * 65536 + mv, ma)
  else s1

/-- A conversion (R555): the rail voltage in mV and the sense voltage in µV. P4 keeps only the wake logic (R26). -/
def telemetry (h mv uv : Nat) (s : State) : State :=
  if s.pst = 4 then s else
  let rs := max 1 (s.fget (HEM_CFG h) F.HEM_CFG_RSENSE)
  let ma := uv * 1000 / rs
  hemUpd (rampLog h (min mv 65535) (min ma 65535) s) h (fun x =>
    { x with vin := min mv 65535, ma := min ma 65535, pdw := min (mv * ma / 100000) 65535, vinok := decide (10800 ≤ mv),
             vmin := if x.gate = 2 ∨ x.gate = 4 then min x.vmin (min mv 65535) else x.vmin, imax := max x.imax (min ma 65535),
             energy := (x.energy + mv * ma) % (2 ^ 64 * 100000000) })

/-- A conversion. -/
def execTelemetryConversion (h mv uv : Nat) (s : State) : Res := .next (telemetry h mv uv s)

/-! The die-to-die link (R25, R546). -/

/-- The link carries no traffic for 1 ms: every controller goes on by itself. In P3 and P4 nobody watches it (R26, R517). -/
def d2dLoss (s : State) : State :=
  if s.pwr.d2dLost ∨ 3 ≤ s.pst then s
  else
    let s1 := { s with pwr := { s.pwr with d2dLost := true } }.report (hemSrc 127) 0 C.HEM_F_LINK_LOST 0 0
    (List.range 24).foldl (fun t h => t.fset (HEM_STAT h) F.HEM_STAT_STALE 1) s1

/-- The die-to-die link is lost. -/
def execD2dLinkLoss (s : State) : Res := .next (d2dLoss s)

/-- The collector's order to a controller (R553): FENCED, its gate below 1 V and its retry timer stopped, or TESTING. It waits while the link is lost, and the
gate holds (R25). -/
def hemOrders (s : State) (h : Nat) : State :=
  if s.pwr.d2dLost then s
  else
    let st := s.fget (FLT_SRCSTAT (hemSrc h)) F.FLT_SRCSTAT_STATE
    if st = 1 ∧ (s.hem h).adm ≠ 1 then hemUpd s h (fun x => { x with gate := 0, adm := 1, retry := false })
    else if st = 2 ∧ (s.hem h).adm ≠ 2 then hemUpd s h (fun x => { x with gate := 0, adm := 2, retry := false })
    else s

/-- The link returns: the registers follow the controllers again, what waited is delivered, and the collector's orders reach the controllers. -/
def d2dReturn (s : State) : State :=
  if s.pwr.d2dLost then
    let s1 := s.pwr.lateReports.foldl hemDeliver { s with pwr := { s.pwr with d2dLost := false, lateReports := [] } }
    (List.range 24).foldl (fun t h => hemOrders (hemSync t h) h) s1
  else s

/-- The die-to-die link returns. -/
def execD2dLinkReturn (s : State) : Res := .next (d2dReturn s)

/-- The collector has fenced the controller (R553): it is told, and its channel is lost. -/
def hemFence (s : State) (h : Nat) : State := moduleLost (hemOrders s h) h

end Sys2Proof.Machine
end

