-- ==== Sys2Proof/Machine/Iln.lean ====
section
/-! DEFINITION. The Interlining (R27 to R41): tokens from node to node, checks and resends, stall watchdogs, fences of planes, speed monitors. -/

namespace Sys2Proof.Machine

/-! Planes. -/

/-- The plane takes transfers (R40, R41). -/
def planeUsable (s : State) (p : Nat) : Bool :=
  s.ftest GLB_ILNCFG F.GLB_ILNCFG_PLANE_EN p && !(s.ftest GLB_ILNSTAT F.GLB_ILNSTAT_FENCED p)

/-- The next enabled plane in the order 0, 1, 2, 3, wrapping, from `p` on (R40). -/
def planeFrom (s : State) (p : Nat) : Nat → Nat → Nat
  | 0, _ => p
  | n + 1, k => if planeUsable s ((p + k) % 4) then (p + k) % 4 else planeFrom s p n (k + 1)

/-- Plane that a transfer selecting `p` uses. -/
def planeFor (s : State) (p : Nat) : Nat := planeFrom s p 4 0

/-! Tokens. -/

def latchKey (plane row col inp cls : Nat) : Nat := ((plane * 64 + row * 8 + col) * 8 + inp) * 3 + cls
def latchAt (s : State) (k : Nat) : Option Token := tabGet (fun _ => none) s.iln.latch k
def latchPut (s : State) (k : Nat) (t : Option Token) : State :=
  { s with iln := { s.iln with latch := tabSet (fun _ => none) s.iln.latch k t } }

/-- Dimension-ordered routing (R29): first along the row, then along the column. 0 north, 1 south, 2 east, 3 west, 4 the destination's agent port. -/
def routeDir (row col : Nat) (t : Token) : Nat :=
  if col < t.dstCol then 2 else if t.dstCol < col then 3 else if row < t.dstRow then 1 else if t.dstRow < row then 0 else 4

/-- The neighbour in a direction, and the input at which its channel arrives. -/
def neighbour (row col dir : Nat) : Nat × Nat × Nat :=
  match dir with
  | 0 => (row - 1, col, 1)
  | 1 => (row + 1, col, 0)
  | 2 => (row, col + 1, 3)
  | _ => (row, col - 1, 2)

/-- Where an agent sits (chapter 01, "Agents are placed by rule"; GLB_ILNMAP). Agents are numbered: ports from 0, home slices from 16, channel clusters from
48, Bobbins from 72, management cores from 136, the service blocks from 140. -/
def agentNode (a : Nat) : Nat × Nat :=
  let f := Config.agentPlace a
  if a < 16 then (a / 8 * 7, a % 8)
  else if a < 48 then (2 + f.1 % 4, 2 + f.2 % 4)
  else if a < 72 then (1 + f.1 % 6, (a - 48) / 12 * 7)
  else if a < 136 then ((a - 72) / 8, (a - 72) % 8)
  else if a < 140 then (f.1 % 2 * 7, f.2 % 2 * 7)
  else (1 + f.1 % 2 * 5, f.2 % 8)

/-- The plane that a transfer selects (R31). -/
def tokenPlane (t : Token) : Nat :=
  match t.carries with
  | 0 => planeOf t.la
  | 1 => 0
  | _ => Config.agentPlane t.srcAgent % 4

/-- The check over a token's routing bits and data (R39). -/
def checkOf (t : Token) : Nat :=
  Config.tokenCheck [t.srcAgent, t.dstAgent, t.srcRow, t.srcCol, t.dstRow, t.dstCol, t.cls, t.num, t.carries, t.la] t.data % 65536

/-- The token as it leaves its source: with its check. -/
def sealTok (t : Token) : Token := { t with check := checkOf t }

def tokenOk (t : Token) : Bool :=
  decide (t.srcAgent < 148) && decide (t.dstAgent < 148) && (t.srcRow, t.srcCol) == agentNode t.srcAgent && (t.dstRow, t.dstCol) == agentNode t.dstAgent &&
    decide (t.cls < 3) && decide (t.num < 65536)

def tokenTag (t : Token) : Nat × Nat × Nat := (t.srcAgent, t.dstAgent, t.num)

/-- The plane takes a new transfer that selects plane `sel` (R31, R40): the next enabled plane takes the place of one that is fenced, once its tokens have been
sent again, and of one disabled by PLANE_EN. -/
def planeTakes (s : State) (sel plane : Nat) : Bool :=
  planeFor s sel == plane && planeUsable s plane && !(s.ftest GLB_ILNSTAT F.GLB_ILNSTAT_REMAP_BUSY sel)

/-- An agent presents a token at its port: a new one, or one that it must send again. The source keeps it until the end-to-end acknowledgement (R39). -/
def tokenInject (plane row col inp : Nat) (t0 : Token) (s : State) : State :=
  let t := sealTok t0
  let k := latchKey plane row col inp t.cls
  let again := s.iln.resend.find? (fun x => x.2.2 == t && planeFor s x.2.1 == plane)
  let isHeld := s.iln.held.any (fun x => tokenTag x.tok == tokenTag t)
  if tokenOk t = false ∨ t.srcRow ≠ row ∨ t.srcCol ≠ col ∨ inp < 4 ∨ 8 ≤ inp ∨ planeUsable s plane = false ∨ (latchAt s k).isSome then s
  else match again with
    | some x => latchPut { s with iln := { s.iln with
        resend := s.iln.resend.erase x
        held := s.iln.held.map (fun y => if tokenTag y.tok = tokenTag t then { y with plane := plane } else y) } } k (some t)
    | none =>
      if isHeld ∨ planeTakes s (tokenPlane t) plane = false then s
      else latchPut { s with iln := { s.iln with held := s.iln.held ++ [⟨plane, t, false⟩], acked := s.iln.acked.filter (· != tokenTag t) } } k (some t)

/-- The transfer goes from this agent to that one on this plane (R32). -/
def onPath (src dst plane : Nat) (x : Transit) : Bool := x.tok.srcAgent == src && x.tok.dstAgent == dst && x.plane == plane

/-- The tokens of one path that are accepted and have none before them on their way (R32), and the transfers that remain. -/
def inOrder (src dst plane : Nat) : List Transit → List Token × List Transit
  | [] => ([], [])
  | x :: r =>
    if onPath src dst plane x then
      if x.got then (x.tok :: (inOrder src dst plane r).1, (inOrder src dst plane r).2) else ([], x :: r)
    else ((inOrder src dst plane r).1, x :: (inOrder src dst plane r).2)

/-- Deliver accepted tokens of one path in the order in which they left (R32). -/
def deliverTokens (src dst plane : Nat) (s : State) : State :=
  let x := inOrder src dst plane s.iln.held
  x.1.foldl (fun t tok => t.put (.tokenDelivered plane tok)) { s with iln := { s.iln with held := x.2 } }

/-- A token reaches its destination (R39, R40): one that fails its check is discarded, and its source sends it again on the same plane; one acknowledged before
is discarded; another is acknowledged, and delivered when those that left before it on its path have been (R32). -/
def tokenArrive (plane : Nat) (t : Token) (s : State) : State :=
  if t.check ≠ checkOf t then
    let s1 := { s with iln := { s.iln with
      resend := s.iln.resend ++ ((s.iln.held.filter (fun x : Transit => tokenTag x.tok == tokenTag t && !x.got)).map (fun x : Transit => (plane, plane, x.tok))) } }
    (evSRM (8 + plane) (s1.fset GLB_ILNSTAT F.GLB_ILNSTAT_CHECK 1)).report (srcId 14 plane) 0 C.ILN_F_TOKEN_CHECK 0 0
  else if s.iln.acked.contains (tokenTag t) then s
  else
    deliverTokens t.srcAgent t.dstAgent plane { s with iln := { s.iln with
      acked := s.iln.acked ++ [tokenTag t],
      held := s.iln.held.map (fun x => if tokenTag x.tok = tokenTag t then { x with got := true } else x) } }

/-- What errors on a channel make of a token: bits of its data and of its check invert. -/
def corrupt (flipData : Line) (flipCheck : Nat) (t : Token) : Token :=
  { t with data := t.data ^^^ flipData, check := t.check ^^^ flipCheck % 65536 }

/-- One four-phase handshake (R27): an agent's token enters the node's port latch, or the token of input `inp` and class `cls` moves on in direction
`dir`. A receiver whose latch is full withholds its acknowledge (R30). -/
def tokenTransfer (plane row col dir : Nat) (inject : Option Token) (inp cls : Nat) (flipData : Line) (flipCheck : Nat) (s : State) : State :=
  if 4 ≤ plane ∨ 8 ≤ row ∨ 8 ≤ col ∨ coreAlive s = false then s
  else match inject with
    | some t => tokenInject plane row col inp t s
    | none =>
      if 8 ≤ inp ∨ 3 ≤ cls ∨ s.ftest GLB_ILNSTAT F.GLB_ILNSTAT_FENCED plane then s
      else match latchAt s (latchKey plane row col inp cls) with
        | none => s
        | some t0 =>
          let t := corrupt flipData flipCheck t0
          if routeDir row col t ≠ dir then s
          else if dir = 4 then tokenArrive plane t (latchPut s (latchKey plane row col inp cls) none)
          else
            let n := neighbour row col dir
            let k := latchKey plane n.1 n.2.1 n.2.2 cls
            match latchAt s k with
            | some _ => s
            | none => latchPut (latchPut s (latchKey plane row col inp cls) none) k (some t)

/-- One handshake. -/
def execTokenTransfer (plane row col dir : Nat) (inject : Option Token) (inp cls : Nat) (flips : Line × Nat) (s : State) : Res :=
  .next (tokenTransfer plane row col dir inject inp cls flips.1 flips.2 s)

/-! Watchdogs and fences. -/

/-- A handshake is under way at the node: some latch of it holds a token. -/
def nodeActive (s : State) (plane row col : Nat) : Bool :=
  s.iln.latch.any (fun x => x.1 / 24 == plane * 64 + row * 8 + col)

/-- A node's stall watchdog trips (R40). -/
def stallWatchdog (plane row col : Nat) (s : State) : State :=
  if 4 ≤ plane ∨ 8 ≤ row ∨ 8 ≤ col ∨ nodeActive s plane row col = false ∨ s.ftest GLB_ILNSTAT F.GLB_ILNSTAT_FENCED plane then s
  else
    let n := plane * 64 + row * 8 + col
    let s1 := { s with iln := { s.iln with trips := tabSet (fun _ => 0) s.iln.trips n (tabGet (fun _ => 0) s.iln.trips n + 1) } }
    (evSRM (12 + plane) (s1.fset GLB_ILNSTAT F.GLB_ILNSTAT_STALL 1)).report (srcId 14 plane) (row * 8 + col) C.ILN_F_STALL 0 0

/-- A node's stall watchdog trips. -/
def execStallWatchdog (plane row col : Nat) (s : State) : Res := .next (stallWatchdog plane row col s)

/-- The collector fences a plane (R40): its sources send every token they hold for it again, on the replacement plane. -/
def planeFence (s : State) (plane : Nat) : State :=
  if s.ftest GLB_ILNSTAT F.GLB_ILNSTAT_FENCED plane then s
  else
    let s1 := (s.fbit GLB_ILNSTAT F.GLB_ILNSTAT_FENCED plane true).fbit GLB_ILNSTAT F.GLB_ILNSTAT_REMAP_BUSY plane true
    let dest := planeFor s1 plane
    let queued := s1.iln.resend.map (fun x => if x.2.1 = plane then (x.1, dest, x.2.2) else x)
    let mine := (s1.iln.held.filter (fun x => x.plane == plane && !x.got && !(queued.any (fun y => y.2.2 == x.tok)))).map (·.tok)
    { s1 with iln := { s1.iln with
        latch := tabDrop (fun k => k / 1536 == plane) s1.iln.latch
        held := s1.iln.held.map (fun x => if x.plane = plane then { x with plane := dest } else x)
        resend := queued ++ mine.map (fun t => (plane, dest, t)) } }

/-- Once every source has sent its tokens again, REMAP_BUSY clears and requests for lines of the plane go on (R40). -/
def remapComplete (plane : Nat) (s : State) : State :=
  if 4 ≤ plane ∨ s.iln.resend.any (fun x => x.1 == plane && x.2.1 != plane) then s
  else if s.ftest GLB_ILNSTAT F.GLB_ILNSTAT_REMAP_BUSY plane then pump (s.fbit GLB_ILNSTAT F.GLB_ILNSTAT_REMAP_BUSY plane false)
  else s

/-- The remapping of a fenced plane ends. -/
def execRemapComplete (plane : Nat) (s : State) : Res := .next (remapComplete plane s)

/-- GLB_ILNCFG (R41): a write that would leave no usable plane is not applied. -/
def hookIlnCfg : Hook := fun _ _ new _ s =>
  let en := fld new F.GLB_ILNCFG_PLANE_EN
  let fenced := s.fget GLB_ILNSTAT F.GLB_ILNSTAT_FENCED
  if en &&& (15 - fenced) = 0 then (s, C.GLB_E_NO_PLANE) else (s.setRg GLB_ILNCFG (BitVec.ofNat 64 new), 0)

/-- A write of PLANE_EN. -/
def execPlaneEnWrite (who : Who) (val : Word) (s : State) : Res := .next (rowWrite hookIlnCfg who GLB_ILNCFG val s)

/-! Speed monitors (R36, R37). -/

/-- GLB_SPDCFG: START begins one measurement, and clears DONE; it is ignored while CONT is 1. -/
def hookSpdCfg : Hook := fun _ _ new act s =>
  let s1 := s.setRg GLB_SPDCFG (BitVec.ofNat 64 new)
  if fld act F.GLB_SPDCFG_START = 1 ∧ fld new F.GLB_SPDCFG_CONT = 0 then
    ({ s1.fset GLB_SPDCFG F.GLB_SPDCFG_DONE 0 with iln := { s1.iln with spd := true } }, 0)
  else (s1, 0)

/-- GLB_SPDCFG.START. -/
def execStart (who : Who) (val : Word) (s : State) : Res := .next (rowWrite hookSpdCfg who GLB_SPDCFG val s)

/-- Periods of a measurement. -/
def spdWindow (s : State) : Nat := let w := s.fget GLB_SPDCFG F.GLB_SPDCFG_WINDOW; if w = 0 then 256 else w

/-- R36: live token rate of monitor `n`, in tokens per second. -/
def spdRate (s : State) (n : Nat) : Nat := s.fget (GLB_SPDMON n) F.GLB_SPDMON_COUNT * s.fget (GLB_SPDMON n) F.GLB_SPDMON_SCALE / spdWindow s

/-- Index of the least, or greatest, rate; the lowest index among equals. -/
def spdPick (f : Nat → Nat) (better : Nat → Nat → Bool) : Nat → Nat → Nat → Nat
  | 0, _, b => b
  | n + 1, i, b => spdPick f better n (i + 1) (if better (f i) (f b) then i else b)

/-- A measurement window ends (R37). DESIGN CHOICE, log entry 120: a repeating measurement that is running when CONT is cleared is abandoned. -/
def speedMeasurement (counts : List Nat) (s : State) : State :=
  if coreAlive s = false ∨ (s.fget GLB_SPDCFG F.GLB_SPDCFG_CONT = 0 ∧ s.iln.spd = false) then s
  else
    let s1 := (List.range 16).foldl (fun t n =>
      (t.fset (GLB_SPDMON n) F.GLB_SPDMON_COUNT (counts.getD n 0)).fset (GLB_SPDMON n) F.GLB_SPDMON_VALID 1) s
    let lo := spdPick (spdRate s1) (fun a b => decide (a < b)) 15 1 0
    let hi := spdPick (spdRate s1) (fun a b => decide (b < a)) 15 1 0
    let rl := spdRate s1 lo
    let rh := spdRate s1 hi
    let r := GLB_SPDMIN
    let s2 := (((s1.fset r F.GLB_SPDMIN_MIN (rl / 1000000)).fset r F.GLB_SPDMIN_MINIDX lo).fset r F.GLB_SPDMIN_MAX (rh / 1000000)).fset r F.GLB_SPDMIN_MAXIDX hi
    let s3 := { s2.fset GLB_SPDCFG F.GLB_SPDCFG_DONE 1 with iln := { s2.iln with spd := false } }
    let s4 := if rl < s.fget GLB_SPDCFG F.GLB_SPDCFG_ALARM * 1000000 then
        ((s3.fset r F.GLB_SPDMIN_ALARM 1).reportAt 0 (srcId 14 (lo / 4)) 0 C.ILN_W_BELOW_ALARM 0 0).irq 8
      else s3
    if rl * 9 < rh * 8 then (s4.fset r F.GLB_SPDMIN_SPREAD 1).reportAt 0 (srcId 14 (lo / 4)) 0 C.GLB_W_MONITOR_SPREAD 0 0 else s4

/-- A measurement window ends. -/
def execSpeedMeasurement (counts : List Nat) (s : State) : Res := .next (speedMeasurement counts s)

end Sys2Proof.Machine
end

