-- ==== Sys2Proof/Machine/Mailbox.lean ====
section
/-! DEFINITION. The mailbox commands of a head (R94, R99, R105, R108 to R110, R309, R313), the CDAT (R85) and the SPDM responder (R507). A payload is the
list of the numbers that the command returns. -/

namespace Sys2Proof.Machine

/-! The accepted Pattern (R502). -/

/-- A little-endian field of a Pattern. -/
def patWord (p : List Nat) (off n : Nat) : Nat := leNat ((p.drop off).take n)

/-- A section of a Pattern: its entry's fields (R502). -/
structure Sect where
  type : Nat
  flags : Nat
  arg : Nat
  off : Nat
  len : Nat
  dest : Nat
  digest : Bytes
  deriving DecidableEq, Repr

/-- Section entry `i`. -/
def sectOf (p : List Nat) (i : Nat) : Sect :=
  let b := 512 + 64 * i
  ⟨patWord p b 1, patWord p (b + 1) 1, patWord p (b + 2) 2, patWord p (b + 4) 4, patWord p (b + 8) 4, patWord p (b + 12) 4, (p.drop (b + 16)).take 48⟩

/-- The section table. -/
def sects (p : List Nat) : List Sect := (List.range (patWord p 6 2)).map (sectOf p)

/-- A section's bytes. -/
def sectBytes (p : List Nat) (x : Sect) : Bytes := (p.drop x.off).take x.len

/-- The bytes of the first section of a type. -/
def sectOfType (p : List Nat) (ty : Nat) : Bytes := match (sects p).find? (fun x => x.type == ty) with
  | some x => sectBytes p x
  | none => []

/-! Mailboxes. -/

/-- A mailbox command runs on an open head. -/
def mbox (p : Nat) (s : State) (f : State → State) : State := if p < 16 ∧ mboxOpen s p then f (s.irq (64 + p)) else s

/-! Event logs (R108, R110). -/

/-- A payload holds 4 KiB (R84): event records of 128 bytes behind a header of 32, poison records of 16 behind 32, extents of 40 behind 16, program names of 18.
PRESUMED (log entry 165): CXL's sizes. -/
def maxEvents : Nat := 31
def maxPoison : Nat := 254
def maxExtents : Nat := 102
def maxProgs : Nat := 227

/-- Get Event Records, opcode 0x0100: flags (1 overflow, 2 more records), then handle, status, source, DPA and length of the log's oldest records. -/
def execGetEventRecords (p log : Nat) (s : State) : Res :=
  .next (mbox p s fun s =>
    if 5 ≤ log then mboxDone s p 0x0100 2 0 []
    else
      let x := s.port p
      let l := x.events.filter (fun e => e.log == log)
      mboxDone s p 0x0100 0 0 (((if bit x.evOverflow log then 1 else 0) + (if maxEvents < l.length then 2 else 0)) ::
        (l.take maxEvents).flatMap (fun e => [e.handle, e.status, e.src, e.dpa, e.len])))

/-- Clear Event Records, opcode 0x0101: all of a log, or the records whose handles are given; an unknown handle clears none. -/
def execClearEventRecords (p log : Nat) (all : Bool) (handles : List Nat) (s : State) : Res :=
  .next (mbox p s fun s =>
    let x := s.port p
    let known := handles.all (fun h => x.events.any (fun e => e.log == log && e.handle == h))
    if 5 ≤ log then mboxDone s p 0x0101 2 0 []
    else if all = false ∧ known = false then mboxDone s p 0x0101 0xE 0 []
    else
      let keep := x.events.filter (fun e => e.log != log || !(all || handles.contains e.handle))
      mboxDone (s.setPort p { x with events := keep, evOverflow := withBit x.evOverflow log false }) p 0x0101 0 0 [])

/-- Get Event Interrupt Policy, opcode 0x0102. -/
def execGetEventInterruptPolicy (p : Nat) (s : State) : Res :=
  .next (mbox p s fun s => mboxDone s p 0x0102 0 0 [(s.port p).evPolicy])

/-- Set Event Interrupt Policy, opcode 0x0103: one bit for each of the five logs. -/
def execSetEventInterruptPolicy (p policy : Nat) (s : State) : Res :=
  .next (mbox p s fun s => mboxDone (s.setPort p { s.port p with evPolicy := policy % 32 }) p 0x0103 0 0 [])

/-! Firmware, time, logs (R108). -/

/-- The opcodes of R108. -/
def mboxOpcodes : List Nat :=
  [0x0100, 0x0101, 0x0102, 0x0103, 0x0200, 0x0300, 0x0301, 0x0400, 0x0401, 0x4000, 0x4100, 0x4200, 0x4201, 0x4202, 0x4300, 0x4301, 0x4302,
   0x4800, 0x4801, 0x4802, 0x4803, 0xC000, 0xC001, 0xC002, 0xC003]

/-- Get FW Info, opcode 0x0200: one slot, not updatable, and the Pattern's firmware version. -/
def execGetFwInfo (p : Nat) (s : State) : Res := .next (mbox p s fun s => mboxDone s p 0x0200 0 0 [1, 1, 0, Config.fwVersion s.mgmt.pat])

/-- Get Timestamp, opcode 0x0300. -/
def execGetTimestamp (p : Nat) (s : State) : Res :=
  .next (mbox p s fun s =>
    let x := s.port p
    mboxDone s p 0x0300 0 0 [(x.tsBase + (s.time + 2 ^ 64 - x.tsAt)) % 2 ^ 64])

/-- Set Timestamp, opcode 0x0301: the device counts on from the value in fabric time. -/
def execSetTimestamp (p value : Nat) (s : State) : Res :=
  .next (mbox p s fun s => mboxDone (s.setPort p { s.port p with tsBase := value % 2 ^ 64, tsAt := s.time }) p 0x0301 0 0 [])

/-- Get Supported Logs, opcode 0x0400: the UUIDs of the command effects log and of the device's event record. -/
def execGetSupportedLogs (p : Nat) (s : State) : Res :=
  .next (mbox p s fun s => mboxDone s p 0x0400 0 0 [2, Config.logUuid 0, Config.logUuid 1])

/-- The command effects log: of each opcode of R108, its number and its effects as CXL lays them out, bit 1 a change of configuration at once, 2 of data,
3 of policy, 4 of a log, 6 an operation in the background. PRESUMED (log entry 131). -/
def effectsLog : List Nat :=
  mboxOpcodes.flatMap fun op => leBytes 2 op ++ leBytes 2
    (if op = 0x0101 then 0x10 else if op = 0x0103 ∨ op = 0x0301 ∨ op = 0x4202 then 0x08 else if op = 0x4301 ∨ op = 0x4302 then 0x04
     else if op = 0x4802 ∨ op = 0x4803 then 0x02 else if op = 0xC001 then 0x42 else 0)

/-- Get Log, opcode 0x0401: bytes of a supported log, within the 4 KiB that a payload holds (R84). -/
def execGetLog (p uuid off len : Nat) (s : State) : Res :=
  .next (mbox p s fun s =>
    if 4096 < len then mboxDone s p 0x0401 2 0 []
    else if uuid = Config.logUuid 0 then
      if effectsLog.length < off + len then mboxDone s p 0x0401 2 0 [] else mboxDone s p 0x0401 0 0 ((effectsLog.drop off).take len)
    else if uuid = Config.logUuid 1 then mboxDone s p 0x0401 0 0 ((List.range len).map fun i => Config.logByte uuid (off + i) % 256)
    else mboxDone s p 0x0401 2 0 [])

/-! Capacities and health (R94, R108). -/

/-- Identify Memory Device, opcode 0x4000: total and volatile capacity of the static partition in bytes, persistent capacity 0, poison list entries. -/
def execIdentifyMemoryDevice (p : Nat) (s : State) : Res :=
  .next (mbox p s fun s => mboxDone s p 0x4000 0 0 [dpaS s p, dpaS s p, 0, 1024])

/-- Get Partition Info, opcode 0x4100: active volatile and persistent, next volatile and persistent. -/
def execGetPartitionInfo (p : Nat) (s : State) : Res := .next (mbox p s fun s => mboxDone s p 0x4100 0 0 [dpaS s p, 0, dpaS s p, 0])

/-- Spare frames in the channels' FIFOs. -/
def spareFrames (s : State) : Nat := (List.range 24).foldl (fun a c => a + (s.chan c).fifoP.length + (s.chan c).fifoM.length) 0

/-- Corrected errors counted by the channels. -/
def correctedErrors (s : State) : Nat := (List.range 24).foldl (fun a c => a + s.fget (DCH_ECCSTAT c) F.DCH_ECCSTAT_CE) 0

/-- The alerts of a head whose thresholds are passed, one bit each: temperature, corrected errors, spare frames (R108). The temperature's threshold is given
in °C above -128. -/
def alertsNow (s : State) (x : Port) : Nat :=
  match x.alerts with
  | [t, c, f] => (if t ≤ (s.fget SBT_TEMP F.SBT_TEMP_CORE_MAX + 128) % 256 then 1 else 0) + (if c ≤ correctedErrors s then 2 else 0) + (if spareFrames s ≤ f then 4 else 0)
  | _ => 0

/-- A head's alerts follow what they watch. An alert that comes up is written to the warning log; R108 names no status for it, and the record carries none.
DESIGN CHOICE (log entry 132). -/
def portAlert (s : State) (p : Nat) : State :=
  let x := s.port p
  let now := alertsNow s x
  let s1 := portUpd s p (fun y => { y with alerted := now })
  if now &&& x.alerted = now then s1 else portEventIn s1 p 1 0 (srcId 1 p) 0 0

/-- The alerts of all heads. -/
def alertCheck (s : State) : State := (List.range 16).foldl portAlert s

/-- Get Health Info, opcode 0x4200: device level, core temperature, corrected errors, spare frames, and the alerts that stand. -/
def execGetHealthInfo (p : Nat) (s : State) : Res :=
  .next (mbox p s fun s => mboxDone s p 0x4200 0 0 [s.devLevel, s.fget SBT_TEMP F.SBT_TEMP_CORE_MAX, correctedErrors s, spareFrames s, alertsNow s (s.port p)])

/-- Get Alert Configuration, opcode 0x4201: temperature, corrected-error and spare-frame thresholds. -/
def execGetAlertConfiguration (p : Nat) (s : State) : Res := .next (mbox p s fun s => mboxDone s p 0x4201 0 0 (s.port p).alerts)

/-- Set Alert Configuration, opcode 0x4202. -/
def execSetAlertConfiguration (p : Nat) (alerts : List Nat) (s : State) : Res :=
  .next (mbox p s fun s => if alerts.length = 3 then mboxDone (portAlert (s.setPort p { s.port p with alerts := alerts, alerted := 0 }) p) p 0x4202 0 0 [] else mboxDone s p 0x4202 2 0 [])

/-! Poison (R105). -/

/-- Get Poison List, opcode 0x4300: flags (1 overflow, 2 more records), then the poisoned lines of a DPA range that the head may use. The same range asked for
again goes on where a payload ended. -/
def execGetPoisonList (p dpa len : Nat) (s : State) : Res :=
  .next (mbox p s fun s =>
    let x := s.port p
    let l := x.poisonList.filter (fun d => decide (dpa ≤ d) && decide (d < dpa + len) && dpaUsable s p d)
    let from' := if x.poisonCur.1 = dpa ∧ x.poisonCur.2.1 = len then x.poisonCur.2.2 else 0
    let more := decide (from' + maxPoison < l.length)
    mboxDone (s.setPort p { x with poisonCur := if more then (dpa, len, from' + maxPoison) else (0, 0, 0) }) p 0x4300 0 0
      (((if x.poisonOver then 1 else 0) + (if more then 2 else 0)) :: (l.drop from').take maxPoison))

/-- A write of poison, or of clean data, through the home slice of a DPA (R105): the command ends, and the poison lists follow, with the write. -/
def poisonWrite (s : State) (p dpa op : Nat) (data : Line) (poison : Bool) : State :=
  if dpaUsable s p dpa = false then mboxDone s p op 0xF C.PRT_W_UNMAPPED []
  else match dpaToLa s p dpa with
    | none => mboxDone s p op 0xF C.PRT_W_UNMAPPED []
    | some la =>
      let no := (s.port p).mboxNo
      let r : HomeReq := { kind := .write, who := .dev (64 + p + 16 * no), la := la / 64 * 64, data := data, mask := fullMask, poison := poison, master := p, mval := 0 }
      portUpd { s with home := { s.home with toHome := s.home.toHome ++ [r] } } p (fun x => { x with mboxRun := some (op, no), mboxNo := no + 1 })

/-- Inject Poison, opcode 0x4301. -/
def execInjectPoison (p dpa : Nat) (s : State) : Res := .next (mbox p s fun s => poisonWrite s p dpa 0x4301 0 true)

/-- Clear Poison, opcode 0x4302, with the line's new data. -/
def execClearPoison (p dpa : Nat) (data : Line) (s : State) : Res := .next (mbox p s fun s => poisonWrite s p dpa 0x4302 data false)

/-! Dynamic Capacity (R99 to R101). -/

/-- Get DC Configuration, opcode 0x4800: base and length of the two regions, the block size of 2 MiB, and whether region 1 is sharable. -/
def execGetDcConfiguration (p : Nat) (s : State) : Res :=
  .next (mbox p s fun s => mboxDone s p 0x4800 0 0
    [dpaS s p, dpaR0 s p, dpaS s p + dpaR0 s p, dpaR1 s p, 2 ^ 21, s.fget (PRT_DPALAYOUT p) F.PRT_DPALAYOUT_DCR1_SHARE])

/-- Get DC Extent List, opcode 0x4801, of head `p.1` from extent `p.2` on: first DPA and length of each extent, as many as a payload holds. -/
def execGetDcExtentList (p : Nat × Nat) (s : State) : Res :=
  .next (mbox p.1 s fun s => mboxDone s p.1 0x4801 0 0 ((((s.port p.1).extents.drop p.2).take maxExtents).flatMap fun e => [e.dpa, e.len]))

/-! Vendor commands (R108, R309, R313). -/

/-- The head owns the Spool. -/
def headOwns (s : State) (p q : Nat) : Bool :=
  s.fget (SPL_CLASSINFO q) F.SPL_CLASSINFO_OWNERKIND == 0 && s.fget (SPL_CLASSINFO q) F.SPL_CLASSINFO_OWNER == p

/-- Get Spool Assignment, opcode 0xC000: each owned Spool with its class. -/
def execGetSpoolAssignment (p : Nat) (s : State) : Res :=
  .next (mbox p s fun s => mboxDone s p 0xC000 0 0 (((List.range 1024).filter (headOwns s p)).flatMap fun q => [q, spoolClass s q]))

/-- Reset Spool, opcode 0xC001 (R309): it runs in the background until the Spool is DISABLED. -/
def mboxResetSpool (p q : Nat) (s : State) : State :=
  if (s.port p).mboxBg.isSome then mboxDone s p 0xC001 6 0 []
  else if 1024 ≤ q ∨ headOwns s p q = false then mboxDone s p 0xC001 2 C.CTL_E_NOT_OWNER []
  else if splState s q = 4 then mboxDone s p 0xC001 2 C.SPL_E_CONFIG []
  else
    let s1 := s.setPort p { s.port p with mboxBg := some 0xC001 }
    let x := s1.spool q
    resetSpool (s1.setSpool q { x with mbox := x.mbox ++ [p] }) q

/-- Reset Spool from the owning head. -/
def execResetSpool (p q : Nat) (s : State) : Res := .next (mbox p s (mboxResetSpool p q))

/-- Get Program Directory, opcode 0xC002 (R313), of head `p.1` from ID `p.2` on: ID and NAME of each valid entry for a class of the head's Spools, as many as a
payload holds. -/
def execGetProgramDirectory (p : Nat × Nat) (s : State) : Res :=
  .next (mbox p.1 s fun s =>
    let cls := ((List.range 1024).filter (headOwns s p.1)).map (spoolClass s)
    mboxDone s p.1 0xC002 0 0 ((((List.range 256).filter fun i =>
      let e := tabGet (fun _ => ProgEntry.init) s.progs i
      decide (p.2 ≤ i) && e.valid && cls.any (bit e.classes)).take maxProgs).flatMap fun i => [i, (tabGet (fun _ => ProgEntry.init) s.progs i).name]))

/-- Get Status Detail, opcode 0xC003: status and fault source behind the last failed command. -/
def execGetStatusDetail (p : Nat) (s : State) : Res := .next (mbox p s fun s => mboxDone s p 0xC003 0 0 [(s.port p).detail.1, (s.port p).detail.2])

/-- Any other opcode ends with return code Unsupported (R108). -/
def execMailboxUnsupported (p op : Nat) (s : State) : Res :=
  .next (mbox p s fun s => if mboxOpcodes.contains op then s else mboxDone s p op 3 0 [])

/-! DOE and SPDM. -/

/-- A DOE request reads bytes of the CDAT that the Pattern supplied (R85). -/
def execCdatRead (p off len : Nat) (s : State) : Res :=
  .next (if p < 16 ∧ linkUp s p then s.put (.doe p ((List.range len).map fun i => Config.cdatByte (sectOfType s.mgmt.pat 9) p (off + i) % 256)) else s)

/-- Bytes of a measurement block (R507): index k + 1 holds MRk, index 0x10 holds MGT_DBGCTL. -/
def spdmBlock (s : State) (i : Nat) : Option (List Nat) :=
  if 1 ≤ i ∧ i ≤ 8 then some ((List.range 6).flatMap fun w => leBytes 8 (s.rg (MGT_MR (i - 1) w)).toNat)
  else if i = 0x10 then some (leBytes 8 (s.rg MGT_DBGCTL).toNat)
  else none

/-- The SPDM responder (R507): `transport` 0 to 15 DOE on a head, 16 MCTP over I3C, 17 MCTP over PCIe VDM; `code` 0x84 GET_VERSION, 0xE0 GET_MEASUREMENTS
of block `arg`, 0x82 the certificate chain of slot 0 with the alias certificate, 0x81 and 0x83 digests and challenge, 0xE1 and 0xE3 capabilities and algorithms, 0xE5, 0xE8 and 0xE9 finish, heartbeat
and key update of session `arg`, 0xE4 KEY_EXCHANGE, 0xEC END_SESSION of session `arg`. Any other request is answered with an error code of the SPDM standard (R10). -/
def spdmRequest (transport code arg : Nat) (s : State) : State :=
  if 17 < transport ∨ s.mgmt.run = false then s
  else
    let live := s.mgmt.sessions
    let spdmContent := fun (rsp : Nat) => { s with ctr := s.ctr + 1 }.put (.spdm transport rsp (Config.spdmContent code arg s.ctr))
    match code with
    | 0x84 => s.put (.spdm transport 0x04 [0x12, 0x13])
    | 0xE0 => (match spdmBlock s arg with
      | some b => s.put (.spdm transport 0x60 b)
      | none => s.put (.spdm transport 0x7F [0x01]))
    | 0xE4 =>
      if 8 ≤ live.length then s.put (.spdm transport 0x7F [0x0A])
      else
        let id := ((List.range 8).find? (fun i => !(live.contains i))).getD 0
        { s with mgmt := { s.mgmt with sessions := live ++ [id] } }.put (.spdm transport 0x64 [id])
    | 0xEC =>
      if live.contains arg then { s with mgmt := { s.mgmt with sessions := live.filter (· != arg) } }.put (.spdm transport 0x6C [arg])
      else s.put (.spdm transport 0x7F [0x01])
    | 0x81 => spdmContent 0x01
    | 0x82 => s.put (.spdm transport 0x02 (sectOfType s.mgmt.pat 10 ++ s.mgmt.aliasCert))
    | 0x83 => spdmContent 0x03
    | 0xE1 => spdmContent 0x61
    | 0xE3 => spdmContent 0x63
    | 0xE5 => if live.contains arg then spdmContent 0x65 else s.put (.spdm transport 0x7F [0x01])
    | 0xE8 => if live.contains arg then s.put (.spdm transport 0x68 [arg]) else s.put (.spdm transport 0x7F [0x01])
    | 0xE9 => if live.contains arg then s.put (.spdm transport 0x69 [arg]) else s.put (.spdm transport 0x7F [0x01])
    | _ => s.put (.spdm transport 0x7F [0x07])

/-- The SPDM responder answers a request. -/
def execSpdmRequest (transport code arg : Nat) (s : State) : Res := .next (spdmRequest transport code arg s)

end Sys2Proof.Machine
end

