-- ==== Sys2Proof/Machine/Qos.lean ====
section
/-! DEFINITION. Bandwidth regulation (R440 to R443, R447), histograms' CLEAR (R448) and counter snapshots (R451). -/

namespace Sys2Proof.Machine

/-! Passes (R442). -/

def zero (_ : Nat) : Nat := 0

/-- Settings in force of master `m` at a channel: a copy of QOS_MDRAM, taken at a window boundary (R441). -/
def shareOf (x : Regul) (m : Nat) : Nat := tabGet (fun k => (regReset (QOS_MDRAM k)).toNat) x.act m
def guarOf (x : Regul) (m : Nat) : Nat := fld (shareOf x m) F.QOS_MDRAM_GUAR
def weightOf (x : Regul) (m : Nat) : Nat := fld (shareOf x m) F.QOS_MDRAM_WEIGHT
def capOf (x : Regul) (m : Nat) : Nat := let v := fld (shareOf x m) F.QOS_MDRAM_CAP; if v = 0 then 4096 else v

/-- The master has a request that waits for a pass of this channel. -/
def demand (x : Regul) (m : Nat) : Bool := decide (tabGet zero x.passes m < (x.held.filter (fun r => r.op.master == m)).length)

/-- One pass for master `m`. -/
def issuePass (x : Regul) (m : Nat) : Regul := { x with passes := tabSet zero x.passes m (tabGet zero x.passes m + 1) }

/-- The guaranteed passes of one master in one period: what is left in gacc and cacc. -/
def guaranteed : Nat → Nat → Nat → Nat → Regul → Regul × Nat × Nat
  | 0, _, g, c, x => (x, g, c)
  | n + 1, m, g, c, x => if demand x m ∧ 4096 ≤ g ∧ 4096 ≤ c then guaranteed n m (g - 4096) (c - 4096) (issuePass x m) else (x, g, c)

/-- R442, first loop: master `m`, with the spare amount so far. -/
def periodMaster (a : Regul × Nat) (m : Nat) : Regul × Nat :=
  let x := a.1
  let g := tabGet zero x.gacc m + 2 * guarOf x m
  let c := min (tabGet zero x.cacc m + 2 * capOf x m) (4096 + 2 * capOf x m)
  let r := guaranteed 4 m g c x
  let excess := r.2.1 - 4096
  ({ r.1 with gacc := tabSet zero r.1.gacc m (r.2.1 - excess), cacc := tabSet zero r.1.cacc m r.2.2 }, a.2 + excess)

def weighted (x : Regul) (m : Nat) : Bool := demand x m && decide (0 < weightOf x m) && decide (4096 ≤ tabGet zero x.cacc m)

def nextMaster (x : Regul) : Nat → Nat → Option Nat
  | 0, _ => none
  | n + 1, m => if weighted x (m % 28) then some (m % 28) else nextMaster x n (m + 1)

/-- Deficit round robin by WEIGHT: a master keeps its turn for WEIGHT passes while it may take them. -/
def nextWeighted (x : Regul) : Option (Nat × Nat) :=
  if 0 < x.quantum ∧ weighted x x.rr then some (x.rr, x.quantum - 1)
  else match nextMaster x 28 (x.rr + 1) with
    | some m => some (m, weightOf x m - 1)
    | none => none

/-- R442, second loop. -/
def remainder : Nat → Regul → Regul
  | 0, x => x
  | n + 1, x =>
    if x.racc < 4096 then x
    else match nextWeighted x with
      | none => { x with racc := min x.racc 4096 }
      | some (m, q) =>
        remainder n { issuePass x m with racc := x.racc - 4096, cacc := tabSet zero x.cacc m (tabGet zero x.cacc m - 4096), rr := m, quantum := q }

/-- One period of a channel's clock (R442). -/
def regulate (x : Regul) : Regul :=
  let sum := (List.range 28).foldl (fun a m => a + guarOf x m) 0
  let a := (List.range 28).foldl periodMaster (x, 2 * (4096 - sum))
  let y := remainder 64 { a.1 with racc := x.racc + a.2 }
  { y with racc := min y.racc 4096 }

/-- The channel serves: a window is judged (R447). -/
def chanJudged (s : State) (c : Nat) : Bool := s.cstate c == csIN_SERVICE || s.cstate c == csDRAINING || s.cstate c == csREJOINING

/-- Masters throttled on some bank of a channel (R398). -/
def throttledMasters (s : State) (x : Chan) : List Nat :=
  if x.rhStart + 32000000 ≤ s.time then [] else (x.rh.flatMap fun b => (b.2.filter (fun e => e.throttled)).map (fun e => e.master)).eraseDups

/-- A clock period of channel `c` passes; its clock stands in P2 to P4 (R517). -/
def regulatePeriod (c : Nat) (s : State) : State :=
  if 24 ≤ c ∨ ctlOpen s = false then s
  else
    let x := s.chan c
    let r := x.regul
    let noDemand := (List.range 28).filter (fun m => !(r.held.any (fun q => q.op.master == m)))
    let y := { regulate r with periods := r.periods + 1, idle := (r.idle ++ noDemand).eraseDups, excused := r.excused || !chanJudged s c,
                               excusedM := (r.excusedM ++ throttledMasters s x).eraseDups }
    s.setChan c { x with regul := y }

/-- A clock period of channel `c` passes. -/
def execRegulatePeriod (c : Nat) (s : State) : Res := .next (regulatePeriod c s)

/-- Bursts that master `m` fell short of its guarantee in the window that ends, beyond the tolerance of R443; 0: no miss. -/
def shortfall (x : Regul) (m : Nat) : Nat :=
  let g := guarOf x m * 2 * x.periods / 4096
  let got := tabGet zero x.issued m
  if got + max (g / 1000) 1 < g then g - got else 0

/-- A window of channel `c` ends (R441, R447). -/
def regulationWindow (c : Nat) (s : State) : State :=
  if 24 ≤ c ∨ ctlOpen s = false then s
  else
    let x := (s.chan c).regul
    let judged := (List.range 28).filter (fun m => !x.excused && !(x.idle.contains m) && !(x.excusedM.contains m) && decide (0 < shortfall x m))
    let s1 := judged.foldl (fun t m => qosMiss t m c (shortfall x m)) s
    let act := (List.range 28).foldl (fun (t : Tab Nat) m => tabSet (fun k => (regReset (QOS_MDRAM k)).toNat) t m (s1.rg (QOS_MDRAM m)).toNat) []
    let y := s1.chan c
    s1.setChan c { y with regul := { y.regul with act := act, issued := [], periods := 0, idle := [], excused := false, excusedM := [] } }

/-- A window of channel `c` ends. -/
def execRegulationWindow (c : Nat) (s : State) : Res := .next (regulationWindow c s)

/-- QOS_MDRAM and QOS_MOCC (R441). -/
def hookShare (occ : Bool) : Hook := fun idx _ new _ s =>
  let m := idx.headD 0
  let off := fun (k : Nat) => if occ then QOS_MOCC k else QOS_MDRAM k
  let g := fld new F.QOS_MDRAM_GUAR
  let cap := fld new F.QOS_MDRAM_CAP
  let sum := (List.range 28).foldl (fun a k => a + (if k = m then g else s.fget (off k) F.QOS_MDRAM_GUAR)) 0
  if 4096 < sum then (s, C.QOS_E_OVERCOMMIT)
  else if cap ≠ 0 ∧ cap < g then (s, C.QOS_E_CAP_BELOW)
  else (pump (s.setRg (off m) (BitVec.ofNat 64 new)), 0)

/-- A write of a master's share, of DRAM or with `occ` of the line cache. -/
def execQosShareWrite (who : Who) (m : Nat) (occ : Bool) (val : Word) (s : State) : Res :=
  .next (rowWrite (hookShare occ) who (if occ then QOS_MOCC m else QOS_MDRAM m) val s)

/-! Histograms. -/

/-- QOS_HISTCFG (R448): CLEAR zeroes bins, UNDER, OVER and STEPS. -/
def hookHist : Hook := fun idx _ new act s =>
  let h := idx.headD 0
  let s1 := s.setRg (QOS_HISTCFG h) (BitVec.ofNat 64 new)
  if fld act F.QOS_HISTCFG_CLEAR = 1 then
    ({ s1 with regs := tabDrop (fun k => decide (QOS_HBIN h 0 ≤ k) && decide (k < QOS_HBIN h 512)) s1.regs }.setRg (QOS_HISTSTAT h) 0, 0)
  else (s1, 0)

/-- QOS_HISTCFG.CLEAR. -/
def execClear (who : Who) (h : Nat) (val : Word) (s : State) : Res := .next (rowWrite hookHist who (QOS_HISTCFG h) val s)

/-! Snapshots (R451). -/

/-- PMC_SNAPCTL: GO starts a snapshot; its broadcast leaves at once, or at PMC_SNAPAT. -/
def hookSnap : Hook := fun _ _ new act s =>
  if fld act F.PMC_SNAPCTL_GO = 0 then (s.setRg PMC_SNAPCTL (BitVec.ofNat 64 new), 0)
  else if s.fget PMC_SNAPCTL F.PMC_SNAPCTL_BUSY = 1 then (s, C.PMC_E_SNAP_BUSY)
  else
    let s1 := ((s.setRg PMC_SNAPCTL (BitVec.ofNat 64 new)).fset PMC_SNAPCTL F.PMC_SNAPCTL_BUSY 1).fset PMC_SNAPCTL F.PMC_SNAPCTL_DONE 0
    (s1, 0)

/-- PMC_SNAPCTL.GO. -/
def execGo (who : Who) (val : Word) (s : State) : Res := .next (rowWrite hookSnap who PMC_SNAPCTL val s)

/-- Is `off` the counter of an event? Its snapshot? -/
def isCnt (off : Nat) : Bool := decide (PMC_CNT 0 ≤ off) && decide (off < PMC_CNT 1536)
def isSnap (off : Nat) : Bool := decide (PMC_SNAP 0 ≤ off) && decide (off < PMC_SNAP 1536)

/-- The broadcast leaves and every counter copies itself; with CLEAR it is also zeroed (R451). -/
def snapshot (s : State) : State :=
  if s.fget PMC_SNAPCTL F.PMC_SNAPCTL_BUSY = 0 ∨ (s.fget PMC_SNAPCTL F.PMC_SNAPCTL_AT_EN = 1 ∧ s.time < (s.rg PMC_SNAPAT).toNat) then s
  else
    let cnts := s.regs.filter (fun e => isCnt e.1)
    let clr := s.fget PMC_SNAPCTL F.PMC_SNAPCTL_CLEAR = 1
    let s1 := { s with regs := tabDrop (fun k => isSnap k || (clr && isCnt k)) s.regs }
    let s2 := cnts.foldl (fun t e => t.setRg (e.1 - PMC_CNT 0 + PMC_SNAP 0) e.2) s1
    let s3 := (s2.setRg PMC_SNAPTIME (BitVec.ofNat 64 s.time)).fset PMC_STAT F.PMC_STAT_SNAPS ((s2.fget PMC_STAT F.PMC_STAT_SNAPS + 1) % 2 ^ 32)
    ((s3.fset PMC_SNAPCTL F.PMC_SNAPCTL_BUSY 0).fset PMC_SNAPCTL F.PMC_SNAPCTL_DONE 1).irq 10

/-- The capture broadcast leaves. -/
def execSnapshotBroadcast (s : State) : Res := .next (snapshot s)

end Sys2Proof.Machine
end

