-- ==== Sys2Proof/Machine/Power.lean ====
section
/-! DEFINITION. Power states (chapter 16), supplies, resets at the pins and the thermal page (chapter 19). -/

namespace Sys2Proof.Machine

/-! Refusals (R521 to R523). -/

/-- A refusal is counted: refuser ID and target state, 0 for a gate. -/
def pwrRefuse (s : State) (refuser target : Nat) : State :=
  let t := if refuser = 0x8000 then 0 else refuser / 128 % 32
  let s1 := (s.fsat (PWR_REFCNT t) F.PWR_REFCNT_COUNT 1).ev 0x5C7
  if target = 0 then s1 else (s1.fsat (PWR_ACCT (target - 1)) F.PWR_ACCT_REFUSED 1).fset (PWR_ACCT (target - 1)) F.PWR_ACCT_LASTREF refuser

/-- Refusers of one type: those of `n` instances that meet `p`. -/
def refusers (type n : Nat) (p : Nat → Bool) : List Nat := ((List.range n).filter p).map (srcId type)

/-- The port refuses the target. -/
def prtRefuses (s : State) (deep : Bool) (p : Nat) : Bool :=
  if hostMode s p then linkUp s p && (deep || !(s.port p).l1) else decide (1 ≤ linkState s p) && decide (linkState s p ≤ 4)

/-- The channel refuses the target. -/
def dchRefuses (s : State) (c : Nat) : Bool :=
  s.cstate c == csTRAINING || s.cstate c == csRETRAINING || s.cstate c == csREJOINING || s.fget (DCH_SCRUBCTL c) F.DCH_SCRUBCTL_BUSY == 1

/-- A directory slice refuses the target. -/
def dirRefuses (s : State) (deep : Bool) (sl : Nat) : Bool :=
  s.home.recalls.any (fun r => slice r.la == sl) || s.home.recallLines.any (fun la => slice la == sl) ||
  (deep && s.home.dirEnt.any (fun e => e.1 / 65536 == sl && e.2.any (fun d => d.state != 0)))

/-- A Hem controller refuses the target. -/
def hemRefuses (s : State) (h : Nat) : Bool := (s.hem h).gate == 1 || (s.hem h).gate == 3 || (s.hem h).gate == 4 || (s.hem h).retry

/-- A calibration or a test runs. -/
def calRefuses (s : State) : Bool :=
  s.cal.any (fun e => !e.2.queue.isEmpty) || s.fget CAL_REQ F.CAL_REQ_BUSY == 1 || s.fget CAL_MBISTCTL F.CAL_MBISTCTL_BUSY == 1

/-- Units that hold work, in table order (R521). -/
def pwrRefusers (s : State) (target : Nat) : List Nat :=
  let deep := decide (3 ≤ target)
  let one := fun (type inst : Nat) (b : Bool) => if b then [srcId type inst] else []
  refusers 1 16 (prtRefuses s deep) ++ refusers 4 64 (fun b => s.fget (BOB_STAT b) F.BOB_STAT_STATE == 1) ++
  one 4 0x7F (deep && s.spools.any (fun e => e.2.cmds.any (fun c => c.recd != 2))) ++
  refusers 2 24 (dchRefuses s) ++
  one 7 1 (s.tier.dc.any (fun e => e.2.any (fun d => d.busy)) || s.fget TIR_FLUSHCTL F.TIR_FLUSHCTL_BUSY == 1) ++
  one 7 0 (deep && s.tier.lc.any (fun e => e.2.any (fun l => l.st == .held))) ++
  refusers 6 32 (dirRefuses s deep) ++ one 5 0x7F (s.fget KEY_SWEEPCTL F.KEY_SWEEPCTL_BUSY == 1) ++
  one 9 0 (!s.seam.txs.isEmpty || !s.seam.acc.isEmpty) ++ one 13 0 (calRefuses s) ++ refusers 10 24 (hemRefuses s)

/-- A trusted-use bit that refuses the target to the normal world (R522). -/
def tuseRefuses (s : State) (target : Nat) : Bool :=
  let w := fun (i : Nat) => s.fget (MGT_TUSE i) F.MGT_TUSE_TUSE
  if target = 2 then (List.range 256).any (fun u => (decide (1 ≤ u ∧ u ≤ 40) || u == 164) && bit (w (u / 64)) (u % 64))
  else (List.range 4).any (fun i => w i != 0)

/-- The outcome of a request is placed in PWR_CTL.STATUS (R520). -/
def pwrStatus (s : State) (st : Nat) : State × Nat := (s.fset PWR_CTL F.PWR_CTL_STATUS st, st)

/-- PWR_CTL: GO requests a state (R520 to R524). -/
def hookPwrCtl (trusted : Bool) : Hook := fun _ _ new act s =>
  let t := fld new F.PWR_CTL_TARGET
  let s0 := s.fset PWR_CTL F.PWR_CTL_TARGET t
  if fld act F.PWR_CTL_GO = 0 then (s0, 0)
  else if 2 ≤ s.pst ∨ t < 2 ∨ 4 < t ∨ s.fget PWR_CTL F.PWR_CTL_BUSY = 1 ∨ (s.devLevel = 4 ∧ (trusted = false ∨ t ≠ 4)) then pwrStatus s0 C.PWR_E_STATE
  else match pwrRefusers s0 t with
    | r :: _ => pwrStatus (pwrRefuse s0 r t) C.PWR_E_BUSY
    | [] =>
      if trusted = false ∧ tuseRefuses s0 t then pwrStatus (pwrRefuse s0 0x8000 t) C.PWR_E_REFUSED
      else ({ s0.fset PWR_CTL F.PWR_CTL_BUSY 1 with pwr := { s0.pwr with normal := !trusted, target := t } }, 0)

/-- PWR_CTL.GO with TARGET 2. -/
def execP2Entry (who : Who) (val : Word) (s : State) : Res := .next (rowWrite (hookPwrCtl (whoTrusted who)) who PWR_CTL val s)
/-- PWR_CTL.GO with TARGET 3. -/
def execP3Entry (who : Who) (val : Word) (s : State) : Res := .next (rowWrite (hookPwrCtl (whoTrusted who)) who PWR_CTL val s)
/-- PWR_CTL.GO with TARGET 4. -/
def execP4Entry (who : Who) (val : Word) (s : State) : Res := .next (rowWrite (hookPwrCtl (whoTrusted who)) who PWR_CTL val s)

/-! P1 (R518). -/

/-- The management cores wait: the core clock stops. -/
def p1Entry (s : State) : State :=
  if s.fget PWR_CFG F.PWR_CFG_P1_AUTO = 1 ∧ s.pst = 0 ∧ s.pwr.held = 0 ∧ s.fget PWR_CTL F.PWR_CTL_BUSY = 0 then
    { s.fsat (PWR_ACCT 0) F.PWR_ACCT_ENTERED 1 with pst := 1 }
  else s

/-- The core clock stops. -/
def execP1Entry (s : State) : Res := .next (p1Entry s)

/-- The core clock restarts. -/
def execP1Exit (s : State) : Res := .next (if s.pst = 1 then { s.fset PWR_STAT F.PWR_STAT_PREV 1 with pst := 0 } else s)

/-! Entry (R524). -/

/-- Step 3: every line is written back and leaves the cache. -/
def flushAll (s : State) : State :=
  (flushLines s 0 (2 ^ 80)).foldl (fun t la => let r := wbLine t la; if r.1 = Wb.done then lcDrop r.2 la else r.2) s

/-- Step 3: changed descriptors are written back. -/
def descAll (s : State) : State :=
  (s.tier.dc.filterMap (fun x => x.2.bind (fun e => if e.changed ∧ isGuestPage e.page = false then some e.page else none))).foldl dcWriteBack s

/-- Step 3: open stripes are closed, and written. -/
def stripesAll (s : State) : State :=
  let s1 := [0, 1].foldl (fun t g => stripeCloseTimeout g t) s
  (s1.tier.stripes.filter (·.closed)).foldl (fun t o => stripeWritten o.group o.idx t) s1

/-- The register is kept in P3 (R517, R519): RWL registers and those that R519 names, with what the Selvedge die holds. -/
def keptP3 (off : Nat) : Bool :=
  match regFind off with
  | none => false
  | some h =>
    h.desc.fields.any (fun f => f.acc == .rwl) ||
    [R.MGT_LOCK, R.MGT_LOCKDIG, R.KEY_RCTL, R.KEY_RGN, R.TIR_LOGHEAD, R.TIR_LOGTAIL, R.TIR_LOGLIVE, R.DCH_MODULE, R.DCH_STAT, R.DCH_WMARK, R.PWR_WAKE, R.PWR_ACCT, R.HEM_CFG, R.HEM_CTL,
     R.HEM_STAT, R.HEM_TELEM, R.HEM_PEAK, R.HEM_ENERGY, R.SBT_TEMP, R.SBT_THERMCFG, R.SBT_STAT].contains h.desc.id

/-- What P3 keeps of a channel: its FIFOs, its training settings and what its modules said (R519). -/
def chanP3 (x : Chan) : Chan :=
  { Chan.init with fifoP := x.fifoP, fifoM := x.fifoM, track := x.track, raaimt := x.raaimt, raammt := x.raammt, rfmSup := x.rfmSup, mbist := x.mbist, i3c := x.i3c }

/-- The device in P3 (R517, R519, R430). -/
def p3State (s : State) : State :=
  let z := State.reset
  { z with
    pending := s.pending, out := s.out, ctr := s.ctr, stamp := s.stamp, pst := 3, regs := s.regs.filter (fun e => keptP3 e.1), dram := s.dram,
    chans := (List.range 24).foldl (fun t c => tabSet (fun _ => Chan.init) t c (chanP3 (s.chan c))) [],
    keys := { s.keys with link := [], kmat := [], sweepStop := false },
    tier := if s.fget SRM_CFG F.SRM_CFG_RET_DESC = 1 then { z.tier with dc := s.tier.dc, left := tabDrop (fun k => decide (k < 2 ^ 20)) s.tier.left } else z.tier,
    ports := (List.range 16).foldl (fun t p => tabSet (fun _ => Port.init) t p { Port.init with perst := (s.port p).perst }) [],
    seam := { z.seam with tid := s.seam.tid, fseq := s.seam.fseq, bad := s.seam.bad }, sram := { z.sram with cols := s.sram.cols, flaws := s.sram.flaws }, hems := s.hems, pwr := s.pwr,
    mgmt := { z.mgmt with step := s.mgmt.step, minSvn := s.mgmt.minSvn, dinit := s.mgmt.dinit }, tap := { z.tap with fuseLock := s.tap.fuseLock } }

/-- The device in P4 (R517): the rails are off (R551), everything but the Selvedge die's always-on logic is lost, where the thermal page lies (R597). -/
def p4State (s : State) : State :=
  let off := { s with hems := (List.range 24).foldl (fun t h => tabSet (fun _ => Hem.init) t h { s.hem h with gate := 0 }) [] }
  let t := coldState off (s.fget MGT_RSTCTL F.MGT_RSTCTL_LASTRST)
  { [PWR_WAKE, PWR_ACCT 3, SBT_TEMP, SBT_THERMCFG].foldl (fun u r => u.setRg r (s.rg r)) t with pst := 4 }

/-- Step 5 ends: the entry is complete (R524, R525). -/
def entryDone (s : State) : State :=
  let t := s.pwr.target
  let s1 := (((s.fset PWR_CTL F.PWR_CTL_BUSY 0).fset PWR_CTL F.PWR_CTL_STATUS 0).fsat (PWR_ACCT (t - 1)) F.PWR_ACCT_ENTERED 1)
  let s2 := { s1 with pwr := { s1.pwr with normal := false } }
  if t = 2 then { s2 with pst := 2 } else if t = 3 then p3State ((List.range 24).foldl rowRestore s2) else p4State s2

/-- The last entry step ends. P3 and P4 wait until the line cache is empty, but in Halt. -/
def entryComplete (s : State) : State :=
  if s.fget PWR_CTL F.PWR_CTL_BUSY = 0 then s
  else if s.pwr.target = 2 ∨ s.devLevel = 4 then entryDone s
  else
    let s1 := flushAll s
    let s2 := stripesAll (if s.pwr.target = 3 ∧ s.fget SRM_CFG F.SRM_CFG_RET_DESC = 0 then descAll s1 else s1)
    if s2.tier.lc.isEmpty then entryDone s2 else s2

/-- The last entry step ends. -/
def execPowerEntryComplete (s : State) : Res := .next (entryComplete s)

/-! Waking (R526 to R528). -/

/-- A wake source acts. -/
def execWake (src : Nat) (s : State) : Res := .next (wake src s)

/-- TIMER_S seconds have passed since entry. -/
def execTimerWake (s : State) : Res := .next (wake 14 s)

/-- The host puts its link in L1. -/
def execHostLinkL1Entry (p : Nat) (s : State) : Res := .next (if linkUp s p ∧ (s.port p).trk = [] then portUpd s p (fun x => { x with l1 := true }) else s)

/-! Single units (R530, R531). -/

def gatable (u : Nat) : Bool := (1 ≤ u && u ≤ 40) || (43 ≤ u && u ≤ 66) || (68 ≤ u && u ≤ 131)

/-- Source of a gatable unit. -/
def unitSrc (u : Nat) : Nat := if u ≤ 16 then srcId 1 (u - 1) else if u ≤ 40 then srcId 2 (u - 17) else if u ≤ 66 then srcId 3 (u - 43) else srcId 4 (u - 68)

/-- The collector has fenced the source. -/
def srcFenced (s : State) (i : Nat) : Bool := s.fget (FLT_SRCSTAT i) F.FLT_SRCSTAT_STATE == 1

/-- The unit is FENCED. -/
def unitFenced (s : State) (u : Nat) : Bool :=
  srcFenced s (unitSrc u) || (17 ≤ u && u ≤ 40 && s.cstate (u - 17) == csFENCED) ||
  (43 ≤ u && u ≤ 66 && s.fget (PLT_STAT (u - 43)) F.PLT_STAT_FENCED == 1) || (68 ≤ u && s.fget (BOB_STAT (u - 68)) F.BOB_STAT_STATE == 3)

/-- The condition of GATE 1 or 2. -/
def gateOk (s : State) (u g : Nat) : Bool :=
  let absent := fun (c : Nat) => s.cstate c == csABSENT
  if g = 2 then unitFenced s u || (17 ≤ u && u ≤ 40 && absent (u - 17))
  else if u ≤ 16 then (if hostMode s (u - 1) then !linkUp s (u - 1) else linkState s (u - 1) == 0 || linkState s (u - 1) == 5)
  else if u ≤ 40 then absent (u - 17) || unitFenced s u
  else if u ≤ 66 then unitFenced s u || s.cstate (u - 43) == csFENCED || absent (u - 43)
  else unitFenced s u || s.fget (BOB_STAT (u - 68)) F.BOB_STAT_STATE == 2

/-- What a Seam port without power keeps: its counters and the records of its receive slots, since its link keys stay (R334, R336). -/
def seamOff (x : SeamPort) : SeamPort :=
  { SeamPort.init with txNext := x.txNext, ctl := x.ctl, txSlot := x.txSlot, lastCtl := x.lastCtl, slotCtl := x.slotCtl }

/-- A unit without power loses its state; the frame FIFOs of a channel lie in the SRAM. -/
def unitOff (s : State) (u : Nat) : State :=
  if u ≤ 16 then ({ s.setPort (u - 1) { Port.init with perst := (s.port (u - 1)).perst, gen := (s.port (u - 1)).gen } with cal := tabSet (fun _ => CalPort.init) s.cal (u - 1) CalPort.init }).setSp (u - 1) (seamOff (s.sp (u - 1)))
  else if u ≤ 40 then s.setChan (u - 17) { Chan.init with fifoP := (s.chan (u - 17)).fifoP, fifoM := (s.chan (u - 17)).fifoM }
  else if u ≤ 66 then s
  else s.setBob (u - 68) { Bob.init with io := (s.bob (u - 68)).io }

/-- PWR_UNITCTLu. -/
def hookUnitCtl (trusted : Bool) : Hook := fun idx _ new _ s =>
  let u := idx.headD 0
  let g := fld new F.PWR_UNITCTL_GATE
  let r := PWR_UNITCTL u
  let fin := fun (t : State) (st : Nat) => (t.fset r F.PWR_UNITCTL_STATUS st, st)
  if gatable u = false ∨ g = 3 then fin s C.PWR_E_NOT_GATABLE
  else if trusted = false ∧ (s.fget (MGT_ASSIGN u) F.MGT_ASSIGN_KIND = 3 ∨ s.ftest (MGT_TUSE (u / 64)) F.MGT_TUSE_TUSE (u % 64)) then
    fin (pwrRefuse s 0x8000 0) C.PWR_E_REFUSED
  else if g ≠ 0 ∧ gateOk s u g = false then fin (pwrRefuse s (unitSrc u) 0) C.PWR_E_BUSY
  else
    let s1 := (s.fset r F.PWR_UNITCTL_GATE g).fset r F.PWR_UNITCTL_GATED g
    fin (if g = 2 then unitOff s1 u else s1) 0

/-- A write of PWR_UNITCTLu. -/
def execGate (who : Who) (u : Nat) (val : Word) (s : State) : Res := .next (rowWrite (hookUnitCtl (whoTrusted who)) who (PWR_UNITCTL u) val s)

/-- MGT_TUSEn (R491): a bit that is set aborts a normal-world entry under way (R522). -/
def hookTuse : Hook := fun idx old new _ s =>
  let s1 := s.setRg (MGT_TUSE (idx.headD 0)) (BitVec.ofNat 64 new)
  (if new &&& old ≠ new ∧ s.pwr.normal then pwrAbort s1 else s1, 0)

/-- A write of MGT_TUSEn. -/
def execTuseWrite (who : Who) (i : Nat) (val : Word) (s : State) : Res := .next (rowWrite hookTuse who (MGT_TUSE i) val s)

/-! VDD_CORE (R532). -/

/-- PWR_VCORE.REQ_MV. -/
def hookVcore : Hook := fun _ _ new _ s =>
  let mv := fld new F.PWR_VCORE_REQ_MV
  if mv < 650 ∨ 850 < mv then (s, C.PWR_E_VRANGE) else ((s.fset PWR_VCORE F.PWR_VCORE_REQ_MV mv).put (.bmcVolt mv), 0)

/-- A write of PWR_VCORE. -/
def execReqMv (who : Who) (val : Word) (s : State) : Res := .next (rowWrite hookVcore who PWR_VCORE val s)

/-- The voltage sensed at the die changes: outside the absolute maximum ratings (R580) the spec gives no behaviour. -/
def execVddCoreChange (mv : Nat) (s : State) : Res := if 950 < mv then .fault .outsideRatings else .next (s.fset PWR_VCORE F.PWR_VCORE_MEAS_MV mv)

/-! Supplies and resets at the pins (R511, R589 to R591). -/

/-- PWROK falls: a cold reset, held while it is low; P4 stays P4 (R527, R591). -/
def pwrokFall (s : State) : State :=
  if s.pwr.pwrok = false then s
  else
    let s0 := s.fset SBT_STAT F.SBT_STAT_TRIP 0
    let s1 := { s0 with pwr := { s0.pwr with pwrok := false } }
    if s.pst = 4 then s1 else holdCold s1 1

/-- PWROK falls. -/
def execPwrokFall (s : State) : Res := .next (pwrokFall s)

/-- The device leaves P4, if it was there. -/
def fromP4 (s t : State) : State := if s.pst = 4 then t.setRg PWR_STAT (s.fset PWR_STAT F.PWR_STAT_PREV 4 |>.rg PWR_STAT) else t

/-- A cold reset at the pins (R511, R591): `kind` 0 PWROK rises, otherwise RESET_N has been low for 10 µs; `railsOk`: every rail is in range. -/
def coldReset (kind : Nat) (railsOk : Bool) (s : State) : State :=
  if kind = 0 then
    if s.pwr.pwrok then s else fromP4 s (coldState { s with pwr := { s.pwr with pwrok := true } } 2)
  else if s.pwr.pwrok = false ∨ s.pwr.held = 3 ∨ (s.pwr.held = 2 ∧ railsOk = false) then s
  else fromP4 s (coldState s 1)

/-- A cold reset. -/
def execColdReset (kind : Nat) (railsOk : Bool) (s : State) : Res := .next (coldReset kind railsOk s)

/-- A brown-out (R590): `rails` has one bit per rail, in the order of SBT_STAT.RAIL. -/
def brownout (rails : Nat) (s : State) : State :=
  if s.pwr.pwrok = false ∨ s.pwr.held = 3 ∨ rails % 32 = 0 then s
  else holdCold ((s.fset SBT_STAT F.SBT_STAT_BROWNOUT 1).fset SBT_STAT F.SBT_STAT_RAIL rails) 2

/-- A brown-out. -/
def execBrownout (rails : Nat) (s : State) : Res := .next (brownout rails s)

/-- A thermal trip (R596). -/
def thermalTrip (s : State) : State := if s.pwr.pwrok = false then s else holdCold (s.fset SBT_STAT F.SBT_STAT_TRIP 1) 3

/-- A thermal trip. -/
def execThermalTrip (s : State) : Res := .next (thermalTrip s)

/-! The thermal page (R594, R595, R597). -/

/-- The hottest of a list of temperatures, and the first sensor that shows it. -/
def hottest : List Int → Nat → Option (Int × Nat)
  | [], _ => none
  | t :: r, i => match hottest r (i + 1) with
    | some x => if t < x.1 then some x else some (t, i)
    | none => some (t, i)

/-- A signed byte. -/
def byteOf (t : Int) : Nat := (t % 256).toNat
def ofByte (b : Nat) : Int := if b < 128 then b else (b : Int) - 256

/-- The sensors have converted: SB_ALERT_N follows (R595). -/
def sensorConversion (core selv : List Int) (s : State) : State :=
  let put := fun (t : State) (l : List Int) (m i : Fld) => match hottest l 0 with
    | some x => (t.fset SBT_TEMP m (byteOf x.1)).fset SBT_TEMP i x.2
    | none => t
  let s1 := put (put s core F.SBT_TEMP_CORE_MAX F.SBT_TEMP_CORE_IDX) selv F.SBT_TEMP_SELV_MAX F.SBT_TEMP_SELV_IDX
  let a : Int := s1.fget SBT_THERMCFG F.SBT_THERMCFG_ALERT_C
  let lo : Int := a - s1.fget SBT_THERMCFG F.SBT_THERMCFG_HYST_C
  let cm := ofByte (s1.fget SBT_TEMP F.SBT_TEMP_CORE_MAX)
  let sm := ofByte (s1.fget SBT_TEMP F.SBT_TEMP_SELV_MAX)
  if a ≤ cm ∨ a ≤ sm then (s1.fset SBT_STAT F.SBT_STAT_ALERT 1).fset SBT_STAT F.SBT_STAT_ALERTED 1
  else if cm < lo ∧ sm < lo then s1.fset SBT_STAT F.SBT_STAT_ALERT 0
  else s1

/-- The sensors have converted. -/
def execSensorConversion (core selv : List Int) (s : State) : Res := .next (alertCheck (sensorConversion core selv s))

/-- A sideband write of the thermal page: while cold boot is stopped the sideband is limited to its two reads (R508); an access is a wake source. -/
def thermalWrite (i : Nat) (val : Word) (s : State) : State :=
  let off := 0x100000000 + i
  if s.mgmt.stopped then s
  else
    let s1 := wake 4 s
    match regFind off with
    | none => s1
    | some h => s1.setRg off (BitVec.ofNat 64 (applyFields s1.locked true (s1.rg off).toNat val.toNat h.desc.fields).1)

/-- A sideband write of the thermal page. -/
def execThermalPageWrite (i : Nat) (val : Word) (s : State) : Res := .next (thermalWrite i val s)

end Sys2Proof.Machine
end

