-- ==== Sys2Proof/Machine/Faults.lean ====
section
/-! DEFINITION. The fault collector (chapter 14): records, classification, fences, self-tests, Basting mode, Halt and re-admission. -/

namespace Sys2Proof.Machine

/-! Levels of codes (R464, R552, R569). -/

/-- Base level, ceiling, and whether level 2 fences. -/
def codeLevel (code : Nat) : Nat × Nat × Bool :=
  if [C.ILN_F_STALL, C.SRM_F_BANK, C.DCH_F_MODULE_LOST, C.CAL_F_LANE_LOST].contains code then (2, 2, true)
  else if [C.DCH_F_ROW, C.TIR_F_DESC_LOST, C.TIR_F_COLD_CORRUPT, C.KEY_F_EPOCH_EXHAUSTED, C.HEM_F_LINK_LOST].contains code then (2, 2, false)
  else if [C.DCH_F_TRACK, C.TIR_F_NOT_STORED, C.TIR_F_FRAME_EMPTY, C.KEY_F_ITAG, C.KEY_E_NO_KEY, C.PRT_W_UNMAPPED, C.DIR_F_SNOOP_TIMEOUT, C.DIR_F_PROTOCOL,
      C.FAB_F_TIME, C.FAB_F_ROUTE_LOOP, C.FAB_F_PROTOCOL, C.FAB_F_FILTER, C.CAL_F_LANE_BURST, C.MGT_F_WATCHDOG].contains code then (1, 1, false)
  else if code = C.FLT_F_GLOBAL then (4, 4, false)
  else if statusClass code = 1 then (0, 2, true)
  else (1, 2, true)

/-- Sources that never fence anything (R464), and the Spool engine, the management complex and the collector, which are no units. -/
def srcFences (src : Nat) : Bool :=
  let t := src / 128
  let n := src % 128
  match t with
  | 1 => n < 16
  | 2 => n < 24
  | 3 => n < 24
  | 4 => n < 64
  | 5 => n < 24
  | 6 => n < 32
  | 8 => true
  | 10 => n < 24
  | 11 => n < 4
  | 14 => n < 4
  | _ => false

/-- A privileged unit: a host-mode port or a management core (R460). -/
def privileged (s : State) (src : Nat) : Bool :=
  (src / 128 == 1 && src % 128 < 16 && hostMode s (src % 128)) || (src / 128 == 11 && src % 128 < 4)

/-- Codes that report a self-test's lasting result: not counted (R469). -/
def testOutcome (code : Nat) : Bool := [C.DCH_F_ROW, C.SRM_F_BANK, C.CAL_F_LANE_LOST].contains code

/-! Counting (R463). -/

/-- classify() of R463 for a base level that is not 0: the level, and the source's count and window after it. -/
def classify (s : State) (src base ceil : Nat) : Nat × State :=
  let r := FLT_SRCSTAT src
  let now := s.time / 1000000
  let n := max 1 (s.fget (FLT_SRCCFG src) F.FLT_SRCCFG_N)
  let w := max 1 (s.fget (FLT_SRCCFG src) F.FLT_SRCCFG_W_MS)
  let start := tabGet (fun _ => 0) s.fltStart src
  let setStart := fun (t : State) => { t with fltStart := tabSet (fun _ => 0) t.fltStart src now }
  let s1 := if s.fget r F.FLT_SRCSTAT_COUNT = 0 ∨ w < now - start then (setStart s).fset r F.FLT_SRCSTAT_COUNT 0 else s
  let c := s1.fget r F.FLT_SRCSTAT_COUNT
  if n ≤ c then (min (base + 1) ceil, (setStart s1).fset r F.FLT_SRCSTAT_COUNT 0)
  else (base, s1.fset r F.FLT_SRCSTAT_COUNT (min (c + 1) 0xFFFF))

/-! The record log (R458 to R460). -/

/-- The index that the next record of a level takes, none when a record of level 0 or 1 cannot be stored; the flag says that a record awaiting
acknowledgement is lost. -/
def nextRec (s : State) (lvl : Nat) : Option (Nat × Bool) :=
  if s.fltAge.length < 1024 then some (s.fltAge.length, false)
  else match s.fltAge.find? (fun i => !recOpen s i) with
    | some i => some (i, false)
    | none =>
      if lvl < 2 then none
      else match s.fltAge.find? (fun i => decide (recLevel s i < 2)) with
        | some i => some (i, true)
        | none => s.fltAge.head?.map (fun i => (i, true))

/-- FLT_LOG.HEAD. -/
def logHead (s : State) : State :=
  match nextRec s 2 with
  | some (i, _) => s.fset FLT_LOG F.FLT_LOG_HEAD i
  | none => s

def recLoss (s : State) : State := (s.fsat FLT_LOG F.FLT_LOG_LOST 1).fset FLT_STAT F.FLT_STAT_OVERFLOW 1

/-- Word 1 of a record. -/
def recWord1 (src lvl code elem test act : Nat) (esc ackreq handling : Bool) : Nat :=
  let b := fun (x : Bool) => if x then 1 else 0
  src % 4096 + lvl % 8 * 2 ^ 12 + b esc * 2 ^ 15 + code % 65536 * 2 ^ 16 + elem % 65536 * 2 ^ 32 + test % 4 * 2 ^ 48 + act % 8 * 2 ^ 50 + b ackreq * 2 ^ 53 + b handling * 2 ^ 55

/-- Write a record. A test whose record is overwritten goes on without one. -/
def recStore (s : State) (i w1 addr detail : Nat) : State :=
  let w := fun (t : State) (j v : Nat) => t.setRg (FLT_REC i j) (BitVec.ofNat 64 v)
  let s1 := w (w (w (w s 0 s.time) 1 w1) 2 addr) 3 detail
  let s2 := { s1 with mgmt := { s1.mgmt with passed := s1.mgmt.passed.erase i } }
  logHead { s2 with fltAge := s.fltAge.filter (· != i) ++ [i], fltTests := s.fltTests.map (fun t => if t.idx = i then { t with idx := 1024 } else t) }

/-! Fences (R462, R467). -/

/-- A unit of a kind is out of service. -/
def srcOut (s : State) (src : Nat) : Bool := s.fget (FLT_SRCSTAT src) F.FLT_SRCSTAT_STATE != 0

/-- Stand-ins of a group's Pleat units are marked (R184). -/
def pltStandins (s : State) (g : Nat) : State :=
  let us := groupChans g
  us.foldl (fun t v =>
    let b := us.any (fun u => u != v && s.fget (PLT_STAT u) F.PLT_STAT_FENCED == 1 && pltUnit s u == v)
    t.fset (PLT_STAT v) F.PLT_STAT_STANDIN (if b then 1 else 0)) s

/-- What becomes of work when Pleat unit `u` is fenced (R184): what waits, and a cold read, goes to the stand-in; a page operation or a stitch that holds a
lane ends. -/
def pltRehome (s : State) (u : Nat) (w : PleatWork) : PleatWork :=
  if w.unit ≠ u then w
  else if 2 ≤ w.cls ∧ 0 < w.lanes then { w with failed := true }
  else { w with unit := pltUnit s u, lanes := 0, granted := false }

/-- A Pleat unit is fenced (R184). -/
def pltFence (s : State) (u : Nat) : State :=
  let s1 := s.fset (PLT_STAT u) F.PLT_STAT_FENCED 1
  pump (pltStandins { s1 with tier := { s1.tier with pleat := s1.tier.pleat.map (pltRehome s1 u) } } (u / 12))

/-- An encode fails its verification decode (R183): the image is discarded and its operation ends. No row of the table is this event; it comes with the report. -/
def pltMiscompare (s : State) (u : Nat) : State :=
  match s.tier.pleat.find? (fun w => w.unit == u && w.enc && w.granted && !w.failed) with
  | some w => ({ s with tier := { s.tier with pleat := s.tier.pleat.map (fun x => if x = w then { x with failed := true } else x) } }.diagAdd dgVERIFY u 1).diagAdd dgVERBAD u 1
  | none => s

/-- A page operation ends under R74: its page stays where its descriptor says, and whoever started it learns so. -/
def opLost (s : State) (o : PageOp) : State :=
  let s1 := setBusy { s with tier := { s.tier with ops := s.tier.ops.erase o } } o.lpn false
  if o.kind < 2 then opResult o.bob o.rd C.TIR_E_OP_ABORTED s1 else if o.kind = 2 then sweepEnd s1 C.TIR_E_OP_ABORTED else s1

/-- The channel whose cipher unit a page's operation uses: that of the frame that its promotion has taken, or of its own frame, or of its image's first sector. -/
def pageChan (s : State) (lpn : Nat) : Nat := match (promoOf s lpn).bind (·.frame), descOf s lpn with
  | some (c, _), _ => c
  | none, some d => if dHot d then dChan d else if dSize d = 0 then 12 * groupFor s (lpn * 4096) else (coldLocate s (dSector d)).1
  | none, none => 24

/-- The page that Pleat work of class 2 or 3 is for. -/
def workPage (s : State) (w : PleatWork) : Nat := if w.la < 2 ^ 63 then w.la / 4096 else (s.bob (w.la - 2 ^ 63)).disc.getD 0

/-- The cipher unit that serves channel `c` now, its own or a stand-in, is unit `u`. -/
def onCipher (s : State) (u c : Nat) : Bool := decide (c < 24) && cuUnitFrom s c 12 0 == u

/-- Cipher unit `c` is fenced (R217): demotions, promotions, cold merges and sweep pages under way on it, for its own channel or as a stand-in, end; reads
are computed again by the stand-in. -/
def cuFence (s : State) (c : Nat) : State :=
  let s1 := s.fbit KEY_STAT F.KEY_STAT_CU_FENCED c true
  let fail := fun (w : PleatWork) => if w.granted ∧ (w.cls = 2 ∨ w.cls = 3) ∧ onCipher s c (pageChan s (workPage s w)) then { w with failed := true } else w
  let s2 := { s1 with tier := { s1.tier with pleat := s1.tier.pleat.map fail } }
  pump ((s2.tier.ops.filter (fun o => o.kind != 1 && onCipher s c (pageChan s o.lpn))).foldl opLost s2)

/-- A request that a failed slice took and did not complete (R474): a host write is not completed, a Bobbin store ends with FLT_E_UNIT_LOST, the rest go
to the stand-in. -/
def reqLost (s : State) (r : HomeReq) : State :=
  let wr := r.kind == .write || r.kind == .writeBack
  -- data that already stands for its line and only lacks a place is placed all the same
  let left := if r.front then s.home.waiting.map (fun q => if q = r then { q with who := .dev 0 } else q) else s.home.waiting.erase r
  let gone := { s with home := { s.home with waiting := left } }
  match r.who with
  | .port p tag gen => if wr then withhold gone p tag gen C.FLT_E_UNIT_LOST else s
  | .bob _ _ | .stitch _ _ => if wr then answer gone r none false C.FLT_E_UNIT_LOST 0 else s
  | _ => s

/-- A home-agent slice is fenced, and its partner stands in for it (R474): a page operation under way ends under R74, one that holds or awaits its lanes as
one whose Pleat unit has failed. -/
def sliceFence (s0 : State) (sl : Nat) : State :=
  let fail := fun (w : PleatWork) => if (w.cls = 2 ∨ w.cls = 3) ∧ pageSlice (workPage s0 w) = sl then { w with failed := true } else w
  let s := { s0 with tier := { s0.tier with pleat := s0.tier.pleat.map fail } }
  let mine := s.home.waiting.filter (fun r => slice r.la == sl && !isPlace r)
  let s1 := (s.tier.ops.filter (fun o => pageSlice o.lpn == sl)).foldl opLost s
  let s2 := mine.foldl reqLost s1
  let s3 := ((mine.map (·.la)).eraseDups).foldl (fun t la => recoverEntry t la 0) s2
  pump s3

/-- Fence the unit that a source and an element name (R462). -/
def fenceUnit (s : State) (src elem code : Nat) : State :=
  let n := src % 128
  let mark := fun (t : State) => readmEnd (setSrcState (fltAbandon t src) src 1) src 0 code
  match src / 128 with
  | 1 =>
    if 0x8000 ≤ elem then readmEnd (laneFence s n (elem - 0x8000) true) src elem code
    else
      let s1 := mark s
      if hostMode s n then (if linkUp s n then downKept s1 n 6 else s1)
      else if linkState s n = 0 ∨ linkState s n = 5 then s1 else seamDown s1 n
  | 2 => readmEnd (fenceChannel s n) src 0 code
  | 3 => pltFence (mark s) n
  | 4 => (bobOpsEnd n (bobStop n (mark s))).fset (BOB_STAT n) F.BOB_STAT_STATE 3
  | 5 => cuFence (mark s) n
  | 6 => if srcOut s src then mark s else sliceFence (mark s) n
  | 8 =>
    if code = C.FLT_F_SOURCE_REG then (List.range 4).foldl (fun t i => bankFence t (4 * n + i)) (fltAbandon s src)
    else bankFence (match fltTest s src elem with
      | some _ => fltTestEnd s src elem 0 none
      | none => s) elem
  | 10 => hemFence (mark s) n
  | 11 =>
    let t := (mark s).setCoreState n 1
    { t with mgmt := { t.mgmt with hyp := t.mgmt.hyp.erase n, halted := t.mgmt.halted.filter (fun x => x % 4 != n), haltReq := t.mgmt.haltReq.erase n } }.irq 12
  | 14 => planeFence (mark s) n
  | _ => s

/-- The last Interlining plane in service would go (R467). -/
def lastPlane (s : State) (src : Nat) : Bool :=
  src / 128 == 14 && (List.range 4).all (fun p => p == src % 128 || s.ftest GLB_ILNSTAT F.GLB_ILNSTAT_FENCED p || !s.ftest GLB_ILNCFG F.GLB_ILNCFG_PLANE_EN p)

/-- A channel is out, in the sense of R467. -/
def chanOut (s : State) (c : Nat) : Bool := !(s.cstate c == csIN_SERVICE || s.cstate c == csDRAINING || s.cstate c == csREJOINING)

/-- The level that a fence of this source brings about (R467), 0 for none. -/
def fenceLevel (s : State) (src : Nat) : Nat :=
  let n := src % 128
  match src / 128 with
  | 2 => if groupEn s (n / 12) ∧ 2 ≤ ((groupChans (n / 12)).filter (chanOut s)).length then 3 else 0
  | 3 => if groupEn s (n / 12) ∧ (groupChans (n / 12)).all (fun u => srcOut s (srcId 3 u)) then 4 else 0
  | 5 => if groupEn s (n / 12) ∧ (groupChans (n / 12)).all (fun u => srcOut s (srcId 5 u)) then 4 else 0
  | 6 => if srcOut s (srcId 6 n) ∧ srcOut s (srcId 6 (n ^^^ 16)) then 4 else 0
  | 11 => if (List.range 4).all (fun c => s.coreState c != 0) then 4 else 0
  | _ => 0

/-! Device levels (R461, R470 to R472). -/

/-- Entry to Basting mode (R470). -/
def enterBasting (s : State) : State := bastingSpools (s.fset FLT_STAT F.FLT_STAT_DEVLEVEL 3)

/-- A port in Halt (R116, R472): Device Fatal, with the message of an uncorrectable internal error; its reads are completed with poison, and its
writes lose their completions: a new generation of tags keeps what still ends from answering any later request. -/
def haltPort (s : State) (p : Nat) : State :=
  if hostMode s p = false then s
  else
    let rd := (s.port p).trk.filter (fun q => !q.wr)
    let gen := (s.port p).gen
    let s0 := (s.fset (PRT_HEADSTAT p) F.PRT_HEADSTAT_FATAL 1).put (.internalError p)
    let s1 := rd.foldl (fun t q => cplHost t p q.tag gen 0 true 0) s0
    let mine := fun (r : HomeReq) => match r.who with
      | .port q tag g => q == p && g == gen && rd.any (fun x => x.tag == tag)
      | _ => false
    let s2 := { s1 with home := { s1.home with waiting := s1.home.waiting.filter (fun r => !mine r), toHome := s1.home.toHome.filter (fun r => !mine r) } }
    portUpd s2 p (fun x => { x with trk := [], gen := x.gen + 1 })

/-- Entry to Halt (R472). -/
def enterHalt (s : State) : State := (List.range 16).foldl haltPort (s.fset FLT_STAT F.FLT_STAT_DEVLEVEL 4)

/-- A record of level 3 or 4 raises the device level. -/
def raiseLevel (s : State) (lvl idx : Nat) : State :=
  if lvl < 3 ∨ lvl ≤ s.devLevel then s
  else (if lvl = 3 then enterBasting s else enterHalt s).fset FLT_STAT F.FLT_STAT_LEVELREC idx

/-! Targeted self-tests (R469). -/

/-- The code has a targeted self-test. -/
def hasTest (r : Report) : Bool :=
  (r.code == C.DCH_F_CE && r.detail == 0) || r.code == C.SRM_F_CE || r.code == C.SRM_F_UE || r.code == C.BOB_F_ENGINE || r.code == C.PLT_F_UNIT ||
  r.code == C.KEY_F_UNIT || r.code == C.CAL_F_LANE_BURST

/-- The test starts. A Bobbin's test sets DRAIN itself, lets the program run to its end, and then finds the Bobbin in TESTING (R316). -/
def startSelfTest (s : State) (r : Report) (idx : Nat) : State :=
  let n := r.src % 128
  let s1 := { s with fltTests := s.fltTests ++ [⟨r.src, r.elem, r.code, idx, s.fget (BOB_CFG n) F.BOB_CFG_DRAIN == 1⟩] }
  if r.code = C.DCH_F_CE then rowTestReq s1 n r.addr
  else if r.code = C.SRM_F_CE ∨ r.code = C.SRM_F_UE then regionDue s1 r.elem (r.hint / 256)
  else if r.code = C.BOB_F_ENGINE then
    let s2 := s1.fset (BOB_CFG n) F.BOB_CFG_DRAIN 1
    if (s.bob n).run = 0 then s2.fset (BOB_STAT n) F.BOB_STAT_STATE 4 else s2
  else if r.code = C.CAL_F_LANE_BURST then laneAsk s1 n ⟨r.elem - 0x8000, 1, false⟩
  else s1

/-! A report reaches the collector (R458 to R469). -/

/-- A code's levels for one report: what its chapter gives, else R464. -/
def reportLevels (r : Report) : Nat × Nat × Bool :=
  let t := codeLevel r.code
  let base := r.level.getD t.1
  (base, max base t.2.1, t.2.2 && srcFences r.src)

/-- The level before R467 is applied, the raise, HANDLING, and the source's counts after it (R463, R468). `check`: the report is a check failure of the source's
collector registers. -/
def decideLevel (s : State) (r : Report) (check : Bool) : Nat × Bool × Bool × State :=
  let l := reportLevels r
  let h := s.fget (FLT_SRCSTAT r.src) F.FLT_SRCSTAT_HANDLING == 1 || check
  if l.1 = 0 then (0, false, false, s)
  else if 4 ≤ l.1 ∨ testOutcome r.code ∨ (2 ≤ l.1 ∧ (codeLevel r.code).1 < l.1) then (l.1, false, false, s)
  else if privileged s r.src then
    if check then (1, false, true, s)
    else
      let c := classify s r.src l.1 l.2.1
      if (openRecs s).any (fun i => recSource s i == r.src && recCode s i == r.code) then (min (c.1 + 1) 4, true, true, c.2) else (c.1, decide (l.1 < c.1), false, c.2)
  else if h ∧ l.2.1 = 2 ∧ l.2.2 then (2, decide (l.1 < 2), true, s)
  else
    let c := classify s r.src l.1 l.2.1
    (c.1, decide (l.1 < c.1), h, c.2)

/-- The record is stored, or lost; its index, 1024 when there is none. -/
def storeRec (s : State) (lvl w1 addr detail : Nat) : Nat × State :=
  match nextRec s lvl with
  | none => (1024, recLoss s)
  | some (i, lost) =>
    let s1 := recStore s i w1 addr detail
    (i, if lost then recLoss s1 else s1)

/-- A lasting result, or the repair of one, ends the test that found it (R469): the index of the record that the test serves. -/
def closeTest (s : State) (r : Report) : Option Nat × State :=
  let repair := r.code = C.DCH_W_SPARED ∨ r.code = C.SRM_W_COLUMN_REPAIRED
  let t := if r.code = C.DCH_F_ROW ∨ r.code = C.DCH_W_SPARED then s.fltTests.find? (fun x => x.src == r.src && x.code == C.DCH_F_CE)
    else if r.code = C.SRM_F_BANK ∨ r.code = C.SRM_W_COLUMN_REPAIRED ∨ r.code = C.CAL_F_LANE_LOST then fltTest s r.src r.elem
    else none
  match t with
  | none => (none, s)
  | some x => (some x.idx, fltTestEnd s x.src x.elem 3 (if repair then some 2 else none))

/-- The collector takes one report. -/
def collect (check : Bool) (r : Report) (s0 : State) : State :=
  let ct := closeTest s0 r
  let s := ct.2
  let d := decideLevel s r check
  let fences := (reportLevels r).2.2 && decide (2 ≤ d.1 ∧ d.1 < 4)
  let last := fences && lastPlane s r.src
  let s1 := if fences && !last then fenceUnit d.2.2.2 r.src r.elem r.code else d.2.2.2
  let lvl := if last then 4 else if fences then max d.1 (fenceLevel s1 r.src) else d.1
  let act := if lvl = 4 then 4 else if lvl = 3 then 3 else if fences then 1 else 0
  let test := decide (1 ≤ lvl ∧ lvl < 4) && !fences && s1.fget FLT_CFG F.FLT_CFG_SELFTEST_EN == 1 && hasTest r
  let ackreq := decide (2 ≤ lvl) || (decide (1 ≤ lvl) && privileged s r.src)
  let detail := match ct.1 with
    | some i => putBits r.detail 0 10 i
    | none => r.detail
  let w1 := recWord1 r.src lvl r.code r.elem (if test then 1 else 0) act d.2.1 ackreq d.2.2.1
  let st := storeRec s1 lvl w1 r.addr detail
  let s2 := if st.1 < 1024 then st.2.fset (FLT_SRCSTAT r.src) F.FLT_SRCSTAT_LASTREC st.1 else st.2
  let s3 := raiseLevel s2 lvl st.1
  let s4 := setHandling (if test then startSelfTest s3 r st.1 else s3) r.src
  let s5 := (s4.ev (0x5C0 + lvl)).axt 4 (r.src % 128) (w1 + st.1 * 2 ^ 64)
  let s6 := if min 4 (s5.fget FLT_CFG F.FLT_CFG_IRQ_MIN) ≤ lvl then s5.irq 0 else s5
  if 2 ≤ lvl then (if s6.fget PWR_CTL F.PWR_CTL_BUSY = 1 then pwrAbort s6 else wake 15 s6) else s6

/-- A fault of a unit that no row of the table raises: a Pleat unit's own (R183), or a management core's (R514). -/
def unitFault (r : Report) : Bool :=
  r == { src := r.src, elem := 0, code := r.code, addr := 0, detail := 0, level := none } &&
  ((r.code == C.PLT_F_UNIT && r.src / 128 == 3 && decide (r.src % 128 < 24)) || (r.code == C.MGT_F_CORE && r.src / 128 == 11 && decide (r.src % 128 < 4)))

/-- The report's turn comes; the collector stands in P3 and P4 (R26, R517). -/
def faultReport (r : Report) (s : State) : State :=
  if 3 ≤ s.pst then s
  else if s.reports.contains r then collect false r { s with reports := s.reports.erase r }
  else if unitFault r then
    collect false r (if r.code = C.PLT_F_UNIT then pltMiscompare s (r.src % 128) else s.diagAdd dgCOREERR (2 * (r.src % 128) + 1) 1)
  else s

/-- The collector takes a report. -/
def execFaultReport (r : Report) (s : State) : Res := .next (alertCheck (faultReport r s))

/-- A Bobbin's self-test is over: a Bobbin in TESTING is IDLE, or DRAINED as software asked (R316, R469). -/
def bobTested (s : State) (b : Nat) : State :=
  if s.fget (BOB_STAT b) F.BOB_STAT_STATE = 4 then s.fset (BOB_STAT b) F.BOB_STAT_STATE (bobIdle s b) else s

/-- A known-answer test of a Pleat or a cipher unit has run (PLT_KAT, KEY_KAT): the count of runs, and bit 16 the last result. -/
def katRun (s : State) (src : Nat) (bad : Bool) : State :=
  let note := fun (kind : Nat) => s.diagSet kind (src % 128) ((s.diagGet kind (src % 128) + 1) % 65536 + if bad then 65536 else 0)
  if src / 128 = 3 then note dgPLTKAT else if src / 128 = 5 then note dgKEYKAT else s

/-- The engine self-test and the known-answer tests end (R469); rows, regions and lanes end by their own commands. -/
def selftestComplete (src : Nat) (lasting : Bool) (s : State) : State :=
  match s.fltTests.find? (fun t => t.src == src && (t.code == C.BOB_F_ENGINE || t.code == C.PLT_F_UNIT || t.code == C.KEY_F_UNIT)) with
  | none => s
  | some t =>
    if t.code = C.BOB_F_ENGINE ∧ (s.bob (src % 128)).run ≠ 0 then s
    else
      let s1 := katRun (fltTestEnd s src t.elem (if lasting then 3 else 2) none) src lasting
      let s2 := if t.code = C.BOB_F_ENGINE then bobTested s1 (src % 128) else s1
      if lasting then collect false { src := src, elem := t.elem, code := t.code, addr := 0, detail := t.idx % 1024, level := some 2 } s2 else s2

/-- A self-test ends. -/
def execSelftestComplete (src : Nat) (lasting : Bool) (s : State) : Res := .next (selftestComplete src lasting s)

/-- A test could not get its unit within 100 ms (R469); an SRAM test never ends so (R431). -/
def selftestNoWindow (src elem : Nat) (s : State) : State :=
  match (fltTest s src elem).filter (fun t => t.code != C.SRM_F_CE && t.code != C.SRM_F_UE) with
  | none => s
  | some t =>
    let s1 := (fltTestEnd s src elem 0 none).ev 0x5CF
    if t.code = C.BOB_F_ENGINE then bobTested s1 (src % 128)
    else if t.code = C.DCH_F_CE then chanUpd (rowRestore s1 (src % 128)) (src % 128) (fun x => { x with rowQueue := [] })
    else s1

/-- A self-test gets no window. -/
def execSelftestNoWindow (src elem : Nat) (s : State) : Res := .next (selftestNoWindow src elem s)

/-- The collector's check of its registers fails (R468): those of a source, or, with `glob`, its global ones. -/
def checkFailure (src : Nat) (glob : Bool) (s : State) : State :=
  if 3 ≤ s.pst then s
  else if glob then collect true { src := srcId 31 0, elem := 0, code := C.FLT_F_GLOBAL, addr := 0, detail := 0, level := none } (s.fset FLT_STAT F.FLT_STAT_GLOBAL 1)
  else if srcDefined src = false then s
  else
    let s1 := collect true { src := src, elem := 0, code := C.FLT_F_SOURCE_REG, addr := 0, detail := 0, level := none } s
    if privileged s src then (s1.setRg (FLT_SRCCFG src) (regReset (FLT_SRCCFG src))).fset (FLT_SRCSTAT src) F.FLT_SRCSTAT_COUNT 0 else s1

/-- The collector's check of its registers fails. -/
def execCollectorCheckFailure (src : Nat) (glob : Bool) (s : State) : Res := .next (checkFailure src glob s)

/-! Registers. -/

/-- A record is acknowledged (R460). -/
def ackRec (s : State) (i : Nat) : State := if recOpen s i then logHead (setHandling (recPut s i 54 1 1) (recSource s i)) else s

/-- FLT_LOG. -/
def hookFltLog : Hook := fun _ _ _ act s => (if fld act F.FLT_LOG_ACK = 1 then ackRec s (fld act F.FLT_LOG_ACKIDX) else s, 0)

/-- FLT_LOG.ACK. -/
def execAck (who : Who) (val : Word) (s : State) : Res := .next (rowWrite hookFltLog who FLT_LOG val s)

/-- Leaving Basting mode (R471). -/
def exitBasting (s : State) : State × Nat :=
  if s.devLevel = 3 then (unbasteSpools (s.fset FLT_STAT F.FLT_STAT_DEVLEVEL 0) |> pump, 0) else (s, if s.devLevel = 4 then C.FLT_E_STATE else 0)

/-- Leaving Halt (R473): `pass`, the collector's global registers pass their test. -/
def haltRelease (pass : Bool) (s : State) : State × Nat :=
  if s.devLevel ≠ 4 then (s, C.FLT_E_STATE)
  else if pass = false then (s, C.FLT_E_RELEASE)
  else
    let s1 := enterBasting s
    (pump s1, 0)

/-- FLT_LEVELCTL; `pass` as in `haltRelease`. -/
def hookLevelCtl (pass : Bool) : Hook := fun _ _ _ act s =>
  let r0 := if fld act F.FLT_LEVELCTL_EXIT_BASTING = 1 then exitBasting s else (s, 0)
  let r1 := if fld act F.FLT_LEVELCTL_RELEASE = 1 then (let x := haltRelease pass r0.1; (x.1, if r0.2 ≠ 0 then r0.2 else x.2)) else r0
  if fld act F.FLT_LEVELCTL_EXIT_BASTING = 1 ∨ fld act F.FLT_LEVELCTL_RELEASE = 1 then (r1.1.fset FLT_LEVELCTL F.FLT_LEVELCTL_STATUS r1.2, r1.2) else r1

/-- FLT_LEVELCTL.EXIT_BASTING. -/
def execExitBastingWrite (who : Who) (val : Word) (s : State) : Res := .next (rowWrite (hookLevelCtl true) who FLT_LEVELCTL val s)

/-- FLT_LEVELCTL.RELEASE. -/
def execHaltRelease (who : Who) (pass : Bool) (val : Word) (s : State) : Res := .next (rowWrite (hookLevelCtl pass) who FLT_LEVELCTL val s)

/-! Re-admission (R475). -/

/-- The unit that a source and an element name is FENCED. -/
def readmOk (s : State) (src elem : Nat) : Bool :=
  let n := src % 128
  if src / 128 = 1 ∧ 0x8000 ≤ elem then decide (n < 16 ∧ elem < 0x8010) && laneState s n (elem - 0x8000) == 2
  else if src / 128 = 8 then elem / 4 == n && srmStage s elem == 1
  else srcFences src && elem == 0 && srcFenced s src

/-- Power comes back to a unit with GATE 2 (R530). -/
def ungate (s : State) (src : Nat) : State :=
  let n := src % 128
  let u := match src / 128 with
    | 1 => 1 + n
    | 2 => 17 + n
    | 3 => 43 + n
    | 4 => 68 + n
    | _ => 255
  if s.fget (PWR_UNITCTL u) F.PWR_UNITCTL_GATE = 2 then (s.fset (PWR_UNITCTL u) F.PWR_UNITCTL_GATE 0).fset (PWR_UNITCTL u) F.PWR_UNITCTL_GATED 0 else s

/-- The unit enters TESTING. -/
def readmStart (s : State) (src elem : Nat) : State :=
  let n := src % 128
  match src / 128 with
  | 1 => if 0x8000 ≤ elem then setLaneState s n (elem - 0x8000) 3 else setSrcState s src 2
  | 2 => s.setCstate n csTESTING
  | 4 => (setSrcState s src 2).fset (BOB_STAT n) F.BOB_STAT_STATE 4
  | 8 => startTest (setStage s elem 2) elem 0 3
  | 10 => hemOrders (setSrcState s src 2) n
  | 11 => (setSrcState s src 2).setCoreState n 2
  | _ => setSrcState s src 2

/-- Start a re-admission: an answer of a status. -/
def readmGo (src elem : Nat) (s : State) : State × Nat :=
  let r := FLT_READMIT
  if s.fget r F.FLT_READMIT_BUSY = 1 then (s, C.FLT_E_STATE)
  else
    let s0 := (s.fset r F.FLT_READMIT_SOURCE src).fset r F.FLT_READMIT_ELEMENT elem
    if readmOk s src elem = false then (s0, C.FLT_E_STATE)
    else
      let s1 := ((s0.fset r F.FLT_READMIT_BUSY 1).fset r F.FLT_READMIT_STAGE 1).fset r F.FLT_READMIT_STATUS 0
      (readmStart (ungate s1 src) src elem, 0)

/-- FLT_READMIT. While a re-admission runs, the unit it names stands. -/
def hookReadmit : Hook := fun _ _ new act s =>
  let src := fld new F.FLT_READMIT_SOURCE
  let elem := fld new F.FLT_READMIT_ELEMENT
  if fld act F.FLT_READMIT_GO = 1 then readmGo src elem s
  else if s.fget FLT_READMIT F.FLT_READMIT_BUSY = 1 then (s, 0)
  else ((s.fset FLT_READMIT F.FLT_READMIT_SOURCE src).fset FLT_READMIT F.FLT_READMIT_ELEMENT elem, 0)

/-- FLT_READMIT.GO. -/
def execReadmitGo (who : Who) (val : Word) (s : State) : Res := .next (rowWrite hookReadmit who FLT_READMIT val s)

/-- The status of a failed test: HEM_E_SELFTEST (R553), otherwise the unit's own fault code. -/
def testFailCode (src elem : Nat) : Nat :=
  match src / 128 with
  | 1 => if 0x8000 ≤ elem then C.CAL_F_LANE_LOST else C.PRT_F_LINK
  | 2 => C.CAL_E_MBIST_FAIL
  | 3 => C.PLT_F_UNIT
  | 4 => C.BOB_F_ENGINE
  | 5 => C.KEY_F_UNIT
  | 6 => C.DIR_F_ENTRY
  | 8 => C.SRM_F_BANK
  | 10 => C.HEM_E_SELFTEST
  | 11 => C.MGT_F_CORE
  | _ => C.ILN_F_STALL

/-- The unit is FENCED again after a failed test. -/
def readmFail (s : State) (src elem : Nat) : State :=
  let n := src % 128
  let s1 := match src / 128 with
    | 1 => if 0x8000 ≤ elem then setLaneState s n (elem - 0x8000) 2 else setSrcState s src 1
    | 2 => s.setCstate n csFENCED
    | 4 => (setSrcState s src 1).fset (BOB_STAT n) F.BOB_STAT_STATE 3
    | 8 => setStage { s with sram := { s.sram with tests := s.sram.tests.filter (fun t => t.bank != elem) } } elem 1
    | 10 => hemOrders (setSrcState s src 1) n
    | 11 => (setSrcState s src 1).setCoreState n 1
    | _ => setSrcState s src 1
  readmEnd s1 src elem (testFailCode src elem)

/-- TESTING has passed: the unit enters REJOINING. A Seam port has left TRAIN by then; a Hem controller's retry timer counts as expired (R553). -/
def readmRejoin (s : State) (src elem : Nat) : State :=
  let n := src % 128
  let st := fun (t : State) => readmStage (setSrcState t src 3) src elem 2
  match src / 128 with
  | 1 =>
    if 0x8000 ≤ elem then readmStage (setLaneState s n (elem - 0x8000) 4) src elem 2
    else if hostMode s n ∨ linkState s n = 2 ∨ linkState s n = 3 then st s else s
  | 2 => channelTestComplete n true s
  | 4 => (st s).fset (BOB_STAT n) F.BOB_STAT_STATE 5
  | 8 => if s.sram.tests.any (fun t => t.bank == elem && t.kind == 3) then s else setStage s elem 3
  | 10 => hemUpd (s.setHem n { s.hem n with adm := 3, retry := false } |> st) n id
  | 11 => (st s).setCoreState n 3
  | _ => st s

/-- REJOINING is over: the unit is in service. A channel and a Hem controller end theirs by their own commands. -/
def readmService (s : State) (src elem : Nat) : State :=
  let n := src % 128
  let fin := fun (t : State) => readmEnd (setSrcState t src 0) src elem 0
  match src / 128 with
  | 1 =>
    if 0x8000 ≤ elem then readmEnd (laneReadmitted s n (elem - 0x8000)) src elem 0
    else if (hostMode s n ∧ linkUp s n ∧ s.fget (PRT_LINKSTAT n) F.PRT_LINKSTAT_MEM_EN = 1) ∨ seamLive s n then fin s else s
  | 2 => s
  | 3 => pltStandins ((fin s).fset (PLT_STAT n) F.PLT_STAT_FENCED 0) (n / 12)
  | 4 => (fin s).fset (BOB_STAT n) F.BOB_STAT_STATE (if s.fget (BOB_CFG n) F.BOB_CFG_DRAIN = 1 then 2 else 0)
  | 5 => (fin s).fbit KEY_STAT F.KEY_STAT_CU_FENCED n false
  | 8 => bankRejoined s elem
  | 10 => s
  | 11 =>
    let t := (fin s).setCoreState n 0
    { t with mgmt := { t.mgmt with hyp := if t.mgmt.hyp = [] then [] else t.mgmt.hyp ++ [n] } }.irq 12
  | 14 => ((fin s).fbit GLB_ILNSTAT F.GLB_ILNSTAT_FENCED n false).fbit GLB_ILNSTAT F.GLB_ILNSTAT_REMAP_BUSY n false
  | _ => fin s

/-- A stage of the re-admission ends; `pass` is the outcome of TESTING. -/
def readmComplete (pass : Bool) (s : State) : State :=
  let r := FLT_READMIT
  let src := s.fget r F.FLT_READMIT_SOURCE
  let elem := s.fget r F.FLT_READMIT_ELEMENT
  -- a Hem controller's self-test cannot report over a lost link (R25)
  if s.fget r F.FLT_READMIT_BUSY = 0 ∨ (src / 128 = 10 ∧ s.pwr.d2dLost) then s
  else if s.fget r F.FLT_READMIT_STAGE = 2 then pump (readmService s src elem)
  else if pass then readmRejoin (katRun s src false) src elem
  else readmFail (katRun s src true) src elem

/-- A stage of the re-admission ends. -/
def execReadmitStageComplete (pass : Bool) (s : State) : Res := .next (readmComplete pass s)

end Sys2Proof.Machine
end

