-- ==== Sys2Proof/Machine/Mgmt.lean ====
section
/-! DEFINITION. The management complex (chapter 15): measurement, the assignment lock, descriptor initialisation, warm and core resets, debug, the watchdog,
and the Thimble services. -/

namespace Sys2Proof.Machine

/-! Measurement (R505). -/

/-- Six 64-bit words as 48 bytes, first byte in bits [7:0] of word 0. -/
def wordBytes (w : Nat → Nat) : Bytes := (List.range 6).flatMap (fun i => leBytes 8 (w i))

/-- The bytes of MRk. -/
def mrBytes (s : State) (k : Nat) : Bytes := wordBytes (fun w => (s.rg (MGT_MR k w)).toNat)

/-- 48 bytes into six registers. -/
def putWords (s : State) (off : Nat → Nat) (d : Bytes) : State :=
  (List.range 6).foldl (fun t w => t.setRg (off w) (BitVec.ofNat 64 (leNat ((d.drop (8 * w)).take 8)))) s

/-- MRk is extended with a digest. -/
def mrExtend (s : State) (k : Nat) (d : Bytes) : State := putWords s (MGT_MR k) (sha384 (mrBytes s k ++ d))

/-- All MRs are zero, and MR0 is open (R505). -/
def mrClear (s : State) : State :=
  ((List.range 8).foldl (fun t k => putWords t (MGT_MR k) []) s).fset MGT_MREXT F.MGT_MREXT_LOCK0 0

/-- MGT_MRSTAGEw. -/
def hookMrStage : Hook := fun idx _ _ act s =>
  let w := idx.headD 0
  ({ s with mgmt := { s.mgmt with stage := tabSet (fun _ => 0) s.mgmt.stage w (act % 2 ^ 64) } }, 0)

/-- MGT_MREXT: GO meets LOCK0 as it stood before the write. -/
def hookMrExt : Hook := fun _ _ new act s =>
  let k := fld new F.MGT_MREXT_INDEX
  let go := fld act F.MGT_MREXT_GO = 1 ∧ ¬(k = 0 ∧ s.fget MGT_MREXT F.MGT_MREXT_LOCK0 = 1)
  let s1 := if go then mrExtend s k (wordBytes (fun w => tabGet (fun _ => 0) s.mgmt.stage w)) else s
  (s1.setRg MGT_MREXT (BitVec.ofNat 64 new), 0)

/-- MGT_MREXT.GO (R505). -/
def execMrextGo (who : Who) (val : Word) (s : State) : Res := .next (rowWrite hookMrExt who MGT_MREXT val s)

/-- MGT_MREXT.LOCK0 (R505). -/
def execLock0 (who : Who) (val : Word) (s : State) : Res := .next (rowWrite hookMrExt who MGT_MREXT val s)

/-! The assignment lock (R493). -/

/-- 2 MiB blocks `lo` to `hi` lie wholly in one Gusset range with MIRROR 1 and HOTPIN 1, below L (R482, R366). -/
def blocksKept (s : State) (lo hi : Nat) : Bool :=
  decide (lo ≤ hi) && decide ((hi + 1) * 512 ≤ pagesL s) &&
  match gussetRange s (lo * 2 ^ 21) 64 0 with
  | none => false
  | some n =>
    decide (hi ≤ s.fget (TIR_GRLIM n) F.TIR_GRLIM_LIMIT) && s.fget (TIR_GRBASE n) F.TIR_GRBASE_MIRROR == 1 && s.fget (TIR_GRBASE n) F.TIR_GRBASE_HOTPIN == 1 &&
    (List.range n).all (fun j => s.fget (TIR_GRBASE j) F.TIR_GRBASE_VALID == 0 || decide (hi < s.fget (TIR_GRBASE j) F.TIR_GRBASE_BASE) ||
      decide (s.fget (TIR_GRLIM j) F.TIR_GRLIM_LIMIT < lo))

/-- The layout (R147): L, D, and the areas of each enabled group. -/
def layoutOk (s : State) : Bool :=
  let gs := [0, 1].filter (groupFull s)
  let l3 := s.fget TIR_EXTENT F.TIR_EXTENT_L3G
  let d := s.fget TIR_LAYOUT F.TIR_LAYOUT_DSIZE
  let per := 4096 * (6 * gs.length) * 2 ^ 30
  let fits := fun (g : Nat) =>
    let used := (d + s.fget (TIR_GLAYOUT g) F.TIR_GLAYOUT_MSIZE + s.fget (TIR_GLAYOUT g) F.TIR_GLAYOUT_CSIZE) * gib
    (groupChans g).all (fun c => decide (used ≤ chanFrames s c))
  decide (0 < gs.length) && decide (l3 ≤ 43690) && decide ((l3 * 3 * 2 ^ 30 * 64 + per - 1) / per ≤ d) && gs.all fits

/-- The duplicate filter's table (R366), rounded up to 2 MiB. -/
def filterOk (s : State) : Bool :=
  let n := s.fget FAB_DFCFG F.FAB_DFCFG_MAXNODE + 1
  let blocks := (n * (0x50000 + 32) + 2 ^ 21 - 1) / 2 ^ 21
  let b := s.fget FAB_DFBASE F.FAB_DFBASE_BASE
  blocksKept s b (b + blocks - 1)

/-- The firmware range (R482). -/
def firmwareOk (s : State) : Bool := blocksKept s (s.fget MGT_FWBASE F.MGT_FWBASE_LA) (s.fget MGT_FWLIMIT F.MGT_FWLIMIT_LA)

/-- The first failing status, 0 if every check passes. -/
def lockStatus (s : State) : Nat :=
  if s.locked then C.MGT_E_LOCKED
  else if layoutOk s = false then C.TIR_E_LAYOUT
  else if filterOk s = false then C.FAB_E_CONFIG
  else if firmwareOk s = false then C.MGT_E_LAYOUT
  else 0

/-- SHA-384 of the ASSIGN, PARTS and SPOOLS sections, concatenated (R512). -/
def lockDigest (p : List Nat) : Bytes := sha384 (sectOfType p 5 ++ sectOfType p 6 ++ sectOfType p 7)

/-- MGT_LOCK.LOCK. -/
def lockGo (s : State) : State × Nat :=
  let st := lockStatus s
  let fin := fun (t : State) => (t.fset MGT_LOCK F.MGT_LOCK_STATUS st, st)
  if st ≠ 0 then fin s
  else
    let en := (if groupFull s 0 then 1 else 0) + (if groupFull s 1 then 2 else 0)
    let s1 := (((s.fset TIR_LAYOUT F.TIR_LAYOUT_GRP_EN en).fset MGT_LOCK F.MGT_LOCK_LOCK 1).fset MGT_LOCK F.MGT_LOCK_LOCKED 1)
    fin (putWords s1 MGT_LOCKDIG (lockDigest s.mgmt.pat))

/-- MGT_LOCK. -/
def hookLock : Hook := fun _ _ _ act s => if fld act F.MGT_LOCK_LOCK = 1 then lockGo s else (s, 0)

/-- MGT_LOCK.LOCK. -/
def execAssignmentLock (who : Who) (val : Word) (s : State) : Res := .next (rowWrite hookLock who MGT_LOCK val s)

/-! Descriptor initialisation (R509). -/

/-- MGT_BOOTCTL.DINIT. -/
def dinitGo (s : State) : State × Nat :=
  if s.locked ∨ s.fget MGT_BOOTCTL F.MGT_BOOTCTL_BUSY = 1 then (s, C.MGT_E_STATE) else (s.fset MGT_BOOTCTL F.MGT_BOOTCTL_BUSY 1, 0)

/-- MGT_BOOTCTL. -/
def hookBootCtl : Hook := fun _ _ _ act s => if fld act F.MGT_BOOTCTL_DINIT = 1 then dinitGo s else (s, 0)

/-- MGT_BOOTCTL.DINIT. -/
def execDinit (who : Who) (val : Word) (s : State) : Res := .next (rowWrite hookBootCtl who MGT_BOOTCTL val s)

/-- Every descriptor below L is that of a zero page: in DRAM, where one that is not listed reads so, and in the descriptor caches. No key slot and no cold
sector is in use by one. -/
def dinitAll (s : State) : State :=
  let area := fun (k : Nat) => decide (k / 64 % 2 ^ 28 < dFrames s)
  let dr := s.dram
  let z := mkCold 0 0 0 0 0 [] 0
  let s1 : State := { s with dram := { dr with lines := tabDrop area dr.lines, poison := tabDrop area dr.poison, err := tabDrop area dr.err }, mgmt := { s.mgmt with dinit := true } }
  let dc := (tabKeys (fun _ e => match e with
    | some x => !isGuestPage x.page
    | none => false) s1.tier.dc).foldl (fun t k => match tabGet (fun _ => none) t k with
      | some e => tabSet (fun _ => none) t k (if e.copy then none else some { e with desc := z, changed := false })
      | none => t) s1.tier.dc
  let s2 : State := { s1 with tier := { s1.tier with dc := dc } }
  let s3 := (List.range 64).foldl (fun t i => t.setSlot (i / 2) (i % 2) { t.slot (i / 2) (i % 2) with inuse := 0 }) s2
  [0, 1].foldl (fun t g => t.setRg (TIR_LOGLIVE g) 0) s3

/-- Descriptor initialisation ends. -/
def dinitComplete (s : State) : State :=
  if s.fget MGT_BOOTCTL F.MGT_BOOTCTL_BUSY = 0 then s
  else pump (((dinitAll s).fset MGT_BOOTCTL F.MGT_BOOTCTL_BUSY 0).fset MGT_BOOTCTL F.MGT_BOOTCTL_STATUS 0)

/-- Descriptor initialisation ends. -/
def execDinitComplete (s : State) : Res := .next (dinitComplete s)

/-! Resets (R510, R512). -/

/-- A core that is not fenced or being re-admitted takes a state. -/
def coreTo (v : Nat) (s : State) (c : Nat) : State := if s.coreState c = 1 ∨ s.coreState c = 2 ∨ s.coreState c = 3 then s else s.setCoreState c v

/-- Mailbox commands that run end with Retry Required (R109, R512). -/
def mboxWarm (s : State) (p : Nat) : State :=
  match (s.port p).mboxBg.orElse (fun _ => (s.port p).mboxRun.map (·.1)) with
  | some op => mboxDone (portUpd s p (fun x => { x with mboxBg := none, mboxRun := none })) p op 5 C.MGT_E_WARM_RESET []
  | none => s

/-- A warm reset: `why` goes to MGT_RSTCTL.LASTRST, 3 by request, 4 by the watchdog. The management complex restarts; all else stands. -/
def warmReset (why : Nat) (s : State) : State :=
  let s1 := (List.range 4).foldl (coreTo 4) s
  let s2 := (List.range 16).foldl mboxWarm (mrClear s1)
  let s3 := { s2 with mgmt := { s2.mgmt with run := false, step := 2, stopped := false, warm := true, sessions := [], deviceKey := none, aliasKey := none, aliasCert := [], haltReq := [],
                                             halted := [], hyp := [], passed := [], stage := [], wdog := false } }
  let s4 := (s3.fset MGT_RSTCTL F.MGT_RSTCTL_LASTRST why).fsat MGT_RSTCTL F.MGT_RSTCTL_WARMS 1
  (s4.fset MGT_BOOTSTAT F.MGT_BOOTSTAT_STAGE 3).fset MGT_BOOTSTAT F.MGT_BOOTSTAT_STATUS 0

/-- A core reset (R510): the core restarts at Thimble's hart entry, and what it ran is lost. -/
def coreReset (s : State) (c : Nat) : State :=
  { s with mgmt := { s.mgmt with haltReq := s.mgmt.haltReq.erase c, halted := s.mgmt.halted.filter (fun x => x % 4 != c) } }

/-- MGT_RSTCTL. -/
def hookRstCtl : Hook := fun _ _ _ act s =>
  let cores := (List.range 4).filter (bit (fld act F.MGT_RSTCTL_CORERST))
  let s1 := cores.foldl coreReset s
  (if fld act F.MGT_RSTCTL_WARM = 1 then warmReset 3 s1 else s1, 0)

/-- MGT_RSTCTL.WARM. -/
def execWarm (who : Who) (val : Word) (s : State) : Res := .next (rowWrite hookRstCtl who MGT_RSTCTL val s)

/-- MGT_RSTCTL.CORERST. -/
def execCorerst (who : Who) (val : Word) (s : State) : Res := .next (rowWrite hookRstCtl who MGT_RSTCTL val s)

/-! Debug (R498, R499). -/

/-- MGT_DBGCTL takes a value: every change extends MR4, and setting an enable is reported. -/
def dbgSet (s : State) (new : Nat) : State :=
  let old := (s.rg MGT_DBGCTL).toNat
  if new = old then s
  else
    let s1 := mrExtend (s.setRg MGT_DBGCTL (BitVec.ofNat 64 new)) 4 (sha384 (leBytes 8 new))
    if new &&& old = new then s1 else s1.reportAt 0 (srcId 11 127) 0 C.MGT_W_DEBUG_ON 0 new

/-- MGT_DBGCTL. -/
def hookDbgCtl : Hook := fun _ _ new _ s => (dbgSet s new, 0)

/-- A halt (0), step (1) or resume (2) request to a hart (R499); `trusted`: the hart runs in the trusted world. A halted hart is asked in the world it was
halted in; a hart that steps is halted again. -/
def debugRequest (core kind : Nat) (trusted : Bool) (s : State) : State :=
  let inv := fun (t : Bool) => s.fget MGT_DBGCTL (if t then F.MGT_DBGCTL_T_INV else F.MGT_DBGCTL_N_INV) == 1
  let m := s.mgmt
  if 4 ≤ core ∨ s.coreState core ≠ 0 then s
  else match m.halted.find? (fun x => x % 4 == core) with
    | some x => if kind = 2 ∧ inv (decide (4 ≤ x)) then { s with mgmt := { m with halted := m.halted.erase x } } else s
    | none =>
      if kind ≠ 0 then s
      else if inv trusted then { s with mgmt := { m with halted := m.halted ++ [core + if trusted then 4 else 0], haltReq := m.haltReq.erase core } }
      else if trusted ∧ m.haltReq.contains core = false then { s with mgmt := { m with haltReq := m.haltReq ++ [core] } }
      else s

/-- A debug request. -/
def execDebugHaltRequest (core kind : Nat) (trusted : Bool) (s : State) : Res := .next (debugRequest core kind trusted (if kind = 0 then coreWoken s else s))

/-- Hart `core` returns to the normal world by MRET: a halt request that met the trusted world takes effect. -/
def mret (s : State) (core : Nat) : State := if s.mgmt.haltReq.contains core then debugRequest core 0 false s else s

/-- DTMCS (R499, R573): opcode 0x10. What is shifted out belongs to the RISC-V debug specification. -/
def execDtmcs (s : State) : Res :=
  .next (tapOn (fun s => let r := (tapSet s 0x10).free 32; r.2.put (.tap 0x10 r.1)) s)

/-- DMI (R499, R573): opcode 0x11; `val` is shifted into the access register. -/
def execDmi (val : Nat) (s : State) : Res :=
  .next (tapOn (fun s =>
    let r := (tapSet s 0x11).free 64
    { r.2 with tap := { r.2.tap with dmi := val } }.put (.tap 0x11 r.1)) s)

/-! The watchdog (R513). -/

/-- The count starts again. -/
def wdogRestart (s : State) : State := { s with mgmt := { s.mgmt with wdog := false } }

/-- MGT_WDOGKICK. -/
def hookKick : Hook := fun _ _ _ act s => (if fld act F.MGT_WDOGKICK_KICK = 1 then wdogRestart s else s, 0)

/-- MGT_WDOGKICK.KICK. -/
def execKick (who : Who) (val : Word) (s : State) : Res := .next (rowWrite hookKick who MGT_WDOGKICK val s)

/-- MGT_WDOG: a watchdog that is switched off has no expiry behind it when it is enabled again. -/
def hookWdog : Hook := fun _ _ new _ s =>
  let s1 := s.setRg MGT_WDOG (BitVec.ofNat 64 new)
  (if fld new F.MGT_WDOG_EN = 0 then wdogRestart s1 else s1, 0)

/-- The watchdog expires; its clock stands in P1 and below (R517). -/
def watchdogExpiry (s : State) : State :=
  if s.fget MGT_WDOG F.MGT_WDOG_EN = 0 ∨ s.pst ≠ 0 ∨ s.pwr.held ≠ 0 then s
  else if s.mgmt.wdog then warmReset 4 s
  else
    let s1 := { s.fset MGT_WDOG F.MGT_WDOG_STAGE1 1 with mgmt := { s.mgmt with wdog := true } }
    (s1.irq 11).reportAt 1 (srcId 11 127) 0 C.MGT_F_WATCHDOG 0 0

/-- The watchdog expires. -/
def execWatchdogExpiry (s : State) : Res := .next (watchdogExpiry s)

/-! Thimble services (R485 to R487). -/

/-- The hypervisor can call from this core: Thimble runs, and the core runs the hypervisor. -/
def svcOpen (s : State) (core : Nat) : Bool :=
  ctlOpen s && s.pst == 0 && s.mgmt.run && decide (core < 4) && s.coreState core == 0 && s.mgmt.hyp.contains core && !(s.mgmt.halted.any (fun x => x % 4 == core))

/-- World markers of Axtil (R500): kind 5, entry to and exit from the trusted world. -/
def worldMark (s : State) (core enter : Nat) : State := if s.fget MGT_DBGCTL F.MGT_DBGCTL_T_NINV = 0 then s.axt 5 core enter else s

/-- The service returns. -/
def svcEnd (core a0 a1 : Nat) (s : State) : State := mret ((worldMark s core 0).put (.ecall core a0 a1)) core

/-- A call of service `n` (R486, R487): `f` is the whole service, which takes effect in one step: its status, its value, the state; none: it is not at its end. -/
def service (n core : Nat) (f : State → Option (Nat × Nat × State)) (s : State) : State :=
  if svcOpen s core = false then s
  else
    let s1 := (worldMark (s.ev 0x5C9) core 1).diagLog dlJOURNAL 0 1 (n, core)
    if bit s.mgmt.svcmask n = false then svcEnd core C.MGT_E_POLICY 0 s1
    else match f s1 with
      | some r => svcEnd core r.1 r.2.1 r.2.2
      | none => s

/-- A service that writes a register on the caller's behalf: the block's status. -/
def svcWrite (hook : Hook) (core off val : Nat) (s : State) : Nat × State :=
  let t := ctlWriteWith hook (.trusted core) off 8 (BitVec.ofNat 64 val) false s
  (match t.out.head? with
    | some (.ctlDone _ _ st) => st
    | _ => 0, t)

/-- A service with a status and no value. -/
def svcStatus (r : Nat × State) : Option (Nat × Nat × State) := some (r.1, 0, r.2)

/-- Refused arguments. -/
def svcArg (s : State) : Option (Nat × Nat × State) := some (C.MGT_E_ARG, 0, s)

/-- VERSION. -/
def execVersion (core : Nat) (s : State) : Res :=
  .next (service 1 core (fun t => some (0, Config.fwVersion t.mgmt.pat % 2 ^ 32 + t.fget MGT_BOOTSTAT F.MGT_BOOTSTAT_SVN * 2 ^ 32, t)) s)

/-- A core stores bytes of one line. -/
def coreStore (core la : Nat) (b : Bytes) (off : Nat) (s : State) : State :=
  homeTake { kind := .write, who := .core core, la := la, data := BitVec.ofNat 512 (leNat b * 2 ^ (8 * off)), mask := (2 ^ b.length - 1) * 2 ^ off, poison := false, master := 31,
             mval := 0 } s

/-- A core stores bytes at an address, line by line. -/
def coreBytes (core addr : Nat) : Nat → Bytes → State → State
  | 0, _, s => s
  | n + 1, b, s =>
    if b.isEmpty then s
    else
      let off := addr % 64
      let k := min (64 - off) b.length
      coreBytes core (addr + k) n (b.drop k) (coreStore core (addr / 64 * 64) (b.take k) off s)

/-- The oldest record of level FWD_MIN or above that has not been passed. -/
def recNext (s : State) : Option Nat := s.fltAge.find? (fun i => decide (s.mgmt.fwdMin ≤ recLevel s i) && !s.mgmt.passed.contains i)

/-- FAULT_NEXT. -/
def faultNext (core buf : Nat) (s : State) : Option (Nat × Nat × State) :=
  if 2 ^ 47 < buf + 32 then svcArg s
  else match recNext s with
    | none => some (0, 2 ^ 64 - 1, s)
    | some i =>
      let b := (List.range 4).flatMap (fun j => leBytes 8 (recWord s i j))
      some (0, i, coreBytes core buf 2 b { s with mgmt := { s.mgmt with passed := s.mgmt.passed ++ [i] } })

/-- FAULT_NEXT: the buffer's address. -/
def execFaultNext (core buf : Nat) (s : State) : Res := .next (service 2 core (faultNext core buf) s)

/-- FAULT_ACK: a record already passed. -/
def execFaultAck (core idx : Nat) (s : State) : Res :=
  .next (service 3 core (fun t =>
    if t.mgmt.passed.contains idx then svcStatus (svcWrite hookFltLog core FLT_LOG (putf (putf 0 F.FLT_LOG_ACK 1) F.FLT_LOG_ACKIDX idx) t) else svcArg t) s)

/-- Assignment unit of a fault source (R11, R489); none: it is no unit. -/
def unitOfSrc (src : Nat) : Option Nat :=
  let n := src % 128
  match src / 128 with
  | 1 => some (1 + n)
  | 2 => some (17 + n)
  | 3 => some (43 + n)
  | 4 => if n < 64 then some (68 + n) else some 132
  | 5 => some 67
  | 6 => some 42
  | 7 => some 41
  | 8 => some 134
  | 9 => some 133
  | 10 => if n < 24 then some (139 + n) else some 138
  | 11 => some 164
  | 12 => some 135
  | 13 => some 163
  | 14 => some 0
  | 31 => some 137
  | _ => none

/-- READMIT: a unit owned by a normal-world partition. -/
def execReadmit (core src elem : Nat) (s : State) : Res :=
  .next (service 4 core (fun t =>
    match unitOfSrc src with
    | some u =>
      if srcDefined src ∧ elem < 65536 ∧ t.fget (MGT_ASSIGN u) F.MGT_ASSIGN_KIND = 2 then
        svcStatus (svcWrite hookReadmit core FLT_READMIT (putf (putf (putf 0 F.FLT_READMIT_SOURCE src) F.FLT_READMIT_ELEMENT elem) F.FLT_READMIT_GO 1) t)
      else svcArg t
    | none => svcArg t) s)

/-- EXIT_BASTING. -/
def execExitBasting (core : Nat) (s : State) : Res :=
  .next (service 5 core (fun t => svcStatus (svcWrite (hookLevelCtl true) core FLT_LEVELCTL (putf 0 F.FLT_LEVELCTL_EXIT_BASTING 1) t)) s)

/-- KEY_CTL: a write of KEY_RCTLk that keeps CUR unless it names it. -/
def keyCtl (core region : Nat) (val : State → Nat) (ok : Bool) (s : State) : State :=
  service 6 core (fun t => if region < 32 ∧ ok then svcStatus (svcWrite hookKeyRctl core (KEY_RCTL region) (val t) t) else svcArg t) s

/-- KEY_CTL operation 0: LOAD with GEN. -/
def execKeyCtlLoad (core region slot : Nat) (s : State) : Res :=
  .next (keyCtl core region (fun t =>
    putf (putf (putf (putf 0 F.KEY_RCTL_CUR (t.fget (KEY_RCTL region) F.KEY_RCTL_CUR)) F.KEY_RCTL_LOAD 1) F.KEY_RCTL_GEN 1) F.KEY_RCTL_SLOT slot) (decide (slot < 2)) s)

/-- KEY_CTL operation 1: CUR. -/
def execKeyCtlSetCur (core region slot : Nat) (s : State) : Res := .next (keyCtl core region (fun _ => putf 0 F.KEY_RCTL_CUR slot) (decide (slot < 2)) s)

/-- KEY_CTL operation 2: ERASE. -/
def execKeyCtlErase (core region : Nat) (s : State) : Res :=
  .next (keyCtl core region (fun t => putf (putf 0 F.KEY_RCTL_CUR (t.fget (KEY_RCTL region) F.KEY_RCTL_CUR)) F.KEY_RCTL_ERASE 1) true s)

/-- KEY_CTL operation 3: the range, BASE and LIMIT in 2 MiB blocks; the region is valid afterwards. -/
def execKeyCtlSetRange (core region base limit : Nat) (s : State) : Res :=
  .next (service 6 core (fun t =>
    if region < 32 ∧ base < 2 ^ 26 ∧ limit < 2 ^ 26 then
      svcStatus (svcWrite hookKeyRgn core (KEY_RGN region) (putf (putf (putf 0 F.KEY_RGN_VALID 1) F.KEY_RGN_BASE base) F.KEY_RGN_LIMIT limit) t)
    else svcArg t) s)

/-! Memory that Thimble reads (R481). -/

/-- A line as a core's load finds it: data, or none for poison; the outer none: the load is not at its end. -/
def coreLine (core la : Nat) (s : State) : Option (Option Line) × State :=
  let s0 := descFill s (la / 4096)
  if 2 ≤ (dirOf s0 la).state ∨ busyOf s0 (la / 4096) ∨ s0.home.waiting.any (fun r => r.la == la) then
    (none, if s0.home.waiting.any (fun r => r.la == la && r.who == .core core) then s0
      else homeTake { kind := .readCurrent, who := .core core, la := la, data := 0, mask := 0, poison := false, master := 31, mval := 0 } s0)
  else
    let r := lineRead s0 la 31 false
    (match r.1 with
      | .data d => some (some d)
      | .poison => some none
      | .wait => none, r.2)

/-- Bytes of `n` lines from `la` on; the outer none: a load is not at its end. -/
def coreLines (core la : Nat) : Nat → State → Option (Option Bytes) × State
  | 0, s => (some (some []), s)
  | n + 1, s =>
    match coreLine core la s with
    | (some (some d), s1) =>
      match coreLines core (la + 64) n s1 with
      | (some (some r), s2) => (some (some (lineBytes d ++ r)), s2)
      | x => x
    | (x, s1) => (x.map (fun _ => none), s1)

/-- `len` bytes at an address. -/
def coreRead (core addr len : Nat) (s : State) : Option (Option Bytes) × State :=
  let r := coreLines core (addr / 64 * 64) (lineCount addr len) s
  (r.1.map (fun o => o.map (fun b => (b.drop (addr % 64)).take len)), r.2)

/-- A service whose loads have not all ended: nothing but the loads has happened. -/
def serviceRd (n core addr len : Nat) (ok : Bool) (f : Option Bytes → State → Option (Nat × Nat × State)) (s : State) : State :=
  if svcOpen s core ∧ bit s.mgmt.svcmask n ∧ ok then
    match coreRead core addr len s with
    | (some b, s1) => service n core (f b) s1
    | (none, s1) => s1
  else service n core svcArg s

/-! The program directory (R313). -/

def setProg (s : State) (id : Nat) (e : ProgEntry) : State := { s with progs := tabSet (fun _ => ProgEntry.init) s.progs id e }

/-- FLAGCEIL of a class, as the Pattern's SPOOLS section gives it (R503). -/
def classFlagceil (s : State) (c : Nat) : Nat := getBits (patWord (sectOfType s.mgmt.pat 7) (4096 + 8 * c) 4) 0 5

/-- Install an image that has been read. -/
def progInstall (s : State) (id addr classes : Nat) (m : Option Bytes) : Nat × State :=
  match m with
  | none => (C.SPL_E_IMAGE_BAD, s)
  | some b =>
    let h := b.take 64
    if imgOk b = false then (C.SPL_E_IMAGE_BAD, s)
    else if (List.range 8).any (fun c => bit classes c && (imgNeeds h &&& classFlagceil s c) != imgNeeds h) then (C.SPL_E_NEEDS, s)
    else
      (0, setProg s id { valid := true, addr := ownNode s * 2 ^ 47 + addr, len := imgLen h, needs := imgNeeds h, name := hdrField h 8 16, pver := hdrField h 24 4,
                         bcrc := imgBcrc h, classes := classes, gen := (s.prog id).gen + 1 })

/-- Bytes [addr, addr + len) lie in the firmware range. -/
def inFirmware (s : State) (addr len : Nat) : Bool :=
  decide (s.fget MGT_FWBASE F.MGT_FWBASE_LA * 2 ^ 21 ≤ addr) && decide (addr + len ≤ (s.fget MGT_FWLIMIT F.MGT_FWLIMIT_LA + 1) * 2 ^ 21)

/-- Length of the image at an address, from its header; the least one where the header is bad. -/
def imgSpan (h : Option Bytes) : Nat := match h with
  | some b => if imgHdrOk b then imgLen b else 64
  | none => 64

/-- PROG_INSTALL: an image in the firmware range. -/
def progService (core id addr classes : Nat) (s : State) : State :=
  let ok := decide (id < 256) && decide (classes < 256) && inFirmware s addr 64
  if svcOpen s core ∧ bit s.mgmt.svcmask 7 ∧ ok then
    match coreRead core addr 64 s with
    | (some h, s1) =>
      serviceRd 7 core addr (imgSpan h) (inFirmware s addr (imgSpan h)) (fun m t => svcStatus (progInstall t id addr classes m)) s1
    | (none, s1) => s1
  else service 7 core svcArg s

/-- PROG_INSTALL. -/
def execProgInstall (core id addr classes : Nat) (s : State) : Res := .next (progService core id addr classes s)

/-- PROG_REMOVE: clears VALID. -/
def execProgRemove (core id : Nat) (s : State) : Res :=
  .next (service 8 core (fun t => if id < 256 then some (0, 0, setProg t id { t.prog id with valid := false }) else svcArg t) s)

/-- MEASURE: MR5 to MR7 are extended with a digest in memory. -/
def execMeasure (core idx addr : Nat) (s : State) : Res :=
  .next (serviceRd 9 core addr 48 (decide (5 ≤ idx ∧ idx ≤ 7) && decide (addr + 48 ≤ 2 ^ 47)) (fun b t =>
    match b with
    | some d => some (0, 0, mrExtend t idx d)
    | none => svcArg t) s)

/-- DEBUG_N: N_INV and N_NINV in bits [1:0]; an enable that is set needs its bit of DBGMASK. -/
def execDebugN (core bits : Nat) (s : State) : Res :=
  .next (service 10 core (fun t =>
    if 4 ≤ bits then svcArg t
    else if bits &&& (t.mgmt.dbgmask % 4) ≠ bits then some (C.MGT_E_POLICY, 0, t)
    else svcStatus (svcWrite hookDbgCtl core MGT_DBGCTL (putBits (t.rg MGT_DBGCTL).toNat 2 2 bits) t)) s)

/-- WARM_RESET: the call does not return. -/
def execWarmReset (core : Nat) (s : State) : Res :=
  .next (if svcOpen s core ∧ bit s.mgmt.svcmask 11 then warmReset 3 (worldMark (s.ev 0x5C9) core 1) else service 11 core svcArg s)

/-- SVN_COMMIT: the fused minimum rises to the running Pattern's SVN. -/
def execSvnCommit (core : Nat) (s : State) : Res :=
  .next (service 12 core (fun t => some (0, 0, { t with mgmt := { t.mgmt with minSvn := max t.mgmt.minSvn (t.fget MGT_BOOTSTAT F.MGT_BOOTSTAT_SVN) } })) s)

/-- A service number that is not in the table. -/
def noService (core n : Nat) (s : State) : State :=
  if svcOpen s core = false ∨ (1 ≤ n ∧ n ≤ 12) then s else svcEnd core C.MGT_E_NO_SERVICE 0 (worldMark (s.ev 0x5C9) core 1)

/-- An unknown service number. -/
def execEcallNoService (core n : Nat) (s : State) : Res := .next (noService core n s)

end Sys2Proof.Machine
end

