-- ==== Sys2Proof/Machine/CtlSpace.lean ====
section
/-! DEFINITION. Control space as a whole (R2 to R4, R58 to R60, R490): what a write of each register does, and what a read returns. -/

namespace Sys2Proof.Machine

/-- A record register whose VALID bit clears its count too. -/
def hookRecClear (off : Nat) (valid count : Fld) : Hook := fun _ _ new act s =>
  (s.setRg off (BitVec.ofNat 64 (if fld act valid = 1 then putf new count 0 else new)), 0)

/-- What a write of a register does, by its name. -/
def hookOf (r : R) (trusted : Bool) (off : Nat) : Hook :=
  match r with
  | .GLB_ILNCFG => hookIlnCfg
  | .GLB_SPDCFG => hookSpdCfg
  | .PRT_CFG => hookPrtCfg
  | .PRT_DPALAYOUT => hookDpaLayout
  | .PRT_HMAPA => hookHmapA
  | .PRT_HMAPB => hookHmapB
  | .PRT_CTLERR => hookRecClear off F.PRT_CTLERR_VALID F.PRT_CTLERR_COUNT
  | .TIR_LOGTAIL => hookLogTail
  | .TIR_FLUSHCTL => hookFlushCtl
  | .TIR_GRBASE => hookGrBase
  | .PLT_ERR => hookRecClear off F.PLT_ERR_VALID F.PLT_ERR_COUNT
  | .KEY_SWEEPCTL => hookSweepCtl
  | .KEY_KMAT => hookKmat
  | .KEY_LINKCTL => hookLinkCtl
  | .KEY_RGN => hookKeyRgn
  | .KEY_RCTL => hookKeyRctl
  | .DIR_RECALLCTL => hookRecallCtl
  | .BOB_CFG => hookBobCfg
  | .BOB_PROGFLT => hookRecClear off F.BOB_PROGFLT_VALID F.BOB_PROGFLT_COUNT
  | .SPL_DOORBELL => hookDoorbell
  | .SPL_ABORT => hookAbort
  | .SPL_CFG => hookSplCfg
  | .SPL_SQBASE => hookSqBase
  | .SPL_CQBASE => hookCqBase
  | .SPL_CAP => hookCap
  | .FAB_CFG => hookFabCfg
  | .FAB_DFCLEAR => hookDfClear
  | .FAB_TIMESET => hookTimeSet
  | .FAB_ROUTE => hookRoute
  | .DCH_CTL => hookDchCtl
  | .DCH_RBRING => hookRbRing
  | .DCH_SCRUBCTL => hookScrubCtl
  | .DCH_ROWFLT => fun _ _ new act s => (s.setRg off (if fld act F.DCH_ROWFLT_VALID = 1 then 0 else BitVec.ofNat 64 new), 0)
  | .SRM_ERRLOG => hookRecClear off F.SRM_ERRLOG_VALID F.SRM_ERRLOG_COUNT
  | .SRM_TESTCTL => hookSrmTest
  | .QOS_MISSLOG => hookRecClear off F.QOS_MISSLOG_VALID F.QOS_MISSLOG_COUNT
  | .QOS_MDRAM => hookShare false
  | .QOS_MOCC => hookShare true
  | .QOS_HISTCFG => hookHist
  | .PMC_SNAPCTL => hookSnap
  | .FLT_LOG => hookFltLog
  | .FLT_READMIT => hookReadmit
  | .FLT_LEVELCTL => hookLevelCtl true
  | .MGT_BOOTCTL => hookBootCtl
  | .MGT_LOCK => hookLock
  | .MGT_RSTCTL => hookRstCtl
  | .MGT_DBGCTL => hookDbgCtl
  | .MGT_WDOG => hookWdog
  | .MGT_WDOGKICK => hookKick
  | .MGT_TUSE => hookTuse
  | .MGT_MRSTAGE => hookMrStage
  | .MGT_MREXT => hookMrExt
  | .PWR_CTL => hookPwrCtl trusted
  | .PWR_VCORE => hookVcore
  | .PWR_UNITCTL => hookUnitCtl trusted
  | .HEM_CFG => hookHemCfg
  | .HEM_CTL => hookHemCtl
  | .HEM_STAT => hookHemStat
  | .CAL_REQ => hookCalReq
  | .CAL_MBISTCTL => hookMbist
  | .CAL_PRBS => hookPrbs
  | _ => plainHook off

/-- What a write at an offset does. -/
def hookAt (trusted : Bool) (off : Nat) : Hook := match regFind off with
  | some h => hookOf h.desc.id trusted off
  | none => plainHook off

/-- A control-space write of any width; `rival`: a trusted write of the same register waits with it (R496). -/
def ctlWrite (who : Who) (off width : Nat) (val : Word) (rival : Bool) (s : State) : State := ctlWriteWith (hookAt (whoTrusted who) off) who off width val rival s

/-! Reads (R3, R4, R490). -/

/-- Units that are not in service. -/
def unitsOut (s : State) : Nat :=
  (s.regs.filter (fun e => decide (FLT_SRCSTAT 0 ≤ e.1 ∧ e.1 < FLT_SRCSTAT 4096) && (e.1 - FLT_SRCSTAT 0) % (FLT_SRCSTAT 1 - FLT_SRCSTAT 0) == 0 &&
    fld e.2.toNat F.FLT_SRCSTAT_STATE != 0)).length

/-- The register as it reads: what is stored, with the fields that show state held elsewhere. -/
def regView (s : State) (off : Nat) (h : RegHit) : Nat :=
  let v := (s.rg off).toNat
  let i := h.idx.headD 0
  let sat := fun (f : Fld) (n : Nat) => putf v f (min n (2 ^ f.w - 1))
  match h.desc.id with
  | .TIR_STAT => putf v F.TIR_STAT_FRAME_LOW_CH (frameLowCh s)
  | .PLT_STAT =>
    putf (putf v F.PLT_STAT_LANES_BUSY (lanesBusy s i)) F.PLT_STAT_QUEUED (min 255 (s.tier.pleat.filter (fun w => w.unit == i && !w.granted)).length)
  | .KEY_RCTL => putf v F.KEY_RCTL_INUSE ((if (s.slot i 0).inuse = 0 then 0 else 1) + (if (s.slot i 1).inuse = 0 then 0 else 2))
  | .DIR_STAT => sat F.DIR_STAT_REGIONS (s.home.binds.filter (fun e => e.2.isSome)).length
  | .BOB_STAT => if (s.bob i).run = 0 then v else putf v F.BOB_STAT_PC (s.bob i).pc
  | .SPL_STAT =>
    let c := (s.spool i).cmds
    putf (putf v F.SPL_STAT_RUNNING (c.filter (fun x => x.stage == 1)).length) F.SPL_STAT_QUEUED (min 65535 (c.filter (fun x => x.stage == 0)).length)
  | .FAB_STAT => sat F.FAB_STAT_OUTSTANDING s.seam.txs.length
  | .FAB_TIME => s.time % 2 ^ 64
  | .DCH_FIFO => putf (putf v F.DCH_FIFO_PLAIN (s.chan i).fifoP.length) F.DCH_FIFO_MIRROR (s.chan i).fifoM.length
  | .FLT_STAT => putf (putf v F.FLT_STAT_UNACK (openRecs s).length) F.FLT_STAT_FENCED (unitsOut s)
  | .FLT_SRCSTAT => putf v F.FLT_SRCSTAT_PRIV (if privileged s i then 1 else 0)
  | _ => v

/-- The fields that `p` admits; the others read as zero. -/
def readFields (v : Nat) (p : FieldDesc → Bool) (fs : List FieldDesc) : Nat :=
  (fs.filter (fun f => p f && f.acc != .wo)).foldl (fun a f => putBits a f.lo f.w (getBits v f.lo f.w)) 0

/-- Offsets of the diagnostic SRAM window (R60). -/
def inSramWindow (off : Nat) : Bool := decide (0x1000000 ≤ off ∧ off < 0x1000000 + 512 * 131072)

/-- A read: its value and its status. -/
def ctlRead (who : Who) (off width : Nat) (s : State) : Nat × Nat :=
  if (width ≠ 4 ∧ width ≠ 8) ∨ off % width ≠ 0 then (0, C.CTL_E_WIDTH)
  else if inSramWindow off then
    if whoTrusted who = false then (0, C.CTL_E_WORLD)
    else
      let o := off - 0x1000000
      let v := sramWord s (o / 131072) (o % 131072 / 8)
      (if width = 4 then v / 2 ^ (8 * (off % 8)) % 2 ^ 32 else v, 0)
  else
    let base := off / 8 * 8
    match (if off < 0x100000000 then regFind base else none) with
    | none => (0, C.CTL_E_NO_REGISTER)
    | some h =>
      if regExists h = false then (0, C.CTL_E_NO_REGISTER)
      else
        let v := regView s base h
        let part := fun (x : Nat) => if width = 4 then x / 2 ^ (8 * (off % 8)) % 2 ^ 32 else x
        let fs := h.desc.fields
        if whoTrusted who then (part (readFields v (fun _ => true) fs), 0)
        else if fs.all (fun f => f.world == .t) then (0, C.CTL_E_WORLD)
        else if owns s who base then (part (readFields v (fun f => f.world != .t) fs), 0)
        else (part (readFields v (fun f => f.world == .a) fs), if fs.any (fun f => f.world == .a) then 0 else C.CTL_E_NOT_OWNER)

/-- A read by `who`: what it returns, and the state with what its status leaves on record at `at'` (R92); a bank reports a word of the diagnostic window that is
uncorrectable (R60, R426). -/
def ctlReadBy (who : Who) (off at' width : Nat) (s : State) : (Nat × Nat) × State :=
  let r := ctlRead who off width s
  let bank := (off - 0x1000000) / 131072
  let word := (off - 0x1000000) % 131072 / 8
  let s1 := if inSramWindow off ∧ r.2 = 0 ∧ bankOut s bank = false ∧ sramLost s bank word then srmErr s bank word true else s
  (r, ctlNote who at' r.2 s1)

/-! The host's accesses through BAR0, and its reads (R91, R92). -/

/-- The MSI-X table in BAR0, and its pending-bit array (R91). -/
def msixTable : Nat := 0x20000
def msixPba : Nat := 0x28000

/-- The host writes BAR0: a word of the MSI-X table, in whole 4-byte or 8-byte accesses; a vector that is no longer masked and has its pending bit set is sent.
The pending-bit array is read-only. The HDM decoders, the mailbox and the IDE stream behind the other registers act through commands of their own. -/
def bar0Write (p off width : Nat) (val : Word) (s : State) : State :=
  let x := s.port p
  if linkUp s p = false ∨ (width ≠ 4 ∧ width ≠ 8) ∨ off % width ≠ 0 ∨ off < msixTable ∨ msixTable + 64 * 16 ≤ off then s
  else
    let w := (off - msixTable) / 8
    let old := tabGet msixReset x.msixTab w
    let new := if width = 8 then val.toNat else putBits old (8 * (off % 8)) 32 val.toNat
    let s1 := s.setPort p { x with msixTab := tabSet msixReset x.msixTab w new }
    let v := w / 2
    if w % 2 = 1 ∧ bit new 32 = false ∧ bit x.msixPend v then
      (s1.setPort p { s1.port p with msixPend := withBit x.msixPend v false }).put (.msix p v)
    else s1

/-- What the host of port `p` reads, with its status: `off` is the offset in BAR2, 0x0600_0000 + 8 q for the doorbell of Spool q in BAR4, or 0x0700_0000 plus
the offset in BAR0. DESIGN CHOICE (log entry 167): the last two are the model's way to name the BAR. -/
def hostLoad (p off width : Nat) (s : State) : State :=
  if ctlOpen s = false ∨ linkUp s p = false then s
  else
    let part := fun (v : Nat) => if width = 4 then v / 2 ^ (8 * (off % 8)) % 2 ^ 32 else v
    if 0x7000000 ≤ off then
      let o := off - 0x7000000
      let v := if msixTable ≤ o ∧ o < msixTable + 64 * 16 then tabGet msixReset (s.port p).msixTab ((o - msixTable) / 8)
        else if msixPba / 8 = o / 8 then (s.port p).msixPend else 0
      s.put (.ctlData (.load p) off (BitVec.ofNat 64 (part v)) 0)
    else
      let r := ctlReadBy (.load p) (if 0x6000000 ≤ off then SPL_DOORBELL ((off - 0x6000000) / 8) + off % 8 else off) off width s
      r.2.put (.ctlData (.load p) off (BitVec.ofNat 64 r.1.1) r.1.2)

/-- A control-space access that the command brings: a write; or a host's write of BAR0, or a host's read (R91, R92). -/
def execControlSpaceWrite (who : Who) (off width : Nat) (val : Word) (rival : Bool) (s : State) : Res :=
  .next (match who with
    | .bar0 p => bar0Write p off width val s
    | .load p => hostLoad p off width s
    | _ => ctlWrite who off width val rival s)

end Sys2Proof.Machine
end

