-- ==== Sys2Proof/Machine/SeamDst.lean ====
section
/-! DEFINITION. The Seam destination (chapter 10): deadline, order, duplicate filter, inbound windows and admission (R365 to R375), Skips, and link-local
messages (R354). -/

namespace Sys2Proof.Machine

/-! Admission (R373, R374). -/

/-- The permission field that an opcode needs. -/
def winPerm (o : Nat) : Fld :=
  if o = 0x04 ∨ o = 0x10 then F.FAB_INWINA_R
  else if o = 0x05 ∨ o = 0x11 then F.FAB_INWINA_W
  else if o = 0x30 ∨ o = 0x31 then F.FAB_INWINA_M
  else if o = 0x20 then F.FAB_INWINA_S
  else F.FAB_INWINA_C

/-- A valid inbound window matches the transaction. -/
def winAdmits (s : State) (m : Msg) : Bool :=
  (List.range 64).any fun n =>
    let a := FAB_INWINA n
    let b := FAB_INWINB n
    let mask := s.fget b F.FAB_INWINB_NMASK
    s.fget a F.FAB_INWINA_VALID == 1 && (m.src &&& mask) == (s.fget a F.FAB_INWINA_NODE &&& mask) &&
      decide (s.fget a F.FAB_INWINA_BASE ≤ m.la / 2 ^ 21) && decide (m.la / 2 ^ 21 ≤ s.fget b F.FAB_INWINB_LIMIT) && s.fget a (winPerm m.opc) == 1

def isSnoop (o : Nat) : Bool := 0x40 ≤ o && o ≤ 0x43

/-- A transaction without effect completes, and its entry says so. -/
def admitRefuse (s : State) (m : Msg) (st : Nat) : Option State := (dfDone s m false false 0 st).map fun t => sendStatus t m st

/-- The status of the control-space write that has just ended. -/
def lastStatus (s : State) : Nat := match s.out.head? with
  | some (.ctlDone _ _ st) => st
  | _ => 0

/-- SvcWr addresses the submitter part of a Spool's page. -/
def svcOffset (off : Nat) : Bool := decide (0x600000 ≤ off ∧ off < 0x640000 ∧ off % 0x100 < 0x40)

/-- A CtlRd is served: its completion carries the register. -/
def serveCtlRd (s : State) (m : Msg) : State :=
  let r := ctlReadBy (.node m.src) m.la m.la 8 s
  sendMsg r.2 (reqAnswer r.2 m 0x52 r.1.2 0 r.1.1)

/-- An accepted transaction is admitted and applied (R365 step 4); `p` is the port that it came by. None: its entry must wait, and nothing is done yet. -/
def admitTxn (p : Nat) (m : Msg) (s : State) : Option State :=
  if isSnoop m.opc then some { s with seam := { s.seam with snoops := s.seam.snoops ++ [⟨m, none⟩] } }
  else if winAdmits s m = false then admitRefuse (evFAB 11 (fabStat s F.FAB_STAT_ACCESS)) m C.FAB_E_ACCESS
  else if m.opc = 0x30 then (dfDone s m true false 0 (ctlRead (.node m.src) m.la 8 s).2).map fun t => serveCtlRd t m
  else if m.opc = 0x31 ∨ m.opc = 0x20 then
    if m.opc = 0x20 ∧ svcOffset m.la = false then admitRefuse s m C.CTL_E_NO_REGISTER
    else
      let s1 := ctlWrite (.node m.src) m.la 8 (BitVec.ofNat 64 m.data) false s
      admitRefuse s1 m (lastStatus s1)
  else some (toSlice { s with seam := { s.seam with acc := s.seam.acc ++ [⟨m, none⟩] } } (remoteReq m (if p < 16 then p else 28)))

/-! The filter (R368 to R370). -/

/-- A duplicate (R369); one that cannot be answered yet waits. -/
def filterDup (p : Nat) (m : Msg) (d : Line) (la : Nat) (s : State) : State :=
  let wait := { s with seam := { s.seam with dups := s.seam.dups ++ [(p, m)] } }
  if dfGet d la 32 2 = 1 then wait
  else if m.opc = 0x30 ∧ dfGet d la 34 1 = 1 then serveCtlRd (countDf 1 (evFAB 4 s)) m
  else (dupAnswer s m d).getD wait

/-- Step 3, with step 4 for what is accepted: the check, the record and the admission are one update (R368). None: a line must wait, and nothing is done yet. -/
def filterStep (p : Nat) (m : Msg) (s : State) : Option State :=
  let la := dfEntryLa s m.src m.tid
  if lineBad s m.src la then some (filterLost s m la)
  else match dfRead s la with
    | (none, _) => none
    | (some none, s1) => some (filterLost s1 m la)
    | (some (some d), s1) =>
      match tidStands d la m.tid with
      | 0 => (dfRecord s1 m.src m.tid 1 0 0 0 0).bind fun t => admitTxn p m (evFAB 1 t)
      | 1 => some (filterDup p m d la (countDf 0 s1))
      | _ => some (countDf 2 (evFAB 5 s1))

/-- A Skip in its turn: its TID is DONE with FAB_E_UNREACHABLE, unless the entry is newer or the same. -/
def skipStep (m : Msg) (s : State) : Option State :=
  let la := dfEntryLa s m.src m.tid
  match dfRead s la with
  | (some (some d), s1) => if tidStands d la m.tid = 0 then dfRecord s1 m.src m.tid 2 0 0 0 C.FAB_E_UNREACHABLE else some s1
  | (some none, s1) => some s1
  | (none, _) => none

/-- A transaction, or a Skip, whose turn has come. -/
def turn (p : Nat) (m : Msg) (s : State) : Option State := if m.opc = 0x33 then skipStep m s else filterStep p m s

/-! Order (R365 step 2). -/

/-- The flow's NEXT, once SYNC is set. -/
def flowNext (d : Line) (la ocls fseq : Nat) : Nat := if dfGet d la (128 + ocls) 1 = 1 then dfGet d la (16 * ocls) 16 else fseq

/-- NEXT advances past an FSEQ. -/
def flowAdvance (s : State) (d : Line) (la ocls fseq : Nat) : Option State := dfWrite s la (dfPut (dfPut d la (16 * ocls) 16 ((fseq + 1) % 65536)) la (128 + ocls) 1 1)

/-- The flow's line is there to be advanced, and the entry's to be recorded in; otherwise they are asked for. -/
def dfReady (s : State) (m : Msg) : Bool × State :=
  let a := dfHold s (dfFlowLa s m.src)
  let b := dfHold a.2 (dfEntryLa s m.src m.tid)
  (a.1 && b.1, b.2)

/-- Step 2 for a message. None: a line must wait, and nothing is done yet. -/
def orderStep (p : Nat) (m : Msg) (s : State) : Option State :=
  let la := dfFlowLa s m.src
  let lost := fun (t : State) => if m.opc = 0x33 then t else filterLost t m la
  if lineBad s m.src la then some (lost s)
  else match dfRead s la with
    | (none, _) => none
    | (some none, s1) => some (lost s1)
    | (some (some d), s1) =>
      let next := flowNext d la m.ocls m.fseq
      let ahead := (m.fseq + 65536 - next) % 65536
      if ahead = 0 then (flowAdvance s1 d la m.ocls m.fseq).bind (turn p m)
      else if ahead < 32768 then
        if 512 ≤ s1.seam.reseq.length then some (evFAB 10 (fabStat s1 F.FAB_STAT_RSQ_FULL))
        else some (evFAB 9 { s1 with seam := { s1.seam with reseq := s1.seam.reseq ++ [(p, m)] } })
      else if m.opc = 0x33 then some s1
      else filterStep p m s1

/-- A message of the resequencer is not early any more: its FSEQ is NEXT, or below it when another copy was first. -/
def reseqFree (s : State) (m : Msg) : Bool :=
  let la := dfFlowLa s m.src
  match (dfRead s la).1 with
  | some (some d) =>
    let ahead := (m.fseq + 65536 - flowNext d la m.ocls m.fseq) % 65536
    ahead == 0 || decide (32768 ≤ ahead)
  | some none => true
  | none => false

/-- The first message of the resequencer that can go on goes on. -/
def reseqTake (s : State) : List (Nat × Msg) → Option State
  | [] => none
  | e :: r =>
    let u := (dfReady s e.2).2
    match (if reseqFree s e.2 then orderStep e.1 e.2 { u with seam := { u.seam with reseq := u.seam.reseq.erase e } } else none) with
    | some t => some t
    | none => reseqTake s r

/-- Every message of the resequencer that an advance has released, at once or once its lines are there, goes on. -/
def reseqGo : Nat → State → State
  | 0, s => s
  | n + 1, s => match reseqTake s s.seam.reseq with
    | some t => reseqGo n t
    | none => s

/-- What waits at the filter goes on: released messages and duplicates. -/
def filterGo (s : State) : State := dupsGo (reseqGo 513 s)

/-- The deadline has passed (R365 step 1). -/
def expired (s : State) (m : Msg) : Bool := decide ((s.time / 1000 + 2 ^ 24 - m.dl % 2 ^ 24) % 2 ^ 24 < 2 ^ 23)

/-- The device has a time to judge deadlines by. -/
def timeKnown (s : State) : Bool := s.fget FAB_TIMESTAT F.FAB_TIMESTAT_VALID == 1 || s.fget FAB_TIMESTAT F.FAB_TIMESTAT_HOLDOVER == 1

/-- The steps of R365. None: a line of the filter must wait, and the message stays in its buffer. -/
def takeTxn (p : Nat) (m : Msg) (s : State) : Option State :=
  let s1 := if timeKnown s then s else fabCount s C.FAB_W_NO_TIME
  if timeKnown s ∧ expired s m then some (evFAB 8 (fabStat s1 F.FAB_STAT_EXPIRED))
  else if maxNode s1 < m.src then some (sendStatus (evFAB 11 (fabStat s1 F.FAB_STAT_ACCESS)) m C.FAB_E_ACCESS)
  else orderStep p m s1

/-- A transaction for this device arrives at port `p` (16: from the device itself) on a VC. It stays in its buffer while its port's master waits for a pass
(R444), or a line of the filter cannot be read or written yet. -/
def transactionArrival (p vc : Nat) (s : State) : State :=
  match rxHead s p vc with
  | none => s
  | some (m, _) =>
    if m.isT = false ∨ m.dst ≠ ownNode s ∨ m.dst = 0x3FFF ∨ ctlOpen s = false then s
    else if s.devLevel = 4 then sendStatus (rxPop s p vc) m C.FAB_E_HALTED
    else if vc = 0 ∧ portHeld s p then s
    else
      let s0 := filterGo (pwrAbort s)
      let s1 := if maxNode s0 < m.src then s0 else (dfReady s0 m).2
      match takeTxn p m (rxPop s1 p vc) with
      | some t => filterGo t
      | none => s1

/-- A transaction arrives. -/
def execTransactionArrival (p vc : Nat) (s : State) : Res := .next (transactionArrival p vc s)

/-- A Skip arrives. -/
def skipReceive (p : Nat) (s : State) : State :=
  match rxHead s p 5 with
  | none => s
  | some (m, _) =>
    if m.opc ≠ 0x33 ∨ m.dst ≠ ownNode s ∨ m.dst = 0x3FFF ∨ ctlOpen s = false then s
    else if s.devLevel = 4 ∨ maxNode s < m.src then rxPop s p 5
    else
      let s1 := (dfReady s m).2
      match orderStep p m (rxPop s1 p 5) with
      | some t => filterGo t
      | none => s1

/-- A Skip arrives. -/
def execSkipReceive (p : Nat) (s : State) : Res := .next (skipReceive p s)

/-! Link-local messages (R354). -/

/-- A message for the link partner is taken: a CtlRd of one of the three registers is answered on its port, a CtlCmp goes to firmware, any other is discarded.
Notch messages have rows of their own. -/
def linkLocal (p vc : Nat) (s : State) : State :=
  match rxHead s p vc with
  | none => s
  | some (m, _) =>
    if m.dst ≠ 0x3FFF ∨ 16 ≤ p ∨ (0x70 ≤ m.opc ∧ m.opc ≤ 0x73) ∨ ctlOpen s = false then s
    else
      let s0 := rxPop s p vc
      if m.opc = 0x30 ∧ linkLocalReg m.la then
        let r := ctlRead (.node 0x3FFF) m.la 8 s0
        pushTx s0 p { reqAnswer s0 m 0x52 r.2 0 r.1 with dst := 0x3FFF }
      else if m.opc = 0x52 then s0.put (.fwDone m.tid (m.data % 2 ^ 64) m.status)
      else s0

/-- A link-local message is taken. -/
def execLinkLocalMessage (p vc : Nat) (s : State) : Res := .next (linkLocal p vc s)

end Sys2Proof.Machine
end

