-- ==== Sys2Proof/Machine/Boot.lean ====
section
/-! DEFINITION. The Pattern and its checks (R501 to R504), cold boot (R508), the boot of a warm reset (R512), and the resume sequence of P3 (R529). -/

namespace Sys2Proof.Machine

/-! The Pattern (R502 to R504). -/

/-- Every byte of [lo, hi) is zero. -/
def zeroBytes (p : List Nat) (lo hi : Nat) : Bool := ((p.drop lo).take (hi - lo)).all (· == 0)

/-- MAGIC, VER, NSECT and the zero fields of the header, and its size. -/
def headerOk (p : List Nat) : Bool :=
  p.take 4 == [0x50, 0x54, 0x52, 0x4E] && patWord p 4 2 == 1 && decide (1 ≤ patWord p 6 2) && decide (patWord p 6 2 ≤ 32) && decide (patWord p 8 4 ≤ 2 ^ 26) &&
    decide (512 + 64 * patWord p 6 2 ≤ patWord p 8 4) && decide (patWord p 8 4 ≤ p.length) && zeroBytes p 15 16 && zeroBytes p 129 136 && zeroBytes p 232 512 &&
    decide (patWord p 14 1 ≤ 3)

/-- PUBKEY is the fused key of a slot that is not revoked, and SIG verifies. -/
def keyOk (p : List Nat) : Bool :=
  let key := (p.drop 32).take 97
  (match Config.keyHash (patWord p 14 1) with
    | some h => sha384 key == h
    | none => false) && Config.ecdsaOk key ((p.drop 136).take 96) (p.take 136 ++ (p.drop 512).take (64 * patWord p 6 2))

/-- A section entry: type, place, and the fields that its type uses. -/
def sectOk (len : Nat) (x : Sect) : Bool :=
  decide (1 ≤ x.type ∧ x.type ≤ 10) && x.off % 64 == 0 && decide (x.off + x.len ≤ len) && (x.type == 4 || x.flags == 0) &&
    (if x.type = 4 then decide (x.arg < 256) else if x.type = 3 then decide (1 ≤ x.arg ∧ x.arg ≤ 31) else x.arg == 0) &&
    (if 2 ≤ x.type ∧ x.type ≤ 4 then x.dest % 4096 == 0 else x.dest == 0) && (x.type != 1 || decide (x.len ≤ 2 ^ 18))

/-- How many sections of a type there are. -/
def sectCount (p : List Nat) (ty : Nat) : Nat := ((sects p).filter (fun x => x.type == ty)).length

/-- The section table (R503). -/
def tableOk (p : List Nat) : Bool :=
  (sects p).all (sectOk (patWord p 8 4)) && sectCount p 1 == 1 && sectCount p 5 == 1 && sectCount p 6 == 1 && sectCount p 7 == 1 && decide (sectCount p 2 ≤ 1)

/-- The status of a copy under R502 and R504, 0 when it is accepted. -/
def copyStatus (s : State) (p : List Nat) : Nat :=
  if headerOk p = false then C.MGT_E_PATTERN_FMT
  else if keyOk p = false then C.MGT_E_PATTERN_SIG
  else if patWord p 12 2 < s.mgmt.minSvn then C.MGT_E_PATTERN_SVN
  else if tableOk p = false then C.MGT_E_PATTERN_FMT
  else 0

/-- A section's DIGEST is that of its bytes. -/
def digestOk (p : List Nat) (x : Sect) : Bool := sha384 (sectBytes p x) == x.digest

/-- Sections of the types that `q` admits, in table order. -/
def sectsOf (p : List Nat) (q : Nat → Bool) : List Sect := (sects p).filter (fun x => q x.type)

/-- MR of a section type (R503). -/
def sectMr (ty : Nat) : Nat := if ty = 1 then 0 else if ty = 2 ∨ ty = 3 then 1 else if ty = 4 then 2 else if ty = 5 ∨ ty = 6 ∨ ty = 7 then 3 else 4

/-- Sections are measured in table order (R505). -/
def measure (s : State) (l : List Sect) : State := l.foldl (fun t x => mrExtend t (sectMr x.type) x.digest) s

/-! What the sections set. -/

/-- Owners, trusted-use bits and routes (ASSIGN). Units 165 to 255 stay as they are (R489). -/
def applyAssign (b : Bytes) (s : State) : State :=
  let s1 := (List.range 165).foldl (fun t u => t.setRg (MGT_ASSIGN u) (BitVec.ofNat 64 (patWord b (2 * u) 2))) s
  (List.range 256).foldl (fun t n => t.setRg (MGT_IRQRT n) (BitVec.ofNat 64 (patWord b (544 + 2 * n) 2 % 512))) s1

/-- The trusted-use bitmap. -/
def applyTuse (b : Bytes) (s : State) : State := (List.range 4).foldl (fun t i => t.setRg (MGT_TUSE i) (BitVec.ofNat 64 (patWord b (512 + 8 * i) 8))) s

/-- What Thimble keeps of PARTS: SVCMASK, DBGMASK and FWD_MIN; and of the Pattern, the endpoint of the fabric manager (R99). -/
def applyMasks (b : Bytes) (s : State) : State :=
  { s with mgmt := { s.mgmt with fmEid := Config.fmEid s.mgmt.pat, svcmask := patWord b 0 4, dbgmask := patWord b 4 1, fwdMin := patWord b 5 1 } }

/-- The firmware range (PARTS). -/
def applyRange (b : Bytes) (s : State) : State :=
  (s.fset MGT_FWBASE F.MGT_FWBASE_LA (patWord b 6 4)).fset MGT_FWLIMIT F.MGT_FWLIMIT_LA (patWord b 10 4)

/-- Class, owner and ceiling of every Spool (SPOOLS). -/
def applySpools (b : Bytes) (s : State) : State :=
  (List.range 1024).foldl (fun t q =>
    let e := patWord b (4 * q) 4
    let c := patWord b (4096 + 8 * (e % 8)) 8
    let v := putf (putf (putf 0 F.SPL_CLASSINFO_CLASS e) F.SPL_CLASSINFO_OWNERKIND (e / 8)) F.SPL_CLASSINFO_OWNER (e / 32)
    t.setRg (SPL_CLASSINFO q) (BitVec.ofNat 64 (putf (putf (putf v F.SPL_CLASSINFO_FLAGCEIL c) F.SPL_CLASSINFO_USERIMG_OK (c / 32)) F.SPL_CLASSINFO_MAXCEIL (c / 65536)))) s

/-- The lengths that R503 gives ASSIGN, PARTS, SPOOLS, and CONFIG's entries with their zero bytes. -/
def contentsOk (p : List Nat) : Bool :=
  (sects p).all fun x =>
    if x.type = 5 then x.len == 1056
    else if x.type = 6 then x.len == 528 && zeroBytes (sectBytes p x) 14 16
    else if x.type = 7 then x.len == 4160
    else if x.type = 8 then x.len % 16 == 0 && (List.range (x.len / 16)).all (fun i => zeroBytes (sectBytes p x) (16 * i + 4) (16 * i + 8))
    else true

/-- The core that runs the ROM: C0, or the lowest-numbered one that is not fenced. -/
def bootCore (s : State) : Nat := ([0, 1, 2, 3].find? (fun c => s.coreState c == 0 || 4 ≤ s.coreState c)).getD 0

/-- A trusted write of the boot: its status and the state. -/
def bootWrite (off val : Nat) (s : State) : Nat × State :=
  let t := ctlWrite (.trusted (bootCore s)) off 8 (BitVec.ofNat 64 val) false s
  (lastStatus t, t)

/-- CONFIG's entries are applied in order, up to the first that fails. -/
def applyConfig : List Bytes → State → Nat × State
  | [], s => (0, s)
  | e :: r, s =>
    let x := bootWrite (patWord e 0 4) (patWord e 8 8) s
    if x.1 ≠ 0 then x else applyConfig r x.2

/-- The CONFIG sections' entries. -/
def configEntries (p : List Nat) : List Bytes := (sectsOf p (· == 8)).flatMap (fun x => chunk 16 (x.len / 16) (sectBytes p x))

/-! The steps (R508, R512). -/

/-- A failure stops the boot. -/
def bootStop (s : State) (st : Nat) : State :=
  let s1 := (List.range 4).foldl (coreTo 5) s
  { s1.fset MGT_BOOTSTAT F.MGT_BOOTSTAT_STATUS st with mgmt := { s1.mgmt with stopped := true, run := false } }

/-- Step 4: copy A, then copy B. -/
def checkCopies (s : State) : State × Nat :=
  let take := fun (c : Nat) (p : List Nat) => ({ s.fset MGT_BOOTSTAT F.MGT_BOOTSTAT_COPY c with mgmt := { s.mgmt with pat := p } }, 0)
  if copyStatus s s.mgmt.flash.1 = 0 then take 0 s.mgmt.flash.1
  else if copyStatus s s.mgmt.flash.2 = 0 then take 1 s.mgmt.flash.2
  else (s, copyStatus s s.mgmt.flash.2)

/-- THIMBLE's digest is right. -/
def thimbleOk (p : List Nat) : Bool := (sectsOf p (· == 1)).all (digestOk p)

/-- THIMBLE of the copy in use, or of copy B when copy A's fails its digest. -/
def pickThimble (s : State) : State × Nat :=
  if thimbleOk s.mgmt.pat then (s, 0)
  else
    let b := s.mgmt.flash.2
    if s.fget MGT_BOOTSTAT F.MGT_BOOTSTAT_COPY = 1 then (s, C.MGT_E_PATTERN_SIG)
    else if copyStatus s b ≠ 0 then (s, copyStatus s b)
    else if thimbleOk b = false then (s, C.MGT_E_PATTERN_SIG)
    else ({ s.fset MGT_BOOTSTAT F.MGT_BOOTSTAT_COPY 1 with mgmt := { s.mgmt with pat := b } }, 0)

/-- The DeviceID key pair, the alias key pair of this MR0, and the certificate that the one signs for the other (R506). -/
def deriveKeys (s : State) : State :=
  let a := Config.aliasKey (mrBytes s 0)
  { s with mgmt := { s.mgmt with deviceKey := some Config.deviceKey, aliasKey := some a, aliasCert := Config.signCert Config.deviceKey a } }

/-- Step 5: MR0 is extended and locked, the keys are derived, and Thimble is entered. -/
def enterThimble (s : State) : State :=
  let p := s.mgmt.pat
  let s1 := deriveKeys (measure s (sectsOf p (· == 1)))
  let s2 := (s1.fset MGT_MREXT F.MGT_MREXT_LOCK0 1).fset MGT_BOOTSTAT F.MGT_BOOTSTAT_SVN (patWord p 12 2)
  { s2 with mgmt := { s2.mgmt with run := true } }

/-- Sections that step 6 reads, and those that step 9 reads. -/
def early (ty : Nat) : Bool := 5 ≤ ty
def late (ty : Nat) : Bool := 2 ≤ ty && ty ≤ 4

/-- Step 6 of a cold boot. -/
def bootConfig (s : State) : State × Nat :=
  let p := s.mgmt.pat
  if contentsOk p = false then (s, C.MGT_E_PATTERN_FMT)
  else if (sectsOf p early).all (digestOk p) = false then (s, C.MGT_E_PATTERN_SIG)
  else
    let s1 := measure s (sectsOf p early)
    let a := sectOfType p 5
    let b := sectOfType p 6
    let s2 := applySpools (sectOfType p 7) (applyRange b (applyMasks b (applyTuse a (applyAssign a s1))))
    let r := applyConfig (configEntries p) s2
    (r.2, r.1)

/-- Step 6 of a warm boot: the tables must be those that were locked. -/
def warmConfig (s : State) : State × Nat :=
  let p := s.mgmt.pat
  if contentsOk p = false then (s, C.MGT_E_PATTERN_FMT)
  else if (sectsOf p early).all (digestOk p) = false then (s, C.MGT_E_PATTERN_SIG)
  else if lockDigest p ≠ wordBytes (fun w => (s.rg (MGT_LOCKDIG w)).toNat) then (s, C.MGT_E_PATTERN_CHANGED)
  else (applyMasks (sectOfType p 6) (measure s (sectsOf p early)), 0)

/-- Step 7 begins: the Hem controllers of populated channels are switched on. -/
def hemsOn (s : State) : State :=
  (List.range 24).foldl (fun t h => if (t.hem h).present then (bootWrite (HEM_CTL h) (putf 0 F.HEM_CTL_EN 1) t).2 else t) s

/-- Step 7 is over: no ramp and no training is under way. -/
def trained (s : State) : Bool :=
  (List.range 24).all (fun h => !(rampReady s h || (s.hem h).gate == 1 || (s.hem h).gate == 3)) && (List.range 24).all (fun c => s.cstate c != csTRAINING)

/-- Step 8 begins: slot 0 of K0 and of each valid region is loaded from the generator (R195), and descriptor initialisation starts. -/
def loadKeys (s : State) : State :=
  (List.range 32).foldl (fun t k =>
    if (k = 0 ∨ t.fget (KEY_RGN k) F.KEY_RGN_VALID = 1) ∧ slotLive t k 0 = false then
      (bootWrite (KEY_RCTL k) (putf (putf 0 F.KEY_RCTL_LOAD 1) F.KEY_RCTL_GEN 1) t).2
    else t) s
def bootMemory (s : State) : State := if s.mgmt.dinit then loadKeys s else (bootWrite MGT_BOOTCTL (putf 0 F.MGT_BOOTCTL_DINIT 1) (loadKeys s)).2

/-- Address of a section's copy in the firmware range. -/
def destOf (s : State) (x : Sect) : Nat := s.fget MGT_FWBASE F.MGT_FWBASE_LA * 2 ^ 21 + x.dest

/-- Sections copied to the firmware range, line by line. -/
def copySects (s : State) (p : List Nat) (l : List Sect) : State := l.foldl (fun t x => coreBytes (bootCore t) (destOf t x) (x.len / 64 + 1) (sectBytes p x) t) s

/-- STITCH sections are installed in order, up to the first that fails. -/
def installSects (p : List Nat) : List Sect → State → Nat × State
  | [], s => (0, s)
  | x :: r, s =>
    let b := sectBytes p x
    let y := progInstall s x.arg (destOf s x) x.flags (some (b.take (imgLen (b.take 64))))
    if y.1 ≠ 0 then y else installSects p r y.2

/-- Step 9: HYP and GUEST, and, when `stitch`, STITCH. -/
def bootImages (stitch : Bool) (s : State) : State × Nat :=
  let p := s.mgmt.pat
  let l := sectsOf p late
  if l.all (digestOk p) = false then (s, C.MGT_E_PATTERN_SIG)
  else if l.all (fun x => inFirmware s (destOf s x) x.len) = false then (s, C.MGT_E_PATTERN_FMT)
  else
    let s1 := copySects (measure s l) p (if stitch then l else sectsOf p (fun t => t == 2 || t == 3))
    if stitch then (let r := installSects p (sectsOf p (· == 4)) s1; (r.2, r.1)) else (s1, 0)

/-- RELEASE is set on the ports of a mode (R115). -/
def releasePorts (mode : Nat) (s : State) : State :=
  (List.range 16).foldl (fun t p =>
    if t.fget (PRT_CFG p) F.PRT_CFG_MODE = mode then (bootWrite (PRT_CFG p) (putf (t.rg (PRT_CFG p)).toNat F.PRT_CFG_RELEASE 1) t).2 else t) s

/-- The cores that PARTS names: VALID in bit 0 and CORES in bits [4:1] of byte 0 of each entry. -/
def partCores (b : Bytes) : List Nat :=
  (List.range 4).filter (fun c => (List.range 32).any (fun n => bit (patWord b (16 + 16 * n) 1) 0 && bit (patWord b (16 + 16 * n) 1) (1 + c)))

/-- Step 11: C1 to C3 are released, and the hypervisor is entered. -/
def releaseCores (s : State) : State :=
  let s1 := (List.range 4).foldl (coreTo 0) s
  let p := s.mgmt.pat
  { s1 with mgmt := { s1.mgmt with hyp := if sectCount p 2 = 0 then [] else partCores (sectOfType p 6) } }

/-- What a step's end brings about: a status, and whether the step has ended at all. -/
def bootStep (k : Nat) (a b : List Nat) (s : State) : State × Nat × Bool :=
  let st := fun (r : State × Nat) => (r.1, r.2, true)
  let w := s.mgmt.warm
  match k with
  | 1 => (s, 0, true)
  | 2 => ({ s with sram := { s.sram with cols := s.sram.flaws } }, 0, true)
  | 3 => ({ coreTo 0 s (bootCore s) with mgmt := { (coreTo 0 s (bootCore s)).mgmt with flash := (a, b) } }, 0, true)
  | 4 => st (checkCopies s)
  | 5 => (let r := pickThimble s; if r.2 = 0 then (enterThimble r.1, 0, true) else (r.1, r.2, true))
  | 6 => if w then st (warmConfig s) else (let r := bootConfig s; if r.2 = 0 then (hemsOn r.1, 0, true) else (r.1, r.2, true))
  | 7 => if trained s then (bootMemory s, 0, true) else (s, 0, false)
  | 8 => (s, 0, s.mgmt.dinit && s.fget MGT_BOOTCTL F.MGT_BOOTCTL_BUSY == 0)
  | 9 => st (bootImages (!w) s)
  | 10 => (let r := bootWrite MGT_LOCK (putf 0 F.MGT_LOCK_LOCK 1) s; (r.2, r.1, true))
  | 11 => (releaseCores (if w then s else releasePorts 1 s), 0, true)
  | _ => ((releasePorts 0 s).fset MGT_BOOTSTAT F.MGT_BOOTSTAT_DONE 1, 0, true)

/-- The step after step `k`. -/
def stepAfter (warm : Bool) (k : Nat) : Nat := if warm then (if k = 6 then 9 else if k = 9 then 11 else k + 1) else k + 1

/-- The boot's next step ends. -/
def bootGo (a b : List Nat) (s : State) : State :=
  let k := s.mgmt.step + 1
  if s.pwr.held ≠ 0 ∨ s.pwr.pwrok = false ∨ s.pst ≠ 0 ∨ s.tap.driven ∨ s.mgmt.stopped ∨ 12 < k then s
  else
    let r := bootStep k a b s
    if r.2.2 = false then s
    else if r.2.1 ≠ 0 then bootStop r.1 r.2.1
    else if s.mgmt.warm ∧ k = 11 then { r.1 with mgmt := { r.1.mgmt with step := 12, warm := false } }
    else
      let n := stepAfter s.mgmt.warm k
      let s1 := { r.1 with mgmt := { r.1.mgmt with step := n - 1 } }
      if k = 12 then s1 else s1.fset MGT_BOOTSTAT F.MGT_BOOTSTAT_STAGE n

/-- A cold-boot step ends; `a` and `b` are what the flash holds as copy A and copy B, read at step 3. -/
def execColdBootStepComplete (a b : List Nat) (s : State) : Res := .next (bootGo a b s)

/-! The resume sequence of P3 (R529). -/

/-- Step 3: the Pattern is checked, the tables are compared, the MRs are rebuilt, and Thimble is entered. -/
def resumePattern (a b : List Nat) (s : State) : State × Nat :=
  let s0 := coreTo 0 s (bootCore s)
  let c := checkCopies { s0 with mgmt := { s0.mgmt with flash := (a, b) } }
  if c.2 ≠ 0 then c
  else
    let t := pickThimble c.1
    if t.2 ≠ 0 then t
    else
      let w := warmConfig (enterThimble (mrClear t.1))
      if w.2 ≠ 0 then w
      else
        let p := w.1.mgmt.pat
        (applySpools (sectOfType p 7) (applyTuse (sectOfType p 5) w.1), 0)

/-- Step 4: a channel whose checks fail is retrained. -/
def resumeChannels (failed : List Nat) (s : State) : State :=
  failed.foldl (fun t c => if c < 24 ∧ t.cstate c = csIN_SERVICE then chanUpd (t.setCstate c csRETRAINING) c (fun x => { x with trainStep := 4, trainRetried := false }) else t) s

/-- A resume step's end. -/
def resumeStep (k : Nat) (a b failed : List Nat) (s : State) : State × Nat :=
  match k with
  | 3 => resumePattern a b s
  | 4 => (resumeChannels failed s, 0)
  | 5 => bootImages true s
  | 6 => (let t := releaseCores s; ({ t with pst := 0 }, 0))
  | _ => (s, 0)

/-- The resume sequence's next step ends. -/
def resumeGo (a b failed : List Nat) (s : State) : State :=
  let k := s.pwr.resume
  if k = 0 ∨ s.pst ≠ 3 ∨ s.pwr.held ≠ 0 ∨ s.mgmt.stopped then s
  else
    let r := resumeStep k a b failed s
    if r.2 ≠ 0 then bootStop r.1 r.2 else { r.1 with pwr := { r.1.pwr with resume := if k = 6 then 0 else k + 1 } }

/-- A resume step ends; `a` and `b` are what the flash holds at step 3, `failed` the channels that fail step 4. -/
def execResumeStepComplete (a b failed : List Nat) (s : State) : Res := .next (resumeGo a b failed s)

end Sys2Proof.Machine
end

