-- ==== Sys2Proof/Machine/Dispatch.lean ====
section
/-! DEFINITION. One arm per command: a direct call of its meaning (R numbers stand at the meanings). -/

namespace Sys2Proof.Machine

/-- The effect of a command on everything but the queue. -/
def exec (i : Instr) (s : State) : Host.Outcome State Fault Refusal :=
  match i with
  | .controlSpaceWrite who off width val rival => Sys2Proof.Machine.execControlSpaceWrite who off width val rival s
  | .tokenTransfer plane row col dir inject inp cls flips => Sys2Proof.Machine.execTokenTransfer plane row col dir inject inp cls flips s
  | .stallWatchdog plane row col => Sys2Proof.Machine.execStallWatchdog plane row col s
  | .remapComplete plane => Sys2Proof.Machine.execRemapComplete plane s
  | .speedMeasurement counts => Sys2Proof.Machine.execSpeedMeasurement counts s
  | .start who val => Sys2Proof.Machine.execStart who val s
  | .planeEnWrite who val => Sys2Proof.Machine.execPlaneEnWrite who val s
  | .d2dLinkLoss => Sys2Proof.Machine.execD2dLinkLoss s
  | .descriptorFill page => Sys2Proof.Machine.execDescriptorFill page s
  | .descriptorEvict page => Sys2Proof.Machine.execDescriptorEvict page s
  | .cxlMemRequest p op mv hpa tag data mask poison ideOk => Sys2Proof.Machine.execCxlMemRequest p op mv hpa tag data mask poison ideOk s
  | .guestRequest req => Sys2Proof.Machine.execGuestRequest req s
  | .perstAssert p => Sys2Proof.Machine.execPerstAssert p s
  | .perstRelease p => Sys2Proof.Machine.execPerstRelease p s
  | .surpriseLinkDown p => Sys2Proof.Machine.execSurpriseLinkDown p s
  | .hotReset p => Sys2Proof.Machine.execHotReset p s
  | .linkDisable p => Sys2Proof.Machine.execLinkDisable p s
  | .cxlReset p => Sys2Proof.Machine.execCxlReset p s
  | .functionLevelReset p => Sys2Proof.Machine.execFunctionLevelReset p s
  | .linkUp p width speed flit => Sys2Proof.Machine.execLinkUp p width speed flit s
  | .l0pWidthChange p width => Sys2Proof.Machine.execL0pWidthChange p width s
  | .linkRecovery p => Sys2Proof.Machine.execLinkRecovery p s
  | .release who p val => Sys2Proof.Machine.execRelease who p val s
  | .hmapaWrite who p n val => Sys2Proof.Machine.execHmapaWrite who p n val s
  | .hmapbWrite who p n val => Sys2Proof.Machine.execHmapbWrite who p n val s
  | .dpalayoutWrite who p val => Sys2Proof.Machine.execDpalayoutWrite who p val s
  | .hdmCommit p idx base size skip ways gran bi lock commit => Sys2Proof.Machine.execHdmCommit p idx base size skip ways gran bi lock commit s
  | .initiateDynamicCapacityAdd p offer => Sys2Proof.Machine.execInitiateDynamicCapacityAdd p offer s
  | .addDcResponse p extents => Sys2Proof.Machine.execAddDcResponse p extents s
  | .releaseDc p extents => Sys2Proof.Machine.execReleaseDc p extents s
  | .forcedRelease p ask len => Sys2Proof.Machine.execForcedRelease p ask len s
  | .getEventRecords p log => Sys2Proof.Machine.execGetEventRecords p log s
  | .clearEventRecords p log all handles => Sys2Proof.Machine.execClearEventRecords p log all handles s
  | .getEventInterruptPolicy p => Sys2Proof.Machine.execGetEventInterruptPolicy p s
  | .setEventInterruptPolicy p policy => Sys2Proof.Machine.execSetEventInterruptPolicy p policy s
  | .getFwInfo p => Sys2Proof.Machine.execGetFwInfo p s
  | .getTimestamp p => Sys2Proof.Machine.execGetTimestamp p s
  | .setTimestamp p value => Sys2Proof.Machine.execSetTimestamp p value s
  | .getSupportedLogs p => Sys2Proof.Machine.execGetSupportedLogs p s
  | .getLog p uuid off len => Sys2Proof.Machine.execGetLog p uuid off len s
  | .identifyMemoryDevice p => Sys2Proof.Machine.execIdentifyMemoryDevice p s
  | .getPartitionInfo p => Sys2Proof.Machine.execGetPartitionInfo p s
  | .getHealthInfo p => Sys2Proof.Machine.execGetHealthInfo p s
  | .getAlertConfiguration p => Sys2Proof.Machine.execGetAlertConfiguration p s
  | .setAlertConfiguration p alerts => Sys2Proof.Machine.execSetAlertConfiguration p alerts s
  | .getPoisonList p dpa len => Sys2Proof.Machine.execGetPoisonList p dpa len s
  | .injectPoison p dpa => Sys2Proof.Machine.execInjectPoison p dpa s
  | .clearPoison p dpa data => Sys2Proof.Machine.execClearPoison p dpa data s
  | .getDcConfiguration p => Sys2Proof.Machine.execGetDcConfiguration p s
  | .getDcExtentList p => Sys2Proof.Machine.execGetDcExtentList p s
  | .getSpoolAssignment p => Sys2Proof.Machine.execGetSpoolAssignment p s
  | .resetSpool p q => Sys2Proof.Machine.execResetSpool p q s
  | .getProgramDirectory p => Sys2Proof.Machine.execGetProgramDirectory p s
  | .getStatusDetail p => Sys2Proof.Machine.execGetStatusDetail p s
  | .mailboxUnsupported p op => Sys2Proof.Machine.execMailboxUnsupported p op s
  | .cdatRead p off len => Sys2Proof.Machine.execCdatRead p off len s
  | .spdmRequest transport code arg => Sys2Proof.Machine.execSpdmRequest transport code arg s
  | .cxlIdeKm p op key => Sys2Proof.Machine.execCxlIdeKm p op key s
  | .homeReadShared req => Sys2Proof.Machine.execHomeReadShared req s
  | .homeReadExclusive req => Sys2Proof.Machine.execHomeReadExclusive req s
  | .homeReadCurrent req => Sys2Proof.Machine.execHomeReadCurrent req s
  | .homeWrite req => Sys2Proof.Machine.execHomeWrite req s
  | .homeWriteBack req => Sys2Proof.Machine.execHomeWriteBack req s
  | .homeCleanEvict req => Sys2Proof.Machine.execHomeCleanEvict req s
  | .recallResponse la bit rsp data poison => Sys2Proof.Machine.execRecallResponse la bit rsp data poison s
  | .snoopTimeout la p => Sys2Proof.Machine.execSnoopTimeout la p s
  | .proxySnoop node tid => Sys2Proof.Machine.execProxySnoop node tid s
  | .dirRecallStart who val => Sys2Proof.Machine.execDirRecallStart who val s
  | .recallComplete => Sys2Proof.Machine.execRecallComplete s
  | .lineWriteback la => Sys2Proof.Machine.execLineWriteback la s
  | .waitingWriteResume la => Sys2Proof.Machine.execWaitingWriteResume la s
  | .heldLineWriteback la => Sys2Proof.Machine.execHeldLineWriteback la s
  | .waitingReadResume c => Sys2Proof.Machine.execWaitingReadResume c s
  | .flushStart who val => Sys2Proof.Machine.execFlushStart who val s
  | .flushComplete => Sys2Proof.Machine.execFlushComplete s
  | .coldSegmentRead la => Sys2Proof.Machine.execColdSegmentRead la s
  | .pleatLaneGrant u => Sys2Proof.Machine.execPleatLaneGrant u s
  | .promotion la => Sys2Proof.Machine.execPromotion la s
  | .stripeCloseTimeout g => Sys2Proof.Machine.execStripeCloseTimeout g s
  | .stripeWritten g idx => Sys2Proof.Machine.execStripeWritten g idx s
  | .demoteFinish lpn => Sys2Proof.Machine.execDemoteFinish lpn s
  | .logTailWrite who g val => Sys2Proof.Machine.execLogTailWrite who g val s
  | .gussetRangeWrite who n val => Sys2Proof.Machine.execGussetRangeWrite who n val s
  | .keyRegionWrite who k val => Sys2Proof.Machine.execKeyRegionWrite who k val s
  | .keyLoad who k val => Sys2Proof.Machine.execKeyLoad who k val s
  | .keyCurWrite who k val => Sys2Proof.Machine.execKeyCurWrite who k val s
  | .keyErase who k val => Sys2Proof.Machine.execKeyErase who k val s
  | .keySweepStart who val => Sys2Proof.Machine.execKeySweepStart who val s
  | .sweepPage => Sys2Proof.Machine.execSweepPage s
  | .keySweepStop who val => Sys2Proof.Machine.execKeySweepStop who val s
  | .linkKeyLoad who val => Sys2Proof.Machine.execLinkKeyLoad who val s
  | .keyFUnit c => Sys2Proof.Machine.execKeyFUnit c s
  | .programLaunch b => Sys2Proof.Machine.execProgramLaunch b s
  | .stAdd b rd rs1 rs2 => Sys2Proof.Machine.execStAdd b rd rs1 rs2 s
  | .stSub b rd rs1 rs2 => Sys2Proof.Machine.execStSub b rd rs1 rs2 s
  | .stAnd b rd rs1 rs2 => Sys2Proof.Machine.execStAnd b rd rs1 rs2 s
  | .stOr b rd rs1 rs2 => Sys2Proof.Machine.execStOr b rd rs1 rs2 s
  | .stXor b rd rs1 rs2 => Sys2Proof.Machine.execStXor b rd rs1 rs2 s
  | .stAndn b rd rs1 rs2 => Sys2Proof.Machine.execStAndn b rd rs1 rs2 s
  | .stSll b rd rs1 rs2 => Sys2Proof.Machine.execStSll b rd rs1 rs2 s
  | .stSrl b rd rs1 rs2 => Sys2Proof.Machine.execStSrl b rd rs1 rs2 s
  | .stSra b rd rs1 rs2 => Sys2Proof.Machine.execStSra b rd rs1 rs2 s
  | .stRotr b rd rs1 rs2 => Sys2Proof.Machine.execStRotr b rd rs1 rs2 s
  | .stSlt b rd rs1 rs2 => Sys2Proof.Machine.execStSlt b rd rs1 rs2 s
  | .stSltu b rd rs1 rs2 => Sys2Proof.Machine.execStSltu b rd rs1 rs2 s
  | .stMul b rd rs1 rs2 => Sys2Proof.Machine.execStMul b rd rs1 rs2 s
  | .stMulhu b rd rs1 rs2 => Sys2Proof.Machine.execStMulhu b rd rs1 rs2 s
  | .stDivu b rd rs1 rs2 => Sys2Proof.Machine.execStDivu b rd rs1 rs2 s
  | .stRemu b rd rs1 rs2 => Sys2Proof.Machine.execStRemu b rd rs1 rs2 s
  | .stDiv b rd rs1 rs2 => Sys2Proof.Machine.execStDiv b rd rs1 rs2 s
  | .stRem b rd rs1 rs2 => Sys2Proof.Machine.execStRem b rd rs1 rs2 s
  | .stClz b rd rs1 => Sys2Proof.Machine.execStClz b rd rs1 s
  | .stCtz b rd rs1 => Sys2Proof.Machine.execStCtz b rd rs1 s
  | .stPopc b rd rs1 => Sys2Proof.Machine.execStPopc b rd rs1 s
  | .stBswap b rd rs1 => Sys2Proof.Machine.execStBswap b rd rs1 s
  | .stAddi b rd rs1 imm => Sys2Proof.Machine.execStAddi b rd rs1 imm s
  | .stAndi b rd rs1 imm => Sys2Proof.Machine.execStAndi b rd rs1 imm s
  | .stOri b rd rs1 imm => Sys2Proof.Machine.execStOri b rd rs1 imm s
  | .stXori b rd rs1 imm => Sys2Proof.Machine.execStXori b rd rs1 imm s
  | .stSlti b rd rs1 imm => Sys2Proof.Machine.execStSlti b rd rs1 imm s
  | .stSltiu b rd rs1 imm => Sys2Proof.Machine.execStSltiu b rd rs1 imm s
  | .stShi b rd rs1 imm => Sys2Proof.Machine.execStShi b rd rs1 imm s
  | .stIns16 b rd k imm => Sys2Proof.Machine.execStIns16 b rd k imm s
  | .stRdsys b rd imm => Sys2Proof.Machine.execStRdsys b rd imm s
  | .stBeq b rs1 rs2 off => Sys2Proof.Machine.execStBeq b rs1 rs2 off s
  | .stBne b rs1 rs2 off => Sys2Proof.Machine.execStBne b rs1 rs2 off s
  | .stBlt b rs1 rs2 off => Sys2Proof.Machine.execStBlt b rs1 rs2 off s
  | .stBge b rs1 rs2 off => Sys2Proof.Machine.execStBge b rs1 rs2 off s
  | .stBltu b rs1 rs2 off => Sys2Proof.Machine.execStBltu b rs1 rs2 off s
  | .stBgeu b rs1 rs2 off => Sys2Proof.Machine.execStBgeu b rs1 rs2 off s
  | .stJal b rd imm => Sys2Proof.Machine.execStJal b rd imm s
  | .stJalr b rd rs1 imm => Sys2Proof.Machine.execStJalr b rd rs1 imm s
  | .stVmov b rd rs1 => Sys2Proof.Machine.execStVmov b rd rs1 s
  | .stVxor b rd rs1 rs2 => Sys2Proof.Machine.execStVxor b rd rs1 rs2 s
  | .stVand b rd rs1 rs2 => Sys2Proof.Machine.execStVand b rd rs1 rs2 s
  | .stVor b rd rs1 rs2 => Sys2Proof.Machine.execStVor b rd rs1 rs2 s
  | .stVzero b rd => Sys2Proof.Machine.execStVzero b rd s
  | .stVget b rd rs1 idx => Sys2Proof.Machine.execStVget b rd rs1 idx s
  | .stVput b rd rs1 idx => Sys2Proof.Machine.execStVput b rd rs1 idx s
  | .stVcmp b rd rs1 rs2 => Sys2Proof.Machine.execStVcmp b rd rs1 rs2 s
  | .stLds b rt rb fn imm => Sys2Proof.Machine.execStLds b rt rb fn imm s
  | .stSts b rt rb fn imm => Sys2Proof.Machine.execStSts b rt rb fn imm s
  | .stLdv b rt rb imm => Sys2Proof.Machine.execStLdv b rt rb imm s
  | .stStv b rt rb imm => Sys2Proof.Machine.execStStv b rt rb imm s
  | .stAadd b rd rs1 rs2 => Sys2Proof.Machine.execStAadd b rd rs1 rs2 s
  | .stAswp b rd rs1 rs2 => Sys2Proof.Machine.execStAswp b rd rs1 rs2 s
  | .stLdl b rt rb imm => Sys2Proof.Machine.execStLdl b rt rb imm s
  | .ldlReturn b no => Sys2Proof.Machine.execLdlReturn b no s
  | .stStl b rt rb imm => Sys2Proof.Machine.execStStl b rt rb imm s
  | .stStlm b rd rs1 rs2 => Sys2Proof.Machine.execStStlm b rd rs1 rs2 s
  | .storeResult b no => Sys2Proof.Machine.execStoreResult b no s
  | .stCopy b rd rs rl tag flags => Sys2Proof.Machine.execStCopy b rd rs rl tag flags s
  | .stFill b rd rs rl tag flags => Sys2Proof.Machine.execStFill b rd rs rl tag flags s
  | .stCrc32c b rd rs rl tag flags => Sys2Proof.Machine.execStCrc32c b rd rs rl tag flags s
  | .stHash64 b rd rs rl tag flags => Sys2Proof.Machine.execStHash64 b rd rs rl tag flags s
  | .stScan b rd rs rl tag flags => Sys2Proof.Machine.execStScan b rd rs rl tag flags s
  | .stCmpr b rd rs rl tag flags => Sys2Proof.Machine.execStCmpr b rd rs rl tag flags s
  | .stDcmpr b rd rs rl tag flags => Sys2Proof.Machine.execStDcmpr b rd rs rl tag flags s
  | .stMigrate b rd rs rl tag flags => Sys2Proof.Machine.execStMigrate b rd rs rl tag flags s
  | .stMigrateRelocate b rd rs rl tag flags => Sys2Proof.Machine.execStMigrateRelocate b rd rs rl tag flags s
  | .stitchDone b tag => Sys2Proof.Machine.execStitchDone b tag s
  | .stWait b rd tag => Sys2Proof.Machine.execStWait b rd tag s
  | .stTest b rd tag => Sys2Proof.Machine.execStTest b rd tag s
  | .stTres b rd tag => Sys2Proof.Machine.execStTres b rd tag s
  | .stFenceL b => Sys2Proof.Machine.execStFenceL b s
  | .stFenceT b => Sys2Proof.Machine.execStFenceT b s
  | .stFenceA b => Sys2Proof.Machine.execStFenceA b s
  | .stDescrd b rd rs1 rs2 => Sys2Proof.Machine.execStDescrd b rd rs1 rs2 s
  | .stDescwr b rd rs1 rs2 => Sys2Proof.Machine.execStDescwr b rd rs1 rs2 s
  | .stDescacc b rd rs1 rs2 => Sys2Proof.Machine.execStDescacc b rd rs1 rs2 s
  | .stDesccas b rd rs1 rs2 => Sys2Proof.Machine.execStDesccas b rd rs1 rs2 s
  | .stPromote b rd rs1 => Sys2Proof.Machine.execStPromote b rd rs1 s
  | .stDemote b rd rs1 => Sys2Proof.Machine.execStDemote b rd rs1 s
  | .stFramepush b rd rs1 => Sys2Proof.Machine.execStFramepush b rd rs1 s
  | .stPost b rd rs1 rs2 => Sys2Proof.Machine.execStPost b rd rs1 rs2 s
  | .stEnd b => Sys2Proof.Machine.execStEnd b s
  | .illegalInstruction b => Sys2Proof.Machine.execIllegalInstruction b s
  | .programDrainComplete b => Sys2Proof.Machine.execProgramDrainComplete b s
  | .programTimeout b => Sys2Proof.Machine.execProgramTimeout b s
  | .bobbinEngineFault b => Sys2Proof.Machine.execBobbinEngineFault b s
  | .spoolDoorbell who q val => Sys2Proof.Machine.execSpoolDoorbell who q val s
  | .spoolConsume q => Sys2Proof.Machine.execSpoolConsume q s
  | .slotReread q => Sys2Proof.Machine.execSlotReread q s
  | .en who q val => Sys2Proof.Machine.execEn who q val s
  | .splReset who q val => Sys2Proof.Machine.execSplReset who q val s
  | .spoolResetFinish q => Sys2Proof.Machine.execSpoolResetFinish q s
  | .spoolAbort who q val => Sys2Proof.Machine.execSpoolAbort who q val s
  | .capabilityWrite who q w val => Sys2Proof.Machine.execCapabilityWrite who q w val s
  | .ringBaseWrite who q cq val => Sys2Proof.Machine.execRingBaseWrite who q cq val s
  | .drain who b val => Sys2Proof.Machine.execDrain who b val s
  | .spoolIrqDelay q => Sys2Proof.Machine.execSpoolIrqDelay q s
  | .flitTransmit p => Sys2Proof.Machine.execFlitTransmit p s
  | .flitReceive p flit => Sys2Proof.Machine.execFlitReceive p flit s
  | .replayTimeout p => Sys2Proof.Machine.execReplayTimeout p s
  | .skipBlock p copiesA copiesB => Sys2Proof.Machine.execSkipBlock p copiesA copiesB s
  | .linkTrain p => Sys2Proof.Machine.execLinkTrain p s
  | .linkAligned p => Sys2Proof.Machine.execLinkAligned p s
  | .rsyncSend p => Sys2Proof.Machine.execRsyncSend p s
  | .rsyncReceive p flit => Sys2Proof.Machine.execRsyncReceive p flit s
  | .symbolLockLoss p => Sys2Proof.Machine.execSymbolLockLoss p s
  | .retrainAttemptEnd p => Sys2Proof.Machine.execRetrainAttemptEnd p s
  | .linkDown p => Sys2Proof.Machine.execLinkDown p s
  | .messageRoute p vc => Sys2Proof.Machine.execMessageRoute p vc s
  | .transactionIssue ask => Sys2Proof.Machine.execTransactionIssue ask s
  | .lostnoteReceive p => Sys2Proof.Machine.execLostnoteReceive p s
  | .transactionRetry tid => Sys2Proof.Machine.execTransactionRetry tid s
  | .completionReceive p vc => Sys2Proof.Machine.execCompletionReceive p vc s
  | .graceExpiry tid => Sys2Proof.Machine.execGraceExpiry tid s
  | .transactionArrival p vc => Sys2Proof.Machine.execTransactionArrival p vc s
  | .skipReceive p => Sys2Proof.Machine.execSkipReceive p s
  | .svcNotice p => Sys2Proof.Machine.execSvcNotice p s
  | .fabDfclear who val => Sys2Proof.Machine.execFabDfclear who val s
  | .routeWrite who d val => Sys2Proof.Machine.execRouteWrite who d val s
  | .timeSet who val => Sys2Proof.Machine.execTimeSet who val s
  | .notchExchange p => Sys2Proof.Machine.execNotchExchange p s
  | .notchsync p => Sys2Proof.Machine.execNotchsync p s
  | .notchfup p => Sys2Proof.Machine.execNotchfup p s
  | .notchreq p => Sys2Proof.Machine.execNotchreq p s
  | .notchrsp p => Sys2Proof.Machine.execNotchrsp p s
  | .holdover => Sys2Proof.Machine.execHoldover s
  | .holdoverTimeout => Sys2Proof.Machine.execHoldoverTimeout s
  | .dramRequestAdmit c req => Sys2Proof.Machine.execDramRequestAdmit c req s
  | .dramCommandIssue c ready port => Sys2Proof.Machine.execDramCommandIssue c ready port s
  | .dramReadComplete c id err => Sys2Proof.Machine.execDramReadComplete c id err s
  | .rowTestComplete c pass spare => Sys2Proof.Machine.execRowTestComplete c pass spare s
  | .dramWriteComplete c id => Sys2Proof.Machine.execDramWriteComplete c id s
  | .refreshDue c => Sys2Proof.Machine.execRefreshDue c s
  | .mr4Read c hot => Sys2Proof.Machine.execMr4Read c hot s
  | .caParityAlert c id => Sys2Proof.Machine.execCaParityAlert c id s
  | .scrubStart who c val => Sys2Proof.Machine.execScrubStart who c val s
  | .scrubComplete c => Sys2Proof.Machine.execScrubComplete c s
  | .channelTrain c mod0 mod1 => Sys2Proof.Machine.execChannelTrain c mod0 mod1 s
  | .trainingStepComplete c ok => Sys2Proof.Machine.execTrainingStepComplete c ok s
  | .dqsTracking c rank delta => Sys2Proof.Machine.execDqsTracking c rank delta s
  | .zqCalibration c => Sys2Proof.Machine.execZqCalibration c s
  | .channelDrain who c val => Sys2Proof.Machine.execChannelDrain who c val s
  | .fence who c val => Sys2Proof.Machine.execFence who c val s
  | .retrain who c val => Sys2Proof.Machine.execRetrain who c val s
  | .channelRequestProceed c => Sys2Proof.Machine.execChannelRequestProceed c s
  | .channelRequestTimeout c => Sys2Proof.Machine.execChannelRequestTimeout c s
  | .retrainComplete c ok => Sys2Proof.Machine.execRetrainComplete c ok s
  | .channelTestComplete c pass => Sys2Proof.Machine.execChannelTestComplete c pass s
  | .pmicFault c => Sys2Proof.Machine.execPmicFault c s
  | .rebuildRingPoll c => Sys2Proof.Machine.execRebuildRingPoll c s
  | .rebuildFrame c => Sys2Proof.Machine.execRebuildFrame c s
  | .rbringEn who c val => Sys2Proof.Machine.execRbringEn who c val s
  | .sramAccess bank word kind val mask upset => Sys2Proof.Machine.execSramAccess bank word kind val mask upset s
  | .backgroundRegionTest quad => Sys2Proof.Machine.execBackgroundRegionTest quad s
  | .sramTestStart who val => Sys2Proof.Machine.execSramTestStart who val s
  | .regionTestComplete bank result => Sys2Proof.Machine.execRegionTestComplete bank result s
  | .regulatePeriod c => Sys2Proof.Machine.execRegulatePeriod c s
  | .regulationWindow c => Sys2Proof.Machine.execRegulationWindow c s
  | .qosShareWrite who m occ val => Sys2Proof.Machine.execQosShareWrite who m occ val s
  | .clear who h val => Sys2Proof.Machine.execClear who h val s
  | .go who val => Sys2Proof.Machine.execGo who val s
  | .snapshotBroadcast => Sys2Proof.Machine.execSnapshotBroadcast s
  | .faultReport r => Sys2Proof.Machine.execFaultReport r s
  | .selftestComplete src lasting => Sys2Proof.Machine.execSelftestComplete src lasting s
  | .selftestNoWindow src elem => Sys2Proof.Machine.execSelftestNoWindow src elem s
  | .collectorCheckFailure src glob => Sys2Proof.Machine.execCollectorCheckFailure src glob s
  | .ack who val => Sys2Proof.Machine.execAck who val s
  | .readmitGo who val => Sys2Proof.Machine.execReadmitGo who val s
  | .readmitStageComplete pass => Sys2Proof.Machine.execReadmitStageComplete pass s
  | .exitBastingWrite who val => Sys2Proof.Machine.execExitBastingWrite who val s
  | .haltRelease who pass val => Sys2Proof.Machine.execHaltRelease who pass val s
  | .version core => Sys2Proof.Machine.execVersion core s
  | .faultNext core buf => Sys2Proof.Machine.execFaultNext core buf s
  | .faultAck core idx => Sys2Proof.Machine.execFaultAck core idx s
  | .readmit core src elem => Sys2Proof.Machine.execReadmit core src elem s
  | .exitBasting core => Sys2Proof.Machine.execExitBasting core s
  | .keyCtlLoad core region slot => Sys2Proof.Machine.execKeyCtlLoad core region slot s
  | .keyCtlSetCur core region slot => Sys2Proof.Machine.execKeyCtlSetCur core region slot s
  | .keyCtlErase core region => Sys2Proof.Machine.execKeyCtlErase core region s
  | .keyCtlSetRange core region base limit => Sys2Proof.Machine.execKeyCtlSetRange core region base limit s
  | .progInstall core id addr classes => Sys2Proof.Machine.execProgInstall core id addr classes s
  | .progRemove core id => Sys2Proof.Machine.execProgRemove core id s
  | .measure core idx addr => Sys2Proof.Machine.execMeasure core idx addr s
  | .debugN core bits => Sys2Proof.Machine.execDebugN core bits s
  | .warmReset core => Sys2Proof.Machine.execWarmReset core s
  | .svnCommit core => Sys2Proof.Machine.execSvnCommit core s
  | .ecallNoService core n => Sys2Proof.Machine.execEcallNoService core n s
  | .assignmentLock who val => Sys2Proof.Machine.execAssignmentLock who val s
  | .dinit who val => Sys2Proof.Machine.execDinit who val s
  | .dinitComplete => Sys2Proof.Machine.execDinitComplete s
  | .warm who val => Sys2Proof.Machine.execWarm who val s
  | .corerst who val => Sys2Proof.Machine.execCorerst who val s
  | .mrextGo who val => Sys2Proof.Machine.execMrextGo who val s
  | .lock0 who val => Sys2Proof.Machine.execLock0 who val s
  | .watchdogExpiry => Sys2Proof.Machine.execWatchdogExpiry s
  | .kick who val => Sys2Proof.Machine.execKick who val s
  | .coldReset kind railsOk => Sys2Proof.Machine.execColdReset kind railsOk s
  | .coldBootStepComplete a b => Sys2Proof.Machine.execColdBootStepComplete a b s
  | .pwrokFall => Sys2Proof.Machine.execPwrokFall s
  | .debugHaltRequest core kind trusted => Sys2Proof.Machine.execDebugHaltRequest core kind trusted s
  | .p1Entry => Sys2Proof.Machine.execP1Entry s
  | .p1Exit => Sys2Proof.Machine.execP1Exit s
  | .p2Entry who val => Sys2Proof.Machine.execP2Entry who val s
  | .p3Entry who val => Sys2Proof.Machine.execP3Entry who val s
  | .p4Entry who val => Sys2Proof.Machine.execP4Entry who val s
  | .powerEntryComplete => Sys2Proof.Machine.execPowerEntryComplete s
  | .wake src => Sys2Proof.Machine.execWake src s
  | .timerWake => Sys2Proof.Machine.execTimerWake s
  | .resumeStepComplete a b failed => Sys2Proof.Machine.execResumeStepComplete a b failed s
  | .gate who u val => Sys2Proof.Machine.execGate who u val s
  | .reqMv who val => Sys2Proof.Machine.execReqMv who val s
  | .rampStart h => Sys2Proof.Machine.execRampStart h s
  | .powerGood h => Sys2Proof.Machine.execPowerGood h s
  | .hemFGateStuck h => Sys2Proof.Machine.execHemFGateStuck h s
  | .currentLimit h => Sys2Proof.Machine.execCurrentLimit h s
  | .currentLimitClear h => Sys2Proof.Machine.execCurrentLimitClear h s
  | .hemFOvercurrent h => Sys2Proof.Machine.execHemFOvercurrent h s
  | .hemFShort h => Sys2Proof.Machine.execHemFShort h s
  | .hemWVinLow h => Sys2Proof.Machine.execHemWVinLow h s
  | .retryExpiry h => Sys2Proof.Machine.execRetryExpiry h s
  | .presenceEdge h low => Sys2Proof.Machine.execPresenceEdge h low s
  | .railOff who h val => Sys2Proof.Machine.execRailOff who h val s
  | .railOn who h val => Sys2Proof.Machine.execRailOn who h val s
  | .clrpeak who h val => Sys2Proof.Machine.execClrpeak who h val s
  | .hemCfgWrite who h val => Sys2Proof.Machine.execHemCfgWrite who h val s
  | .telemetryConversion h mv uv => Sys2Proof.Machine.execTelemetryConversion h mv uv s
  | .trackingWindow p l eye prop => Sys2Proof.Machine.execTrackingWindow p l eye prop s
  | .trimStep p l => Sys2Proof.Machine.execTrimStep p l s
  | .recalibrate who val => Sys2Proof.Machine.execRecalibrate who val s
  | .laneCheck who val => Sys2Proof.Machine.execLaneCheck who val s
  | .recalStepComplete p prop eye errs => Sys2Proof.Machine.execRecalStepComplete p prop eye errs s
  | .calENoWindow p => Sys2Proof.Machine.execCalENoWindow p s
  | .calFLaneBurst p l count => Sys2Proof.Machine.execCalFLaneBurst p l count s
  | .laneCheckComplete p errs spareBad => Sys2Proof.Machine.execLaneCheckComplete p errs spareBad s
  | .prbsWrite who p l val => Sys2Proof.Machine.execPrbsWrite who p l val s
  | .clr who p l val => Sys2Proof.Machine.execClr who p l val s
  | .marchC who val => Sys2Proof.Machine.execMarchC who val s
  | .rowPerBank who val => Sys2Proof.Machine.execRowPerBank who val s
  | .moduleMbist who val => Sys2Proof.Machine.execModuleMbist who val s
  | .mbistComplete failed => Sys2Proof.Machine.execMbistComplete failed s
  | .extest => Sys2Proof.Machine.execExtest s
  | .idcode => Sys2Proof.Machine.execIdcode s
  | .samplePreload pins cells => Sys2Proof.Machine.execSamplePreload pins cells s
  | .clamp => Sys2Proof.Machine.execClamp s
  | .highz => Sys2Proof.Machine.execHighz s
  | .extestPulse => Sys2Proof.Machine.execExtestPulse s
  | .extestTrain => Sys2Proof.Machine.execExtestTrain s
  | .dtmcs => Sys2Proof.Machine.execDtmcs s
  | .dmi val => Sys2Proof.Machine.execDmi val s
  | .bist fails => Sys2Proof.Machine.execBist fails s
  | .bypass => Sys2Proof.Machine.execBypass s
  | .brownout rails => Sys2Proof.Machine.execBrownout rails s
  | .thermalTrip => Sys2Proof.Machine.execThermalTrip s
  | .sensorConversion core selv => Sys2Proof.Machine.execSensorConversion core selv s
  | .thermalPageWrite idx val => Sys2Proof.Machine.execThermalPageWrite idx val s
  | .d2dLinkReturn => Sys2Proof.Machine.execD2dLinkReturn s
  | .linkLocalMessage p vc => Sys2Proof.Machine.execLinkLocalMessage p vc s
  | .tuseWrite who idx val => Sys2Proof.Machine.execTuseWrite who idx val s
  | .vddCoreChange mv => Sys2Proof.Machine.execVddCoreChange mv s
  | .hostLinkL1Entry p => Sys2Proof.Machine.execHostLinkL1Entry p s

end Sys2Proof.Machine
end

