-- ==== Sys2Proof/Safety.lean ====
section
/-! DEFINITION. Safe runs and the vocabulary of the claims: the form that every step keeps, completion of a command, an admitted control-space write, and
what a command leaves alone. -/

namespace Sys2Proof.Machine

/-- The sparse tables of DRAM content and registers are in canonical form: keys rising, no entry at its default. -/
def State.memWf (s : State) : Bool :=
  tabWf regReset s.regs && tabWf (fun _ => (0 : Line)) s.dram.lines && tabWf (fun _ => false) s.dram.poison && tabWf (fun _ => (0 : BitVec 640)) s.dram.err &&
  tabWf (fun _ => false) s.dram.lack

/-- A step is safe when it answers a state. -/
def safeStep (s : State) : Bool := match step s with
  | .next _ => true
  | _ => false

/-- The command runs to its end in `s`, in a state of which `P` holds. -/
def completes (c : Instr) (s : State) (P : State → Prop) : Prop := ∃ t, exec c s = .next t ∧ P t

/-- A write of `val` to the register at `off` is served and passes every check of R3, R59, R490 and R496; `w` says which fields it changes. -/
def admitted (who : Who) (off : Nat) (val : Word) (s : State) (w : CtlWrite) : Prop :=
  ctlOpen s = true ∧ ctlCheck who off 8 val.toNat false s = .ok w ∧ w.worldErr = false

/-- The access ended with this status, as the last thing that the command put out. -/
def endedWith (who : Who) (off st : Nat) (t : State) : Prop := t.out.head? = some (.ctlDone who off st)

/-- The registers of the event counters (R449), which any event may change. -/
def counterReg (off : Nat) : Bool := (decide (0xA00000 ≤ off) && decide (off < 0xA03000)) || off == PMC_STAT

/-- Every register outside `ex` reads as before. -/
def regsKept (ex : Nat → Prop) (s t : State) : Prop := ∀ off, ¬ ex off → t.rg off = s.rg off

/-- The registers that record a refused access (R92, R497). -/
def errorReg (off : Nat) : Prop := off = MGT_CTLERR ∨ ∃ p, off = PRT_CTLERR p

/-- Every line of DRAM reads as before: its bytes, its poison and the errors its cells hold. -/
def dramKept (s t : State) : Prop :=
  ∀ k, tabGet (fun _ => (0 : Line)) t.dram.lines k = tabGet (fun _ => (0 : Line)) s.dram.lines k ∧
    tabGet (fun _ => false) t.dram.poison k = tabGet (fun _ => false) s.dram.poison k ∧
    tabGet (fun _ => (0 : BitVec 640)) t.dram.err k = tabGet (fun _ => (0 : BitVec 640)) s.dram.err k

/-- Only registers, the outputs and the marks of the level-mode counters differ. -/
def onlyRegisters (s t : State) : Prop := t = { s with regs := t.regs, out := t.out, levelNs := t.levelNs }

/-! Heads. -/

/-- Vector 0 of head `p`, the mailbox's, is masked in its MSI-X table (R91). -/
def vecMasked (s : State) (p : Nat) : Bool := bit (tabGet msixReset (s.port p).msixTab 1) 32

/-- The head is told that its mailbox command has ended: vector 0 is the last output, or stands pending where it is masked; its port is otherwise `x`. -/
def toldHost (s : State) (p : Nat) (x : Port) (t : State) : Prop :=
  (vecMasked s p = false → t.out.head? = some (.msix p 0)) ∧ t.port p = if vecMasked s p then { x with msixPend := withBit x.msixPend 0 true } else x

/-! Bobbins. -/

/-- No Pleat lane is wanted or held for an operation of Bobbin `b` itself (R182), and none of its instructions has a place in a page's order (R280). -/
def noLaneWork (s : State) (b : Nat) : Prop := (∀ w ∈ s.tier.pleat, w.la ≠ bobWork b) ∧ ∀ r ∈ s.home.waiting, r.who ≠ .desc b

/-- Bobbin `b` runs a program whose next instruction is the word `w`, which it has not begun; the text (at most 8,192 words) goes on after it (R253, R260). -/
def bobReady (s : State) (b w : Nat) : Prop :=
  b < 64 ∧ coreOpen s = true ∧ (s.bob b).run = 1 ∧ (s.bob b).opRd = none ∧ (s.bob b).disc = none ∧ noLaneWork s b ∧
    tabGet (fun _ => 0) (s.bob b).text (s.bob b).pc = w ∧ (s.bob b).pc + 1 < (s.bob b).words ∧ (s.bob b).words ≤ 8192

/-- The counters of Bobbin `b`'s retired and wasted slots, and the sticky bit of wraps (R449, R452). -/
def slotReg (b off : Nat) : Prop := off = PMC_CNT (0x400 + 4 * b) ∨ off = PMC_CNT (0x401 + 4 * b) ∨ off = PMC_STAT

/-- No load into line register `v` is under way (R266). -/
def lineFree (s : State) (b v : Nat) : Prop := ∀ l ∈ (s.bob b).loads, l.v ≠ v

/-- Every Bobbin but `b` is as before. -/
def othersKept (b : Nat) (s t : State) : Prop := ∀ c, c ≠ b → t.bob c = s.bob c

/-- The instruction of Bobbin `b` retires and leaves the program state `y`, with the PC on the next instruction. -/
def nextAt (b : Nat) (y : Bob) (s t : State) : Prop :=
  t.bob b = { y with pc := (s.bob b).pc + 1, last := (s.bob b).pc, waits := false } ∧ othersKept b s t

/-- As `nextAt`, and nothing but the Bobbin's state and its slot counters differs: no other register, no memory, no output. -/
def retired (b : Nat) (y : Bob) (s t : State) : Prop := nextAt b y s t ∧ t = { s with bobs := t.bobs, regs := t.regs } ∧ regsKept (slotReg b) s t

/-- The instruction's whole effect: `v` in general register `rd`; writes to g0 are discarded (R253). -/
def wroteG (b rd : Nat) (v : Word) (s t : State) : Prop :=
  (∀ r, (t.bob b).gr r = if r = rd ∧ r ≠ 0 then v else (s.bob b).gr r) ∧ retired b { s.bob b with g := (t.bob b).g } s t

/-- The instruction's whole effect: `v` with poison flag `p` in line register `rd`. -/
def wroteV (b rd : Nat) (v : Line) (p : Bool) (s t : State) : Prop :=
  (∀ r, (t.bob b).vr r = (if r = rd then v else (s.bob b).vr r) ∧ (t.bob b).vpois r = (if r = rd then p else (s.bob b).vpois r)) ∧
    retired b { s.bob b with v := (t.bob b).v, vp := (t.bob b).vp } s t

/-- The program of Bobbin `b` ends on a fault at instruction `idx` (R287): BOB_PROGFLT holds the status, index and Spool; the unclaimed slot of its command
is claimed with them, unless it has posted; its program state is otherwise `y`; nothing else changes but the event counters. -/
def programEnds (b st idx : Nat) (y : Bob) (s t : State) : Prop :=
  t.fget (BOB_PROGFLT b) F.BOB_PROGFLT_STATUS = st ∧ t.fget (BOB_PROGFLT b) F.BOB_PROGFLT_INDEX = idx ∧ t.fget (BOB_PROGFLT b) F.BOB_PROGFLT_VALID = 1 ∧
    t.fget (BOB_PROGFLT b) F.BOB_PROGFLT_SPOOL = (s.bob b).q % 1024 ∧
    t.bob b = { y with run := 2 } ∧ othersKept b s t ∧ ((s.bob b).posted = true → t.spools = s.spools) ∧
    ((s.bob b).posted = false → (∀ q, q ≠ (s.bob b).q → t.spool q = s.spool q) ∧
      t.spool (s.bob b).q = { s.spool (s.bob b).q with cmds := (s.spool (s.bob b).q).cmds.map (fun c =>
        if c.n = (s.bob b).n ∧ c.claim = none then { c with claim := some (st, idx) } else c) }) ∧
    t = { s with regs := t.regs, bobs := t.bobs, spools := t.spools, levelNs := t.levelNs } ∧
    regsKept (fun off => off = BOB_PROGFLT b ∨ counterReg off = true) s t

/-- The instruction at the PC faults with `st` and writes nothing (R256, R260 to R269). -/
def faultsWith (b st : Nat) (s t : State) : Prop := programEnds b st (s.bob b).pc { s.bob b with last := (s.bob b).pc } s t

/-! The home-agent slices. -/

/-- Nothing waits at the slices: no request, no write-back, no release of Dynamic Capacity, no descriptor in a bank that is out of use. -/
def nothingWaits (s : State) : Prop :=
  s.home.waiting = [] ∧ s.home.arrived = [] ∧ s.tier.wbQueue = [] ∧ (∀ x ∈ s.ports, x.2.releasing = []) ∧ ∀ x ∈ s.tier.dc, x.2.isSome = true → bankOut s (dcBank x.1) = false

/-- Nothing is under way at the slices, the line's plane is not being remapped, and the descriptor of its page is cached and not busy. -/
def homeQuiet (s : State) (la : Nat) : Prop :=
  nothingWaits s ∧ coreOpen s = true ∧ s.home.recalls = [] ∧ s.home.evicting = [] ∧ s.home.fwd = [] ∧ la % 64 = 0 ∧ (la < 2 ^ 47 → la / 4096 < pagesL s) ∧
    s.ftest GLB_ILNSTAT F.GLB_ILNSTAT_REMAP_BUSY (la / 64 % 4) = false ∧ busyOf s (la / 4096) = false ∧ (descOf s (la / 4096)).isSome = true

/-- The line is in way `k` of its share as `e`, clean or dirty. -/
def lineCached (s : State) (la k : Nat) (e : LcEntry) : Prop := lcFind s la = some (k, e) ∧ (e.st = .clean ∨ e.st = .dirty)

/-- The directory holds one entry, and it is the line's. -/
def onlyHolder (s : State) (la : Nat) (x : DirEntry) : Prop := ∃ k, s.home.dirEnt = [(k, some x)] ∧ dirFind s la = some (k, x)

end Sys2Proof.Machine
end

