-- ==== Sys2Proof/Certificates/Slice0/Obligations.lean ====
section
/-! DEFINITION. The statements for the provers. Each says which rules of spec/ it follows in its docstring. -/

open Sys2Proof Sys2Proof.Machine

/-- A step runs the command at the front of the queue on the state with its rest; with none waiting, a nanosecond passes (spec/00_scope.md, R517, R590, spec/10_seam_fabric.md). -/
def Obligations.StepRunsFrontCommand : Prop :=
  (∀ (s : State) (c : Instr) (rest : List Instr), s.pending = c :: rest → step s = exec c { s with pending := rest }) ∧
  (∀ s : State, s.pending = [] →
    (3 ≤ s.pst ∨ s.pwr.held ≠ 0 → step s = .next s) ∧
    (s.pst < 3 → s.pwr.held = 0 → ∃ t, step s = .next t ∧ t.dram = s.dram ∧ t.pending = [] ∧
      ((∀ e ∈ s.cal, e.2.prbs = []) → regsKept (fun off => counterReg off = true) s t ∧ ((∀ w < 24, s.rg (PMC_MODE w) = 0) → (∀ x ∈ s.bobs, x.2.run ≠ 1 ∧ x.2.run ≠ 3) → t.regs = s.regs)) ∧
      (s.fget FAB_TIMESTAT F.FAB_TIMESTAT_HOLDOVER = 0 → s.seam.corr = 0 → s.seam.frac = 0 → t.time = (s.time + 1) % 2 ^ 64)))

/-- A handshake moves a token one hop and leaves every other latch alone; a tripped watchdog reports its plane; REMAP_BUSY clears at the end (R29, R30, R40, spec/01_architecture_interlining.md). -/
def Obligations.TokensMoveStallsTripRemapsEnd : Prop :=
  (∀ (s : State) (plane row col dir inp cls : Nat) (fd : Line) (fc : Nat) (tok : Token), coreAlive s = true → plane < 4 → row < 8 → col < 8 → inp < 8 → cls < 3 →
    s.ftest GLB_ILNSTAT F.GLB_ILNSTAT_FENCED plane = false → latchAt s (latchKey plane row col inp cls) = some tok →
    dir = (if col < tok.dstCol then 2 else if tok.dstCol < col then 3 else if row < tok.dstRow then 1 else if tok.dstRow < row then 0 else 4) → dir ≠ 4 →
    let there := latchKey plane (neighbour row col dir).1 (neighbour row col dir).2.1 (neighbour row col dir).2.2 cls
    (latchAt s there = none → completes (.tokenTransfer plane row col dir none inp cls (fd, fc)) s (fun t =>
      latchAt t (latchKey plane row col inp cls) = none ∧
      latchAt t there = some { tok with data := tok.data ^^^ fd, check := tok.check ^^^ (fc % 65536) } ∧
      (∀ j, j ≠ latchKey plane row col inp cls → j ≠ there → latchAt t j = latchAt s j) ∧
      t = { s with iln := { s.iln with latch := t.iln.latch } })) ∧
    ((latchAt s there).isSome → exec (.tokenTransfer plane row col dir none inp cls (fd, fc)) s = .next s)) ∧
  (∀ (s : State) (plane : Nat), plane < 4 →
    (∀ row col, row < 8 → col < 8 → s.ftest GLB_ILNSTAT F.GLB_ILNSTAT_FENCED plane = false → nodeActive s plane row col = true →
      completes (.stallWatchdog plane row col) s (fun t => t.fget GLB_ILNSTAT F.GLB_ILNSTAT_STALL = 1 ∧
        (∀ n, tabGet (fun _ => 0) t.iln.trips n = tabGet (fun _ => 0) s.iln.trips n + if n = plane * 64 + row * 8 + col then 1 else 0) ∧
        t.reports = s.reports ++ [{ src := srcId 14 plane, elem := row * 8 + col, code := C.ILN_F_STALL, addr := 0, detail := 0, level := none }] ∧
        t = { s with regs := t.regs, reports := t.reports, levelNs := t.levelNs, iln := { s.iln with trips := t.iln.trips } } ∧
        regsKept (fun off => off = GLB_ILNSTAT ∨ counterReg off = true) s t)) ∧
    (s.ftest GLB_ILNSTAT F.GLB_ILNSTAT_REMAP_BUSY plane = true →
      ((∃ x ∈ s.iln.resend, x.1 = plane ∧ x.2.1 ≠ plane) → exec (.remapComplete plane) s = .next s) ∧
      ((∀ x ∈ s.iln.resend, x.1 = plane → x.2.1 = plane) → nothingWaits s →
        completes (.remapComplete plane) s (fun t => t.ftest GLB_ILNSTAT F.GLB_ILNSTAT_REMAP_BUSY plane = false ∧
          t.dram = s.dram ∧ regsKept (fun off => off = GLB_ILNSTAT) s t))))

/-- A token that fails its check is kept for a resend and reported; one that passes is accepted once and delivered in the order of its path (R32, R39, R40). -/
def Obligations.TokenCheckedAtDestination : Prop :=
  ∀ (s : State) (plane row col inp cls : Nat) (fd : Line) (fc : Nat) (tok : Token), coreAlive s = true → plane < 4 → row < 8 → col < 8 → inp < 8 → cls < 3 →
    s.ftest GLB_ILNSTAT F.GLB_ILNSTAT_FENCED plane = false → latchAt s (latchKey plane row col inp cls) = some tok → tok.dstRow = row → tok.dstCol = col →
    let got : Token := { tok with data := tok.data ^^^ fd, check := tok.check ^^^ (fc % 65536) }
    let mine := fun (x : Transit) => tokenTag x.tok = tokenTag tok
    let c : Instr := .tokenTransfer plane row col 4 none inp cls (fd, fc)
    (got.check ≠ checkOf got → completes c s (fun t =>
      latchAt t (latchKey plane row col inp cls) = none ∧
      t.iln.resend = s.iln.resend ++ (s.iln.held.filter (fun x => decide (mine x) && !x.got)).map (fun x => (plane, plane, x.tok)) ∧ t.iln.held = s.iln.held ∧
      t.fget GLB_ILNSTAT F.GLB_ILNSTAT_CHECK = 1 ∧ t.out = s.out ∧
      t.reports = s.reports ++ [{ src := srcId 14 plane, elem := 0, code := C.ILN_F_TOKEN_CHECK, addr := 0, detail := 0, level := none }] ∧
      t.dram = s.dram ∧ regsKept (fun off => off = GLB_ILNSTAT ∨ counterReg off = true) s t)) ∧
    (got.check = checkOf got → completes c s (fun t => latchAt t (latchKey plane row col inp cls) = none ∧
      t.iln.resend = s.iln.resend ∧ t.regs = s.regs ∧ t.dram = s.dram ∧ t.reports = s.reports ∧
      (s.iln.acked.contains (tokenTag tok) = true → t.out = s.out ∧ t.iln.acked = s.iln.acked ∧ t.iln.held = s.iln.held) ∧
      (s.iln.acked.contains (tokenTag tok) = false → t.iln.acked = s.iln.acked ++ [tokenTag tok] ∧
        (∀ x, s.iln.held = [x] → mine x → onPath tok.srcAgent tok.dstAgent plane x = true → t.out = .tokenDelivered plane x.tok :: s.out ∧ t.iln.held = []))))

/-- A PLANE_EN write that would leave no usable plane is not applied and ends with GLB_E_NO_PLANE (R41). -/
def Obligations.LastPlaneStaysEnabled : Prop :=
  ∀ (s : State) (c : Nat) (val : Word), ctlOpen s = true →
    let en := val.toNat % 16
    completes (.planeEnWrite (.trusted c) val) s (fun t =>
      (s.locked = false → en &&& (15 - s.fget GLB_ILNSTAT F.GLB_ILNSTAT_FENCED) = 0 →
        t.rg GLB_ILNCFG = s.rg GLB_ILNCFG ∧ endedWith (.trusted c) GLB_ILNCFG C.GLB_E_NO_PLANE t) ∧
      (s.locked = false → en &&& (15 - s.fget GLB_ILNSTAT F.GLB_ILNSTAT_FENCED) ≠ 0 →
        t.fget GLB_ILNCFG F.GLB_ILNCFG_PLANE_EN = en ∧ endedWith (.trusted c) GLB_ILNCFG 0 t) ∧
      (s.locked = true → t.rg GLB_ILNCFG = s.rg GLB_ILNCFG) ∧
      t = { s with regs := t.regs, out := t.out } ∧ regsKept (fun off => off = GLB_ILNCFG ∨ off = MGT_CTLERR) s t)

/-- START begins a single measurement; its end writes the slowest and the fastest replica and raises the alarms (R36, R37, spec/01_architecture_interlining.md). -/
def Obligations.SpeedMeasurementRuns : Prop :=
  (∀ (s : State) (who : Who) (val : Word) (w : CtlWrite), admitted who GLB_SPDCFG val s w → fld w.act F.GLB_SPDCFG_START = 1 →
    completes (.start who val) s (fun t => endedWith who GLB_SPDCFG 0 t ∧
      (fld w.new F.GLB_SPDCFG_CONT = 0 → t.iln.spd = true ∧ t.fget GLB_SPDCFG F.GLB_SPDCFG_DONE = 0) ∧
      (fld w.new F.GLB_SPDCFG_CONT ≠ 0 → t.iln = s.iln) ∧
      t = { s with regs := t.regs, out := t.out, iln := { s.iln with spd := t.iln.spd } } ∧ regsKept (fun off => off = GLB_SPDCFG) s t)) ∧
  (∀ (s : State) (counts : List Nat), coreAlive s = true → s.fget GLB_SPDCFG F.GLB_SPDCFG_CONT = 1 ∨ s.iln.spd = true →
    completes (.speedMeasurement counts) s (fun t => t.fget GLB_SPDCFG F.GLB_SPDCFG_DONE = 1 ∧ t.iln.spd = false ∧
      (∀ n < 16, t.fget (GLB_SPDMON n) F.GLB_SPDMON_VALID = 1 ∧ t.fget (GLB_SPDMON n) F.GLB_SPDMON_COUNT = counts.getD n 0 % 2 ^ F.GLB_SPDMON_COUNT.w) ∧
      ((∃ n < 16, spdRate t n < s.fget GLB_SPDCFG F.GLB_SPDCFG_ALARM * 1000000) →
        ∃ r ∈ t.reports, r.code = C.ILN_W_BELOW_ALARM ∧ r.level = some 0) ∧
      t.dram = s.dram ∧ regsKept (fun off => off < 0x1000 ∨ counterReg off = true ∨ off = PWR_STAT) s t))

/-- Every access at a bank in service ends with the old word; a write, a narrow write and an atomic each leave the word the spec gives (R427, R429, spec/12_onchip_sram.md). -/
def Obligations.ScratchpadBankAccess : Prop :=
  ∀ (s : State) (bank word mask : Nat) (val : Word), bank < 512 → word < 16384 → bankOut s bank = false →
    let old := sramWord s bank word
    let lost := sramLost s bank word
    let ends := fun (v st : Nat) (t : State) => t.out.head? = some (.sram bank word (BitVec.ofNat 64 v) st)
    let laid := (bank < 416 ∧ bank % 13 < 12) ∨ (416 ≤ bank ∧ bank < 480)
    let now := fun (t : State) => sramWord t bank word
    let frame := fun (t : State) => t = { s with tier := { s.tier with lc := t.tier.lc, dc := t.tier.dc, left := t.tier.left },
                                                 home := { s.home with dirEnt := t.home.dirEnt }, sram := { s.sram with bad := t.sram.bad },
                                                 bobs := t.bobs, regs := t.regs, out := t.out, levelNs := t.levelNs } ∧
      t.out = .sram bank word (BitVec.ofNat 64 old) 0 :: s.out ∧ regsKept (fun off => counterReg off = true) s t ∧
      (416 ≤ bank → bank < 480 → t.tier = s.tier ∧ t.home = s.home ∧ (∀ b, b ≠ bank - 416 → t.bob b = s.bob b) ∧
        (∀ j, j ≠ word → tabGet (fun _ => (0 : Word)) (t.bob (bank - 416)).scratch j = tabGet (fun _ => (0 : Word)) (s.bob (bank - 416)).scratch j)) ∧
      (bank < 416 ∨ 480 ≤ bank → t.bobs = s.bobs)
    (∀ upset, completes (.sramAccess bank word 1 val mask upset) s (fun t => ends old 0 t ∧ frame t ∧ (laid → now t = val.toNat ∧ sramLost t bank word = false))) ∧
    (lost = false → ∀ kind ≤ 4, completes (.sramAccess bank word kind val mask 1) s (ends old 0)) ∧
    (bank < 480 → ∀ kind ∈ [0, 2, 3, 4], ∀ upset, lost = true ∨ 2 ≤ upset →
      completes (.sramAccess bank word kind val mask upset) s (fun t => ends 0 C.SRM_E_WORD_LOST t ∧
        (416 ≤ bank → upset < 2 → t.bobs = s.bobs ∧ t.tier = s.tier ∧ t.home = s.home))) ∧
    (lost = false →
      completes (.sramAccess bank word 0 val mask 0) s (fun t => t = { s with out := .sram bank word (BitVec.ofNat 64 old) 0 :: s.out }) ∧
      completes (.sramAccess bank word 2 val mask 0) s (fun t => frame t ∧ (laid →
        ∀ i < 8, getBits (now t) (8 * i) 8 = if bit mask i then getBits val.toNat (8 * i) 8 else getBits old (8 * i) 8)) ∧
      completes (.sramAccess bank word 3 val mask 0) s (fun t => frame t ∧ (laid → now t = (old + val.toNat) % 2 ^ 64)) ∧
      completes (.sramAccess bank word 4 val mask 0) s (fun t => frame t ∧ (laid → now t = val.toNat)))

/-- A background or requested region test starts in its bank or waits for the test under way; one that passes ends with status 0 (R431, R432, R436, spec/12_onchip_sram.md). -/
def Obligations.RegionTestsStartAndEnd : Prop :=
  (∀ (s : State) (q : Nat), q < 128 → s.pst < 3 → s.fget SRM_CFG F.SRM_CFG_BG_EN = 1 →
    let pos := tabGet (fun _ => 0) s.sram.bg q
    srmStage s (4 * q + pos / 64) = 0 → bankTest s (4 * q + pos / 64) = none → (∀ x ∈ s.sram.tests, ¬ (x.bank / 4 = q ∧ x.kind = 0)) →
    completes (.backgroundRegionTest q) s (fun t => t.sram.tests = s.sram.tests ++ [⟨4 * q + pos / 64, pos % 64, 0⟩] ∧
      t = { s with sram := { s.sram with tests := t.sram.tests }, regs := t.regs, levelNs := t.levelNs } ∧
      regsKept (fun off => counterReg off = true) s t)) ∧
  (∀ (s : State) (bank region : Nat), bankTest s bank = some ⟨bank, region, 0⟩ → bank % 4 * 64 + region < 255 → (∀ d ∈ s.sram.due, d.1 ≠ bank) →
    reqOf s bank = none → completes (.regionTestComplete bank 0) s (fun t => tabGet (fun _ => 0) t.sram.bg (bank / 4) = bank % 4 * 64 + region + 1 ∧
      (∀ r, r ≠ bank / 4 → tabGet (fun _ => 0) t.sram.bg r = tabGet (fun _ => 0) s.sram.bg r) ∧ t.sram.tests = s.sram.tests.erase ⟨bank, region, 0⟩ ∧
      t = { s with sram := { s.sram with tests := t.sram.tests, bg := t.sram.bg } })) ∧
  (∀ (s : State) (who : Who) (val : Word) (w : CtlWrite), admitted who SRM_TESTCTL val s w → fld w.act F.SRM_TESTCTL_START = 1 →
    let bank := fld w.new F.SRM_TESTCTL_BANK
    let req := (bank, if fld w.new F.SRM_TESTCTL_ALL = 1 then 0 else fld w.new F.SRM_TESTCTL_REGION, fld w.new F.SRM_TESTCTL_ALL == 1)
    let started := fun (t : State) => endedWith who SRM_TESTCTL 0 t ∧ t.fget SRM_TESTCTL F.SRM_TESTCTL_BUSY = 1 ∧ t.sram.req = some req ∧
      t = { s with sram := { s.sram with tests := t.sram.tests, req := t.sram.req }, regs := t.regs, out := t.out, levelNs := t.levelNs } ∧
      regsKept (fun off => off = SRM_TESTCTL ∨ counterReg off = true) s t
    (s.fget SRM_TESTCTL F.SRM_TESTCTL_BUSY = 1 → completes (.sramTestStart who val) s (fun t =>
      endedWith who SRM_TESTCTL C.SRM_E_TEST_BUSY t ∧ t.sram = s.sram ∧ t.rg SRM_TESTCTL = s.rg SRM_TESTCTL ∧ onlyRegisters s t)) ∧
    (s.fget SRM_TESTCTL F.SRM_TESTCTL_BUSY = 0 → srmStage s bank ≠ 0 → completes (.sramTestStart who val) s (fun t =>
      endedWith who SRM_TESTCTL C.SRM_E_BANK_FENCED t ∧ t.sram = s.sram ∧ t.fget SRM_TESTCTL F.SRM_TESTCTL_BUSY = 0 ∧ onlyRegisters s t)) ∧
    (s.fget SRM_TESTCTL F.SRM_TESTCTL_BUSY = 0 → srmStage s bank = 0 →
      (bankTest s bank = none → (∀ d ∈ s.sram.due, d.1 ≠ bank) → completes (.sramTestStart who val) s (fun t => started t ∧
        t.sram.tests = s.sram.tests ++ [⟨bank, req.2.1, 1⟩])) ∧
      ((bankTest s bank).isSome = true → completes (.sramTestStart who val) s (fun t => started t ∧ t.sram.tests = s.sram.tests)))) ∧
  (∀ (s : State) (bank region : Nat), bankTest s bank = some ⟨bank, region, 1⟩ → s.sram.req = some (bank, region, false) → (∀ d ∈ s.sram.due, d.1 ≠ bank) →
    completes (.regionTestComplete bank 0) s (fun t => t.fget SRM_TESTCTL F.SRM_TESTCTL_BUSY = 0 ∧ t.fget SRM_TESTCTL F.SRM_TESTCTL_STATUS = 0 ∧
      t.sram.tests = s.sram.tests.erase ⟨bank, region, 1⟩ ∧ t = { s with sram := { s.sram with tests := t.sram.tests, req := none }, regs := t.regs } ∧
      regsKept (fun off => off = SRM_TESTCTL) s t))

/-- A share write past 4,096 in all is refused with QOS_E_OVERCOMMIT, one with GUAR above a cap with QOS_E_CAP_BELOW (R441, spec/13_regulation_counters.md). -/
def Obligations.GuaranteesNotOvercommitted : Prop :=
  ∀ (s : State) (who : Who) (m : Nat) (occ : Bool) (val : Word) (w : CtlWrite), m < 28 →
    let reg := fun (k : Nat) => if occ then QOS_MOCC k else QOS_MDRAM k
    admitted who (reg m) val s w →
    let g := fld w.new F.QOS_MDRAM_GUAR
    let cap := fld w.new F.QOS_MDRAM_CAP
    let sum := g + (((List.range 28).filter (· ≠ m)).map (fun k => s.fget (reg k) F.QOS_MDRAM_GUAR)).sum
    (4096 < sum → completes (.qosShareWrite who m occ val) s (fun t => endedWith who (reg m) C.QOS_E_OVERCOMMIT t ∧
      t = { s with regs := t.regs, out := t.out } ∧ regsKept errorReg s t)) ∧
    (sum ≤ 4096 → cap ≠ 0 → cap < g → completes (.qosShareWrite who m occ val) s (fun t => endedWith who (reg m) C.QOS_E_CAP_BELOW t ∧
      t = { s with regs := t.regs, out := t.out } ∧ regsKept errorReg s t)) ∧
    (sum ≤ 4096 → cap = 0 ∨ g ≤ cap → nothingWaits s → completes (.qosShareWrite who m occ val) s (fun t => endedWith who (reg m) 0 t ∧
      (t.rg (reg m)).toNat = w.new % 2 ^ 64 ∧ t.dram = s.dram ∧ t.chans = s.chans ∧ regsKept (fun off => off = reg m) s t))

/-- A clock period of a channel hands out passes only to masters with demand; the end of a window takes over the shares (R441, R442, R447, spec/13_regulation_counters.md). -/
def Obligations.RegulationPeriodAndWindow : Prop :=
  ∀ (s : State) (c : Nat), c < 24 → ctlOpen s = true →
    completes (.regulatePeriod c) s (fun t => (t.chan c).regul.periods = (s.chan c).regul.periods + 1 ∧ (t.chan c).regul.racc ≤ 4096 ∧
      (t.chan c).regul.held = (s.chan c).regul.held ∧
      (∀ m, demand (s.chan c).regul m = false → tabGet (fun _ => 0) (t.chan c).regul.passes m = tabGet (fun _ => 0) (s.chan c).regul.passes m) ∧
      (∀ d, d ≠ c → t.chan d = s.chan d) ∧ t = { s with chans := t.chans }) ∧
    ((s.chan c).regul.excused = true → completes (.regulationWindow c) s (fun t =>
      (∀ m < 28, shareOf (t.chan c).regul m = (s.rg (QOS_MDRAM m)).toNat) ∧ (t.chan c).regul.issued = [] ∧ (t.chan c).regul.periods = 0 ∧
      (t.chan c).regul.excused = false ∧ (t.chan c).regul.held = (s.chan c).regul.held ∧ (∀ d, d ≠ c → t.chan d = s.chan d) ∧ t = { s with chans := t.chans }))

/-- GO starts a snapshot unless one is running; the broadcast copies every counter and with CLEAR zeroes it (R451, spec/13_regulation_counters.md). -/
def Obligations.SnapshotCopiesEveryCounter : Prop :=
  (∀ (s : State) (who : Who) (val : Word) (w : CtlWrite), admitted who PMC_SNAPCTL val s w → fld w.act F.PMC_SNAPCTL_GO = 1 →
    (s.fget PMC_SNAPCTL F.PMC_SNAPCTL_BUSY = 1 → completes (.go who val) s (fun t => endedWith who PMC_SNAPCTL C.PMC_E_SNAP_BUSY t ∧
      t = { s with regs := t.regs, out := t.out } ∧ regsKept errorReg s t)) ∧
    (s.fget PMC_SNAPCTL F.PMC_SNAPCTL_BUSY = 0 → completes (.go who val) s (fun t => endedWith who PMC_SNAPCTL 0 t ∧
      t.fget PMC_SNAPCTL F.PMC_SNAPCTL_BUSY = 1 ∧ t.fget PMC_SNAPCTL F.PMC_SNAPCTL_DONE = 0 ∧
      t = { s with regs := t.regs, out := t.out } ∧ regsKept (fun off => off = PMC_SNAPCTL) s t))) ∧
  (∀ s : State, s.memWf = true → s.fget PMC_SNAPCTL F.PMC_SNAPCTL_BUSY = 1 →
    (s.fget PMC_SNAPCTL F.PMC_SNAPCTL_AT_EN = 0 ∨ (s.rg PMC_SNAPAT).toNat ≤ s.time) →
    completes .snapshotBroadcast s (fun t => (∀ e < 1536, t.rg (PMC_SNAP e) = s.rg (PMC_CNT e)) ∧
      (s.fget PMC_SNAPCTL F.PMC_SNAPCTL_CLEAR = 0 → ∀ e < 1536, t.rg (PMC_CNT e) = s.rg (PMC_CNT e)) ∧
      (s.fget PMC_SNAPCTL F.PMC_SNAPCTL_CLEAR = 1 → ∀ e < 1536, t.rg (PMC_CNT e) = 0) ∧
      t.rg PMC_SNAPTIME = BitVec.ofNat 64 s.time ∧ t.fget PMC_SNAPCTL F.PMC_SNAPCTL_BUSY = 0 ∧ t.fget PMC_SNAPCTL F.PMC_SNAPCTL_DONE = 1 ∧
      t.dram = s.dram))

/-- CLEAR zeroes the 512 bin words and the status of its histogram and no other histogram (R448, spec/13_regulation_counters.md). -/
def Obligations.HistogramClears : Prop :=
  ∀ (s : State) (who : Who) (h : Nat) (val : Word) (w : CtlWrite), h < 8 → admitted who (QOS_HISTCFG h) val s w → fld w.act F.QOS_HISTCFG_CLEAR = 1 →
    completes (.clear who h val) s (fun t => endedWith who (QOS_HISTCFG h) 0 t ∧ (∀ j < 512, t.rg (QOS_HBIN h j) = 0) ∧ t.rg (QOS_HISTSTAT h) = 0 ∧
      t = { s with regs := t.regs, out := t.out } ∧
      regsKept (fun off => off = QOS_HISTCFG h ∨ off = QOS_HISTSTAT h ∨ (QOS_HBIN h 0 ≤ off ∧ off < QOS_HBIN h 512)) s t)

/-- A test instruction that drives pins stops the device from serving; when it is not honoured it acts as BYPASS (R573, R574, spec/18_link_calibration_test.md). -/
def Obligations.DrivenPinsStopTheDevice : Prop :=
  (∀ (s : State) (c : Instr) (op : Nat), (c, op) ∈ [(Instr.extest, 0), (.clamp, 3), (.highz, 4), (.extestPulse, 5), (.extestTrain, 6)] → s.pst < 3 →
    (tapAllowed s = true → completes c s (fun t => t.tap = { s.tap with ir := op, driven := true } ∧ t.out = .tap op s.tap.cells :: s.out ∧
      coreOpen t = false ∧ ctlOpen t = false ∧ t = { s with tap := t.tap, out := t.out })) ∧
    (tapAllowed s = false → completes c s (fun t => t.tap = { s.tap with ir := 0xFF } ∧ t.out = .tap 0xFF 0 :: s.out ∧ t = { s with tap := t.tap, out := t.out }))) ∧
  (∀ (s : State) (fails : List (Nat × Nat)), s.pst < 3 →
    (tapAllowed s = true → completes (.bist fails) s (fun t => t.tap = { s.tap with ir := 0x20, driven := true } ∧ coreOpen t = false ∧ ctlOpen t = false ∧
      (s.tap.fuseLock = true → t.sram = s.sram) ∧ t = { s with tap := t.tap, out := t.out, sram := { s.sram with cols := t.sram.cols, flaws := t.sram.flaws } })) ∧
    (tapAllowed s = false → exec (.bist fails) s = exec .bypass s)) ∧
  (∀ (s : State), s.pst < 3 → completes .bypass s (fun t => t.tap = { s.tap with ir := 0xFF } ∧ t.out = .tap 0xFF 0 :: s.out ∧ t = { s with tap := t.tap, out := t.out }) ∧
    completes .idcode s (fun t => t.tap = { s.tap with ir := 1 } ∧ t = { s with tap := t.tap, out := t.out } ∧
      ∃ v, t.out = .tap 1 v :: s.out ∧ v / 2 ^ 28 = 1 ∧ v / 2 ^ 12 % 2 ^ 16 = 0x9256 ∧ v % 2 = 1) ∧
    ∀ pins cells, completes (.samplePreload pins cells) s (fun t => t.tap = { s.tap with ir := 2, cells := cells } ∧ t.out = .tap 2 pins :: s.out ∧
      t = { s with tap := t.tap, out := t.out })) ∧
  (∀ (s : State) (pins cells : Nat) (fails : List (Nat × Nat)), 3 ≤ s.pst →
    ∀ c ∈ [Instr.extest, .clamp, .highz, .extestPulse, .extestTrain, .bist fails, .bypass, .idcode, .samplePreload pins cells], exec c s = .next s)

/-- The debug transport instructions shift out open values and change only the test access port (spec/18_link_calibration_test.md, spec/15_management_worlds_boot.md). -/
def Obligations.DebugTransportKeepsState : Prop :=
  ∀ (s : State) (val : Nat), s.pst < 3 →
    completes .dtmcs s (fun t => t.tap = { s.tap with ir := 0x10 } ∧ (∃ v, t.out = .tap 0x10 v :: s.out) ∧ t = { s with tap := t.tap, out := t.out, ctr := t.ctr }) ∧
    completes (.dmi val) s (fun t => t.tap = { s.tap with ir := 0x11, dmi := val } ∧ (∃ v, t.out = .tap 0x11 v :: s.out) ∧
      t = { s with tap := t.tap, out := t.out, ctr := t.ctr })

/-- A tracking window proposes at most one LSB for each converter; a trim step takes one LSB of what is pending (R558, R559, spec/18_link_calibration_test.md). -/
def Obligations.TrackingMovesOneStep : Prop :=
  (∀ (s : State) (p l eye : Nat) (prop : List Int), s.fget CAL_CFG F.CAL_CFG_TRACK_EN = 1 → p < 16 → l < 17 → laneLive s p = true → laneHeld s p l = false →
    laneState s p l = 0 →
    completes (.trackingWindow p l eye prop) s (fun t => t.fget (CAL_LANE p l) F.CAL_LANE_EYE_MV = eye % 2 ^ 16 ∧
      (∀ d ∈ tabGet (fun _ => []) (t.calp p).pend l, d = 1 ∨ d = 0 ∨ d = -1) ∧
      (∀ i < 6, (tabGet (fun _ => []) (t.calp p).pend l).getD i 0 = stepSign (prop.getD i 0)) ∧
      (∀ k, k ≠ l → tabGet (fun _ => []) (t.calp p).pend k = tabGet (fun _ => []) (s.calp p).pend k) ∧
      t = { s with regs := t.regs, cal := t.cal } ∧ (∀ q, q ≠ p → t.calp q = s.calp q) ∧ regsKept (fun off => off = CAL_LANE p l) s t)) ∧
  (∀ (s : State) (p l : Nat), tabGet (fun _ => []) (s.calp p).pend l ≠ [] → s.fget CAL_CFG F.CAL_CFG_AUTO_RECAL = 0 →
    completes (.trimStep p l) s (fun t =>
      (∀ i < (tabGet (fun _ => []) (s.calp p).pend l).length, (tabGet (fun _ => []) (t.calp p).pend l).getD i 0 =
        (tabGet (fun _ => []) (s.calp p).pend l).getD i 0 - stepSign ((tabGet (fun _ => []) (s.calp p).pend l).getD i 0)) ∧
      tabGet (fun _ => (0 : Int)) (t.calp p).phase l =
        tabGet (fun _ => (0 : Int)) (s.calp p).phase l + stepSign ((tabGet (fun _ => []) (s.calp p).pend l).getD 5 0) ∧
      (t.calp p).queue = (s.calp p).queue ∧ t = { s with regs := t.regs, cal := t.cal, levelNs := t.levelNs } ∧
      regsKept (fun off => off = CAL_LANE p l ∨ counterReg off = true) s t))

/-- A recalibration or lane check joins its port queue, BUSY is set until it ends, a second GO is refused, and a spare held for good ends it at once (R561, R566, R568, spec/18_link_calibration_test.md). -/
def Obligations.LaneRequestsWaitTheirTurn : Prop :=
  (∀ (s : State) (who : Who) (val : Word) (w : CtlWrite), admitted who CAL_REQ val s w → fld w.act F.CAL_REQ_GO = 1 → ∀ c ∈ [Instr.recalibrate who val, .laneCheck who val],
    (s.fget CAL_REQ F.CAL_REQ_BUSY = 1 → completes c s (fun t => endedWith who CAL_REQ C.CAL_E_REQ_BUSY t ∧ t = { s with regs := t.regs, out := t.out } ∧
      regsKept errorReg s t)) ∧
    let x := s.calp (fld w.new F.CAL_REQ_PORT)
    (s.fget CAL_REQ F.CAL_REQ_BUSY = 0 → x.fixed.isSome = true → x.queue = [] → s.fltTests = [] → completes c s (fun t => endedWith who CAL_REQ 0 t ∧ t.fget CAL_REQ F.CAL_REQ_BUSY = 0 ∧
      t.fget CAL_REQ F.CAL_REQ_STATUS = C.CAL_E_NO_WINDOW ∧ (t.calp (fld w.new F.CAL_REQ_PORT)).queue = [] ∧ t = { s with regs := t.regs, out := t.out, cal := t.cal, seam := t.seam, levelNs := t.levelNs } ∧
      regsKept (fun off => off = CAL_REQ ∨ off = PRT_SEAMSTAT (fld w.new F.CAL_REQ_PORT) ∨ off = CAL_LANE (fld w.new F.CAL_REQ_PORT) (fld w.new F.CAL_REQ_LANE) ∨ counterReg off = true) s t)) ∧
    (s.fget CAL_REQ F.CAL_REQ_BUSY = 0 → x.fixed = none ∨ x.queue ≠ [] → completes c s (fun t => endedWith who CAL_REQ 0 t ∧ t.fget CAL_REQ F.CAL_REQ_BUSY = 1 ∧
      (∃ r ∈ (t.calp (fld w.new F.CAL_REQ_PORT)).queue, r.lane = fld w.new F.CAL_REQ_LANE ∧ r.fw = true) ∧
      (∀ r ∈ (s.calp (fld w.new F.CAL_REQ_PORT)).queue, ∃ r' ∈ (t.calp (fld w.new F.CAL_REQ_PORT)).queue, r'.lane = r.lane ∧ r'.kind = r.kind) ∧
      t = { s with regs := t.regs, out := t.out, cal := t.cal } ∧ regsKept (fun off => off = CAL_REQ) s t))) ∧
  (∀ (s : State) (p : Nat) (r : LaneReq) (rest : List LaneReq), (s.calp p).queue = r :: rest → s.fltTests = [] →
    ((s.calp p).step = 0 → completes (.calENoWindow p) s (fun t => (t.calp p).queue = rest ∧ t.dram = s.dram ∧
      (r.fw = true → t.fget CAL_REQ F.CAL_REQ_BUSY = 0 ∧ t.fget CAL_REQ F.CAL_REQ_STATUS = C.CAL_E_NO_WINDOW) ∧
      regsKept (fun off => off = CAL_REQ ∨ off = PRT_SEAMSTAT p ∨ off = CAL_LANE p r.lane ∨ counterReg off = true) s t)) ∧
    (∀ errs spareBad, 2 ≤ (s.calp p).step → p < 16 → r.kind = 1 → errs ≤ s.fget CAL_CFG F.CAL_CFG_ERRMAX →
      completes (.laneCheckComplete p errs spareBad) s (fun t => (t.calp p).queue = rest ∧ t.dram = s.dram ∧
        (r.fw = true → t.fget CAL_REQ F.CAL_REQ_BUSY = 0 ∧ t.fget CAL_REQ F.CAL_REQ_STATUS = 0) ∧
        regsKept (fun off => off = CAL_REQ ∨ off = PRT_SEAMSTAT p ∨ off = CAL_LANE p r.lane) s t))) ∧
  (∀ (s : State) (p l count : Nat), p < 16 → l < 16 → laneLive s p = true → laneState s p l < 2 → s.fget CAL_CFG F.CAL_CFG_BURST_THR < count →
    completes (.calFLaneBurst p l count) s (fun t => t = { s with reports := s.reports ++
      [{ src := srcId 1 p, elem := 0x8000 + l, code := C.CAL_F_LANE_BURST, addr := 0, detail := 0, level := none }] }))

/-- Every step of a recalibration completes: takeover, sweep, plausibility, new trims, check and end; an implausible result changes no trim (R560, R564, spec/18_link_calibration_test.md). -/
def Obligations.RecalibrationStepsAndLimits : Prop :=
  ∀ (s : State) (p eye errs : Nat) (prop : List Int) (r : LaneReq) (rest : List LaneReq), p < 16 → (s.calp p).queue = r :: rest →
    let c : Instr := .recalStepComplete p prop eye errs
    let x := s.calp p
    let none' := tabGet (fun _ => ([] : List Int)) x.pend r.lane = []
    (x.step = 0 → x.fixed = none → laneState s p r.lane = 0 → laneLive s p = true →
      completes c s (fun t => laneState t p r.lane = 1 ∧ (t.sp p).mapB = 0x50 + r.lane ∧ (t.calp p).step = 1 ∧
        (t.calp p).queue = r :: rest ∧ t = { s with regs := t.regs, cal := t.cal, seam := t.seam } ∧ regsKept (fun off => off = CAL_LANE p r.lane ∨ off = CAL_LANE p 16) s t)) ∧
    (x.step = 1 → (spareReady s p r.lane errs = false → exec c s = .next s) ∧
      (spareReady s p r.lane errs = true → completes c s (fun t => (t.calp p).step = 2 ∧ t.fget (CAL_LANE p r.lane) F.CAL_LANE_SPARED = 1 ∧
        (t.calp p).queue = r :: rest ∧ t = { s with regs := t.regs, cal := t.cal, levelNs := t.levelNs } ∧
        regsKept (fun off => off = CAL_LANE p r.lane ∨ off = CAL_LANE p 16 ∨ off = PRT_SEAMSTAT p ∨ counterReg off = true) s t))) ∧
    (2 ≤ x.step → r.kind = 1 → exec c s = .next s) ∧
    (x.step = 2 → r.kind = 0 → completes c s (fun t => t.calp p = { x with step := 3, prop := prop, eye := eye, old := laneReg s p r.lane } ∧
      t = { s with cal := t.cal })) ∧
    (x.step = 3 → r.kind = 0 →
      (plausible s (laneReg s p r.lane) x.prop x.eye = false →
        completes c s (fun t => t.rg (CAL_LANE p r.lane) = s.rg (CAL_LANE p r.lane) ∧
          (t.calp p).status = C.CAL_W_IMPLAUSIBLE ∧ (t.calp p).step = 6 ∧ (t.calp p).pend = x.pend ∧
          t.reports = s.reports ++ [{ src := srcId 1 p, elem := 0x8000 + r.lane, code := C.CAL_W_IMPLAUSIBLE, addr := 0, detail := 0, level := some 0 }] ∧
          t = { s with regs := t.regs, cal := t.cal, reports := t.reports, levelNs := t.levelNs } ∧ regsKept (fun off => counterReg off = true) s t)) ∧
      (plausible s (laneReg s p r.lane) x.prop x.eye = true →
        completes c s (fun t => (t.calp p).step = 4 ∧ t = { s with cal := t.cal }))) ∧
    (x.step = 4 → r.kind = 0 → completes c s (fun t => (t.calp p).step = 5 ∧ (t.calp p).queue = r :: rest ∧
      (∀ i < 6, (tabGet (fun _ => []) (t.calp p).pend r.lane).getD i 0 = x.prop.getD i 0 - trimOf (laneReg s p r.lane) i) ∧
      t.fget (CAL_LANE p r.lane) F.CAL_LANE_EYE_MV = x.eye % 2 ^ 16 ∧ t = { s with cal := t.cal, regs := t.regs } ∧ regsKept (fun off => off = CAL_LANE p r.lane) s t)) ∧
    (x.step = 5 → r.kind = 0 → (¬ none' → exec c s = .next s) ∧
      (none' → errs ≤ s.fget CAL_CFG F.CAL_CFG_ERRMAX → completes c s (fun t => (t.calp p).step = 6 ∧ (t.calp p).status = x.status ∧ t = { s with cal := t.cal })) ∧
      (none' → s.fget CAL_CFG F.CAL_CFG_ERRMAX < errs → completes c s (fun t => (t.calp p).step = 6 ∧ (t.calp p).status = C.CAL_E_INTERRUPTED ∧
        getBits (laneReg t p r.lane) 0 37 = getBits x.old 0 37 ∧ t = { s with cal := t.cal, regs := t.regs } ∧ regsKept (fun off => off = CAL_LANE p r.lane) s t))) ∧
    (x.step = 6 → r.kind = 0 → x.fixed = none → completes c s (fun t => (t.calp p).queue = rest ∧ (t.calp p).step = 0 ∧ t.fget (CAL_LANE p r.lane) F.CAL_LANE_SPARED = 0 ∧
      (r.fw = true → t.fget CAL_REQ F.CAL_REQ_BUSY = 0 ∧ t.fget CAL_REQ F.CAL_REQ_STATUS = x.status % 2 ^ F.CAL_REQ_STATUS.w) ∧
      t = { s with cal := t.cal, regs := t.regs, seam := t.seam } ∧ regsKept (fun off => off = CAL_REQ ∨ off = PRT_SEAMSTAT p ∨ off = CAL_LANE p r.lane) s t))

/-- PRBS and MBIST start only where the spec lets them; CLR zeroes the counts; a memory test loses its channel content (R571, R575, spec/18_link_calibration_test.md). -/
def Obligations.PatternHardwareAndMemoryTests : Prop :=
  (∀ (s : State) (who : Who) (p l : Nat) (val : Word) (w : CtlWrite), p < 16 → l < 17 → admitted who (CAL_PRBS p l) val s w →
    ∀ c ∈ [Instr.prbsWrite who p l val, .clr who p l val],
    let enables := fld w.new F.CAL_PRBS_GEN_EN = 1 ∨ fld w.new F.CAL_PRBS_CHK_EN = 1 ∨ fld w.new F.CAL_PRBS_LOOP = 1
    (enables → prbsFree s p l = false → completes c s (fun t => endedWith who (CAL_PRBS p l) C.CAL_E_STATE t ∧
      t = { s with regs := t.regs, out := t.out } ∧ regsKept errorReg s t)) ∧
    (¬ enables ∨ prbsFree s p l = true → completes c s (fun t => endedWith who (CAL_PRBS p l) 0 t ∧
      (fld w.act F.CAL_PRBS_CLR = 1 → t.fget (CAL_PRBS p l) F.CAL_PRBS_ERRORS = 0 ∧ t.fget (CAL_PRBS p l) F.CAL_PRBS_BITS = 0) ∧
      t.fget (CAL_PRBS p l) F.CAL_PRBS_GEN_EN = fld w.new F.CAL_PRBS_GEN_EN ∧
      (∀ q, q ≠ p → t.calp q = s.calp q) ∧ t.calp p = { s.calp p with prbs := (t.calp p).prbs } ∧ t = { s with regs := t.regs, out := t.out, cal := t.cal } ∧ regsKept (fun off => off = CAL_PRBS p l) s t))) ∧
  (∀ (s : State) (who : Who) (val : Word) (w : CtlWrite), admitted who CAL_MBISTCTL val s w → fld w.act F.CAL_MBISTCTL_GO = 1 →
    s.fget CAL_MBISTCTL F.CAL_MBISTCTL_BUSY = 0 → ∀ c ∈ [Instr.marchC who val, .rowPerBank who val, .moduleMbist who val],
    let ch := fld w.new F.CAL_MBISTCTL_CH
    (ch < 24 → s.cstate ch = csFENCED ∨ s.cstate ch = csTESTING → fld w.new F.CAL_MBISTCTL_ALG < 3 →
      (fld w.new F.CAL_MBISTCTL_ALG = 2 → (s.chan ch).mbist = true) →
      completes c s (fun t => endedWith who CAL_MBISTCTL 0 t ∧ t.fget CAL_MBISTCTL F.CAL_MBISTCTL_BUSY = 1 ∧ t.fget CAL_MBISTRES F.CAL_MBISTRES_VALID = 0 ∧
        t = { s with regs := t.regs, out := t.out } ∧ regsKept (fun off => off = CAL_MBISTCTL ∨ off = CAL_MBISTRES) s t)) ∧
    (s.cstate ch ≠ csFENCED → s.cstate ch ≠ csTESTING → completes c s (fun t => endedWith who CAL_MBISTCTL C.CAL_E_STATE t ∧
      t = { s with regs := t.regs, out := t.out } ∧ regsKept (fun off => off = CAL_MBISTCTL ∨ errorReg off) s t))) ∧
  (∀ s : State, s.fget CAL_MBISTCTL F.CAL_MBISTCTL_BUSY = 1 → completes (.mbistComplete none) s (fun t =>
    t.fget CAL_MBISTCTL F.CAL_MBISTCTL_BUSY = 0 ∧ t.fget CAL_MBISTCTL F.CAL_MBISTCTL_STATUS = 0 ∧
    (∀ k, k / 2 ^ 34 = s.fget CAL_MBISTCTL F.CAL_MBISTCTL_CH → tabGet (fun _ => (0 : Line)) t.dram.lines k = 0) ∧
    (∀ k, k / 2 ^ 34 ≠ s.fget CAL_MBISTCTL F.CAL_MBISTCTL_CH → tabGet (fun _ => (0 : Line)) t.dram.lines k = tabGet (fun _ => (0 : Line)) s.dram.lines k) ∧
    t = { s with regs := t.regs, dram := t.dram } ∧ regsKept (fun off => off = CAL_MBISTCTL) s t))

/-- A controller ramps only when every condition holds; power-good is set only when the gate is fully on (R538, R540, R542, R544, spec/17_hem_hot_swap.md). -/
def Obligations.RampNeedsEveryCondition : Prop :=
  ∀ (s : State) (h : Nat), h < 24 →
    let framed := fun (d : Diag) (t : State) => t = { s with regs := t.regs, hems := t.hems, diag := d } ∧ (∀ k, k ≠ h → t.hem k = s.hem k) ∧ regsKept (fun off => off = HEM_STAT h ∨ off = HEM_TELEM h ∨ off = HEM_PEAK h ∨ off = HEM_ENERGY h) s t
    let frame := framed s.diag
    (¬ (s.fget (HEM_CTL h) F.HEM_CTL_EN = 1 ∧ ((s.hem h).adm = 0 ∨ (s.hem h).adm = 3) ∧ (s.hem h).retry = false ∧ (s.hem h).present = true ∧
        (s.hem h).vinok = true ∧ (s.hem h).gate = 0 ∧ s.pwr.d2dLost = false) → exec (.rampStart h) s = .next s) ∧
    (s.pwr.d2dLost = false → s.fget (HEM_STAT h) F.HEM_STAT_PG = 0 →
      (s.fget (HEM_CTL h) F.HEM_CTL_EN = 1 → (s.hem h).adm = 0 → (s.hem h).retry = false → (s.hem h).present = true → (s.hem h).vinok = true →
        (s.hem h).gate = 0 → completes (.rampStart h) s (fun t => t.hem h = { s.hem h with gate := 1 } ∧ t.fget (HEM_STAT h) F.HEM_STAT_STATE = 2 ∧
          t.fget (HEM_STAT h) F.HEM_STAT_PG = 0 ∧ tabGet (fun _ => []) t.diag.log (dgKey dlRAMP h) = [] ∧ framed { s.diag with log := t.diag.log } t)) ∧
      ((s.hem h).gate = 1 → (s.hem h).adm = 0 →
        completes (.powerGood h) s (fun t => t.hem h = { s.hem h with gate := 2 } ∧ t.fget (HEM_STAT h) F.HEM_STAT_PG = 1 ∧
          t.fget (HEM_STAT h) F.HEM_STAT_STATE = 3 ∧ frame t) ∧
        completes (.currentLimit h) s (fun t => t.hem h = { s.hem h with gate := 3 } ∧ t.fget (HEM_STAT h) F.HEM_STAT_PG = 0 ∧
          t.fget (HEM_STAT h) F.HEM_STAT_STATE = 4 ∧ frame t)) ∧
      ((s.hem h).gate = 3 → (s.hem h).adm = 0 → completes (.currentLimitClear h) s (fun t => t.hem h = { s.hem h with gate := 1 } ∧
        t.fget (HEM_STAT h) F.HEM_STAT_STATE = 2 ∧ frame t)) ∧
      ((s.hem h).gate ≠ 2 → (s.hem h).retry = true → completes (.retryExpiry h) s (fun t => t.hem h = { s.hem h with retry := false } ∧
        t.fget (HEM_STAT h) F.HEM_STAT_RETRY_LEFT = 0 ∧ frame t)))

/-- A protection event or a removal takes the gate down and is reported; a fault latches its own code; the retry timer runs unless the controller is FENCED (R541, R542, R543, R544, R545, R547, R553, spec/17_hem_hot_swap.md). -/
def Obligations.HemFaultsDischargeAndLatch : Prop :=
  ∀ (s : State) (h : Nat), h < 24 → s.pwr.d2dLost = false →
    let x := s.hem h
    let frame := fun (t : State) => (∀ k, k ≠ h → t.hem k = s.hem k) ∧ (s.fget (HEM_STAT h) F.HEM_STAT_PG = 0 →
      t = { s with regs := t.regs, hems := t.hems, reports := t.reports, out := t.out, pst := t.pst, levelNs := t.levelNs } ∧
      regsKept (fun off => off = HEM_STAT h ∨ off = HEM_TELEM h ∨ off = HEM_PEAK h ∨ off = HEM_ENERGY h ∨ off = FLT_SRCSTAT (srcId 10 h) ∨ off = FLT_READMIT ∨ off = PWR_STAT ∨ counterReg off = true) s t)
    let reported := fun (code : Nat) (lvl : Option Nat) (t : State) => s.fget (HEM_STAT h) F.HEM_STAT_PG = 0 → t.reports = s.reports ++ [{ src := srcId 10 h, elem := 0, code := code, addr := 0, detail := 0, level := lvl }]
    let faulted := fun (code : Nat) (t : State) => t.hem h = { x with gate := 0, adm := if x.adm = 3 then 1 else x.adm, retry := x.adm != 1 && x.adm != 3, latch := true, lastflt := code, faults := min (x.faults + 1) 65535 } ∧
      (∃ r ∈ t.reports, r.src = srcId 10 h ∧ r.code = code ∧ r.level = none) ∧ reported code none t ∧ frame t
    ((s.hem h).gate = 1 ∨ (s.hem h).gate = 2 → completes (.hemFGateStuck h) s (faulted C.HEM_F_GATE_STUCK)) ∧
    (3 ≤ (s.hem h).gate → completes (.hemFOvercurrent h) s (faulted C.HEM_F_OVERCURRENT)) ∧
    ((s.hem h).gate ≠ 0 → completes (.hemFShort h) s (faulted C.HEM_F_SHORT) ∧
      completes (.hemWVinLow h) s (fun t => t.hem h = { x with gate := 0, retry := x.adm != 1, vinok := false } ∧
        (∃ r ∈ t.reports, r.src = srcId 10 h ∧ r.code = C.HEM_W_VIN_LOW ∧ r.level = some 0) ∧ reported C.HEM_W_VIN_LOW (some 0) t ∧ frame t)) ∧
    (∀ low, (s.hem h).present ≠ low → s.fget (HEM_STAT h) F.HEM_STAT_PG = 0 → s.pst = 0 → s.fget PWR_CTL F.PWR_CTL_BUSY = 0 →
      completes (.presenceEdge h low) s (fun t =>
        t.hem h = { x with present := low, gate := 0, retry := x.adm != 1 } ∧ (x.gate ≠ 0 → reported C.HEM_W_REMOVED (some 0) t) ∧ (x.gate = 0 → t.reports = s.reports) ∧ frame t))

/-- EN = 0 is refused unless the channel is ABSENT or FENCED; a lost link refuses every Hem write with HEM_E_STALE (R546, R550, R556, spec/17_hem_hot_swap.md). -/
def Obligations.RailOffNeedsAnIdleChannel : Prop :=
  (∀ (s : State) (who : Who) (h : Nat) (val : Word) (w : CtlWrite), h < 24 → admitted who (HEM_CTL h) val s w →
    ∀ c ∈ [Instr.railOff who h val, .railOn who h val, .clrpeak who h val],
    (s.pwr.d2dLost = true → completes c s (fun t => endedWith who (HEM_CTL h) C.HEM_E_STALE t ∧ t = { s with regs := t.regs, out := t.out } ∧ regsKept errorReg s t)) ∧
    (s.pwr.d2dLost = false → fld w.new F.HEM_CTL_EN = 0 → s.cstate h ≠ csABSENT → s.cstate h ≠ csFENCED →
      completes c s (fun t => endedWith who (HEM_CTL h) C.HEM_E_CHANNEL_ACTIVE t ∧ t = { s with regs := t.regs, out := t.out } ∧
        t.fget (HEM_CTL h) F.HEM_CTL_EN = s.fget (HEM_CTL h) F.HEM_CTL_EN ∧ regsKept (fun off => off = HEM_CTL h ∨ errorReg off) s t)) ∧
    (s.pwr.d2dLost = false → fld w.new F.HEM_CTL_EN = 1 ∨ s.cstate h = csABSENT ∨ s.cstate h = csFENCED → s.fget (HEM_STAT h) F.HEM_STAT_PG = 0 →
      completes c s (fun t => endedWith who (HEM_CTL h) 0 t ∧ t.fget (HEM_CTL h) F.HEM_CTL_EN = fld w.new F.HEM_CTL_EN ∧
        (fld w.new F.HEM_CTL_EN = 0 → (t.hem h).gate = 0) ∧
        (fld w.act F.HEM_CTL_CLRPEAK = 1 → (t.hem h).vmin = 0xFFFF ∧ (t.hem h).imax = 0) ∧
        t = { s with regs := t.regs, out := t.out, hems := t.hems } ∧ (∀ k, k ≠ h → t.hem k = s.hem k) ∧
        regsKept (fun off => off = HEM_CTL h ∨ off = HEM_STAT h ∨ off = HEM_TELEM h ∨ off = HEM_PEAK h ∨ off = HEM_ENERGY h) s t))) ∧
  (∀ (s : State) (who : Who) (h : Nat) (val : Word) (w : CtlWrite), h < 24 → admitted who (HEM_CFG h) val s w →
    let ok := (1 ≤ fld w.new F.HEM_CFG_RAMP_MS ∧ fld w.new F.HEM_CFG_RAMP_MS ≤ 100) ∧ (1 ≤ fld w.new F.HEM_CFG_FAULT ∧ fld w.new F.HEM_CFG_FAULT ≤ 200) ∧
      (1 ≤ fld w.new F.HEM_CFG_RETRY ∧ fld w.new F.HEM_CFG_RETRY ≤ 1000) ∧ (100 ≤ fld w.new F.HEM_CFG_ILIM ∧ fld w.new F.HEM_CFG_ILIM ≤ 400) ∧
      (1000 ≤ fld w.new F.HEM_CFG_RSENSE ∧ fld w.new F.HEM_CFG_RSENSE ≤ 20000)
    completes (.hemCfgWrite who h val) s (fun t => t = { s with regs := t.regs, out := t.out } ∧
      (s.pwr.d2dLost = true → endedWith who (HEM_CFG h) C.HEM_E_STALE t ∧ t.rg (HEM_CFG h) = s.rg (HEM_CFG h)) ∧
      (s.pwr.d2dLost = false → ¬ ok → endedWith who (HEM_CFG h) C.HEM_E_RANGE t ∧ t.rg (HEM_CFG h) = s.rg (HEM_CFG h)) ∧
      (s.pwr.d2dLost = false → ok → endedWith who (HEM_CFG h) 0 t ∧ (t.rg (HEM_CFG h)).toNat = w.new % 2 ^ 64) ∧
      regsKept (fun off => off = HEM_CFG h ∨ off = HEM_CTL h ∨ errorReg off) s t))

/-- With the die-to-die link lost the HEM registers are stale and reports wait; its return sends them (R546, R555, spec/17_hem_hot_swap.md). -/
def Obligations.LostLinkMakesHemStale : Prop :=
  (∀ s : State, s.pwr.d2dLost = false → s.pst < 3 → completes .d2dLinkLoss s (fun t => t.pwr.d2dLost = true ∧ (∀ h < 24, t.fget (HEM_STAT h) F.HEM_STAT_STALE = 1) ∧
    t.reports = s.reports ++ [{ src := srcId 10 127, elem := 0, code := C.HEM_F_LINK_LOST, addr := 0, detail := 0, level := none }] ∧
    t = { s with regs := t.regs, reports := t.reports, pwr := { s.pwr with d2dLost := true } } ∧ regsKept (fun off => ∃ h < 24, off = HEM_STAT h) s t)) ∧
  (∀ (s : State) (h mv uv : Nat), h < 24 → s.pwr.d2dLost = true → completes (.telemetryConversion h mv uv) s (fun t =>
    let ma := uv * 1000 / max 1 (s.fget (HEM_CFG h) F.HEM_CFG_RSENSE)
    (t.hem h).vin = min mv 65535 ∧ (t.hem h).ma = min ma 65535 ∧ (t.hem h).pdw = min (mv * ma / 100000) 65535 ∧
    (t.hem h).vinok = decide (10800 ≤ mv) ∧ (t.hem h).imax = max (s.hem h).imax (min ma 65535) ∧ (t.hem h).gate = (s.hem h).gate ∧
    (∀ k, k ≠ h → t.hem k = s.hem k) ∧ t = { s with hems := t.hems, diag := t.diag, ctr := t.ctr })) ∧
  (∀ s : State, s.pwr.d2dLost = true → (∀ h < 24, s.fget (HEM_STAT h) F.HEM_STAT_PG = 0) → completes .d2dLinkReturn s (fun t =>
    t.pwr.d2dLost = false ∧ t.pwr.lateReports = [] ∧ t.reports = s.reports ++ s.pwr.lateReports ∧ t.hems = s.hems ∧ t.dram = s.dram ∧
    ∀ h < 24, t.fget (HEM_STAT h) F.HEM_STAT_STALE = 0 ∧ t.fget (HEM_TELEM h) F.HEM_TELEM_VIN_MV = (s.hem h).vin % 65536))

/-- A request for P2, P3 or P4 is refused with the reason the spec gives, or begins an entry (R520, R521, spec/16_power_states.md). -/
def Obligations.PowerEntryRequests : Prop :=
  ∀ (s : State) (who : Who) (val : Word) (w : CtlWrite), admitted who PWR_CTL val s w → whoTrusted who = true → fld w.act F.PWR_CTL_GO = 1 →
    ∀ c ∈ [Instr.p2Entry who val, .p3Entry who val, .p4Entry who val],
    let t0 := fld w.new F.PWR_CTL_TARGET
    let bad := 2 ≤ s.pst ∨ t0 < 2 ∨ 4 < t0 ∨ s.fget PWR_CTL F.PWR_CTL_BUSY = 1 ∨ (s.devLevel = 4 ∧ t0 ≠ 4)
    let work := pwrRefusers (s.fset PWR_CTL F.PWR_CTL_TARGET t0) t0
    completes c s (fun t => t = { s with regs := t.regs, out := t.out, levelNs := t.levelNs, pwr := t.pwr } ∧
      (bad → endedWith who PWR_CTL C.PWR_E_STATE t ∧ t.fget PWR_CTL F.PWR_CTL_STATUS = C.PWR_E_STATE ∧ t.fget PWR_CTL F.PWR_CTL_BUSY = s.fget PWR_CTL F.PWR_CTL_BUSY ∧
        t.pwr = s.pwr ∧ regsKept (fun off => off = PWR_CTL ∨ errorReg off) s t) ∧
      (¬ bad → work ≠ [] → endedWith who PWR_CTL C.PWR_E_BUSY t ∧ t.fget PWR_CTL F.PWR_CTL_STATUS = C.PWR_E_BUSY ∧ t.fget PWR_CTL F.PWR_CTL_BUSY = s.fget PWR_CTL F.PWR_CTL_BUSY ∧ t.pwr = s.pwr) ∧
      (¬ bad → work = [] → endedWith who PWR_CTL 0 t ∧ t.fget PWR_CTL F.PWR_CTL_BUSY = 1 ∧ t.pwr = { s.pwr with normal := false, target := t0 } ∧
        regsKept (fun off => off = PWR_CTL) s t))

/-- P1 stops and restarts the core clock; an entry to P2 completes; an enabled source wakes it or aborts an entry (R518, R524, R525, R526, spec/16_power_states.md). -/
def Obligations.PowerStatesEnterAndWake : Prop :=
  ∀ s : State,
    let frame := fun (t : State) => t = { s with regs := t.regs, levelNs := t.levelNs, pst := t.pst, pwr := t.pwr } ∧
      regsKept (fun off => off = PWR_CTL ∨ off = PWR_STAT ∨ (∃ i < 4, off = PWR_ACCT i) ∨ counterReg off = true) s t
    (s.fget PWR_CFG F.PWR_CFG_P1_AUTO = 1 → s.pst = 0 → s.pwr.held = 0 → s.fget PWR_CTL F.PWR_CTL_BUSY = 0 →
      completes .p1Entry s (fun t => t.pst = 1 ∧ t.fget (PWR_ACCT 0) F.PWR_ACCT_ENTERED = min (s.fget (PWR_ACCT 0) F.PWR_ACCT_ENTERED + 1) (2 ^ F.PWR_ACCT_ENTERED.w - 1) ∧ frame t)) ∧
    (s.pst = 1 → completes .p1Exit s (fun t => t.pst = 0 ∧ t.fget PWR_STAT F.PWR_STAT_PREV = 1 ∧ frame t)) ∧
    (s.fget PWR_CTL F.PWR_CTL_BUSY = 1 → s.pwr.target = 2 → completes .powerEntryComplete s (fun t => t.pst = 2 ∧ t.fget PWR_CTL F.PWR_CTL_BUSY = 0 ∧
      t.fget PWR_CTL F.PWR_CTL_STATUS = 0 ∧ frame t)) ∧
    (∀ src, wakeEnabled s src = true → wakeFrom src 2 = true → s.pst = 2 → s.fget PWR_CTL F.PWR_CTL_BUSY = 0 → src < 16 →
      completes (.wake src) s (fun t => t.pst = 0 ∧ t.fget PWR_STAT F.PWR_STAT_PREV = 2 ∧ t.fget PWR_STAT F.PWR_STAT_WAKESRC = src ∧ frame t)) ∧
    (s.fget PWR_WAKE F.PWR_WAKE_TIMER_S ≠ 0 → s.pst = 2 → s.fget PWR_CTL F.PWR_CTL_BUSY = 0 →
      completes .timerWake s (fun t => t.pst = 0 ∧ t.fget PWR_STAT F.PWR_STAT_WAKESRC = 14 ∧ frame t)) ∧
    (∀ src, wakeEnabled s src = false → exec (.wake src) s = .next s) ∧
    (∀ src, wakeEnabled s src = true → s.fget PWR_CTL F.PWR_CTL_BUSY = 1 → wakeFrom src s.pwr.target = true → 2 ≤ s.pwr.target → s.pwr.target ≤ 4 →
      completes (.wake src) s (fun t => t.pst = 0 ∧ t.fget PWR_CTL F.PWR_CTL_BUSY = 0 ∧ t.fget PWR_CTL F.PWR_CTL_STATUS = C.PWR_E_ABORTED ∧ frame t)) ∧
    (∀ p, linkUp s p = true → (s.port p).trk = [] → completes (.hostLinkL1Entry p) s (fun t => (t.port p).l1 = true ∧
      t = { s with ports := t.ports } ∧ ∀ q, q ≠ p → t.port q = s.port q))

/-- REQ_MV outside 650 to 850 is refused with PWR_E_VRANGE; within it the BMC is asked; past 950 mV the machine stops (R532, R580, spec/16_power_states.md). -/
def Obligations.VoltageRequestsInRange : Prop :=
  (∀ (s : State) (who : Who) (val : Word) (w : CtlWrite), admitted who PWR_VCORE val s w →
    let mv := fld w.new F.PWR_VCORE_REQ_MV
    (mv < 650 ∨ 850 < mv → completes (.reqMv who val) s (fun t => endedWith who PWR_VCORE C.PWR_E_VRANGE t ∧ t.rg PWR_VCORE = s.rg PWR_VCORE ∧
      t = { s with regs := t.regs, out := t.out } ∧ regsKept errorReg s t)) ∧
    (650 ≤ mv → mv ≤ 850 → completes (.reqMv who val) s (fun t => t.fget PWR_VCORE F.PWR_VCORE_REQ_MV = mv ∧
      t.out = .ctlDone who PWR_VCORE 0 :: .bmcVolt mv :: s.out ∧ t = { s with regs := t.regs, out := t.out } ∧ regsKept (fun off => off = PWR_VCORE) s t))) ∧
  (∀ (s : State) (mv : Nat), (mv ≤ 950 → completes (.vddCoreChange mv) s (fun t => t.fget PWR_VCORE F.PWR_VCORE_MEAS_MV = mv ∧ t = { s with regs := t.regs } ∧
      regsKept (fun off => off = PWR_VCORE) s t)) ∧
    (950 < mv → exec (.vddCoreChange mv) s = .fault .outsideRatings))

/-- Only PRT, DCH, PLT and BOB units can be gated, under the condition of their GATE value; trusted-use bits are kept (R530, R491, spec/16_power_states.md). -/
def Obligations.GatingUnitsAndTrustedUse : Prop :=
  (∀ (s : State) (who : Who) (u : Nat) (val : Word) (w : CtlWrite), u < 165 → whoTrusted who = true → admitted who (PWR_UNITCTL u) val s w →
    let g := fld w.new F.PWR_UNITCTL_GATE
    let gatableUnit := (1 ≤ u ∧ u ≤ 40) ∨ (43 ≤ u ∧ u ≤ 66) ∨ (68 ≤ u ∧ u ≤ 131)
    completes (.gate who u val) s (fun t => dramKept s t ∧ t.pending = s.pending ∧
      (¬ gatableUnit ∨ g = 3 → endedWith who (PWR_UNITCTL u) C.PWR_E_NOT_GATABLE t ∧ t.fget (PWR_UNITCTL u) F.PWR_UNITCTL_GATED = s.fget (PWR_UNITCTL u) F.PWR_UNITCTL_GATED ∧
        t = { s with regs := t.regs, out := t.out } ∧ regsKept (fun off => off = PWR_UNITCTL u ∨ errorReg off) s t) ∧
      (gatableUnit → g ≠ 3 → g ≠ 0 → gateOk s u g = false → endedWith who (PWR_UNITCTL u) C.PWR_E_BUSY t ∧
        t.fget (PWR_UNITCTL u) F.PWR_UNITCTL_GATED = s.fget (PWR_UNITCTL u) F.PWR_UNITCTL_GATED ∧ onlyRegisters s t) ∧
      (gatableUnit → g ≠ 3 → g = 0 ∨ gateOk s u g = true → endedWith who (PWR_UNITCTL u) 0 t ∧ t.fget (PWR_UNITCTL u) F.PWR_UNITCTL_GATED = g ∧
        t.fget (PWR_UNITCTL u) F.PWR_UNITCTL_GATE = g ∧ regsKept (fun off => off = PWR_UNITCTL u) s t))) ∧
  (∀ (s : State) (who : Who) (i : Nat) (val : Word) (w : CtlWrite), i < 4 → admitted who (MGT_TUSE i) val s w → s.pwr.normal = false →
    completes (.tuseWrite who i val) s (fun t => endedWith who (MGT_TUSE i) 0 t ∧ (t.rg (MGT_TUSE i)).toNat = w.new % 2 ^ 64 ∧
      t = { s with regs := t.regs, out := t.out } ∧ regsKept (fun off => off = MGT_TUSE i) s t))

/-- PWROK falling, a brown-out, a thermal trip and a reset at the pins put every register and DRAM at reset (R510, R511, R589, R590, R596, spec/19_electrical_package.md). -/
def Obligations.ColdResetsLoseEverything : Prop :=
  ∀ s : State, s.pst ≠ 4 →
    let cold := fun (t : State) => (∀ off, off ≠ SBT_STAT → off ≠ MGT_RSTCTL → (∀ h < 24, off ≠ HEM_STAT h) → t.rg off = regReset off) ∧
      t.dram = State.reset.dram ∧ t.home = State.reset.home ∧ t.tier = State.reset.tier ∧ t.spools = [] ∧ t.bobs = [] ∧ t.seam = State.reset.seam ∧ t.chans = [] ∧
      t.mgmt.run = false ∧ t.pst = 0 ∧ t.pending = s.pending ∧ t.out = s.out
    (s.pwr.pwrok = true →
      completes .pwrokFall s (fun t => cold t ∧ t.pwr.pwrok = false ∧ t.pwr.held = 1 ∧ coreOpen t = false ∧ ctlOpen t = false) ∧
      completes .thermalTrip s (fun t => cold t ∧ t.pwr.held = 3 ∧ t.fget SBT_STAT F.SBT_STAT_TRIP = 1 ∧ coreOpen t = false ∧ ctlOpen t = false) ∧
      (∀ rails, s.pwr.held ≠ 3 → rails % 32 ≠ 0 → completes (.brownout rails) s (fun t => cold t ∧ t.pwr.held = 2 ∧
        t.fget SBT_STAT F.SBT_STAT_BROWNOUT = 1 ∧ t.fget SBT_STAT F.SBT_STAT_RAIL = rails % 32 ∧ coreOpen t = false ∧ ctlOpen t = false)) ∧
      (∀ railsOk, s.pwr.held = 0 → completes (.coldReset 1 railsOk) s (fun t => cold t ∧ t.pwr.held = 0 ∧ t.fget MGT_RSTCTL F.MGT_RSTCTL_LASTRST = 1))) ∧
    (s.pwr.pwrok = false → ∀ railsOk, completes (.coldReset 0 railsOk) s (fun t => cold t ∧ t.pwr.pwrok = true ∧ t.pwr.held = 0 ∧
      t.fget MGT_RSTCTL F.MGT_RSTCTL_LASTRST = 2))

/-- The hottest sensor is reported; SB_ALERT_N follows ALERT_C with its hysteresis; the sideband writes the thermal page (R595, R597, spec/19_electrical_package.md). -/
def Obligations.ThermalPageFollowsTheSensors : Prop :=
  (∀ (s : State) (core selv : List Nat), core ≠ [] → selv ≠ [] → (∀ x ∈ core, x < 128) → (∀ x ∈ selv, x < 128) →
    completes (.sensorConversion (core.map Int.ofNat) (selv.map Int.ofNat)) s (fun t =>
      let a := s.fget SBT_THERMCFG F.SBT_THERMCFG_ALERT_C
      let hy := s.fget SBT_THERMCFG F.SBT_THERMCFG_HYST_C
      let cm := core.foldl max 0
      let sm := selv.foldl max 0
      t.fget SBT_TEMP F.SBT_TEMP_CORE_MAX = cm ∧ t.fget SBT_TEMP F.SBT_TEMP_SELV_MAX = sm ∧
      (a ≤ cm ∨ a ≤ sm → t.fget SBT_STAT F.SBT_STAT_ALERT = 1 ∧ t.fget SBT_STAT F.SBT_STAT_ALERTED = 1) ∧
      (cm + hy < a → sm + hy < a → t.fget SBT_STAT F.SBT_STAT_ALERT = 0) ∧
      (cm < a → sm < a → a ≤ cm + hy ∨ a ≤ sm + hy → t.fget SBT_STAT F.SBT_STAT_ALERT = s.fget SBT_STAT F.SBT_STAT_ALERT) ∧
      t = { s with regs := t.regs } ∧ regsKept (fun off => off = SBT_TEMP ∨ off = SBT_STAT) s t)) ∧
  (∀ (s : State) (val : Word), s.mgmt.stopped = false → s.pst = 0 → s.fget PWR_CTL F.PWR_CTL_BUSY = 0 →
    completes (.thermalPageWrite (SBT_THERMCFG - 0x100000000) val) s (fun t =>
      t.fget SBT_THERMCFG F.SBT_THERMCFG_ALERT_C = getBits val.toNat F.SBT_THERMCFG_ALERT_C.lo F.SBT_THERMCFG_ALERT_C.w ∧
      t.fget SBT_THERMCFG F.SBT_THERMCFG_HYST_C = getBits val.toNat F.SBT_THERMCFG_HYST_C.lo F.SBT_THERMCFG_HYST_C.w ∧
      t = { s with regs := t.regs } ∧ regsKept (fun off => off = SBT_THERMCFG) s t))

/-- Each query of a head mailbox on an open head ends with success and the values the head has, and changes nothing else (R94, R108, R109, spec/03_host_ports_cxl.md). -/
def Obligations.MailboxQueriesAnswer : Prop :=
  ∀ (s : State) (p : Nat), p < 16 → mboxOpen s p = true →
    let answersAs := fun (x : Port) (c : Instr) (op : Nat) (payload : List Nat) => completes c s (fun t =>
      toldHost s p { x with mbox := some ⟨op, 0, 0, payload⟩ } t ∧ (∀ q, q ≠ p → t.port q = s.port q) ∧
      t = { s with regs := t.regs, ports := t.ports, out := t.out, pst := t.pst } ∧ regsKept (fun off => off = PWR_STAT) s t)
    let answers := answersAs (s.port p)
    (∀ log < 5, let l := (s.port p).events.filter (fun e => e.log == log)
      answers (.getEventRecords p log) 0x0100 (((if bit (s.port p).evOverflow log then 1 else 0) + (if 31 < l.length then 2 else 0)) ::
        (l.take 31).flatMap (fun e => [e.handle, e.status, e.src, e.dpa, e.len]))) ∧
    answers (.getEventInterruptPolicy p) 0x0102 [(s.port p).evPolicy] ∧
    answers (.getFwInfo p) 0x0200 [1, 1, 0, Config.fwVersion s.mgmt.pat] ∧
    answers (.getTimestamp p) 0x0300 [((s.port p).tsBase + (s.time + 2 ^ 64 - (s.port p).tsAt)) % 2 ^ 64] ∧
    answers (.getSupportedLogs p) 0x0400 [2, Config.logUuid 0, Config.logUuid 1] ∧
    (∀ off len, len ≤ 4096 → off + len ≤ effectsLog.length → answers (.getLog p (Config.logUuid 0) off len) 0x0401 ((effectsLog.drop off).take len)) ∧
    answers (.identifyMemoryDevice p) 0x4000 [dpaS s p, dpaS s p, 0, 1024] ∧
    answers (.getPartitionInfo p) 0x4100 [dpaS s p, 0, dpaS s p, 0] ∧
    answers (.getHealthInfo p) 0x4200 [s.devLevel, s.fget SBT_TEMP F.SBT_TEMP_CORE_MAX, correctedErrors s, spareFrames s, alertsNow s (s.port p)] ∧
    answers (.getAlertConfiguration p) 0x4201 (s.port p).alerts ∧
    (∀ dpa len, let l := (s.port p).poisonList.filter (fun d => decide (dpa ≤ d) && decide (d < dpa + len) && dpaUsable s p d)
      ((s.port p).poisonCur.1 ≠ dpa ∨ (s.port p).poisonCur.2.1 ≠ len) →
      answersAs { s.port p with poisonCur := if 254 < l.length then (dpa, len, 254) else (0, 0, 0) } (.getPoisonList p dpa len) 0x4300
        (((if (s.port p).poisonOver then 1 else 0) + (if 254 < l.length then 2 else 0)) :: l.take 254)) ∧
    answers (.getDcConfiguration p) 0x4800
      [dpaS s p, dpaR0 s p, dpaS s p + dpaR0 s p, dpaR1 s p, 2097152, s.fget (PRT_DPALAYOUT p) F.PRT_DPALAYOUT_DCR1_SHARE] ∧
    (∀ n, answers (.getDcExtentList (p, n)) 0x4801 ((((s.port p).extents.drop n).take 102).flatMap fun e => [e.dpa, e.len])) ∧
    answers (.getSpoolAssignment p) 0xC000 (((List.range 1024).filter (headOwns s p)).flatMap fun q => [q, spoolClass s q]) ∧
    (∀ n, answers (.getProgramDirectory (p, n)) 0xC002 ((((List.range 256).filter fun i => decide (n ≤ i) && (s.prog i).valid &&
      (((List.range 1024).filter (headOwns s p)).map (spoolClass s)).any (bit (s.prog i).classes)).take 227).flatMap fun i => [i, (s.prog i).name])) ∧
    answers (.getStatusDetail p) 0xC003 [(s.port p).detail.1, (s.port p).detail.2]

/-- The setting commands of the mailbox change the head they run on; a wrong input and an unlisted opcode fail with their return code (R108, R109, R309, spec/03_host_ports_cxl.md). -/
def Obligations.MailboxSettingsTakeEffect : Prop :=
  ∀ (s : State) (p : Nat), p < 16 → mboxOpen s p = true →
    let after := fun (c : Instr) (op rc vendor : Nat) (x : Port) => completes c s (fun t =>
      toldHost s p { x with mbox := some ⟨op, rc, vendor, []⟩, detail := if rc = 0 then (s.port p).detail else (vendor, srcId 1 p) } t ∧ (∀ q, q ≠ p → t.port q = s.port q) ∧
      t = { s with regs := t.regs, ports := t.ports, out := t.out, pst := t.pst } ∧ regsKept (fun off => off = PWR_STAT) s t)
    (∀ v, after (.setEventInterruptPolicy p v) 0x0103 0 0 { s.port p with evPolicy := v % 32 }) ∧
    (∀ v, after (.setTimestamp p v) 0x0301 0 0 { s.port p with tsBase := v % 2 ^ 64, tsAt := s.time }) ∧
    (∀ al, al.length = 3 → completes (.setAlertConfiguration p al) s (fun t => (t.port p).alerts = al ∧ (t.port p).mbox = some ⟨0x4202, 0, 0, []⟩ ∧
      (t.port p).alerted = alertsNow s (t.port p) ∧
      t.port p = { s.port p with mbox := (t.port p).mbox, alerts := al, alerted := (t.port p).alerted, events := (t.port p).events, evOverflow := (t.port p).evOverflow, evNext := (t.port p).evNext, msixPend := (t.port p).msixPend } ∧
      (vecMasked s p = false → t.out.head? = some (.msix p 0)) ∧ (∀ q, q ≠ p → t.port q = s.port q) ∧
      t = { s with regs := t.regs, ports := t.ports, out := t.out, pst := t.pst } ∧ regsKept (fun off => off = PWR_STAT) s t)) ∧
    (∀ al, al.length ≠ 3 → after (.setAlertConfiguration p al) 0x4202 2 0 (s.port p)) ∧
    (∀ log all hs, 5 ≤ log → after (.clearEventRecords p log all hs) 0x0101 2 0 (s.port p)) ∧
    (∀ log hs, log < 5 → after (.clearEventRecords p log true hs) 0x0101 0 0
      { s.port p with events := (s.port p).events.filter (fun e => e.log != log), evOverflow := withBit (s.port p).evOverflow log false }) ∧
    (∀ q, q < 1024 → headOwns s p q = false → (s.port p).mboxBg = none → after (.resetSpool p q) 0xC001 2 C.CTL_E_NOT_OWNER (s.port p)) ∧
    (∀ q, q < 1024 → headOwns s p q = true → (s.port p).mboxBg = none →
      (s.fget (SPL_STAT q) F.SPL_STAT_STATE = 4 → after (.resetSpool p q) 0xC001 2 C.SPL_E_CONFIG (s.port p)) ∧
      (s.fget (SPL_STAT q) F.SPL_STAT_STATE ≠ 4 → completes (.resetSpool p q) s (fun t => t.fget (SPL_STAT q) F.SPL_STAT_STATE = 4 ∧ t.port p = { s.port p with mboxBg := some 0xC001 } ∧
        (t.spool q).mbox = (s.spool q).mbox ++ [p] ∧ (t.spool q).asked = false ∧ (∀ k, k ≠ p → t.port k = s.port k) ∧ (∀ k, k ≠ q → t.spool k = s.spool k) ∧ t.dram = s.dram ∧
        ((s.spool q).cmds = [] → t = { s with regs := t.regs, ports := t.ports, spools := t.spools, out := t.out, pst := t.pst, home := { s.home with waiting := t.home.waiting, toHome := t.home.toHome, bobReplies := t.home.bobReplies } } ∧
          t.spool q = { s.spool q with mbox := (s.spool q).mbox ++ [p], asked := false } ∧ regsKept (fun off => off = PWR_STAT ∨ off = SPL_STAT q) s t)))) ∧
    (∀ op, mboxOpcodes.contains op = false → after (.mailboxUnsupported p op) op 3 0 (s.port p))

/-- Inject and Clear Poison send a whole-line write to the home slice of a usable DPA and fail on any other (R105, R108, spec/03_host_ports_cxl.md). -/
def Obligations.PoisonCommandsGoThroughHome : Prop :=
  (∀ (s : State) (p dpa : Nat) (data : Line), p < 16 → mboxOpen s p = true →
    let frame := fun (t : State) => (∀ q, q ≠ p → t.port q = s.port q) ∧
      t = { s with regs := t.regs, ports := t.ports, out := t.out, pst := t.pst, home := { s.home with toHome := t.home.toHome } } ∧ regsKept (fun off => off = PWR_STAT) s t
    (dpaUsable s p dpa = false →
      completes (.injectPoison p dpa) s (fun t => (t.port p).mbox = some ⟨0x4301, 0xF, C.PRT_W_UNMAPPED, []⟩ ∧ t.home = s.home ∧ (vecMasked s p = false → t.out.head? = some (.msix p 0)) ∧ frame t) ∧
      completes (.clearPoison p dpa data) s (fun t => (t.port p).mbox = some ⟨0x4302, 0xF, C.PRT_W_UNMAPPED, []⟩ ∧ t.home = s.home ∧ (vecMasked s p = false → t.out.head? = some (.msix p 0)) ∧ frame t)) ∧
    (∀ la, dpaUsable s p dpa = true → dpaToLa s p dpa = some la →
      completes (.injectPoison p dpa) s (fun t => t.port p = { s.port p with mboxRun := some (0x4301, (s.port p).mboxNo), mboxNo := (s.port p).mboxNo + 1 } ∧
        (∃ r : HomeReq, t.home.toHome = s.home.toHome ++ [r] ∧ r.kind = .write ∧ r.la = la / 64 * 64 ∧ r.mask = 2 ^ 64 - 1 ∧ r.poison = true ∧ r.who = .dev (64 + p + 16 * (s.port p).mboxNo)) ∧
        mboxOpen t p = false ∧ frame t) ∧
      completes (.clearPoison p dpa data) s (fun t => t.port p = { s.port p with mboxRun := some (0x4302, (s.port p).mboxNo), mboxNo := (s.port p).mboxNo + 1 } ∧
        (∃ r : HomeReq, t.home.toHome = s.home.toHome ++ [r] ∧ r.kind = .write ∧ r.la = la / 64 * 64 ∧ r.mask = 2 ^ 64 - 1 ∧ r.poison = false ∧ r.data = data ∧ r.who = .dev (64 + p + 16 * (s.port p).mboxNo)) ∧
        mboxOpen t p = false ∧ frame t))) ∧
  (∀ (s : State) (p no op la k : Nat) (e : LcEntry) (r : HomeReq), p < 16 → r.who = .dev (64 + p + 16 * no) → (s.port p).mboxRun = some (op, no) →
    homeQuiet s la → la < 2 ^ 47 → s.home.dirEnt = [] → lineCached s la k e →
    (∃ ds, descOf s (la / 4096) = some ds ∧ dState ds = stHOT ∧ writeRefusal s (la / 4096) ds = none) →
    r.la = la → r.kind = .write → r.mask = 2 ^ 64 - 1 → s.home.toHome = [r] →
    completes (.homeWrite r) s (fun t => (t.port p).mbox = some ⟨op, 0, 0, []⟩ ∧ (t.port p).mboxRun = none ∧ t.dram = s.dram ∧
      ∃ e', lcFind t la = some (k, e') ∧ e'.data = r.data ∧ e'.st = (if r.poison then LcState.poisoned else .dirty)))

/-- Extents are offered only where the head map covers them, become usable when the host accepts them and stop when they are released (R99, R100, spec/03_host_ports_cxl.md). -/
def Obligations.DynamicCapacityExtents : Prop :=
  (∀ (s : State) (p : Nat) (es : List (Nat × Nat)), hostMode s p = true →
    (∀ eid, eid ≠ s.mgmt.fmEid → exec (.initiateDynamicCapacityAdd p (eid, es)) s = .next s) ∧
    ((∃ e ∈ es, hmCovers s p (e.1 + e.2) 513 e.1 = false) → completes (.initiateDynamicCapacityAdd p (s.mgmt.fmEid, es)) s (fun t =>
      t = { s with out := .fmReply p 0 2 C.PRT_E_EXTENT_UNMAPPED :: s.out })) ∧
    ((∀ e ∈ es, hmCovers s p (e.1 + e.2) 513 e.1 = true ∧ extentFits s p e = true) → completes (.initiateDynamicCapacityAdd p (s.mgmt.fmEid, es)) s (fun t =>
      (t.port p).offered = (s.port p).offered ++ [es.map (fun e => ⟨e.1, e.2⟩)] ∧ (t.port p).extents = (s.port p).extents ∧ t.out.head? = some (.fmReply p 0 0 0) ∧
      t = { s with ports := t.ports, out := t.out } ∧ (∀ q, q ≠ p → t.port q = s.port q)))) ∧
  (∀ (s : State) (p : Nat) (es : List (Nat × Nat)), mboxOpen s p = true → vecMasked s p = false →
    let fits := ∀ e ∈ es, 0 < e.2 ∧ e.1 % 2097152 = 0 ∧ e.2 % 2097152 = 0 ∧ ∃ o ∈ (s.port p).offered.headD [], o.dpa ≤ e.1 ∧ e.1 + e.2 ≤ o.dpa + o.len
    completes (.addDcResponse p es) s (fun t =>
      (fits → (t.port p).mbox = some ⟨0x4802, 0, 0, []⟩ ∧ (t.port p).extents = (s.port p).extents ++ es.map (fun e => ⟨e.1, e.2⟩) ∧ (t.port p).offered = (s.port p).offered.drop 1) ∧
      (¬ fits → (t.port p).mbox = some ⟨0x4802, 2, 0, []⟩ ∧ (t.port p).extents = (s.port p).extents ∧ (t.port p).offered = (s.port p).offered) ∧
      t.out = .msix p 0 :: s.out ∧ t = { s with ports := t.ports, out := t.out } ∧ (∀ q, q ≠ p → t.port q = s.port q))) ∧
  (∀ (s : State) (p dpa len : Nat), mboxOpen s p = true → vecMasked s p = false → nothingWaits s → s.devLevel ≠ 4 → (s.port p).trk = [] → s.home.recalls = [] → s.home.dirEnt = [] →
    (s.port p).extents = [⟨dpa, len⟩] → 0 < len →
    completes (.releaseDc p [(dpa, len)]) s (fun t => (t.port p).extents = [] ∧ (t.port p).mbox = some ⟨0x4803, 0, 0, []⟩ ∧
      t.out = .fmReply p 1 0 0 :: .msix p 0 :: s.out ∧ t.dram = s.dram ∧ t.regs = s.regs)) ∧
  (∀ (s : State) (p dpa len : Nat), hostMode s p = true → nothingWaits s → s.devLevel ≠ 4 → (s.port p).trk = [] → s.home.recalls = [] → s.home.dirEnt = [] →
    (∀ eid, eid ≠ s.mgmt.fmEid → exec (.forcedRelease p (eid, dpa) len) s = .next s) ∧
    completes (.forcedRelease p (s.mgmt.fmEid, dpa) len) s (fun t => (t.port p).extents = extentCut dpa len (s.port p).extents ∧
      (t.port p).offered = (s.port p).offered.map (extentCut dpa len) ∧ t.out = .fmReply p 2 0 0 :: s.out ∧ t = { s with ports := t.ports, out := t.out }))

/-- Each reset of a host-mode port does what its row of the table says and leaves every other port alone (R111, R112, R114, spec/03_host_ports_cxl.md). -/
def Obligations.PortResetsCutTheLink : Prop :=
  ∀ (s : State) (p : Nat), p < 16 → hostMode s p = true → (s.calp p).queue = [] → heldLines s p = [] → s.home.recalls = [] → nothingWaits s →
    s.pst = 0 → s.fget PWR_CTL F.PWR_CTL_BUSY = 0 →
    let others := fun (t : State) => (∀ q, q ≠ p → t.port q = s.port q) ∧ dramKept s t ∧
      (∀ q < 16, q ≠ p → t.rg (PRT_LINKSTAT q) = s.rg (PRT_LINKSTAT q) ∧ t.rg (PRT_HEADSTAT q) = s.rg (PRT_HEADSTAT q))
    let cut := fun (kind : Nat) (t : State) => (t.port p).trk = [] ∧ (t.port p).replay = [] ∧ t.fget (PRT_LINKSTAT p) F.PRT_LINKSTAT_LASTRST = kind ∧
      t.fget (PRT_LINKSTAT p) F.PRT_LINKSTAT_RESETS = min (s.fget (PRT_LINKSTAT p) F.PRT_LINKSTAT_RESETS + 1) (2 ^ F.PRT_LINKSTAT_RESETS.w - 1) ∧ others t
    let down := fun (t : State) => t.fget (PRT_LINKSTAT p) F.PRT_LINKSTAT_UP = 0 ∧ t.fget (PRT_LINKSTAT p) F.PRT_LINKSTAT_MEM_EN = 0 ∧
      t.fget (PRT_LINKSTAT p) F.PRT_LINKSTAT_IDE = 0
    let uncommitted := fun (t : State) => (t.port p).dec = [] ∧ t.fget (PRT_HEADSTAT p) F.PRT_HEADSTAT_DEC_COMMIT = 0
    completes (.perstAssert p) s (fun t => cut 1 t ∧ down t ∧ uncommitted t ∧ (t.port p).perst = 1 ∧ (t.port p).terms = false) ∧
    ((s.port p).perst = 1 → completes (.perstRelease p) s (fun t => (t.port p).perst = 0 ∧
      ((t.port p).terms = true ↔ s.fget (PRT_CFG p) F.PRT_CFG_RELEASE = 1) ∧ t.regs = s.regs ∧ others t)) ∧
    (linkUp s p = true →
      completes (.surpriseLinkDown p) s (fun t => cut 2 t ∧ down t ∧ (t.port p).dec = (s.port p).dec ∧
        t.reports = s.reports ++ [{ src := srcId 1 p, elem := 0, code := C.PRT_F_LINK, addr := 0, detail := 0, level := none }]) ∧
      completes (.hotReset p) s (fun t => cut 3 t ∧ down t ∧ uncommitted t) ∧
      completes (.linkDisable p) s (fun t => cut 4 t ∧ down t ∧ (t.port p).dec = (s.port p).dec) ∧
      completes (.cxlReset p) s (fun t => cut 5 t ∧ uncommitted t ∧ t.fget (PRT_LINKSTAT p) F.PRT_LINKSTAT_UP = 1) ∧
      completes (.functionLevelReset p) s (fun t => (t.port p).trk = (s.port p).trk ∧ regsKept (fun off => off = PRT_LINKSTAT p) s t ∧ linkUp t p = true ∧
        t.fget (PRT_LINKSTAT p) F.PRT_LINKSTAT_LASTRST = s.fget (PRT_LINKSTAT p) F.PRT_LINKSTAT_LASTRST ∧
        t.fget (PRT_LINKSTAT p) F.PRT_LINKSTAT_RESETS = min (s.fget (PRT_LINKSTAT p) F.PRT_LINKSTAT_RESETS + 1) (2 ^ F.PRT_LINKSTAT_RESETS.w - 1) ∧ others t))

/-- A released host-mode port trains; below 32 GT/s or below x4 CXL.mem stays off; L0p narrows only at 64 GT/s (R86, R87, R88, R111, spec/03_host_ports_cxl.md). -/
def Obligations.HostLinkTrainsAndNarrows : Prop :=
  (∀ (s : State) (p width speed flit : Nat), p < 16 → hostMode s p = true → s.tap.driven = false → s.fget (PRT_CFG p) F.PRT_CFG_RELEASE = 1 → (s.port p).perst = 0 →
    portFenced s p = false → linkUp s p = false → gated s (1 + p) = false → s.pst < 2 →
    s.fget (PRT_CFG p) F.PRT_CFG_MAXW ≤ width → width < 4 → speed < 3 → flit < 3 → (speed = 2 → s.fget (PRT_CFG p) F.PRT_CFG_MAXSPD = 0) →
    (speed = 2 ↔ 0 < flit) → (flit = 2 → s.fget (PRT_CFG p) F.PRT_CFG_LOPT_EN = 1) →
    completes (.linkUp p width speed flit) s (fun t => linkUp t p = true ∧ t.fget (PRT_LINKSTAT p) F.PRT_LINKSTAT_WIDTH = width ∧
      t.fget (PRT_LINKSTAT p) F.PRT_LINKSTAT_SPEED = speed ∧ t.fget (PRT_LINKSTAT p) F.PRT_LINKSTAT_FLIT = flit ∧
      (t.fget (PRT_LINKSTAT p) F.PRT_LINKSTAT_MEM_EN = 1 ↔ 1 ≤ speed ∧ width < 3 ∧ (s.port p).memEn = true) ∧
      (∀ q, q ≠ p → t.port q = s.port q) ∧ t.dram = s.dram ∧ t.home = s.home)) ∧
  (∀ (s : State) (p width : Nat), p < 16 → linkUp s p = true →
    (s.fget (PRT_CFG p) F.PRT_CFG_L0P_EN = 1 → s.fget (PRT_LINKSTAT p) F.PRT_LINKSTAT_SPEED = 2 → s.fget (PRT_LINKSTAT p) F.PRT_LINKSTAT_WIDTH ≤ width → width < 3 →
      completes (.l0pWidthChange p width) s (fun t => t.fget (PRT_LINKSTAT p) F.PRT_LINKSTAT_L0PW = width ∧ t = { s with regs := t.regs, levelNs := t.levelNs } ∧
        regsKept (fun off => off = PRT_LINKSTAT p ∨ counterReg off = true) s t)) ∧
    (s.fget (PRT_CFG p) F.PRT_CFG_L0P_EN = 0 ∨ s.fget (PRT_LINKSTAT p) F.PRT_LINKSTAT_SPEED ≠ 2 → exec (.l0pWidthChange p width) s = .next s)) ∧
  (∀ (s : State) (p : Nat), p < 16 → linkUp s p = true → (s.port p).l1 = false → (s.calp p).queue = [] →
    completes (.linkRecovery p) s (fun t => linkUp t p = true ∧ t.port p = { s.port p with replay := [] } ∧ (∀ q, q ≠ p → t.port q = s.port q) ∧
      t.dram = s.dram ∧ t.home = s.home))

/-- A valid head-map entry cannot be changed but for VALID; an overlap and a range past the layout are refused (R94, R97, R115, spec/03_host_ports_cxl.md). -/
def Obligations.HeadMapWritesAreChecked : Prop :=
  ∀ (s : State) (who : Who) (p n : Nat) (val : Word) (w : CtlWrite), p < 16 → n < 512 →
    let stored := fun (off : Nat) (t : State) => endedWith who off 0 t ∧ (t.rg off).toNat = w.new % 2 ^ 64 ∧ t = { s with regs := t.regs, out := t.out } ∧ regsKept (fun o => o = off) s t
    let refused := fun (off st : Nat) (t : State) => endedWith who off st t ∧ t = { s with regs := t.regs, out := t.out } ∧ regsKept errorReg s t
    (admitted who (PRT_HMAPB p n) val s w →
      (s.fget (PRT_HMAPA p n) F.PRT_HMAPA_VALID = 1 → completes (.hmapbWrite who p n val) s (refused (PRT_HMAPB p n) C.PRT_E_HMAP_BUSY)) ∧
      (s.fget (PRT_HMAPA p n) F.PRT_HMAPA_VALID = 0 → completes (.hmapbWrite who p n val) s (stored (PRT_HMAPB p n)))) ∧
    (admitted who (PRT_HMAPA p n) val s w →
      let lo := fld w.new F.PRT_HMAPA_DPABASE * 2 ^ 21
      let len := (fld w.new F.PRT_HMAPA_LEN + 1) * 2 ^ 21
      let overlap := ∃ i < 512, i ≠ n ∧ (hmEntry s p i).1 = true ∧ (hmEntry s p i).2.1 < lo + len ∧ lo < (hmEntry s p i).2.1 + (hmEntry s p i).2.2.1
      let kind := fld (s.rg (PRT_HMAPB p n)).toNat F.PRT_HMAPB_KIND
      let la := fld (s.rg (PRT_HMAPB p n)).toNat F.PRT_HMAPB_LABASE * 2 ^ 21
      let outside := dpaEnd s p < lo + len ∨ (kind = 0 ∧ pagesL s * 4096 < la + len)
      (fld w.old F.PRT_HMAPA_VALID = 1 → w.new ≠ w.old → w.new ≠ putf w.old F.PRT_HMAPA_VALID 0 →
        completes (.hmapaWrite who p n val) s (refused (PRT_HMAPA p n) C.PRT_E_HMAP_BUSY)) ∧
      (fld w.old F.PRT_HMAPA_VALID = 1 → w.new = putf w.old F.PRT_HMAPA_VALID 0 → completes (.hmapaWrite who p n val) s (stored (PRT_HMAPA p n))) ∧
      (fld w.old F.PRT_HMAPA_VALID = 0 → fld w.new F.PRT_HMAPA_VALID = 1 →
        (overlap → completes (.hmapaWrite who p n val) s (refused (PRT_HMAPA p n) C.PRT_E_HMAP_OVERLAP)) ∧
        (¬ overlap → outside → completes (.hmapaWrite who p n val) s (refused (PRT_HMAPA p n) C.PRT_E_HMAP_RANGE)) ∧
        (¬ overlap → ¬ outside → completes (.hmapaWrite who p n val) s (stored (PRT_HMAPA p n)))) ∧
      (fld w.old F.PRT_HMAPA_VALID = 0 → fld w.new F.PRT_HMAPA_VALID = 0 → completes (.hmapaWrite who p n val) s (stored (PRT_HMAPA p n)))) ∧
    (admitted who (PRT_DPALAYOUT p) val s w →
      let sum := fld w.new F.PRT_DPALAYOUT_STATIC + fld w.new F.PRT_DPALAYOUT_DCR0 + fld w.new F.PRT_DPALAYOUT_DCR1
      (2 ^ 19 < sum → completes (.dpalayoutWrite who p val) s (refused (PRT_DPALAYOUT p) C.PRT_E_HMAP_RANGE)) ∧
      (sum ≤ 2 ^ 19 → completes (.dpalayoutWrite who p val) s (stored (PRT_DPALAYOUT p)))) ∧
    (admitted who (PRT_CFG p) val s w → completes (.release who p val) s (fun t => endedWith who (PRT_CFG p) 0 t ∧
      (t.rg (PRT_CFG p)).toNat = w.new % 2 ^ 64 ∧ t = { s with regs := t.regs, out := t.out, ports := t.ports } ∧ (∀ q, q ≠ p → t.port q = s.port q) ∧
      regsKept (fun o => o = PRT_CFG p ∨ o = PRT_HEADSTAT p) s t))

/-- The host commits a decoder above the ones it has; without back-invalidate in 256-byte flit mode the commit fails (R95, spec/03_host_ports_cxl.md). -/
def Obligations.DecodersCommitInOrder : Prop :=
  ∀ (s : State) (p i base size skip ways gran : Nat) (lock memEn : Bool), p < 16 → i < 16 → linkUp s p = true →
    let enabled := fun (t : State) => (t.fget (PRT_LINKSTAT p) F.PRT_LINKSTAT_MEM_EN = 1 ↔ memEn = true ∧ 1 ≤ s.fget (PRT_LINKSTAT p) F.PRT_LINKSTAT_SPEED ∧
      s.fget (PRT_LINKSTAT p) F.PRT_LINKSTAT_WIDTH < 3)
    let frame := fun (t : State) => enabled t ∧ (∀ q, q ≠ p → t.port q = s.port q) ∧ t = { s with regs := t.regs, ports := t.ports } ∧
      regsKept (fun off => off = PRT_HEADSTAT p ∨ off = PRT_LINKSTAT p) s t
    (portDec s p i = none → (decList s p).length = i → base % 2 ^ 28 = 0 → 0 < size → ways ∈ decWays → gran ∈ decGrans → size % (2 ^ 28 * ways) = 0 →
      (∀ d ∈ decList s p, d.base + d.size ≤ base) →
      completes (.hdmCommit p i base size skip ways gran true lock (true, memEn)) s (fun t =>
        portDec t p i = some ⟨base, size, (decList s p).foldl (fun a d => max a (d.dpa + d.size / d.ways)) 0 + skip, ways, gran, true, lock⟩ ∧
        t.fget (PRT_HEADSTAT p) F.PRT_HEADSTAT_DEC_COMMIT = (decList t p).length % 2 ^ F.PRT_HEADSTAT_DEC_COMMIT.w ∧ (∀ j, j ≠ i → portDec t p j = portDec s p j) ∧ frame t) ∧
      (s.fget (PRT_LINKSTAT p) F.PRT_LINKSTAT_FLIT ≠ 0 → completes (.hdmCommit p i base size skip ways gran false lock (true, memEn)) s (fun t =>
        i ∈ (t.port p).notCommitted ∧ portDec t p i = none ∧ (∀ j, portDec t p j = portDec s p j) ∧ enabled t ∧ t.dram = s.dram ∧ regsKept (fun off => off = PRT_LINKSTAT p) s t))) ∧
    (∀ d, portDec s p i = some d →
      (d.locked = false → completes (.hdmCommit p i base size skip ways gran true lock (false, memEn)) s (fun t => portDec t p i = none ∧
        (∀ j, j ≠ i → portDec t p j = portDec s p j) ∧ frame t)) ∧
      (d.locked = true → completes (.hdmCommit p i base size skip ways gran true lock (false, memEn)) s (fun t => (∀ j, portDec t p j = portDec s p j) ∧ frame t)))

/-- A CXL.mem request is translated and sent to its home slice; one to an unmapped DPA never is (R84, R98, R102, spec/03_host_ports_cxl.md). -/
def Obligations.HostRequestsReachTheirSlice : Prop :=
  ∀ (s : State) (p op mv hpa tag mask dpa : Nat) (data : Line) (poison : Bool), p < 16 → linkUp s p = true → s.fget (PRT_LINKSTAT p) F.PRT_LINKSTAT_MEM_EN = 1 →
    s.fget (PRT_LINKSTAT p) F.PRT_LINKSTAT_IDE = 0 → s.fget (PRT_HEADSTAT p) F.PRT_HEADSTAT_FATAL = 0 → (s.port p).ideInsecure = false → (s.port p).l1 = false → coreOpen s = true → s.pst = 0 →
    s.fget PWR_CTL F.PWR_CTL_BUSY = 0 → (∀ r ∈ (s.port p).trk, r.tag ≠ tag) → (s.port p).trk.length < 2048 → portHeld s p = false →
    hpaToDpa s p hpa 16 0 = some dpa →
    (∀ la, dpaUsable s p dpa = true → dpaToLa s p dpa = some la → completes (.cxlMemRequest p op mv hpa tag data mask poison true) s (fun t =>
      (∃ r : HomeReq, t.home.toHome = s.home.toHome ++ [r] ∧ r.kind = m2sKind op mv ∧ r.who = .port p tag (s.port p).gen ∧ r.la = la / 64 * 64 ∧ r.master = p ∧ r.data = data) ∧
      (t.port p).trk = (s.port p).trk ++ [⟨tag, op == 2, la / 64 * 64, dpa, s.time⟩] ∧ t.out = s.out ∧ t.dram = s.dram ∧
      t = { s with regs := t.regs, levelNs := t.levelNs, ports := t.ports, diag := t.diag, home := { s.home with toHome := t.home.toHome } } ∧
      regsKept (fun off => counterReg off = true) s t)) ∧
    (dpaUsable s p dpa = false → completes (.cxlMemRequest p op mv hpa tag data mask poison true) s (fun t => t.home = s.home ∧ t.dram = s.dram ∧
      (t.port p).trk = (s.port p).trk ∧ (∃ r ∈ t.reports, r.src = srcId 1 p ∧ r.code = C.PRT_W_UNMAPPED ∧ r.addr = dpa) ∧
      (op = 0 → t.out.head? = some (.hostCpl p tag 0 true 0 (devLoad t p)))))

/-- The CDAT, SPDM and CXL_IDE_KM requests are answered; a ninth SPDM session is refused; IDE goes on only with both keys (R85, R218, R507, spec/15_management_worlds_boot.md). -/
def Obligations.AttestationAndLinkKeys : Prop :=
  (∀ (s : State) (p off len : Nat), p < 16 → linkUp s p = true → completes (.cdatRead p off len) s (fun t =>
    ∃ b, b.length = len ∧ (∀ x ∈ b, x < 256) ∧ t = { s with out := .doe p b :: s.out })) ∧
  (∀ (s : State) (tr arg : Nat), tr ≤ 17 → s.mgmt.run = true →
    completes (.spdmRequest tr 0x84 arg) s (fun t => t = { s with out := .spdm tr 0x04 [0x12, 0x13] :: s.out }) ∧
    (s.mgmt.sessions.length < 8 → completes (.spdmRequest tr 0xE4 arg) s (fun t => ∃ id < 8, id ∉ s.mgmt.sessions ∧
      t = { s with mgmt := { s.mgmt with sessions := s.mgmt.sessions ++ [id] }, out := .spdm tr 0x64 [id] :: s.out })) ∧
    (8 ≤ s.mgmt.sessions.length → completes (.spdmRequest tr 0xE4 arg) s (fun t => ∃ b, t = { s with out := .spdm tr 0x7F b :: s.out })) ∧
    (arg ∈ s.mgmt.sessions → completes (.spdmRequest tr 0xEC arg) s (fun t => arg ∉ t.mgmt.sessions ∧
      t = { s with mgmt := { s.mgmt with sessions := t.mgmt.sessions }, out := t.out }))) ∧
  (∀ (s : State) (p slot session : Nat), linkUp s p = true → s.mgmt.run = true → session ∈ s.mgmt.sessions →
    let keys := ∀ d < 2, (tabGet (fun _ => none) s.keys.link (p * 4 + d * 2 + slot % 2)).isSome = true
    completes (.cxlIdeKm p 0 (slot, session)) s (fun t => t = { s with out := .ideKm p 0 slot :: s.out }) ∧
    completes (.cxlIdeKm p 1 (slot, session)) s (fun t => t = { s with regs := t.regs, ports := t.ports, diag := t.diag, out := .ideKm p 1 slot :: s.out } ∧
      (keys → t.fget (PRT_LINKSTAT p) F.PRT_LINKSTAT_IDE = 1 ∧ (t.port p).ideSet = some (slot % 2)) ∧ (¬ keys → t.regs = s.regs) ∧ regsKept (fun off => off = PRT_LINKSTAT p) s t) ∧
    completes (.cxlIdeKm p 2 (slot, session)) s (fun t => ((s.port p).ideSet = some (slot % 2) → t.fget (PRT_LINKSTAT p) F.PRT_LINKSTAT_IDE = 0 ∧ (t.port p).ideSet = none) ∧
      t = { s with regs := t.regs, ports := t.ports, out := .ideKm p 2 slot :: s.out } ∧ (∀ q, q ≠ p → t.port q = s.port q) ∧ regsKept (fun off => off = PRT_LINKSTAT p) s t))

/-- Every integer, immediate and RDSYS instruction writes the result of its table to rd, for all operands, and changes nothing else (R253, R257, R258, R259). -/
def Obligations.IntegerInstructions : Prop :=
  ∀ (s : State) (b rd rs1 rs2 imm : Nat), rd < 32 → rs1 < 32 → rs2 < 32 → imm < 2 ^ 16 →
    let x := (s.bob b).gr rs1
    let y := (s.bob b).gr rs2
    let a := fun func r2 => 1 * 2 ^ 26 + rd * 2 ^ 21 + rs1 * 2 ^ 16 + r2 * 2 ^ 11 + func
    let i := fun op r1 v => op * 2 ^ 26 + rd * 2 ^ 21 + r1 * 2 ^ 16 + v
    let gives := fun (c : Instr) (w : Nat) (v : Word) => bobReady s b w → completes c s (wroteG b rd v s)
    let sx := (BitVec.ofNat 16 imm).signExtend 64
    let zx := BitVec.ofNat 64 imm
    let n := y.toNat % 64
    let one := fun (p : Bool) => if p then (1 : Word) else 0
    gives (.stAdd b rd rs1 rs2) (a 0x000 rs2) (x + y) ∧ gives (.stSub b rd rs1 rs2) (a 0x001 rs2) (x - y) ∧
    gives (.stAnd b rd rs1 rs2) (a 0x002 rs2) (x &&& y) ∧ gives (.stOr b rd rs1 rs2) (a 0x003 rs2) (x ||| y) ∧
    gives (.stXor b rd rs1 rs2) (a 0x004 rs2) (x ^^^ y) ∧ gives (.stAndn b rd rs1 rs2) (a 0x005 rs2) (x &&& ~~~y) ∧
    gives (.stSll b rd rs1 rs2) (a 0x006 rs2) (BitVec.ofNat 64 (x.toNat * 2 ^ n)) ∧ gives (.stSrl b rd rs1 rs2) (a 0x007 rs2) (BitVec.ofNat 64 (x.toNat / 2 ^ n)) ∧
    gives (.stSra b rd rs1 rs2) (a 0x008 rs2) (BitVec.ofInt 64 (x.toInt / 2 ^ n)) ∧ gives (.stRotr b rd rs1 rs2) (a 0x009 rs2) (x >>> n ||| x <<< (64 - n)) ∧
    gives (.stSlt b rd rs1 rs2) (a 0x00A rs2) (one (decide (x.toInt < y.toInt))) ∧ gives (.stSltu b rd rs1 rs2) (a 0x00B rs2) (one (decide (x.toNat < y.toNat))) ∧
    gives (.stMul b rd rs1 rs2) (a 0x010 rs2) (x * y) ∧ gives (.stMulhu b rd rs1 rs2) (a 0x011 rs2) (BitVec.ofNat 64 (x.toNat * y.toNat / 2 ^ 64)) ∧
    gives (.stDivu b rd rs1 rs2) (a 0x012 rs2) (if y = 0 then BitVec.allOnes 64 else BitVec.ofNat 64 (x.toNat / y.toNat)) ∧
    gives (.stRemu b rd rs1 rs2) (a 0x013 rs2) (if y = 0 then x else BitVec.ofNat 64 (x.toNat % y.toNat)) ∧
    gives (.stDiv b rd rs1 rs2) (a 0x014 rs2) (if y = 0 then BitVec.allOnes 64 else BitVec.ofInt 64 (x.toInt.tdiv y.toInt)) ∧
    gives (.stRem b rd rs1 rs2) (a 0x015 rs2) (if y = 0 then x else BitVec.ofInt 64 (x.toInt.tmod y.toInt)) ∧
    (x = BitVec.intMin 64 → y = BitVec.allOnes 64 → gives (.stDiv b rd rs1 rs2) (a 0x014 rs2) (BitVec.intMin 64) ∧ gives (.stRem b rd rs1 rs2) (a 0x015 rs2) 0) ∧
    (∃ k ≤ 64, x.toNat < 2 ^ (64 - k) ∧ (k < 64 → 2 ^ (63 - k) ≤ x.toNat) ∧ gives (.stClz b rd rs1) (a 0x020 0) (BitVec.ofNat 64 k)) ∧
    (∃ k ≤ 64, x.toNat % 2 ^ k = 0 ∧ (k < 64 → x.getLsbD k = true) ∧ gives (.stCtz b rd rs1) (a 0x021 0) (BitVec.ofNat 64 k)) ∧
    gives (.stPopc b rd rs1) (a 0x022 0) (BitVec.ofNat 64 ((List.range 64).countP fun k => x.getLsbD k)) ∧
    (∃ v : Word, (∀ k < 8, v.extractLsb' (8 * k) 8 = x.extractLsb' (56 - 8 * k) 8) ∧ gives (.stBswap b rd rs1) (a 0x023 0) v) ∧
    gives (.stAddi b rd rs1 imm) (i 0x08 rs1 imm) (x + sx) ∧ gives (.stAndi b rd rs1 imm) (i 0x09 rs1 imm) (x &&& zx) ∧
    gives (.stOri b rd rs1 imm) (i 0x0A rs1 imm) (x ||| zx) ∧ gives (.stXori b rd rs1 imm) (i 0x0B rs1 imm) (x ^^^ zx) ∧
    gives (.stSlti b rd rs1 imm) (i 0x0C rs1 imm) (one (decide (x.toInt < sx.toInt))) ∧ gives (.stSltiu b rd rs1 imm) (i 0x0D rs1 imm) (one (decide (x.toNat < sx.toNat))) ∧
    (∀ k < 64, gives (.stShi b rd rs1 k) (i 0x0E rs1 k) (BitVec.ofNat 64 (x.toNat * 2 ^ k)) ∧ gives (.stShi b rd rs1 (64 + k)) (i 0x0E rs1 (64 + k)) (BitVec.ofNat 64 (x.toNat / 2 ^ k)) ∧
      gives (.stShi b rd rs1 (128 + k)) (i 0x0E rs1 (128 + k)) (BitVec.ofInt 64 (x.toInt / 2 ^ k)) ∧
      gives (.stShi b rd rs1 (192 + k)) (i 0x0E rs1 (192 + k)) (x >>> k ||| x <<< (64 - k))) ∧
    (∀ k < 4, gives (.stIns16 b rd k imm) (i 0x0F k imm) (((s.bob b).gr rd &&& ~~~((0xFFFF : Word) <<< (16 * k))) ||| (zx <<< (16 * k)))) ∧
    (let sys := fun k (v : Nat) => gives (.stRdsys b rd k) (i 0x36 0 k) (BitVec.ofNat 64 v)
     sys 0 (s.fget FAB_NODEID F.FAB_NODEID_NODE) ∧ sys 1 b ∧ sys 2 (s.bob b).q ∧ sys 3 s.time ∧ sys 4 (s.fget (BOB_STAT b) F.BOB_STAT_CLASS) ∧
     sys 5 (s.fget TIR_EXTENT F.TIR_EXTENT_L3G * (3 * 2 ^ 30)) ∧ sys 6 (s.fget TIR_LAYOUT F.TIR_LAYOUT_GRP_EN) ∧ sys 7 ((s.bob b).cap.getD 0 0))

/-- Branches and jumps go where their offset says or end the program with BOB_E_PC_RANGE; illegal words, timeouts and hardware faults end it (R256, R260, R286, R287, R288, R289, spec/08_stitch_isa.md). -/
def Obligations.ControlFlowAndProgramEnds : Prop :=
  ∀ (s : State) (b rd rs1 rs2 imm : Nat), b < 64 → rd < 32 → rs1 < 32 → rs2 < 32 → imm < 2 ^ 16 →
    let u := s.bob b
    let x := u.gr rs1
    let y := u.gr rs2
    let off := (BitVec.ofNat 16 imm).toInt
    let d := fun op => op * 2 ^ 26 + rs1 * 2 ^ 21 + rs2 * 2 ^ 16 + imm
    let inText := fun (k : Int) => 0 ≤ k ∧ k < (u.words : Int)
    let goes := fun (k : Int) (v : Bob) (t : State) => t.bob b = { v with pc := k.toNat, last := u.pc } ∧ othersKept b s t ∧
      t = { s with bobs := t.bobs, out := t.out, regs := t.regs } ∧ regsKept (slotReg b) s t ∧ (s.fget CAL_AXTCFG F.CAL_AXTCFG_EN = 0 → t.out = s.out)
    let branches := fun (c : Instr) (op : Nat) (p : Prop) => bobReady s b (d op) →
      (p → inText (u.pc + off) → completes c s (goes (u.pc + off) u)) ∧ (p → ¬ inText (u.pc + off) → completes c s (faultsWith b C.BOB_E_PC_RANGE s)) ∧
      (¬ p → completes c s (retired b u s))
    let jumps := fun (c : Instr) (w : Nat) (k : Int) => bobReady s b w →
      (inText k → completes c s (fun t => goes k { u with g := (t.bob b).g } t ∧
        ∀ r, (t.bob b).gr r = if r = rd ∧ r ≠ 0 then BitVec.ofNat 64 (u.pc + 1) else u.gr r)) ∧
      (¬ inText k → completes c s (faultsWith b C.BOB_E_PC_RANGE s))
    branches (.stBeq b rs1 rs2 imm) 0x18 (x = y) ∧ branches (.stBne b rs1 rs2 imm) 0x19 (x ≠ y) ∧
    branches (.stBlt b rs1 rs2 imm) 0x1A (x.toInt < y.toInt) ∧ branches (.stBge b rs1 rs2 imm) 0x1B (y.toInt ≤ x.toInt) ∧
    branches (.stBltu b rs1 rs2 imm) 0x1C (x.toNat < y.toNat) ∧ branches (.stBgeu b rs1 rs2 imm) 0x1D (y.toNat ≤ x.toNat) ∧
    jumps (.stJal b rd imm) (0x1E * 2 ^ 26 + rd * 2 ^ 21 + imm) (u.pc + off) ∧
    jumps (.stJalr b rd rs1 imm) (0x1F * 2 ^ 26 + rd * 2 ^ 21 + rs1 * 2 ^ 16 + imm) (x.toInt + off) ∧
    (coreOpen s = true → u.run = 1 → u.opRd = none → u.disc = none → noLaneWork s b → u.words = u.pc + 1 → u.words ≤ 8192 →
      tabGet (fun _ => 0) u.text u.pc = 0x08 * 2 ^ 26 + rd * 2 ^ 21 + rs1 * 2 ^ 16 + imm → completes (.stAddi b rd rs1 imm) s (fun t =>
        (∀ r, (t.bob b).gr r = if r = rd ∧ r ≠ 0 then x + (BitVec.ofNat 16 imm).signExtend 64 else u.gr r) ∧
        programEnds b C.BOB_E_PC_RANGE u.pc { u with g := (t.bob b).g, last := u.pc } s t)) ∧
    (∀ w, w < 2 ^ 32 → w = 0 ∨ w / 2 ^ 26 ∉ [1, 2, 3, 4, 8, 9, 10, 11, 12, 13, 14, 15, 16, 17, 18, 19, 20, 21, 24, 25, 26, 27, 28, 29, 30, 31, 32, 48, 49, 50, 51, 52, 53, 54, 56] →
      bobReady s b w → completes (.illegalInstruction b) s (faultsWith b C.BOB_E_ILLEGAL s)) ∧
    (u.run = 1 → u.pc < 8192 → getBits (u.cap.getD 0 0) 16 16 ≠ 0 → completes (.programTimeout b) s (programEnds b C.BOB_E_TIMEOUT u.pc u s)) ∧
    (u.run = 1 ∨ u.run = 2 → completes (.bobbinEngineFault b) s (fun t =>
      t.bob b = { u with run := 4, jobs := [] } ∧ othersKept b s t ∧ t.spools = s.spools ∧ t.dram = s.dram ∧ t.home = s.home ∧
      t.tier = { s.tier with pleat := t.tier.pleat } ∧
      t.reports = s.reports ++ [{ src := 4 * 2 ^ 7 + b, elem := 0, code := C.BOB_F_ENGINE, addr := 0, detail := 0, level := none }] ∧
      regsKept (fun off => off = BOB_PROGFLT b) s t)) ∧
    (u.run = 2 → s.devLevel ≠ 4 → u.stores = [] → u.jobs = [] → u.opRd = none → u.disc = none → noLaneWork s b → (∀ c ∈ (s.spool u.q).cmds, c.n = u.n → c.recd ≠ 0) → s.fget (BOB_STAT b) F.BOB_STAT_STATE = 1 → bobTestDue s b = false →
      completes (.programDrainComplete b) s (fun t => (t.bob b).run = 0 ∧ (t.bob b).g = u.g ∧
        t.fget (BOB_STAT b) F.BOB_STAT_STATE = (if s.fget (BOB_CFG b) F.BOB_CFG_DRAIN = 1 then 2 else 0) ∧ othersKept b s t ∧
        (∀ q, q ≠ u.q → t.spool q = s.spool q) ∧ t.dram = s.dram ∧ regsKept (fun off => off = BOB_STAT b) s t))

/-- Line-register operations carry poison as their table says; scratch accesses and atomics read and write exactly the bytes named, or end the program (R261, R262, R263, R264). -/
def Obligations.LineRegistersAndScratchpad : Prop :=
  ∀ (s : State) (b rd rs1 rs2 rb imm : Nat), rb < 32 → imm < 2 ^ 13 →
    let u := s.bob b
    let a := fun op func r1 r2 => op * 2 ^ 26 + rd * 2 ^ 21 + r1 * 2 ^ 16 + r2 * 2 ^ 11 + func
    let m := fun op fn => op * 2 ^ 26 + rd * 2 ^ 21 + rb * 2 ^ 16 + fn * 2 ^ 13 + imm
    let word := fun (l : Line) (i : Nat) => l.extractLsb' (64 * i) 64
    let does := fun (c : Instr) (w : Nat) (P : State → Prop) => bobReady s b w → completes c s P
    let at' := fun (unit : Nat) => ((u.gr rb).toNat : Int) + (BitVec.ofNat 13 imm).toInt * unit
    let inScratch := fun (k : Int) (n : Nat) => 0 ≤ k ∧ k + n ≤ 131072
    (rd < 8 → rs1 < 8 → rs2 < 8 → u.loads = [] →
      does (.stVmov b rd rs1) (a 2 0 rs1 0) (wroteV b rd (u.vr rs1) (u.vpois rs1) s) ∧
      does (.stVxor b rd rs1 rs2) (a 2 1 rs1 rs2) (wroteV b rd (u.vr rs1 ^^^ u.vr rs2) (u.vpois rs1 || u.vpois rs2) s) ∧
      does (.stVand b rd rs1 rs2) (a 2 2 rs1 rs2) (wroteV b rd (u.vr rs1 &&& u.vr rs2) (u.vpois rs1 || u.vpois rs2) s) ∧
      does (.stVor b rd rs1 rs2) (a 2 3 rs1 rs2) (wroteV b rd (u.vr rs1 ||| u.vr rs2) (u.vpois rs1 || u.vpois rs2) s) ∧
      does (.stVzero b rd) (a 2 4 0 0) (wroteV b rd 0 false s)) ∧
    (rd < 32 → rs1 < 8 → rs2 < 8 → u.loads = [] →
      (∀ i < 8, does (.stVget b rd rs1 i) (a 2 (8 + i) rs1 0) (fun t => if u.vpois rs1 then faultsWith b C.BOB_E_POISON_USE s t else wroteG b rd (word (u.vr rs1) i) s t)) ∧
      (∃ v : Word, (∀ i < 64, v.getLsbD i = decide (i < 8 ∧ word (u.vr rs1) i = word (u.vr rs2) i)) ∧
        does (.stVcmp b rd rs1 rs2) (a 2 24 rs1 rs2) (fun t => if u.vpois rs1 || u.vpois rs2 then faultsWith b C.BOB_E_POISON_USE s t else wroteG b rd v s t))) ∧
    (rd < 8 → rs1 < 32 → u.loads = [] → ∀ i < 8, ∃ l : Line, (∀ k < 8, word l k = if k = i then u.gr rs1 else word (u.vr rd) k) ∧
      does (.stVput b rd rs1 i) (a 2 (16 + i) rs1 0) (wroteV b rd l (u.vpois rd) s)) ∧
    (rd < 32 → ∀ fn < 7, let n : Nat := 2 ^ (fn % 4)
      does (.stLds b rd rb fn imm) (m 0x10 fn) (fun t =>
        (at' 1 % (n : Int) ≠ 0 → faultsWith b C.BOB_E_ALIGN s t) ∧ (at' 1 % (n : Int) = 0 → ¬ inScratch (at' 1) n → faultsWith b C.BOB_E_SCRATCH_RANGE s t) ∧
        (at' 1 % (n : Int) = 0 → inScratch (at' 1) n → u.jobs = [] → u.lost = [] → ∃ v < 2 ^ (8 * n), (∀ k < n, v / 2 ^ (8 * k) % 256 = scrByte u ((at' 1).toNat + k)) ∧
          wroteG b rd (if fn < 4 then BitVec.ofNat 64 v else (BitVec.ofNat (8 * n) v).signExtend 64) s t)) ∧
      (fn < 4 → does (.stSts b rd rb fn imm) (m 0x11 fn) (fun t =>
        (at' 1 % (n : Int) ≠ 0 → faultsWith b C.BOB_E_ALIGN s t) ∧ (at' 1 % (n : Int) = 0 → ¬ inScratch (at' 1) n → faultsWith b C.BOB_E_SCRATCH_RANGE s t) ∧
        (at' 1 % (n : Int) = 0 → inScratch (at' 1) n → u.jobs = [] → u.lost = [] → retired b { u with scratch := (t.bob b).scratch } s t ∧
          ∀ k, scrByte (t.bob b) k = if (at' 1).toNat ≤ k ∧ k < (at' 1).toNat + n then (u.gr rd).toNat / 2 ^ (8 * (k - (at' 1).toNat)) % 256 else scrByte u k)))) ∧
    (rd < 32 → ∀ op fn, op = 0x10 ∧ fn = 7 ∨ op = 0x11 ∧ 4 ≤ fn ∧ fn < 8 → does (.illegalInstruction b) (m op fn) (faultsWith b C.BOB_E_ILLEGAL s)) ∧
    (rd < 8 → u.loads = [] →
      does (.stLdv b rd rb imm) (m 0x14 0) (fun t =>
        (at' 64 % 64 ≠ 0 → faultsWith b C.BOB_E_ALIGN s t) ∧ (at' 64 % 64 = 0 → ¬ inScratch (at' 64) 64 → faultsWith b C.BOB_E_SCRATCH_RANGE s t) ∧
        (at' 64 % 64 = 0 → inScratch (at' 64) 64 → u.jobs = [] → u.lost = [] → ∃ l : Line,
          (∀ k < 64, (l.extractLsb' (8 * k) 8).toNat = scrByte u ((at' 64).toNat + k)) ∧ wroteV b rd l false s t)) ∧
      does (.stStv b rd rb imm) (m 0x15 0) (fun t =>
        (u.vpois rd = false → at' 64 % 64 ≠ 0 → faultsWith b C.BOB_E_ALIGN s t) ∧
        (u.vpois rd = false → at' 64 % 64 = 0 → ¬ inScratch (at' 64) 64 → faultsWith b C.BOB_E_SCRATCH_RANGE s t) ∧
        (at' 64 % 64 = 0 → inScratch (at' 64) 64 → u.vpois rd = true → faultsWith b C.BOB_E_POISON_USE s t) ∧
        (at' 64 % 64 = 0 → inScratch (at' 64) 64 → u.vpois rd = false → u.jobs = [] → u.lost = [] → retired b { u with scratch := (t.bob b).scratch } s t ∧
          ∀ k, scrByte (t.bob b) k = if (at' 64).toNat ≤ k ∧ k < (at' 64).toNat + 64 then ((u.vr rd).extractLsb' (8 * (k - (at' 64).toNat)) 8).toNat else scrByte u k))) ∧
    (rd < 32 → rs1 < 32 → rs2 < 32 →
      let g := (u.gr rs1).toNat
      let o := g / 2 ^ 17
      let atomics := fun (c : Instr) (func : Nat) (f : Word → Word) => does c (a 3 func rs1 rs2) (fun t =>
        (2 ^ 23 ≤ g ∨ g % 8 ≠ 0 → faultsWith b C.BOB_E_ALIGN s t) ∧
        (g < 2 ^ 23 → g % 8 = 0 → o ≠ b → (u.cap.getD 0 0) / 4 % 2 = 0 → faultsWith b C.BOB_E_CAP s t) ∧
        (g < 2 ^ 23 → g % 8 = 0 → o = b ∨ (u.cap.getD 0 0) / 4 % 2 = 1 → bankOut s (416 + o) = true → t = s) ∧
        (g < 2 ^ 23 → g % 8 = 0 → o = b ∨ (u.cap.getD 0 0) / 4 % 2 = 1 → bankOut s (416 + o) = false → u.jobs = [] → (s.bob o).lost = [] →
          (∀ c i, scrWord (t.bob c) i = if c = o ∧ i = g % 2 ^ 17 / 8 then (f (BitVec.ofNat 64 (scrWord (s.bob o) i))).toNat else scrWord (s.bob c) i) ∧
          (∀ r, (t.bob b).gr r = if r = rd ∧ r ≠ 0 then BitVec.ofNat 64 (scrWord (s.bob o) (g % 2 ^ 17 / 8)) else u.gr r) ∧
          t.bob b = { u with g := (t.bob b).g, scratch := (t.bob b).scratch, pc := u.pc + 1, last := u.pc, waits := false } ∧
          (∀ c, c ≠ b → t.bob c = { s.bob c with scratch := (t.bob c).scratch }) ∧ t = { s with bobs := t.bobs, regs := t.regs } ∧ regsKept (slotReg b) s t))
      atomics (.stAadd b rd rs1 rs2) 0 (fun w => w + u.gr rs2) ∧ atomics (.stAswp b rd rs1 rs2) 1 (fun _ => u.gr rs2))

/-- Line accesses set off to the home that the address names, come back with data, poison or a status, and fences, POST and END wait for them (R265, R266, R267, R284, R285, R286, R301, spec/08_stitch_isa.md). -/
def Obligations.LineAccessesFencesPostEnd : Prop :=
  ∀ (s : State) (b rd rs1 rs2 rb imm : Nat), rb < 32 → imm < 2 ^ 13 →
    let u := s.bob b
    let does := fun (c : Instr) (w : Nat) (P : State → Prop) => bobReady s b w → completes c s P
    let sets := fun (t : State) (kind : ReqKind) (ga : Nat) (d : Line) (mask : Nat) (p : Bool) => ∃ r : HomeReq, r.kind = kind ∧ r.who = .bob b u.io ∧ r.data = d ∧ r.mask = mask ∧
      r.poison = p ∧ r.master = 16 + s.fget (BOB_STAT b) F.BOB_STAT_CLASS ∧ t = { s with bobs := t.bobs, home := t.home, regs := t.regs } ∧ regsKept (slotReg b) s t ∧
      (ga / 2 ^ 47 % 2 ^ 14 = s.fget FAB_NODEID F.FAB_NODEID_NODE → r.la = ga % 2 ^ 47 ∧ t.home = { s.home with toHome := s.home.toHome ++ [r] }) ∧
      (ga / 2 ^ 47 % 2 ^ 14 ≠ s.fget FAB_NODEID F.FAB_NODEID_NODE → r.la = guestLa ga ∧ t.home = { s.home with guestReqs := s.home.guestReqs ++ [r] })
    let ga := ((((u.gr rb).toNat : Int) + (BitVec.ofNat 13 imm).toInt * 64) % 2 ^ 64).toNat
    let stores := fun (t : State) (g mask : Nat) =>
      (g % 64 ≠ 0 → faultsWith b C.BOB_E_ALIGN s t) ∧ (g % 64 = 0 → capOk s u g 64 2 = false → faultsWith b C.BOB_E_CAP s t) ∧
      (g % 64 = 0 → capOk s u g 64 2 = true → sets t .write g (u.vr rd) mask (u.vpois rd) ∧ nextAt b { u with io := u.io + 1, stores := u.stores ++ [u.io] } s t)
    (classHeld s b = false → rd < 8 → lineFree s b rd →
      (does (.stLdl b rd rb imm) (0x12 * 2 ^ 26 + rd * 2 ^ 21 + rb * 2 ^ 16 + imm) (fun t =>
          (ga % 64 ≠ 0 → faultsWith b C.BOB_E_ALIGN s t) ∧ (ga % 64 = 0 → capOk s u ga 64 1 = false → faultsWith b C.BOB_E_CAP s t) ∧
          (ga % 64 = 0 → capOk s u ga 64 1 = true → sets t .readCurrent ga 0 0 false ∧
            nextAt b { u with io := u.io + 1, loads := u.loads ++ [⟨u.io, rd, u.pc⟩] } s t)) ∧
        does (.stStl b rd rb imm) (0x13 * 2 ^ 26 + rd * 2 ^ 21 + rb * 2 ^ 16 + imm) (fun t => stores t ga (2 ^ 64 - 1))) ∧
      (rs1 < 32 → rs2 < 32 → does (.stStlm b rd rs1 rs2) (4 * 2 ^ 26 + rd * 2 ^ 21 + rs1 * 2 ^ 16 + rs2 * 2 ^ 11) (fun t =>
        (u.gr rs2 = 0 → retired b u s t) ∧ (u.gr rs2 ≠ 0 → stores t (u.gr rs1).toNat (u.gr rs2).toNat)))) ∧
    (∀ (r : BobReply) (l : Load), r ∈ s.home.bobReplies → r.bob = b → (∀ x ∈ s.home.bobReplies, x.bob = b → x.slot = r.slot → x = r) →
      (l ∈ u.loads → l.no = r.slot → (∀ x ∈ u.loads, x.no = r.slot → x = l) →
        (r.status < 0x2000 → completes (.ldlReturn b r.slot) s (fun t =>
          (∀ k, (t.bob b).vr k = (if k = l.v then r.data else u.vr k) ∧ (t.bob b).vpois k = (if k = l.v then r.poison else u.vpois k)) ∧
          t.bob b = { u with v := (t.bob b).v, vp := (t.bob b).vp, loads := u.loads.filter (fun x => x.no != r.slot) } ∧ othersKept b s t ∧
          t = { s with bobs := t.bobs, home := { s.home with bobReplies := s.home.bobReplies.erase r } })) ∧
        (0x2000 ≤ r.status → r.status < 0x10000 → l.pc < 8192 → b < 64 → u.run = 1 → u.disc = none → noLaneWork s b → completes (.ldlReturn b r.slot) s (fun t =>
          programEnds b r.status l.pc { u with loads := u.loads.filter (fun x => x.no != r.slot) }
            { s with home := { s.home with bobReplies := s.home.bobReplies.erase r } } t))) ∧
      (r.slot ∈ u.stores → completes (.storeResult b r.slot) s (fun t => othersKept b s t ∧
        t.bob b = { u with stores := u.stores.filter (· != r.slot), held := if u.held = 0 ∧ 2 ≤ r.status / 4096 % 16 then r.status else u.held } ∧
        t = { s with bobs := t.bobs, home := { s.home with bobReplies := s.home.bobReplies.erase r } }))) ∧
    (let fences := fun (c : Instr) (k : Nat) (done : Prop) (held : Nat) => bobReady s b (0x33 * 2 ^ 26 + k) →
        (done → held = 0 → completes c s (retired b u s)) ∧ (done → held ≠ 0 → held < 0x10000 → completes c s (faultsWith b held s)) ∧ (¬ done → exec c s = .next s)
     fences (.stFenceL b) 0 (u.stores = []) u.held ∧ fences (.stFenceT b) 1 (u.jobs = []) 0 ∧ fences (.stFenceA b) 2 (u.stores = [] ∧ u.jobs = []) u.held) ∧
    (rd < 32 → rs1 < 32 → rs2 < 32 → bobReady s b (0x34 * 2 ^ 26 + rd * 2 ^ 21 + rs1 * 2 ^ 16 + rs2 * 2 ^ 11) →
      let posts := fun (v : Nat) (t : State) => (∀ r, (t.bob b).gr r = if r = rd ∧ r ≠ 0 then BitVec.ofNat 64 v else u.gr r) ∧ nextAt b { u with g := (t.bob b).g, posted := true } s t
      (u.posted = true → completes (.stPost b rd rs1 rs2) s (faultsWith b C.BOB_E_POST_TWICE s)) ∧
      (u.posted = false → u.stores = [] → u.jobs = [] → u.held = 0 → ∀ c ∈ (s.spool u.q).cmds, c.n = u.n → (∀ x ∈ (s.spool u.q).cmds, x.n = u.n → x = c) →
        (c.claim ≠ none → completes (.stPost b rd rs1 rs2) s (fun t => posts C.BOB_W_ABORTED_FIRST t ∧ t = { s with bobs := t.bobs, regs := t.regs } ∧ regsKept (slotReg b) s t)) ∧
        (c.claim = none → c.recd = 0 → completes (.stPost b rd rs1 rs2) s (fun t => posts 0 t ∧
          let c' := { c with claim := some ((u.gr rs1).toNat % 65536, (u.gr rs2).toNat), recd := 1 }
          let a := s.fget (SPL_CQBASE u.q) F.SPL_CQBASE_LPN * 4096 + c.n % 2 ^ s.fget (SPL_CFG u.q) F.SPL_CFG_SQLOG * 16
          ∃ (r : HomeReq) (s1 : State), r.kind = .write ∧ r.who = .spool u.q u.n ∧ r.la = a / 64 * 64 ∧ r.mask = (2 ^ 16 - 1) * 2 ^ (a % 64) ∧ r.poison = false ∧
            r.data.toNat / 2 ^ (8 * (a % 64)) % 2 ^ 128 = (u.gr rs2).toNat + c.n % 2 ^ 32 * 2 ^ 64 + (u.gr rs1).toNat % 65536 * 2 ^ 96 + c.bob % 256 * 2 ^ 112 +
              (1 - c.n / 2 ^ s.fget (SPL_CFG u.q) F.SPL_CFG_SQLOG % 2) * 2 ^ 120 ∧
            s1 = { s with bobs := s1.bobs, spools := s1.spools } ∧ (∀ q, q ≠ u.q → s1.spool q = s.spool q) ∧
            s1.spool u.q = { s.spool u.q with cmds := (s.spool u.q).cmds.map (fun x => if x.n = u.n then c' else x) } ∧
            t = { homeTake r s1 with bobs := t.bobs, regs := t.regs } ∧ regsKept (slotReg b) (homeTake r s1) t)))) ∧
    (bobReady s b (0x35 * 2 ^ 26) → u.stores = [] → u.jobs = [] →
      (u.held ≠ 0 → u.held < 0x10000 → completes (.stEnd b) s (faultsWith b u.held s)) ∧
      (u.held = 0 → u.posted = true → (∀ c ∈ (s.spool u.q).cmds, c.n = u.n → c.recd ≠ 0) → s.fget (BOB_STAT b) F.BOB_STAT_STATE = 1 → bobTestDue s b = false → completes (.stEnd b) s (fun t =>
        (t.bob b).run = 0 ∧ (t.bob b).posted = false ∧ t.fget (BOB_STAT b) F.BOB_STAT_STATE = (if s.fget (BOB_CFG b) F.BOB_CFG_DRAIN = 1 then 2 else 0) ∧
        othersKept b s t ∧ (∀ q, q ≠ u.q → t.spool q = s.spool q) ∧ (∀ c ∈ (t.spool u.q).cmds, c.n = u.n → c.stage = 2) ∧
        t = { s with regs := t.regs, bobs := t.bobs, spools := t.spools } ∧ regsKept (fun off => off = BOB_STAT b ∨ slotReg b off) s t)))

/-- Each kind of stitch starts on its tag, completes at once, or ends the program as its checks say; outcomes are collected from the tag (R268, R269, R273, R278, R293, spec/08_stitch_isa.md). -/
def Obligations.StitchesIssueAndFinish : Prop :=
  ∀ (s : State) (b rd rs rl tag flags : Nat), rd < 32 → rs < 32 → rl < 32 → tag < 16 → flags < 8 →
    let u := s.bob b
    let d := (u.gr rd).toNat
    let src := (u.gr rs).toNat
    let l := (u.gr rl).toNat
    let x := if rl = 31 then 0 else (u.gr (rl + 1)).toNat
    let cap := u.cap.getD 0 0
    let tagged := fun (v : TagSt) (js : List Job) (t : State) => (∀ k, (t.bob b).tag k = if k = tag then v else u.tag k) ∧
      nextAt b { u with tags := (t.bob b).tags, jobs := js } s t ∧ t = { s with bobs := t.bobs, out := t.out, regs := t.regs } ∧ regsKept (slotReg b) s t ∧
      (s.fget CAL_AXTCFG F.CAL_AXTCFG_EN = 0 → t.out = s.out)
    let issues := fun (c : Instr) (kind : Nat) (permit : Bool) (bad0 : Nat) => u.held = 0 →
      bobReady s b (0x38 * 2 ^ 26 + kind * 2 ^ 22 + rd * 2 ^ 17 + rs * 2 ^ 12 + rl * 2 ^ 7 + tag * 2 ^ 3 + flags) →
      let bad := badParam s kind d src l x flags rl
      let granted := ∀ w ∈ jobWindows kind d src l x flags, capOk s u w.1 w.2.1 w.2.2 = true
      (rl % 2 = 1 ∨ (kind < 7 ∧ 2 ^ 30 < l) → bad = true) ∧
      (permit = false → completes c s (faultsWith b C.BOB_E_CAP s)) ∧
      (permit = true → bad = false → ¬ granted → completes c s (faultsWith b C.BOB_E_CAP s)) ∧
      (permit = true → bad = true ∨ granted → (u.tag tag).st = 1 → completes c s (faultsWith b C.BOB_E_TAG_BUSY s)) ∧
      (permit = true → bad = true → (u.tag tag).st ≠ 1 → completes c s (tagged ⟨2, bad0, 0⟩ u.jobs)) ∧
      (permit = true → bad = false → granted → (u.tag tag).st ≠ 1 → l = 0 → kind ≠ 5 → kind ≠ 7 → ∃ res, completes c s (tagged ⟨2, 0, res⟩ u.jobs)) ∧
      (permit = true → bad = false → granted → (u.tag tag).st ≠ 1 → 0 < l → completes c s (fun t => ∃ j : Job, tagged ⟨1, 0, 0⟩ (u.jobs ++ [j]) t ∧
        j.tag = tag ∧ j.kind = kind ∧ j.flags = flags ∧ j.d = d ∧ j.s = src ∧ j.l = l ∧ j.x = x ∧ j.after = u.io ∧ j.prod = none ∧ j.lines = []))
    issues (.stCopy b rd rs rl tag flags) 0 true C.BOB_E_PARAM ∧ issues (.stFill b rd rs rl tag flags) 1 true C.BOB_E_PARAM ∧
    issues (.stCrc32c b rd rs rl tag flags) 2 true C.BOB_E_PARAM ∧ issues (.stHash64 b rd rs rl tag flags) 3 true C.BOB_E_PARAM ∧
    issues (.stScan b rd rs rl tag flags) 4 true C.BOB_E_PARAM ∧ issues (.stCmpr b rd rs rl tag flags) 5 (bit cap 3) C.PLT_E_BAD_JOB ∧
    issues (.stDcmpr b rd rs rl tag flags) 6 (bit cap 3) C.PLT_E_BAD_JOB ∧
    (flags < 4 → issues (.stMigrate b rd rs rl tag flags) 7 (bit cap 4) C.BOB_E_PARAM) ∧
    (4 ≤ flags → issues (.stMigrateRelocate b rd rs rl tag flags) 7 (bit cap 0) C.BOB_E_PARAM) ∧
    (let reads := fun (c : Instr) (op running done : Nat) => bobReady s b (op * 2 ^ 26 + rd * 2 ^ 21 + tag) →
        (op = 0x30 → (u.tag tag).st = 1 → exec c s = .next s) ∧ (op ≠ 0x30 → (u.tag tag).st = 1 → completes c s (wroteG b rd (BitVec.ofNat 64 running) s)) ∧
        ((u.tag tag).st = 2 → completes c s (wroteG b rd (BitVec.ofNat 64 done) s)) ∧ ((u.tag tag).st = 0 → completes c s (wroteG b rd 0 s))
     reads (.stWait b rd tag) 0x30 0 (u.tag tag).status ∧ reads (.stTest b rd tag) 0x31 C.BOB_S_PENDING (u.tag tag).status ∧
     reads (.stTres b rd tag) 0x32 0 (u.tag tag).result) ∧
    (∀ j : Job, u.jobs = [j] → j.tag = tag → j.lines = [] → j.prod = none → j.racy = false → 0 < j.l → u.stores = [] → u.lost = [] → coreOpen s = true → (∀ w ∈ s.tier.pleat, w.la ≠ jobWork b tag) →
      u.run = 1 ∨ u.run = 2 → classHeld s b = false →
      let ends := fun (res : Nat) (t : State) => (∀ k, (t.bob b).tag k = if k = tag then ⟨2, 0, res⟩ else u.tag k) ∧
        t.bob b = { u with tags := (t.bob b).tags, scratch := (t.bob b).scratch, jobs := [] } ∧ othersKept b s t ∧ t = { s with bobs := t.bobs }
      (j.kind = 1 → j.flags = 2 → j.d % 8 = 0 → j.l % 8 = 0 → j.d + j.l ≤ 131072 → completes (.stitchDone b tag) s (fun t => ends j.l t ∧
        ∀ k, scrByte (t.bob b) k = if j.d ≤ k ∧ k < j.d + j.l then j.s / 2 ^ (8 * (k % 8)) % 256 else scrByte u k)) ∧
      (j.kind = 0 → j.flags = 3 → j.s + j.l ≤ 131072 → j.d + j.l ≤ 131072 → j.s + j.l ≤ j.d ∨ j.d + j.l ≤ j.s → completes (.stitchDone b tag) s (fun t => ends j.l t ∧
        ∀ k, scrByte (t.bob b) k = if j.d ≤ k ∧ k < j.d + j.l then scrByte u (j.s + (k - j.d)) else scrByte u k)) ∧
      (j.kind = 4 → j.flags = 1 → j.s % 8 = 0 → j.l % 8 = 0 → j.s + j.l ≤ 131072 → completes (.stitchDone b tag) s (fun t => ∃ res, ends res t ∧ t.bob b = { u with tags := (t.bob b).tags, jobs := [] } ∧
        let hit := fun o => scrWord u ((j.s + o) / 8) &&& j.d = j.x &&& j.d
        ((∃ o, o % 8 = 0 ∧ o < j.l ∧ hit o) → res % 8 = 0 ∧ res < j.l ∧ hit res ∧ ∀ o, o % 8 = 0 → o < res → ¬ hit o) ∧
        ((∀ o, o % 8 = 0 → o < j.l → ¬ hit o) → res = 2 ^ 64 - 1))))

/-- The descriptor operations check the LPN, the busy bit and R215, change only what they name, and return their outcome in rd (R129, R132, R215, R279, R280, R281, spec/08_stitch_isa.md). -/
def Obligations.DescriptorOperationsOfABobbin : Prop :=
  ∀ (s : State) (b rd rs1 rs2 : Nat), rd < 32 → rs1 < 32 → rs2 < 8 → (s.bob b).loads = [] → (s.bob b).stores = [] → (s.bob b).held = 0 →
    let u := s.bob b
    let n := (u.gr rs1).toNat
    let tier := (u.cap.getD 0 0) % 2
    let w := fun func r2 => 0x20 * 2 ^ 26 + rd * 2 ^ 21 + rs1 * 2 ^ 16 + r2 * 2 ^ 11 + func
    let gives := fun (v : Nat) (y : Bob) (t : State) => (∀ r, (t.bob b).gr r = if r = rd ∧ r ≠ 0 then BitVec.ofNat 64 v else u.gr r) ∧
      nextAt b { y with g := (t.bob b).g } s t ∧ t.spools = s.spools
    let refuses := fun (c : Instr) (func r2 : Nat) => bobReady s b (w func r2) → (tier = 0 → completes c s (faultsWith b C.BOB_E_CAP s)) ∧
      (func < 6 → func = 0 ∨ func = 4 ∨ func = 5 ∨ u.vpois rs2 = false ∧ u.vpois (rs2 ^^^ 1) = false → (func < 4 ∨ classHeld s b = false) → tier = 1 →
        (2 ^ 35 ≤ n → completes c s (wroteG b rd (BitVec.ofNat 64 C.BOB_E_PARAM) s)) ∧
        (n < 2 ^ 35 → pagesL s ≤ n → completes c s (wroteG b rd (BitVec.ofNat 64 C.TIR_E_STATE) s)))
    let does := fun (c : Instr) (func r2 : Nat) (P : State → Prop) => bobReady s b (w func r2) → tier = 1 → completes c s P
    (classHeld s b = false →
      refuses (.stPromote b rd rs1) 4 0 ∧ refuses (.stDemote b rd rs1) 5 0) ∧
    refuses (.stDescrd b rd rs1 rs2) 0 rs2 ∧ refuses (.stDescwr b rd rs1 rs2) 1 rs2 ∧ refuses (.stDescacc b rd rs1 rs2) 2 rs2 ∧
    refuses (.stDesccas b rd rs1 rs2) 3 rs2 ∧ refuses (.stFramepush b rd rs1) 6 0 ∧
    (∀ d, n < 2 ^ 35 → n < pagesL s → descOf s n = some d →
      does (.stDescrd b rd rs1 rs2) 0 rs2 (fun t => gives (if busyOf s n then 65536 else 0) { u with v := (t.bob b).v, vp := (t.bob b).vp } t ∧ descOf t n = some d ∧
        (∀ r, (t.bob b).vr r = (if r = rs2 then d else u.vr r) ∧ (t.bob b).vpois r = (if r = rs2 then false else u.vpois r)) ∧ t.dram = s.dram ∧ regsKept (slotReg b) s t) ∧
      (busyOf s n = false → nothingWaits s →
        let new := u.vr rs2
        let keeps := fun (v : Nat) (t : State) => gives v u t ∧ descOf t n = some d ∧ t.dram = s.dram ∧ regsKept (slotReg b) s t
        let plain := descOk s new = true ∧ (dHot d = true ∧ dHot new = true ∧ dput new 10 8 (dAcc d) = d ∨
          dHot d = false ∧ dHot new = false ∧ dState new ≠ stINIT ∧ (dState new = stCOLD → 0 < dSize new → slotLive s (dKreg new) (dEpoch new) = true))
        let forged := descOk s new = true ∧ dHot new = true ∧ (dHot d = false ∨ dput new 10 8 (dAcc d) ≠ d)
        (u.vpois rs2 = false →
          (dState d ≠ stINIT → does (.stDescacc b rd rs1 rs2) 2 rs2 (fun t => gives 0 u t ∧ descOf t n = some (dput d 10 8 (dAcc new)))) ∧
          (dState d = stINIT → does (.stDescacc b rd rs1 rs2) 2 rs2 (keeps C.TIR_E_STATE)) ∧
          (plain → does (.stDescwr b rd rs1 rs2) 1 rs2 (fun t => gives 0 u t ∧ descOf t n = some new)) ∧
          (forged → does (.stDescwr b rd rs1 rs2) 1 rs2 (keeps C.KEY_E_COUNTER_WRITE)) ∧
          (u.vpois (rs2 ^^^ 1) = false →
            (u.vr (rs2 ^^^ 1) ≠ d → does (.stDesccas b rd rs1 rs2) 3 rs2 (keeps C.BOB_E_DESC_CHANGED)) ∧
            (u.vr (rs2 ^^^ 1) = d → plain → does (.stDesccas b rd rs1 rs2) 3 rs2 (fun t => gives 0 u t ∧ descOf t n = some new)) ∧
            (u.vr (rs2 ^^^ 1) = d → forged → does (.stDesccas b rd rs1 rs2) 3 rs2 (keeps C.KEY_E_COUNTER_WRITE)))) ∧
        (classHeld s b = false → canBusy s n = true → promoOf s n = none →
          (dState d ≠ stCOLD → does (.stPromote b rd rs1) 4 0 (keeps C.TIR_E_STATE)) ∧
          (dState d = stCOLD → 0 < dSize d → slotLive s (dKreg d) (dEpoch d) = false → does (.stPromote b rd rs1) 4 0 (keeps C.KEY_E_NO_KEY)) ∧
          (∀ s1, dState d = stCOLD → dSize d = 0 → promotePage (dcTouch (s.setBob b { u with last := u.pc }) n) n (bobWork b) d none none = .ok s1 →
            s1.bobs = (s.setBob b { u with last := u.pc }).bobs → nothingWaits s1 → does (.stPromote b rd rs1) 4 0 (fun t =>
            (∀ r, (t.bob b).gr r = if r = rd ∧ r ≠ 0 then 0 else u.gr r) ∧ nextAt b { u with g := (t.bob b).g } s t ∧ regsKept (slotReg b) s1 t ∧ t.dram = s1.dram ∧ t.chans = s1.chans ∧ t.tier = s1.tier)) ∧
          (dState d = stINIT ∨ dState d = stLOST → does (.stDemote b rd rs1) 5 0 (keeps C.TIR_E_STATE)) ∧
          (dState d = stCOLD → dSize d = 0 → stripesOf s (groupFor s (n * 4096)) ≠ 0 → does (.stDemote b rd rs1) 5 0 (keeps 0))))) ∧
    (let c := n / 2 ^ 28 % 32
     let i := n % 2 ^ 28
     let g := c / 12
     let inPlain := n < 2 ^ 33 ∧ c < 24 ∧ groupEn s g = true ∧ plainBase s g ≤ i ∧ i < chanFrames s c
     let inMirror := n < 2 ^ 33 ∧ c < 24 ∧ groupEn s g = true ∧ c % 12 < 6 ∧ dFrames s ≤ i ∧ i < coldBase s g
     (inPlain → (s.chan c).fifoP.length < 1024 → does (.stFramepush b rd rs1) 6 0 (fun t => gives 0 u t ∧
       t.chan c = { s.chan c with fifoP := (s.chan c).fifoP ++ [i] } ∧ (∀ k, k ≠ c → t.chan k = s.chan k) ∧ t = { s with bobs := t.bobs, chans := t.chans, regs := t.regs } ∧
       regsKept (slotReg b) s t)) ∧
     (inMirror → (s.chan c).fifoM.length < 1024 → does (.stFramepush b rd rs1) 6 0 (fun t => gives 0 u t ∧
       t.chan c = { s.chan c with fifoM := (s.chan c).fifoM ++ [i] } ∧ (∀ k, k ≠ c → t.chan k = s.chan k) ∧ t = { s with bobs := t.bobs, chans := t.chans, regs := t.regs } ∧
       regsKept (slotReg b) s t)) ∧
     (inPlain → 1024 ≤ (s.chan c).fifoP.length → does (.stFramepush b rd rs1) 6 0 (wroteG b rd (BitVec.ofNat 64 C.BOB_E_FIFO_FULL) s)) ∧
     (¬ inPlain → ¬ inMirror → does (.stFramepush b rd rs1) 6 0 (wroteG b rd (BitVec.ofNat 64 C.BOB_E_FRAME_POOL) s)))

/-- A home slice serves reads, writes, write-backs and evicts of a cached line by the transitions of the directory, and ends recalls by their answers (R48, R225, R233, R236, R238, spec/07_coherence_directory.md). -/
def Obligations.HomeServesRequests : Prop :=
  (∀ (s : State) (la k c : Nat) (e : LcEntry) (r : HomeReq), homeQuiet s la → lineCached s la k e → s.home.dirEnt = [] → r.la = la → r.front = false → r.who = .core c →
    let served := fun (i : Instr) => completes i s (fun t => t.out = .coreReply c la e.data false 0 :: s.out ∧ t.home.dirEnt = [] ∧ t.home.waiting = [] ∧ t.dram = s.dram ∧
      ∃ e', lcFind t la = some (k, e') ∧ e'.data = e.data ∧ e'.st = e.st)
    (r.kind = .readCurrent → served (.homeReadCurrent r)) ∧ (r.kind = .readShared → served (.homeReadShared r)) ∧
    (la < 2 ^ 47 → r.kind = .readExclusive → served (.homeReadExclusive r)) ∧
    (2 ^ 47 ≤ la → r.kind = .readCurrent ∨ r.kind = .readShared → served (.guestRequest r)) ∧
    (∀ ch, s.cstate ch ≠ csRETRAINING → r.kind = .readCurrent →
      completes (.waitingReadResume ch) { s with home := { s.home with waiting := [r] } } (fun t => t.out = .coreReply c la e.data false 0 :: s.out ∧ t.home.waiting = [] ∧ t.dram = s.dram)) ∧
    (∀ ds, la < 2 ^ 47 → r.kind = .write → r.mask = 2 ^ 64 - 1 → descOf s (la / 4096) = some ds → dState ds = stHOT → writeRefusal s (la / 4096) ds = none →
      let written := fun (t : State) => t.out = .coreReply c la 0 false 0 :: s.out ∧ t.home.waiting = [] ∧ t.home.dirEnt = [] ∧ t.dram = s.dram ∧
        ∃ e', lcFind t la = some (k, e') ∧ e'.data = r.data ∧ e'.st = (if r.poison then LcState.poisoned else .dirty)
      completes (.homeWrite r) s written ∧ completes (.waitingWriteResume la) { s with home := { s.home with waiting := [r] } } written)) ∧
  (∀ (s : State) (la k p tag : Nat) (e : LcEntry) (r : HomeReq), p < 16 → la < 2 ^ 47 → homeQuiet s la → lineCached s la k e → portBI s p = true →
    r.la = la → r.who = .port p tag (s.port p).gen → (s.port p).dirGen ≤ (s.port p).gen → s.home.toHome = [r] → (∃ q ∈ (s.port p).trk, q.tag = tag) →
    let ends := fun (i : Instr) (d : Line) (P : State → Prop) => completes i s (fun t => (∃ mv load, load < 4 ∧ t.out = .hostCpl p tag d false mv load :: s.out) ∧ t.home.toHome = [] ∧ t.home.waiting = [] ∧ t.dram = s.dram ∧ P t)
    let holds := fun (st sh : Nat) (t : State) => (dirOf t la).state = st ∧ (dirOf t la).sharers = sh
    (s.home.dirEnt = [] →
      (r.kind = .readShared → ends (.homeReadShared r) e.data (holds 1 (2 ^ p))) ∧
      (r.kind = .readExclusive → ends (.homeReadExclusive r) e.data (fun t => holds 2 (2 ^ p) t ∧ (dirOf t la).owner = p)) ∧
      (r.kind = .readCurrent → ends (.homeReadCurrent r) e.data (holds 0 0))) ∧
    (∀ x, onlyHolder s la x → x.sharers = 2 ^ p →
      (∀ ds, x.state = 2 → x.owner = p → r.kind = .writeBack → r.mval = 0 → r.mask = 2 ^ 64 - 1 → r.poison = false → descOf s (la / 4096) = some ds → dState ds = stHOT →
        let back := fun (t : State) => holds 0 0 t ∧ ∃ e', lcFind t la = some (k, e') ∧ e'.data = r.data ∧ e'.st = .dirty
        ends (.homeWriteBack r) 0 back ∧ ends (.homeWrite r) 0 back) ∧
      (x.state = 1 → r.kind = .cleanEvict → ends (.homeCleanEvict r) 0 (holds 0 0)))) ∧
  (∀ (s : State) (la p kind born : Nat) (x : DirEntry), p < 16 → la < 2 ^ 47 → nothingWaits s → s.home.evicting = [] → onlyHolder s la x → x.sharers = 2 ^ p → x.state = 1 ∨ x.state = 2 ∧ x.owner = p →
    s.home.recalls = [⟨la, p, p, kind, false, false, true, false, born⟩] →
    (kind = 0 → completes (.recallResponse la p 0 none false) s (fun t => t.home.recalls = [] ∧ t.home.dirEnt = [] ∧ t.out = s.out ∧ t.dram = s.dram ∧ t.regs = s.regs)) ∧
    (x.state = 1 → completes (.snoopTimeout la p) s (fun t => t.home.recalls = [] ∧ t.home.dirEnt = [] ∧ t.dram = s.dram ∧ t.fget DIR_STAT F.DIR_STAT_SNOOP_TMO = 1 ∧
      t.reports = s.reports ++ [{ src := srcId 6 (slice la), elem := p, code := C.DIR_F_SNOOP_TIMEOUT, addr := la, detail := 0, level := none }])))

/-- A dirty or Held line of a HOT page is written back encrypted under the next minor counter; a range recall runs one at a time and ends with its status (R120, R140, R197, R249, spec/06_encryption_keys.md). -/
def Obligations.WriteBacksAndRangeRecall : Prop :=
  (∀ (s : State) (la k : Nat) (e : LcEntry) (d : Desc), nothingWaits s → coreOpen s = true → s.tier.promos = [] → la % 64 = 0 → la < 2 ^ 47 → la / 4096 < pagesL s → lcFind s la = some (k, e) → copyFind s la = none →
    descOf s (la / 4096) = some d → busyOf s (la / 4096) = false → dState d = stHOT → s.cstate (dChan d) = csIN_SERVICE → slotLive s (dKreg d) (dEpoch d) = true →
    writeBlocked s (la / 4096) d = false →
    s.fget TIR_CFG F.TIR_CFG_ACC_WB = 0 → (dcCopies s (dcCopyBase (la / 4096))).length ≤ 2 → (dcFreeWay s (dcCopyBase (la / 4096)) 16 0).isSome = true →
    let i := la / 64 % 64
    let m := d.toNat / 2 ^ (96 + 6 * i) % 64
    let key := (dChan d * 2 ^ 28 + dFrameIdx d) * 64 + i
    let writes := fun (c : Instr) => m < 63 → completes c s (fun t =>
      tabGet (fun _ => (0 : Line)) t.dram.lines key = lineCrypt (s.slot (dKreg d) (dEpoch d)) la (dMajor d) (m + 1) e.data ∧
      tabGet (fun _ => false) t.dram.poison key = false ∧ tabGet (fun _ => (0 : BitVec 640)) t.dram.err key = 0 ∧
      (∀ j, j ≠ key → tabGet (fun _ => (0 : Line)) t.dram.lines j = tabGet (fun _ => (0 : Line)) s.dram.lines j ∧
        tabGet (fun _ => false) t.dram.poison j = tabGet (fun _ => false) s.dram.poison j ∧
        tabGet (fun _ => (0 : BitVec 640)) t.dram.err j = tabGet (fun _ => (0 : BitVec 640)) s.dram.err j) ∧
      (∃ d', descOf t (la / 4096) = some d' ∧ ∀ lo < 512, d'.getLsbD lo = if 96 + 6 * i ≤ lo ∧ lo < 102 + 6 * i then (m + 1).testBit (lo - (96 + 6 * i)) else d.getLsbD lo) ∧
      lcFind t la = some (k, { e with st := .clean }) ∧ t.out = s.out)
    (e.st = .dirty → writes (.lineWriteback la)) ∧ (e.st = .held → writes (.heldLineWriteback la))) ∧
  (∀ (s : State) (who : Who) (val : Word) (w : CtlWrite), admitted who DIR_RECALLCTL val s w → fld w.act F.DIR_RECALLCTL_START = 1 →
    (s.fget DIR_RECALLCTL F.DIR_RECALLCTL_BUSY = 1 → completes (.dirRecallStart who val) s (fun t => endedWith who DIR_RECALLCTL C.DIR_E_RECALL_BUSY t ∧
      t = { s with regs := t.regs, out := t.out } ∧ regsKept errorReg s t)) ∧
    (s.fget DIR_RECALLCTL F.DIR_RECALLCTL_BUSY = 0 → s.home.dirEnt = [] → completes (.dirRecallStart who val) s (fun t => endedWith who DIR_RECALLCTL 0 t ∧
      t.fget DIR_RECALLCTL F.DIR_RECALLCTL_BUSY = 1 ∧ t.home = { s.home with recallLines := [], recallTmo := false } ∧
      t = { s with regs := t.regs, out := t.out, home := t.home } ∧ regsKept (fun off => off = DIR_RECALLCTL) s t))) ∧
  (∀ s : State, s.fget DIR_RECALLCTL F.DIR_RECALLCTL_BUSY = 1 → s.home.recallLines = [] → completes .recallComplete s (fun t =>
    t.fget DIR_RECALLCTL F.DIR_RECALLCTL_BUSY = 0 ∧ t.fget DIR_RECALLCTL F.DIR_RECALLCTL_STATUS = (if s.home.recallTmo then C.DIR_F_SNOOP_TIMEOUT else 0) ∧
    t = { s with regs := t.regs } ∧ regsKept (fun off => off = DIR_RECALLCTL) s t))

/-- Descriptors enter and leave the cache one at a time; flush, Pleat lanes, cold reads and promotions do what their rules say (R72, R124, R125, R127, R129, R182, spec/04_line_cache_tiers_gusset.md). -/
def Obligations.DescriptorCacheFlushAndPleat : Prop :=
  (∀ (s : State) (page : Nat), page < pagesL s → page < 2 ^ 35 → dcFind s page = none → (dcFreeWay s (dcBase page) 16 0).isSome = true → coreOpen s = true → nothingWaits s →
    completes (.descriptorFill page) s (fun t => descOf t page = some (descLoad s page).1 ∧ (∀ q, q ≠ page → descOf t q = descOf s q) ∧ t.out = s.out ∧ t.bobs = s.bobs ∧ t.home.dirEnt = s.home.dirEnt)) ∧
  (∀ (s : State) (page : Nat), coreOpen s = true → nothingWaits s → s.home.dirEnt = [] →
    (∀ w < 16, ∃ e, dcAt s (dcBase page + w) = some e ∧ dcFind s e.page = some (w, e) ∧ dcBase e.page = dcBase page ∧ e.busy = false ∧ e.page < 2 ^ 35) →
    completes (.descriptorEvict page) s (fun t => ∃ v, (descOf s v).isSome = true ∧ dcBase v = dcBase page ∧ descOf t v = none ∧ (∀ q, q ≠ v → descOf t q = descOf s q) ∧ t.out = s.out ∧ t.tier.lc = s.tier.lc)) ∧
  (∀ (s : State) (who : Who) (val : Word) (w : CtlWrite), admitted who TIR_FLUSHCTL val s w → fld w.act F.TIR_FLUSHCTL_START = 1 →
    (s.fget TIR_FLUSHCTL F.TIR_FLUSHCTL_BUSY = 1 → completes (.flushStart who val) s (fun t => endedWith who TIR_FLUSHCTL C.TIR_E_FLUSH_BUSY t ∧ t.tier = s.tier ∧
      t.fget TIR_FLUSHCTL F.TIR_FLUSHCTL_BUSY = 1 ∧ t = { s with regs := t.regs, out := t.out } ∧ regsKept (fun off => off = TIR_FLUSHCTL ∨ errorReg off) s t)) ∧
    (s.fget TIR_FLUSHCTL F.TIR_FLUSHCTL_BUSY = 0 → s.tier.lc = [] → completes (.flushStart who val) s (fun t => endedWith who TIR_FLUSHCTL 0 t ∧
      t.fget TIR_FLUSHCTL F.TIR_FLUSHCTL_BUSY = 1 ∧ t.tier.flushWait = [] ∧ t.tier.flushBad = false ∧ t.dram = s.dram ∧ regsKept (fun off => off = TIR_FLUSHCTL ∨ counterReg off = true) s t))) ∧
  (∀ s : State, s.fget TIR_FLUSHCTL F.TIR_FLUSHCTL_BUSY = 1 → s.tier.flushWait = [] → coreOpen s = true → nothingWaits s → completes .flushComplete s (fun t =>
    t.fget TIR_FLUSHCTL F.TIR_FLUSHCTL_BUSY = 0 ∧ t.fget TIR_FLUSHCTL F.TIR_FLUSHCTL_STATUS = (if s.tier.flushBad then C.TIR_E_FLUSH_INCOMPLETE else 0) ∧
    t.tier = s.tier ∧ t.dram = s.dram ∧ t.out = s.out ∧ regsKept (fun off => off = TIR_FLUSHCTL) s t)) ∧
  (∀ (s : State) (w : PleatWork), 1 ≤ w.cls → w.cls ≤ 4 → w.granted = false → w.failed = false → w.lanes = 0 → 0 < w.need → w.need ≤ 8 → coreOpen s = true →
    (s.tier.pleat = [w] → w.cls ≠ 2 ∨ nothingWaits s → completes (.pleatLaneGrant w.unit) s (fun t => t = { s with tier := { s.tier with pleat := [{ w with lanes := w.need, granted := true }] } })) ∧
    ((∀ x ∈ s.tier.pleat, 0 < x.need) → 16 ≤ lanesBusy s w.unit → exec (.pleatLaneGrant w.unit) s = .next s)) ∧
  (∀ (s s1 : State) (la c : Nat) (w : PleatWork) (d : Desc) (r : HomeReq) (ws : List Nat), la % 64 = 0 → la < 2 ^ 47 →
    coreOpen s = true → s.tier.pleat = [w] → w.la = la / 512 * 512 → w.cls = 1 → w.granted = true → descOf s (la / 4096) = some d → dState d = stCOLD → 0 < dSize d → slotLive s (dKreg d) (dEpoch d) = true →
    coldSegment { s with tier := { s.tier with pleat := [] } } (la / 4096) d (la / 512 % 8) = (some ws, s1) →
    s1.home.waiting = [r] → r.front = false → homeQuiet { s1 with home := { s1.home with waiting := [] } } la → s1.home.dirEnt = [] → s1.tier.lc = [] → s1.tier.pleat = [] →
    s1.fget TIR_CFG F.TIR_CFG_SEGFILL = 0 → s1.fget TIR_CFG F.TIR_CFG_ACC_FILL = 0 → r.kind = .readCurrent → r.who = .core c → r.la = la →
    completes (.coldSegmentRead la) s (fun t => t.out.head? = some (.coreReply c la ((segLines ws).getD (la / 64 % 8) 0) false 0) ∧ t.home.waiting = [] ∧ t.home.arrived = [] ∧ t.tier.pleat = [] ∧ t.dram = s1.dram)) ∧
  (∀ (s s1 : State) (la k : Nat) (e : LcEntry) (d : Desc), la % 64 = 0 → la < 2 ^ 47 → la / 4096 < pagesL s → lcFind s la = some (k, e) → e.st = .dirty → descOf s (la / 4096) = some d →
    dState d = stCOLD → dSize d = 0 → s.devLevel < 3 → coreOpen s = true → canBusy s (la / 4096) = true → s.tier.promos = [] → nothingWaits s →
    promotePage (dcTouch s (la / 4096)) (la / 4096) (la / 4096 * 4096) d (some la) (some (la / 64 % 64, e.data, false)) = .ok s1 → s1.tier.promos = [] → s1.fget TIR_CFG F.TIR_CFG_ACC_WB = 0 → nothingWaits s1 → lcFind s1 la = some (k, e) →
    completes (.promotion la) s (fun t => lcFind t la = some (k, { e with st := .clean }) ∧ t.dram = s1.dram ∧ t.chans = s1.chans ∧ t.keys = s1.keys ∧
      ∃ d', descOf t (la / 4096) = some d' ∧ dHot d' = true ∧ dAcc d' = dAcc d))

/-- A stripe closes at the head, reaches DRAM with its parity, and the page operations that wait on it end; the tail moves only forward to the head (R82, R132, R134, R135, R136, spec/04_line_cache_tiers_gusset.md). -/
def Obligations.ColdLogKeepsParity : Prop :=
  (∀ (s : State) (g : Nat) (o : OpenStripe), g < 2 → s.tier.stripes = [o] → o.group = g → o.idx = headStripe s g → o.closed = false → 0 < o.fill → 0 < headSect s g → headSect s g < 704 →
    0 < stripesOf s g → stripesOf s g ≤ 2 ^ 28 → coreOpen s = true → completes (.stripeCloseTimeout g) s (fun t => t.tier = { s.tier with stripes := [{ o with closed := true }] } ∧ t.dram = s.dram ∧ t.out = s.out ∧
      (freeStripes s g = 0 → t.fget (TIR_LOGHEAD g) F.TIR_LOGHEAD_SECT = 704 ∧ headStripe t g = headStripe s g ∧ t.fget TIR_STAT F.TIR_STAT_LOG_FULL = 1) ∧
      (0 < freeStripes s g → headSect t g = 0 ∧ headStripe t g = (headStripe s g + 1) % stripesOf s g) ∧
      regsKept (fun off => off = TIR_LOGHEAD g ∨ off = TIR_STAT ∨ counterReg off = true) s t)) ∧
  (∀ (s : State) (g : Nat) (o : OpenStripe), g < 2 → s.tier.stripes = [o] → o.group = g → o.closed = true → coreOpen s = true → nothingWaits s → (∀ c < 12, s.cstate (12 * g + c) = csIN_SERVICE) →
    let key := fun (pos l : Nat) => ((12 * g + pos) * 2 ^ 28 + (coldBase s g + o.idx)) * 64 + l
    let line := fun (t : State) (k : Nat) => tabGet (fun _ => (0 : Line)) t.dram.lines k
    let sector := fun (x : Nat) => tabGet (fun _ => (0 : Line)) o.sects x
    completes (.stripeWritten g o.idx) s (fun t => t.tier.stripes = [] ∧ t.out = s.out ∧
      (∀ l < 64, (List.range 12).foldl (fun a p => a ^^^ line t (key p l)) 0 = 0) ∧
      (∀ l < 64, ∀ j < 11, line t (key (if j < o.idx % 12 then j else j + 1) l) = sector (j * 64 + l)) ∧
      (∀ pos < 12, ∀ l < 64, tabGet (fun _ => false) t.dram.poison (key pos l) = false) ∧
      (∀ k, (∀ pos < 12, ∀ l < 64, k ≠ key pos l) → line t k = line s k ∧ tabGet (fun _ => false) t.dram.poison k = tabGet (fun _ => false) s.dram.poison k))) ∧
  (∀ (s : State) (o : PageOp) (d : Desc), s.tier.ops = [o] → s.tier.stripes = [] → o.kind = 0 → o.merged = [] → (∀ x ∈ s.tier.lc, ∀ e, x.2 = some e → e.st = .clean) → descOf s o.lpn = some d → dHot d = true → coreOpen s = true → nothingWaits s →
    (s.bob o.bob).run = 1 → (s.bob o.bob).opRd = some o.rd → (s.bob o.bob).pc + 1 < (s.bob o.bob).words →
    let u := s.bob o.bob
    let returns := fun (v : Nat) (t : State) => (∀ r, (t.bob o.bob).gr r = if r = o.rd ∧ r ≠ 0 then BitVec.ofNat 64 v else u.gr r) ∧
      t.bob o.bob = { u with g := (t.bob o.bob).g, opRd := none, pc := u.pc + 1, waits := false } ∧ othersKept o.bob s t ∧ t.tier.ops = [] ∧ busyOf t o.lpn = false
    (o.failed = false → completes (.demoteFinish o.lpn) s (fun t => descOf t o.lpn = some (dput o.desc 10 8 (dAcc d)) ∧
      returns ((dFrameIdx d + dChan d * 2 ^ 28) * 2 ^ 16 + 2 ^ 52 + (if dState d = stMIRROR then 2 ^ 53 else 0)) t)) ∧
    (o.failed = true → completes (.demoteFinish o.lpn) s (fun t => descOf t o.lpn = some d ∧ returns C.TIR_E_GROUP_DEGRADED t ∧ regsKept (slotReg o.bob) s t ∧ t.dram = s.dram))) ∧
  (∀ (s : State) (who : Who) (g : Nat) (val : Word) (w : CtlWrite), g < 2 → admitted who (TIR_LOGTAIL g) val s w →
    let ns := stripesOf s g
    let v := fld w.new F.TIR_LOGTAIL_STRIPE
    let forward := fun x => (x + ns - tailStripe s g) % ns
    let takes := if ns = 0 then v = 0 else v < ns ∧ forward v ≤ forward (headStripe s g)
    completes (.logTailWrite who g val) s (fun t => t = { s with regs := t.regs, out := t.out } ∧
      (¬ takes → endedWith who (TIR_LOGTAIL g) C.TIR_E_TAIL_RANGE t ∧ regsKept errorReg s t) ∧
      (takes → endedWith who (TIR_LOGTAIL g) 0 t) ∧ (takes → 0 < ns → tailStripe t g = v ∧ (headSect s g < 704 → regsKept (fun off => off = TIR_LOGTAIL g) s t)))) ∧
  (∀ (s : State) (who : Who) (n : Nat) (val : Word) (w : CtlWrite), n < 64 → admitted who (TIR_GRBASE n) val s w →
    completes (.gussetRangeWrite who n val) s (fun t => t = { s with regs := t.regs, out := t.out } ∧
      (fld w.new F.TIR_GRBASE_GROUP = 3 → endedWith who (TIR_GRBASE n) C.TIR_E_ATTR t ∧ regsKept errorReg s t) ∧
      (fld w.new F.TIR_GRBASE_GROUP ≠ 3 → endedWith who (TIR_GRBASE n) 0 t ∧ t.rg (TIR_GRBASE n) = BitVec.ofNat 64 w.new ∧ regsKept (fun off => off = TIR_GRBASE n) s t)))

/-- Key slots are loaded, made current and erased by their rules; the sweep runs page by page; link keys are written once and their staging cleared (R189, R191, R192, R212, R213, R214, R217, R219, spec/06_encryption_keys.md). -/
def Obligations.KeySlotsAndSweep : Prop :=
  (∀ (s : State) (who : Who) (k : Nat) (val : Word) (w : CtlWrite), k < 32 → admitted who (KEY_RGN k) val s w →
    let b := fld w.new F.KEY_RGN_BASE
    let l := fld w.new F.KEY_RGN_LIMIT
    let clash := ∃ j, 1 ≤ j ∧ j < 32 ∧ j ≠ k ∧ s.fget (KEY_RGN j) F.KEY_RGN_VALID = 1 ∧ s.fget (KEY_RGN j) F.KEY_RGN_BASE ≤ l ∧ b ≤ s.fget (KEY_RGN j) F.KEY_RGN_LIMIT
    let bad := k = 0 ∨ l < b ∨ fld w.new F.KEY_RGN_VALID = 1 ∧ clash
    completes (.keyRegionWrite who k val) s (fun t => t = { s with regs := t.regs, out := t.out } ∧
      (bad → endedWith who (KEY_RGN k) C.KEY_E_RANGE t ∧ regsKept errorReg s t) ∧
      (¬ bad → endedWith who (KEY_RGN k) 0 t ∧ t.rg (KEY_RGN k) = BitVec.ofNat 64 w.new ∧ regsKept (fun off => off = KEY_RGN k) s t))) ∧
  (∀ (s : State) (who : Who) (k : Nat) (val : Word) (w : CtlWrite), k < 32 → admitted who (KEY_RCTL k) val s w → nothingWaits s →
    let e := fld w.act F.KEY_RCTL_SLOT
    let cur := s.fget (KEY_RCTL k) F.KEY_RCTL_CUR
    let nx := fld w.new F.KEY_RCTL_CUR
    let frame := fun (t : State) => t.dram = s.dram ∧ t.tier = s.tier ∧ (∀ j i, j ≠ k → i < 2 → j < 32 → t.slot j i = s.slot j i) ∧ regsKept (fun off => off = KEY_RCTL k ∨ errorReg off) s t
    (fld w.act F.KEY_RCTL_ERASE = 0 → fld w.act F.KEY_RCTL_LOAD = 1 → nx = cur →
      ((s.slot k e).inuse ≠ 0 → completes (.keyLoad who k val) s (fun t => frame t ∧ endedWith who (KEY_RCTL k) C.KEY_E_SLOT_IN_USE t ∧ t.keys = s.keys)) ∧
      ((s.slot k e).inuse = 0 → fld w.act F.KEY_RCTL_GEN = 0 → completes (.keyLoad who k val) s (fun t => frame t ∧ endedWith who (KEY_RCTL k) 0 t ∧ slotLive t k e = true ∧
        t.fget (KEY_RCTL k) F.KEY_RCTL_NEWER = e ∧ t.fget (KEY_RCTL k) F.KEY_RCTL_CUR = cur ∧ slotLive t k (1 - e) = slotLive s k (1 - e) ∧ t.slot k (1 - e) = s.slot k (1 - e) ∧
        t.slot k e = ⟨kmatWords s 0 12, 0, 0⟩ ∧ ∀ i, tabGet (fun _ => 0) t.keys.kmat i = 0))) ∧
    (fld w.act F.KEY_RCTL_ERASE = 0 → fld w.act F.KEY_RCTL_LOAD = 0 → completes (.keyCurWrite who k val) s (fun t => frame t ∧ t.keys = s.keys ∧
      (nx = cur → endedWith who (KEY_RCTL k) 0 t) ∧ (nx ≠ cur → slotLive s k nx = false → endedWith who (KEY_RCTL k) C.KEY_E_NO_KEY t ∧ t.fget (KEY_RCTL k) F.KEY_RCTL_CUR = cur) ∧
      (nx ≠ cur → slotLive s k nx = true → s.fget (KEY_RCTL k) F.KEY_RCTL_NEWER ≠ nx → endedWith who (KEY_RCTL k) C.KEY_E_NOT_NEWER t ∧ t.fget (KEY_RCTL k) F.KEY_RCTL_CUR = cur) ∧
      (nx ≠ cur → slotLive s k nx = true → s.fget (KEY_RCTL k) F.KEY_RCTL_NEWER = nx → endedWith who (KEY_RCTL k) 0 t ∧ t.fget (KEY_RCTL k) F.KEY_RCTL_CUR = nx))) ∧
    (fld w.act F.KEY_RCTL_ERASE = 1 → fld w.act F.KEY_RCTL_LOAD = 0 → nx = cur → completes (.keyErase who k val) s (fun t => frame t ∧ endedWith who (KEY_RCTL k) 0 t ∧
      ∀ i < 2, slotLive t k i = false ∧ t.slot k i = { s.slot k i with mat := 0 }))) ∧
  (∀ (s : State) (who : Who) (val : Word) (w : CtlWrite), admitted who KEY_SWEEPCTL val s w →
    let busy := s.fget KEY_SWEEPCTL F.KEY_SWEEPCTL_BUSY
    let ends := fun (c : Instr) (st b : Nat) (stop : Bool) => completes c s (fun t => endedWith who KEY_SWEEPCTL st t ∧ t.fget KEY_SWEEPCTL F.KEY_SWEEPCTL_BUSY = b ∧
      t = { s with regs := t.regs, out := t.out, keys := { s.keys with sweepStop := stop } } ∧ regsKept (fun off => off = KEY_SWEEPCTL ∨ errorReg off) s t)
    (fld w.act F.KEY_SWEEPCTL_START = 1 → fld w.act F.KEY_SWEEPCTL_STOP = 0 →
      (busy = 1 → ends (.keySweepStart who val) C.KEY_E_SWEEP_BUSY 1 s.keys.sweepStop) ∧ (busy = 0 → s.devLevel = 3 → ends (.keySweepStart who val) C.FLT_E_BASTING 0 s.keys.sweepStop) ∧
      (busy = 0 → s.devLevel ≠ 3 → ends (.keySweepStart who val) 0 1 false)) ∧
    (fld w.act F.KEY_SWEEPCTL_START = 0 → fld w.act F.KEY_SWEEPCTL_STOP = 1 → busy = 1 → ends (.keySweepStop who val) 0 1 true)) ∧
  (∀ (s : State) (d : Desc), s.fget KEY_SWEEPCTL F.KEY_SWEEPCTL_BUSY = 1 → s.devLevel ≠ 3 → coreOpen s = true → nothingWaits s →
    let n := s.fget KEY_SWEEPBASE F.KEY_SWEEPBASE_LPN
    let last := s.keys.sweepStop = true ∨ s.fget KEY_SWEEPLIM F.KEY_SWEEPLIM_LPN ≤ n ∨ pagesL s ≤ n + 1
    n ≤ s.fget KEY_SWEEPLIM F.KEY_SWEEPLIM_LPN → n < pagesL s → n + 1 < 2 ^ 35 → descOf s n = some d → canBusy s n = true → dHot d = true → (s.slot (dKreg d) (dEpoch d)).mfloor < 2 ^ 40 →
    slotLive s (dKreg d) (dEpoch d) = true → regionOf s (n * 4096) = dKreg d → s.fget (KEY_RCTL (dKreg d)) F.KEY_RCTL_CUR = dEpoch d → completes .sweepPage s (fun t =>
      t.fget KEY_SWEEPBASE F.KEY_SWEEPBASE_LPN = n + 1 ∧ descOf t n = some d ∧ t.dram = s.dram ∧ t.keys.slots = s.keys.slots ∧
      (last → t.fget KEY_SWEEPCTL F.KEY_SWEEPCTL_BUSY = 0 ∧ t.fget KEY_SWEEPCTL F.KEY_SWEEPCTL_STATUS = 0) ∧ (¬ last → t.fget KEY_SWEEPCTL F.KEY_SWEEPCTL_BUSY = 1) ∧
      regsKept (fun off => off = KEY_SWEEPBASE ∨ off = KEY_SWEEPCTL) s t)) ∧
  (∀ (s : State) (who : Who) (val : Word) (w : CtlWrite), admitted who KEY_LINKCTL val s w → fld w.act F.KEY_LINKCTL_LOAD = 1 →
    let k := fld w.new F.KEY_LINKCTL_PORT * 4 + fld w.new F.KEY_LINKCTL_DIR * 2 + fld w.new F.KEY_LINKCTL_SLOT
    completes (.linkKeyLoad who val) s (fun t => endedWith who KEY_LINKCTL 0 t ∧ tabGet (fun _ => none) t.keys.link k = some (kmatWords s 0 4, kmatWords s 4 1) ∧
      (∀ j, j ≠ k → tabGet (fun _ => none) t.keys.link j = tabGet (fun _ => none) s.keys.link j) ∧ (∀ i, tabGet (fun _ => 0) t.keys.kmat i = 0) ∧ t.keys.slots = s.keys.slots ∧
      t.dram = s.dram ∧ regsKept (fun off => off = KEY_LINKCTL ∨ ∃ p, off = PRT_SEAMSTAT p) s t)) ∧
  (∀ (s : State) (c : Nat), c < 24 → completes (.keyFUnit c) s (fun t =>
    t = { s with diag := t.diag, reports := s.reports ++ [{ src := 5 * 128 + c, elem := 0, code := C.KEY_F_UNIT, addr := 0, detail := 0, level := none }] }))

/-- Doorbells, consumption, rings, resets, aborts, capabilities and interrupts of a Spool follow their rules, and a refused write is not applied (R298, R303, R304, R305, R309, R310, R312, R316, R322, spec/09_spools_services.md). -/
def Obligations.SpoolsTakeAndEndCommands : Prop :=
  (∀ (s : State) (who : Who) (q : Nat) (val : Word) (w : CtlWrite), q < 1024 → admitted who (SPL_DOORBELL q) val s w → s.fget PWR_CTL F.PWR_CTL_BUSY = 0 →
    let far := fun (a b : Nat) => (a + 2 ^ 32 - b) % 2 ^ 32
    let max' := fun (a b : Nat) => if 0 < far a b ∧ far a b < 2 ^ 31 then a else b
    let tl := max' (fld w.new F.SPL_DOORBELL_SQTAIL) (s.fget (SPL_DOORBELL q) F.SPL_DOORBELL_SQTAIL)
    let hd := max' (fld w.new F.SPL_DOORBELL_CQHEAD) (s.fget (SPL_DOORBELL q) F.SPL_DOORBELL_CQHEAD)
    let done := s.fget (SPL_PROGRESS q) F.SPL_PROGRESS_CQDONE
    let lawful := far tl (s.fget (SPL_PROGRESS q) F.SPL_PROGRESS_CONS) ≤ 2 ^ s.fget (SPL_CFG q) F.SPL_CFG_SQLOG ∧ ¬ (0 < far hd done ∧ far hd done < 2 ^ 31)
    completes (.spoolDoorbell who q val) s (fun t => onlyRegisters s t ∧
      (lawful → endedWith who (SPL_DOORBELL q) 0 t ∧ t.fget (SPL_DOORBELL q) F.SPL_DOORBELL_SQTAIL = tl ∧ t.fget (SPL_DOORBELL q) F.SPL_DOORBELL_CQHEAD = hd ∧
        splState t q = (if splState s q = 2 ∨ splState s q = 3 then (if s.devLevel = 3 then 5 else 1) else splState s q) ∧
        regsKept (fun off => off = SPL_DOORBELL q ∨ off = SPL_STAT q ∨ counterReg off = true) s t) ∧
      (¬ lawful → endedWith who (SPL_DOORBELL q) C.SPL_E_DOORBELL t ∧ t.rg (SPL_DOORBELL q) = s.rg (SPL_DOORBELL q) ∧
        t.fget (SPL_STAT q) F.SPL_STAT_LASTDB = C.SPL_E_DOORBELL ∧ regsKept (fun off => off = SPL_STAT q ∨ errorReg off) s t))) ∧
  (∀ (s : State) (q : Nat) (r : BobReply), q < 1024 → mayConsume s q = true → r ∈ s.home.bobReplies → r.bob = 128 + q → r.slot = 0 →
    (∀ x ∈ s.home.bobReplies, x.bob = 128 + q → x.slot = 0 → x = r) → r.status = 0 →
    let n := s.fget (SPL_PROGRESS q) F.SPL_PROGRESS_CONS
    let reads := fun (c : Instr) => completes c s (fun t => t = { s with regs := t.regs, levelNs := t.levelNs, spools := t.spools, home := { s.home with bobReplies := s.home.bobReplies.erase r } } ∧
      (∀ p, p ≠ q → t.spool p = s.spool p) ∧ regsKept (fun off => off = SPL_PROGRESS q ∨ off = SPL_STAT q ∨ counterReg off = true) s t ∧
      (r.poison = true → splState t q = 3 ∧ (t.spool q).cmds = (s.spool q).cmds ∧ splCons t q = n) ∧
      (r.poison = false → r.data.toNat % 2 ^ 32 ≠ n → splState t q = 2 ∧ (t.spool q).cmds = (s.spool q).cmds ∧ splCons t q = n) ∧
      (r.poison = false → r.data.toNat % 2 ^ 32 = n → splCons t q = (n + 1) % 2 ^ 32 ∧ splState t q = (if s.devLevel = 3 then 5 else 1) ∧
        ∃ c, (t.spool q).cmds = (s.spool q).cmds ++ [c] ∧ c.n = n ∧ c.desc = r.data ∧ c.stage = 0 ∧ c.bob = 255 ∧ c.claim = none ∧ c.recd = 0))
    (r.poison = true ∨ r.data.toNat % 2 ^ 32 ≠ n ∨ cmdStatus s q r.data = 0 →
      (splState s q = 1 ∨ splState s q = 5 → reads (.spoolConsume q)) ∧ (splState s q = 2 ∨ splState s q = 3 → reads (.slotReread q)))) ∧
  (∀ (s : State) (who : Who) (q : Nat) (val : Word) (w : CtlWrite), q < 1024 → admitted who (SPL_CFG q) val s w → (s.spool q).cmds = [] → dropSlotRead s q = s →
    let was := s.fget (SPL_CFG q) F.SPL_CFG_EN
    let lg := fld w.new F.SPL_CFG_SQLOG
    let sq := s.fget (SPL_SQBASE q) F.SPL_SQBASE_LPN * 4096
    let cq := s.fget (SPL_CQBASE q) F.SPL_CQBASE_LPN * 4096
    let rings := 4 ≤ lg ∧ lg ≤ 16 ∧ sq + 64 * 2 ^ lg ≤ pagesL s * 4096 ∧ cq + 16 * 2 ^ lg ≤ pagesL s * 4096 ∧ (sq + 64 * 2 ^ lg ≤ cq ∨ cq + 16 * 2 ^ lg ≤ sq)
    let refused := fun (t : State) => endedWith who (SPL_CFG q) C.SPL_E_CONFIG t ∧ onlyRegisters s t ∧ regsKept errorReg s t
    (fld w.act F.SPL_CFG_RESET = 0 → fld w.new F.SPL_CFG_EN = 1 → was = 0 → completes (.en who q val) s (fun t =>
      (rings → splState s q ≠ 4 → endedWith who (SPL_CFG q) 0 t ∧ onlyRegisters s t ∧ t.rg (SPL_CFG q) = BitVec.ofNat 64 w.new ∧ t.rg (SPL_PROGRESS q) = 0 ∧ t.rg (SPL_DOORBELL q) = 0 ∧
        splState t q = (if s.devLevel = 3 then 5 else 1) ∧ regsKept (fun off => off = SPL_CFG q ∨ off = SPL_PROGRESS q ∨ off = SPL_DOORBELL q ∨ off = SPL_STAT q) s t) ∧
      (¬ rings ∨ splState s q = 4 → refused t))) ∧
    (fld w.act F.SPL_CFG_RESET = 1 → fld w.new F.SPL_CFG_EN = was → lg = s.fget (SPL_CFG q) F.SPL_CFG_SQLOG → completes (.splReset who q val) s (fun t =>
      (splState s q = 4 → refused t) ∧ (splState s q ≠ 4 → endedWith who (SPL_CFG q) 0 t ∧ splState t q = 4 ∧ onlyRegisters s t ∧ regsKept (fun off => off = SPL_CFG q ∨ off = SPL_STAT q) s t)))) ∧
  (∀ (s : State) (q : Nat), q < 1024 → splState s q = 4 → (s.spool q).cmds = [] → (s.spool q).mbox = [] → completes (.spoolResetFinish q) s (fun t =>
    t.fget (SPL_CFG q) F.SPL_CFG_EN = 0 ∧ splState t q = 0 ∧ t.rg (SPL_PROGRESS q) = 0 ∧ t.rg (SPL_DOORBELL q) = 0 ∧ t.spool q = s.spool q ∧ t = { s with regs := t.regs, spools := t.spools } ∧
    regsKept (fun off => off = SPL_CFG q ∨ off = SPL_PROGRESS q ∨ off = SPL_DOORBELL q ∨ off = SPL_STAT q) s t)) ∧
  (∀ (s : State) (who : Who) (q : Nat) (val : Word) (w : CtlWrite), q < 1024 → admitted who (SPL_ABORT q) val s w → fld w.act F.SPL_ABORT_GO = 1 → s.fget (SPL_ABORT q) F.SPL_ABORT_BUSY = 0 →
    let n := fld w.new F.SPL_ABORT_SEQ
    let back := (s.fget (SPL_PROGRESS q) F.SPL_PROGRESS_CONS + 2 ^ 32 - n) % 2 ^ 32
    (back = 0 ∨ 2 ^ 31 ≤ back → completes (.spoolAbort who q val) s (fun t => endedWith who (SPL_ABORT q) 0 t ∧ onlyRegisters s t ∧
      t.fget (SPL_ABORT q) F.SPL_ABORT_RESULT = C.SPL_E_NOT_CONSUMED ∧ regsKept (fun off => off = SPL_ABORT q) s t)) ∧
    (∀ c b, 0 < back → back < 2 ^ 31 → back ≤ 2 ^ s.fget (SPL_CFG q) F.SPL_CFG_SQLOG → (s.spool q).cmds = [c] → c.n = n → c.stage = 1 → c.claim = none → bobOf s q n = some b → (s.bob b).run = 1 →
      completes (.spoolAbort who q val) s (fun t => endedWith who (SPL_ABORT q) 0 t ∧ t.fget (SPL_ABORT q) F.SPL_ABORT_RESULT = 0 ∧
        t.bob b = { s.bob b with run := 2 } ∧ othersKept b s t ∧ t.spool q = { s.spool q with cmds := [{ c with claim := some (C.SPL_W_ABORTED, 0) }] } ∧ t.dram = s.dram))) ∧
  (∀ (s : State) (who : Who) (q : Nat) (val : Word) (w : CtlWrite), q < 1024 →
    let quiet := s.fget (SPL_CFG q) F.SPL_CFG_EN = 0 ∧ (s.spool q).cmds = []
    let writes := fun (c : Instr) (off err : Nat) (ok : Prop) => admitted who off val s w → completes c s (fun t => onlyRegisters s t ∧
      (¬ quiet → endedWith who off C.SPL_E_CONFIG t ∧ regsKept errorReg s t) ∧ (quiet → ¬ ok → endedWith who off err t ∧ regsKept errorReg s t) ∧
      (quiet → ok → endedWith who off 0 t ∧ t.rg off = BitVec.ofNat 64 w.new ∧ regsKept (fun o => o = off) s t))
    (∀ k < 17, writes (.capabilityWrite who q k val) (SPL_CAP q k) C.SPL_E_CAP_CEILING
      (k = 0 → w.new % 32 &&& s.fget (SPL_CLASSINFO q) F.SPL_CLASSINFO_FLAGCEIL = w.new % 32)) ∧
    writes (.ringBaseWrite who q true val) (SPL_CQBASE q) 0 True ∧ writes (.ringBaseWrite who q false val) (SPL_SQBASE q) 0 True) ∧
  (∀ (s : State) (who : Who) (b : Nat) (val : Word) (w : CtlWrite), b < 64 → admitted who (BOB_CFG b) val s w → bobTestDue s b = false → completes (.drain who b val) s (fun t =>
    endedWith who (BOB_CFG b) 0 t ∧ onlyRegisters s t ∧ t.rg (BOB_CFG b) = BitVec.ofNat 64 w.new ∧ regsKept (fun off => off = BOB_CFG b ∨ off = BOB_STAT b) s t ∧
    (let st := s.fget (BOB_STAT b) F.BOB_STAT_STATE
     t.fget (BOB_STAT b) F.BOB_STAT_STATE = if fld w.new F.BOB_CFG_DRAIN = 1 ∧ st = 0 then 2 else if fld w.new F.BOB_CFG_DRAIN = 0 ∧ st = 2 then 0 else st))) ∧
  (∀ (s : State) (q : Nat), q < 1024 → s.fget (SPL_IRQ q) F.SPL_IRQ_EN = 1 → 0 < (s.spool q).unrep → s.fget (SPL_IRQ q) F.SPL_IRQ_DELAY_US ≠ 0 →
    let o := s.fget (SPL_CLASSINFO q) F.SPL_CLASSINFO_OWNER
    let kind := s.fget (SPL_CLASSINFO q) F.SPL_CLASSINFO_OWNERKIND
    completes (.spoolIrqDelay q) s (fun t => t.spool q = { s.spool q with unrep := 0 } ∧ (∀ p, p ≠ q → t.spool p = s.spool p) ∧ t.dram = s.dram ∧
      (kind = 0 → t.regs = s.regs ∧ let v := s.fget (SPL_IRQ q) F.SPL_IRQ_VECTOR
        let masked := bit (tabGet msixReset (s.port o).msixTab (2 * v + 1)) 32
        (masked = false → t.out = .msix o v :: s.out) ∧ (masked = true → t.out = s.out ∧ bit (t.port o).msixPend v = true)) ∧ (kind = 1 → t.notices = s.notices ++ [(o, q)] ∧ t.regs = s.regs)))

/-- A program starts in exactly the state of its table: registers from the descriptor, cleared scratchpad, text of the image (R254). -/
def Obligations.ProgramLaunchSetsTheState : Prop :=
  ∀ (s : State) (b : Nat) (c : Cmd), b < 64 → coreOpen s = true → s.devLevel ≠ 3 → gated s (68 + b) = false → (s.bob b).run = 3 → bobCmd s b = some c →
    let u := s.bob b
    let p := c.desc.toNat / 2 ^ 32 % 2 ^ 16
    let ga := (s.prog p).addr
    let bytes := (u.load.reverse.flatMap lineBytes).drop (ga % 64)
    let m := bytes.take (imgLen (bytes.take 64))
    let field := fun (off : Nat) => leNat ((m.drop off).take 4)
    p < 256 → lineCount ga 64 ≤ u.load.length → lineCount ga (imgLen (bytes.take 64)) ≤ u.load.length → imgOk m = true →
    imgNeeds m &&& (u.cap.getD 0 0) % 32 = imgNeeds m → u.img ≠ (p, (s.prog p).gen) →
    completes (.programLaunch b) s (fun t => (t.bob b).run = 1 ∧ (t.bob b).pc = field 32 ∧ (t.bob b).words = field 28 ∧
      (∀ k, (t.bob b).gr k = if 1 ≤ k ∧ k ≤ 6 then c.desc.extractLsb' (64 * (k + 1)) 64 else 0) ∧
      (∀ k, (t.bob b).vr k = (if k = 0 then c.desc else 0) ∧ (t.bob b).vpois k = false) ∧
      (∀ i, tabGet (fun _ => 0) (t.bob b).text i = if i < field 28 then field (64 + 4 * i) else 0) ∧
      (∀ k, scrByte (t.bob b) k = if field 36 ≤ k ∧ k < field 36 + field 40 then m.getD (64 + 4 * field 28 + (k - field 36)) 0 else 0) ∧
      (∀ k, (t.bob b).tag k = ⟨0, 0, 0⟩) ∧ (t.bob b).posted = false ∧ (t.bob b).lost = [] ∧ (t.bob b).stores = [] ∧ (t.bob b).jobs = [] ∧
      othersKept b s t ∧ t = { s with regs := t.regs, levelNs := t.levelNs, bobs := t.bobs, spools := t.spools } ∧
      regsKept (fun off => off = BOB_LAUNCHES b ∨ counterReg off = true) s t)

/-- A Seam port sends and takes flits, replays, trains and goes down by its rules; skip blocks carry lane-map bytes by majority (R330, R333, R337, R338, R339, R340, R344, R346, R348, R349, R562, spec/10_seam_fabric.md). -/
def Obligations.SeamLinksSendReceiveAndTrain : Prop :=
  ∀ (s : State) (p : Nat), p < 16 → seamMode s p = true →
    let x := s.sp p
    let only := fun (t : State) => t = { s with regs := t.regs, levelNs := t.levelNs, out := t.out, seam := t.seam } ∧ (∀ q, q ≠ p → t.sp q = s.sp q) ∧
      regsKept (fun off => off = PRT_SEAMSTAT p ∨ counterReg off = true) s t
    let sends := fun (c : Instr) (ftype seq : Nat) (clear : Bool) (key : Nat × Nat) (e : Nat) (pay : Bytes) (P : SeamPort → State → Prop) => completes c s (fun t => only t ∧
      (let h := newHeader s x ftype seq
       t.out = .flit p (flitBuild key clear e h.1 pay) :: s.out ∧ P { h.2 with sent := x.sent + 1 } t))
    let onlyRx := fun (ex : Nat → Prop) (t : State) => t = { s with regs := t.regs, levelNs := t.levelNs, out := t.out, seam := t.seam, diag := t.diag } ∧ (∀ q, q ≠ p → t.sp q = s.sp q) ∧
      regsKept (fun off => off = PRT_SEAMSTAT p ∨ ex off ∨ counterReg off = true) s t
    let idle := s.home.nodeReplies = [] ∧ s.notices = [] ∧ s.seam.outq = [] ∧ s.seam.dups = [] ∧ s.seam.clear = none
    (∀ key, seamLive s p = true → idle → linkKey s p 0 x.txSlot = some key → x.sent < 4096 →
      (x.resend = [] → x.txq = [] → x.units = [] → sends (.flitTransmit p) 0 x.ctl false key (2 * x.ctl + 1) (List.replicate 224 0) (fun y t => t.sp p = { y with ctl := x.ctl + 1 })) ∧
      (∀ m, x.resend = [] → x.txq = [m] → x.units = [] → x.buf.length < 1024 → m.cost ≤ tabGet (fun _ => 0) x.cred m.vc → m.opc ≠ 0x70 → m.opc ≠ 0x72 →
        let us := (msgUnits m).flatMap (leBytes 16)
        let pay := us ++ List.replicate (224 - us.length) 0
        sends (.flitTransmit p) 1 x.txNext false key (2 * x.txNext) pay (fun y t => t.sp p = { y with txq := [], cur := none, units := [], cred := tabSet (fun _ => 0) x.cred m.vc (tabGet (fun _ => 0) x.cred m.vc - m.cost), txNext := x.txNext + 1, buf := x.buf ++ [⟨x.txNext, flitBuild key false (2 * x.txNext) (newHeader s x 1 x.txNext).1 pay, [m]⟩] })) ∧
      (∀ f rest, x.resend = f.seq :: rest → x.buf.find? (fun g => g.seq == f.seq) = some f → completes (.flitTransmit p) s (fun t => only t ∧
        t.out = .flit p f.flit :: s.out ∧ t.sp p = { x with resend := rest, sent := x.sent + 1 }))) ∧
    (∀ (flit : BitVec 2048) (b : Bytes) (fx : List Nat), seamLive s p = true → flitFix flit = (b, fx) →
      let h := leNat (b.take 10)
      let c := (b.drop 10).take 224
      let n := extSeq x.rxNext (getBits h 8 16)
      let due := ∀ a, x.nakAt = some a → a + 2000 ≤ s.time
      let sent := gcmCrypt (linkKeyBytes ((linkKey s p 1 (getBits h 4 1)).getD (0, 0)).1) (flitIv ((linkKey s p 1 (getBits h 4 1)).getD (0, 0)).2 (2 * n)) c
      let all := x.stream ++ (chunk 16 14 sent).map leNat
      let r := parseUnits (all.length + 1) all
      let tag := fun (key : Nat × Nat) => (gcmTag (linkKeyBytes key.1) (flitIv key.2 (2 * n)) (b.take 10) c).take 8
      (flitCrcOk b = false → x.crcRun < 15 → completes (.flitReceive p flit) s (fun t => onlyRx (fun _ => False) t ∧ t.out = s.out ∧
        t.sp p = { x with crcRun := x.crcRun + 1, nakDue := (if due then true else x.nakDue) })) ∧
      (∀ key, flitCrcOk b = true → flitType b = 1 → linkKey s p 1 (getBits h 4 1) = some key →
        (tag key ≠ (b.drop 234).take 8 → completes (.flitReceive p flit) s (fun t => t.out = s.out ∧ t.dram = s.dram ∧ (t.sp p).rxq = x.rxq ∧ (t.sp p).rxNext = x.rxNext ∧
          t.reports = s.reports ++ [{ src := srcId 1 p, elem := 0, code := C.PRT_F_SEAM_AUTH, addr := 0, detail := 0, level := none }] ∧
          t.fget (PRT_SEAMCNT p) F.PRT_SEAMCNT_AUTHFAIL = satAdd F.PRT_SEAMCNT_AUTHFAIL.w (s.fget (PRT_SEAMCNT p) F.PRT_SEAMCNT_AUTHFAIL) 1)) ∧
        (tag key = (b.drop 234).take 8 → n < x.rxNext → completes (.flitReceive p flit) s (fun t => onlyRx (fun _ => False) t ∧ t.out = s.out ∧ t.sp p = { x with crcRun := 0 })) ∧
        (tag key = (b.drop 234).take 8 → n = x.rxNext → bit h 6 = false → r.2.2.1 = 0 → completes (.flitReceive p flit) s (fun t => onlyRx (fun _ => False) t ∧ t.out = s.out ∧
          (t.sp p).rxNext = n + 1 ∧ (t.sp p).rxq = x.rxq ++ stampMsgs x (nowStamp s) r.1 ∧ (t.sp p).stream = r.2.2.2 ∧
          (t.sp p).txq = x.txq ∧ (bit h 5 = false → (t.sp p).buf = x.buf))))) ∧
    (∀ f rest, seamLive s p = true → x.buf = f :: rest → (s.calp p).queue = [] →
      let again := x.repAt = f.seq + 1
      completes (.replayTimeout p) s (fun t => t.out = s.out ∧ (t.sp p).buf = x.buf ∧ (t.sp p).txq = x.txq ∧
        t.fget (PRT_SEAMCNT p) F.PRT_SEAMCNT_REPLAYS = satAdd F.PRT_SEAMCNT_REPLAYS.w (s.fget (PRT_SEAMCNT p) F.PRT_SEAMCNT_REPLAYS) 1 ∧
        (¬ again ∨ (x.repCnt + 1) % 8 ≠ 0 → linkState t p = 3 ∧ (t.sp p).resend = x.buf.map (·.seq)) ∧ (again → (x.repCnt + 1) % 8 = 0 → linkState t p = 4 ∧ (t.sp p).resend = []))) ∧
    (∀ a b : List Nat, seamLive s p = true → a.length = 8 → b.length = 8 → completes (.skipBlock p a b) s (fun t => t = { s with seam := t.seam } ∧ (∀ q, q ≠ p → t.sp q = s.sp q) ∧
      (let votes := fun (l : List Nat) (v : Nat) => 5 ≤ (l.filter (· == v)).length
       t.sp p = { x with gotA := (t.sp p).gotA, gotB := (t.sp p).gotB } ∧ (∀ v, votes a v → (t.sp p).gotA = v % 256) ∧ (∀ v, votes b v → (t.sp p).gotB = v % 256) ∧
       ((∀ v, ¬ votes a v) → (t.sp p).gotA = x.gotA % 256) ∧ ((∀ v, ¬ votes b v) → (t.sp p).gotB = x.gotB % 256)))) ∧
    (s.fget (PRT_CFG p) F.PRT_CFG_RELEASE = 1 → portFenced s p = false → lanesOut s p = [] → gated s (1 + p) = false → s.pst < 2 → linkState s p = 0 ∨ linkState s p = 5 →
      completes (.linkTrain p) s (fun t => linkState t p = 1 ∧ t = { s with regs := t.regs } ∧ regsKept (fun off => off = PRT_SEAMSTAT p) s t)) ∧
    (linkState s p = 1 ∨ linkState s p = 4 → completes (.linkAligned p) s (fun t => linkState t p = 2 ∧ t.sp p = { x with got := 0, fails := 0 } ∧ (∀ q, q ≠ p → t.sp q = s.sp q) ∧
      t.fget (PRT_SEAMSTAT p) F.PRT_SEAMSTAT_NOKEY = (if linkKeyed s p then 0 else 1) ∧ t = { s with regs := t.regs, seam := t.seam, cal := t.cal, ctr := t.ctr } ∧
      regsKept (fun off => off = PRT_SEAMSTAT p ∨ ∃ l < 17, off = CAL_LANE p l) s t)) ∧
    (linkState s p = 2 → (∀ key, x.sent < 4096 → linkKeyed s p = true → linkKey s p 0 x.txSlot = some key →
        sends (.rsyncSend p) 2 x.ctl true key (2 * x.ctl + 1) (rsyncPayload s p x) (fun y t => t.sp p = { y with ctl := x.ctl + 1 } ∧
          linkState t p = (if x.got = 1 ∧ x.stale = false then 3 else 2))) ∧
      (linkKeyed s p = false → completes (.rsyncSend p) s (fun t => t.fget (PRT_SEAMSTAT p) F.PRT_SEAMSTAT_NOKEY = 1 ∧ t = { s with regs := t.regs } ∧ regsKept (fun off => off = PRT_SEAMSTAT p) s t))) ∧
    (∀ (flit : BitVec 2048) (b : Bytes) (fx : List Nat) (key : Nat × Nat), linkState s p = 2 → flitFix flit = (b, fx) → flitCrcOk b = true → flitType b = 2 →
      let h := leNat (b.take 10)
      let pay := (b.drop 10).take 224
      let ctl := bytesAt pay 28 8
      linkKey s p 1 (getBits h 4 1) = some key → (flitSeal key true (2 * ctl + 1) (b.take 10) pay).2 = (b.drop 234).take 8 → tabGet (fun _ => 0) x.slotCtl (getBits h 4 1) ≤ ctl →
      s.fget (PRT_SEAMCFG p) F.PRT_SEAMCFG_EXPECT_EN = 0 → x.got = 0 → x.up = true → bytesAt pay 3 1 % 2 = 1 → bytesAt pay 8 4 = x.myGen → bytesAt pay 4 4 = x.peerGen → (x.repCnt + 1) % 8 ≠ 0 →
      let y := if bit h 5 then takeAck x (getBits h 24 16) else x
      completes (.rsyncReceive p flit) s (fun t => onlyRx (fun off => off = PRT_SEAMCNT p) t ∧ t.out = s.out ∧ linkState t p = 2 ∧ (t.sp p).got = 1 ∧ (t.sp p).lastCtl = ctl ∧
        (t.sp p).buf = y.buf.filter (fun f => bytesAt pay 12 8 ≤ f.seq) ∧ ((t.sp p).buf ≠ [] → (t.sp p).resend = (t.sp p).buf.map (·.seq)) ∧ (t.sp p).rxNext = x.rxNext ∧
        (t.sp p).cred = (takeCredit (takeCredit (takeCredit y (getBits h 40 12)) (getBits h 52 12)) (getBits h 64 12)).cred ∧
        t.fget (PRT_SEAMSTAT p) F.PRT_SEAMSTAT_RESUMED = 1 ∧ t.fget (PRT_SEAMSTAT p) F.PRT_SEAMSTAT_PARTNER = bytesAt pay 0 2 % 2 ^ 14)) ∧
    (seamLive s p = true → (s.calp p).queue = [] → completes (.symbolLockLoss p) s (fun t => linkState t p = 4 ∧ t.out = s.out ∧ t.sp p = { x with crcRun := 0, resend := [], nakAt := none, nakDue := false } ∧
      t.reports = s.reports ++ [{ src := srcId 1 p, elem := 0, code := C.PRT_W_SEAM_RETRAIN, addr := 0, detail := 0, level := some 0 }] ∧
      regsKept (fun off => off = PRT_SEAMSTAT p ∨ off = PRT_SEAMCNT p ∨ counterReg off = true) s t)) ∧
    (linkState s p = 4 → (x.fails < 2 → completes (.retrainAttemptEnd p) s (fun t => t = { s with seam := t.seam } ∧ t.sp p = { x with fails := x.fails + 1 } ∧ ∀ q, q ≠ p → t.sp q = s.sp q)) ∧
      (x.buf = [] → x.txq = [] →
        let down := fun (t : State) => linkState t p = 5 ∧ t.out = s.out ∧ t.sp p = { x with resend := [], nakAt := none, nakDue := false, crcRun := 0, fails := 0 } ∧
          t.fget (PRT_SEAMCNT p) F.PRT_SEAMCNT_DOWNS = satAdd F.PRT_SEAMCNT_DOWNS.w (s.fget (PRT_SEAMCNT p) F.PRT_SEAMCNT_DOWNS) 1 ∧
          t.reports = s.reports ++ [{ src := srcId 1 p, elem := 0, code := C.PRT_F_SEAM_DOWN, addr := 0, detail := 0, level := none }] ∧
          regsKept (fun off => off = PRT_SEAMSTAT p ∨ off = PRT_SEAMCNT p) s t
        (2 ≤ x.fails → completes (.retrainAttemptEnd p) s down) ∧ completes (.linkDown p) s down))

/-- Messages for other nodes are forwarded by the routing table, link partners exchange time and link-local messages, and fabric time follows (R354, R355, R357, R376, R378, R379, spec/10_seam_fabric.md). -/
def Obligations.RoutesTimeAndLinkLocalMessages : Prop :=
  (∀ (s : State) (p vc at0 : Nat) (m : Msg), rxHead s p vc = some (m, at0) → m.dst ≠ ownNode s → m.dst ≠ 0x3FFF → ownNode s ≠ 0x3FFF → s.devLevel ≠ 4 →
    (m.ttl ≤ 1 → s.fget FAB_CFG F.FAB_CFG_IRQ_EN = 0 → completes (.messageRoute p vc) s (fun t => (t.sp p).rxq = (s.sp p).rxq.erase (m, at0) ∧ (∀ q, (t.sp q).txq = (s.sp q).txq) ∧
      t.fget FAB_STAT F.FAB_STAT_LOOP = 1 ∧ t.reports = s.reports ++ [{ src := srcId 9 0, elem := 0, code := C.FAB_F_ROUTE_LOOP, addr := 0, detail := m.src, level := none }] ∧
      t = { s with regs := t.regs, levelNs := t.levelNs, reports := t.reports, seam := t.seam } ∧ regsKept (fun off => off = FAB_STAT ∨ counterReg off = true) s t)) ∧
    (∀ q, 2 ≤ m.ttl → routePort s m 16 = some q → completes (.messageRoute p vc) s (fun t => (t.sp q).txq = (s.sp q).txq ++ [{ m with ttl := m.ttl - 1 }] ∧
      (t.sp p).rxq = (s.sp p).rxq.erase (m, at0) ∧ (∀ o, o ≠ q → (t.sp o).txq = (s.sp o).txq) ∧ t = { s with regs := t.regs, levelNs := t.levelNs, seam := t.seam } ∧
      regsKept (fun off => counterReg off = true) s t))) ∧
  (∀ (s : State) (who : Who) (d : Nat) (val : Word) (w : CtlWrite), d < 2 ^ 14 → admitted who (FAB_ROUTE d) val s w →
    let bad := fld w.new F.FAB_ROUTE_MODE = 3 ∨ ∃ p < 16, bit (fld w.new F.FAB_ROUTE_PORTS) p = true ∧ hostMode s p = true
    completes (.routeWrite who d val) s (fun t => t = { s with regs := t.regs, out := t.out } ∧ (bad → endedWith who (FAB_ROUTE d) C.FAB_E_CONFIG t ∧ regsKept errorReg s t) ∧
      (¬ bad → endedWith who (FAB_ROUTE d) 0 t ∧ t.rg (FAB_ROUTE d) = BitVec.ofNat 64 w.new ∧ regsKept (fun off => off = FAB_ROUTE d) s t))) ∧
  (∀ (s : State) (who : Who) (val : Word) (w : CtlWrite), admitted who FAB_TIMESET val s w → completes (.timeSet who val) s (fun t =>
    (s.fget FAB_TIMECFG F.FAB_TIMECFG_GM = 1 → endedWith who FAB_TIMESET 0 t ∧ t.time = fld w.act F.FAB_TIMESET_NS ∧ t.seam.frac = 0 ∧ t.regs = s.regs ∧ t.dram = s.dram) ∧
    (s.fget FAB_TIMECFG F.FAB_TIMECFG_GM = 0 → endedWith who FAB_TIMESET C.FAB_E_CONFIG t ∧ t = { s with regs := t.regs, out := t.out } ∧ regsKept errorReg s t))) ∧
  (∀ (s : State) (p : Nat), p < 16 → seamLive s p = true → timeEn s = true → isGM s = true ∨ p ≠ upPort s → completes (.notchExchange p) s (fun t =>
    (t.sp p).txq = (s.sp p).txq ++ [notchMsg 0x70 0 s.seam.notch.next false] ∧ t.seam.notch = { s.seam.notch with next := (s.seam.notch.next + 1) % 65536 } ∧
    (∀ q, q ≠ p → t.sp q = s.sp q) ∧ t = { s with seam := t.seam })) ∧
  (∀ (s : State) (p opc at0 : Nat) (m : Msg), notchHead s p opc = some (m, at0) →
    let n := s.seam.notch
    let takes := fun (t : State) => (t.sp p).rxq = (s.sp p).rxq.erase (m, at0) ∧ (∀ q, q ≠ p → t.sp q = s.sp q) ∧ t.out = s.out ∧ t.dram = s.dram
    (opc = 0x70 → follows s p = true → completes (.notchsync p) s (fun t => takes t ∧ t.regs = s.regs ∧ t.seam.notch = { n with ex := notchEx m, t1 := 0, t2 := at0, t3 := 0, void := bit m.addr 96, missed := n.missed + missedFrom n.ex (notchEx m) + (if n.t2 = 0 then 0 else 1) })) ∧
    (opc = 0x71 → follows s p = true → notchEx m = n.ex → completes (.notchfup p) s (fun t => takes t ∧ t.regs = s.regs ∧
      t.seam.notch = { n with t1 := notchTs m, void := n.void || bit m.addr 96 } ∧ (t.sp p).txq = (s.sp p).txq ++ [notchMsg 0x72 0 n.ex false])) ∧
    (opc = 0x72 → completes (.notchreq p) s (fun t => takes t ∧ t.regs = s.regs ∧ t.seam.notch = n ∧
      (t.sp p).txq = (s.sp p).txq ++ [notchMsg 0x73 at0 (notchEx m) ((s.sp p).replayedNotch || bit m.addr 96)])) ∧
    (opc = 0x73 → follows s p = true → notchEx m = n.ex →
      let void := n.void = true ∨ bit m.addr 96 = true ∨ (s.sp p).replayedNotch = true
      let a : Int := (n.t2 : Int) - n.t1
      let b : Int := (notchTs m : Int) - n.t3
      let asym : Int := signed16 (s.fget (PRT_SEAMCFG p) F.PRT_SEAMCFG_ASYM_PS) * 65536 / 1000
      let off := Int.tdiv (a - b - asym) 2
      let done := fun (t : State) => takes t ∧ t.fget FAB_TIMESTAT F.FAB_TIMESTAT_VALID = 1 ∧ t.fget FAB_TIMESTAT F.FAB_TIMESTAT_HOLDOVER = 0 ∧
        t.fget FAB_TIMESTAT F.FAB_TIMESTAT_OFFSET_PS = field16 (Int.tdiv (off * 1000) 65536) ∧ t.fget FAB_TIMESTAT F.FAB_TIMESTAT_DELAY_NS = min (Int.tdiv (a + b) 2 / 65536).toNat 65535 ∧
        regsKept (fun o => o = FAB_TIMESTAT ∨ counterReg o = true) s t
      (void → completes (.notchrsp p) s (fun t => takes t ∧ t.time = s.time ∧ t.seam.corr = s.seam.corr ∧ t.seam.notch = { n with t2 := 0, missed := n.missed + 1 } ∧ regsKept (fun o => counterReg o = true) s t)) ∧
      (¬ void → (off.natAbs : Int) ≤ s.fget FAB_TIMECFG F.FAB_TIMECFG_ALARM_NS * 65536 →
        (off.natAbs ≤ 1000 * 65536 → completes (.notchrsp p) s (fun t => done t ∧ t.time = s.time ∧ t.seam.corr = -off)) ∧
        (1000 * 65536 < off.natAbs → 0 ≤ (nowStamp s : Int) - off → (nowStamp s : Int) - off < 2 ^ 80 → completes (.notchrsp p) s (fun t => done t ∧
          (nowStamp t : Int) = nowStamp s - off ∧ t.seam.corr = 0 ∧ t.fget FAB_TIMESTAT F.FAB_TIMESTAT_STEP = 1))))) ∧
  (∀ s : State, (timeEn s = true → isGM s = false → outOfSync s = true → s.fget FAB_TIMESTAT F.FAB_TIMESTAT_HOLDOVER = 0 → completes .holdover s (fun t =>
      t.fget FAB_TIMESTAT F.FAB_TIMESTAT_HOLDOVER = 1 ∧ t.reports = s.reports ++ [{ src := srcId 9 0, elem := 0, code := C.FAB_W_TIME_HOLDOVER, addr := 0, detail := 0, level := some 0 }] ∧
      t = { s with regs := t.regs, levelNs := t.levelNs, reports := t.reports } ∧ regsKept (fun off => off = FAB_TIMESTAT ∨ counterReg off = true) s t)) ∧
    (s.fget FAB_TIMESTAT F.FAB_TIMESTAT_HOLDOVER = 1 → completes .holdoverTimeout s (fun t => t.fget FAB_TIMESTAT F.FAB_TIMESTAT_VALID = 0 ∧
      t.fget FAB_TIMESTAT F.FAB_TIMESTAT_HOLDOVER = 1 ∧ t = { s with regs := t.regs } ∧ regsKept (fun off => off = FAB_TIMESTAT) s t))) ∧
  (∀ (s : State) (p vc at0 : Nat) (m : Msg), p < 16 → rxHead s p vc = some (m, at0) → m.dst = 0x3FFF → ctlOpen s = true → completes (.linkLocalMessage p vc) s (fun t =>
    (m.opc < 0x70 → (t.sp p).rxq = (s.sp p).rxq.erase (m, at0)) ∧ (∀ q, q ≠ p → t.sp q = s.sp q) ∧ t = { s with seam := t.seam, out := t.out } ∧
    (m.opc = 0x30 → m.la = GLB_ID → t.out = s.out ∧ ∃ r, ctlRead (.node 0x3FFF) GLB_ID 8 s = (r, 0) ∧ (t.sp p).txq = (s.sp p).txq ++
      [{ opc := 0x52, dst := 0x3FFF, src := 0x3FFF, tid := m.tid, ocls := m.ocls, reissue := false, ttl := 31, status := 0, dl := 0, grant := 0, addr := 0, data := r }]) ∧
    (m.opc = 0x52 → t.out = .fwDone m.tid (m.data % 2 ^ 64) m.status :: s.out ∧ (t.sp p).txq = (s.sp p).txq) ∧
    (m.opc ≠ 0x30 → m.opc ≠ 0x52 → t.out = s.out ∧ (t.sp p).txq = (s.sp p).txq)))

/-- Transactions are issued, completed, sent again and ended at their source, and ordered, filtered, refused or answered at their destination (R226, R227, R358, R361, R362, R363, R365, R366, R368, R374, spec/10_seam_fabric.md). -/
def Obligations.SeamTransactions : Prop :=
  (∀ (s : State) (o dst off : Nat) (v : Word), o = 0x30 ∨ o = 0x20 ∨ o = 0x31 → dst < 0x3FFF → s.seam.outq = [] → s.seam.txs.length < 4096 →
    let a := TxnAsk.fw o dst off v
    let m : Msg := { opc := o, dst := dst, src := ownNode s, tid := 0, ocls := 2, reissue := false, ttl := 31, status := 0, dl := 0, grant := 0, addr := mkAddr off 0 0, data := if o = 0x30 then 0 else v.toNat }
    let noOrig := s.fget FAB_CFG F.FAB_CFG_ORIG_EN = 0
    let noRoute := ownNode s = 0x3FFF ∨ dst ≠ ownNode s ∧ routePort s m 16 = none
    (noOrig → completes (.transactionIssue a) s (fun t => t = { s with out := .fwDone 0 0 C.FAB_E_ORIG_DISABLED :: s.out })) ∧
    (¬ noOrig → noRoute → completes (.transactionIssue a) s (fun t => t = { s with out := .fwDone 0 0 C.FAB_E_NO_ROUTE :: s.out })) ∧
    (∀ q, ¬ noOrig → ownNode s ≠ 0x3FFF → dst ≠ ownNode s → routePort s m 16 = some q → maxNode s < dst → s.seam.skips = [] → (∀ x ∈ s.seam.txs, x.msg.tid % 4096 ≠ s.seam.tid % 4096) →
      completes (.transactionIssue a) s (fun t => ∃ m1, m1.tid = s.seam.tid ∧ m1.fseq = tabGet (fun _ => 0) s.seam.fseq (dst * 4 + 2) % 65536 ∧ m1.la = off % 2 ^ 47 ∧
        m1 = { m with tid := m1.tid, dl := (s.time / 1000 + 750 * s.fget FAB_CFG F.FAB_CFG_GRACE_MS) % 2 ^ 24, addr := m1.addr } ∧
        (t.sp q).txq = (s.sp q).txq ++ [m1] ∧ t.seam.txs = s.seam.txs ++ [⟨m1, s.time, a, 0⟩] ∧ t.seam.tid = (s.seam.tid + 1) % 2 ^ 32 ∧ t.out = s.out ∧
        t = { s with regs := t.regs, levelNs := t.levelNs, seam := t.seam } ∧ regsKept (fun r => counterReg r = true) s t))) ∧
  (∀ (s : State) (p off : Nat) (v : Word), p < 16 → seamLive s p = true → linkLocalReg off = true → completes (.transactionIssue (.fw 0x30 (p * 2 ^ 14 + 0x3FFF) off v)) s (fun t =>
    (∃ m, (t.sp p).txq = (s.sp p).txq ++ [m] ∧ m.opc = 0x30 ∧ m.dst = 0x3FFF ∧ m.la = off % 2 ^ 47 ∧ m.tid = v.toNat % 2 ^ 32) ∧ (∀ q, q ≠ p → t.sp q = s.sp q) ∧ t = { s with seam := t.seam })) ∧
  (∀ (s : State) (p vc at0 : Nat) (m : Msg), rxHead s p vc = some (m, at0) → isCpl m.opc = true → m.dst = ownNode s → m.dst ≠ 0x3FFF →
    ((∀ x ∈ s.seam.txs, x.msg.tid = m.tid → x.msg.dst ≠ m.src) → completes (.completionReceive p vc) s (fun t => (t.sp p).rxq = (s.sp p).rxq.erase (m, at0) ∧ t.seam.txs = s.seam.txs ∧ t.out = s.out ∧
      t.reports = s.reports ++ [{ src := srcId 9 0, elem := 0, code := C.FAB_W_LATE_COMPLETION, addr := 0, detail := 0, level := some 0 }] ∧ t.dram = s.dram ∧ regsKept (fun r => counterReg r = true) s t)) ∧
    (∀ x o d off v, s.seam.txs = [x] → x.msg.tid = m.tid → x.msg.dst = m.src → x.ask = .fw o d off v → completes (.completionReceive p vc) s (fun t =>
      (t.sp p).rxq = (s.sp p).rxq.erase (m, at0) ∧ t.seam.txs = [] ∧ t.out = .fwDone m.tid (m.data % 2 ^ 64) m.status :: s.out ∧ t = { s with seam := t.seam, out := t.out }))) ∧
  (∀ (s : State) (x : Txn) (q : Nat), s.seam.txs = [x] → s.seam.outq = [] → x.msg.dst ≠ ownNode s → routePort s { x.msg with reissue := true } 16 = some q →
    let again := fun (t : State) => (t.sp q).txq = (s.sp q).txq ++ [{ x.msg with reissue := true }] ∧ t.seam.txs = [{ x with again := x.again + 1 }] ∧ t.out = s.out ∧
      t.reports = s.reports ++ [{ src := srcId 9 0, elem := 0, code := C.FAB_W_REISSUED, addr := 0, detail := 0, level := some 0 }] ∧
      t = { s with regs := t.regs, levelNs := t.levelNs, reports := t.reports, seam := t.seam } ∧ regsKept (fun r => counterReg r = true) s t
    completes (.transactionRetry x.msg.tid) s again ∧
    (∀ p at0 m, rxHead s p 5 = some (m, at0) → m.opc = 0x32 → m.dst = ownNode s → m.tid = x.msg.tid → completes (.lostnoteReceive p) s (fun t => again t ∧ (t.sp p).rxq = (s.sp p).rxq.erase (m, at0)))) ∧
  (∀ (s : State) (x : Txn) (o d off : Nat) (v : Word), s.seam.txs = [x] → x.ask = .fw o d off v → completes (.graceExpiry x.msg.tid) s (fun t => t.seam.txs = [] ∧
    t.fget FAB_STAT F.FAB_STAT_UNREACH = 1 ∧ t.out.head? = some (.fwDone x.msg.tid 0 C.FAB_E_UNREACHABLE) ∧
    (∃ k, t.seam.skips = s.seam.skips ++ [k] ∧ k.opc = 0x33 ∧ k.dst = x.msg.dst ∧ k.tid = x.msg.tid ∧ k.ocls = x.msg.ocls ∧ k.fseq = x.msg.fseq) ∧ t.dram = s.dram)) ∧
  (∀ (s : State) (p vc at0 : Nat) (m : Msg), rxHead s p vc = some (m, at0) → m.isT = true → m.dst = ownNode s → m.dst ≠ 0x3FFF → ctlOpen s = true → s.seam.outq = [] →
    let answered := fun (st q : Nat) (t : State) => (t.sp q).txq = (s.sp q).txq ++ [reqAnswer s m (plainCpl m.opc) st 0 0] ∧ (t.sp p).rxq = (s.sp p).rxq.erase (m, at0) ∧ t.dram = s.dram
    let routed := fun (st q : Nat) => m.src ≠ ownNode s ∧ routePort s (reqAnswer s m (plainCpl m.opc) st 0 0) 16 = some q
    let turns := s.devLevel ≠ 4 ∧ (vc ≠ 0 ∨ portHeld s p = false) ∧ s.seam.reseq = [] ∧ s.seam.dups = [] ∧ s.fget PWR_CTL F.PWR_CTL_BUSY = 0 ∧ timeKnown s = true
    (∀ q, s.devLevel = 4 → routed C.FAB_E_HALTED q → completes (.transactionArrival p vc) s (fun t => answered C.FAB_E_HALTED q t ∧ t = { s with seam := t.seam })) ∧
    (turns → maxNode s < m.src → expired s m = true → completes (.transactionArrival p vc) s (fun t => t.fget FAB_STAT F.FAB_STAT_EXPIRED = 1 ∧ (t.sp p).rxq = (s.sp p).rxq.erase (m, at0) ∧
      (∀ q, (t.sp q).txq = (s.sp q).txq) ∧ t.seam.acc = s.seam.acc ∧ t.dram = s.dram ∧ t.home = s.home)) ∧
    (∀ q, turns → maxNode s < m.src → expired s m = false → routed C.FAB_E_ACCESS q → completes (.transactionArrival p vc) s (fun t => answered C.FAB_E_ACCESS q t ∧ t.fget FAB_STAT F.FAB_STAT_ACCESS = 1)) ∧
    (∀ s1 s2 s2' s3 s3' d e, turns → m.src ≤ maxNode s → dfReady s m = (true, s1) → s1.seam.ports = s.seam.ports →
      let u := rxPop s1 p vc
      let fl := dfFlowLa u m.src
      timeKnown u = true → expired u m = false → m.src ≤ maxNode u → lineBad u m.src fl = false → dfRead u fl = (some (some d), s2) → flowNext d fl m.ocls m.fseq = m.fseq →
      flowAdvance s2 d fl m.ocls m.fseq = some s2' →
      let en := dfEntryLa s2' m.src m.tid
      lineBad s2' m.src en = false → dfRead s2' en = (some (some e), s3) → tidStands e en m.tid = 0 → dfRecord s3 m.src m.tid 1 0 0 0 0 = some s3' →
      s3'.seam.reseq = [] → s3'.seam.dups = [] → s3'.seam.ports = u.seam.ports →
      let s4 := evFAB 1 s3'
      (isSnoop m.opc = true → completes (.transactionArrival p vc) s (fun t => t = { s4 with seam := { s4.seam with snoops := s4.seam.snoops ++ [⟨m, none⟩] } } ∧ (t.sp p).rxq = (s.sp p).rxq.erase (m, at0))) ∧
      (isSnoop m.opc = false → m.opc ≠ 0x30 → m.opc ≠ 0x31 → m.opc ≠ 0x20 → winAdmits s4 m = true → completes (.transactionArrival p vc) s (fun t =>
        t.seam.acc = s4.seam.acc ++ [⟨m, none⟩] ∧ t.home.toHome = s4.home.toHome ++ [remoteReq m (if p < 16 then p else 28)] ∧ t.dram = s4.dram ∧ t.regs = s4.regs ∧ (t.sp p).rxq = (s.sp p).rxq.erase (m, at0))))) ∧
  (∀ (s : State) (p at0 : Nat) (m : Msg), rxHead s p 5 = some (m, at0) → m.opc = 0x33 → m.dst = ownNode s → m.dst ≠ 0x3FFF → ctlOpen s = true → s.devLevel ≠ 4 →
    (maxNode s < m.src → completes (.skipReceive p) s (fun t => t = { s with seam := t.seam } ∧ (t.sp p).rxq = (s.sp p).rxq.erase (m, at0) ∧ (∀ q, (t.sp q).txq = (s.sp q).txq))) ∧
    (∀ s1 s2 s2' s3 t0 d e, m.src ≤ maxNode s → dfReady s m = (true, s1) → s1.seam.ports = s.seam.ports →
      let u := rxPop s1 p 5
      let fl := dfFlowLa u m.src
      lineBad u m.src fl = false → dfRead u fl = (some (some d), s2) → flowNext d fl m.ocls m.fseq = m.fseq → flowAdvance s2 d fl m.ocls m.fseq = some s2' →
      let en := dfEntryLa s2' m.src m.tid
      dfRead s2' en = (some (some e), s3) → tidStands e en m.tid = 0 → dfRecord s3 m.src m.tid 2 0 0 0 C.FAB_E_UNREACHABLE = some t0 →
      t0.seam.reseq = [] → t0.seam.dups = [] → t0.seam.ports = u.seam.ports →
      completes (.skipReceive p) s (fun t => t = t0 ∧ (t.sp p).rxq = (s.sp p).rxq.erase (m, at0) ∧ (∀ q, (t.sp q).txq = (s.sp q).txq)))) ∧
  (∀ (s : State) (p at0 : Nat) (m : Msg), s.home.nodeReplies = [] → s.notices = [] → s.seam.outq = [] → s.seam.dups = [] → rxHead s p 4 = some (m, at0) → m.opc = 0x21 → m.dst = ownNode s →
    completes (.svcNotice p) s (fun t => t.out = .notice m.src (m.la % 1024) :: s.out ∧ (t.sp p).rxq = (s.sp p).rxq.erase (m, at0) ∧ t = { s with seam := t.seam, out := t.out })) ∧
  (∀ (s : State) (who : Who) (val : Word) (w : CtlWrite), admitted who FAB_DFCLEAR val s w → fld w.act F.FAB_DFCLEAR_GO = 1 →
    let n := fld w.act F.FAB_DFCLEAR_NODE
    let busy := s.fget FAB_DFCLEAR F.FAB_DFCLEAR_BUSY
    (busy = 1 → completes (.fabDfclear who val) s (fun t => endedWith who FAB_DFCLEAR C.FAB_E_CONFIG t ∧ t = { s with regs := t.regs, out := t.out } ∧ regsKept errorReg s t)) ∧
    (busy = 0 → maxNode s < n → completes (.fabDfclear who val) s (fun t => t = { s with out := .ctlDone who FAB_DFCLEAR 0 :: s.out })) ∧
    (busy = 0 → n ≤ maxNode s → completes (.fabDfclear who val) s (fun t => endedWith who FAB_DFCLEAR 0 t ∧
      let u := dfClearGo 5121 (({ s with seam := { s.seam with clear := some (n, 0) } } : State).fset FAB_DFCLEAR F.FAB_DFCLEAR_BUSY 1)
      t.seam = u.seam ∧ t.dram = u.dram ∧ t.tier = u.tier))) ∧
  (∀ (s u : State) (p n : Nat), s.home.nodeReplies = [] → s.notices = [] → s.seam.outq = [] → s.seam.dups = [] → s.seam.clear = some (n, 5120) → dfFlowClear s n = some u → seamLive (dfClearEnd u n) p = false →
    completes (.flitTransmit p) s (fun t => t = dfClearEnd u n ∧ t.seam.clear = none ∧ (∀ b ∈ t.seam.bad, b.1 ≠ n) ∧ t.fget FAB_DFCLEAR F.FAB_DFCLEAR_BUSY = 0 ∧ t.dram = u.dram)) ∧
  (∀ (s : State) (a : InTxn) (g q : Nat), s.seam.snoops = [a] → a.dup = some g →
    let m := a.msg
    let la := snoopLa m
    let u := (dfHold s (dfEntryLa s m.src m.tid)).2
    let answers := fun (opc status data : Nat) (t : State) => (t.sp q).txq = (u.sp q).txq ++ [reqAnswer u m opc status 0 data] ∧ t.seam.snoops = [] ∧ t.dram = u.dram ∧ t.tier = u.tier ∧ t.out = u.out
    u.seam.snoops = [a] → u.seam.outq = [] → m.src ≠ ownNode u → (∀ opc status data, routePort u (reqAnswer u m opc status 0 data) 16 = some q) →
    (dcFind u (la / 4096) = none → completes (.proxySnoop m.src m.tid) s (fun t => answers 0x60 0 0 t ∧
      t.reports = u.reports ++ [{ src := srcId 9 0, elem := 0, code := C.FAB_F_PROTOCOL, addr := la, detail := m.src, level := none }])) ∧
    ((dcFind u (la / 4096)).isSome = true → u.seam.txs = [] → recallsOut u la = false → u.home.evicting = [] → (dirOf u la).state = 0 →
      (lcFind u la = none → copyFind u la = none → m.opc = 0x40 ∨ rightsOf u la = 0 → completes (.proxySnoop m.src m.tid) s (fun t => answers 0x60 0 0 t ∧ (m.opc = 0x40 → rightsOf t la = 0))) ∧
      (∀ k e, lcFind u la = some (k, e) → e.st = .dirty → m.opc = 0x43 → completes (.proxySnoop m.src m.tid) s (answers 0x66 0 e.data.toNat))))

/-- A channel admits, issues and completes requests, refreshes, corrects, scrubs, tests rows and tracks as its rules say (R392, R393, R395, R396, R397, R400, R401, R403, R405, R407, R411, spec/11_dram_subsystem.md). -/
def Obligations.DramRequestsRefreshScrubAndRowTests : Prop :=
  ∀ (s : State) (c : Nat), c < 24 →
    let x := s.chan c
    let others := fun (t : State) => ∀ k, k ≠ c → t.chan k = s.chan k
    let chanOnly := fun (t : State) => others t ∧ t = { s with chans := t.chans }
    let line := fun (t : State) (k : Nat) => tabGet (fun _ => (0 : Line)) t.dram.lines k
    let pois := fun (t : State) (k : Nat) => tabGet (fun _ => false) t.dram.poison k
    (∀ req : DramOp, coreOpen s = true → (if req.wr then canWrite s c else canRead s c req.frame) = true → req.frame < chanFrames s c → req.line < 64 → (∀ r ∈ x.slots, r.op.id ≠ req.id) → (∀ r ∈ x.regul.held, r.op.id ≠ req.id) →
      let q := charged s c req
      let m := q.master
      let room := slotsUsed x req.wr < (if req.wr then 64 else 128)
      let pass := if 28 ≤ m then mgmtUsed x < max 1 (s.fget QOS_CFG F.QOS_CFG_MGMT_SLOTS) else 0 < passes s c m
      completes (.dramRequestAdmit c req) s (fun t => others t ∧ t = { s with chans := t.chans, regs := t.regs, levelNs := t.levelNs, ports := t.ports } ∧
        (∀ p, p ≠ m → t.port p = s.port p) ∧ t.port m = { s.port m with heldLog := (t.port m).heldLog } ∧
        (room → pass → (t.chan c).slots = x.slots ++ [⟨q, s.time, false⟩] ∧ (∀ k, passes t c k = passes s c k - (if k = m ∧ m < 28 then 1 else 0)) ∧
          (∀ e, mergeFind s c req.frame req.line = some e → req.wr = true → e.issued = false → (t.chan c).merge = x.merge.erase e) ∧
          ((∀ e, mergeFind s c req.frame req.line = some e → req.wr = false ∨ e.issued = true) → (t.chan c).merge = x.merge ∧ (t.chan c).regul.held = x.regul.held)) ∧
        (¬ room ∨ ¬ pass → (t.chan c).slots = x.slots ∧ (t.chan c).regul.held = x.regul.held ++ [⟨q, s.time, false⟩] ∧ ∀ k, passes t c k = passes s c k))) ∧
    (∀ ready tight : List Nat, refreshes s c = true →
      let issues := fun (P : State → Prop) => completes (.dramCommandIssue c ready tight) s (fun t => others t ∧ t = { s with chans := t.chans, regs := t.regs, levelNs := t.levelNs, reports := t.reports } ∧ P t)
      (refreshDueNow x = true → tight.any (refCovers s c) = false → issues (fun t => (t.chan c).slots = x.slots ∧ (s.fget (DCH_CFG c) F.DCH_CFG_REFSB = 0 → (t.chan c).refDebt = x.refDebt - 1 ∧ ∀ b, openRow t c b = none) ∧
        (s.fget (DCH_CFG c) F.DCH_CFG_REFSB = 1 → x.refBank < 4 → (t.chan c).refBank = (x.refBank + 1) % 4 ∧ (t.chan c).refDebt = (if x.refBank = 3 then x.refDebt - 1 else x.refDebt) ∧
          ∀ b, openRow t c b = if b % 4 = x.refBank then none else openRow s c b))) ∧
      (∀ b rest, refreshDueNow x = false → x.rfmDue = b :: rest → b ∉ tight → issues (fun t => openRow t c b = none ∧ b ∉ (t.chan c).rfmDue ∧ (t.chan c).slots = x.slots ∧
        tabGet (fun _ => 0) (t.chan c).raa b = tabGet (fun _ => 0) x.raa b - raaimtOf x b)) ∧
      (∀ r, refreshDueNow x = false → x.rfmDue = [] → x.merge = [] → x.slots = [r] → r.issued = false → r.op.id ∈ ready → mayServe s c r = true → inTest s c r = false → actHeld s c r = false →
        let b := reqBank s c r
        issues (fun t => (∀ k, k ≠ b → openRow t c k = openRow s c k) ∧
          (openRow s c b = some (reqRow s c r) → (t.chan c).slots = [{ r with issued := true }] ∧ openRow t c b = openRow s c b) ∧
          (openRow s c b ≠ some (reqRow s c r) → (t.chan c).slots = [r] ∧ openRow t c b = (if openRow s c b = none then some (reqRow s c r) else none))))) ∧
    (∀ (id : Nat) (err : BitVec 640) (q : DramReq), x.slots.find? (fun r => r.op.id == id && r.issued && !r.op.wr) = some q → q.op.master ≠ 24 → mergeFind s c q.op.frame q.op.line = none → x.merge.length < 32 → x.rowTest = none →
      let k := dramKey c q.op.frame q.op.line
      let e := tabGet (fun _ => (0 : BitVec 640)) s.dram.err k ^^^ err
      let got := rsDecode (xorBytes (rsEncode (lineBytes (line s k)) (pois s k)) (leBytes 80 e.toNat)) (chanX8 s c) (markOf s c (q.op.line % 2))
      let ends := fun (o : Out) (P : State → Prop) => completes (.dramReadComplete c id err) s (fun t => others t ∧ t.out = o :: s.out ∧ (t.chan c).slots = x.slots.filter (fun r => r.op.id != id) ∧
        (∀ j, j ≠ k → line t j = line s j) ∧ (∀ j, pois t j = pois s j) ∧ P t)
      (e = 0 → pois s k = false → ends (.dramData c id (some (line s k)) false) (fun t => line t k = line s k ∧ t.reports = s.reports)) ∧
      (e = 0 → pois s k = true → ends (.dramData c id (some 0) true) (fun t => line t k = line s k ∧ t.reports = s.reports)) ∧
      (∀ d ns, e ≠ 0 → got = .data d ns → ns ≠ [] → ends (.dramData c id (some d) false) (fun t => line t k = line s k ∧ (t.chan c).merge = x.merge ++ [⟨q.op.frame, q.op.line, d, false, s.time, 31⟩])) ∧
      (e ≠ 0 → got = .ue → ends (.dramData c id none false) (fun t => line t k = line s k ∧ t.reports = s.reports ++
        [{ src := srcId 2 c, elem := 0, code := C.DCH_F_UE, addr := framePa s c q.op.frame q.op.line, detail := 0, level := none }]))) ∧
    (∀ (e : MergeEnt) (id : Nat), x.merge = [e] → e.issued = true → id = mergeId e.frame e.line → x.rowTest = none → x.rowQueue = [] → completes (.dramWriteComplete c id) s (fun t => others t ∧
      line t (dramKey c e.frame e.line) = e.data ∧ pois t (dramKey c e.frame e.line) = false ∧ (t.chan c).merge = [] ∧ (t.chan c).slots = x.slots ∧
      (∀ j, j ≠ dramKey c e.frame e.line → line t j = line s j ∧ pois t j = pois s j))) ∧
    (∀ (id : Nat) (q : DramReq), x.slots.find? (fun r => r.op.id == id && r.issued && r.op.wr) = some q → (∀ e ∈ x.merge, mergeId e.frame e.line ≠ id) → x.rowTest = none →
      let k := dramKey c q.op.frame q.op.line
      completes (.dramWriteComplete c id) s (fun t => others t ∧ line t k = q.op.data ∧ pois t k = q.op.poison ∧ tabGet (fun _ => (0 : BitVec 640)) t.dram.err k = 0 ∧
        (∀ j, j ≠ k → line t j = line s j ∧ pois t j = pois s j) ∧ (t.chan c).slots = x.slots.filter (fun r => r.op.id != id) ∧
        t = { s with dram := t.dram, chans := t.chans, regs := t.regs, levelNs := t.levelNs } ∧ regsKept (fun off => counterReg off = true) s t)) ∧
    (coreOpen s = true → canWrite s c = true → (x.refAt + refInterval s c ≤ s.time → completes (.refreshDue c) s (fun t => chanOnly t ∧
        t.chan c = { x with refDebt := x.refDebt + 1, refMust := x.refMust || decide (4 < x.refDebt + 1), refAt := s.time })) ∧
      completes (.zqCalibration c) s (fun t => chanOnly t ∧ t.chan c = { x with zqRuns := x.zqRuns + 1 })) ∧
    (∀ hot : Bool, coreOpen s = true → completes (.mr4Read c hot) s (fun t => chanOnly t ∧ t.chan c = { x with hot := hot })) ∧
    (∀ id : Nat, s.cstate c ≠ csABSENT → coreOpen s = true →
      let ks := x.cmds.dropWhile (fun k => k.id != id)
      completes (.caParityAlert c id) s (fun t => others t ∧ (t.chan c).cmds = ks ∧ (t.chan c).slots = x.slots ∧ (t.chan c).merge = x.merge ∧
        (∀ b, (∀ k ∈ ks, k.bank ≠ b) → openRow t c b = openRow s c b) ∧
        (∀ k, ks.getLast? = some k → (k.kind = 0 → openRow t c k.bank = some k.row) ∧ (k.kind = 1 → openRow t c k.bank = none)) ∧
        t = { s with chans := t.chans, reports := t.reports, regs := t.regs, levelNs := t.levelNs } ∧ regsKept (fun off => counterReg off = true) s t ∧
        t.reports = s.reports ++ [{ src := srcId 2 c, elem := 0, code := C.DCH_F_CA_PARITY, addr := 0, detail := 0, level := some 1 }])) ∧
    (∀ (test : RowTest) (spare : Bool), x.rowTest = some test → x.rowQueue = [] → test.pa < 2 ^ 45 → s.fltTests = [] → (test.buf.map (·.key)).Nodup →
      let pa := test.pa
      let next := { x with rowTest := none }
      let restored := fun (t : State) => (∀ r ∈ test.buf, line t r.key = r.data ∧ pois t r.key = r.poison ∧ tabGet (fun _ => (0 : BitVec 640)) t.dram.err r.key = r.err) ∧
        ∀ k, (∀ r ∈ test.buf, r.key ≠ k) → line t k = line s k ∧ pois t k = pois s k
      let spared := s.fget (DCH_MODULE c (pa / 2 ^ 38 % 2)) F.DCH_MODULE_SPPR = 1 ∧ spare = true
      completes (.rowTestComplete c true spare) s (fun t => others t ∧ t.chan c = next ∧ restored t ∧ t = { s with chans := t.chans, dram := t.dram }) ∧
      completes (.rowTestComplete c false spare) s (fun t => others t ∧ t.chan c = next ∧ restored t ∧ t.fget (DCH_ROWFLT c) F.DCH_ROWFLT_PA = pa ∧ t.fget (DCH_ROWFLT c) F.DCH_ROWFLT_VALID = 1 ∧
        t.fget (DCH_ROWFLT c) F.DCH_ROWFLT_SPARED = (if spared then 1 else 0) ∧ t = { s with chans := t.chans, dram := t.dram, regs := t.regs, reports := t.reports } ∧ regsKept (fun off => off = DCH_ROWFLT c) s t ∧
        t.reports = s.reports ++ [{ src := srcId 2 c, elem := 0, code := (if spared then C.DCH_W_SPARED else C.DCH_F_ROW), addr := pa, detail := 0, level := (if spared then none else some 2) }])) ∧
    (∀ (who : Who) (val : Word) (w : CtlWrite), admitted who (DCH_SCRUBCTL c) val s w → fld w.act F.DCH_SCRUBCTL_START = 1 →
      let st := s.cstate c
      let busy := s.fget (DCH_SCRUBCTL c) F.DCH_SCRUBCTL_BUSY = 1
      let dark := st = csABSENT ∨ st = csTRAINING ∨ st = csFENCED ∨ st = csTESTING
      let far := chanFrames s c ≤ s.fget (DCH_SCRUBLIM c) F.DCH_SCRUBLIM_FRAME ∨ chanFrames s c ≤ s.fget (DCH_SCRUBBASE c) F.DCH_SCRUBBASE_FRAME
      completes (.scrubStart who c val) s (fun t => others t ∧
        (busy ∨ dark ∨ far → endedWith who (DCH_SCRUBCTL c) (if busy then C.DCH_E_SCRUB_BUSY else if dark then C.DCH_E_STATE else C.DCH_E_RANGE) t ∧ t = { s with regs := t.regs, out := t.out } ∧ regsKept errorReg s t) ∧
        (¬ (busy ∨ dark ∨ far) → endedWith who (DCH_SCRUBCTL c) 0 t ∧ t.fget (DCH_SCRUBCTL c) F.DCH_SCRUBCTL_BUSY = 1 ∧ t.rg (DCH_SCRUBSUM c) = 0 ∧ (∀ n < 16, t.rg (DCH_SCRUBUE c n) = 0) ∧
          t.chan c = { x with scrubLine := 0 } ∧ t = { s with regs := t.regs, out := t.out, chans := t.chans } ∧
          regsKept (fun off => off = DCH_SCRUBCTL c ∨ off = DCH_SCRUBSUM c ∨ ∃ n < 16, off = DCH_SCRUBUE c n) s t))) ∧
    (s.fget (DCH_SCRUBCTL c) F.DCH_SCRUBCTL_BUSY = 1 → s.fget (DCH_SCRUBLIM c) F.DCH_SCRUBLIM_FRAME < s.fget (DCH_SCRUBBASE c) F.DCH_SCRUBBASE_FRAME →
      completes (.scrubComplete c) s (fun t => t.fget (DCH_SCRUBCTL c) F.DCH_SCRUBCTL_BUSY = 0 ∧ t.fget (DCH_SCRUBCTL c) F.DCH_SCRUBCTL_STATUS = 0 ∧
        t = { s with regs := t.regs } ∧ regsKept (fun off => off = DCH_SCRUBCTL c) s t)) ∧
    (∀ (rank : Nat) (delta : Int), canWrite s c = true → coreOpen s = true →
      let v := tabGet (fun _ => (0 : Int)) x.track rank + delta.sign
      let moved := { x with track := tabSet (fun _ => (0 : Int)) x.track rank v }
      (v.natAbs ≤ 16 → completes (.dqsTracking c rank delta) s (fun t => chanOnly t ∧ t.chan c = moved)) ∧
      (16 < v.natAbs → x.reqWait = 0 → s.cstate c = csIN_SERVICE ∨ s.cstate c = csDRAINING → completes (.dqsTracking c rank delta) s (fun t => others t ∧ t.chan c = { moved with reqWait := 2 } ∧
        t.fget (DCH_STAT c) F.DCH_STAT_TRACK = 1 ∧ t.fget (DCH_CTL c) F.DCH_CTL_BUSY = 1 ∧ t.cstate c = s.cstate c ∧
        t.reports = s.reports ++ [{ src := srcId 2 c, elem := rank, code := C.DCH_F_TRACK, addr := 0, detail := 0, level := none }] ∧
        t = { s with regs := t.regs, chans := t.chans, reports := t.reports } ∧ regsKept (fun off => off = DCH_STAT c ∨ off = DCH_CTL c) s t)) ∧
      (16 < v.natAbs → ¬ (x.reqWait = 0 ∧ (s.cstate c = csIN_SERVICE ∨ s.cstate c = csDRAINING)) → completes (.dqsTracking c rank delta) s (fun t => others t ∧ t.chan c = moved ∧
        t.fget (DCH_STAT c) F.DCH_STAT_TRACK = 1 ∧ t.fget (DCH_CTL c) F.DCH_CTL_STATUS = C.DCH_E_STATE ∧ t.cstate c = s.cstate c)))

/-- A channel drains, fences, retrains, tests, trains and rejoins through the states of its table, and the rebuild engine advances frame by frame (R386, R387, R391, R409, R410, R412, R413, R414, R415, R416, R417, spec/11_dram_subsystem.md). -/
def Obligations.ChannelStatesTrainingAndRebuild : Prop :=
  ∀ (s : State) (c : Nat), c < 24 → nothingWaits s →
    let x := s.chan c
    let st := s.cstate c
    let others := fun (t : State) => ∀ k, k ≠ c → t.chan k = s.chan k
    let line := fun (t : State) (k : Nat) => tabGet (fun _ => (0 : Line)) t.dram.lines k
    let pois := fun (t : State) (k : Nat) => tabGet (fun _ => false) t.dram.poison k
    let reports := fun (code : Nat) (t : State) => t.reports = s.reports ++ [{ src := srcId 2 c, elem := 0, code := code, addr := 0, detail := 0, level := none }]
    let quiet := x.slots = [] ∧ x.regul.held = [] ∧ x.rowTest = none ∧ s.fltTests = []
    let dctl := fun (t : State) => (t.fget (DCH_CTL c) F.DCH_CTL_BUSY, t.fget (DCH_CTL c) F.DCH_CTL_STATUS, (t.chan c).reqWait)
    (∀ (who : Who) (val : Word) (w : CtlWrite), admitted who (DCH_CTL c) val s w →
      let d := fld w.new F.DCH_CTL_DRAIN
      let d0 := s.fget (DCH_CTL c) F.DCH_CTL_DRAIN
      let f := fld w.act F.DCH_CTL_FENCE
      let r := fld w.act F.DCH_CTL_RETRAIN
      let idle := s.fget (DCH_CTL c) F.DCH_CTL_BUSY = 0
      (f = 0 → r = 0 → d ≠ d0 → x.reqWait = 0 → completes (.channelDrain who c val) s (fun t => t.chans = s.chans ∧ t.dram = s.dram ∧
        (d = 1 → st = csIN_SERVICE → endedWith who (DCH_CTL c) 0 t ∧ t.cstate c = csDRAINING ∧ t.fget (DCH_CTL c) F.DCH_CTL_DRAIN = 1) ∧
        (d = 0 → endedWith who (DCH_CTL c) (if st = csDRAINING then 0 else C.DCH_E_STATE) t ∧ t.cstate c = (if st = csDRAINING then csIN_SERVICE else st) ∧ t.fget (DCH_CTL c) F.DCH_CTL_DRAIN = 0) ∧
        (d = 1 → st ≠ csIN_SERVICE → st ≠ csDRAINING → endedWith who (DCH_CTL c) C.DCH_E_STATE t ∧ t.cstate c = st ∧ t.fget (DCH_CTL c) F.DCH_CTL_DRAIN = d0))) ∧
      ((st = csDRAINING → d0 = 1) → (st = csIN_SERVICE → d0 = 0) → f = 1 → r = 0 → d = d0 → completes (.fence who c val) s (fun t => t.cstate c = st ∧ others t ∧ t.dram = s.dram ∧
        (st = csDRAINING → idle → endedWith who (DCH_CTL c) 0 t ∧ (t.chan c).reqWait = 1 ∧ t.fget (DCH_CTL c) F.DCH_CTL_BUSY = 1) ∧
        (st ≠ csDRAINING ∨ ¬ idle → endedWith who (DCH_CTL c) C.DCH_E_STATE t ∧ t.chans = s.chans))) ∧
      ((st = csDRAINING → d0 = 1) → (st = csIN_SERVICE → d0 = 0) → f = 0 → r = 1 → d = d0 → completes (.retrain who c val) s (fun t => t.cstate c = st ∧ others t ∧ t.dram = s.dram ∧
        (st = csDRAINING ∨ st = csIN_SERVICE → idle → endedWith who (DCH_CTL c) 0 t ∧ (t.chan c).reqWait = 2 ∧ t.fget (DCH_CTL c) F.DCH_CTL_BUSY = 1) ∧
        (st ≠ csDRAINING ∧ st ≠ csIN_SERVICE ∨ ¬ idle → endedWith who (DCH_CTL c) C.DCH_E_STATE t ∧ t.chans = s.chans)))) ∧
    (groupServes s c = true → ctlOpen s = true →
      (x.reqWait = 1 → st ≠ csFENCED → quiet → completes (.channelRequestProceed c) s (fun t => others t ∧ t.dram = s.dram ∧ t.cstate c = csFENCED ∧ dctl t = (0, 0, 0) ∧ (t.chan c).slots = [])) ∧
      (x.reqWait = 2 → quiet → x.merge = [] → completes (.channelRequestProceed c) s (fun t => others t ∧ t.dram = s.dram ∧ t.cstate c = csRETRAINING ∧ dctl t = (0, 0, 0) ∧ (t.chan c).trainStep = 4)) ∧
      (∀ q : DramReq, x.slots = [q] → q.issued = false → x.regul.held = [] → x.rowTest = none → x.merge = [] → areaOf s c q.op.frame = 3 →
        (x.reqWait = 2 → q.op.wr = false → completes (.channelRequestProceed c) s (fun t => t.cstate c = csRETRAINING ∧ t.dram = s.dram ∧ t.out = s.out ∧ (t.chan c).slots = [] ∧ (t.chan c).regul.held = [q])) ∧
        (x.reqWait = 2 → q.op.wr = true → framePage s c q.op.frame = none → completes (.channelRequestProceed c) s (fun t => t.cstate c = csRETRAINING ∧ t.dram = s.dram ∧ t.out = .dramBack c q.op.id :: s.out ∧ (t.chan c).slots = [])))) ∧
    (groupServes s c = false → ctlOpen s = true → x.reqWait = 1 ∨ x.reqWait = 2 → completes (.channelRequestTimeout c) s (fun t => others t ∧ t.cstate c = st ∧
      dctl t = (0, (if x.reqWait = 1 then C.DCH_E_GROUP_OUT else C.CAL_E_NO_WINDOW), 0) ∧ t = { s with regs := t.regs, chans := t.chans, levelNs := t.levelNs } ∧ regsKept (fun off => off = DCH_CTL c ∨ counterReg off = true) s t)) ∧
    (let rejoins := fun (i : Instr) (fenced : Nat) => completes i s (fun t => others t ∧ t.cstate c = csREJOINING ∧ t.fget (DCH_WMARK c) F.DCH_WMARK_FRAME = 0 ∧ t.fget (DCH_STAT c) F.DCH_STAT_FROM_FENCE = fenced ∧
      (t.chan c).ring = none ∧ (t.chan c).rejoinHead = headStripe s (c / 12) ∧ (t.chan c).rejoinTail = tailStripe s (c / 12) ∧ t.dram = s.dram)
     let fences := fun (i : Instr) (P : State → Prop) => completes i s (fun t => others t ∧ t.cstate c = csFENCED ∧ t.dram = s.dram ∧ P t)
     (st = csRETRAINING → ctlOpen s = true → (10 ≤ x.trainStep → rejoins (.retrainComplete c true) 0) ∧ (x.trainRetried = true → quiet → fences (.retrainComplete c false) (reports C.DCH_E_TRAIN))) ∧
     (st = csTESTING → (s.fget (DCH_CFG c) F.DCH_CFG_TEST = 0 → ∀ pass, rejoins (.channelTestComplete c pass) 1) ∧
       (s.fget (DCH_CFG c) F.DCH_CFG_TEST ≠ 0 → ∀ pass, completes (.channelTestComplete c pass) s (fun t => others t ∧ t.cstate c = (if pass then csREJOINING else csFENCED) ∧
         ∀ k, (k / 2 ^ 34 = c → line t k = 0 ∧ pois t k = false) ∧ (k / 2 ^ 34 ≠ c → line t k = line s k ∧ pois t k = pois s k)))) ∧
     (st ≠ csABSENT → st ≠ csFENCED → quiet → fences (.pmicFault c) (fun t => reports C.DCH_F_MODULE_LOST t ∧ (t.chan c).slots = []))) ∧
    (∀ (m : ModuleInfo) (v : Nat), st = csABSENT → ctlOpen s = true → s.fget (HEM_STAT c) F.HEM_STAT_PG ≠ 0 → gated s (17 + c) = false →
      (moduleOk m = true → rateOf (min 2 (s.fget (DCH_CFG c) F.DCH_CFG_MAXSPD)) m none = some v → completes (.channelTrain c (some m) none) s (fun t => others t ∧ t.cstate c = csTRAINING ∧ (t.chan c).trainStep = 2 ∧
        t.rg (DCH_MODULE c 0) = BitVec.ofNat 64 (moduleReg m) ∧ t.fget (DCH_STAT c) F.DCH_STAT_SPEED = v ∧ chanFrames t c = min (framesOf m false) (2 ^ 28) ∧ t.reports = s.reports ∧ t.out = .dsb (c / 6) 0 (c % 6) :: s.out ∧
        ∀ k, (k / 2 ^ 34 = c → line t k = 0 ∧ pois t k = false) ∧ (k / 2 ^ 34 ≠ c → line t k = line s k ∧ pois t k = pois s k))) ∧
      (moduleOk m = false → completes (.channelTrain c (some m) none) s (fun t => others t ∧ t.chan c = { x with i3c := [0] } ∧ t.dram = { s.dram with dsbSel := t.dram.dsbSel } ∧ t.cstate c = csABSENT ∧ t.rg (DCH_MODULE c 0) = 0 ∧ reports C.DCH_E_MODULE t))) ∧
    (x.trainStep ≠ 0 → ctlOpen s = true →
      let only := fun (t : State) => others t ∧ t = { s with chans := t.chans, diag := t.diag, ctr := t.ctr }
      (x.trainStep < 10 → completes (.trainingStepComplete c true) s (fun t => only t ∧ t.chan c = { x with trainStep := x.trainStep + 1, trainRetried := false })) ∧
      (st ≠ csRETRAINING → 10 ≤ x.trainStep → completes (.trainingStepComplete c true) s (fun t => others t ∧ (t.chan c).trainStep = 0 ∧ (t.chan c).refAt = s.time ∧ t.dram = s.dram ∧ t.cstate c = (if x.atBoot then csIN_SERVICE else csTESTING) ∧
        (x.atBoot = true → chanFrames s c < 2 ^ 29 → t.fget (DCH_WMARK c) F.DCH_WMARK_FRAME = chanFrames s c))) ∧
      (x.trainRetried = false → x.trainStep < 10 ∨ st ≠ csRETRAINING → completes (.trainingStepComplete c false) s (fun t => only t ∧ t.chan c = { x with trainRetried := true })) ∧
      (st ≠ csRETRAINING → x.trainRetried = true → completes (.trainingStepComplete c false) s (fun t => others t ∧ (t.chan c).trainStep = 0 ∧ t.dram = s.dram ∧ t.cstate c = csFENCED ∧ reports C.DCH_E_TRAIN t))) ∧
    (∀ (who : Who) (val : Word) (w : CtlWrite), admitted who (DCH_RBRING c) val s w → completes (.rbringEn who c val) s (fun t => others t ∧ endedWith who (DCH_RBRING c) 0 t ∧
      t.rg (DCH_RBRING c) = BitVec.ofNat 64 w.new ∧ t.chan c = { x with ringStop := (if fld w.new F.DCH_RBRING_EN = 1 then false else x.ringStop) } ∧
      t = { s with regs := t.regs, chans := t.chans, out := t.out } ∧ regsKept (fun off => off = DCH_RBRING c) s t)) ∧
    (∀ (s1 s2 : State) (h d : BobReply), s.fget (DCH_RBRING c) F.DCH_RBRING_EN = 1 → coreOpen s = true → x.ringStop = false → x.ring = none → x.ringSeen = none → st = csREJOINING →
      let base := s.fget (DCH_RBRING c) F.DCH_RBRING_LPN * 4096
      let l := h.data
      let e := d.data
      let at16 := 16 * (lineNum l 8 4 % 252)
      let first := lineNum e (at16 % 64) 4
      let count := lineNum e (at16 % 64 + 4) 4
      let action := lineNum e (at16 % 64 + 8) 1
      ringRead s c base = (some h, s1) → h.poison = false → statusClass h.status < 2 → lineNum l 8 4 < lineNum l 0 8 →
      ringRead s1 c (base + (64 + at16) / 64 * 64) = (some d, s2) → d.poison = false → statusClass d.status < 2 →
      first = s2.fget (DCH_WMARK c) F.DCH_WMARK_FRAME → 0 < count → first + count ≤ chanFrames s2 c → lineNum e (at16 % 64 + 9) 7 = 0 → action ≤ 4 → actionAll s2 c action first (first + count - 1) = true →
      completes (.rebuildRingPoll c) s (fun t => t = s2.setChan c { s2.chan c with ring := some ⟨first, count, action, lineNum l 8 4⟩, ringSeen := none })) ∧
    (∀ (f left action consumed : Nat), x.ring = some ⟨f, left, action, consumed⟩ → st = csREJOINING → 2 ≤ left → f < 2 ^ 28 → f + 1 ≠ chanFrames s c → action ≠ 0 → coreOpen s = true → x.rowTest = none → (∀ k ∈ rebuildChans c action, 64 ≤ passes s k 26) →
      let key := fun (l : Nat) => dramKey c f l
      let twin := c / 12 * 12 + (c % 12 + 6) % 12
      (3 ≤ action → completes (.rebuildFrame c) s (fun t => others t ∧ t.cstate c = csREJOINING ∧ t.fget (DCH_WMARK c) F.DCH_WMARK_FRAME = f + 1 ∧ (t.chan c).ring = some ⟨f + 1, left - 1, action, consumed⟩ ∧
        (action = 4 → t.chan c = { x with ring := (t.chan c).ring }) ∧
        (4 ≤ action → t.dram = s.dram) ∧
        (action = 3 → (∀ l < 64, pois t (key l) = true) ∧ ∀ k, (∀ l < 64, k ≠ key l) → line t k = line s k ∧ pois t k = pois s k))) ∧
      (action = 1 → x.merge = [] → (s.chan twin).merge = [] → (s.chan twin).rowTest = none → canRead s twin f = true → (∀ l < 64, tabGet (fun _ => (0 : BitVec 640)) s.dram.err (dramKey twin f l) = 0 ∧ pois s (dramKey twin f l) = false) →
        completes (.rebuildFrame c) s (fun t => t.fget (DCH_WMARK c) F.DCH_WMARK_FRAME = f + 1 ∧ t.cstate c = csREJOINING ∧ (∀ l < 64, line t (key l) = line s (dramKey twin f l) ∧ pois t (key l) = false) ∧
          ∀ k, (∀ l < 64, k ≠ key l) → line t k = line s k ∧ pois t k = pois s k)))

/-- A report becomes a record; a lasting fault fences its unit; a global check failure halts; acknowledgement, level exits and re-admission follow (R458, R460, R462, R463, R467, R468, R469, R470, R471, R473, R475, spec/14_faults_degraded_operation.md). -/
def Obligations.FaultRecordsLevelsAndReadmission : Prop :=
  (∀ (s : State), s.fltAge.length < 1024 → s.fltAge.length ∉ s.fltAge → s.fltTests = [] → s.pst = 0 → s.fget PWR_CTL F.PWR_CTL_BUSY = 0 →
    let i := s.fltAge.length
    let word := fun (t : State) (j : Nat) => t.rg (FLT_REC i j)
    let stored := fun (t : State) (src elem code lvl act addr detail : Nat) (ack handling : Bool) => word t 0 = BitVec.ofNat 64 s.time ∧ word t 1 = BitVec.ofNat 64 (recWord1 src lvl code elem 0 act false ack handling) ∧
      word t 2 = BitVec.ofNat 64 addr ∧ word t 3 = BitVec.ofNat 64 detail ∧ t.fltAge = s.fltAge ++ [i] ∧ t.fget (FLT_SRCSTAT src) F.FLT_SRCSTAT_LASTREC = i ∧ t.dram = s.dram
    (∀ r : Report, r ∈ s.reports → srcDefined r.src = true → r.level = some 0 → r.code ∉ [C.DCH_F_ROW, C.DCH_W_SPARED, C.SRM_F_BANK, C.SRM_W_COLUMN_REPAIRED, C.CAL_F_LANE_LOST] → completes (.faultReport r) s (fun t =>
      t.reports = s.reports.erase r ∧ stored t r.src r.elem r.code 0 0 r.addr r.detail false false ∧ t.devLevel = s.devLevel ∧ t.chans = s.chans ∧ t.home = s.home)) ∧
    (∀ (r : Report) (n : Nat), r ∈ s.reports → n < 24 → r.src = srcId 3 n → r.code = C.PLT_F_UNIT → r.level = some 2 → (∃ u, u ≠ n ∧ u < 24 ∧ u / 12 = n / 12 ∧ srcOut s (srcId 3 u) = false) → s.fget FLT_READMIT F.FLT_READMIT_BUSY = 0 →
      completes (.faultReport r) s (fun t => t.reports = s.reports.erase r ∧ stored t r.src r.elem r.code 2 1 r.addr r.detail true false ∧ t.devLevel = s.devLevel ∧
        t.fget (FLT_SRCSTAT r.src) F.FLT_SRCSTAT_STATE = 1 ∧ t.fget (PLT_STAT n) F.PLT_STAT_FENCED = 1 ∧ t.fget (FLT_SRCSTAT r.src) F.FLT_SRCSTAT_HANDLING = 1)) ∧
    (∀ src, s.devLevel < 4 → completes (.collectorCheckFailure src true) s (fun t => t.devLevel = 4 ∧ t.fget FLT_STAT F.FLT_STAT_GLOBAL = 1 ∧ t.fget FLT_STAT F.FLT_STAT_LEVELREC = i ∧
      stored t (srcId 31 0) 0 C.FLT_F_GLOBAL 4 4 0 0 true false)) ∧
    (∀ c < 4, completes (.collectorCheckFailure (srcId 11 c) false) s (fun t => stored t (srcId 11 c) 0 C.FLT_F_SOURCE_REG 1 0 0 0 true true ∧ t.devLevel = s.devLevel ∧
      t.rg (FLT_SRCCFG (srcId 11 c)) = regReset (FLT_SRCCFG (srcId 11 c)) ∧ t.fget (FLT_SRCSTAT (srcId 11 c)) F.FLT_SRCSTAT_COUNT = 0 ∧
      t.fget (FLT_SRCSTAT (srcId 11 c)) F.FLT_SRCSTAT_STATE = s.fget (FLT_SRCSTAT (srcId 11 c)) F.FLT_SRCSTAT_STATE))) ∧
  (∀ (s : State) (x : FltTest) (n : Nat), n < 24 → s.fltTests = [x] → x.src = srcId 3 n → x.code = C.PLT_F_UNIT → x.idx < 1024 →
    let verdict := fun (t : State) => getBits (recWord t x.idx 1) 48 2
    completes (.selftestComplete x.src false) s (fun t => t.fltTests = [] ∧ verdict t = 2 ∧ t.dram = s.dram ∧ t.out = s.out ∧ t.reports = s.reports) ∧
    (s.fltAge.length < 1024 → s.fltAge.length ≠ x.idx → s.pst = 0 → s.fget PWR_CTL F.PWR_CTL_BUSY = 0 → s.fget FLT_READMIT F.FLT_READMIT_BUSY = 0 → completes (.selftestComplete x.src true) s (fun t => t.fltTests = [] ∧
      verdict t = 3 ∧ t.fget (FLT_SRCSTAT x.src) F.FLT_SRCSTAT_STATE = 1 ∧ t.fget (PLT_STAT n) F.PLT_STAT_FENCED = 1 ∧ t.dram = s.dram)) ∧
    completes (.selftestNoWindow x.src x.elem) s (fun t => t.fltTests = [] ∧ verdict t = 0 ∧ t.dram = s.dram ∧ t.out = s.out ∧ t.reports = s.reports)) ∧
  (∀ (s : State) (who : Who) (val : Word) (w : CtlWrite),
    (admitted who FLT_LOG val s w → fld w.act F.FLT_LOG_ACK = 1 →
      let i := fld w.act F.FLT_LOG_ACKIDX
      completes (.ack who val) s (fun t => endedWith who FLT_LOG 0 t ∧ recOpen t i = false ∧ t.dram = s.dram ∧ t.fltAge = s.fltAge ∧
        (recOpen s i = true → getBits (recWord t i 1) 53 2 = 3 ∧ ∀ j, j ≠ 1 → j < 4 → recWord t i j = recWord s i j) ∧ (recOpen s i = false → t = { s with out := .ctlDone who FLT_LOG 0 :: s.out }))) ∧
    (admitted who FLT_LEVELCTL val s w → nothingWaits s → s.spools = [] →
      let ends := fun (c : Instr) (st lvl : Nat) => completes c s (fun t => endedWith who FLT_LEVELCTL st t ∧ t.devLevel = lvl ∧ t.fget FLT_LEVELCTL F.FLT_LEVELCTL_STATUS = st ∧ t.dram = s.dram)
      (fld w.act F.FLT_LEVELCTL_EXIT_BASTING = 1 → fld w.act F.FLT_LEVELCTL_RELEASE = 0 → (s.devLevel = 3 → ends (.exitBastingWrite who val) 0 0) ∧ (s.devLevel = 4 → ends (.exitBastingWrite who val) C.FLT_E_STATE 4)) ∧
      (fld w.act F.FLT_LEVELCTL_EXIT_BASTING = 0 → fld w.act F.FLT_LEVELCTL_RELEASE = 1 → ∀ pass : Bool, (s.devLevel = 4 → ends (.haltRelease who pass val) (if pass then 0 else C.FLT_E_RELEASE) (if pass then 3 else 4)) ∧
        (s.devLevel ≠ 4 → ends (.haltRelease who pass val) C.FLT_E_STATE s.devLevel))) ∧
    (admitted who FLT_READMIT val s w → fld w.act F.FLT_READMIT_GO = 1 →
      let busy := s.fget FLT_READMIT F.FLT_READMIT_BUSY
      (∀ n < 24, busy = 0 → fld w.new F.FLT_READMIT_SOURCE = srcId 3 n → fld w.new F.FLT_READMIT_ELEMENT = 0 → s.fget (FLT_SRCSTAT (srcId 3 n)) F.FLT_SRCSTAT_STATE = 1 →
        completes (.readmitGo who val) s (fun t => endedWith who FLT_READMIT 0 t ∧ t.fget (FLT_SRCSTAT (srcId 3 n)) F.FLT_SRCSTAT_STATE = 2 ∧ t.fget FLT_READMIT F.FLT_READMIT_BUSY = 1 ∧
          t.fget FLT_READMIT F.FLT_READMIT_STAGE = 1 ∧ t.dram = s.dram)) ∧
      (busy = 1 ∨ readmOk s (fld w.new F.FLT_READMIT_SOURCE) (fld w.new F.FLT_READMIT_ELEMENT) = false → completes (.readmitGo who val) s (fun t => endedWith who FLT_READMIT C.FLT_E_STATE t ∧
        t.fget FLT_READMIT F.FLT_READMIT_BUSY = busy ∧ t = { s with regs := t.regs, out := t.out } ∧ regsKept (fun off => off = FLT_READMIT ∨ errorReg off) s t)))) ∧
  (∀ (s : State) (n : Nat), n < 24 → nothingWaits s → s.fget FLT_READMIT F.FLT_READMIT_BUSY = 1 → s.fget FLT_READMIT F.FLT_READMIT_SOURCE = srcId 3 n → s.fget FLT_READMIT F.FLT_READMIT_ELEMENT = 0 →
    let now := fun (t : State) => (t.fget (FLT_SRCSTAT (srcId 3 n)) F.FLT_SRCSTAT_STATE, t.fget FLT_READMIT F.FLT_READMIT_BUSY, t.fget FLT_READMIT F.FLT_READMIT_STAGE)
    let stage := s.fget FLT_READMIT F.FLT_READMIT_STAGE
    (stage = 1 → completes (.readmitStageComplete true) s (fun t => now t = (3, 1, 2) ∧ t = { s with regs := t.regs, diag := t.diag }) ∧
      completes (.readmitStageComplete false) s (fun t => now t = (1, 0, 0) ∧ t.fget FLT_READMIT F.FLT_READMIT_STATUS = C.PLT_F_UNIT ∧ t = { s with regs := t.regs, diag := t.diag })) ∧
    (stage = 2 → ∀ pass : Bool, completes (.readmitStageComplete pass) s (fun t => now t = (0, 0, 0) ∧ t.fget FLT_READMIT F.FLT_READMIT_STATUS = 0 ∧ t.fget (PLT_STAT n) F.PLT_STAT_FENCED = 0 ∧ t.dram = s.dram)))

/-- A Thimble service returns the status and value of its table to the calling core, with the effect that the table gives it (R313, R471, R475, R486, R487, R505, R510, R512, spec/15_management_worlds_boot.md). -/
def Obligations.ThimbleServices : Prop :=
  ∀ (s : State) (core : Nat), svcOpen s core = true → s.mgmt.haltReq = [] → nothingWaits s →
    let ends := fun (c : Instr) (a0 a1 : Nat) (P : State → Prop) => completes c s (fun t => t.out.head? = some (.ecall core a0 a1) ∧ P t)
    let on := fun (n : Nat) => bit s.mgmt.svcmask n = true
    let quiet := fun (t : State) => t = { s with regs := t.regs, levelNs := t.levelNs, diag := t.diag, out := t.out } ∧ regsKept (fun off => counterReg off = true) s t
    (∀ (buf idx src elem region slot base limit id addr classes bits : Nat),
      (∀ x ∈ [(1, Instr.version core), (2, .faultNext core buf), (3, .faultAck core idx), (4, .readmit core src elem), (5, .exitBasting core), (6, .keyCtlLoad core region slot), (6, .keyCtlSetCur core region slot),
          (6, .keyCtlErase core region), (6, .keyCtlSetRange core region base limit), (7, .progInstall core id addr classes), (8, .progRemove core id), (9, .measure core idx addr), (10, .debugN core bits),
          (11, .warmReset core), (12, .svnCommit core)], bit s.mgmt.svcmask x.1 = false → ends x.2 C.MGT_E_POLICY 0 quiet) ∧
      (idx = 0 ∨ 12 < idx → ends (.ecallNoService core idx) C.MGT_E_NO_SERVICE 0 quiet) ∧
      (on 1 → ends (.version core) 0 (Config.fwVersion s.mgmt.pat % 2 ^ 32 + s.fget MGT_BOOTSTAT F.MGT_BOOTSTAT_SVN * 2 ^ 32) quiet) ∧
      (on 2 → (2 ^ 47 < buf + 32 → ends (.faultNext core buf) C.MGT_E_ARG 0 quiet) ∧ (buf + 32 ≤ 2 ^ 47 → (recNext s = none → ends (.faultNext core buf) 0 (2 ^ 64 - 1) quiet) ∧
        (∀ i, recNext s = some i → ends (.faultNext core buf) 0 i (fun t => t.mgmt = { s.mgmt with passed := s.mgmt.passed ++ [i] })))) ∧
      (on 3 → (idx ∉ s.mgmt.passed → ends (.faultAck core idx) C.MGT_E_ARG 0 quiet) ∧ (idx ∈ s.mgmt.passed → idx < 1024 → ends (.faultAck core idx) 0 0 (fun t => recOpen t idx = false ∧ t.dram = s.dram))) ∧
      (on 4 → srcDefined src = true → elem < 65536 → ∀ u, unitOfSrc src = some u → (s.fget (MGT_ASSIGN u) F.MGT_ASSIGN_KIND ≠ 2 → ends (.readmit core src elem) C.MGT_E_ARG 0 quiet) ∧
        (∀ n < 24, s.fget (MGT_ASSIGN u) F.MGT_ASSIGN_KIND = 2 → src = srcId 3 n → elem = 0 → s.fget (FLT_SRCSTAT src) F.FLT_SRCSTAT_STATE = 1 → s.fget FLT_READMIT F.FLT_READMIT_BUSY = 0 →
          ends (.readmit core src elem) 0 0 (fun t => t.fget (FLT_SRCSTAT src) F.FLT_SRCSTAT_STATE = 2 ∧ t.fget FLT_READMIT F.FLT_READMIT_BUSY = 1))) ∧
      (on 5 → s.devLevel = 3 → ends (.exitBasting core) 0 0 (fun t => t.devLevel = 0 ∧ t.dram = s.dram)) ∧
      (on 6 → (32 ≤ region ∨ 2 ≤ slot → ends (.keyCtlLoad core region slot) C.MGT_E_ARG 0 quiet ∧ ends (.keyCtlSetCur core region slot) C.MGT_E_ARG 0 quiet) ∧
        (region < 32 → slot < 2 → (s.slot region slot).inuse = 0 → ends (.keyCtlLoad core region slot) 0 0 (fun t => slotLive t region slot = true ∧ t.fget (KEY_RCTL region) F.KEY_RCTL_NEWER = slot ∧
          t.fget (KEY_RCTL region) F.KEY_RCTL_CUR = s.fget (KEY_RCTL region) F.KEY_RCTL_CUR ∧ t.dram = s.dram)) ∧
        (region < 32 → slot < 2 → slotLive s region slot = true → s.fget (KEY_RCTL region) F.KEY_RCTL_NEWER = slot → ends (.keyCtlSetCur core region slot) 0 0 (fun t =>
          t.fget (KEY_RCTL region) F.KEY_RCTL_CUR = slot ∧ t.keys = s.keys ∧ t.dram = s.dram)) ∧
        (region < 32 → ends (.keyCtlErase core region) 0 0 (fun t => slotLive t region 0 = false ∧ slotLive t region 1 = false ∧ (t.slot region 0).mat = 0 ∧ (t.slot region 1).mat = 0 ∧ t.dram = s.dram)) ∧
        (region < 32 → base < 2 ^ 26 → limit < 2 ^ 26 →
          let clash := ∃ j, 1 ≤ j ∧ j < 32 ∧ j ≠ region ∧ s.fget (KEY_RGN j) F.KEY_RGN_VALID = 1 ∧ s.fget (KEY_RGN j) F.KEY_RGN_BASE ≤ limit ∧ base ≤ s.fget (KEY_RGN j) F.KEY_RGN_LIMIT
          s.locked = false → (region = 0 ∨ limit < base ∨ clash → ends (.keyCtlSetRange core region base limit) C.KEY_E_RANGE 0 (fun t => t.rg (KEY_RGN region) = s.rg (KEY_RGN region))) ∧
            (region ≠ 0 → base ≤ limit → ¬ clash → ends (.keyCtlSetRange core region base limit) 0 0 (fun t => t.fget (KEY_RGN region) F.KEY_RGN_VALID = 1 ∧
              t.fget (KEY_RGN region) F.KEY_RGN_BASE = base ∧ t.fget (KEY_RGN region) F.KEY_RGN_LIMIT = limit)))) ∧
      (on 7 → id < 256 → classes < 256 → inFirmware s addr 64 = true → ∀ h m s1 s2, coreRead core addr 64 s = (some (some h), s1) → inFirmware s addr (imgSpan (some h)) = true → svcOpen s1 core = true →
        coreRead core addr (imgSpan (some h)) s1 = (some (some m), s2) → svcOpen s2 core = true → imgOk m = true → (∀ c < 8, bit classes c = true → imgNeeds (m.take 64) &&& classFlagceil s c = imgNeeds (m.take 64)) →
        ends (.progInstall core id addr classes) 0 0 (fun t => (t.prog id).valid = true ∧ (t.prog id).addr = ownNode s2 * 2 ^ 47 + addr ∧ (t.prog id).needs = imgNeeds (m.take 64) ∧ (t.prog id).classes = classes ∧
          (t.prog id).len = imgLen (m.take 64) ∧ (t.prog id).bcrc = imgBcrc (m.take 64) ∧ (t.prog id).gen = (s.prog id).gen + 1 ∧ (∀ j, j ≠ id → t.prog j = s.prog j))) ∧
      (on 8 → (256 ≤ id → ends (.progRemove core id) C.MGT_E_ARG 0 quiet) ∧ (id < 256 → ends (.progRemove core id) 0 0 (fun t => t.prog id = { s.prog id with valid := false } ∧ (∀ j, j ≠ id → t.prog j = s.prog j) ∧
        t.dram = s.dram ∧ regsKept (fun off => counterReg off = true) s t))) ∧
      (on 9 → (idx < 5 ∨ 7 < idx ∨ 2 ^ 47 < addr + 48 → ends (.measure core idx addr) C.MGT_E_ARG 0 quiet) ∧ (∀ d s1, 5 ≤ idx → idx ≤ 7 → addr + 48 ≤ 2 ^ 47 → coreRead core addr 48 s = (some (some d), s1) → svcOpen s1 core = true →
        ends (.measure core idx addr) 0 0 (fun t => mrBytes t idx = sha384 (mrBytes s1 idx ++ d) ∧ (∀ k < 8, k ≠ idx → mrBytes t k = mrBytes s1 k) ∧ t.dram = s1.dram))) ∧
      (on 10 → (4 ≤ bits → ends (.debugN core bits) C.MGT_E_ARG 0 quiet) ∧ (bits < 4 → bits &&& (s.mgmt.dbgmask % 4) ≠ bits → ends (.debugN core bits) C.MGT_E_POLICY 0 quiet) ∧
        (bits < 4 → bits &&& (s.mgmt.dbgmask % 4) = bits → ends (.debugN core bits) 0 0 (fun t => t.rg MGT_DBGCTL = BitVec.ofNat 64 (putBits (s.rg MGT_DBGCTL).toNat 2 2 bits) ∧ t.dram = s.dram))) ∧
      (on 11 → completes (.warmReset core) s (fun t => t.fget MGT_RSTCTL F.MGT_RSTCTL_LASTRST = 3 ∧ t.mgmt.warm = true ∧ t.mgmt.run = false ∧ t.mgmt.step = 2 ∧ t.fget MGT_BOOTSTAT F.MGT_BOOTSTAT_STAGE = 3 ∧
        (∀ k < 8, ∀ j < 6, t.rg (MGT_MR k j) = 0) ∧ t.dram = s.dram ∧ t.keys = s.keys ∧ t.tier = s.tier)) ∧
      (on 12 → ends (.svnCommit core) 0 0 (fun t => t.mgmt = { s.mgmt with minSvn := max s.mgmt.minSvn (s.fget MGT_BOOTSTAT F.MGT_BOOTSTAT_SVN) } ∧ t.dram = s.dram ∧ regsKept (fun off => counterReg off = true) s t)))

/-- Every control-space write is checked and applied field by field; the lock, DINIT, resets, measurement, watchdog, debug and boot follow their rules (R3, R59, R490, R493, R499, R505, R508, R509, R510, R512, R513, R529). -/
def Obligations.ManagementRegistersBootAndDebug : Prop :=
  (∀ (s : State) (who : Who) (off width : Nat) (val : Word), ctlOpen s = true → (∀ p, who ≠ .bar0 p ∧ who ≠ .load p) →
    let refused := fun (st : Nat) => completes (.controlSpaceWrite who off width val false) s (fun t => endedWith who off st t ∧ onlyRegisters s t ∧ regsKept (fun o => errorReg o ∨ counterReg o = true) s t)
    (width ≠ 8 ∨ off % 8 ≠ 0 → refused C.CTL_E_WIDTH) ∧ (width = 8 → off % 8 = 0 → 2 ^ 32 ≤ off ∨ regFind off = none → refused C.CTL_E_NO_REGISTER) ∧
    (∀ h, width = 8 → off % 8 = 0 → off < 2 ^ 32 → regFind off = some h → regExists h = true → owns s who off = false → refused C.CTL_E_NOT_OWNER) ∧
    (∀ w, width = 8 → admitted who off val s w → hookAt (whoTrusted who) off = plainHook off → completes (.controlSpaceWrite who off width val false) s (fun t => endedWith who off 0 t ∧
      t.rg off = BitVec.ofNat 64 w.new ∧ t = { s with regs := t.regs, out := t.out } ∧ regsKept (fun o => o = off) s t))) ∧
  (∀ (s : State) (who : Who) (val : Word) (w : CtlWrite), (admitted who MGT_LOCK val s w → fld w.act F.MGT_LOCK_LOCK = 1 → completes (.assignmentLock who val) s (fun t => endedWith who MGT_LOCK (lockStatus s) t ∧
      t = { s with regs := t.regs, out := t.out } ∧ t.fget MGT_LOCK F.MGT_LOCK_STATUS = lockStatus s ∧ (lockStatus s = 0 → t.locked = true ∧ wordBytes (fun k => (t.rg (MGT_LOCKDIG k)).toNat) = lockDigest s.mgmt.pat) ∧
      (lockStatus s ≠ 0 → t.locked = s.locked ∧ regsKept (fun o => o = MGT_LOCK ∨ errorReg o) s t))) ∧
    (admitted who MGT_BOOTCTL val s w → fld w.act F.MGT_BOOTCTL_DINIT = 1 → completes (.dinit who val) s (fun t => t = { s with regs := t.regs, out := t.out } ∧
      (s.locked = true ∨ s.fget MGT_BOOTCTL F.MGT_BOOTCTL_BUSY = 1 → endedWith who MGT_BOOTCTL C.MGT_E_STATE t ∧ regsKept errorReg s t) ∧
      (s.locked = false → s.fget MGT_BOOTCTL F.MGT_BOOTCTL_BUSY = 0 → endedWith who MGT_BOOTCTL 0 t ∧ t.fget MGT_BOOTCTL F.MGT_BOOTCTL_BUSY = 1 ∧ regsKept (fun o => o = MGT_BOOTCTL) s t))) ∧
    (admitted who MGT_RSTCTL val s w → (fld w.act F.MGT_RSTCTL_WARM = 1 → completes (.warm who val) s (fun t => endedWith who MGT_RSTCTL 0 t ∧ t.fget MGT_RSTCTL F.MGT_RSTCTL_LASTRST = 3 ∧ t.mgmt.warm = true ∧
        t.mgmt.run = false ∧ t.mgmt.step = 2 ∧ t.fget MGT_BOOTSTAT F.MGT_BOOTSTAT_STAGE = 3 ∧ (∀ k < 8, ∀ j < 6, t.rg (MGT_MR k j) = 0) ∧ t.dram = s.dram ∧ t.keys = s.keys ∧ t.tier = s.tier)) ∧
      (fld w.act F.MGT_RSTCTL_WARM = 0 → completes (.corerst who val) s (fun t => endedWith who MGT_RSTCTL 0 t ∧ t = { s with mgmt := t.mgmt, out := t.out } ∧
        (∀ c < 4, bit (fld w.act F.MGT_RSTCTL_CORERST) c = true → ∀ x ∈ t.mgmt.halted, x % 4 ≠ c) ∧ (fld w.act F.MGT_RSTCTL_CORERST = 0 → t.mgmt = s.mgmt)))) ∧
    (admitted who MGT_MREXT val s w →
      let k := fld w.new F.MGT_MREXT_INDEX
      let shut := k = 0 ∧ s.fget MGT_MREXT F.MGT_MREXT_LOCK0 = 1
      let stored := fun (t : State) => endedWith who MGT_MREXT 0 t ∧ t.rg MGT_MREXT = BitVec.ofNat 64 w.new ∧ t = { s with regs := t.regs, out := t.out } ∧ regsKept (fun o => o = MGT_MREXT ∨ ∃ j < 6, o = MGT_MR k j) s t
      (fld w.act F.MGT_MREXT_GO = 1 → completes (.mrextGo who val) s (fun t => stored t ∧
        mrBytes t k = (if shut then mrBytes s k else sha384 (mrBytes s k ++ wordBytes (fun j => tabGet (fun _ => 0) s.mgmt.stage j))))) ∧
      (fld w.act F.MGT_MREXT_GO = 0 → completes (.lock0 who val) s (fun t => stored t ∧ mrBytes t k = mrBytes s k))) ∧
    (admitted who MGT_WDOGKICK val s w → fld w.act F.MGT_WDOGKICK_KICK = 1 → completes (.kick who val) s (fun t => t = { s with mgmt := { s.mgmt with wdog := false }, out := .ctlDone who MGT_WDOGKICK 0 :: s.out }))) ∧
  (∀ s : State, s.fget MGT_BOOTCTL F.MGT_BOOTCTL_BUSY = 1 → nothingWaits s → completes .dinitComplete s (fun t => t.fget MGT_BOOTCTL F.MGT_BOOTCTL_BUSY = 0 ∧ t.fget MGT_BOOTCTL F.MGT_BOOTCTL_STATUS = 0 ∧ t.mgmt.dinit = true ∧
    (∀ k, (k / 64 % 2 ^ 28 < dFrames s → tabGet (fun _ => (0 : Line)) t.dram.lines k = 0) ∧ (dFrames s ≤ k / 64 % 2 ^ 28 → tabGet (fun _ => (0 : Line)) t.dram.lines k = tabGet (fun _ => (0 : Line)) s.dram.lines k)))) ∧
  (∀ s : State, s.fget MGT_WDOG F.MGT_WDOG_EN = 1 → s.pst = 0 → s.pwr.held = 0 →
    (s.mgmt.wdog = false → completes .watchdogExpiry s (fun t => t.mgmt = { s.mgmt with wdog := true } ∧ t.fget MGT_WDOG F.MGT_WDOG_STAGE1 = 1 ∧ t.dram = s.dram ∧
      t.reports = s.reports ++ [{ src := srcId 11 127, elem := 0, code := C.MGT_F_WATCHDOG, addr := 0, detail := 0, level := some 1 }])) ∧
    (s.mgmt.wdog = true → completes .watchdogExpiry s (fun t => t.fget MGT_RSTCTL F.MGT_RSTCTL_LASTRST = 4 ∧ t.mgmt.warm = true ∧ t.mgmt.wdog = false ∧ t.mgmt.step = 2 ∧ t.dram = s.dram ∧ t.keys = s.keys))) ∧
  (∀ (s : State) (core : Nat) (trusted : Bool), core < 4 → s.coreState core = 0 → s.pst = 0 → (∀ x ∈ s.mgmt.halted, x % 4 ≠ core) →
    let inv := s.fget MGT_DBGCTL (if trusted then F.MGT_DBGCTL_T_INV else F.MGT_DBGCTL_N_INV) = 1
    completes (.debugHaltRequest core 0 trusted) s (fun t => t = { s with mgmt := t.mgmt } ∧
      (inv → t.mgmt = { s.mgmt with halted := s.mgmt.halted ++ [core + (if trusted then 4 else 0)], haltReq := s.mgmt.haltReq.erase core }) ∧
      (¬ inv → trusted = true → core ∉ s.mgmt.haltReq → t.mgmt = { s.mgmt with haltReq := s.mgmt.haltReq ++ [core] }) ∧ (¬ inv → trusted = false → t = s))) ∧
  (∀ (s : State) (a b : List Nat), s.pwr.held = 0 → s.tap.driven = false → s.mgmt.stopped = false →
    (s.pwr.pwrok = true → s.pst = 0 → s.mgmt.warm = false →
      let k := s.mgmt.step + 1
      let goes := fun (P : State → Prop) => completes (.coldBootStepComplete a b) s (fun t => t.mgmt.step = k ∧ (k < 12 → t.fget MGT_BOOTSTAT F.MGT_BOOTSTAT_STAGE = k + 1) ∧ t.dram = s.dram ∧ P t)
      (k ≤ 2 → goes (fun t => t.chans = s.chans ∧ regsKept (fun o => o = MGT_BOOTSTAT) s t)) ∧
      (k = 3 → goes (fun t => t.mgmt.flash = (a, b) ∧ regsKept (fun o => o = MGT_BOOTSTAT ∨ o = MGT_CORESTAT) s t)) ∧
      (k = 4 → (copyStatus s s.mgmt.flash.1 = 0 → goes (fun t => t.mgmt.pat = s.mgmt.flash.1 ∧ t.fget MGT_BOOTSTAT F.MGT_BOOTSTAT_COPY = 0)) ∧
        (copyStatus s s.mgmt.flash.1 ≠ 0 → copyStatus s s.mgmt.flash.2 = 0 → goes (fun t => t.mgmt.pat = s.mgmt.flash.2 ∧ t.fget MGT_BOOTSTAT F.MGT_BOOTSTAT_COPY = 1)) ∧
        (copyStatus s s.mgmt.flash.1 ≠ 0 → copyStatus s s.mgmt.flash.2 ≠ 0 → completes (.coldBootStepComplete a b) s (fun t => t.mgmt = { s.mgmt with stopped := true, run := false } ∧ t.dram = s.dram ∧
          t.fget MGT_BOOTSTAT F.MGT_BOOTSTAT_STATUS = copyStatus s s.mgmt.flash.2 ∧ ∀ c < 4, t.coreState c = 1 ∨ t.coreState c = 2 ∨ t.coreState c = 3 ∨ t.coreState c = 5))) ∧
      (k = 8 → s.mgmt.dinit = true → s.fget MGT_BOOTCTL F.MGT_BOOTCTL_BUSY = 0 → goes (fun t => regsKept (fun o => o = MGT_BOOTSTAT) s t)) ∧
      (k = 12 → (∀ p < 16, s.fget (PRT_CFG p) F.PRT_CFG_MODE ≠ 0) → goes (fun t => t.fget MGT_BOOTSTAT F.MGT_BOOTSTAT_DONE = 1 ∧ regsKept (fun o => o = MGT_BOOTSTAT) s t))) ∧
    (s.pst = 3 → ∀ failed : List Nat, (s.pwr.resume = 1 ∨ s.pwr.resume = 2 → completes (.resumeStepComplete a b failed) s (fun t => t = { s with pwr := { s.pwr with resume := s.pwr.resume + 1 } })) ∧
      (∀ c, s.pwr.resume = 4 → failed = [c] → c < 24 → s.cstate c = csIN_SERVICE → completes (.resumeStepComplete a b failed) s (fun t => t.pwr.resume = 5 ∧ t.cstate c = csRETRAINING ∧ t.dram = s.dram)) ∧
      (s.pwr.resume = 6 → completes (.resumeStepComplete a b failed) s (fun t => t.pst = 0 ∧ t.pwr.resume = 0 ∧ t.dram = s.dram))))

/-- Every step keeps the register file and DRAM in their one canonical form and takes exactly one command from the queue (spec/00_scope.md, spec/02_address_spaces_descriptors.md, spec/11_dram_subsystem.md). -/
def Obligations.EveryStepKeepsTheStoresCanonical : Prop :=
  ∀ s t : State, s.memWf = true → step s = .next t → t.memWf = true ∧ t.pending = s.pending.tail

/-- Cold reset leaves the canonical empty stores, an empty queue, P0, no live key, no program, and every register at its reset value (R421, R449, R505, R510, spec/15_management_worlds_boot.md). -/
def Obligations.ResetState : Prop :=
  State.reset.memWf = true ∧ State.reset.pending = [] ∧ State.reset.pst = 0 ∧ (∀ off, State.reset.rg off = regReset off) ∧ (∀ k < 8, ∀ j < 6, State.reset.rg (MGT_MR k j) = 0) ∧
    State.reset.locked = false ∧ State.reset.devLevel = 0 ∧ (∀ c < 4, State.reset.coreState c = 4) ∧ (∀ c < 24, State.reset.cstate c = csABSENT) ∧
    (∀ k < 32, ∀ e < 2, slotLive State.reset k e = false) ∧ (∀ b, (State.reset.bob b).run = 0 ∧ ∀ j, tabGet (fun _ => (0 : Word)) (State.reset.bob b).scratch j = 0) ∧
    (∀ q < 1024, State.reset.fget (SPL_CFG q) F.SPL_CFG_EN = 0) ∧ (∀ p < 16, State.reset.fget (PRT_CFG p) F.PRT_CFG_RELEASE = 0) ∧ (∀ h < 24, State.reset.fget (HEM_CTL h) F.HEM_CTL_EN = 0) ∧
    (∀ e < 1536, State.reset.fget (PMC_CNT e) F.PMC_CNT_COUNT = 0) ∧ (∀ bank < 512, ∀ word < 16384, sramWord State.reset bank word = 0) ∧
    ∀ k, tabGet (fun _ => (0 : Line)) State.reset.dram.lines k = 0
end

