-- ==== Sys2Proof/Laws/Home.lean ====
section
/-! SUPPORT. Laws of the home slices: what a turn of the waiting work does where nothing waits. -/

namespace Sys2Proof.Machine

theorem wbDrain_empty {s : State} (h : s.tier.wbQueue = []) : wbDrain s = s := by rw [wbDrain, h, List.foldl_nil]

/-- With no descriptor in a bank out of use, none moves. -/
theorem dcSettle_settled {s : State} (h : ∀ x ∈ s.tier.dc, x.2.isSome = true → bankOut s (dcBank x.1) = false) : dcSettle s = s := by
  have e : s.tier.dc.filter (fun x => x.2.isSome && bankOut s (dcBank x.1)) = [] :=
    List.filter_eq_nil_iff.2 fun x hx hb => by
      obtain ⟨h1, h2⟩ := Bool.and_eq_true_iff.1 hb
      rw [h x hx h1] at h2
      exact Bool.false_ne_true h2
  rw [dcSettle, e, List.foldl_nil]

theorem pumpAll_empty (n : Nat) {s : State} (h : s.home.waiting = []) : pumpAll n s = s := by
  cases n with
  | zero => rfl
  | succ n => simp [pumpAll, pumpList, h]

theorem heldNotes_empty {s t : State} (hs : s.home.waiting = []) (ht : t.home.waiting = []) : heldNotes s t = t := by
  simp [heldNotes, hs, ht]

/-- With nothing waiting at the slices, giving everything its turn changes nothing. -/
theorem pump_quiet {s : State} (h : nothingWaits s) : pump s = s := by
  obtain ⟨hw, ha, hb, hr, hd⟩ := h
  have e : { s with home := { s.home with arrived := [] } } = s := by rw [← ha]
  have n : s.ports.any (fun x => x.2.releasing.any (fun r => releaseReady s x.1 r.2)) = false := by
    rw [List.any_eq_false]
    intro x hx
    rw [hr x hx]
    exact Bool.false_ne_true
  unfold pump
  split
  · rfl
  · simp only [wbDrain_empty hb, dcSettle_settled hd, pumpAll_empty _ hw, e, n, Bool.false_eq_true, if_false]
    exact heldNotes_empty hw hw

end Sys2Proof.Machine
end

