-- ==== Sys2Proof/Laws/Tab.lean ====
section
/-! SUPPORT. Laws of sparse tables: read after write, and every operation keeps the canonical form. -/

namespace Sys2Proof.Machine

variable {α : Type}

theorem tabGet_tabDel_same (d : Nat → α) (t : Tab α) (k : Nat) : tabGet d (tabDel t k) k = d k := by
  induction t with
  | nil => rfl
  | cons e r ih =>
    obtain ⟨j, v⟩ := e
    by_cases h : j = k
    · simpa [tabDel, h] using ih
    · have h' : (j != k) = true := by simpa using h
      simpa [tabDel, List.filter_cons, h', tabGet, h] using ih

theorem tabGet_tabDel_other (d : Nat → α) (t : Tab α) (k m : Nat) (hm : m ≠ k) : tabGet d (tabDel t k) m = tabGet d t m := by
  induction t with
  | nil => rfl
  | cons e r ih =>
    obtain ⟨j, v⟩ := e
    by_cases h : j = k
    · have : j ≠ m := fun e => hm (e ▸ h)
      simpa [tabDel, h, tabGet, Ne.symm hm] using ih
    · have h' : (j != k) = true := by simpa using h
      by_cases hj : j = m
      · subst hj; simp [tabDel, h', tabGet]
      · simpa [tabDel, List.filter_cons, h', tabGet, hj] using ih

theorem tabGet_tabIns_same (d : Nat → α) (t : Tab α) (k : Nat) (x : α) : tabGet d (tabIns t k x) k = x := by
  induction t with
  | nil => simp [tabIns, tabGet]
  | cons e r ih =>
    obtain ⟨j, v⟩ := e
    unfold tabIns
    by_cases h : j = k
    · simp [h, tabGet]
    · by_cases h2 : k < j
      · simp [h, h2, tabGet]
      · simpa [h, h2, tabGet] using ih

theorem tabGet_tabIns_other (d : Nat → α) (t : Tab α) (k m : Nat) (x : α) (hm : m ≠ k) :
    tabGet d (tabIns t k x) m = tabGet d t m := by
  induction t with
  | nil => simp [tabIns, tabGet, Ne.symm hm]
  | cons e r ih =>
    obtain ⟨j, v⟩ := e
    unfold tabIns
    by_cases h : j = k
    · simp [h, tabGet, Ne.symm hm]
    · by_cases h2 : k < j
      · simp [h, h2, tabGet, Ne.symm hm]
      · by_cases hj : j = m
        · subst hj; simp [h, h2, tabGet]
        · simpa [h, h2, tabGet, hj] using ih

variable [DecidableEq α]

/-- A key reads what was set. -/
@[simp] theorem tabGet_tabSet_same (d : Nat → α) (t : Tab α) (k : Nat) (x : α) : tabGet d (tabSet d t k x) k = x := by
  unfold tabSet
  split
  · rename_i h; rw [tabGet_tabDel_same, h]
  · exact tabGet_tabIns_same d t k x

/-- Setting a key leaves every other key alone. -/
theorem tabGet_tabSet_other (d : Nat → α) (t : Tab α) (k m : Nat) (x : α) (hm : m ≠ k) :
    tabGet d (tabSet d t k x) m = tabGet d t m := by
  unfold tabSet
  split
  · exact tabGet_tabDel_other d t k m hm
  · exact tabGet_tabIns_other d t k m x hm

/-- What a key reads after a set, in one equation. -/
theorem tabGet_tabSet (d : Nat → α) (t : Tab α) (k m : Nat) (x : α) :
    tabGet d (tabSet d t k x) m = if m = k then x else tabGet d t m := by
  by_cases h : m = k
  · simp [h]
  · rw [tabGet_tabSet_other d t k m x h, if_neg h]

/-! The canonical form. -/

/-- Every key of a canonical table lies above `k`. -/
def tabAllAbove (k : Nat) (t : Tab α) : Prop := ∀ e ∈ t, k < e.1

theorem tabWf_step (d : Nat → α) (j : Nat) (v : α) (r : Tab α) :
    tabWf d ((j, v) :: r) = true ↔ v ≠ d j ∧ tabAbove j r = true ∧ tabWf d r = true := by
  rw [tabWf]; simp [and_assoc]

theorem tabWf_cons (d : Nat → α) (e : Nat × α) (r : Tab α) :
    tabWf d (e :: r) = true ↔ e.2 ≠ d e.1 ∧ tabAllAbove e.1 r ∧ tabWf d r = true := by
  induction r generalizing e with
  | nil => obtain ⟨j, v⟩ := e; simp [tabWf, tabAbove, tabAllAbove]
  | cons f r ih =>
    obtain ⟨j, v⟩ := e
    obtain ⟨i, w⟩ := f
    rw [tabWf_step]
    refine and_congr_right fun _ => and_congr_left fun h => ?_
    have h5 := ((ih (i, w)).mp h).2.1
    constructor
    · intro h2
      have h2 : j < i := by simpa [tabAbove] using h2
      intro e he
      rcases List.mem_cons.mp he with rfl | he
      · exact h2
      · exact Nat.lt_trans h2 (h5 e he)
    · intro h2
      have : j < i := h2 (i, w) List.mem_cons_self
      simpa [tabAbove] using this

/-- Dropping entries keeps the canonical form. -/
theorem tabWf_filter (d : Nat → α) (p : Nat × α → Bool) (t : Tab α) (h : tabWf d t = true) : tabWf d (t.filter p) = true := by
  induction t with
  | nil => rfl
  | cons e r ih =>
    obtain ⟨h1, h2, h3⟩ := (tabWf_cons d e r).mp h
    rw [List.filter_cons]
    split
    · exact (tabWf_cons d e _).mpr ⟨h1, fun x hx => h2 x (List.mem_filter.mp hx).1, ih h3⟩
    · exact ih h3

theorem tabWf_tabDel (d : Nat → α) (t : Tab α) (k : Nat) (h : tabWf d t = true) : tabWf d (tabDel t k) = true :=
  tabWf_filter d _ t h

theorem tabWf_tabDrop (d : Nat → α) (p : Nat → Bool) (t : Tab α) (h : tabWf d t = true) : tabWf d (tabDrop p t) = true :=
  tabWf_filter d _ t h

omit [DecidableEq α] in
theorem tabIns_above (t : Tab α) (k m : Nat) (x : α) (h : tabAllAbove m t) (hk : m < k) : tabAllAbove m (tabIns t k x) := by
  induction t with
  | nil => intro e he; simp [tabIns] at he; subst he; exact hk
  | cons f r ih =>
    obtain ⟨j, v⟩ := f
    have hr : tabAllAbove m r := fun e he => h e (List.mem_cons_of_mem _ he)
    intro e he
    unfold tabIns at he
    split at he
    · rcases List.mem_cons.mp he with rfl | he
      · exact hk
      · exact hr e he
    · split at he
      · rcases List.mem_cons.mp he with rfl | he
        · exact hk
        · exact h e he
      · rcases List.mem_cons.mp he with rfl | he
        · exact h _ List.mem_cons_self
        · exact ih hr e he

theorem tabWf_tabIns (d : Nat → α) (t : Tab α) (k : Nat) (x : α) (hx : x ≠ d k) (h : tabWf d t = true) :
    tabWf d (tabIns t k x) = true := by
  induction t with
  | nil => simp [tabIns, tabWf, tabAbove, hx]
  | cons f r ih =>
    obtain ⟨j, v⟩ := f
    obtain ⟨h1, h2, h3⟩ := (tabWf_cons d (j, v) r).mp h
    unfold tabIns
    split
    · rename_i e
      exact (tabWf_cons d (k, x) r).mpr ⟨hx, by simpa [e] using h2, h3⟩
    · split
      · rename_i hlt
        refine (tabWf_cons d (k, x) _).mpr ⟨hx, ?_, h⟩
        intro e he
        rcases List.mem_cons.mp he with rfl | he
        · exact hlt
        · exact Nat.lt_trans hlt (h2 e he)
      · rename_i hne hge
        have : j < k := by omega
        exact (tabWf_cons d (j, v) _).mpr ⟨h1, tabIns_above r k j x h2 this, ih h3⟩

/-- Setting a key keeps the canonical form. -/
theorem tabWf_tabSet (d : Nat → α) (t : Tab α) (k : Nat) (x : α) (h : tabWf d t = true) : tabWf d (tabSet d t k x) = true := by
  unfold tabSet
  split
  · exact tabWf_tabDel d t k h
  · rename_i hx; exact tabWf_tabIns d t k x hx h

/-- Two canonical tables that read the same everywhere are equal. -/
theorem tab_ext (d : Nat → α) (t u : Tab α) (ht : tabWf d t = true) (hu : tabWf d u = true)
    (h : ∀ k, tabGet d t k = tabGet d u k) : t = u := by
  have above : ∀ (r : Tab α) (k : Nat), tabAllAbove k r → ∀ m, m ≤ k → tabGet d r m = d m := by
    intro r k hr m hm
    induction r with
    | nil => rfl
    | cons e r ih =>
      have : k < e.1 := hr e List.mem_cons_self
      obtain ⟨j, v⟩ := e
      have hj : j ≠ m := by simp at this; omega
      simpa [tabGet, hj] using ih (fun x hx => hr x (List.mem_cons_of_mem _ hx))
  induction t generalizing u with
  | nil =>
    cases u with
    | nil => rfl
    | cons e r =>
      obtain ⟨j, v⟩ := e
      have := h j
      simp [tabGet] at this
      exact absurd this.symm ((tabWf_cons d (j, v) r).mp hu).1
  | cons e r ih =>
    obtain ⟨j, v⟩ := e
    obtain ⟨a1, a2, a3⟩ := (tabWf_cons d (j, v) r).mp ht
    cases u with
    | nil =>
      have := h j
      simp [tabGet] at this
      exact absurd this a1
    | cons f q =>
      obtain ⟨i, w⟩ := f
      obtain ⟨b1, b2, b3⟩ := (tabWf_cons d (i, w) q).mp hu
      have hij : j = i := by
        rcases Nat.lt_trichotomy j i with hlt | heq | hgt
        · have := h j
          have hn : i ≠ j := by omega
          simp only [tabGet, if_true, hn, if_false] at this
          rw [above q i b2 j (by omega)] at this
          exact absurd this a1
        · exact heq
        · have := h i
          have hn : j ≠ i := by omega
          simp only [tabGet, if_true, hn, if_false] at this
          rw [above r j a2 i (by omega)] at this
          exact absurd this.symm b1
      subst hij
      have hvw : v = w := by have := h j; simpa [tabGet] using this
      subst hvw
      congr 1
      refine ih q a3 b3 (fun k => ?_)
      by_cases hk : j = k
      · subst hk; rw [above r j a2 j (Nat.le_refl _), above q j b2 j (Nat.le_refl _)]
      · have := h k; simpa [tabGet, hk] using this

end Sys2Proof.Machine
end

