-- ==== Sys2Proof/Laws/State.lean ====
section
/-! SUPPORT. What each named update of State leaves alone: one lemma per field per update. -/

namespace Sys2Proof.Machine

/-! `setRg` changes `regs` only. -/

@[simp] theorem State.setRg_pending (s : State) (off : Nat) (v : Word) : (s.setRg off v).pending = s.pending := (rfl)
@[simp] theorem State.setRg_time (s : State) (off : Nat) (v : Word) : (s.setRg off v).time = s.time := (rfl)
@[simp] theorem State.setRg_ctr (s : State) (off : Nat) (v : Word) : (s.setRg off v).ctr = s.ctr := (rfl)
@[simp] theorem State.setRg_stamp (s : State) (off : Nat) (v : Word) : (s.setRg off v).stamp = s.stamp := (rfl)
@[simp] theorem State.setRg_out (s : State) (off : Nat) (v : Word) : (s.setRg off v).out = s.out := (rfl)
@[simp] theorem State.setRg_reports (s : State) (off : Nat) (v : Word) : (s.setRg off v).reports = s.reports := (rfl)
@[simp] theorem State.setRg_levelNs (s : State) (off : Nat) (v : Word) : (s.setRg off v).levelNs = s.levelNs := (rfl)
@[simp] theorem State.setRg_dram (s : State) (off : Nat) (v : Word) : (s.setRg off v).dram = s.dram := (rfl)
@[simp] theorem State.setRg_chans (s : State) (off : Nat) (v : Word) : (s.setRg off v).chans = s.chans := (rfl)
@[simp] theorem State.setRg_tier (s : State) (off : Nat) (v : Word) : (s.setRg off v).tier = s.tier := (rfl)
@[simp] theorem State.setRg_keys (s : State) (off : Nat) (v : Word) : (s.setRg off v).keys = s.keys := (rfl)
@[simp] theorem State.setRg_home (s : State) (off : Nat) (v : Word) : (s.setRg off v).home = s.home := (rfl)
@[simp] theorem State.setRg_ports (s : State) (off : Nat) (v : Word) : (s.setRg off v).ports = s.ports := (rfl)
@[simp] theorem State.setRg_pst (s : State) (off : Nat) (v : Word) : (s.setRg off v).pst = s.pst := (rfl)
@[simp] theorem State.setRg_bobs (s : State) (off : Nat) (v : Word) : (s.setRg off v).bobs = s.bobs := (rfl)
@[simp] theorem State.setRg_spools (s : State) (off : Nat) (v : Word) : (s.setRg off v).spools = s.spools := (rfl)
@[simp] theorem State.setRg_lastSpool (s : State) (off : Nat) (v : Word) : (s.setRg off v).lastSpool = s.lastSpool := (rfl)
@[simp] theorem State.setRg_progs (s : State) (off : Nat) (v : Word) : (s.setRg off v).progs = s.progs := (rfl)
@[simp] theorem State.setRg_notices (s : State) (off : Nat) (v : Word) : (s.setRg off v).notices = s.notices := (rfl)
@[simp] theorem State.setRg_seam (s : State) (off : Nat) (v : Word) : (s.setRg off v).seam = s.seam := (rfl)
@[simp] theorem State.setRg_sram (s : State) (off : Nat) (v : Word) : (s.setRg off v).sram = s.sram := (rfl)
@[simp] theorem State.setRg_fltTests (s : State) (off : Nat) (v : Word) : (s.setRg off v).fltTests = s.fltTests := (rfl)
@[simp] theorem State.setRg_fltAge (s : State) (off : Nat) (v : Word) : (s.setRg off v).fltAge = s.fltAge := (rfl)
@[simp] theorem State.setRg_fltStart (s : State) (off : Nat) (v : Word) : (s.setRg off v).fltStart = s.fltStart := (rfl)
@[simp] theorem State.setRg_iln (s : State) (off : Nat) (v : Word) : (s.setRg off v).iln = s.iln := (rfl)
@[simp] theorem State.setRg_cal (s : State) (off : Nat) (v : Word) : (s.setRg off v).cal = s.cal := (rfl)
@[simp] theorem State.setRg_tap (s : State) (off : Nat) (v : Word) : (s.setRg off v).tap = s.tap := (rfl)
@[simp] theorem State.setRg_mgmt (s : State) (off : Nat) (v : Word) : (s.setRg off v).mgmt = s.mgmt := (rfl)
@[simp] theorem State.setRg_hems (s : State) (off : Nat) (v : Word) : (s.setRg off v).hems = s.hems := (rfl)
@[simp] theorem State.setRg_pwr (s : State) (off : Nat) (v : Word) : (s.setRg off v).pwr = s.pwr := (rfl)
@[simp] theorem State.setRg_diag (s : State) (off : Nat) (v : Word) : (s.setRg off v).diag = s.diag := (rfl)

/-! `fset` changes `regs` only. -/

@[simp] theorem State.fset_pending (s : State) (off : Nat) (f : Fld) (v : Nat) : (s.fset off f v).pending = s.pending := (rfl)
@[simp] theorem State.fset_time (s : State) (off : Nat) (f : Fld) (v : Nat) : (s.fset off f v).time = s.time := (rfl)
@[simp] theorem State.fset_ctr (s : State) (off : Nat) (f : Fld) (v : Nat) : (s.fset off f v).ctr = s.ctr := (rfl)
@[simp] theorem State.fset_stamp (s : State) (off : Nat) (f : Fld) (v : Nat) : (s.fset off f v).stamp = s.stamp := (rfl)
@[simp] theorem State.fset_out (s : State) (off : Nat) (f : Fld) (v : Nat) : (s.fset off f v).out = s.out := (rfl)
@[simp] theorem State.fset_reports (s : State) (off : Nat) (f : Fld) (v : Nat) : (s.fset off f v).reports = s.reports := (rfl)
@[simp] theorem State.fset_levelNs (s : State) (off : Nat) (f : Fld) (v : Nat) : (s.fset off f v).levelNs = s.levelNs := (rfl)
@[simp] theorem State.fset_dram (s : State) (off : Nat) (f : Fld) (v : Nat) : (s.fset off f v).dram = s.dram := (rfl)
@[simp] theorem State.fset_chans (s : State) (off : Nat) (f : Fld) (v : Nat) : (s.fset off f v).chans = s.chans := (rfl)
@[simp] theorem State.fset_tier (s : State) (off : Nat) (f : Fld) (v : Nat) : (s.fset off f v).tier = s.tier := (rfl)
@[simp] theorem State.fset_keys (s : State) (off : Nat) (f : Fld) (v : Nat) : (s.fset off f v).keys = s.keys := (rfl)
@[simp] theorem State.fset_home (s : State) (off : Nat) (f : Fld) (v : Nat) : (s.fset off f v).home = s.home := (rfl)
@[simp] theorem State.fset_ports (s : State) (off : Nat) (f : Fld) (v : Nat) : (s.fset off f v).ports = s.ports := (rfl)
@[simp] theorem State.fset_pst (s : State) (off : Nat) (f : Fld) (v : Nat) : (s.fset off f v).pst = s.pst := (rfl)
@[simp] theorem State.fset_bobs (s : State) (off : Nat) (f : Fld) (v : Nat) : (s.fset off f v).bobs = s.bobs := (rfl)
@[simp] theorem State.fset_spools (s : State) (off : Nat) (f : Fld) (v : Nat) : (s.fset off f v).spools = s.spools := (rfl)
@[simp] theorem State.fset_lastSpool (s : State) (off : Nat) (f : Fld) (v : Nat) : (s.fset off f v).lastSpool = s.lastSpool := (rfl)
@[simp] theorem State.fset_progs (s : State) (off : Nat) (f : Fld) (v : Nat) : (s.fset off f v).progs = s.progs := (rfl)
@[simp] theorem State.fset_notices (s : State) (off : Nat) (f : Fld) (v : Nat) : (s.fset off f v).notices = s.notices := (rfl)
@[simp] theorem State.fset_seam (s : State) (off : Nat) (f : Fld) (v : Nat) : (s.fset off f v).seam = s.seam := (rfl)
@[simp] theorem State.fset_sram (s : State) (off : Nat) (f : Fld) (v : Nat) : (s.fset off f v).sram = s.sram := (rfl)
@[simp] theorem State.fset_fltTests (s : State) (off : Nat) (f : Fld) (v : Nat) : (s.fset off f v).fltTests = s.fltTests := (rfl)
@[simp] theorem State.fset_fltAge (s : State) (off : Nat) (f : Fld) (v : Nat) : (s.fset off f v).fltAge = s.fltAge := (rfl)
@[simp] theorem State.fset_fltStart (s : State) (off : Nat) (f : Fld) (v : Nat) : (s.fset off f v).fltStart = s.fltStart := (rfl)
@[simp] theorem State.fset_iln (s : State) (off : Nat) (f : Fld) (v : Nat) : (s.fset off f v).iln = s.iln := (rfl)
@[simp] theorem State.fset_cal (s : State) (off : Nat) (f : Fld) (v : Nat) : (s.fset off f v).cal = s.cal := (rfl)
@[simp] theorem State.fset_tap (s : State) (off : Nat) (f : Fld) (v : Nat) : (s.fset off f v).tap = s.tap := (rfl)
@[simp] theorem State.fset_mgmt (s : State) (off : Nat) (f : Fld) (v : Nat) : (s.fset off f v).mgmt = s.mgmt := (rfl)
@[simp] theorem State.fset_hems (s : State) (off : Nat) (f : Fld) (v : Nat) : (s.fset off f v).hems = s.hems := (rfl)
@[simp] theorem State.fset_pwr (s : State) (off : Nat) (f : Fld) (v : Nat) : (s.fset off f v).pwr = s.pwr := (rfl)
@[simp] theorem State.fset_diag (s : State) (off : Nat) (f : Fld) (v : Nat) : (s.fset off f v).diag = s.diag := (rfl)

/-! `fsat` changes `regs` only. -/

@[simp] theorem State.fsat_pending (s : State) (off : Nat) (f : Fld) (v : Nat) : (s.fsat off f v).pending = s.pending := (rfl)
@[simp] theorem State.fsat_time (s : State) (off : Nat) (f : Fld) (v : Nat) : (s.fsat off f v).time = s.time := (rfl)
@[simp] theorem State.fsat_ctr (s : State) (off : Nat) (f : Fld) (v : Nat) : (s.fsat off f v).ctr = s.ctr := (rfl)
@[simp] theorem State.fsat_stamp (s : State) (off : Nat) (f : Fld) (v : Nat) : (s.fsat off f v).stamp = s.stamp := (rfl)
@[simp] theorem State.fsat_out (s : State) (off : Nat) (f : Fld) (v : Nat) : (s.fsat off f v).out = s.out := (rfl)
@[simp] theorem State.fsat_reports (s : State) (off : Nat) (f : Fld) (v : Nat) : (s.fsat off f v).reports = s.reports := (rfl)
@[simp] theorem State.fsat_levelNs (s : State) (off : Nat) (f : Fld) (v : Nat) : (s.fsat off f v).levelNs = s.levelNs := (rfl)
@[simp] theorem State.fsat_dram (s : State) (off : Nat) (f : Fld) (v : Nat) : (s.fsat off f v).dram = s.dram := (rfl)
@[simp] theorem State.fsat_chans (s : State) (off : Nat) (f : Fld) (v : Nat) : (s.fsat off f v).chans = s.chans := (rfl)
@[simp] theorem State.fsat_tier (s : State) (off : Nat) (f : Fld) (v : Nat) : (s.fsat off f v).tier = s.tier := (rfl)
@[simp] theorem State.fsat_keys (s : State) (off : Nat) (f : Fld) (v : Nat) : (s.fsat off f v).keys = s.keys := (rfl)
@[simp] theorem State.fsat_home (s : State) (off : Nat) (f : Fld) (v : Nat) : (s.fsat off f v).home = s.home := (rfl)
@[simp] theorem State.fsat_ports (s : State) (off : Nat) (f : Fld) (v : Nat) : (s.fsat off f v).ports = s.ports := (rfl)
@[simp] theorem State.fsat_pst (s : State) (off : Nat) (f : Fld) (v : Nat) : (s.fsat off f v).pst = s.pst := (rfl)
@[simp] theorem State.fsat_bobs (s : State) (off : Nat) (f : Fld) (v : Nat) : (s.fsat off f v).bobs = s.bobs := (rfl)
@[simp] theorem State.fsat_spools (s : State) (off : Nat) (f : Fld) (v : Nat) : (s.fsat off f v).spools = s.spools := (rfl)
@[simp] theorem State.fsat_lastSpool (s : State) (off : Nat) (f : Fld) (v : Nat) : (s.fsat off f v).lastSpool = s.lastSpool := (rfl)
@[simp] theorem State.fsat_progs (s : State) (off : Nat) (f : Fld) (v : Nat) : (s.fsat off f v).progs = s.progs := (rfl)
@[simp] theorem State.fsat_notices (s : State) (off : Nat) (f : Fld) (v : Nat) : (s.fsat off f v).notices = s.notices := (rfl)
@[simp] theorem State.fsat_seam (s : State) (off : Nat) (f : Fld) (v : Nat) : (s.fsat off f v).seam = s.seam := (rfl)
@[simp] theorem State.fsat_sram (s : State) (off : Nat) (f : Fld) (v : Nat) : (s.fsat off f v).sram = s.sram := (rfl)
@[simp] theorem State.fsat_fltTests (s : State) (off : Nat) (f : Fld) (v : Nat) : (s.fsat off f v).fltTests = s.fltTests := (rfl)
@[simp] theorem State.fsat_fltAge (s : State) (off : Nat) (f : Fld) (v : Nat) : (s.fsat off f v).fltAge = s.fltAge := (rfl)
@[simp] theorem State.fsat_fltStart (s : State) (off : Nat) (f : Fld) (v : Nat) : (s.fsat off f v).fltStart = s.fltStart := (rfl)
@[simp] theorem State.fsat_iln (s : State) (off : Nat) (f : Fld) (v : Nat) : (s.fsat off f v).iln = s.iln := (rfl)
@[simp] theorem State.fsat_cal (s : State) (off : Nat) (f : Fld) (v : Nat) : (s.fsat off f v).cal = s.cal := (rfl)
@[simp] theorem State.fsat_tap (s : State) (off : Nat) (f : Fld) (v : Nat) : (s.fsat off f v).tap = s.tap := (rfl)
@[simp] theorem State.fsat_mgmt (s : State) (off : Nat) (f : Fld) (v : Nat) : (s.fsat off f v).mgmt = s.mgmt := (rfl)
@[simp] theorem State.fsat_hems (s : State) (off : Nat) (f : Fld) (v : Nat) : (s.fsat off f v).hems = s.hems := (rfl)
@[simp] theorem State.fsat_pwr (s : State) (off : Nat) (f : Fld) (v : Nat) : (s.fsat off f v).pwr = s.pwr := (rfl)
@[simp] theorem State.fsat_diag (s : State) (off : Nat) (f : Fld) (v : Nat) : (s.fsat off f v).diag = s.diag := (rfl)

/-! `fbit` changes `regs` only. -/

@[simp] theorem State.fbit_pending (s : State) (off : Nat) (f : Fld) (i : Nat) (b : Bool) : (s.fbit off f i b).pending = s.pending := (rfl)
@[simp] theorem State.fbit_time (s : State) (off : Nat) (f : Fld) (i : Nat) (b : Bool) : (s.fbit off f i b).time = s.time := (rfl)
@[simp] theorem State.fbit_ctr (s : State) (off : Nat) (f : Fld) (i : Nat) (b : Bool) : (s.fbit off f i b).ctr = s.ctr := (rfl)
@[simp] theorem State.fbit_stamp (s : State) (off : Nat) (f : Fld) (i : Nat) (b : Bool) : (s.fbit off f i b).stamp = s.stamp := (rfl)
@[simp] theorem State.fbit_out (s : State) (off : Nat) (f : Fld) (i : Nat) (b : Bool) : (s.fbit off f i b).out = s.out := (rfl)
@[simp] theorem State.fbit_reports (s : State) (off : Nat) (f : Fld) (i : Nat) (b : Bool) : (s.fbit off f i b).reports = s.reports := (rfl)
@[simp] theorem State.fbit_levelNs (s : State) (off : Nat) (f : Fld) (i : Nat) (b : Bool) : (s.fbit off f i b).levelNs = s.levelNs := (rfl)
@[simp] theorem State.fbit_dram (s : State) (off : Nat) (f : Fld) (i : Nat) (b : Bool) : (s.fbit off f i b).dram = s.dram := (rfl)
@[simp] theorem State.fbit_chans (s : State) (off : Nat) (f : Fld) (i : Nat) (b : Bool) : (s.fbit off f i b).chans = s.chans := (rfl)
@[simp] theorem State.fbit_tier (s : State) (off : Nat) (f : Fld) (i : Nat) (b : Bool) : (s.fbit off f i b).tier = s.tier := (rfl)
@[simp] theorem State.fbit_keys (s : State) (off : Nat) (f : Fld) (i : Nat) (b : Bool) : (s.fbit off f i b).keys = s.keys := (rfl)
@[simp] theorem State.fbit_home (s : State) (off : Nat) (f : Fld) (i : Nat) (b : Bool) : (s.fbit off f i b).home = s.home := (rfl)
@[simp] theorem State.fbit_ports (s : State) (off : Nat) (f : Fld) (i : Nat) (b : Bool) : (s.fbit off f i b).ports = s.ports := (rfl)
@[simp] theorem State.fbit_pst (s : State) (off : Nat) (f : Fld) (i : Nat) (b : Bool) : (s.fbit off f i b).pst = s.pst := (rfl)
@[simp] theorem State.fbit_bobs (s : State) (off : Nat) (f : Fld) (i : Nat) (b : Bool) : (s.fbit off f i b).bobs = s.bobs := (rfl)
@[simp] theorem State.fbit_spools (s : State) (off : Nat) (f : Fld) (i : Nat) (b : Bool) : (s.fbit off f i b).spools = s.spools := (rfl)
@[simp] theorem State.fbit_lastSpool (s : State) (off : Nat) (f : Fld) (i : Nat) (b : Bool) : (s.fbit off f i b).lastSpool = s.lastSpool := (rfl)
@[simp] theorem State.fbit_progs (s : State) (off : Nat) (f : Fld) (i : Nat) (b : Bool) : (s.fbit off f i b).progs = s.progs := (rfl)
@[simp] theorem State.fbit_notices (s : State) (off : Nat) (f : Fld) (i : Nat) (b : Bool) : (s.fbit off f i b).notices = s.notices := (rfl)
@[simp] theorem State.fbit_seam (s : State) (off : Nat) (f : Fld) (i : Nat) (b : Bool) : (s.fbit off f i b).seam = s.seam := (rfl)
@[simp] theorem State.fbit_sram (s : State) (off : Nat) (f : Fld) (i : Nat) (b : Bool) : (s.fbit off f i b).sram = s.sram := (rfl)
@[simp] theorem State.fbit_fltTests (s : State) (off : Nat) (f : Fld) (i : Nat) (b : Bool) : (s.fbit off f i b).fltTests = s.fltTests := (rfl)
@[simp] theorem State.fbit_fltAge (s : State) (off : Nat) (f : Fld) (i : Nat) (b : Bool) : (s.fbit off f i b).fltAge = s.fltAge := (rfl)
@[simp] theorem State.fbit_fltStart (s : State) (off : Nat) (f : Fld) (i : Nat) (b : Bool) : (s.fbit off f i b).fltStart = s.fltStart := (rfl)
@[simp] theorem State.fbit_iln (s : State) (off : Nat) (f : Fld) (i : Nat) (b : Bool) : (s.fbit off f i b).iln = s.iln := (rfl)
@[simp] theorem State.fbit_cal (s : State) (off : Nat) (f : Fld) (i : Nat) (b : Bool) : (s.fbit off f i b).cal = s.cal := (rfl)
@[simp] theorem State.fbit_tap (s : State) (off : Nat) (f : Fld) (i : Nat) (b : Bool) : (s.fbit off f i b).tap = s.tap := (rfl)
@[simp] theorem State.fbit_mgmt (s : State) (off : Nat) (f : Fld) (i : Nat) (b : Bool) : (s.fbit off f i b).mgmt = s.mgmt := (rfl)
@[simp] theorem State.fbit_hems (s : State) (off : Nat) (f : Fld) (i : Nat) (b : Bool) : (s.fbit off f i b).hems = s.hems := (rfl)
@[simp] theorem State.fbit_pwr (s : State) (off : Nat) (f : Fld) (i : Nat) (b : Bool) : (s.fbit off f i b).pwr = s.pwr := (rfl)
@[simp] theorem State.fbit_diag (s : State) (off : Nat) (f : Fld) (i : Nat) (b : Bool) : (s.fbit off f i b).diag = s.diag := (rfl)

/-! `put` changes `out` only. -/

@[simp] theorem State.put_pending (s : State) (o : Out) : (s.put o).pending = s.pending := (rfl)
@[simp] theorem State.put_regs (s : State) (o : Out) : (s.put o).regs = s.regs := (rfl)
@[simp] theorem State.put_time (s : State) (o : Out) : (s.put o).time = s.time := (rfl)
@[simp] theorem State.put_ctr (s : State) (o : Out) : (s.put o).ctr = s.ctr := (rfl)
@[simp] theorem State.put_stamp (s : State) (o : Out) : (s.put o).stamp = s.stamp := (rfl)
@[simp] theorem State.put_reports (s : State) (o : Out) : (s.put o).reports = s.reports := (rfl)
@[simp] theorem State.put_levelNs (s : State) (o : Out) : (s.put o).levelNs = s.levelNs := (rfl)
@[simp] theorem State.put_dram (s : State) (o : Out) : (s.put o).dram = s.dram := (rfl)
@[simp] theorem State.put_chans (s : State) (o : Out) : (s.put o).chans = s.chans := (rfl)
@[simp] theorem State.put_tier (s : State) (o : Out) : (s.put o).tier = s.tier := (rfl)
@[simp] theorem State.put_keys (s : State) (o : Out) : (s.put o).keys = s.keys := (rfl)
@[simp] theorem State.put_home (s : State) (o : Out) : (s.put o).home = s.home := (rfl)
@[simp] theorem State.put_ports (s : State) (o : Out) : (s.put o).ports = s.ports := (rfl)
@[simp] theorem State.put_pst (s : State) (o : Out) : (s.put o).pst = s.pst := (rfl)
@[simp] theorem State.put_bobs (s : State) (o : Out) : (s.put o).bobs = s.bobs := (rfl)
@[simp] theorem State.put_spools (s : State) (o : Out) : (s.put o).spools = s.spools := (rfl)
@[simp] theorem State.put_lastSpool (s : State) (o : Out) : (s.put o).lastSpool = s.lastSpool := (rfl)
@[simp] theorem State.put_progs (s : State) (o : Out) : (s.put o).progs = s.progs := (rfl)
@[simp] theorem State.put_notices (s : State) (o : Out) : (s.put o).notices = s.notices := (rfl)
@[simp] theorem State.put_seam (s : State) (o : Out) : (s.put o).seam = s.seam := (rfl)
@[simp] theorem State.put_sram (s : State) (o : Out) : (s.put o).sram = s.sram := (rfl)
@[simp] theorem State.put_fltTests (s : State) (o : Out) : (s.put o).fltTests = s.fltTests := (rfl)
@[simp] theorem State.put_fltAge (s : State) (o : Out) : (s.put o).fltAge = s.fltAge := (rfl)
@[simp] theorem State.put_fltStart (s : State) (o : Out) : (s.put o).fltStart = s.fltStart := (rfl)
@[simp] theorem State.put_iln (s : State) (o : Out) : (s.put o).iln = s.iln := (rfl)
@[simp] theorem State.put_cal (s : State) (o : Out) : (s.put o).cal = s.cal := (rfl)
@[simp] theorem State.put_tap (s : State) (o : Out) : (s.put o).tap = s.tap := (rfl)
@[simp] theorem State.put_mgmt (s : State) (o : Out) : (s.put o).mgmt = s.mgmt := (rfl)
@[simp] theorem State.put_hems (s : State) (o : Out) : (s.put o).hems = s.hems := (rfl)
@[simp] theorem State.put_pwr (s : State) (o : Out) : (s.put o).pwr = s.pwr := (rfl)
@[simp] theorem State.put_diag (s : State) (o : Out) : (s.put o).diag = s.diag := (rfl)

/-! `report` changes `reports` only. -/

@[simp] theorem State.report_pending (s : State) (a b c d e : Nat) : (s.report a b c d e).pending = s.pending := (rfl)
@[simp] theorem State.report_regs (s : State) (a b c d e : Nat) : (s.report a b c d e).regs = s.regs := (rfl)
@[simp] theorem State.report_time (s : State) (a b c d e : Nat) : (s.report a b c d e).time = s.time := (rfl)
@[simp] theorem State.report_ctr (s : State) (a b c d e : Nat) : (s.report a b c d e).ctr = s.ctr := (rfl)
@[simp] theorem State.report_stamp (s : State) (a b c d e : Nat) : (s.report a b c d e).stamp = s.stamp := (rfl)
@[simp] theorem State.report_out (s : State) (a b c d e : Nat) : (s.report a b c d e).out = s.out := (rfl)
@[simp] theorem State.report_levelNs (s : State) (a b c d e : Nat) : (s.report a b c d e).levelNs = s.levelNs := (rfl)
@[simp] theorem State.report_dram (s : State) (a b c d e : Nat) : (s.report a b c d e).dram = s.dram := (rfl)
@[simp] theorem State.report_chans (s : State) (a b c d e : Nat) : (s.report a b c d e).chans = s.chans := (rfl)
@[simp] theorem State.report_tier (s : State) (a b c d e : Nat) : (s.report a b c d e).tier = s.tier := (rfl)
@[simp] theorem State.report_keys (s : State) (a b c d e : Nat) : (s.report a b c d e).keys = s.keys := (rfl)
@[simp] theorem State.report_home (s : State) (a b c d e : Nat) : (s.report a b c d e).home = s.home := (rfl)
@[simp] theorem State.report_ports (s : State) (a b c d e : Nat) : (s.report a b c d e).ports = s.ports := (rfl)
@[simp] theorem State.report_pst (s : State) (a b c d e : Nat) : (s.report a b c d e).pst = s.pst := (rfl)
@[simp] theorem State.report_bobs (s : State) (a b c d e : Nat) : (s.report a b c d e).bobs = s.bobs := (rfl)
@[simp] theorem State.report_spools (s : State) (a b c d e : Nat) : (s.report a b c d e).spools = s.spools := (rfl)
@[simp] theorem State.report_lastSpool (s : State) (a b c d e : Nat) : (s.report a b c d e).lastSpool = s.lastSpool := (rfl)
@[simp] theorem State.report_progs (s : State) (a b c d e : Nat) : (s.report a b c d e).progs = s.progs := (rfl)
@[simp] theorem State.report_notices (s : State) (a b c d e : Nat) : (s.report a b c d e).notices = s.notices := (rfl)
@[simp] theorem State.report_seam (s : State) (a b c d e : Nat) : (s.report a b c d e).seam = s.seam := (rfl)
@[simp] theorem State.report_sram (s : State) (a b c d e : Nat) : (s.report a b c d e).sram = s.sram := (rfl)
@[simp] theorem State.report_fltTests (s : State) (a b c d e : Nat) : (s.report a b c d e).fltTests = s.fltTests := (rfl)
@[simp] theorem State.report_fltAge (s : State) (a b c d e : Nat) : (s.report a b c d e).fltAge = s.fltAge := (rfl)
@[simp] theorem State.report_fltStart (s : State) (a b c d e : Nat) : (s.report a b c d e).fltStart = s.fltStart := (rfl)
@[simp] theorem State.report_iln (s : State) (a b c d e : Nat) : (s.report a b c d e).iln = s.iln := (rfl)
@[simp] theorem State.report_cal (s : State) (a b c d e : Nat) : (s.report a b c d e).cal = s.cal := (rfl)
@[simp] theorem State.report_tap (s : State) (a b c d e : Nat) : (s.report a b c d e).tap = s.tap := (rfl)
@[simp] theorem State.report_mgmt (s : State) (a b c d e : Nat) : (s.report a b c d e).mgmt = s.mgmt := (rfl)
@[simp] theorem State.report_hems (s : State) (a b c d e : Nat) : (s.report a b c d e).hems = s.hems := (rfl)
@[simp] theorem State.report_pwr (s : State) (a b c d e : Nat) : (s.report a b c d e).pwr = s.pwr := (rfl)
@[simp] theorem State.report_diag (s : State) (a b c d e : Nat) : (s.report a b c d e).diag = s.diag := (rfl)

/-! `reportAt` changes `reports` only. -/

@[simp] theorem State.reportAt_pending (s : State) (l a b c d e : Nat) : (s.reportAt l a b c d e).pending = s.pending := (rfl)
@[simp] theorem State.reportAt_regs (s : State) (l a b c d e : Nat) : (s.reportAt l a b c d e).regs = s.regs := (rfl)
@[simp] theorem State.reportAt_time (s : State) (l a b c d e : Nat) : (s.reportAt l a b c d e).time = s.time := (rfl)
@[simp] theorem State.reportAt_ctr (s : State) (l a b c d e : Nat) : (s.reportAt l a b c d e).ctr = s.ctr := (rfl)
@[simp] theorem State.reportAt_stamp (s : State) (l a b c d e : Nat) : (s.reportAt l a b c d e).stamp = s.stamp := (rfl)
@[simp] theorem State.reportAt_out (s : State) (l a b c d e : Nat) : (s.reportAt l a b c d e).out = s.out := (rfl)
@[simp] theorem State.reportAt_levelNs (s : State) (l a b c d e : Nat) : (s.reportAt l a b c d e).levelNs = s.levelNs := (rfl)
@[simp] theorem State.reportAt_dram (s : State) (l a b c d e : Nat) : (s.reportAt l a b c d e).dram = s.dram := (rfl)
@[simp] theorem State.reportAt_chans (s : State) (l a b c d e : Nat) : (s.reportAt l a b c d e).chans = s.chans := (rfl)
@[simp] theorem State.reportAt_tier (s : State) (l a b c d e : Nat) : (s.reportAt l a b c d e).tier = s.tier := (rfl)
@[simp] theorem State.reportAt_keys (s : State) (l a b c d e : Nat) : (s.reportAt l a b c d e).keys = s.keys := (rfl)
@[simp] theorem State.reportAt_home (s : State) (l a b c d e : Nat) : (s.reportAt l a b c d e).home = s.home := (rfl)
@[simp] theorem State.reportAt_ports (s : State) (l a b c d e : Nat) : (s.reportAt l a b c d e).ports = s.ports := (rfl)
@[simp] theorem State.reportAt_pst (s : State) (l a b c d e : Nat) : (s.reportAt l a b c d e).pst = s.pst := (rfl)
@[simp] theorem State.reportAt_bobs (s : State) (l a b c d e : Nat) : (s.reportAt l a b c d e).bobs = s.bobs := (rfl)
@[simp] theorem State.reportAt_spools (s : State) (l a b c d e : Nat) : (s.reportAt l a b c d e).spools = s.spools := (rfl)
@[simp] theorem State.reportAt_lastSpool (s : State) (l a b c d e : Nat) : (s.reportAt l a b c d e).lastSpool = s.lastSpool := (rfl)
@[simp] theorem State.reportAt_progs (s : State) (l a b c d e : Nat) : (s.reportAt l a b c d e).progs = s.progs := (rfl)
@[simp] theorem State.reportAt_notices (s : State) (l a b c d e : Nat) : (s.reportAt l a b c d e).notices = s.notices := (rfl)
@[simp] theorem State.reportAt_seam (s : State) (l a b c d e : Nat) : (s.reportAt l a b c d e).seam = s.seam := (rfl)
@[simp] theorem State.reportAt_sram (s : State) (l a b c d e : Nat) : (s.reportAt l a b c d e).sram = s.sram := (rfl)
@[simp] theorem State.reportAt_fltTests (s : State) (l a b c d e : Nat) : (s.reportAt l a b c d e).fltTests = s.fltTests := (rfl)
@[simp] theorem State.reportAt_fltAge (s : State) (l a b c d e : Nat) : (s.reportAt l a b c d e).fltAge = s.fltAge := (rfl)
@[simp] theorem State.reportAt_fltStart (s : State) (l a b c d e : Nat) : (s.reportAt l a b c d e).fltStart = s.fltStart := (rfl)
@[simp] theorem State.reportAt_iln (s : State) (l a b c d e : Nat) : (s.reportAt l a b c d e).iln = s.iln := (rfl)
@[simp] theorem State.reportAt_cal (s : State) (l a b c d e : Nat) : (s.reportAt l a b c d e).cal = s.cal := (rfl)
@[simp] theorem State.reportAt_tap (s : State) (l a b c d e : Nat) : (s.reportAt l a b c d e).tap = s.tap := (rfl)
@[simp] theorem State.reportAt_mgmt (s : State) (l a b c d e : Nat) : (s.reportAt l a b c d e).mgmt = s.mgmt := (rfl)
@[simp] theorem State.reportAt_hems (s : State) (l a b c d e : Nat) : (s.reportAt l a b c d e).hems = s.hems := (rfl)
@[simp] theorem State.reportAt_pwr (s : State) (l a b c d e : Nat) : (s.reportAt l a b c d e).pwr = s.pwr := (rfl)
@[simp] theorem State.reportAt_diag (s : State) (l a b c d e : Nat) : (s.reportAt l a b c d e).diag = s.diag := (rfl)

/-! `tick` changes `stamp` only. -/

@[simp] theorem State.tick_pending (s : State) : (s.tick).pending = s.pending := (rfl)
@[simp] theorem State.tick_regs (s : State) : (s.tick).regs = s.regs := (rfl)
@[simp] theorem State.tick_time (s : State) : (s.tick).time = s.time := (rfl)
@[simp] theorem State.tick_ctr (s : State) : (s.tick).ctr = s.ctr := (rfl)
@[simp] theorem State.tick_out (s : State) : (s.tick).out = s.out := (rfl)
@[simp] theorem State.tick_reports (s : State) : (s.tick).reports = s.reports := (rfl)
@[simp] theorem State.tick_levelNs (s : State) : (s.tick).levelNs = s.levelNs := (rfl)
@[simp] theorem State.tick_dram (s : State) : (s.tick).dram = s.dram := (rfl)
@[simp] theorem State.tick_chans (s : State) : (s.tick).chans = s.chans := (rfl)
@[simp] theorem State.tick_tier (s : State) : (s.tick).tier = s.tier := (rfl)
@[simp] theorem State.tick_keys (s : State) : (s.tick).keys = s.keys := (rfl)
@[simp] theorem State.tick_home (s : State) : (s.tick).home = s.home := (rfl)
@[simp] theorem State.tick_ports (s : State) : (s.tick).ports = s.ports := (rfl)
@[simp] theorem State.tick_pst (s : State) : (s.tick).pst = s.pst := (rfl)
@[simp] theorem State.tick_bobs (s : State) : (s.tick).bobs = s.bobs := (rfl)
@[simp] theorem State.tick_spools (s : State) : (s.tick).spools = s.spools := (rfl)
@[simp] theorem State.tick_lastSpool (s : State) : (s.tick).lastSpool = s.lastSpool := (rfl)
@[simp] theorem State.tick_progs (s : State) : (s.tick).progs = s.progs := (rfl)
@[simp] theorem State.tick_notices (s : State) : (s.tick).notices = s.notices := (rfl)
@[simp] theorem State.tick_seam (s : State) : (s.tick).seam = s.seam := (rfl)
@[simp] theorem State.tick_sram (s : State) : (s.tick).sram = s.sram := (rfl)
@[simp] theorem State.tick_fltTests (s : State) : (s.tick).fltTests = s.fltTests := (rfl)
@[simp] theorem State.tick_fltAge (s : State) : (s.tick).fltAge = s.fltAge := (rfl)
@[simp] theorem State.tick_fltStart (s : State) : (s.tick).fltStart = s.fltStart := (rfl)
@[simp] theorem State.tick_iln (s : State) : (s.tick).iln = s.iln := (rfl)
@[simp] theorem State.tick_cal (s : State) : (s.tick).cal = s.cal := (rfl)
@[simp] theorem State.tick_tap (s : State) : (s.tick).tap = s.tap := (rfl)
@[simp] theorem State.tick_mgmt (s : State) : (s.tick).mgmt = s.mgmt := (rfl)
@[simp] theorem State.tick_hems (s : State) : (s.tick).hems = s.hems := (rfl)
@[simp] theorem State.tick_pwr (s : State) : (s.tick).pwr = s.pwr := (rfl)
@[simp] theorem State.tick_diag (s : State) : (s.tick).diag = s.diag := (rfl)

/-! `diagSet` changes `diag` only. -/

@[simp] theorem State.diagSet_pending (s : State) (k i v : Nat) : (s.diagSet k i v).pending = s.pending := (rfl)
@[simp] theorem State.diagSet_regs (s : State) (k i v : Nat) : (s.diagSet k i v).regs = s.regs := (rfl)
@[simp] theorem State.diagSet_time (s : State) (k i v : Nat) : (s.diagSet k i v).time = s.time := (rfl)
@[simp] theorem State.diagSet_ctr (s : State) (k i v : Nat) : (s.diagSet k i v).ctr = s.ctr := (rfl)
@[simp] theorem State.diagSet_stamp (s : State) (k i v : Nat) : (s.diagSet k i v).stamp = s.stamp := (rfl)
@[simp] theorem State.diagSet_out (s : State) (k i v : Nat) : (s.diagSet k i v).out = s.out := (rfl)
@[simp] theorem State.diagSet_reports (s : State) (k i v : Nat) : (s.diagSet k i v).reports = s.reports := (rfl)
@[simp] theorem State.diagSet_levelNs (s : State) (k i v : Nat) : (s.diagSet k i v).levelNs = s.levelNs := (rfl)
@[simp] theorem State.diagSet_dram (s : State) (k i v : Nat) : (s.diagSet k i v).dram = s.dram := (rfl)
@[simp] theorem State.diagSet_chans (s : State) (k i v : Nat) : (s.diagSet k i v).chans = s.chans := (rfl)
@[simp] theorem State.diagSet_tier (s : State) (k i v : Nat) : (s.diagSet k i v).tier = s.tier := (rfl)
@[simp] theorem State.diagSet_keys (s : State) (k i v : Nat) : (s.diagSet k i v).keys = s.keys := (rfl)
@[simp] theorem State.diagSet_home (s : State) (k i v : Nat) : (s.diagSet k i v).home = s.home := (rfl)
@[simp] theorem State.diagSet_ports (s : State) (k i v : Nat) : (s.diagSet k i v).ports = s.ports := (rfl)
@[simp] theorem State.diagSet_pst (s : State) (k i v : Nat) : (s.diagSet k i v).pst = s.pst := (rfl)
@[simp] theorem State.diagSet_bobs (s : State) (k i v : Nat) : (s.diagSet k i v).bobs = s.bobs := (rfl)
@[simp] theorem State.diagSet_spools (s : State) (k i v : Nat) : (s.diagSet k i v).spools = s.spools := (rfl)
@[simp] theorem State.diagSet_lastSpool (s : State) (k i v : Nat) : (s.diagSet k i v).lastSpool = s.lastSpool := (rfl)
@[simp] theorem State.diagSet_progs (s : State) (k i v : Nat) : (s.diagSet k i v).progs = s.progs := (rfl)
@[simp] theorem State.diagSet_notices (s : State) (k i v : Nat) : (s.diagSet k i v).notices = s.notices := (rfl)
@[simp] theorem State.diagSet_seam (s : State) (k i v : Nat) : (s.diagSet k i v).seam = s.seam := (rfl)
@[simp] theorem State.diagSet_sram (s : State) (k i v : Nat) : (s.diagSet k i v).sram = s.sram := (rfl)
@[simp] theorem State.diagSet_fltTests (s : State) (k i v : Nat) : (s.diagSet k i v).fltTests = s.fltTests := (rfl)
@[simp] theorem State.diagSet_fltAge (s : State) (k i v : Nat) : (s.diagSet k i v).fltAge = s.fltAge := (rfl)
@[simp] theorem State.diagSet_fltStart (s : State) (k i v : Nat) : (s.diagSet k i v).fltStart = s.fltStart := (rfl)
@[simp] theorem State.diagSet_iln (s : State) (k i v : Nat) : (s.diagSet k i v).iln = s.iln := (rfl)
@[simp] theorem State.diagSet_cal (s : State) (k i v : Nat) : (s.diagSet k i v).cal = s.cal := (rfl)
@[simp] theorem State.diagSet_tap (s : State) (k i v : Nat) : (s.diagSet k i v).tap = s.tap := (rfl)
@[simp] theorem State.diagSet_mgmt (s : State) (k i v : Nat) : (s.diagSet k i v).mgmt = s.mgmt := (rfl)
@[simp] theorem State.diagSet_hems (s : State) (k i v : Nat) : (s.diagSet k i v).hems = s.hems := (rfl)
@[simp] theorem State.diagSet_pwr (s : State) (k i v : Nat) : (s.diagSet k i v).pwr = s.pwr := (rfl)

/-! `diagAdd` changes `diag` only. -/

@[simp] theorem State.diagAdd_pending (s : State) (k i n : Nat) : (s.diagAdd k i n).pending = s.pending := (rfl)
@[simp] theorem State.diagAdd_regs (s : State) (k i n : Nat) : (s.diagAdd k i n).regs = s.regs := (rfl)
@[simp] theorem State.diagAdd_time (s : State) (k i n : Nat) : (s.diagAdd k i n).time = s.time := (rfl)
@[simp] theorem State.diagAdd_ctr (s : State) (k i n : Nat) : (s.diagAdd k i n).ctr = s.ctr := (rfl)
@[simp] theorem State.diagAdd_stamp (s : State) (k i n : Nat) : (s.diagAdd k i n).stamp = s.stamp := (rfl)
@[simp] theorem State.diagAdd_out (s : State) (k i n : Nat) : (s.diagAdd k i n).out = s.out := (rfl)
@[simp] theorem State.diagAdd_reports (s : State) (k i n : Nat) : (s.diagAdd k i n).reports = s.reports := (rfl)
@[simp] theorem State.diagAdd_levelNs (s : State) (k i n : Nat) : (s.diagAdd k i n).levelNs = s.levelNs := (rfl)
@[simp] theorem State.diagAdd_dram (s : State) (k i n : Nat) : (s.diagAdd k i n).dram = s.dram := (rfl)
@[simp] theorem State.diagAdd_chans (s : State) (k i n : Nat) : (s.diagAdd k i n).chans = s.chans := (rfl)
@[simp] theorem State.diagAdd_tier (s : State) (k i n : Nat) : (s.diagAdd k i n).tier = s.tier := (rfl)
@[simp] theorem State.diagAdd_keys (s : State) (k i n : Nat) : (s.diagAdd k i n).keys = s.keys := (rfl)
@[simp] theorem State.diagAdd_home (s : State) (k i n : Nat) : (s.diagAdd k i n).home = s.home := (rfl)
@[simp] theorem State.diagAdd_ports (s : State) (k i n : Nat) : (s.diagAdd k i n).ports = s.ports := (rfl)
@[simp] theorem State.diagAdd_pst (s : State) (k i n : Nat) : (s.diagAdd k i n).pst = s.pst := (rfl)
@[simp] theorem State.diagAdd_bobs (s : State) (k i n : Nat) : (s.diagAdd k i n).bobs = s.bobs := (rfl)
@[simp] theorem State.diagAdd_spools (s : State) (k i n : Nat) : (s.diagAdd k i n).spools = s.spools := (rfl)
@[simp] theorem State.diagAdd_lastSpool (s : State) (k i n : Nat) : (s.diagAdd k i n).lastSpool = s.lastSpool := (rfl)
@[simp] theorem State.diagAdd_progs (s : State) (k i n : Nat) : (s.diagAdd k i n).progs = s.progs := (rfl)
@[simp] theorem State.diagAdd_notices (s : State) (k i n : Nat) : (s.diagAdd k i n).notices = s.notices := (rfl)
@[simp] theorem State.diagAdd_seam (s : State) (k i n : Nat) : (s.diagAdd k i n).seam = s.seam := (rfl)
@[simp] theorem State.diagAdd_sram (s : State) (k i n : Nat) : (s.diagAdd k i n).sram = s.sram := (rfl)
@[simp] theorem State.diagAdd_fltTests (s : State) (k i n : Nat) : (s.diagAdd k i n).fltTests = s.fltTests := (rfl)
@[simp] theorem State.diagAdd_fltAge (s : State) (k i n : Nat) : (s.diagAdd k i n).fltAge = s.fltAge := (rfl)
@[simp] theorem State.diagAdd_fltStart (s : State) (k i n : Nat) : (s.diagAdd k i n).fltStart = s.fltStart := (rfl)
@[simp] theorem State.diagAdd_iln (s : State) (k i n : Nat) : (s.diagAdd k i n).iln = s.iln := (rfl)
@[simp] theorem State.diagAdd_cal (s : State) (k i n : Nat) : (s.diagAdd k i n).cal = s.cal := (rfl)
@[simp] theorem State.diagAdd_tap (s : State) (k i n : Nat) : (s.diagAdd k i n).tap = s.tap := (rfl)
@[simp] theorem State.diagAdd_mgmt (s : State) (k i n : Nat) : (s.diagAdd k i n).mgmt = s.mgmt := (rfl)
@[simp] theorem State.diagAdd_hems (s : State) (k i n : Nat) : (s.diagAdd k i n).hems = s.hems := (rfl)
@[simp] theorem State.diagAdd_pwr (s : State) (k i n : Nat) : (s.diagAdd k i n).pwr = s.pwr := (rfl)

/-! `diagLog` changes `diag` only. -/

@[simp] theorem State.diagLog_pending (s : State) (k i n : Nat) (x : Nat × Nat) : (s.diagLog k i n x).pending = s.pending := (rfl)
@[simp] theorem State.diagLog_regs (s : State) (k i n : Nat) (x : Nat × Nat) : (s.diagLog k i n x).regs = s.regs := (rfl)
@[simp] theorem State.diagLog_time (s : State) (k i n : Nat) (x : Nat × Nat) : (s.diagLog k i n x).time = s.time := (rfl)
@[simp] theorem State.diagLog_ctr (s : State) (k i n : Nat) (x : Nat × Nat) : (s.diagLog k i n x).ctr = s.ctr := (rfl)
@[simp] theorem State.diagLog_stamp (s : State) (k i n : Nat) (x : Nat × Nat) : (s.diagLog k i n x).stamp = s.stamp := (rfl)
@[simp] theorem State.diagLog_out (s : State) (k i n : Nat) (x : Nat × Nat) : (s.diagLog k i n x).out = s.out := (rfl)
@[simp] theorem State.diagLog_reports (s : State) (k i n : Nat) (x : Nat × Nat) : (s.diagLog k i n x).reports = s.reports := (rfl)
@[simp] theorem State.diagLog_levelNs (s : State) (k i n : Nat) (x : Nat × Nat) : (s.diagLog k i n x).levelNs = s.levelNs := (rfl)
@[simp] theorem State.diagLog_dram (s : State) (k i n : Nat) (x : Nat × Nat) : (s.diagLog k i n x).dram = s.dram := (rfl)
@[simp] theorem State.diagLog_chans (s : State) (k i n : Nat) (x : Nat × Nat) : (s.diagLog k i n x).chans = s.chans := (rfl)
@[simp] theorem State.diagLog_tier (s : State) (k i n : Nat) (x : Nat × Nat) : (s.diagLog k i n x).tier = s.tier := (rfl)
@[simp] theorem State.diagLog_keys (s : State) (k i n : Nat) (x : Nat × Nat) : (s.diagLog k i n x).keys = s.keys := (rfl)
@[simp] theorem State.diagLog_home (s : State) (k i n : Nat) (x : Nat × Nat) : (s.diagLog k i n x).home = s.home := (rfl)
@[simp] theorem State.diagLog_ports (s : State) (k i n : Nat) (x : Nat × Nat) : (s.diagLog k i n x).ports = s.ports := (rfl)
@[simp] theorem State.diagLog_pst (s : State) (k i n : Nat) (x : Nat × Nat) : (s.diagLog k i n x).pst = s.pst := (rfl)
@[simp] theorem State.diagLog_bobs (s : State) (k i n : Nat) (x : Nat × Nat) : (s.diagLog k i n x).bobs = s.bobs := (rfl)
@[simp] theorem State.diagLog_spools (s : State) (k i n : Nat) (x : Nat × Nat) : (s.diagLog k i n x).spools = s.spools := (rfl)
@[simp] theorem State.diagLog_lastSpool (s : State) (k i n : Nat) (x : Nat × Nat) : (s.diagLog k i n x).lastSpool = s.lastSpool := (rfl)
@[simp] theorem State.diagLog_progs (s : State) (k i n : Nat) (x : Nat × Nat) : (s.diagLog k i n x).progs = s.progs := (rfl)
@[simp] theorem State.diagLog_notices (s : State) (k i n : Nat) (x : Nat × Nat) : (s.diagLog k i n x).notices = s.notices := (rfl)
@[simp] theorem State.diagLog_seam (s : State) (k i n : Nat) (x : Nat × Nat) : (s.diagLog k i n x).seam = s.seam := (rfl)
@[simp] theorem State.diagLog_sram (s : State) (k i n : Nat) (x : Nat × Nat) : (s.diagLog k i n x).sram = s.sram := (rfl)
@[simp] theorem State.diagLog_fltTests (s : State) (k i n : Nat) (x : Nat × Nat) : (s.diagLog k i n x).fltTests = s.fltTests := (rfl)
@[simp] theorem State.diagLog_fltAge (s : State) (k i n : Nat) (x : Nat × Nat) : (s.diagLog k i n x).fltAge = s.fltAge := (rfl)
@[simp] theorem State.diagLog_fltStart (s : State) (k i n : Nat) (x : Nat × Nat) : (s.diagLog k i n x).fltStart = s.fltStart := (rfl)
@[simp] theorem State.diagLog_iln (s : State) (k i n : Nat) (x : Nat × Nat) : (s.diagLog k i n x).iln = s.iln := (rfl)
@[simp] theorem State.diagLog_cal (s : State) (k i n : Nat) (x : Nat × Nat) : (s.diagLog k i n x).cal = s.cal := (rfl)
@[simp] theorem State.diagLog_tap (s : State) (k i n : Nat) (x : Nat × Nat) : (s.diagLog k i n x).tap = s.tap := (rfl)
@[simp] theorem State.diagLog_mgmt (s : State) (k i n : Nat) (x : Nat × Nat) : (s.diagLog k i n x).mgmt = s.mgmt := (rfl)
@[simp] theorem State.diagLog_hems (s : State) (k i n : Nat) (x : Nat × Nat) : (s.diagLog k i n x).hems = s.hems := (rfl)
@[simp] theorem State.diagLog_pwr (s : State) (k i n : Nat) (x : Nat × Nat) : (s.diagLog k i n x).pwr = s.pwr := (rfl)

/-! `setChan` changes `chans` only. -/

@[simp] theorem State.setChan_pending (s : State) (c : Nat) (x : Chan) : (s.setChan c x).pending = s.pending := (rfl)
@[simp] theorem State.setChan_regs (s : State) (c : Nat) (x : Chan) : (s.setChan c x).regs = s.regs := (rfl)
@[simp] theorem State.setChan_time (s : State) (c : Nat) (x : Chan) : (s.setChan c x).time = s.time := (rfl)
@[simp] theorem State.setChan_ctr (s : State) (c : Nat) (x : Chan) : (s.setChan c x).ctr = s.ctr := (rfl)
@[simp] theorem State.setChan_stamp (s : State) (c : Nat) (x : Chan) : (s.setChan c x).stamp = s.stamp := (rfl)
@[simp] theorem State.setChan_out (s : State) (c : Nat) (x : Chan) : (s.setChan c x).out = s.out := (rfl)
@[simp] theorem State.setChan_reports (s : State) (c : Nat) (x : Chan) : (s.setChan c x).reports = s.reports := (rfl)
@[simp] theorem State.setChan_levelNs (s : State) (c : Nat) (x : Chan) : (s.setChan c x).levelNs = s.levelNs := (rfl)
@[simp] theorem State.setChan_dram (s : State) (c : Nat) (x : Chan) : (s.setChan c x).dram = s.dram := (rfl)
@[simp] theorem State.setChan_tier (s : State) (c : Nat) (x : Chan) : (s.setChan c x).tier = s.tier := (rfl)
@[simp] theorem State.setChan_keys (s : State) (c : Nat) (x : Chan) : (s.setChan c x).keys = s.keys := (rfl)
@[simp] theorem State.setChan_home (s : State) (c : Nat) (x : Chan) : (s.setChan c x).home = s.home := (rfl)
@[simp] theorem State.setChan_ports (s : State) (c : Nat) (x : Chan) : (s.setChan c x).ports = s.ports := (rfl)
@[simp] theorem State.setChan_pst (s : State) (c : Nat) (x : Chan) : (s.setChan c x).pst = s.pst := (rfl)
@[simp] theorem State.setChan_bobs (s : State) (c : Nat) (x : Chan) : (s.setChan c x).bobs = s.bobs := (rfl)
@[simp] theorem State.setChan_spools (s : State) (c : Nat) (x : Chan) : (s.setChan c x).spools = s.spools := (rfl)
@[simp] theorem State.setChan_lastSpool (s : State) (c : Nat) (x : Chan) : (s.setChan c x).lastSpool = s.lastSpool := (rfl)
@[simp] theorem State.setChan_progs (s : State) (c : Nat) (x : Chan) : (s.setChan c x).progs = s.progs := (rfl)
@[simp] theorem State.setChan_notices (s : State) (c : Nat) (x : Chan) : (s.setChan c x).notices = s.notices := (rfl)
@[simp] theorem State.setChan_seam (s : State) (c : Nat) (x : Chan) : (s.setChan c x).seam = s.seam := (rfl)
@[simp] theorem State.setChan_sram (s : State) (c : Nat) (x : Chan) : (s.setChan c x).sram = s.sram := (rfl)
@[simp] theorem State.setChan_fltTests (s : State) (c : Nat) (x : Chan) : (s.setChan c x).fltTests = s.fltTests := (rfl)
@[simp] theorem State.setChan_fltAge (s : State) (c : Nat) (x : Chan) : (s.setChan c x).fltAge = s.fltAge := (rfl)
@[simp] theorem State.setChan_fltStart (s : State) (c : Nat) (x : Chan) : (s.setChan c x).fltStart = s.fltStart := (rfl)
@[simp] theorem State.setChan_iln (s : State) (c : Nat) (x : Chan) : (s.setChan c x).iln = s.iln := (rfl)
@[simp] theorem State.setChan_cal (s : State) (c : Nat) (x : Chan) : (s.setChan c x).cal = s.cal := (rfl)
@[simp] theorem State.setChan_tap (s : State) (c : Nat) (x : Chan) : (s.setChan c x).tap = s.tap := (rfl)
@[simp] theorem State.setChan_mgmt (s : State) (c : Nat) (x : Chan) : (s.setChan c x).mgmt = s.mgmt := (rfl)
@[simp] theorem State.setChan_hems (s : State) (c : Nat) (x : Chan) : (s.setChan c x).hems = s.hems := (rfl)
@[simp] theorem State.setChan_pwr (s : State) (c : Nat) (x : Chan) : (s.setChan c x).pwr = s.pwr := (rfl)
@[simp] theorem State.setChan_diag (s : State) (c : Nat) (x : Chan) : (s.setChan c x).diag = s.diag := (rfl)

/-! `setPort` changes `ports` only. -/

@[simp] theorem State.setPort_pending (s : State) (p : Nat) (x : Port) : (s.setPort p x).pending = s.pending := (rfl)
@[simp] theorem State.setPort_regs (s : State) (p : Nat) (x : Port) : (s.setPort p x).regs = s.regs := (rfl)
@[simp] theorem State.setPort_time (s : State) (p : Nat) (x : Port) : (s.setPort p x).time = s.time := (rfl)
@[simp] theorem State.setPort_ctr (s : State) (p : Nat) (x : Port) : (s.setPort p x).ctr = s.ctr := (rfl)
@[simp] theorem State.setPort_stamp (s : State) (p : Nat) (x : Port) : (s.setPort p x).stamp = s.stamp := (rfl)
@[simp] theorem State.setPort_out (s : State) (p : Nat) (x : Port) : (s.setPort p x).out = s.out := (rfl)
@[simp] theorem State.setPort_reports (s : State) (p : Nat) (x : Port) : (s.setPort p x).reports = s.reports := (rfl)
@[simp] theorem State.setPort_levelNs (s : State) (p : Nat) (x : Port) : (s.setPort p x).levelNs = s.levelNs := (rfl)
@[simp] theorem State.setPort_dram (s : State) (p : Nat) (x : Port) : (s.setPort p x).dram = s.dram := (rfl)
@[simp] theorem State.setPort_chans (s : State) (p : Nat) (x : Port) : (s.setPort p x).chans = s.chans := (rfl)
@[simp] theorem State.setPort_tier (s : State) (p : Nat) (x : Port) : (s.setPort p x).tier = s.tier := (rfl)
@[simp] theorem State.setPort_keys (s : State) (p : Nat) (x : Port) : (s.setPort p x).keys = s.keys := (rfl)
@[simp] theorem State.setPort_home (s : State) (p : Nat) (x : Port) : (s.setPort p x).home = s.home := (rfl)
@[simp] theorem State.setPort_pst (s : State) (p : Nat) (x : Port) : (s.setPort p x).pst = s.pst := (rfl)
@[simp] theorem State.setPort_bobs (s : State) (p : Nat) (x : Port) : (s.setPort p x).bobs = s.bobs := (rfl)
@[simp] theorem State.setPort_spools (s : State) (p : Nat) (x : Port) : (s.setPort p x).spools = s.spools := (rfl)
@[simp] theorem State.setPort_lastSpool (s : State) (p : Nat) (x : Port) : (s.setPort p x).lastSpool = s.lastSpool := (rfl)
@[simp] theorem State.setPort_progs (s : State) (p : Nat) (x : Port) : (s.setPort p x).progs = s.progs := (rfl)
@[simp] theorem State.setPort_notices (s : State) (p : Nat) (x : Port) : (s.setPort p x).notices = s.notices := (rfl)
@[simp] theorem State.setPort_seam (s : State) (p : Nat) (x : Port) : (s.setPort p x).seam = s.seam := (rfl)
@[simp] theorem State.setPort_sram (s : State) (p : Nat) (x : Port) : (s.setPort p x).sram = s.sram := (rfl)
@[simp] theorem State.setPort_fltTests (s : State) (p : Nat) (x : Port) : (s.setPort p x).fltTests = s.fltTests := (rfl)
@[simp] theorem State.setPort_fltAge (s : State) (p : Nat) (x : Port) : (s.setPort p x).fltAge = s.fltAge := (rfl)
@[simp] theorem State.setPort_fltStart (s : State) (p : Nat) (x : Port) : (s.setPort p x).fltStart = s.fltStart := (rfl)
@[simp] theorem State.setPort_iln (s : State) (p : Nat) (x : Port) : (s.setPort p x).iln = s.iln := (rfl)
@[simp] theorem State.setPort_cal (s : State) (p : Nat) (x : Port) : (s.setPort p x).cal = s.cal := (rfl)
@[simp] theorem State.setPort_tap (s : State) (p : Nat) (x : Port) : (s.setPort p x).tap = s.tap := (rfl)
@[simp] theorem State.setPort_mgmt (s : State) (p : Nat) (x : Port) : (s.setPort p x).mgmt = s.mgmt := (rfl)
@[simp] theorem State.setPort_hems (s : State) (p : Nat) (x : Port) : (s.setPort p x).hems = s.hems := (rfl)
@[simp] theorem State.setPort_pwr (s : State) (p : Nat) (x : Port) : (s.setPort p x).pwr = s.pwr := (rfl)
@[simp] theorem State.setPort_diag (s : State) (p : Nat) (x : Port) : (s.setPort p x).diag = s.diag := (rfl)

/-! `setBob` changes `bobs` only. -/

@[simp] theorem State.setBob_pending (s : State) (b : Nat) (x : Bob) : (s.setBob b x).pending = s.pending := (rfl)
@[simp] theorem State.setBob_regs (s : State) (b : Nat) (x : Bob) : (s.setBob b x).regs = s.regs := (rfl)
@[simp] theorem State.setBob_time (s : State) (b : Nat) (x : Bob) : (s.setBob b x).time = s.time := (rfl)
@[simp] theorem State.setBob_ctr (s : State) (b : Nat) (x : Bob) : (s.setBob b x).ctr = s.ctr := (rfl)
@[simp] theorem State.setBob_stamp (s : State) (b : Nat) (x : Bob) : (s.setBob b x).stamp = s.stamp := (rfl)
@[simp] theorem State.setBob_out (s : State) (b : Nat) (x : Bob) : (s.setBob b x).out = s.out := (rfl)
@[simp] theorem State.setBob_reports (s : State) (b : Nat) (x : Bob) : (s.setBob b x).reports = s.reports := (rfl)
@[simp] theorem State.setBob_levelNs (s : State) (b : Nat) (x : Bob) : (s.setBob b x).levelNs = s.levelNs := (rfl)
@[simp] theorem State.setBob_dram (s : State) (b : Nat) (x : Bob) : (s.setBob b x).dram = s.dram := (rfl)
@[simp] theorem State.setBob_chans (s : State) (b : Nat) (x : Bob) : (s.setBob b x).chans = s.chans := (rfl)
@[simp] theorem State.setBob_tier (s : State) (b : Nat) (x : Bob) : (s.setBob b x).tier = s.tier := (rfl)
@[simp] theorem State.setBob_keys (s : State) (b : Nat) (x : Bob) : (s.setBob b x).keys = s.keys := (rfl)
@[simp] theorem State.setBob_home (s : State) (b : Nat) (x : Bob) : (s.setBob b x).home = s.home := (rfl)
@[simp] theorem State.setBob_ports (s : State) (b : Nat) (x : Bob) : (s.setBob b x).ports = s.ports := (rfl)
@[simp] theorem State.setBob_pst (s : State) (b : Nat) (x : Bob) : (s.setBob b x).pst = s.pst := (rfl)
@[simp] theorem State.setBob_spools (s : State) (b : Nat) (x : Bob) : (s.setBob b x).spools = s.spools := (rfl)
@[simp] theorem State.setBob_lastSpool (s : State) (b : Nat) (x : Bob) : (s.setBob b x).lastSpool = s.lastSpool := (rfl)
@[simp] theorem State.setBob_progs (s : State) (b : Nat) (x : Bob) : (s.setBob b x).progs = s.progs := (rfl)
@[simp] theorem State.setBob_notices (s : State) (b : Nat) (x : Bob) : (s.setBob b x).notices = s.notices := (rfl)
@[simp] theorem State.setBob_seam (s : State) (b : Nat) (x : Bob) : (s.setBob b x).seam = s.seam := (rfl)
@[simp] theorem State.setBob_sram (s : State) (b : Nat) (x : Bob) : (s.setBob b x).sram = s.sram := (rfl)
@[simp] theorem State.setBob_fltTests (s : State) (b : Nat) (x : Bob) : (s.setBob b x).fltTests = s.fltTests := (rfl)
@[simp] theorem State.setBob_fltAge (s : State) (b : Nat) (x : Bob) : (s.setBob b x).fltAge = s.fltAge := (rfl)
@[simp] theorem State.setBob_fltStart (s : State) (b : Nat) (x : Bob) : (s.setBob b x).fltStart = s.fltStart := (rfl)
@[simp] theorem State.setBob_iln (s : State) (b : Nat) (x : Bob) : (s.setBob b x).iln = s.iln := (rfl)
@[simp] theorem State.setBob_cal (s : State) (b : Nat) (x : Bob) : (s.setBob b x).cal = s.cal := (rfl)
@[simp] theorem State.setBob_tap (s : State) (b : Nat) (x : Bob) : (s.setBob b x).tap = s.tap := (rfl)
@[simp] theorem State.setBob_mgmt (s : State) (b : Nat) (x : Bob) : (s.setBob b x).mgmt = s.mgmt := (rfl)
@[simp] theorem State.setBob_hems (s : State) (b : Nat) (x : Bob) : (s.setBob b x).hems = s.hems := (rfl)
@[simp] theorem State.setBob_pwr (s : State) (b : Nat) (x : Bob) : (s.setBob b x).pwr = s.pwr := (rfl)
@[simp] theorem State.setBob_diag (s : State) (b : Nat) (x : Bob) : (s.setBob b x).diag = s.diag := (rfl)

/-! `setSpool` changes `spools` only. -/

@[simp] theorem State.setSpool_pending (s : State) (q : Nat) (x : Spool) : (s.setSpool q x).pending = s.pending := (rfl)
@[simp] theorem State.setSpool_regs (s : State) (q : Nat) (x : Spool) : (s.setSpool q x).regs = s.regs := (rfl)
@[simp] theorem State.setSpool_time (s : State) (q : Nat) (x : Spool) : (s.setSpool q x).time = s.time := (rfl)
@[simp] theorem State.setSpool_ctr (s : State) (q : Nat) (x : Spool) : (s.setSpool q x).ctr = s.ctr := (rfl)
@[simp] theorem State.setSpool_stamp (s : State) (q : Nat) (x : Spool) : (s.setSpool q x).stamp = s.stamp := (rfl)
@[simp] theorem State.setSpool_out (s : State) (q : Nat) (x : Spool) : (s.setSpool q x).out = s.out := (rfl)
@[simp] theorem State.setSpool_reports (s : State) (q : Nat) (x : Spool) : (s.setSpool q x).reports = s.reports := (rfl)
@[simp] theorem State.setSpool_levelNs (s : State) (q : Nat) (x : Spool) : (s.setSpool q x).levelNs = s.levelNs := (rfl)
@[simp] theorem State.setSpool_dram (s : State) (q : Nat) (x : Spool) : (s.setSpool q x).dram = s.dram := (rfl)
@[simp] theorem State.setSpool_chans (s : State) (q : Nat) (x : Spool) : (s.setSpool q x).chans = s.chans := (rfl)
@[simp] theorem State.setSpool_tier (s : State) (q : Nat) (x : Spool) : (s.setSpool q x).tier = s.tier := (rfl)
@[simp] theorem State.setSpool_keys (s : State) (q : Nat) (x : Spool) : (s.setSpool q x).keys = s.keys := (rfl)
@[simp] theorem State.setSpool_home (s : State) (q : Nat) (x : Spool) : (s.setSpool q x).home = s.home := (rfl)
@[simp] theorem State.setSpool_ports (s : State) (q : Nat) (x : Spool) : (s.setSpool q x).ports = s.ports := (rfl)
@[simp] theorem State.setSpool_pst (s : State) (q : Nat) (x : Spool) : (s.setSpool q x).pst = s.pst := (rfl)
@[simp] theorem State.setSpool_bobs (s : State) (q : Nat) (x : Spool) : (s.setSpool q x).bobs = s.bobs := (rfl)
@[simp] theorem State.setSpool_lastSpool (s : State) (q : Nat) (x : Spool) : (s.setSpool q x).lastSpool = s.lastSpool := (rfl)
@[simp] theorem State.setSpool_progs (s : State) (q : Nat) (x : Spool) : (s.setSpool q x).progs = s.progs := (rfl)
@[simp] theorem State.setSpool_notices (s : State) (q : Nat) (x : Spool) : (s.setSpool q x).notices = s.notices := (rfl)
@[simp] theorem State.setSpool_seam (s : State) (q : Nat) (x : Spool) : (s.setSpool q x).seam = s.seam := (rfl)
@[simp] theorem State.setSpool_sram (s : State) (q : Nat) (x : Spool) : (s.setSpool q x).sram = s.sram := (rfl)
@[simp] theorem State.setSpool_fltTests (s : State) (q : Nat) (x : Spool) : (s.setSpool q x).fltTests = s.fltTests := (rfl)
@[simp] theorem State.setSpool_fltAge (s : State) (q : Nat) (x : Spool) : (s.setSpool q x).fltAge = s.fltAge := (rfl)
@[simp] theorem State.setSpool_fltStart (s : State) (q : Nat) (x : Spool) : (s.setSpool q x).fltStart = s.fltStart := (rfl)
@[simp] theorem State.setSpool_iln (s : State) (q : Nat) (x : Spool) : (s.setSpool q x).iln = s.iln := (rfl)
@[simp] theorem State.setSpool_cal (s : State) (q : Nat) (x : Spool) : (s.setSpool q x).cal = s.cal := (rfl)
@[simp] theorem State.setSpool_tap (s : State) (q : Nat) (x : Spool) : (s.setSpool q x).tap = s.tap := (rfl)
@[simp] theorem State.setSpool_mgmt (s : State) (q : Nat) (x : Spool) : (s.setSpool q x).mgmt = s.mgmt := (rfl)
@[simp] theorem State.setSpool_hems (s : State) (q : Nat) (x : Spool) : (s.setSpool q x).hems = s.hems := (rfl)
@[simp] theorem State.setSpool_pwr (s : State) (q : Nat) (x : Spool) : (s.setSpool q x).pwr = s.pwr := (rfl)
@[simp] theorem State.setSpool_diag (s : State) (q : Nat) (x : Spool) : (s.setSpool q x).diag = s.diag := (rfl)

/-! `setHem` changes `hems` only. -/

@[simp] theorem State.setHem_pending (s : State) (h : Nat) (x : Hem) : (s.setHem h x).pending = s.pending := (rfl)
@[simp] theorem State.setHem_regs (s : State) (h : Nat) (x : Hem) : (s.setHem h x).regs = s.regs := (rfl)
@[simp] theorem State.setHem_time (s : State) (h : Nat) (x : Hem) : (s.setHem h x).time = s.time := (rfl)
@[simp] theorem State.setHem_ctr (s : State) (h : Nat) (x : Hem) : (s.setHem h x).ctr = s.ctr := (rfl)
@[simp] theorem State.setHem_stamp (s : State) (h : Nat) (x : Hem) : (s.setHem h x).stamp = s.stamp := (rfl)
@[simp] theorem State.setHem_out (s : State) (h : Nat) (x : Hem) : (s.setHem h x).out = s.out := (rfl)
@[simp] theorem State.setHem_reports (s : State) (h : Nat) (x : Hem) : (s.setHem h x).reports = s.reports := (rfl)
@[simp] theorem State.setHem_levelNs (s : State) (h : Nat) (x : Hem) : (s.setHem h x).levelNs = s.levelNs := (rfl)
@[simp] theorem State.setHem_dram (s : State) (h : Nat) (x : Hem) : (s.setHem h x).dram = s.dram := (rfl)
@[simp] theorem State.setHem_chans (s : State) (h : Nat) (x : Hem) : (s.setHem h x).chans = s.chans := (rfl)
@[simp] theorem State.setHem_tier (s : State) (h : Nat) (x : Hem) : (s.setHem h x).tier = s.tier := (rfl)
@[simp] theorem State.setHem_keys (s : State) (h : Nat) (x : Hem) : (s.setHem h x).keys = s.keys := (rfl)
@[simp] theorem State.setHem_home (s : State) (h : Nat) (x : Hem) : (s.setHem h x).home = s.home := (rfl)
@[simp] theorem State.setHem_ports (s : State) (h : Nat) (x : Hem) : (s.setHem h x).ports = s.ports := (rfl)
@[simp] theorem State.setHem_pst (s : State) (h : Nat) (x : Hem) : (s.setHem h x).pst = s.pst := (rfl)
@[simp] theorem State.setHem_bobs (s : State) (h : Nat) (x : Hem) : (s.setHem h x).bobs = s.bobs := (rfl)
@[simp] theorem State.setHem_spools (s : State) (h : Nat) (x : Hem) : (s.setHem h x).spools = s.spools := (rfl)
@[simp] theorem State.setHem_lastSpool (s : State) (h : Nat) (x : Hem) : (s.setHem h x).lastSpool = s.lastSpool := (rfl)
@[simp] theorem State.setHem_progs (s : State) (h : Nat) (x : Hem) : (s.setHem h x).progs = s.progs := (rfl)
@[simp] theorem State.setHem_notices (s : State) (h : Nat) (x : Hem) : (s.setHem h x).notices = s.notices := (rfl)
@[simp] theorem State.setHem_seam (s : State) (h : Nat) (x : Hem) : (s.setHem h x).seam = s.seam := (rfl)
@[simp] theorem State.setHem_sram (s : State) (h : Nat) (x : Hem) : (s.setHem h x).sram = s.sram := (rfl)
@[simp] theorem State.setHem_fltTests (s : State) (h : Nat) (x : Hem) : (s.setHem h x).fltTests = s.fltTests := (rfl)
@[simp] theorem State.setHem_fltAge (s : State) (h : Nat) (x : Hem) : (s.setHem h x).fltAge = s.fltAge := (rfl)
@[simp] theorem State.setHem_fltStart (s : State) (h : Nat) (x : Hem) : (s.setHem h x).fltStart = s.fltStart := (rfl)
@[simp] theorem State.setHem_iln (s : State) (h : Nat) (x : Hem) : (s.setHem h x).iln = s.iln := (rfl)
@[simp] theorem State.setHem_cal (s : State) (h : Nat) (x : Hem) : (s.setHem h x).cal = s.cal := (rfl)
@[simp] theorem State.setHem_tap (s : State) (h : Nat) (x : Hem) : (s.setHem h x).tap = s.tap := (rfl)
@[simp] theorem State.setHem_mgmt (s : State) (h : Nat) (x : Hem) : (s.setHem h x).mgmt = s.mgmt := (rfl)
@[simp] theorem State.setHem_pwr (s : State) (h : Nat) (x : Hem) : (s.setHem h x).pwr = s.pwr := (rfl)
@[simp] theorem State.setHem_diag (s : State) (h : Nat) (x : Hem) : (s.setHem h x).diag = s.diag := (rfl)

/-! `setSp` changes `seam` only. -/

@[simp] theorem State.setSp_pending (s : State) (p : Nat) (x : SeamPort) : (s.setSp p x).pending = s.pending := (rfl)
@[simp] theorem State.setSp_regs (s : State) (p : Nat) (x : SeamPort) : (s.setSp p x).regs = s.regs := (rfl)
@[simp] theorem State.setSp_time (s : State) (p : Nat) (x : SeamPort) : (s.setSp p x).time = s.time := (rfl)
@[simp] theorem State.setSp_ctr (s : State) (p : Nat) (x : SeamPort) : (s.setSp p x).ctr = s.ctr := (rfl)
@[simp] theorem State.setSp_stamp (s : State) (p : Nat) (x : SeamPort) : (s.setSp p x).stamp = s.stamp := (rfl)
@[simp] theorem State.setSp_out (s : State) (p : Nat) (x : SeamPort) : (s.setSp p x).out = s.out := (rfl)
@[simp] theorem State.setSp_reports (s : State) (p : Nat) (x : SeamPort) : (s.setSp p x).reports = s.reports := (rfl)
@[simp] theorem State.setSp_levelNs (s : State) (p : Nat) (x : SeamPort) : (s.setSp p x).levelNs = s.levelNs := (rfl)
@[simp] theorem State.setSp_dram (s : State) (p : Nat) (x : SeamPort) : (s.setSp p x).dram = s.dram := (rfl)
@[simp] theorem State.setSp_chans (s : State) (p : Nat) (x : SeamPort) : (s.setSp p x).chans = s.chans := (rfl)
@[simp] theorem State.setSp_tier (s : State) (p : Nat) (x : SeamPort) : (s.setSp p x).tier = s.tier := (rfl)
@[simp] theorem State.setSp_keys (s : State) (p : Nat) (x : SeamPort) : (s.setSp p x).keys = s.keys := (rfl)
@[simp] theorem State.setSp_home (s : State) (p : Nat) (x : SeamPort) : (s.setSp p x).home = s.home := (rfl)
@[simp] theorem State.setSp_ports (s : State) (p : Nat) (x : SeamPort) : (s.setSp p x).ports = s.ports := (rfl)
@[simp] theorem State.setSp_pst (s : State) (p : Nat) (x : SeamPort) : (s.setSp p x).pst = s.pst := (rfl)
@[simp] theorem State.setSp_bobs (s : State) (p : Nat) (x : SeamPort) : (s.setSp p x).bobs = s.bobs := (rfl)
@[simp] theorem State.setSp_spools (s : State) (p : Nat) (x : SeamPort) : (s.setSp p x).spools = s.spools := (rfl)
@[simp] theorem State.setSp_lastSpool (s : State) (p : Nat) (x : SeamPort) : (s.setSp p x).lastSpool = s.lastSpool := (rfl)
@[simp] theorem State.setSp_progs (s : State) (p : Nat) (x : SeamPort) : (s.setSp p x).progs = s.progs := (rfl)
@[simp] theorem State.setSp_notices (s : State) (p : Nat) (x : SeamPort) : (s.setSp p x).notices = s.notices := (rfl)
@[simp] theorem State.setSp_sram (s : State) (p : Nat) (x : SeamPort) : (s.setSp p x).sram = s.sram := (rfl)
@[simp] theorem State.setSp_fltTests (s : State) (p : Nat) (x : SeamPort) : (s.setSp p x).fltTests = s.fltTests := (rfl)
@[simp] theorem State.setSp_fltAge (s : State) (p : Nat) (x : SeamPort) : (s.setSp p x).fltAge = s.fltAge := (rfl)
@[simp] theorem State.setSp_fltStart (s : State) (p : Nat) (x : SeamPort) : (s.setSp p x).fltStart = s.fltStart := (rfl)
@[simp] theorem State.setSp_iln (s : State) (p : Nat) (x : SeamPort) : (s.setSp p x).iln = s.iln := (rfl)
@[simp] theorem State.setSp_cal (s : State) (p : Nat) (x : SeamPort) : (s.setSp p x).cal = s.cal := (rfl)
@[simp] theorem State.setSp_tap (s : State) (p : Nat) (x : SeamPort) : (s.setSp p x).tap = s.tap := (rfl)
@[simp] theorem State.setSp_mgmt (s : State) (p : Nat) (x : SeamPort) : (s.setSp p x).mgmt = s.mgmt := (rfl)
@[simp] theorem State.setSp_hems (s : State) (p : Nat) (x : SeamPort) : (s.setSp p x).hems = s.hems := (rfl)
@[simp] theorem State.setSp_pwr (s : State) (p : Nat) (x : SeamPort) : (s.setSp p x).pwr = s.pwr := (rfl)
@[simp] theorem State.setSp_diag (s : State) (p : Nat) (x : SeamPort) : (s.setSp p x).diag = s.diag := (rfl)

/-! `setCalp` changes `cal` only. -/

@[simp] theorem State.setCalp_pending (s : State) (p : Nat) (x : CalPort) : (s.setCalp p x).pending = s.pending := (rfl)
@[simp] theorem State.setCalp_regs (s : State) (p : Nat) (x : CalPort) : (s.setCalp p x).regs = s.regs := (rfl)
@[simp] theorem State.setCalp_time (s : State) (p : Nat) (x : CalPort) : (s.setCalp p x).time = s.time := (rfl)
@[simp] theorem State.setCalp_ctr (s : State) (p : Nat) (x : CalPort) : (s.setCalp p x).ctr = s.ctr := (rfl)
@[simp] theorem State.setCalp_stamp (s : State) (p : Nat) (x : CalPort) : (s.setCalp p x).stamp = s.stamp := (rfl)
@[simp] theorem State.setCalp_out (s : State) (p : Nat) (x : CalPort) : (s.setCalp p x).out = s.out := (rfl)
@[simp] theorem State.setCalp_reports (s : State) (p : Nat) (x : CalPort) : (s.setCalp p x).reports = s.reports := (rfl)
@[simp] theorem State.setCalp_levelNs (s : State) (p : Nat) (x : CalPort) : (s.setCalp p x).levelNs = s.levelNs := (rfl)
@[simp] theorem State.setCalp_dram (s : State) (p : Nat) (x : CalPort) : (s.setCalp p x).dram = s.dram := (rfl)
@[simp] theorem State.setCalp_chans (s : State) (p : Nat) (x : CalPort) : (s.setCalp p x).chans = s.chans := (rfl)
@[simp] theorem State.setCalp_tier (s : State) (p : Nat) (x : CalPort) : (s.setCalp p x).tier = s.tier := (rfl)
@[simp] theorem State.setCalp_keys (s : State) (p : Nat) (x : CalPort) : (s.setCalp p x).keys = s.keys := (rfl)
@[simp] theorem State.setCalp_home (s : State) (p : Nat) (x : CalPort) : (s.setCalp p x).home = s.home := (rfl)
@[simp] theorem State.setCalp_ports (s : State) (p : Nat) (x : CalPort) : (s.setCalp p x).ports = s.ports := (rfl)
@[simp] theorem State.setCalp_pst (s : State) (p : Nat) (x : CalPort) : (s.setCalp p x).pst = s.pst := (rfl)
@[simp] theorem State.setCalp_bobs (s : State) (p : Nat) (x : CalPort) : (s.setCalp p x).bobs = s.bobs := (rfl)
@[simp] theorem State.setCalp_spools (s : State) (p : Nat) (x : CalPort) : (s.setCalp p x).spools = s.spools := (rfl)
@[simp] theorem State.setCalp_lastSpool (s : State) (p : Nat) (x : CalPort) : (s.setCalp p x).lastSpool = s.lastSpool := (rfl)
@[simp] theorem State.setCalp_progs (s : State) (p : Nat) (x : CalPort) : (s.setCalp p x).progs = s.progs := (rfl)
@[simp] theorem State.setCalp_notices (s : State) (p : Nat) (x : CalPort) : (s.setCalp p x).notices = s.notices := (rfl)
@[simp] theorem State.setCalp_seam (s : State) (p : Nat) (x : CalPort) : (s.setCalp p x).seam = s.seam := (rfl)
@[simp] theorem State.setCalp_sram (s : State) (p : Nat) (x : CalPort) : (s.setCalp p x).sram = s.sram := (rfl)
@[simp] theorem State.setCalp_fltTests (s : State) (p : Nat) (x : CalPort) : (s.setCalp p x).fltTests = s.fltTests := (rfl)
@[simp] theorem State.setCalp_fltAge (s : State) (p : Nat) (x : CalPort) : (s.setCalp p x).fltAge = s.fltAge := (rfl)
@[simp] theorem State.setCalp_fltStart (s : State) (p : Nat) (x : CalPort) : (s.setCalp p x).fltStart = s.fltStart := (rfl)
@[simp] theorem State.setCalp_iln (s : State) (p : Nat) (x : CalPort) : (s.setCalp p x).iln = s.iln := (rfl)
@[simp] theorem State.setCalp_tap (s : State) (p : Nat) (x : CalPort) : (s.setCalp p x).tap = s.tap := (rfl)
@[simp] theorem State.setCalp_mgmt (s : State) (p : Nat) (x : CalPort) : (s.setCalp p x).mgmt = s.mgmt := (rfl)
@[simp] theorem State.setCalp_hems (s : State) (p : Nat) (x : CalPort) : (s.setCalp p x).hems = s.hems := (rfl)
@[simp] theorem State.setCalp_pwr (s : State) (p : Nat) (x : CalPort) : (s.setCalp p x).pwr = s.pwr := (rfl)
@[simp] theorem State.setCalp_diag (s : State) (p : Nat) (x : CalPort) : (s.setCalp p x).diag = s.diag := (rfl)

/-! `setSlot` changes `keys` only. -/

@[simp] theorem State.setSlot_pending (s : State) (k e : Nat) (x : KeySlot) : (s.setSlot k e x).pending = s.pending := (rfl)
@[simp] theorem State.setSlot_regs (s : State) (k e : Nat) (x : KeySlot) : (s.setSlot k e x).regs = s.regs := (rfl)
@[simp] theorem State.setSlot_time (s : State) (k e : Nat) (x : KeySlot) : (s.setSlot k e x).time = s.time := (rfl)
@[simp] theorem State.setSlot_ctr (s : State) (k e : Nat) (x : KeySlot) : (s.setSlot k e x).ctr = s.ctr := (rfl)
@[simp] theorem State.setSlot_stamp (s : State) (k e : Nat) (x : KeySlot) : (s.setSlot k e x).stamp = s.stamp := (rfl)
@[simp] theorem State.setSlot_out (s : State) (k e : Nat) (x : KeySlot) : (s.setSlot k e x).out = s.out := (rfl)
@[simp] theorem State.setSlot_reports (s : State) (k e : Nat) (x : KeySlot) : (s.setSlot k e x).reports = s.reports := (rfl)
@[simp] theorem State.setSlot_levelNs (s : State) (k e : Nat) (x : KeySlot) : (s.setSlot k e x).levelNs = s.levelNs := (rfl)
@[simp] theorem State.setSlot_dram (s : State) (k e : Nat) (x : KeySlot) : (s.setSlot k e x).dram = s.dram := (rfl)
@[simp] theorem State.setSlot_chans (s : State) (k e : Nat) (x : KeySlot) : (s.setSlot k e x).chans = s.chans := (rfl)
@[simp] theorem State.setSlot_tier (s : State) (k e : Nat) (x : KeySlot) : (s.setSlot k e x).tier = s.tier := (rfl)
@[simp] theorem State.setSlot_home (s : State) (k e : Nat) (x : KeySlot) : (s.setSlot k e x).home = s.home := (rfl)
@[simp] theorem State.setSlot_ports (s : State) (k e : Nat) (x : KeySlot) : (s.setSlot k e x).ports = s.ports := (rfl)
@[simp] theorem State.setSlot_pst (s : State) (k e : Nat) (x : KeySlot) : (s.setSlot k e x).pst = s.pst := (rfl)
@[simp] theorem State.setSlot_bobs (s : State) (k e : Nat) (x : KeySlot) : (s.setSlot k e x).bobs = s.bobs := (rfl)
@[simp] theorem State.setSlot_spools (s : State) (k e : Nat) (x : KeySlot) : (s.setSlot k e x).spools = s.spools := (rfl)
@[simp] theorem State.setSlot_lastSpool (s : State) (k e : Nat) (x : KeySlot) : (s.setSlot k e x).lastSpool = s.lastSpool := (rfl)
@[simp] theorem State.setSlot_progs (s : State) (k e : Nat) (x : KeySlot) : (s.setSlot k e x).progs = s.progs := (rfl)
@[simp] theorem State.setSlot_notices (s : State) (k e : Nat) (x : KeySlot) : (s.setSlot k e x).notices = s.notices := (rfl)
@[simp] theorem State.setSlot_seam (s : State) (k e : Nat) (x : KeySlot) : (s.setSlot k e x).seam = s.seam := (rfl)
@[simp] theorem State.setSlot_sram (s : State) (k e : Nat) (x : KeySlot) : (s.setSlot k e x).sram = s.sram := (rfl)
@[simp] theorem State.setSlot_fltTests (s : State) (k e : Nat) (x : KeySlot) : (s.setSlot k e x).fltTests = s.fltTests := (rfl)
@[simp] theorem State.setSlot_fltAge (s : State) (k e : Nat) (x : KeySlot) : (s.setSlot k e x).fltAge = s.fltAge := (rfl)
@[simp] theorem State.setSlot_fltStart (s : State) (k e : Nat) (x : KeySlot) : (s.setSlot k e x).fltStart = s.fltStart := (rfl)
@[simp] theorem State.setSlot_iln (s : State) (k e : Nat) (x : KeySlot) : (s.setSlot k e x).iln = s.iln := (rfl)
@[simp] theorem State.setSlot_cal (s : State) (k e : Nat) (x : KeySlot) : (s.setSlot k e x).cal = s.cal := (rfl)
@[simp] theorem State.setSlot_tap (s : State) (k e : Nat) (x : KeySlot) : (s.setSlot k e x).tap = s.tap := (rfl)
@[simp] theorem State.setSlot_mgmt (s : State) (k e : Nat) (x : KeySlot) : (s.setSlot k e x).mgmt = s.mgmt := (rfl)
@[simp] theorem State.setSlot_hems (s : State) (k e : Nat) (x : KeySlot) : (s.setSlot k e x).hems = s.hems := (rfl)
@[simp] theorem State.setSlot_pwr (s : State) (k e : Nat) (x : KeySlot) : (s.setSlot k e x).pwr = s.pwr := (rfl)
@[simp] theorem State.setSlot_diag (s : State) (k e : Nat) (x : KeySlot) : (s.setSlot k e x).diag = s.diag := (rfl)

/-! `put`, `report` and `reportAt` add to their lists. -/

@[simp] theorem State.put_out (s : State) (o : Out) : (s.put o).out = o :: s.out := (rfl)
@[simp] theorem State.report_reports (s : State) (a b c d e : Nat) :
    (s.report a b c d e).reports = s.reports ++ [{ src := a, elem := b, code := c, addr := d, detail := e, level := none }] := (rfl)
@[simp] theorem State.reportAt_reports (s : State) (l a b c d e : Nat) :
    (s.reportAt l a b c d e).reports = s.reports ++ [{ src := a, elem := b, code := c, addr := d, detail := e, level := some l }] := (rfl)

/-! An event changes the event counters and the marks of level mode only. -/

@[simp] theorem State.bump_pending (s : State) (e : Nat) : (s.bump e).pending = s.pending := by
  rw [State.bump]; split <;> simp only [State.fset_pending]
@[simp] theorem State.bump_time (s : State) (e : Nat) : (s.bump e).time = s.time := by
  rw [State.bump]; split <;> simp only [State.fset_time]
@[simp] theorem State.bump_ctr (s : State) (e : Nat) : (s.bump e).ctr = s.ctr := by
  rw [State.bump]; split <;> simp only [State.fset_ctr]
@[simp] theorem State.bump_stamp (s : State) (e : Nat) : (s.bump e).stamp = s.stamp := by
  rw [State.bump]; split <;> simp only [State.fset_stamp]
@[simp] theorem State.bump_out (s : State) (e : Nat) : (s.bump e).out = s.out := by
  rw [State.bump]; split <;> simp only [State.fset_out]
@[simp] theorem State.bump_reports (s : State) (e : Nat) : (s.bump e).reports = s.reports := by
  rw [State.bump]; split <;> simp only [State.fset_reports]
@[simp] theorem State.bump_levelNs (s : State) (e : Nat) : (s.bump e).levelNs = s.levelNs := by
  rw [State.bump]; split <;> simp only [State.fset_levelNs]
@[simp] theorem State.bump_dram (s : State) (e : Nat) : (s.bump e).dram = s.dram := by
  rw [State.bump]; split <;> simp only [State.fset_dram]
@[simp] theorem State.bump_chans (s : State) (e : Nat) : (s.bump e).chans = s.chans := by
  rw [State.bump]; split <;> simp only [State.fset_chans]
@[simp] theorem State.bump_tier (s : State) (e : Nat) : (s.bump e).tier = s.tier := by
  rw [State.bump]; split <;> simp only [State.fset_tier]
@[simp] theorem State.bump_keys (s : State) (e : Nat) : (s.bump e).keys = s.keys := by
  rw [State.bump]; split <;> simp only [State.fset_keys]
@[simp] theorem State.bump_home (s : State) (e : Nat) : (s.bump e).home = s.home := by
  rw [State.bump]; split <;> simp only [State.fset_home]
@[simp] theorem State.bump_ports (s : State) (e : Nat) : (s.bump e).ports = s.ports := by
  rw [State.bump]; split <;> simp only [State.fset_ports]
@[simp] theorem State.bump_pst (s : State) (e : Nat) : (s.bump e).pst = s.pst := by
  rw [State.bump]; split <;> simp only [State.fset_pst]
@[simp] theorem State.bump_bobs (s : State) (e : Nat) : (s.bump e).bobs = s.bobs := by
  rw [State.bump]; split <;> simp only [State.fset_bobs]
@[simp] theorem State.bump_spools (s : State) (e : Nat) : (s.bump e).spools = s.spools := by
  rw [State.bump]; split <;> simp only [State.fset_spools]
@[simp] theorem State.bump_lastSpool (s : State) (e : Nat) : (s.bump e).lastSpool = s.lastSpool := by
  rw [State.bump]; split <;> simp only [State.fset_lastSpool]
@[simp] theorem State.bump_progs (s : State) (e : Nat) : (s.bump e).progs = s.progs := by
  rw [State.bump]; split <;> simp only [State.fset_progs]
@[simp] theorem State.bump_notices (s : State) (e : Nat) : (s.bump e).notices = s.notices := by
  rw [State.bump]; split <;> simp only [State.fset_notices]
@[simp] theorem State.bump_seam (s : State) (e : Nat) : (s.bump e).seam = s.seam := by
  rw [State.bump]; split <;> simp only [State.fset_seam]
@[simp] theorem State.bump_sram (s : State) (e : Nat) : (s.bump e).sram = s.sram := by
  rw [State.bump]; split <;> simp only [State.fset_sram]
@[simp] theorem State.bump_fltTests (s : State) (e : Nat) : (s.bump e).fltTests = s.fltTests := by
  rw [State.bump]; split <;> simp only [State.fset_fltTests]
@[simp] theorem State.bump_fltAge (s : State) (e : Nat) : (s.bump e).fltAge = s.fltAge := by
  rw [State.bump]; split <;> simp only [State.fset_fltAge]
@[simp] theorem State.bump_fltStart (s : State) (e : Nat) : (s.bump e).fltStart = s.fltStart := by
  rw [State.bump]; split <;> simp only [State.fset_fltStart]
@[simp] theorem State.bump_iln (s : State) (e : Nat) : (s.bump e).iln = s.iln := by
  rw [State.bump]; split <;> simp only [State.fset_iln]
@[simp] theorem State.bump_cal (s : State) (e : Nat) : (s.bump e).cal = s.cal := by
  rw [State.bump]; split <;> simp only [State.fset_cal]
@[simp] theorem State.bump_tap (s : State) (e : Nat) : (s.bump e).tap = s.tap := by
  rw [State.bump]; split <;> simp only [State.fset_tap]
@[simp] theorem State.bump_mgmt (s : State) (e : Nat) : (s.bump e).mgmt = s.mgmt := by
  rw [State.bump]; split <;> simp only [State.fset_mgmt]
@[simp] theorem State.bump_hems (s : State) (e : Nat) : (s.bump e).hems = s.hems := by
  rw [State.bump]; split <;> simp only [State.fset_hems]
@[simp] theorem State.bump_pwr (s : State) (e : Nat) : (s.bump e).pwr = s.pwr := by
  rw [State.bump]; split <;> simp only [State.fset_pwr]
@[simp] theorem State.bump_diag (s : State) (e : Nat) : (s.bump e).diag = s.diag := by
  rw [State.bump]; split <;> simp only [State.fset_diag]

@[simp] theorem State.ev_pending (s : State) (e : Nat) : (s.ev e).pending = s.pending := by
  rw [State.ev]; repeat' split
  all_goals simp only [State.bump_pending]
@[simp] theorem State.ev_time (s : State) (e : Nat) : (s.ev e).time = s.time := by
  rw [State.ev]; repeat' split
  all_goals simp only [State.bump_time]
@[simp] theorem State.ev_ctr (s : State) (e : Nat) : (s.ev e).ctr = s.ctr := by
  rw [State.ev]; repeat' split
  all_goals simp only [State.bump_ctr]
@[simp] theorem State.ev_stamp (s : State) (e : Nat) : (s.ev e).stamp = s.stamp := by
  rw [State.ev]; repeat' split
  all_goals simp only [State.bump_stamp]
@[simp] theorem State.ev_out (s : State) (e : Nat) : (s.ev e).out = s.out := by
  rw [State.ev]; repeat' split
  all_goals simp only [State.bump_out]
@[simp] theorem State.ev_reports (s : State) (e : Nat) : (s.ev e).reports = s.reports := by
  rw [State.ev]; repeat' split
  all_goals simp only [State.bump_reports]
@[simp] theorem State.ev_dram (s : State) (e : Nat) : (s.ev e).dram = s.dram := by
  rw [State.ev]; repeat' split
  all_goals simp only [State.bump_dram]
@[simp] theorem State.ev_chans (s : State) (e : Nat) : (s.ev e).chans = s.chans := by
  rw [State.ev]; repeat' split
  all_goals simp only [State.bump_chans]
@[simp] theorem State.ev_tier (s : State) (e : Nat) : (s.ev e).tier = s.tier := by
  rw [State.ev]; repeat' split
  all_goals simp only [State.bump_tier]
@[simp] theorem State.ev_keys (s : State) (e : Nat) : (s.ev e).keys = s.keys := by
  rw [State.ev]; repeat' split
  all_goals simp only [State.bump_keys]
@[simp] theorem State.ev_home (s : State) (e : Nat) : (s.ev e).home = s.home := by
  rw [State.ev]; repeat' split
  all_goals simp only [State.bump_home]
@[simp] theorem State.ev_ports (s : State) (e : Nat) : (s.ev e).ports = s.ports := by
  rw [State.ev]; repeat' split
  all_goals simp only [State.bump_ports]
@[simp] theorem State.ev_pst (s : State) (e : Nat) : (s.ev e).pst = s.pst := by
  rw [State.ev]; repeat' split
  all_goals simp only [State.bump_pst]
@[simp] theorem State.ev_bobs (s : State) (e : Nat) : (s.ev e).bobs = s.bobs := by
  rw [State.ev]; repeat' split
  all_goals simp only [State.bump_bobs]
@[simp] theorem State.ev_spools (s : State) (e : Nat) : (s.ev e).spools = s.spools := by
  rw [State.ev]; repeat' split
  all_goals simp only [State.bump_spools]
@[simp] theorem State.ev_lastSpool (s : State) (e : Nat) : (s.ev e).lastSpool = s.lastSpool := by
  rw [State.ev]; repeat' split
  all_goals simp only [State.bump_lastSpool]
@[simp] theorem State.ev_progs (s : State) (e : Nat) : (s.ev e).progs = s.progs := by
  rw [State.ev]; repeat' split
  all_goals simp only [State.bump_progs]
@[simp] theorem State.ev_notices (s : State) (e : Nat) : (s.ev e).notices = s.notices := by
  rw [State.ev]; repeat' split
  all_goals simp only [State.bump_notices]
@[simp] theorem State.ev_seam (s : State) (e : Nat) : (s.ev e).seam = s.seam := by
  rw [State.ev]; repeat' split
  all_goals simp only [State.bump_seam]
@[simp] theorem State.ev_sram (s : State) (e : Nat) : (s.ev e).sram = s.sram := by
  rw [State.ev]; repeat' split
  all_goals simp only [State.bump_sram]
@[simp] theorem State.ev_fltTests (s : State) (e : Nat) : (s.ev e).fltTests = s.fltTests := by
  rw [State.ev]; repeat' split
  all_goals simp only [State.bump_fltTests]
@[simp] theorem State.ev_fltAge (s : State) (e : Nat) : (s.ev e).fltAge = s.fltAge := by
  rw [State.ev]; repeat' split
  all_goals simp only [State.bump_fltAge]
@[simp] theorem State.ev_fltStart (s : State) (e : Nat) : (s.ev e).fltStart = s.fltStart := by
  rw [State.ev]; repeat' split
  all_goals simp only [State.bump_fltStart]
@[simp] theorem State.ev_iln (s : State) (e : Nat) : (s.ev e).iln = s.iln := by
  rw [State.ev]; repeat' split
  all_goals simp only [State.bump_iln]
@[simp] theorem State.ev_cal (s : State) (e : Nat) : (s.ev e).cal = s.cal := by
  rw [State.ev]; repeat' split
  all_goals simp only [State.bump_cal]
@[simp] theorem State.ev_tap (s : State) (e : Nat) : (s.ev e).tap = s.tap := by
  rw [State.ev]; repeat' split
  all_goals simp only [State.bump_tap]
@[simp] theorem State.ev_mgmt (s : State) (e : Nat) : (s.ev e).mgmt = s.mgmt := by
  rw [State.ev]; repeat' split
  all_goals simp only [State.bump_mgmt]
@[simp] theorem State.ev_hems (s : State) (e : Nat) : (s.ev e).hems = s.hems := by
  rw [State.ev]; repeat' split
  all_goals simp only [State.bump_hems]
@[simp] theorem State.ev_pwr (s : State) (e : Nat) : (s.ev e).pwr = s.pwr := by
  rw [State.ev]; repeat' split
  all_goals simp only [State.bump_pwr]
@[simp] theorem State.ev_diag (s : State) (e : Nat) : (s.ev e).diag = s.diag := by
  rw [State.ev]; repeat' split
  all_goals simp only [State.bump_diag]

/-! Registers that a non-register update leaves alone. -/

@[simp] theorem State.put_rg (s : State) (o : Out) (off : Nat) : (s.put o).rg off = s.rg off := (rfl)
@[simp] theorem State.put_fget (s : State) (o : Out) (off : Nat) (g : Fld) : (s.put o).fget off g = s.fget off g := (rfl)
@[simp] theorem State.report_rg (s : State) (a b c d e : Nat) (off : Nat) : (s.report a b c d e).rg off = s.rg off := (rfl)
@[simp] theorem State.report_fget (s : State) (a b c d e : Nat) (off : Nat) (g : Fld) : (s.report a b c d e).fget off g = s.fget off g := (rfl)
@[simp] theorem State.reportAt_rg (s : State) (l a b c d e : Nat) (off : Nat) : (s.reportAt l a b c d e).rg off = s.rg off := (rfl)
@[simp] theorem State.reportAt_fget (s : State) (l a b c d e : Nat) (off : Nat) (g : Fld) : (s.reportAt l a b c d e).fget off g = s.fget off g := (rfl)
@[simp] theorem State.tick_rg (s : State) (off : Nat) : (s.tick).rg off = s.rg off := (rfl)
@[simp] theorem State.tick_fget (s : State) (off : Nat) (g : Fld) : (s.tick).fget off g = s.fget off g := (rfl)
@[simp] theorem State.diagSet_rg (s : State) (k i v : Nat) (off : Nat) : (s.diagSet k i v).rg off = s.rg off := (rfl)
@[simp] theorem State.diagSet_fget (s : State) (k i v : Nat) (off : Nat) (g : Fld) : (s.diagSet k i v).fget off g = s.fget off g := (rfl)
@[simp] theorem State.diagAdd_rg (s : State) (k i n : Nat) (off : Nat) : (s.diagAdd k i n).rg off = s.rg off := (rfl)
@[simp] theorem State.diagAdd_fget (s : State) (k i n : Nat) (off : Nat) (g : Fld) : (s.diagAdd k i n).fget off g = s.fget off g := (rfl)
@[simp] theorem State.diagLog_rg (s : State) (k i n : Nat) (x : Nat × Nat) (off : Nat) : (s.diagLog k i n x).rg off = s.rg off := (rfl)
@[simp] theorem State.diagLog_fget (s : State) (k i n : Nat) (x : Nat × Nat) (off : Nat) (g : Fld) : (s.diagLog k i n x).fget off g = s.fget off g := (rfl)
@[simp] theorem State.setChan_rg (s : State) (c : Nat) (x : Chan) (off : Nat) : (s.setChan c x).rg off = s.rg off := (rfl)
@[simp] theorem State.setChan_fget (s : State) (c : Nat) (x : Chan) (off : Nat) (g : Fld) : (s.setChan c x).fget off g = s.fget off g := (rfl)
@[simp] theorem State.setPort_rg (s : State) (p : Nat) (x : Port) (off : Nat) : (s.setPort p x).rg off = s.rg off := (rfl)
@[simp] theorem State.setPort_fget (s : State) (p : Nat) (x : Port) (off : Nat) (g : Fld) : (s.setPort p x).fget off g = s.fget off g := (rfl)
@[simp] theorem State.setBob_rg (s : State) (b : Nat) (x : Bob) (off : Nat) : (s.setBob b x).rg off = s.rg off := (rfl)
@[simp] theorem State.setBob_fget (s : State) (b : Nat) (x : Bob) (off : Nat) (g : Fld) : (s.setBob b x).fget off g = s.fget off g := (rfl)
@[simp] theorem State.setSpool_rg (s : State) (q : Nat) (x : Spool) (off : Nat) : (s.setSpool q x).rg off = s.rg off := (rfl)
@[simp] theorem State.setSpool_fget (s : State) (q : Nat) (x : Spool) (off : Nat) (g : Fld) : (s.setSpool q x).fget off g = s.fget off g := (rfl)
@[simp] theorem State.setHem_rg (s : State) (h : Nat) (x : Hem) (off : Nat) : (s.setHem h x).rg off = s.rg off := (rfl)
@[simp] theorem State.setHem_fget (s : State) (h : Nat) (x : Hem) (off : Nat) (g : Fld) : (s.setHem h x).fget off g = s.fget off g := (rfl)
@[simp] theorem State.setSp_rg (s : State) (p : Nat) (x : SeamPort) (off : Nat) : (s.setSp p x).rg off = s.rg off := (rfl)
@[simp] theorem State.setSp_fget (s : State) (p : Nat) (x : SeamPort) (off : Nat) (g : Fld) : (s.setSp p x).fget off g = s.fget off g := (rfl)
@[simp] theorem State.setCalp_rg (s : State) (p : Nat) (x : CalPort) (off : Nat) : (s.setCalp p x).rg off = s.rg off := (rfl)
@[simp] theorem State.setCalp_fget (s : State) (p : Nat) (x : CalPort) (off : Nat) (g : Fld) : (s.setCalp p x).fget off g = s.fget off g := (rfl)
@[simp] theorem State.setSlot_rg (s : State) (k e : Nat) (x : KeySlot) (off : Nat) : (s.setSlot k e x).rg off = s.rg off := (rfl)
@[simp] theorem State.setSlot_fget (s : State) (k e : Nat) (x : KeySlot) (off : Nat) (g : Fld) : (s.setSlot k e x).fget off g = s.fget off g := (rfl)

end Sys2Proof.Machine
end

