-- ==== Sys2Proof/Laws/Registers.lean ====
section
/-! SUPPORT. Laws of bit fields and registers: what a read gives after a write, and what one control-space write does. -/

namespace Sys2Proof.Machine

/-! Bit fields. -/

/-- A field reads as what was put in it. -/
theorem getBits_putBits_same (x lo w v : Nat) : getBits (putBits x lo w v) lo w = v % 2 ^ w := by
  unfold getBits putBits
  have h1 : x % 2 ^ lo < 2 ^ lo := Nat.mod_lt _ (Nat.two_pow_pos lo)
  have h3 : x / 2 ^ (lo + w) * 2 ^ (lo + w) = (x / 2 ^ (lo + w) * 2 ^ w) * 2 ^ lo := by rw [Nat.pow_add]; ring
  rw [h3, Nat.add_assoc, ← Nat.add_mul, Nat.add_mul_div_right _ _ (Nat.two_pow_pos lo), Nat.div_eq_of_lt h1, Nat.zero_add,
    Nat.add_mul_mod_self_right, Nat.mod_mod]

/-- A field below the one that was put keeps its value. -/
theorem getBits_putBits_below (x lo w v a n : Nat) (h : a + n ≤ lo) : getBits (putBits x lo w v) a n = getBits x a n := by
  unfold getBits putBits
  obtain ⟨k, rfl⟩ := Nat.exists_eq_add_of_le h
  have e1 : v % 2 ^ w * 2 ^ (a + n + k) + x / 2 ^ (a + n + k + w) * 2 ^ (a + n + k + w)
      = 2 ^ a * (2 ^ n * (v % 2 ^ w * 2 ^ k + x / 2 ^ (a + n + k + w) * 2 ^ (k + w))) := by
    simp only [Nat.pow_add]; ring
  rw [Nat.add_assoc, e1, Nat.add_mul_div_left _ _ (Nat.two_pow_pos a), Nat.add_mul_mod_self_left]
  have e2 : x % 2 ^ (a + n + k) = x % (2 ^ a * (2 ^ n * 2 ^ k)) := by congr 1; simp only [Nat.pow_add]; ring
  rw [e2, Nat.mod_mul_right_div_self, Nat.mod_mul_right_mod]

/-- A field above the one that was put keeps its value. -/
theorem getBits_putBits_above (x lo w v a n : Nat) (h : lo + w ≤ a) : getBits (putBits x lo w v) a n = getBits x a n := by
  unfold getBits putBits
  obtain ⟨k, rfl⟩ := Nat.exists_eq_add_of_le h
  have h1 : x % 2 ^ lo + v % 2 ^ w * 2 ^ lo < 2 ^ (lo + w) := by
    have a1 : x % 2 ^ lo < 2 ^ lo := Nat.mod_lt _ (Nat.two_pow_pos lo)
    have a2 : v % 2 ^ w + 1 ≤ 2 ^ w := Nat.mod_lt _ (Nat.two_pow_pos w)
    have a3 : (v % 2 ^ w + 1) * 2 ^ lo ≤ 2 ^ w * 2 ^ lo := Nat.mul_le_mul_right _ a2
    have a4 : 2 ^ (lo + w) = 2 ^ w * 2 ^ lo := by rw [Nat.pow_add]; ring
    rw [a4]; linarith
  rw [show 2 ^ (lo + w + k) = 2 ^ (lo + w) * 2 ^ k from Nat.pow_add 2 (lo + w) k, ← Nat.div_div_eq_div_mul, ← Nat.div_div_eq_div_mul,
    Nat.add_mul_div_right _ _ (Nat.two_pow_pos _), Nat.div_eq_of_lt h1, Nat.zero_add]

/-- Putting a field of a 64-bit register keeps it a 64-bit number. -/
theorem putBits_lt (x lo w v m : Nat) (hx : x < 2 ^ m) (h : lo + w ≤ m) : putBits x lo w v < 2 ^ m := by
  unfold putBits
  have a1 : x % 2 ^ lo < 2 ^ lo := Nat.mod_lt _ (Nat.two_pow_pos lo)
  have a2 : v % 2 ^ w + 1 ≤ 2 ^ w := Nat.mod_lt _ (Nat.two_pow_pos w)
  have a3 : (v % 2 ^ w + 1) * 2 ^ lo ≤ 2 ^ w * 2 ^ lo := Nat.mul_le_mul_right _ a2
  have a4 : 2 ^ (lo + w) = 2 ^ w * 2 ^ lo := by rw [Nat.pow_add]; ring
  obtain ⟨k, rfl⟩ := Nat.exists_eq_add_of_le h
  have a5 : x / 2 ^ (lo + w) < 2 ^ k := by
    rw [Nat.div_lt_iff_lt_mul (Nat.two_pow_pos _), ← Nat.pow_add, Nat.add_comm k]; exact hx
  have a6 : (x / 2 ^ (lo + w) + 1) * 2 ^ (lo + w) ≤ 2 ^ k * 2 ^ (lo + w) := Nat.mul_le_mul_right _ a5
  have a7 : 2 ^ (lo + w + k) = 2 ^ k * 2 ^ (lo + w) := by rw [Nat.pow_add (m := lo + w)]; ring
  rw [a7]; rw [a4] at a6 ⊢; linarith

/-! Registers. -/

@[simp] theorem State.setRg_rg_same (s : State) (off : Nat) (v : Word) : (s.setRg off v).rg off = v :=
  tabGet_tabSet_same _ _ _ _

theorem State.setRg_rg_other (s : State) (off m : Nat) (v : Word) (h : m ≠ off) : (s.setRg off v).rg m = s.rg m :=
  tabGet_tabSet_other _ _ _ _ _ h

/-- What a register holds after a write, in one equation. -/
theorem State.setRg_rg (s : State) (off m : Nat) (v : Word) : (s.setRg off v).rg m = if m = off then v else s.rg m :=
  tabGet_tabSet _ _ _ _ _

theorem State.fset_rg_other (s : State) (off m : Nat) (f : Fld) (v : Nat) (h : m ≠ off) : (s.fset off f v).rg m = s.rg m :=
  State.setRg_rg_other _ _ _ _ h

theorem State.fset_fget_off (s : State) (off m : Nat) (f g : Fld) (v : Nat) (h : m ≠ off) : (s.fset off f v).fget m g = s.fget m g := by
  unfold State.fget; rw [State.fset_rg_other s off m f v h]

theorem State.fset_toNat (s : State) (off : Nat) (f : Fld) (v : Nat) (h : f.lo + f.w ≤ 64) :
    ((s.fset off f v).rg off).toNat = putBits (s.rg off).toNat f.lo f.w v := by
  unfold State.fset
  rw [State.setRg_rg_same, BitVec.toNat_ofNat]
  exact Nat.mod_eq_of_lt (putBits_lt _ _ _ _ _ (s.rg off).isLt h)

/-- A field reads as it was set. -/
theorem State.fset_fget_same (s : State) (off : Nat) (f : Fld) (v : Nat) (h : f.lo + f.w ≤ 64) :
    (s.fset off f v).fget off f = v % 2 ^ f.w := by
  unfold State.fget fld
  rw [State.fset_toNat s off f v h, getBits_putBits_same]

/-- Setting a field leaves the register's other fields alone. -/
theorem State.fset_fget_apart (s : State) (off : Nat) (f g : Fld) (v : Nat) (h : f.lo + f.w ≤ 64)
    (hd : g.lo + g.w ≤ f.lo ∨ f.lo + f.w ≤ g.lo) : (s.fset off f v).fget off g = s.fget off g := by
  unfold State.fget fld
  rw [State.fset_toNat s off f v h]
  rcases hd with hd | hd
  · exact getBits_putBits_below _ _ _ _ _ _ hd
  · exact getBits_putBits_above _ _ _ _ _ _ hd

/-! The control-space write. -/

/-- An access that the control space does not serve changes nothing. -/
theorem ctlWriteWith_closed (hook : Hook) (w : Who) (off width : Nat) (val : Word) (rival : Bool) (s : State) (h : ctlOpen s = false) :
    ctlWriteWith hook w off width val rival s = s := by unfold ctlWriteWith; rw [if_pos h]

/-- A write that a check turns away ends with the check's status and has no other effect. -/
theorem ctlWriteWith_error (hook : Hook) (w : Who) (off width : Nat) (val : Word) (rival : Bool) (s : State) (st : Nat) (h : ctlOpen s = true)
    (e : ctlCheck w off width val.toNat rival s = .error st) : ctlWriteWith hook w off width val rival s = ctlEnd w off st s := by
  unfold ctlWriteWith; rw [if_neg (by simp [h]), e]

/-- A write that passes its checks does what the register's hook does, and ends with the hook's status. -/
theorem ctlWriteWith_ok (hook : Hook) (w : Who) (off width : Nat) (val : Word) (rival : Bool) (s : State) (c : CtlWrite) (h : ctlOpen s = true)
    (e : ctlCheck w off width val.toNat rival s = .ok c) :
    ctlWriteWith hook w off width val rival s =
      ctlEnd w off (if (hook c.hit.idx c.old c.new c.act s).2 ≠ 0 then (hook c.hit.idx c.old c.new c.act s).2 else if c.worldErr then C.CTL_E_WORLD else 0)
        (hook c.hit.idx c.old c.new c.act s).1 := by
  unfold ctlWriteWith; rw [if_neg (by simp [h]), e]

/-- A status below class 2 other than the two that count events leaves only its own record. -/
theorem ctlEnd_plain (w : Who) (off st : Nat) (s : State) (h : statusClass st < 2) (h1 : st ≠ C.CTL_E_WORLD) (h2 : st ≠ C.CTL_E_NOT_OWNER) :
    ctlEnd w off st s = s.put (.ctlDone w off st) := by
  unfold ctlEnd ctlNote
  rw [if_neg h1, if_neg h2]
  show (if 2 ≤ statusClass st then ctlRecord w off st s else s).put (.ctlDone w off st) = _
  rw [if_neg (by omega)]

end Sys2Proof.Machine
end

