-- ==== Sys2Proof/Laws/Memory.lean ====
section
/-! SUPPORT. Laws of memory: every operation over DRAM content and registers keeps their canonical form and the queue, and what a line reads as after
it is written. One lemma per shared operation says what the operation keeps. -/

namespace Sys2Proof.Machine

/-- From `s` to `t` the canonical form is kept and the queue is not touched. -/
def Keeps (s t : State) : Prop := (s.memWf = true → t.memWf = true) ∧ t.pending = s.pending

theorem Keeps.refl (s : State) : Keeps s s := ⟨id, rfl⟩

theorem Keeps.trans {s t u : State} (a : Keeps s t) (b : Keeps t u) : Keeps s u := ⟨b.1 ∘ a.1, b.2.trans a.2⟩

/-- A choice keeps what both of its arms keep. -/
theorem Keeps.ite {p : Prop} [Decidable p] {s t u : State} (a : Keeps s t) (b : Keeps s u) : Keeps s (if p then t else u) := by
  split <;> assumption

/-- A change of anything but registers, DRAM content and the queue. -/
theorem Keeps.of_eq {s t : State} (hr : t.regs = s.regs) (hd : t.dram = s.dram) (hp : t.pending = s.pending) : Keeps s t :=
  ⟨fun h => by rw [State.memWf, hr, hd]; exact h, hp⟩

/-- A change of the registers into another table in canonical form. -/
theorem Keeps.of_regs {s t : State} (hr : tabWf regReset s.regs = true → tabWf regReset t.regs = true) (hd : t.dram = s.dram) (hp : t.pending = s.pending) :
    Keeps s t := by
  refine ⟨fun h => ?_, hp⟩
  simp only [State.memWf, Bool.and_eq_true] at h ⊢
  rw [hd]
  exact ⟨⟨⟨⟨hr h.1.1.1.1, h.1.1.1.2⟩, h.1.1.2⟩, h.1.2⟩, h.2⟩

/-- A fold keeps what each of its steps keeps. -/
theorem Keeps.foldl {α : Type} (f : State → α → State) (h : ∀ s x, Keeps s (f s x)) (l : List α) (s : State) : Keeps s (l.foldl f s) := by
  induction l generalizing s with
  | nil => exact Keeps.refl s
  | cons x r ih => exact (h s x).trans (ih _)

/-! Registers, outputs, reports, event counters, interrupts. -/

theorem State.setRg_keeps (s : State) (off : Nat) (v : Word) : Keeps s (s.setRg off v) :=
  Keeps.of_regs (fun h => tabWf_tabSet regReset s.regs off v h) rfl rfl

theorem State.fset_keeps (s : State) (off : Nat) (f : Fld) (v : Nat) : Keeps s (s.fset off f v) := s.setRg_keeps _ _

theorem State.fsat_keeps (s : State) (off : Nat) (f : Fld) (n : Nat) : Keeps s (s.fsat off f n) := s.setRg_keeps _ _

theorem State.fbit_keeps (s : State) (off : Nat) (f : Fld) (i : Nat) (b : Bool) : Keeps s (s.fbit off f i b) := s.setRg_keeps _ _

theorem State.put_keeps (s : State) (o : Out) : Keeps s (s.put o) := Keeps.of_eq rfl rfl rfl

theorem State.report_keeps (s : State) (src elem code addr detail : Nat) : Keeps s (s.report src elem code addr detail) := Keeps.of_eq rfl rfl rfl

theorem State.reportAt_keeps (s : State) (lvl src elem code addr detail : Nat) : Keeps s (s.reportAt lvl src elem code addr detail) := Keeps.of_eq rfl rfl rfl

theorem State.bump_keeps (s : State) (e : Nat) : Keeps s (s.bump e) := by
  unfold State.bump
  exact Keeps.ite (s.fset_keeps _ _ _) (((s.fset_keeps _ _ _).trans (State.fset_keeps _ _ _ _)).trans (State.fset_keeps _ _ _ _))

theorem State.ev_keeps (s : State) (e : Nat) : Keeps s (s.ev e) := by
  unfold State.ev
  refine Keeps.ite (Keeps.ite (Keeps.ite (Keeps.refl s) ?_) (s.bump_keeps e)) (Keeps.refl s)
  exact (Keeps.of_eq rfl rfl rfl : Keeps s { s with levelNs := tabSet (fun _ => 0) s.levelNs e (s.time + 1) }).trans (State.bump_keeps _ _)

theorem State.evN_keeps (s : State) (e n : Nat) : Keeps s (s.evN e n) := Keeps.foldl _ (fun t _ => t.ev_keeps e) _ s

theorem coreWoken_keeps (s : State) : Keeps s (coreWoken s) := by
  unfold coreWoken
  exact Keeps.ite ((s.fset_keeps _ _ _).trans (Keeps.of_eq rfl rfl rfl)) (Keeps.refl s)

theorem State.irq_keeps (s : State) (n : Nat) : Keeps s (s.irq n) := by
  have w : ∀ o, Keeps s ((coreWoken s).put o) := fun o => (coreWoken_keeps s).trans (State.put_keeps _ o)
  simp only [State.irq]
  refine Keeps.ite (Keeps.refl s) (Keeps.ite (w _) ?_)
  split
  · exact w _
  · exact Keeps.refl s

theorem ctlRecord_keeps (w : Who) (off st : Nat) (s : State) : Keeps s (ctlRecord w off st s) := by
  have three : ∀ f₁ f₂ f₃ : Fld, ∀ a b c : Nat, ∀ r, Keeps s (((s.fset r f₁ a).fset r f₂ b).fset r f₃ c) := fun _ _ _ _ _ _ _ =>
    ((s.fset_keeps _ _ _).trans (State.fset_keeps _ _ _ _)).trans (State.fset_keeps _ _ _ _)
  cases w with
  | trusted c => exact three _ _ _ _ _ _ _
  | part c _ => exact three _ _ _ _ _ _ _
  | badVmid c => exact three _ _ _ _ _ _ _
  | head p | load p =>
    exact (((s.fset_keeps _ _ _).trans (State.fset_keeps _ _ _ _)).trans (State.fsat_keeps _ _ _ _)).trans (State.fset_keeps _ _ _ _)
  | node _ | bar0 _ => exact Keeps.refl s

theorem ctlEnd_keeps (w : Who) (off st : Nat) (s : State) : Keeps s (ctlEnd w off st s) := by
  refine Keeps.trans ?_ (State.put_keeps _ _)
  simp only [ctlNote]
  exact (Keeps.ite (s.ev_keeps _) (Keeps.ite (s.ev_keeps _) (Keeps.refl s))).trans (Keeps.ite (ctlRecord_keeps _ _ _ _) (Keeps.refl _))

/-- A control-space write keeps what its register's hook keeps. -/
theorem ctlWriteWith_keeps (hook : Hook) (w : Who) (off width : Nat) (val : Word) (rival : Bool) (s : State)
    (h : ∀ idx old new act, Keeps s (hook idx old new act s).1) : Keeps s (ctlWriteWith hook w off width val rival s) := by
  unfold ctlWriteWith
  refine Keeps.ite (Keeps.refl s) ?_
  split
  · exact ctlEnd_keeps _ _ _ _
  · exact (h _ _ _ _).trans (ctlEnd_keeps _ _ _ _)

/-! DRAM content (R399 to R404). -/

theorem State.setChan_keeps (s : State) (c : Nat) (x : Chan) : Keeps s (s.setChan c x) := Keeps.of_eq rfl rfl rfl

theorem cellsSet_keeps (s : State) (r : RowLine) : Keeps s (cellsSet s r) := by
  refine ⟨fun h => ?_, rfl⟩
  simp only [State.memWf, cellsSet, Bool.and_eq_true] at h ⊢
  exact ⟨⟨⟨⟨h.1.1.1.1, tabWf_tabSet _ _ _ _ h.1.1.1.2⟩, tabWf_tabSet _ _ _ _ h.1.1.2⟩, tabWf_tabSet _ _ _ _ h.1.2⟩, h.2⟩

theorem linePut_keeps (s : State) (c : Nat) (r : RowLine) : Keeps s (linePut s c r) := by
  simp only [linePut]
  split
  · exact Keeps.ite (s.setChan_keeps _ _) (cellsSet_keeps _ _)
  · exact cellsSet_keeps _ _

theorem cellsWrite_keeps (s : State) (c frame line : Nat) (d : Line) (poison : Bool) : Keeps s (cellsWrite s c frame line d poison) := linePut_keeps _ _ _

theorem rowNext_keeps (s : State) (c : Nat) : Keeps s (rowNext s c) := by
  simp only [rowNext]
  split
  · exact Keeps.ite (Keeps.refl s) ((s.setChan_keeps _ _).trans (Keeps.foldl _ (fun t _ => cellsSet_keeps t _) _ _))
  · exact Keeps.refl s

theorem rowRestore_keeps (s : State) (c : Nat) : Keeps s (rowRestore s c) := by
  simp only [rowRestore]
  split
  · exact Keeps.refl s
  · exact (s.setChan_keeps _ _).trans (Keeps.foldl _ cellsSet_keeps _ _)

theorem mergeDrop_keeps (s : State) (c frame line : Nat) : Keeps s (mergeDrop s c frame line) := by
  unfold mergeDrop
  split
  · exact Keeps.refl s
  · exact s.setChan_keeps _ _

theorem mergeRoom_keeps (s : State) (c : Nat) : Keeps s (mergeRoom s c) := by
  unfold mergeRoom
  split
  · exact ((cellsWrite_keeps _ _ _ _ _ _).trans (State.ev_keeps _ _)).trans (mergeDrop_keeps _ _ _ _)
  · exact Keeps.refl s

theorem rowTestReq_keeps (s : State) (c pa : Nat) : Keeps s (rowTestReq s c pa) := by
  exact (s.setChan_keeps _ _).trans (rowNext_keeps _ _)

theorem countNibs_keeps (c sub pa : Nat) (ns l : List Nat) (s : State) : Keeps s (countNibs s c sub pa ns l) := by
  induction l generalizing s with
  | nil => exact Keeps.refl s
  | cons n r ih =>
    simp only [countNibs]
    refine Keeps.trans ?_ (ih _)
    refine (s.setChan_keeps _ _).trans (Keeps.ite ?_ (Keeps.refl _))
    exact (State.fset_keeps _ _ _ _).trans (State.reportAt_keeps _ _ _ _ _ _ _)

theorem correct_keeps (s : State) (c frame line : Nat) (x : Line) (later : Bool) (m : Nat) : Keeps s (correct s c frame line x later m) := by
  unfold correct
  refine Keeps.ite ?_ ((mergeRoom_keeps s c).trans (cellsWrite_keeps _ _ _ _ _ _))
  exact Keeps.ite ((s.setChan_keeps _ _).trans (State.ev_keeps _ _)) (s.setChan_keeps _ _)

theorem dramReadVia_keeps (later : Bool) (m c frame line : Nat) (s : State) : Keeps s (dramReadVia later m c frame line s).2 := by
  unfold dramReadVia
  split
  · exact Keeps.refl s
  · simp only
    split
    · exact s.ev_keeps _
    · exact (((((s.ev_keeps _).trans (correct_keeps _ _ _ _ _ _ _)).trans (State.fsat_keeps _ _ _ _)).trans (State.reportAt_keeps _ _ _ _ _ _ _)).trans
        (countNibs_keeps _ _ _ _ _ _)).trans (State.ev_keeps _ _)
    · exact s.ev_keeps _
    · exact (((s.ev_keeps _).trans (State.fsat_keeps _ _ _ _)).trans (State.report_keeps _ _ _ _ _ _)).trans (State.ev_keeps _ _)

theorem dramRead_keeps (c frame line : Nat) (s : State) : Keeps s (dramRead c frame line s).2 := dramReadVia_keeps _ _ _ _ _ _

theorem dramWrite_keeps (c frame line : Nat) (d : Line) (poison : Bool) (s : State) : Keeps s (dramWrite c frame line d poison s) :=
  ((mergeDrop_keeps s c frame line).trans (cellsWrite_keeps _ _ _ _ _ _)).trans (State.ev_keeps _ _)

/-! What a line reads as. -/

@[simp] theorem mergeDrop_dram (s : State) (c frame line : Nat) : (mergeDrop s c frame line).dram = s.dram := by
  unfold mergeDrop; split <;> rfl

@[simp] theorem State.chan_setChan (s : State) (c : Nat) (x : Chan) : (s.setChan c x).chan c = x := by
  simp only [State.chan, State.setChan, tabGet_tabSet, if_true]

/-- The first entry of a key in a list in which `r` has taken the place of its key's entries. -/
theorem find_replaced (r : RowLine) (l : List RowLine) (h : l.any (fun q => q.key == r.key) = true) :
    (l.map fun q => if q.key = r.key then r else q).find? (fun q => q.key == r.key) = some r := by
  induction l with
  | nil => simp at h
  | cons q t ih =>
    by_cases e : q.key = r.key
    · simp [e]
    · have : t.any (fun q => q.key == r.key) = true := by simpa [e] using h
      simp [e, ih this]

/-- A line that its channel has taken reads as it was put, in the test buffer of a row test as in the cells. -/
theorem lineAt_linePut (s : State) (c : Nat) (r : RowLine) : lineAt (linePut s c r) c r.key = r := by
  simp only [linePut]
  split
  · rename_i t h
    split
    · rename_i a
      simp only [lineAt, bufFind, State.chan_setChan, find_replaced r t.buf a, Option.getD_some]
    · rename_i a
      have : t.buf.find? (fun q => q.key == r.key) = none := by
        rw [List.find?_eq_none]; intro q hq e; exact a (List.any_eq_true.mpr ⟨q, hq, e⟩)
      have g : (tabGet (fun _ => Chan.init) s.chans c).rowTest = some t := h
      simp only [lineAt, bufFind, State.chan, cellsSet, g, this, Option.getD_none, cellsAt, tabGet_tabSet, if_true]
  · rename_i h
    have g : (tabGet (fun _ => Chan.init) s.chans c).rowTest = none := h
    simp only [lineAt, bufFind, State.chan, cellsSet, g, Option.getD_none, cellsAt, tabGet_tabSet, if_true]

/-- A line that was written decodes to what was written, with no correction (R401, R402). -/
theorem dramWrite_reads (c frame line : Nat) (d : Line) (poison : Bool) (s : State) :
    dramDecode (dramWrite c frame line d poison s) c frame line = if poison then .poison [] else .data d [] := by
  have h : ∀ (t : State) (e k : Nat), lineAt (t.ev e) c k = lineAt t c k := fun t e k => by
    simp only [lineAt, bufFind, cellsAt, State.chan, State.ev_chans, State.ev_dram]
  simp only [dramDecode, dramWrite, h, cellsWrite]
  rw [lineAt_linePut (r := ⟨dramKey c frame line, d, poison, 0⟩)]
  simp only [if_true]

/-- Every other line keeps its bytes, its poison and its errors. -/
theorem dramWrite_others (c frame line : Nat) (d : Line) (poison : Bool) (s : State) (k : Nat) (h : k ≠ dramKey c frame line) :
    tabGet (fun _ => (0 : Line)) (dramWrite c frame line d poison s).dram.lines k = tabGet (fun _ => (0 : Line)) s.dram.lines k ∧
    tabGet (fun _ => false) (dramWrite c frame line d poison s).dram.poison k = tabGet (fun _ => false) s.dram.poison k ∧
    tabGet (fun _ => (0 : BitVec 640)) (dramWrite c frame line d poison s).dram.err k = tabGet (fun _ => (0 : BitVec 640)) s.dram.err k := by
  have g : ∀ t : State, t.dram = s.dram → (cellsSet t ⟨dramKey c frame line, d, poison, 0⟩).dram.lines = tabSet (fun _ => (0 : Line)) s.dram.lines (dramKey c frame line) d ∧
      (cellsSet t ⟨dramKey c frame line, d, poison, 0⟩).dram.poison = tabSet (fun _ => false) s.dram.poison (dramKey c frame line) poison ∧
      (cellsSet t ⟨dramKey c frame line, d, poison, 0⟩).dram.err = tabSet (fun _ => (0 : BitVec 640)) s.dram.err (dramKey c frame line) 0 := fun t ht => by
    simp only [cellsSet, ht, and_self]
  have e := g _ (mergeDrop_dram s c frame line)
  simp only [dramWrite, State.ev_dram, cellsWrite, linePut]
  split
  · split
    · simp only [State.setChan, mergeDrop_dram, and_self]
    · simp only [e, tabGet_tabSet_other _ _ _ _ _ h, and_self]
  · simp only [e, tabGet_tabSet_other _ _ _ _ _ h, and_self]

/-- The machine right after reset is in canonical form. -/
theorem reset_memWf : State.reset.memWf = true := by decide

/-! Idling. -/

theorem State.free_keeps (s : State) (n : Nat) : Keeps s (s.free n).2 := Keeps.of_eq rfl rfl rfl

theorem State.axt_keeps (s : State) (kind inst payload : Nat) : Keeps s (s.axt kind inst payload) := Keeps.ite (s.put_keeps _) (Keeps.refl s)

theorem driftOf_keeps (s : State) : Keeps s (driftOf s).2 := by
  unfold driftOf
  split
  · exact s.free_keeps 32
  · exact Keeps.refl s

theorem tickTime_keeps (s : State) : Keeps s (tickTime s) := by
  refine (driftOf_keeps s).trans ?_
  refine Keeps.ite (Keeps.trans ?_ (State.axt_keeps _ _ _ _)) ?_ <;> exact Keeps.of_eq rfl rfl rfl

theorem prbsPut_keeps (s : State) (p l : Nat) (x : PrbsLane) : Keeps s (prbsPut s p l x) := Keeps.of_eq rfl rfl rfl

theorem prbsRx_keeps (s : State) (p l n : Nat) (sent : List Nat) : Keeps s (prbsRx s p l n sent).2 := by
  unfold prbsRx
  split
  · exact Keeps.refl s
  · exact s.free_keeps n

theorem prbsCheck_keeps (p l poly : Nat) (x : PrbsLane) (rx : List Nat) (s : State) : Keeps s (prbsCheck p l poly x rx s) :=
  ((s.fsat_keeps _ _ _).trans (State.fsat_keeps _ _ _ _)).trans ((State.fset_keeps _ _ _ _).trans (prbsPut_keeps _ _ _ _))

theorem prbsRun_keeps (s : State) (p l : Nat) (x : PrbsLane) : Keeps s (prbsRun s p l x) :=
  Keeps.ite (Keeps.refl s) (Keeps.ite (prbsPut_keeps _ _ _ _) ((prbsRx_keeps _ _ _ _ _).trans (prbsCheck_keeps _ _ _ _ _ _)))

theorem prbsTick_keeps (s : State) : Keeps s (prbsTick s) := Keeps.foldl _ (fun t _ => Keeps.foldl _ (fun u _ => prbsRun_keeps u _ _ _) _ t) _ s

theorem slotTick_keeps (s : State) (b : Nat) : Keeps s (slotTick s b) :=
  Keeps.ite (s.evN_keeps _ _) (Keeps.ite (s.evN_keeps _ _) (Keeps.refl s))

theorem bobTick_keeps (s : State) : Keeps s (bobTick s) := Keeps.ite (Keeps.foldl _ (fun t _ => slotTick_keeps t _) _ s) (Keeps.refl s)

theorem levelTick_keeps (s : State) : Keeps s (levelTick s) := by
  refine Keeps.foldl _ (fun t w => ?_) _ s
  exact Keeps.ite (Keeps.refl t) (Keeps.foldl _ (fun u k => Keeps.ite (u.ev_keeps _) (Keeps.refl u)) _ t)

/-- A nanosecond without a command keeps the canonical form of the stores and the queue. -/
theorem idle_keeps (s : State) : Keeps s (idle s) :=
  Keeps.ite (Keeps.refl s) ((tickTime_keeps s).trans ((prbsTick_keeps _).trans ((bobTick_keeps _).trans (levelTick_keeps _))))

end Sys2Proof.Machine
end

