-- ==== Sys2Proof/Laws/Ops.lean ====
section
/-! SUPPORT. Laws of the shared operations: what a unit's state reads as after a named update, and, once for each operation that most commands go through
(an event, an interrupt, the issue and the end of an instruction), everything that it can do. -/

namespace Sys2Proof.Machine

/-! Read after write of each unit's state. -/

@[simp] theorem State.setBob_bob (s : State) (b c : Nat) (x : Bob) : (s.setBob b x).bob c = if c = b then x else s.bob c := tabGet_tabSet _ _ _ _ _
@[simp] theorem State.setSpool_spool (s : State) (q k : Nat) (x : Spool) : (s.setSpool q x).spool k = if k = q then x else s.spool k := tabGet_tabSet _ _ _ _ _
@[simp] theorem State.setPort_port (s : State) (p k : Nat) (x : Port) : (s.setPort p x).port k = if k = p then x else s.port k := tabGet_tabSet _ _ _ _ _
@[simp] theorem State.setChan_chan (s : State) (c k : Nat) (x : Chan) : (s.setChan c x).chan k = if k = c then x else s.chan k := tabGet_tabSet _ _ _ _ _
@[simp] theorem State.setHem_hem (s : State) (h k : Nat) (x : Hem) : (s.setHem h x).hem k = if k = h then x else s.hem k := tabGet_tabSet _ _ _ _ _
@[simp] theorem State.setCalp_calp (s : State) (p k : Nat) (x : CalPort) : (s.setCalp p x).calp k = if k = p then x else s.calp k := tabGet_tabSet _ _ _ _ _
@[simp] theorem State.setSp_sp (s : State) (p k : Nat) (x : SeamPort) : (s.setSp p x).sp k = if k = p then x else s.sp k := tabGet_tabSet _ _ _ _ _

@[simp] theorem State.bump_bob (s : State) (e b : Nat) : (s.bump e).bob b = s.bob b := by unfold State.bob; rw [State.bump_bobs]
@[simp] theorem State.ev_bob (s : State) (e b : Nat) : (s.ev e).bob b = s.bob b := by unfold State.bob; rw [State.ev_bobs]

/-! Events (R449, R450). -/

/-- A counter's step changes its own register and the sticky bit of wraps. -/
theorem State.bump_rg_other (s : State) (e off : Nat) (h : off ≠ PMC_CNT e) (hs : off ≠ PMC_STAT) : (s.bump e).rg off = s.rg off := by
  simp only [State.bump]
  split
  · exact s.fset_rg_other _ _ _ _ h
  · rw [State.fset_rg_other _ _ _ _ _ hs, State.fset_rg_other _ _ _ _ _ h, State.fset_rg_other _ _ _ _ _ h]

/-- All that an event does: a step of its counter, or nothing, and a mark of level mode. -/
theorem State.ev_cases (s : State) (e : Nat) :
    s.ev e = s ∨ s.ev e = s.bump e ∨ s.ev e = { s with levelNs := tabSet (fun _ => 0) s.levelNs e (s.time + 1) }.bump e := by
  rw [State.ev]
  split
  · split
    · split
      · exact .inl rfl
      · exact .inr (.inr rfl)
    · exact .inr (.inl rfl)
  · exact .inl rfl

theorem State.ev_rg_other (s : State) (e off : Nat) (h : off ≠ PMC_CNT e) (hs : off ≠ PMC_STAT) : (s.ev e).rg off = s.rg off := by
  obtain h0 | h0 | h0 := s.ev_cases e <;> rw [h0]
  · exact s.bump_rg_other e off h hs
  · exact State.bump_rg_other _ e off h hs

theorem State.fset_frame (s : State) (off : Nat) (f : Fld) (v : Nat) : ∃ r, s.fset off f v = { s with regs := r } := ⟨_, rfl⟩

/-- Nothing but registers and the marks of level mode differs after an event. -/
theorem State.bump_frame (s : State) (e : Nat) : ∃ r, s.bump e = { s with regs := r } := by
  rw [State.bump]
  split
  · exact s.fset_frame _ _ _
  · obtain ⟨r, h⟩ := s.fset_frame (PMC_CNT e) F.PMC_CNT_COUNT 0
    rw [h]
    obtain ⟨r, h⟩ := State.fset_frame { s with regs := r } (PMC_CNT e) F.PMC_CNT_WRAP 1
    rw [h]
    exact State.fset_frame { s with regs := r } _ _ _

theorem State.ev_frame (s : State) (e : Nat) : ∃ r l, s.ev e = { s with regs := r, levelNs := l } := by
  obtain h0 | h0 | h0 := s.ev_cases e <;> rw [h0]
  · exact ⟨s.regs, s.levelNs, rfl⟩
  · obtain ⟨r, hr⟩ := s.bump_frame e
    exact ⟨r, s.levelNs, hr⟩
  · obtain ⟨r, hr⟩ := State.bump_frame { s with levelNs := tabSet (fun _ => 0) s.levelNs e (s.time + 1) } e
    exact ⟨r, _, hr⟩

theorem State.evN_succ (s : State) (e n : Nat) : s.evN e (n + 1) = (s.evN e n).ev e := by
  unfold State.evN; rw [List.range_succ, List.foldl_append]; rfl

/-- Several occurrences of one event, as one. -/
theorem State.evN_frame (s : State) (e n : Nat) : ∃ r l, s.evN e n = { s with regs := r, levelNs := l } := by
  induction n with
  | zero => exact ⟨s.regs, s.levelNs, rfl⟩
  | succ n ih =>
    obtain ⟨r, l, h⟩ := ih
    obtain ⟨r', l', h'⟩ := (s.evN e n).ev_frame e
    exact ⟨r', l', by rw [State.evN_succ, h', h]⟩

theorem State.evN_rg_other (s : State) (e n off : Nat) (h : off ≠ PMC_CNT e) (hs : off ≠ PMC_STAT) : (s.evN e n).rg off = s.rg off := by
  induction n with
  | zero => rfl
  | succ n ih => rw [State.evN_succ, State.ev_rg_other _ e off h hs, ih]

/-! Interrupts (R492, R518). -/

/-- Restarting the core clock changes the power state and PWR_STAT only. -/
theorem coreWoken_cases (s : State) : coreWoken s = s ∨ coreWoken s = { s.fset PWR_STAT F.PWR_STAT_PREV 1 with pst := 0 } := by
  unfold coreWoken
  split
  · exact .inr rfl
  · exact .inl rfl

/-- All that an interrupt source does: nothing, or one interrupt to a core in service, whose clock runs from then on. -/
theorem State.irq_cases (s : State) (n : Nat) : s.irq n = s ∨ ∃ c k p, s.irq n = (coreWoken s).put (.irq c k p) := by
  simp only [State.irq]
  repeat' split
  all_goals first | exact .inl rfl | exact .inr ⟨_, _, _, rfl⟩

theorem State.irq_rg_other (s : State) (n off : Nat) (h : off ≠ PWR_STAT) : (s.irq n).rg off = s.rg off := by
  have w : (coreWoken s).rg off = s.rg off := by
    obtain h0 | h0 := coreWoken_cases s <;> rw [h0]
    exact s.fset_rg_other _ _ _ _ h
  obtain h0 | ⟨c, k, p, h0⟩ := s.irq_cases n <;> rw [h0]
  exact w

/-! Instructions of a Bobbin (R252, R260, R452). -/

/-- An instruction that can issue has its effect on the state with its index noted; one that cannot leaves the state as it is. -/
theorem issue_cases (b : Nat) (w : Option Nat) (vs : List Nat) (f : Bob → State → State) (s : State) :
    (canIssue s b w vs = true ∧ issue b w vs f s = f { s.bob b with last := (s.bob b).pc } (s.setBob b { s.bob b with last := (s.bob b).pc })) ∨
    (canIssue s b w vs = false ∧ issue b w vs f s = s) := by
  unfold issue
  split
  · exact .inl ⟨by assumption, rfl⟩
  · next h => exact .inr ⟨by simpa using h, rfl⟩

/-- Slots are counted: only the Bobbin's own counters and the sticky bit of wraps change. -/
theorem evSlots_frame (b k n : Nat) (s : State) : ∃ r l, evSlots b k n s = { s with regs := r, levelNs := l } :=
  s.evN_frame _ n

theorem evSlots_rg_other (b k n off : Nat) (s : State) (h : off ≠ PMC_CNT (0x400 + 4 * b + k)) (hs : off ≠ PMC_STAT) : (evSlots b k n s).rg off = s.rg off :=
  s.evN_rg_other _ n off h hs

@[simp] theorem evSlots_bob (b k n c : Nat) (s : State) : (evSlots b k n s).bob c = s.bob c := by
  obtain ⟨r, l, h⟩ := evSlots_frame b k n s
  rw [h]; rfl

/-- An instruction that is not the last of the text retires: the PC goes on with the Bobbin's new state, and its slots are counted. -/
theorem retire_next (b : Nat) (x : Bob) (s : State) (h : x.pc + 1 < x.words) :
    retire b x s = (evSlots b 0 (slotsOf (s.bob b)) s).setBob b { x with pc := x.pc + 1, waits := false } := by
  unfold retire; rw [if_neg (by omega)]

/-- A branch or jump to a target inside the text is taken. -/
theorem jump_taken (b : Nat) (tgt : Int) (old x : Bob) (s : State) (h0 : 0 ≤ tgt) (h1 : tgt < old.words) :
    jump b tgt old x s = (traceBob b old (evSlots b 1 1 (evSlots b 0 1 s))).setBob b { x with pc := tgt.toNat } := by
  unfold jump; rw [if_neg (by omega)]

/-- One to a target outside it ends the program with BOB_E_PC_RANGE. -/
theorem jump_outside (b : Nat) (tgt : Int) (old x : Bob) (s : State) (h : tgt < 0 ∨ (old.words : Int) ≤ tgt) :
    jump b tgt old x s = bobFault b C.BOB_E_PC_RANGE (s.setBob b old) := by
  unfold jump; rw [if_pos h]

end Sys2Proof.Machine
end

