-- ==== Sys2Proof/WellFormed.lean ====
section
/-! DEFINITION. Well-formed commands: every number that names a unit, a register field or a choice is in its range. Thimble services take their arguments as
they come (R486). -/

namespace Sys2Proof.WellFormed

/-- One of 64 Bobbins. -/
def bobOk (x : Nat) : Bool := decide (x < 64)
/-- One of 24 channels, cipher units, Pleat units or Hem controllers. -/
def chanOk (x : Nat) : Bool := decide (x < 24)
/-- One of 16 link ports. -/
def portOk (x : Nat) : Bool := decide (x < 16)
/-- A port of arrival: 16 is the device itself. -/
def arrPortOk (x : Nat) : Bool := decide (x < 17)
/-- One of four management cores. -/
def coreOk (x : Nat) : Bool := decide (x < 4)
/-- One of four planes of the Interlining. -/
def planeOk (x : Nat) : Bool := decide (x < 4)
/-- A row or column of the Interlining. -/
def coordOk (x : Nat) : Bool := decide (x < 8)
/-- A class of tokens (R29). -/
def clsOk (x : Nat) : Bool := decide (x < 3)
/-- A direction, or the agent port. -/
def dirOk (x : Nat) : Bool := decide (x < 5)
/-- An input of a node: four channels and four agents. -/
def inpOk (x : Nat) : Bool := decide (x < 8)
/-- One of 1,024 Spools. -/
def spoolOk (x : Nat) : Bool := decide (x < 1024)
/-- A Gusset group. -/
def groupOk (x : Nat) : Bool := decide (x < 2)
/-- One of 32 key regions. -/
def regionOk (x : Nat) : Bool := decide (x < 32)
/-- One of 17 lanes of a port (R11). -/
def laneOk (x : Nat) : Bool := decide (x < 17)
/-- One of 28 regulated masters (R438). -/
def masterOk (x : Nat) : Bool := decide (x < 28)
/-- One of 512 SRAM banks. -/
def bankOk (x : Nat) : Bool := decide (x < 512)
/-- One of 128 quads of banks. -/
def quadOk (x : Nat) : Bool := decide (x < 128)
/-- A word of a bank. -/
def sramWordOk (x : Nat) : Bool := decide (x < 16384)
/-- A kind of access (R429). -/
def sramKindOk (x : Nat) : Bool := decide (x < 5)
/-- A five-bit register field (R255). -/
def gprOk (x : Nat) : Bool := decide (x < 32)
/-- A 16-bit immediate. -/
def immOk (x : Nat) : Bool := decide (x < 65536)
/-- One of 16 stitch tags. -/
def tagOk (x : Nat) : Bool := decide (x < 16)
/-- Three flag bits. -/
def flagsOk (x : Nat) : Bool := decide (x < 8)
/-- A three-bit function field. -/
def fnOk (x : Nat) : Bool := decide (x < 8)
/-- A 13-bit immediate. -/
def imm13Ok (x : Nat) : Bool := decide (x < 8192)
/-- One of four 16-bit pieces. -/
def piece4Ok (x : Nat) : Bool := decide (x < 4)
/-- One of eight words of a line register. -/
def word8Ok (x : Nat) : Bool := decide (x < 8)
/-- One of 512 head-map entries. -/
def hmapOk (x : Nat) : Bool := decide (x < 512)
/-- One of 64 Gusset ranges. -/
def grOk (x : Nat) : Bool := decide (x < 64)
/-- One of 16 HDM decoders. -/
def decOk (x : Nat) : Bool := decide (x < 16)
/-- One of 17 capability words. -/
def capWordOk (x : Nat) : Bool := decide (x < 17)
/-- One of four trusted-use words. -/
def tuseOk (x : Nat) : Bool := decide (x < 4)
/-- An assignment unit. -/
def unitOk (x : Nat) : Bool := decide (x < 256)
/-- One of eight virtual channels. -/
def vcOk (x : Nat) : Bool := decide (x < 8)
/-- A node ID. -/
def nodeOk (x : Nat) : Bool := decide (x < 16384)
/-- A transaction ID. -/
def tidOk (x : Nat) : Bool := decide (x < 4294967296)
/-- One of five event logs. -/
def logOk (x : Nat) : Bool := decide (x < 5)
/-- A fault source ID. -/
def srcOk (x : Nat) : Bool := decide (x < 4096)
/-- An element. -/
def elemOk (x : Nat) : Bool := decide (x < 65536)
/-- A mask of five rails. -/
def railsOk5 (x : Nat) : Bool := decide (x < 32)
/-- A reset at PWROK or at RESET_N. -/
def kind2Ok (x : Nat) : Bool := decide (x < 2)
/-- A halt, step or resume request. -/
def kind3Ok (x : Nat) : Bool := decide (x < 3)
/-- Transient, column or bank. -/
def res3Ok (x : Nat) : Bool := decide (x < 3)
/-- A recall answer of R225 or R104. -/
def rsp3Ok (x : Nat) : Bool := decide (x < 5)
/-- An offset in the thermal page. -/
def thermOk (x : Nat) : Bool := decide (x < 4096)
/-- One of the transports of R507: MCTP over I3C, MCTP over PCIe VDM, or DOE of a head. -/
def transportOk (x : Nat) : Bool := decide (x < 18)
/-- A byte mask of a line. -/
def maskOk (x : Nat) : Bool := decide (x < 18446744073709551616)
/-- One of four ranks of a channel. -/
def rankOk (x : Nat) : Bool := decide (x < 4)
/-- A 16-bit opcode. -/
def opOk (x : Nat) : Bool := decide (x < 65536)
/-- A link width code. -/
def widthOk (x : Nat) : Bool := decide (x < 4)
/-- A key slot. -/
def slotOk (x : Nat) : Bool := decide (x < 2)
/-- The address of a line. -/
def lineAddrOk (x : Nat) : Bool := x % 64 == 0

end Sys2Proof.WellFormed

namespace Sys2Proof

open WellFormed in
/-- The command is well formed. -/
def wellFormed : Instr → Bool
  | .controlSpaceWrite _ _ _ _ _ => true
  | .tokenTransfer plane row col dir _ inp cls _ => planeOk plane && coordOk row && coordOk col && dirOk dir && inpOk inp && clsOk cls
  | .stallWatchdog plane row col => planeOk plane && coordOk row && coordOk col
  | .remapComplete plane => planeOk plane
  | .speedMeasurement _ => true
  | .start _ _ => true
  | .planeEnWrite _ _ => true
  | .d2dLinkLoss => true
  | .descriptorFill _ => true
  | .descriptorEvict _ => true
  | .cxlMemRequest p _ _ _ _ _ mask _ _ => portOk p && maskOk mask
  | .guestRequest _ => true
  | .perstAssert p => portOk p
  | .perstRelease p => portOk p
  | .surpriseLinkDown p => portOk p
  | .hotReset p => portOk p
  | .linkDisable p => portOk p
  | .cxlReset p => portOk p
  | .functionLevelReset p => portOk p
  | .linkUp p width _ _ => portOk p && widthOk width
  | .l0pWidthChange p width => portOk p && widthOk width
  | .linkRecovery p => portOk p
  | .release _ p _ => portOk p
  | .hmapaWrite _ p n _ => portOk p && hmapOk n
  | .hmapbWrite _ p n _ => portOk p && hmapOk n
  | .dpalayoutWrite _ p _ => portOk p
  | .hdmCommit p i _ _ _ _ _ _ _ _ => portOk p && decOk i
  | .initiateDynamicCapacityAdd p _ => portOk p
  | .addDcResponse p _ => portOk p
  | .releaseDc p _ => portOk p
  | .forcedRelease p _ _ => portOk p
  | .getEventRecords p log => portOk p && logOk log
  | .clearEventRecords p log _ _ => portOk p && logOk log
  | .getEventInterruptPolicy p => portOk p
  | .setEventInterruptPolicy p _ => portOk p
  | .getFwInfo p => portOk p
  | .getTimestamp p => portOk p
  | .setTimestamp p _ => portOk p
  | .getSupportedLogs p => portOk p
  | .getLog p _ _ _ => portOk p
  | .identifyMemoryDevice p => portOk p
  | .getPartitionInfo p => portOk p
  | .getHealthInfo p => portOk p
  | .getAlertConfiguration p => portOk p
  | .setAlertConfiguration p _ => portOk p
  | .getPoisonList p _ _ => portOk p
  | .injectPoison p _ => portOk p
  | .clearPoison p _ _ => portOk p
  | .getDcConfiguration p => portOk p
  | .getDcExtentList p => portOk p.1
  | .getSpoolAssignment p => portOk p
  | .resetSpool p q => portOk p && spoolOk q
  | .getProgramDirectory p => portOk p.1
  | .getStatusDetail p => portOk p
  | .mailboxUnsupported p op => portOk p && opOk op
  | .cdatRead p _ _ => portOk p
  | .spdmRequest transport _ _ => transportOk transport
  | .cxlIdeKm p _ key => portOk p && slotOk key.1
  | .homeReadShared _ => true
  | .homeReadExclusive _ => true
  | .homeReadCurrent _ => true
  | .homeWrite _ => true
  | .homeWriteBack _ => true
  | .homeCleanEvict _ => true
  | .recallResponse la bit rsp _ _ => lineAddrOk la && gprOk bit && rsp3Ok rsp
  | .snoopTimeout la p => lineAddrOk la && portOk p
  | .proxySnoop node tid => nodeOk node && tidOk tid
  | .dirRecallStart _ _ => true
  | .recallComplete => true
  | .lineWriteback la => lineAddrOk la
  | .waitingWriteResume la => lineAddrOk la
  | .heldLineWriteback la => lineAddrOk la
  | .waitingReadResume c => chanOk c
  | .flushStart _ _ => true
  | .flushComplete => true
  | .coldSegmentRead la => lineAddrOk la
  | .pleatLaneGrant u => chanOk u
  | .promotion la => lineAddrOk la
  | .stripeCloseTimeout g => groupOk g
  | .stripeWritten g _ => groupOk g
  | .demoteFinish _ => true
  | .logTailWrite _ g _ => groupOk g
  | .gussetRangeWrite _ n _ => grOk n
  | .keyRegionWrite _ k _ => regionOk k
  | .keyLoad _ k _ => regionOk k
  | .keyCurWrite _ k _ => regionOk k
  | .keyErase _ k _ => regionOk k
  | .keySweepStart _ _ => true
  | .sweepPage => true
  | .keySweepStop _ _ => true
  | .linkKeyLoad _ _ => true
  | .keyFUnit c => chanOk c
  | .programLaunch b => bobOk b
  | .stAdd b rd rs1 rs2 => bobOk b && gprOk rd && gprOk rs1 && gprOk rs2
  | .stSub b rd rs1 rs2 => bobOk b && gprOk rd && gprOk rs1 && gprOk rs2
  | .stAnd b rd rs1 rs2 => bobOk b && gprOk rd && gprOk rs1 && gprOk rs2
  | .stOr b rd rs1 rs2 => bobOk b && gprOk rd && gprOk rs1 && gprOk rs2
  | .stXor b rd rs1 rs2 => bobOk b && gprOk rd && gprOk rs1 && gprOk rs2
  | .stAndn b rd rs1 rs2 => bobOk b && gprOk rd && gprOk rs1 && gprOk rs2
  | .stSll b rd rs1 rs2 => bobOk b && gprOk rd && gprOk rs1 && gprOk rs2
  | .stSrl b rd rs1 rs2 => bobOk b && gprOk rd && gprOk rs1 && gprOk rs2
  | .stSra b rd rs1 rs2 => bobOk b && gprOk rd && gprOk rs1 && gprOk rs2
  | .stRotr b rd rs1 rs2 => bobOk b && gprOk rd && gprOk rs1 && gprOk rs2
  | .stSlt b rd rs1 rs2 => bobOk b && gprOk rd && gprOk rs1 && gprOk rs2
  | .stSltu b rd rs1 rs2 => bobOk b && gprOk rd && gprOk rs1 && gprOk rs2
  | .stMul b rd rs1 rs2 => bobOk b && gprOk rd && gprOk rs1 && gprOk rs2
  | .stMulhu b rd rs1 rs2 => bobOk b && gprOk rd && gprOk rs1 && gprOk rs2
  | .stDivu b rd rs1 rs2 => bobOk b && gprOk rd && gprOk rs1 && gprOk rs2
  | .stRemu b rd rs1 rs2 => bobOk b && gprOk rd && gprOk rs1 && gprOk rs2
  | .stDiv b rd rs1 rs2 => bobOk b && gprOk rd && gprOk rs1 && gprOk rs2
  | .stRem b rd rs1 rs2 => bobOk b && gprOk rd && gprOk rs1 && gprOk rs2
  | .stClz b rd rs1 => bobOk b && gprOk rd && gprOk rs1
  | .stCtz b rd rs1 => bobOk b && gprOk rd && gprOk rs1
  | .stPopc b rd rs1 => bobOk b && gprOk rd && gprOk rs1
  | .stBswap b rd rs1 => bobOk b && gprOk rd && gprOk rs1
  | .stAddi b rd rs1 imm => bobOk b && gprOk rd && gprOk rs1 && immOk imm
  | .stAndi b rd rs1 imm => bobOk b && gprOk rd && gprOk rs1 && immOk imm
  | .stOri b rd rs1 imm => bobOk b && gprOk rd && gprOk rs1 && immOk imm
  | .stXori b rd rs1 imm => bobOk b && gprOk rd && gprOk rs1 && immOk imm
  | .stSlti b rd rs1 imm => bobOk b && gprOk rd && gprOk rs1 && immOk imm
  | .stSltiu b rd rs1 imm => bobOk b && gprOk rd && gprOk rs1 && immOk imm
  | .stShi b rd rs1 imm => bobOk b && gprOk rd && gprOk rs1 && immOk imm
  | .stIns16 b rd k imm => bobOk b && gprOk rd && piece4Ok k && immOk imm
  | .stRdsys b rd imm => bobOk b && gprOk rd && immOk imm
  | .stBeq b rs1 rs2 off => bobOk b && gprOk rs1 && gprOk rs2 && immOk off
  | .stBne b rs1 rs2 off => bobOk b && gprOk rs1 && gprOk rs2 && immOk off
  | .stBlt b rs1 rs2 off => bobOk b && gprOk rs1 && gprOk rs2 && immOk off
  | .stBge b rs1 rs2 off => bobOk b && gprOk rs1 && gprOk rs2 && immOk off
  | .stBltu b rs1 rs2 off => bobOk b && gprOk rs1 && gprOk rs2 && immOk off
  | .stBgeu b rs1 rs2 off => bobOk b && gprOk rs1 && gprOk rs2 && immOk off
  | .stJal b rd imm => bobOk b && gprOk rd && immOk imm
  | .stJalr b rd rs1 imm => bobOk b && gprOk rd && gprOk rs1 && immOk imm
  | .stVmov b rd rs1 => bobOk b && gprOk rd && gprOk rs1
  | .stVxor b rd rs1 rs2 => bobOk b && gprOk rd && gprOk rs1 && gprOk rs2
  | .stVand b rd rs1 rs2 => bobOk b && gprOk rd && gprOk rs1 && gprOk rs2
  | .stVor b rd rs1 rs2 => bobOk b && gprOk rd && gprOk rs1 && gprOk rs2
  | .stVzero b rd => bobOk b && gprOk rd
  | .stVget b rd rs1 i => bobOk b && gprOk rd && gprOk rs1 && word8Ok i
  | .stVput b rd rs1 i => bobOk b && gprOk rd && gprOk rs1 && word8Ok i
  | .stVcmp b rd rs1 rs2 => bobOk b && gprOk rd && gprOk rs1 && gprOk rs2
  | .stLds b rt rb fn imm => bobOk b && gprOk rt && gprOk rb && fnOk fn && imm13Ok imm
  | .stSts b rt rb fn imm => bobOk b && gprOk rt && gprOk rb && fnOk fn && imm13Ok imm
  | .stLdv b rt rb imm => bobOk b && gprOk rt && gprOk rb && imm13Ok imm
  | .stStv b rt rb imm => bobOk b && gprOk rt && gprOk rb && imm13Ok imm
  | .stAadd b rd rs1 rs2 => bobOk b && gprOk rd && gprOk rs1 && gprOk rs2
  | .stAswp b rd rs1 rs2 => bobOk b && gprOk rd && gprOk rs1 && gprOk rs2
  | .stLdl b rt rb imm => bobOk b && gprOk rt && gprOk rb && imm13Ok imm
  | .ldlReturn b _ => bobOk b
  | .stStl b rt rb imm => bobOk b && gprOk rt && gprOk rb && imm13Ok imm
  | .stStlm b rd rs1 rs2 => bobOk b && gprOk rd && gprOk rs1 && gprOk rs2
  | .storeResult b _ => bobOk b
  | .stCopy b rd rs rl tag flags => bobOk b && gprOk rd && gprOk rs && gprOk rl && tagOk tag && flagsOk flags
  | .stFill b rd rs rl tag flags => bobOk b && gprOk rd && gprOk rs && gprOk rl && tagOk tag && flagsOk flags
  | .stCrc32c b rd rs rl tag flags => bobOk b && gprOk rd && gprOk rs && gprOk rl && tagOk tag && flagsOk flags
  | .stHash64 b rd rs rl tag flags => bobOk b && gprOk rd && gprOk rs && gprOk rl && tagOk tag && flagsOk flags
  | .stScan b rd rs rl tag flags => bobOk b && gprOk rd && gprOk rs && gprOk rl && tagOk tag && flagsOk flags
  | .stCmpr b rd rs rl tag flags => bobOk b && gprOk rd && gprOk rs && gprOk rl && tagOk tag && flagsOk flags
  | .stDcmpr b rd rs rl tag flags => bobOk b && gprOk rd && gprOk rs && gprOk rl && tagOk tag && flagsOk flags
  | .stMigrate b rd rs rl tag flags => bobOk b && gprOk rd && gprOk rs && gprOk rl && tagOk tag && flagsOk flags
  | .stMigrateRelocate b rd rs rl tag flags => bobOk b && gprOk rd && gprOk rs && gprOk rl && tagOk tag && flagsOk flags
  | .stitchDone b tag => bobOk b && tagOk tag
  | .stWait b rd tag => bobOk b && gprOk rd && tagOk tag
  | .stTest b rd tag => bobOk b && gprOk rd && tagOk tag
  | .stTres b rd tag => bobOk b && gprOk rd && tagOk tag
  | .stFenceL b => bobOk b
  | .stFenceT b => bobOk b
  | .stFenceA b => bobOk b
  | .stDescrd b rd rs1 rs2 => bobOk b && gprOk rd && gprOk rs1 && gprOk rs2
  | .stDescwr b rd rs1 rs2 => bobOk b && gprOk rd && gprOk rs1 && gprOk rs2
  | .stDescacc b rd rs1 rs2 => bobOk b && gprOk rd && gprOk rs1 && gprOk rs2
  | .stDesccas b rd rs1 rs2 => bobOk b && gprOk rd && gprOk rs1 && gprOk rs2
  | .stPromote b rd rs1 => bobOk b && gprOk rd && gprOk rs1
  | .stDemote b rd rs1 => bobOk b && gprOk rd && gprOk rs1
  | .stFramepush b rd rs1 => bobOk b && gprOk rd && gprOk rs1
  | .stPost b rd rs1 rs2 => bobOk b && gprOk rd && gprOk rs1 && gprOk rs2
  | .stEnd b => bobOk b
  | .illegalInstruction b => bobOk b
  | .programDrainComplete b => bobOk b
  | .programTimeout b => bobOk b
  | .bobbinEngineFault b => bobOk b
  | .spoolDoorbell _ q _ => spoolOk q
  | .spoolConsume q => spoolOk q
  | .slotReread q => spoolOk q
  | .en _ q _ => spoolOk q
  | .splReset _ q _ => spoolOk q
  | .spoolResetFinish q => spoolOk q
  | .spoolAbort _ q _ => spoolOk q
  | .capabilityWrite _ q w _ => spoolOk q && capWordOk w
  | .ringBaseWrite _ q _ _ => spoolOk q
  | .drain _ b _ => bobOk b
  | .spoolIrqDelay q => spoolOk q
  | .flitTransmit p => portOk p
  | .flitReceive p _ => portOk p
  | .replayTimeout p => portOk p
  | .skipBlock p _ _ => portOk p
  | .linkTrain p => portOk p
  | .linkAligned p => portOk p
  | .rsyncSend p => portOk p
  | .rsyncReceive p _ => portOk p
  | .symbolLockLoss p => portOk p
  | .retrainAttemptEnd p => portOk p
  | .linkDown p => portOk p
  | .messageRoute p vc => arrPortOk p && vcOk vc
  | .transactionIssue _ => true
  | .lostnoteReceive p => arrPortOk p
  | .transactionRetry tid => tidOk tid
  | .completionReceive p vc => arrPortOk p && vcOk vc
  | .graceExpiry tid => tidOk tid
  | .transactionArrival p vc => arrPortOk p && vcOk vc
  | .skipReceive p => arrPortOk p
  | .svcNotice p => arrPortOk p
  | .fabDfclear _ _ => true
  | .routeWrite _ d _ => nodeOk d
  | .timeSet _ _ => true
  | .notchExchange p => portOk p
  | .notchsync p => portOk p
  | .notchfup p => portOk p
  | .notchreq p => portOk p
  | .notchrsp p => portOk p
  | .holdover => true
  | .holdoverTimeout => true
  | .dramRequestAdmit c _ => chanOk c
  | .dramCommandIssue c _ _ => chanOk c
  | .dramReadComplete c _ _ => chanOk c
  | .rowTestComplete c _ _ => chanOk c
  | .dramWriteComplete c _ => chanOk c
  | .refreshDue c => chanOk c
  | .mr4Read c _ => chanOk c
  | .caParityAlert c _ => chanOk c
  | .scrubStart _ c _ => chanOk c
  | .scrubComplete c => chanOk c
  | .channelTrain c _ _ => chanOk c
  | .trainingStepComplete c _ => chanOk c
  | .dqsTracking c rank _ => chanOk c && rankOk rank
  | .zqCalibration c => chanOk c
  | .channelDrain _ c _ => chanOk c
  | .fence _ c _ => chanOk c
  | .retrain _ c _ => chanOk c
  | .channelRequestProceed c => chanOk c
  | .channelRequestTimeout c => chanOk c
  | .retrainComplete c _ => chanOk c
  | .channelTestComplete c _ => chanOk c
  | .pmicFault c => chanOk c
  | .rebuildRingPoll c => chanOk c
  | .rebuildFrame c => chanOk c
  | .rbringEn _ c _ => chanOk c
  | .sramAccess bank word kind _ mask _ => bankOk bank && sramWordOk word && sramKindOk kind && maskOk mask
  | .backgroundRegionTest quad => quadOk quad
  | .sramTestStart _ _ => true
  | .regionTestComplete bank result => bankOk bank && res3Ok result
  | .regulatePeriod c => chanOk c
  | .regulationWindow c => chanOk c
  | .qosShareWrite _ m _ _ => masterOk m
  | .clear _ h _ => chanOk h
  | .go _ _ => true
  | .snapshotBroadcast => true
  | .faultReport _ => true
  | .selftestComplete src _ => srcOk src
  | .selftestNoWindow src elem => srcOk src && elemOk elem
  | .collectorCheckFailure src _ => srcOk src
  | .ack _ _ => true
  | .readmitGo _ _ => true
  | .readmitStageComplete _ => true
  | .exitBastingWrite _ _ => true
  | .haltRelease _ _ _ => true
  | .version core => coreOk core
  | .faultNext core _ => coreOk core
  | .faultAck core _ => coreOk core
  | .readmit core _ _ => coreOk core
  | .exitBasting core => coreOk core
  | .keyCtlLoad core _ _ => coreOk core
  | .keyCtlSetCur core _ _ => coreOk core
  | .keyCtlErase core _ => coreOk core
  | .keyCtlSetRange core _ _ _ => coreOk core
  | .progInstall core _ _ _ => coreOk core
  | .progRemove core _ => coreOk core
  | .measure core _ _ => coreOk core
  | .debugN core _ => coreOk core
  | .warmReset core => coreOk core
  | .svnCommit core => coreOk core
  | .ecallNoService core _ => coreOk core
  | .assignmentLock _ _ => true
  | .dinit _ _ => true
  | .dinitComplete => true
  | .warm _ _ => true
  | .corerst _ _ => true
  | .mrextGo _ _ => true
  | .lock0 _ _ => true
  | .watchdogExpiry => true
  | .kick _ _ => true
  | .coldReset kind _ => kind2Ok kind
  | .coldBootStepComplete _ _ => true
  | .pwrokFall => true
  | .debugHaltRequest core kind _ => coreOk core && kind3Ok kind
  | .p1Entry => true
  | .p1Exit => true
  | .p2Entry _ _ => true
  | .p3Entry _ _ => true
  | .p4Entry _ _ => true
  | .powerEntryComplete => true
  | .wake _ => true
  | .timerWake => true
  | .resumeStepComplete _ _ _ => true
  | .gate _ u _ => unitOk u
  | .reqMv _ _ => true
  | .rampStart h => chanOk h
  | .powerGood h => chanOk h
  | .hemFGateStuck h => chanOk h
  | .currentLimit h => chanOk h
  | .currentLimitClear h => chanOk h
  | .hemFOvercurrent h => chanOk h
  | .hemFShort h => chanOk h
  | .hemWVinLow h => chanOk h
  | .retryExpiry h => chanOk h
  | .presenceEdge h _ => chanOk h
  | .railOff _ h _ => chanOk h
  | .railOn _ h _ => chanOk h
  | .clrpeak _ h _ => chanOk h
  | .hemCfgWrite _ h _ => chanOk h
  | .telemetryConversion h _ _ => chanOk h
  | .trackingWindow p l _ _ => portOk p && laneOk l
  | .trimStep p l => portOk p && laneOk l
  | .recalibrate _ _ => true
  | .laneCheck _ _ => true
  | .recalStepComplete p _ _ _ => portOk p
  | .calENoWindow p => portOk p
  | .calFLaneBurst p l _ => portOk p && laneOk l
  | .laneCheckComplete p _ _ => portOk p
  | .prbsWrite _ p l _ => portOk p && laneOk l
  | .clr _ p l _ => portOk p && laneOk l
  | .marchC _ _ => true
  | .rowPerBank _ _ => true
  | .moduleMbist _ _ => true
  | .mbistComplete _ => true
  | .extest => true
  | .idcode => true
  | .samplePreload _ _ => true
  | .clamp => true
  | .highz => true
  | .extestPulse => true
  | .extestTrain => true
  | .dtmcs => true
  | .dmi _ => true
  | .bist _ => true
  | .bypass => true
  | .brownout rails => railsOk5 rails
  | .thermalTrip => true
  | .sensorConversion _ _ => true
  | .thermalPageWrite i _ => thermOk i
  | .d2dLinkReturn => true
  | .linkLocalMessage p vc => portOk p && vcOk vc
  | .tuseWrite _ i _ => tuseOk i
  | .vddCoreChange _ => true
  | .hostLinkL1Entry p => portOk p

end Sys2Proof
end

