-- ==== Sys2Proof/Tests/Slice0.lean ====
section
/-! SUPPORT. Tests: an ill-formed term for each check of WellFormed; the spec's worked examples; and, for each clause of each statement in Obligations.lean
that has hypotheses, a concrete state and operands that meet them (`witness_<statement>_<n>`). -/

namespace Sys2Proof.Machine

/-- The write that `admitted` speaks of, as the checks compute it. -/
def wr (who : Who) (off : Nat) (val : Word) (s : State) : CtlWrite := match ctlCheck who off 8 val.toNat false s with
  | .ok w => w
  | .error _ => ⟨⟨⟨.GLB_ID, 0, [], [], 0⟩, []⟩, 0, 0, 0, true⟩

/-- The write is admitted, as a test that computes. -/
def isAdmitted (who : Who) (off : Nat) (val : Word) (s : State) : Bool := ctlOpen s && !(wr who off val s).worldErr

theorem admitted_of {who : Who} {off : Nat} {val : Word} {s : State} (h : isAdmitted who off val s = true) : admitted who off val s (wr who off val s) := by
  simp only [isAdmitted, Bool.and_eq_true, Bool.not_eq_true'] at h
  refine ⟨h.1, ?_, h.2⟩
  unfold wr at h ⊢
  split
  · assumption
  · simp_all

theorem ready_of {s : State} {b w : Nat} (h : b < 64 ∧ coreOpen s = true ∧ (s.bob b).run = 1 ∧ (s.bob b).opRd = none ∧ (s.bob b).disc = none ∧
    ((∀ x ∈ s.tier.pleat, x.la ≠ bobWork b) ∧ ∀ r ∈ s.home.waiting, r.who ≠ .desc b) ∧
    tabGet (fun _ => 0) (s.bob b).text (s.bob b).pc = w ∧ (s.bob b).pc + 1 < (s.bob b).words ∧ (s.bob b).words ≤ 8192) : bobReady s b w := h

theorem xor_ne (x : Nat) : x ^^^ 3 ≠ x := fun h => by
  have := Nat.xor_right_inj.mp (h.trans (Nat.xor_zero x).symm)
  omega

theorem pair_of {α β : Type} {x : α × β} {a : α} (h : x.1 = a) : x = (a, x.2) := by rw [← h]

theorem some_getD {α : Type} {x : Option α} {d : α} (h : x.isSome = true) : x = some (x.getD d) := by
  cases x with
  | none => cases h
  | some a => rfl

theorem dropSlotRead_id {s : State} {q : Nat} (h : (dropSlotRead s q).spools = s.spools ∧ (dropSlotRead s q).home.waiting = s.home.waiting ∧
    (dropSlotRead s q).home.toHome = s.home.toHome ∧ (dropSlotRead s q).home.bobReplies = s.home.bobReplies) : dropSlotRead s q = s := by
  obtain ⟨h1, h2, h3, h4⟩ := h
  have e : dropSlotRead s q = { s with spools := (dropSlotRead s q).spools, home := { s.home with
    waiting := (dropSlotRead s q).home.waiting, toHome := (dropSlotRead s q).home.toHome, bobReplies := (dropSlotRead s q).home.bobReplies } } := rfl
  rw [e, h1, h2, h3, h4]

theorem route_answer {s : State} {m : Msg} {p : Nat} (h : routePort s (reqAnswer s m 0 0 0 0) 16 = some p) :
    ∀ opc status data, routePort s (reqAnswer s m opc status 0 data) 16 = some p := by
  intro _ _ _
  unfold routePort at h ⊢
  exact h

/-- Registers set field by field. -/
def State.sets (s : State) (l : List (Nat × Fld × Nat)) : State := l.foldl (fun t e => t.fset e.1 e.2.1 e.2.2) s

end Sys2Proof.Machine
namespace Sys2Proof.Machine
/-- A written value from its fields. -/
def fv (l : List (Fld × Nat)) : Word := BitVec.ofNat 64 (l.foldl (fun v e => putf v e.1 e.2) 0)
end Sys2Proof.Machine

open Sys2Proof Sys2Proof.Machine

set_option maxRecDepth 100000
set_option Elab.async false

/-! WellFormed refuses an operand outside its range. -/

theorem test_ill_planeOk : wellFormed (.tokenTransfer 4 0 0 0 none 0 0 (0, 0)) = false := by decide
theorem test_ill_coordOk : wellFormed (.tokenTransfer 0 8 0 0 none 0 0 (0, 0)) = false := by decide
theorem test_ill_dirOk : wellFormed (.tokenTransfer 0 0 0 5 none 0 0 (0, 0)) = false := by decide
theorem test_ill_inpOk : wellFormed (.tokenTransfer 0 0 0 0 none 8 0 (0, 0)) = false := by decide
theorem test_ill_clsOk : wellFormed (.tokenTransfer 0 0 0 0 none 0 3 (0, 0)) = false := by decide
theorem test_ill_portOk : wellFormed (.cxlMemRequest 16 0 0 0 0 0 0 false false) = false := by decide
theorem test_ill_maskOk : wellFormed (.cxlMemRequest 0 0 0 0 0 0 18446744073709551616 false false) = false := by decide
theorem test_ill_widthOk : wellFormed (.linkUp 0 4 0 0) = false := by decide
theorem test_ill_hmapOk : wellFormed (.hmapaWrite (.trusted 0) 0 512 0) = false := by decide
theorem test_ill_decOk : wellFormed (.hdmCommit 0 16 0 0 0 0 0 false false (false, false)) = false := by decide
theorem test_ill_logOk : wellFormed (.getEventRecords 0 5) = false := by decide
theorem test_ill_spoolOk : wellFormed (.resetSpool 0 1024) = false := by decide
theorem test_ill_opOk : wellFormed (.mailboxUnsupported 0 65536) = false := by decide
theorem test_ill_transportOk : wellFormed (.spdmRequest 18 0 0) = false := by decide
theorem test_ill_slotOk : wellFormed (.cxlIdeKm 0 0 (2, 0)) = false := by decide
theorem test_ill_lineAddrOk : wellFormed (.recallResponse 1 0 0 none false) = false := by decide
theorem test_ill_gprOk : wellFormed (.recallResponse 0 32 0 none false) = false := by decide
theorem test_ill_rsp3Ok : wellFormed (.recallResponse 0 0 5 none false) = false := by decide
theorem test_ill_nodeOk : wellFormed (.proxySnoop 16384 0) = false := by decide
theorem test_ill_tidOk : wellFormed (.proxySnoop 0 4294967296) = false := by decide
theorem test_ill_chanOk : wellFormed (.waitingReadResume 24) = false := by decide
theorem test_ill_groupOk : wellFormed (.stripeCloseTimeout 2) = false := by decide
theorem test_ill_grOk : wellFormed (.gussetRangeWrite (.trusted 0) 64 0) = false := by decide
theorem test_ill_regionOk : wellFormed (.keyRegionWrite (.trusted 0) 32 0) = false := by decide
theorem test_ill_bobOk : wellFormed (.programLaunch 64) = false := by decide
theorem test_ill_immOk : wellFormed (.stAddi 0 0 0 65536) = false := by decide
theorem test_ill_piece4Ok : wellFormed (.stIns16 0 0 4 0) = false := by decide
theorem test_ill_word8Ok : wellFormed (.stVget 0 0 0 8) = false := by decide
theorem test_ill_fnOk : wellFormed (.stLds 0 0 0 8 0) = false := by decide
theorem test_ill_imm13Ok : wellFormed (.stLds 0 0 0 0 8192) = false := by decide
theorem test_ill_tagOk : wellFormed (.stCopy 0 0 0 0 16 0) = false := by decide
theorem test_ill_flagsOk : wellFormed (.stCopy 0 0 0 0 0 8) = false := by decide
theorem test_ill_capWordOk : wellFormed (.capabilityWrite (.trusted 0) 0 17 0) = false := by decide
theorem test_ill_arrPortOk : wellFormed (.messageRoute 17 0) = false := by decide
theorem test_ill_vcOk : wellFormed (.messageRoute 0 8) = false := by decide
theorem test_ill_rankOk : wellFormed (.dqsTracking 0 4 0) = false := by decide
theorem test_ill_bankOk : wellFormed (.sramAccess 512 0 0 0 0 0) = false := by decide
theorem test_ill_sramWordOk : wellFormed (.sramAccess 0 16384 0 0 0 0) = false := by decide
theorem test_ill_sramKindOk : wellFormed (.sramAccess 0 0 5 0 0 0) = false := by decide
theorem test_ill_quadOk : wellFormed (.backgroundRegionTest 128) = false := by decide
theorem test_ill_res3Ok : wellFormed (.regionTestComplete 0 3) = false := by decide
theorem test_ill_masterOk : wellFormed (.qosShareWrite (.trusted 0) 28 false 0) = false := by decide
theorem test_ill_srcOk : wellFormed (.selftestComplete 4096 false) = false := by decide
theorem test_ill_elemOk : wellFormed (.selftestNoWindow 0 65536) = false := by decide
theorem test_ill_coreOk : wellFormed (.version 4) = false := by decide
theorem test_ill_kind2Ok : wellFormed (.coldReset 2 false) = false := by decide
theorem test_ill_kind3Ok : wellFormed (.debugHaltRequest 0 3 false) = false := by decide
theorem test_ill_unitOk : wellFormed (.gate (.trusted 0) 256 0) = false := by decide
theorem test_ill_laneOk : wellFormed (.trackingWindow 0 17 0 []) = false := by decide
theorem test_ill_railsOk5 : wellFormed (.brownout 32) = false := by decide
theorem test_ill_thermOk : wellFormed (.thermalPageWrite 4096 0) = false := by decide
theorem test_ill_tuseOk : wellFormed (.tuseWrite (.trusted 0) 4 0) = false := by decide

/-! The spec's worked examples: each expected value stands in the section that the theorem's comment names. -/

/-- The address of the worked example of 02_address_spaces_descriptors.md. -/
def exLa : Nat := 0x0123456789C0

/-- 02: LPN, home slice HA28, plane 3. The descriptor-cache set by the rule R72 (the example's own 339 takes another LPN[17:9]: log entry 135). -/
theorem test_example_home : exLa / 4096 = 305419896 ∧ homeSlice exLa = 28 ∧ planeOf exLa = 3 ∧ dcSet (exLa / 4096) = 0x078 ^^^ 0x02B := by decide

/-- The layout of the examples: 112 GiB of descriptors and mirrors before the cold area, both groups populated. -/
def exLayout : State := State.reset.sets ([(TIR_LAYOUT, F.TIR_LAYOUT_DSIZE, 48), (TIR_GLAYOUT 1, F.TIR_GLAYOUT_MSIZE, 64), (TIR_EXTENT, F.TIR_EXTENT_L3G, 12288)] ++
  (List.range 24).map fun c => (DCH_STAT c, F.DCH_STAT_STATE, 2))

/-- 02: descriptor pair 0 (DC0, twin DC6), entry 25,451,658. -/
theorem test_example_descriptor : descPlace exLayout 305419896 = (0, 6, 25451658 / 64, 25451658 % 64) := by decide +kernel

/-- 02: segment 4 of the page with sector 0x80000F4240 and SEGOFF[4] = 176: channel DC18, frame 29,361,548, sector 22 of its chunk. -/
theorem test_example_cold : coldLocate exLayout (0x80000F4240 + 176 / 8) = (18, 29361548, 1408 / 64) := by decide +kernel

/-- 11_dram_subsystem.md: the physical address of line 22 of that frame. -/
theorem test_example_pa : framePa (State.reset.sets [(DCH_STAT 18, F.DCH_STAT_SLOTS, 3), (DCH_MODULE 18 0, F.DCH_MODULE_RANKS2, 1), (DCH_MODULE 18 0, F.DCH_MODULE_CID, 1)]) 18 29361548 22 = 0x126183800B10 := by
  decide +kernel

/-- 12_onchip_sram.md: line-cache set 755, its way 5 in bank 365; set 339, way 5 of the descriptor cache in bank 371. -/
theorem test_example_banks : lcSet exLa = 755 ∧ lcBank (lcBase exLa + 5) = 365 ∧ dcBank (dcKey 28 339 5) = 371 := by decide

/-- 07_coherence_directory.md: directory set 2,515 and tag 0x55 of line 39 under descriptor set 339, way 5. -/
theorem test_example_directory : dirSet 339 39 = 2515 ∧ dirTag 339 5 = 0x55 := by decide

/-- 03_host_ports_cxl.md: two ways at 4 KiB, the DPA of offset 0x12345A40, and the LA that head-map entry 0 gives it: home HA2, plane 1. -/
theorem test_example_interleave : decOffset 2 4096 0x12345A40 = 0x091A2A40 ∧ homeSlice (0x010000000000 + 0x091A2A40) = 2 ∧ planeOf (0x010000000000 + 0x091A2A40) = 1 := by decide

/-- 05_pleat_compression.md: the 16 bytes of the segment encoded by hand, with PRED 1 and the static code. -/
theorem test_example_segment : (decodeColdSegment [0x01, 0x3F, 0x04, 0x00, 0x03, 0x03, 0x03, 0xFF, 0x47, 0x02, 0x1D, 0, 0, 0, 0, 0]).toOption =
    some ([0x1000, 0x1008, 0x1010, 0x1018] ++ List.replicate 60 0) := by decide +kernel

/-- 05: the device's own encoder chooses XOR1 for that segment, at 82 bits. -/
theorem test_example_encoder : bitCost (encodeSegment 1 0 [] ([0x1000, 0x1008, 0x1010, 0x1018] ++ List.replicate 60 0)) = 82 ∧
    bitCost (encodeSegment 1 0 [] (List.replicate 64 0)) = 8 := by decide +kernel

/-- 08_stitch_isa.md, R150: the check value of CRC-32C over the text of the nine digits. -/
theorem test_example_crc : crc32c [0x31, 0x32, 0x33, 0x34, 0x35, 0x36, 0x37, 0x38, 0x39] = 0xE3069283 := by decide +kernel

/-- R505, R507: the first bytes of SHA-384 of the text abc (FIPS 180-4). -/
theorem test_sha_begins : (sha384 [0x61, 0x62, 0x63]).take 3 = [203, 0, 117] := by decide +kernel

/-- The table gives no row a word, so no word spells a command and the queue stays as it is. -/
theorem test_no_words : decodeTableWord 32 0 = none ∧ State.reset.withFetchWord 32 0 = State.reset := ⟨rfl, rfl⟩

/-- The step takes the front of the queue: here IDCODE, before BYPASS. -/
theorem test_step_takes_front : (match step { State.reset with pending := [.idcode, .bypass] } with
    | .next t => t.pending == [.bypass] && t.tap.ir == 1
    | _ => false) = true := by decide

/-- 18_link_calibration_test.md, R571: PRBS7 from all ones (x^7 + x^6 + 1) begins with six zeros and a one after its seven ones. -/
theorem test_prbs7 : (prbsGen 0 7 127).2 = [0, 0, 0, 0, 0, 0, 1] := by decide

/-- 18_link_calibration_test.md, R571: the Gray map of PAM4. -/
theorem test_gray : [grayLevel 0 0, grayLevel 0 1, grayLevel 1 1, grayLevel 1 0] = [0, 1, 2, 3] := by decide

/-! States of the witnesses. -/

def wTok0 : Token := ⟨3, 4, 1, 2, 1, 5, 1, 7, 0, 64, 9, 0⟩
def wTok : Token := { wTok0 with check := checkOf wTok0 }
def wIln : State := { State.reset with iln := { State.reset.iln with latch := [(latchKey 2 1 3 6 1, some wTok)] } }
def wIlnFull : State := { State.reset with iln := { State.reset.iln with latch := [(latchKey 2 1 3 6 1, some wTok), (latchKey 2 1 4 3 1, some wTok)] } }
def wIlnEnd : State := { State.reset with iln := { State.reset.iln with latch := [(latchKey 2 1 5 3 1, some wTok)], held := [⟨2, wTok, false⟩] } }
def wRemap : State := State.reset.sets [(GLB_ILNSTAT, F.GLB_ILNSTAT_REMAP_BUSY, 4), (GLB_ILNSTAT, F.GLB_ILNSTAT_FENCED, 4)]
def wLostScr : State := { State.reset with bobs := [(3, { Bob.init with lost := [(5, true)] })] }
def wTapLate : State := { State.reset with mgmt := { State.reset.mgmt with step := 12 } }
def wCal : State := State.reset.sets [(CAL_CFG, F.CAL_CFG_TRACK_EN, 1), (CAL_CFG, F.CAL_CFG_AUTO_RECAL, 0), (PRT_CFG 15, F.PRT_CFG_MODE, 1), (PRT_SEAMSTAT 15, F.PRT_SEAMSTAT_STATE, 3)]
def wHem : State := State.reset.sets [(HEM_CTL 23, F.HEM_CTL_EN, 1)]
def wLost : State := { State.reset with pwr := { State.reset.pwr with d2dLost := true } }
def wFull : State := { State.reset.sets [(DCH_CFG 3, F.DCH_CFG_MAXSPD, 1), (DCH_STAT 3, F.DCH_STAT_STATE, 4)] with dram := { State.reset.dram with lines := [(3, 5)] }, pending := [.bypass], spools := [(1, Spool.init)], bobs := [(3, { Bob.init with pc := 7 })] }
def wUp : State := State.reset.sets [(PRT_CFG 15, F.PRT_CFG_MODE, 0), (PRT_LINKSTAT 15, F.PRT_LINKSTAT_UP, 1), (PRT_LINKSTAT 15, F.PRT_LINKSTAT_MEM_EN, 1), (PRT_LINKSTAT 15, F.PRT_LINKSTAT_SPEED, 2), (PRT_LINKSTAT 15, F.PRT_LINKSTAT_FLIT, 1)]
def wHm : State := (wUp.setPort 15 { wUp.port 15 with memEn := true, msixTab := [(1, 0)] }).sets [(PRT_DPALAYOUT 15, F.PRT_DPALAYOUT_STATIC, 4), (PRT_DPALAYOUT 15, F.PRT_DPALAYOUT_DCR0, 4), (PRT_HMAPA 15 0, F.PRT_HMAPA_VALID, 1), (PRT_HMAPA 15 0, F.PRT_HMAPA_DPABASE, 0), (PRT_HMAPA 15 0, F.PRT_HMAPA_LEN, 1023)]
def wTrk : State := ((wUp).setPort 15 { (wUp).port 15 with trk := [⟨5, false, 64, 64, 0⟩], replay := [3], dec := [(0, some ⟨0, 2 ^ 28, 0, 1, 256, true, false⟩)] })
def wRel : State := State.reset.sets [(PRT_CFG 15, F.PRT_CFG_MODE, 0), (PRT_CFG 15, F.PRT_CFG_RELEASE, 1)]
def wDec : State := ((wUp).setPort 15 { (wUp).port 15 with dec := [(0, some ⟨2 ^ 28, 2 ^ 28, 64, 1, 256, true, false⟩)] })
def wMem : State := State.reset.sets ([(TIR_EXTENT, F.TIR_EXTENT_L3G, 1), (TIR_LAYOUT, F.TIR_LAYOUT_DSIZE, 1), (TIR_GLAYOUT 0, F.TIR_GLAYOUT_MSIZE, 1), (TIR_GLAYOUT 0, F.TIR_GLAYOUT_CSIZE, 1), (KEY_RCTL 0, F.KEY_RCTL_LIVE, 1), (TIR_CFG, F.TIR_CFG_ACC_WB, 0)] ++ (List.range 24).flatMap fun c => [(DCH_STAT c, F.DCH_STAT_STATE, 2), (DCH_WMARK c, F.DCH_WMARK_END, 2 ^ 22)])
def wDesc : Desc := mkHot stHOT 0 0 0 3 (3 * gib + 5) 7
def wLa : Nat := 0x3040
def wGl : Nat := 2 ^ 47 + 0x3040
def wLine : LcEntry := ⟨false, wLa / 64, .clean, 0x77, 3, 0⟩
def wGLine : LcEntry := ⟨false, wGl / 64, .clean, 0x77, 3, 0⟩
def wQuiet : State := { wMem with tier := { wMem.tier with dc := [(dcBase 3 + 2, some ⟨3, wDesc, false, false, 0, false⟩)], lc := [(lcBase wLa + 5, some wLine)] } }
def wQuietG : State := { wMem with tier := { wMem.tier with dc := [(dcBase (wGl / 4096) + 2, some ⟨wGl / 4096, 0, false, false, 0, false⟩)], lc := [(lcBase wGl + 5, some wGLine)] } }
def wBI : State := { wQuiet.sets [(PRT_CFG 15, F.PRT_CFG_MODE, 0), (PRT_LINKSTAT 15, F.PRT_LINKSTAT_UP, 1), (PRT_LINKSTAT 15, F.PRT_LINKSTAT_MEM_EN, 1), (PRT_HEADSTAT 15, F.PRT_HEADSTAT_BI, 1), (PRT_HEADSTAT 15, F.PRT_HEADSTAT_DEC_COMMIT, 1)] with ports := [(15, { Port.init with trk := [⟨5, false, 64, 64, 0⟩], dec := [(0, some ⟨2 ^ 28, 2 ^ 28, 64, 1, 256, true, false⟩)] })] }
def wEnt : Nat := (slice wLa * 4096 + dirSet (dcSet 3) 1) * 16 + 4
def wTag : Nat := dirTag (dcSet 3) 2
def wPg : Nat → Nat := fun w => w * 2 ^ 20 + w * 2 ^ 25
def wFullSet : State := { wMem with tier := { wMem.tier with dc := (List.range 16).map fun w => (dcKey (homeSlice 0) 0 w, some ⟨(wPg w), wDesc, false, false, w + 3, false⟩) } }
def wColdD : Desc := mkCold 0 0 5 100 1 [2, 3, 4, 5, 6, 7, 8, 9] 4061581155
def wColdReq : HomeReq := { kind := .readCurrent, who := .core 2, la := wLa, data := 0, mask := 0, poison := false, master := 28, mval := 0 }
def wColdS : State := { wMem.sets [(TIR_CFG, F.TIR_CFG_SEGFILL, 0), (TIR_CFG, F.TIR_CFG_ACC_FILL, 0)] with keys := { wMem.keys with slots := [(0, ⟨0x1234567, 1, 0⟩)] }, dram := { wMem.dram with lines := [(((coldLocate wMem 100).1 * 2 ^ 28 + (coldLocate wMem 100).2.1) * 64 + (coldLocate wMem 100).2.2, 7190536970982235842513128792574162057331201103029703918785856077978487641361089918761391800245823762481858230045872673494460877818660640846802465949586254)] }, home := { wMem.home with waiting := [wColdReq] }, tier := { wMem.tier with dc := [(dcBase 3 + 2, some ⟨3, wColdD, false, false, 0, false⟩)], pleat := [⟨3, 1, 0x3000, 1, 1, false, true, false⟩] } }
def wColdR : Option (List Nat) × State := coldSegment { wColdS with tier := { wColdS.tier with pleat := [] } } 3 wColdD 0
def wProm : State := { wQuiet.sets [(TIR_CFG, F.TIR_CFG_ACC_WB, 0)] with dram := { wQuiet.dram with lines := [] }, chans := [(0, { Chan.init with fifoP := [3 * gib + 9] }), (1, { Chan.init with fifoP := [3 * gib + 10] })], tier := { wQuiet.tier with dc := [(dcBase 3 + 2, some ⟨3, mkCold 0 0 5 0 0 [] 0, false, false, 0, false⟩)], lc := [(lcBase wLa + 5, some { wLine with st := .dirty })] } }
def wPromL : LcEntry := { wLine with st := .dirty }
def wStr : OpenStripe := ⟨0, 13, [(0, 0x55), (63, 0x77), (64, 0x99), (65, 0xAA)], 66, false, 0⟩
def wOp : PageOp := ⟨3, mkCold 0 0 5 100 1 [] 7, 0, 13, 13, false, 0, 63, 4, []⟩
def wKeys : KeyState := { State.reset.keys with link := [(60, some (0x123456789, 7)), (62, some (0x987654321, 9))] }
def wFlit0 : BitVec 2048 := BitVec.ofNat 2048 0x1234
def wFlitBytes0 : Bytes := leBytes 250 0x0
def wFlit1 : BitVec 2048 := BitVec.ofNat 2048 0x70369757401e4bd75205b9f0981d0a86410c53f8a632aeac8466d98831a652245b0610d7ea1fc9cb3aea997bd4de4695b16a8105eea19e2d9fc8bb9f66b77d4ce41084a757bbee5e27b10294ee10b3e286f2a9efc5058a49fa9034076fb01ddf3fb0ea4816728e3b7f006da532d762dfa3d2cf99e3233db34018c388e894026a3c632c0541a2dd6e8ee5c2be447055fe4f8fb55c5ca2fba03704701fd2fec3dd91b9df4246cb2c8fcc9e49a44a810c9a9b36b98a53c903d6ca409055f192830fffecbcdcef9af5d040e7411e0047095e0c0a7eb6259d977534cd283eab1fec84550a06bcdffe16a8a05a0022e630b08d3766e9da57b900000000000000000701
def wFlitBytes1 : Bytes := leBytes 250 0x4bd75205b9f0981d0a86410c53f8a632aeac8466d98831a652245b0610d7ea1fc9cb3aea997bd4de4695b16a8105eea19e2d9fc8bb9f66b77d4ce41084a757bbee5e27b10294ee10b3e286f2a9efc5058a49fa9034076fb01ddf3fb0ea4816728e3b7f006da532d762dfa3d2cf99e3233db34018c388e894026a3c632c0541a2dd6e8ee5c2be447055fe4f8fb55c5ca2fba03704701fd2fec3dd91b9df4246cb2c8fcc9e49a44a810c9a9b36b98a53c903d6ca409055f192830fffecbcdcef9af5d040e7411e0047095e0c0a7eb6259d977534cd283eab1fec84550a06bcdffe16a8a05a0022e630b08d3766e9da57b900000000000000000701
def wFlit2 : BitVec 2048 := BitVec.ofNat 2048 0x64339b9e8e3d084dbbaa6ac5a6273c27fa7854bb9e27457ce9e5e6e8751d1909cfcd4bffd491647f6626dac5158d96c19d2566bf70e2f815d89af837849b20bafd627cd4325ce52296cfb5dec29b69b72542c7ac7d7312c31d3ecbcf7f90bca9219f9464f10ab357896504155e5799c41f2370f0f1f178d4a836049b70b9656457ade9c1d81b1c86998741e0619002982c671010de3eaa98d03e62ceb460c962247ac3b07401170252de830ddff22e27cda6c31ace73e3d504637b569249df612ea540a762e894dc26b94eac4dacc498e86023256cda56c65f56f74dbe2f7569e4b918340aa10e0522d1f5e52ecb7c754d74b2ce38a700000000000000000601
def wFlitBytes2 : Bytes := leBytes 250 0x84dbbaa6ac5a6273c27fa7854bb9e27457ce9e5e6e8751d1909cfcd4bffd491647f6626dac5158d96c19d2566bf70e2f815d89af837849b20bafd627cd4325ce52296cfb5dec29b69b72542c7ac7d7312c31d3ecbcf7f90bca9219f9464f10ab357896504155e5799c41f2370f0f1f178d4a836049b70b9656457ade9c1d81b1c86998741e0619002982c671010de3eaa98d03e62ceb460c962247ac3b07401170252de830ddff22e27cda6c31ace73e3d504637b569249df612ea540a762e894dc26b94eac4dacc498e86023256cda56c65f56f74dbe2f7569e4b918340aa10e0522d1f5e52ecb7c754d74b2ce38a700000000000000000601
def wFlit3 : BitVec 2048 := BitVec.ofNat 2048 0x7050ae5df2cf44c396c72c8c8ad9215210a1c7b9f8f8fbc5bde0eda192ee736d4f236b8115e2be9517d5d5b597cdf7808a6c81bc6c169952d76bafd9df0f53384b0c01406c4c43e91c4023faa31f22583a993a0b80cdfb68b107fed7deade5dd3edb6c5be34026287fc5b058accd35a63bc4ed6926b6f0c47bf9e70d54193b78f4bbae261c7c3ff54b4827f4b963b078ae6f43b9b324ea5f1636269b0de0a686af32606678d71c4b009fdf41f09c8b6f5e85c6f16fd5019f2f288cbe1ee515965efd9518a17e504a1c796e17f4b4a9c3772a6ba7cd95a9ad2b8b47048054097217f1a824f3d1dfd1aa006c6ac1da643c97f1e9cb50ab00000000000000000701
def wFlitBytes3 : Bytes := leBytes 250 0x44c396c72c8c8ad9215210a1c7b9f8f8fbc5bde0eda192ee736d4f236b8115e2be9517d5d5b597cdf7808a6c81bc6c169952d76bafd9df0f53384b0c01406c4c43e91c4023faa31f22583a993a0b80cdfb68b107fed7deade5dd3edb6c5be34026287fc5b058accd35a63bc4ed6926b6f0c47bf9e70d54193b78f4bbae261c7c3ff54b4827f4b963b078ae6f43b9b324ea5f1636269b0de0a686af32606678d71c4b009fdf41f09c8b6f5e85c6f16fd5019f2f288cbe1ee515965efd9518a17e504a1c796e17f4b4a9c3772a6ba7cd95a9ad2b8b47048054097217f1a824f3d1dfd1aa006c6ac1da643c97f1e9cb50ab00000000000000000701
def wFlit6 : BitVec 2048 := BitVec.ofNat 2048 0x82f4b75e69ac1fff879e6b23c379214c939121ab524e0000000000000000000000000000000000000000000000000000000000000000000000000000000000000000000000000000000000000000000000000000000000000000000000000000000000000000000000000000000000000000000000000000000000000000000000000000000000000000000000000000000000000000000000000000000000000000000000000000000000000000000000000000000000000000000000000000000003b000100040008002000100028002000000000000000004000000000000000600000000000000040000000b0000000c0103004d00000000000000000402
def wFlitBytes6 : Bytes := leBytes 250 0x1fff879e6b23c379214c939121ab524e0000000000000000000000000000000000000000000000000000000000000000000000000000000000000000000000000000000000000000000000000000000000000000000000000000000000000000000000000000000000000000000000000000000000000000000000000000000000000000000000000000000000000000000000000000000000000000000000000000000000000000000000000000000000000000000000000000000003b000100040008002000100028002000000000000000004000000000000000600000000000000040000000b0000000c0103004d00000000000000000402
def wDf0 : State := wMem.sets [(FAB_DFBASE, F.FAB_DFBASE_BASE, 1), (FAB_DFCFG, F.FAB_DFCFG_MAXNODE, 3)]
def wDf : State := { wDf0 with tier := { wDf0.tier with dc := [dfFlowLa wDf0 2, dfEntryLa wDf0 2 9].foldl (fun t la => tabSet (fun _ => none) t (dcBase (la / 4096) + 2) (some ⟨la / 4096, mkHot stHOT 0 0 0 3 (3 * gib + 5) 7, false, false, 0, false⟩)) [], lc := [dfFlowLa wDf0 2, dfEntryLa wDf0 2 9].foldl (fun t la => tabSet (fun _ => none) t (lcBase la + 5) (some ⟨false, la / 64, .clean, 0, 3, 0⟩)) [] } }
def wArr64_1 : State := ({ (State.sets (wDf) [(PRT_CFG 15, F.PRT_CFG_MODE, 1), (PRT_SEAMSTAT 15, F.PRT_SEAMSTAT_STATE, 3), (PRT_CFG 2, F.PRT_CFG_MODE, 1), (PRT_SEAMSTAT 2, F.PRT_SEAMSTAT_STATE, 3), (FAB_NODEID, F.FAB_NODEID_NODE, 100), (FAB_TIMESTAT, F.FAB_TIMESTAT_VALID, 1), (FAB_DFCFG, F.FAB_DFCFG_MAXNODE, 3), (FAB_ROUTE 2, F.FAB_ROUTE_MODE, 2), (FAB_ROUTE 2, F.FAB_ROUTE_PORTS, 32768), (FAB_INWINA 63, F.FAB_INWINA_VALID, 1), (FAB_INWINA 63, F.FAB_INWINA_NODE, 2), (FAB_INWINB 63, F.FAB_INWINB_NMASK, 16383), (FAB_INWINB 63, F.FAB_INWINB_LIMIT, 3), (FAB_INWINA 63, F.FAB_INWINA_R, 1), (FAB_INWINA 63, F.FAB_INWINA_W, 1)]) with seam := { State.reset.seam with ports := [(2, { SeamPort.init with rxq := [(⟨64, 100, 2, 9, 1, false, 31, 0, 8, 0, 422212465070144, 0⟩, 4)] })] } })
def wArr64_1b : Option (Option Line) × State := dfRead (rxPop (dfReady wArr64_1 ⟨64, 100, 2, 9, 1, false, 31, 0, 8, 0, 422212465070144, 0⟩).2 2 2) (dfFlowLa (rxPop (dfReady wArr64_1 ⟨64, 100, 2, 9, 1, false, 31, 0, 8, 0, 422212465070144, 0⟩).2 2 2) 2)
def wArr64_1f : State := (flowAdvance wArr64_1b.2 0 (dfFlowLa (rxPop (dfReady wArr64_1 ⟨64, 100, 2, 9, 1, false, 31, 0, 8, 0, 422212465070144, 0⟩).2 2 2) 2) 1 3).getD State.reset
def wArr64_1c : Option (Option Line) × State := dfRead wArr64_1f (dfEntryLa wArr64_1f 2 9)
def wArr64_1g : State := (dfRecord wArr64_1c.2 2 9 1 0 0 0 0).getD State.reset
def wArr16_2 : State := ({ (State.sets (wDf) [(PRT_CFG 15, F.PRT_CFG_MODE, 1), (PRT_SEAMSTAT 15, F.PRT_SEAMSTAT_STATE, 3), (PRT_CFG 2, F.PRT_CFG_MODE, 1), (PRT_SEAMSTAT 2, F.PRT_SEAMSTAT_STATE, 3), (FAB_NODEID, F.FAB_NODEID_NODE, 100), (FAB_TIMESTAT, F.FAB_TIMESTAT_VALID, 1), (FAB_DFCFG, F.FAB_DFCFG_MAXNODE, 3), (FAB_ROUTE 2, F.FAB_ROUTE_MODE, 2), (FAB_ROUTE 2, F.FAB_ROUTE_PORTS, 32768), (FAB_INWINA 63, F.FAB_INWINA_VALID, 1), (FAB_INWINA 63, F.FAB_INWINA_NODE, 2), (FAB_INWINB 63, F.FAB_INWINB_NMASK, 16383), (FAB_INWINB 63, F.FAB_INWINB_LIMIT, 3), (FAB_INWINA 63, F.FAB_INWINA_R, 1), (FAB_INWINA 63, F.FAB_INWINA_W, 1)]) with seam := { State.reset.seam with ports := [(2, { SeamPort.init with rxq := [(⟨16, 100, 2, 9, 1, false, 31, 0, 8, 0, 422212465070144, 0⟩, 4)] })] } })
def wArr16_2b : Option (Option Line) × State := dfRead (rxPop (dfReady wArr16_2 ⟨16, 100, 2, 9, 1, false, 31, 0, 8, 0, 422212465070144, 0⟩).2 2 7) (dfFlowLa (rxPop (dfReady wArr16_2 ⟨16, 100, 2, 9, 1, false, 31, 0, 8, 0, 422212465070144, 0⟩).2 2 7) 2)
def wArr16_2f : State := (flowAdvance wArr16_2b.2 0 (dfFlowLa (rxPop (dfReady wArr16_2 ⟨16, 100, 2, 9, 1, false, 31, 0, 8, 0, 422212465070144, 0⟩).2 2 7) 2) 1 3).getD State.reset
def wArr16_2c : Option (Option Line) × State := dfRead wArr16_2f (dfEntryLa wArr16_2f 2 9)
def wArr16_2g : State := (dfRecord wArr16_2c.2 2 9 1 0 0 0 0).getD State.reset
def wSk : State := ({ (State.sets (wDf) [(PRT_CFG 15, F.PRT_CFG_MODE, 1), (PRT_SEAMSTAT 15, F.PRT_SEAMSTAT_STATE, 3), (PRT_CFG 2, F.PRT_CFG_MODE, 1), (PRT_SEAMSTAT 2, F.PRT_SEAMSTAT_STATE, 3), (FAB_NODEID, F.FAB_NODEID_NODE, 100), (FAB_TIMESTAT, F.FAB_TIMESTAT_VALID, 1), (FAB_DFCFG, F.FAB_DFCFG_MAXNODE, 3)]) with seam := { State.reset.seam with ports := [(2, { SeamPort.init with rxq := [(⟨51, 100, 2, 9, 1, false, 31, 0, 0, 0, 422212465065984, 0⟩, 4)] })] } })
def wSkb : Option (Option Line) × State := dfRead (rxPop (dfReady wSk ⟨51, 100, 2, 9, 1, false, 31, 0, 0, 0, 422212465065984, 0⟩).2 2 5) (dfFlowLa (rxPop (dfReady wSk ⟨51, 100, 2, 9, 1, false, 31, 0, 0, 0, 422212465065984, 0⟩).2 2 5) 2)
def wSkf : State := (flowAdvance wSkb.2 0 (dfFlowLa (rxPop (dfReady wSk ⟨51, 100, 2, 9, 1, false, 31, 0, 0, 0, 422212465065984, 0⟩).2 2 5) 2) 1 3).getD State.reset
def wSkc : Option (Option Line) × State := dfRead wSkf (dfEntryLa wSkf 2 9)
def wSkg : State := (dfRecord wSkc.2 2 9 2 0 0 0 C.FAB_E_UNREACHABLE).getD State.reset
def wDfc : State := ({ (State.sets (wDf) [(PRT_CFG 15, F.PRT_CFG_MODE, 1), (PRT_SEAMSTAT 15, F.PRT_SEAMSTAT_STATE, 3), (PRT_CFG 2, F.PRT_CFG_MODE, 1), (PRT_SEAMSTAT 2, F.PRT_SEAMSTAT_STATE, 3), (FAB_NODEID, F.FAB_NODEID_NODE, 100), (FAB_TIMESTAT, F.FAB_TIMESTAT_VALID, 1), (FAB_DFCFG, F.FAB_DFCFG_MAXNODE, 3), (FAB_DFCLEAR, F.FAB_DFCLEAR_BUSY, 1)]) with seam := { State.reset.seam with ports := [], bad := [(2, 64), (3, 64)], clear := some (2, 5120) } })
def wPxA1 : InTxn := ⟨⟨64, 100, 9, 7, 1, false, 31, 0, 0, 0, 12352, 0⟩, some 2⟩
def wPx1 : State := ({ (State.sets (State.reset) [(PRT_CFG 15, F.PRT_CFG_MODE, 1), (PRT_SEAMSTAT 15, F.PRT_SEAMSTAT_STATE, 3), (PRT_CFG 2, F.PRT_CFG_MODE, 1), (PRT_SEAMSTAT 2, F.PRT_SEAMSTAT_STATE, 3), (FAB_NODEID, F.FAB_NODEID_NODE, 100), (FAB_TIMESTAT, F.FAB_TIMESTAT_VALID, 1), (FAB_DFCFG, F.FAB_DFCFG_MAXNODE, 3), (FAB_ROUTE 9, F.FAB_ROUTE_MODE, 2), (FAB_ROUTE 9, F.FAB_ROUTE_PORTS, 32768)]) with seam := { State.reset.seam with ports := [], snoops := [wPxA1] } })
def wPxA2 : InTxn := ⟨⟨64, 100, 9, 7, 1, false, 31, 0, 0, 0, 12352, 0⟩, some 2⟩
def wPx2 : State := ({ (State.sets (State.reset) [(PRT_CFG 15, F.PRT_CFG_MODE, 1), (PRT_SEAMSTAT 15, F.PRT_SEAMSTAT_STATE, 3), (PRT_CFG 2, F.PRT_CFG_MODE, 1), (PRT_SEAMSTAT 2, F.PRT_SEAMSTAT_STATE, 3), (FAB_NODEID, F.FAB_NODEID_NODE, 100), (FAB_TIMESTAT, F.FAB_TIMESTAT_VALID, 1), (FAB_DFCFG, F.FAB_DFCFG_MAXNODE, 3), (FAB_ROUTE 9, F.FAB_ROUTE_MODE, 2), (FAB_ROUTE 9, F.FAB_ROUTE_PORTS, 32768)]) with seam := { State.reset.seam with ports := [], snoops := [wPxA2] }, tier := { State.reset.tier with dc := [(dcBase (1407374883565632 / 4096) + 2, some ⟨1407374883565632 / 4096, 0, false, false, 0, false⟩)] } })
def wPxA6 : InTxn := ⟨⟨67, 100, 9, 7, 1, false, 31, 0, 0, 0, 12352, 0⟩, some 2⟩
def wPx6 : State := ({ (State.sets (State.reset) [(PRT_CFG 15, F.PRT_CFG_MODE, 1), (PRT_SEAMSTAT 15, F.PRT_SEAMSTAT_STATE, 3), (PRT_CFG 2, F.PRT_CFG_MODE, 1), (PRT_SEAMSTAT 2, F.PRT_SEAMSTAT_STATE, 3), (FAB_NODEID, F.FAB_NODEID_NODE, 100), (FAB_TIMESTAT, F.FAB_TIMESTAT_VALID, 1), (FAB_DFCFG, F.FAB_DFCFG_MAXNODE, 3), (FAB_ROUTE 9, F.FAB_ROUTE_MODE, 2), (FAB_ROUTE 9, F.FAB_ROUTE_PORTS, 32768)]) with seam := { State.reset.seam with ports := [], snoops := [wPxA6] }, tier := { State.reset.tier with dc := [(dcBase (1407374883565632 / 4096) + 2, some ⟨1407374883565632 / 4096, 0, false, false, 0, false⟩)], lc := [(lcBase 1407374883565632 + 5, some ⟨false, 1407374883565632 / 64, .dirty, 0x77, 3, 0⟩)] } })
def wRing0 : State := ({ (wMem.sets [(DCH_STAT 23, F.DCH_STAT_STATE, 7), (DCH_WMARK 23, F.DCH_WMARK_FRAME, 786437), (DCH_RBRING 23, F.DCH_RBRING_EN, 1), (DCH_RBRING 23, F.DCH_RBRING_LPN, 5)]) with tier := { wMem.tier with dc := [(dcBase 5 + 2, some ⟨5, mkHot stHOT 0 0 0 3 (3 * gib + 5) 7, false, false, 0, false⟩)], lc := [(320, (129127208515966861320 : Line)), (322, (2180516173394542642874429421544132826721551477293379002855951220987009340362957372440753076686857619101299596510150393677918556984967168 : Line))].foldl (fun t e => tabSet (fun _ => none) t (lcBase (e.1 * 64) + 5) (some ⟨false, e.1, .clean, e.2, 3, 0⟩)) [] } })
def wRingA0 : Option BobReply × State := ringRead wRing0 23 0x5000
def wRingB0 : Option BobReply × State := ringRead wRingA0.2 23 (0x5000 + (64 + 16 * 7) / 64 * 64)
def wSvc : State := { State.reset.setCoreState 3 0 with mgmt := { State.reset.mgmt with run := true, hyp := [3], svcmask := 0xFFFF, dbgmask := 1, passed := [7], minSvn := 3 } }
def wFw : State := { (wMem.setCoreState 3 0).sets [(MGT_FWLIMIT, F.MGT_FWLIMIT_LA, 7), (FAB_NODEID, F.FAB_NODEID_NODE, 100)] with mgmt := { wSvc.mgmt with pat := [] }, progs := [(3, { ProgEntry.init with gen := 8 }), (4, { ProgEntry.init with gen := 8 })], tier := { wMem.tier with dc := [(dcBase 3 + 2, some ⟨3, mkHot stHOT 0 0 0 3 (3 * gib + 5) 7, false, false, 0, false⟩)], lc := [(193, (10446339447092083672166702575841402186973749638643805444502466969935588884045597452780298280230738633029293264203372644146449595930945064736761903810040915 : Line)), (194, (13199343291741566649132375352250190080502889775109 : Line))].foldl (fun t e => tabSet (fun _ => none) t (lcBase (e.1 * 64) + 5) (some ⟨false, e.1, .clean, e.2, 3, 0⟩)) [] } }
def wFwA : Option (Option Bytes) × State := coreRead 3 12352 64 wFw
def wFwH : Bytes := (wFwA.1.getD none).getD []
def wFwB : Option (Option Bytes) × State := coreRead 3 12352 (imgSpan (some wFwH)) wFwA.2
def wFwM : Bytes := (wFwB.1.getD none).getD []
def wMe : Option (Option Bytes) × State := coreRead 3 0x3050 48 wFw
def wMeD : Bytes := (wMe.1.getD none).getD []
def wPrB : State := { (({ wMem with tier := { (wMem).tier with dc := [(dcBase 3 + 2, some ⟨3, (mkCold 0 0 5 0 0 [0, 0, 0, 0, 0, 0, 0, 0] 0), false, false, 0, false⟩)] }, bobs := [(63, { Bob.init with run := 1, words := 10, pc := 5, text := [(5, 2149711876)], cap := [1], g := [(2, 3)] })] })) with chans := [(0, { Chan.init with fifoP := [3 * gib + 9] }), (1, { Chan.init with fifoP := [3 * gib + 10] })] }
def wPrR : OpRes := promotePage (dcTouch (wPrB.setBob 63 { wPrB.bob 63 with last := (wPrB.bob 63).pc }) 3) 3 (bobWork 63) (mkCold 0 0 5 0 0 [0, 0, 0, 0, 0, 0, 0, 0] 0) none none

/-! Witnesses. -/

theorem witness_StepRunsFrontCommand_1 : ∃ (s : State) (c : Instr) (rest : List Instr), s.pending = c :: rest :=
  ⟨{ State.reset with pending := [.bypass, .idcode] }, .bypass, [.idcode], by decide +kernel⟩
theorem witness_StepRunsFrontCommand_2 : ∃ (s : State), s.pending = [] ∧ (3 ≤ s.pst ∨ s.pwr.held ≠ 0) :=
  ⟨{ State.reset with pst := 3 }, by decide +kernel⟩
theorem witness_StepRunsFrontCommand_3 : ∃ (s : State), s.pending = [] ∧ s.pst < 3 ∧ s.pwr.held = 0 :=
  ⟨State.reset, by decide +kernel⟩
theorem witness_TokensMoveStallsTripRemapsEnd_1 : ∃ (s : State) (plane : Nat) (row : Nat) (col : Nat) (dir : Nat) (inp : Nat) (cls : Nat) (tok : Token), let there := latchKey plane (neighbour row col dir).1 (neighbour row col dir).2.1 (neighbour row col dir).2.2 cls; latchAt s (latchKey plane row col inp cls) = some tok ∧ coreAlive s = true ∧ plane < 4 ∧ row < 8 ∧ col < 8 ∧ inp < 8 ∧ cls < 3 ∧ s.ftest GLB_ILNSTAT F.GLB_ILNSTAT_FENCED plane = false ∧ dir = (if col < tok.dstCol then 2 else if tok.dstCol < col then 3 else if row < tok.dstRow then 1 else if tok.dstRow < row then 0 else 4) ∧ dir ≠ 4 ∧ latchAt s there = none :=
  ⟨wIln, 2, 1, 3, 2, 6, 1, wTok, by dsimp only; exact ⟨rfl, by decide +kernel⟩⟩
theorem witness_TokensMoveStallsTripRemapsEnd_2 : ∃ (s : State) (plane : Nat) (row : Nat) (col : Nat) (dir : Nat) (inp : Nat) (cls : Nat) (tok : Token), let there := latchKey plane (neighbour row col dir).1 (neighbour row col dir).2.1 (neighbour row col dir).2.2 cls; latchAt s (latchKey plane row col inp cls) = some tok ∧ (latchAt s there).isSome ∧ coreAlive s = true ∧ plane < 4 ∧ row < 8 ∧ col < 8 ∧ inp < 8 ∧ cls < 3 ∧ s.ftest GLB_ILNSTAT F.GLB_ILNSTAT_FENCED plane = false ∧ dir = (if col < tok.dstCol then 2 else if tok.dstCol < col then 3 else if row < tok.dstRow then 1 else if tok.dstRow < row then 0 else 4) ∧ dir ≠ 4 :=
  ⟨wIlnFull, 2, 1, 3, 2, 6, 1, wTok, by dsimp only; exact ⟨rfl, rfl, by decide +kernel⟩⟩
theorem witness_TokensMoveStallsTripRemapsEnd_3 : ∃ (s : State) (plane : Nat), ∃ row col, nodeActive s plane row col = true ∧ plane < 4 ∧ row < 8 ∧ col < 8 ∧ s.ftest GLB_ILNSTAT F.GLB_ILNSTAT_FENCED plane = false :=
  ⟨wIln, 2, 1, 3, ⟨rfl, by decide +kernel⟩⟩
theorem witness_TokensMoveStallsTripRemapsEnd_4 : ∃ (s : State) (plane : Nat), ((∃ x ∈ s.iln.resend, x.1 = plane ∧ x.2.1 ≠ plane)) ∧ plane < 4 ∧ s.ftest GLB_ILNSTAT F.GLB_ILNSTAT_REMAP_BUSY plane = true :=
  ⟨{ wRemap with iln := { wRemap.iln with resend := [(2, 3, wTok)] } }, 2, ⟨⟨(2, 3, wTok), List.mem_cons_self, rfl, by decide +kernel⟩, by decide +kernel⟩⟩
theorem witness_TokensMoveStallsTripRemapsEnd_5 : ∃ (s : State) (plane : Nat), nothingWaits s ∧ plane < 4 ∧ s.ftest GLB_ILNSTAT F.GLB_ILNSTAT_REMAP_BUSY plane = true ∧ ((∀ x ∈ s.iln.resend, x.1 = plane → x.2.1 = plane)) :=
  ⟨wRemap, 2, ⟨by unfold nothingWaits; decide +kernel, by decide +kernel⟩⟩
theorem witness_TokenCheckedAtDestination_1 : ∃ (s : State) (plane : Nat) (row : Nat) (col : Nat) (inp : Nat) (cls : Nat) (fd : Line) (fc : Nat) (tok : Token), let got : Token := { tok with data := tok.data ^^^ fd, check := tok.check ^^^ (fc % 65536) }; latchAt s (latchKey plane row col inp cls) = some tok ∧ got.check = checkOf got ∧ coreAlive s = true ∧ plane < 4 ∧ row < 8 ∧ col < 8 ∧ inp < 8 ∧ cls < 3 ∧ s.ftest GLB_ILNSTAT F.GLB_ILNSTAT_FENCED plane = false ∧ tok.dstRow = row ∧ tok.dstCol = col :=
  ⟨wIlnEnd, 2, 1, 5, 3, 1, 0, 0, wTok, by dsimp only; exact ⟨rfl, (Nat.xor_zero _).trans rfl, by decide +kernel⟩⟩
theorem witness_TokenCheckedAtDestination_2 : ∃ (s : State) (plane : Nat) (row : Nat) (col : Nat) (inp : Nat) (cls : Nat) (fd : Line) (fc : Nat) (tok : Token), let got : Token := { tok with data := tok.data ^^^ fd, check := tok.check ^^^ (fc % 65536) }; latchAt s (latchKey plane row col inp cls) = some tok ∧ got.check ≠ checkOf got ∧ coreAlive s = true ∧ plane < 4 ∧ row < 8 ∧ col < 8 ∧ inp < 8 ∧ cls < 3 ∧ s.ftest GLB_ILNSTAT F.GLB_ILNSTAT_FENCED plane = false ∧ tok.dstRow = row ∧ tok.dstCol = col :=
  ⟨wIlnEnd, 2, 1, 5, 3, 1, 0, 3, wTok, by dsimp only; exact ⟨rfl, xor_ne _, by decide +kernel⟩⟩
theorem witness_LastPlaneStaysEnabled_1 : ∃ (s : State), ctlOpen s = true :=
  ⟨State.reset, by decide +kernel⟩
theorem witness_LastPlaneStaysEnabled_2 : ∃ (s : State), ctlOpen s = true :=
  ⟨State.reset, by decide +kernel⟩
theorem witness_SpeedMeasurementRuns_1 : ∃ (s : State) (who : Who) (val : Word) (w : CtlWrite), admitted who GLB_SPDCFG val s w ∧ fld w.act F.GLB_SPDCFG_START = 1 :=
  ⟨State.reset, .trusted 1, fv [(F.GLB_SPDCFG_START, 1)], wr (.trusted 1) GLB_SPDCFG (fv [(F.GLB_SPDCFG_START, 1)]) State.reset, ⟨admitted_of (by decide +kernel), by decide +kernel⟩⟩
theorem witness_SpeedMeasurementRuns_2 : ∃ (s : State), coreAlive s = true ∧ (s.fget GLB_SPDCFG F.GLB_SPDCFG_CONT = 1 ∨ s.iln.spd = true) :=
  ⟨{ State.reset with iln := { State.reset.iln with spd := true } }, by decide +kernel⟩
theorem witness_ScratchpadBankAccess_1 : ∃ (s : State) (bank : Nat) (word : Nat), bank < 512 ∧ word < 16384 ∧ bankOut s bank = false :=
  ⟨State.reset, 416, 16383, by decide +kernel⟩
theorem witness_ScratchpadBankAccess_2 : ∃ (s : State) (bank : Nat) (word : Nat), ∃ kind, let lost := sramLost s bank word; bank < 512 ∧ word < 16384 ∧ bankOut s bank = false ∧ lost = false ∧ kind ≤ 4 :=
  ⟨State.reset, 416, 16383, 4, by dsimp only; exact by decide +kernel⟩
theorem witness_ScratchpadBankAccess_3 : ∃ (s : State) (bank : Nat) (word : Nat), let lost := sramLost s bank word; bank < 512 ∧ word < 16384 ∧ bankOut s bank = false ∧ lost = false :=
  ⟨State.reset, 416, 16383, by dsimp only; exact by decide +kernel⟩
theorem witness_ScratchpadBankAccess_4 : ∃ (s : State) (bank : Nat) (word : Nat), let lost := sramLost s bank word; bank < 512 ∧ word < 16384 ∧ bankOut s bank = false ∧ lost = false :=
  ⟨State.reset, 416, 16383, by dsimp only; exact by decide +kernel⟩
theorem witness_ScratchpadBankAccess_5 : ∃ (s : State) (bank : Nat) (word : Nat), let lost := sramLost s bank word; bank < 512 ∧ word < 16384 ∧ bankOut s bank = false ∧ lost = false :=
  ⟨State.reset, 416, 16383, by dsimp only; exact by decide +kernel⟩
theorem witness_ScratchpadBankAccess_6 : ∃ (s : State) (bank : Nat) (word : Nat), let lost := sramLost s bank word; bank < 512 ∧ word < 16384 ∧ bankOut s bank = false ∧ lost = false :=
  ⟨State.reset, 416, 16383, by dsimp only; exact by decide +kernel⟩
theorem witness_ScratchpadBankAccess_7 : ∃ (s : State) (bank : Nat) (word : Nat), ∃ kind upset, let lost := sramLost s bank word; bank < 512 ∧ word < 16384 ∧ bankOut s bank = false ∧ bank < 480 ∧ kind ∈ [0, 2, 3, 4] ∧ (lost = true ∨ 2 ≤ upset) :=
  ⟨wLostScr, 419, 5, 4, 1, by dsimp only; exact by decide +kernel⟩
theorem witness_RegionTestsStartAndEnd_1 : ∃ (s : State) (q : Nat), let pos := tabGet (fun _ => 0) s.sram.bg q; q < 128 ∧ s.pst < 3 ∧ s.fget SRM_CFG F.SRM_CFG_BG_EN = 1 ∧ srmStage s (4 * q + pos / 64) = 0 ∧ bankTest s (4 * q + pos / 64) = none ∧ ((∀ x ∈ s.sram.tests, ¬ (x.bank / 4 = q ∧ x.kind = 0))) :=
  ⟨State.reset.sets [(SRM_CFG, F.SRM_CFG_BG_EN, 1)], 127, by dsimp only; exact by decide +kernel⟩
theorem witness_RegionTestsStartAndEnd_2 : ∃ (s : State) (bank : Nat) (region : Nat), bankTest s bank = some ⟨bank, region, 0⟩ ∧ bank % 4 * 64 + region < 255 ∧ ((∀ d ∈ s.sram.due, d.1 ≠ bank)) ∧ reqOf s bank = none :=
  ⟨{ State.reset with sram := { State.reset.sram with tests := [⟨507, 62, 0⟩], bg := [(126, 254)] } }, 507, 62, by decide +kernel⟩
theorem witness_RegionTestsStartAndEnd_3 : ∃ (s : State) (who : Who) (val : Word) (w : CtlWrite), admitted who SRM_TESTCTL val s w ∧ fld w.act F.SRM_TESTCTL_START = 1 ∧ s.fget SRM_TESTCTL F.SRM_TESTCTL_BUSY = 1 :=
  ⟨State.reset.sets [(SRM_TESTCTL, F.SRM_TESTCTL_BUSY, 1)], .trusted 1, fv [(F.SRM_TESTCTL_START, 1), (F.SRM_TESTCTL_BANK, 5), (F.SRM_TESTCTL_REGION, 9)], wr (.trusted 1) SRM_TESTCTL (fv [(F.SRM_TESTCTL_START, 1), (F.SRM_TESTCTL_BANK, 5), (F.SRM_TESTCTL_REGION, 9)]) (State.reset.sets [(SRM_TESTCTL, F.SRM_TESTCTL_BUSY, 1)]), ⟨admitted_of (by decide +kernel), by decide +kernel⟩⟩
theorem witness_RegionTestsStartAndEnd_4 : ∃ (s : State) (who : Who) (val : Word) (w : CtlWrite), let bank := fld w.new F.SRM_TESTCTL_BANK; admitted who SRM_TESTCTL val s w ∧ fld w.act F.SRM_TESTCTL_START = 1 ∧ s.fget SRM_TESTCTL F.SRM_TESTCTL_BUSY = 0 ∧ srmStage s bank ≠ 0 :=
  ⟨{ State.reset with sram := { State.reset.sram with stage := [(5, 1)] } }, .trusted 1, fv [(F.SRM_TESTCTL_START, 1), (F.SRM_TESTCTL_BANK, 5), (F.SRM_TESTCTL_REGION, 9)], wr (.trusted 1) SRM_TESTCTL (fv [(F.SRM_TESTCTL_START, 1), (F.SRM_TESTCTL_BANK, 5), (F.SRM_TESTCTL_REGION, 9)]) ({ State.reset with sram := { State.reset.sram with stage := [(5, 1)] } }), by dsimp only; exact ⟨admitted_of (by decide +kernel), by decide +kernel⟩⟩
theorem witness_RegionTestsStartAndEnd_5 : ∃ (s : State) (who : Who) (val : Word) (w : CtlWrite), let bank := fld w.new F.SRM_TESTCTL_BANK; admitted who SRM_TESTCTL val s w ∧ fld w.act F.SRM_TESTCTL_START = 1 ∧ s.fget SRM_TESTCTL F.SRM_TESTCTL_BUSY = 0 ∧ srmStage s bank = 0 ∧ bankTest s bank = none ∧ ((∀ d ∈ s.sram.due, d.1 ≠ bank)) :=
  ⟨State.reset, .trusted 1, fv [(F.SRM_TESTCTL_START, 1), (F.SRM_TESTCTL_BANK, 5), (F.SRM_TESTCTL_REGION, 9)], wr (.trusted 1) SRM_TESTCTL (fv [(F.SRM_TESTCTL_START, 1), (F.SRM_TESTCTL_BANK, 5), (F.SRM_TESTCTL_REGION, 9)]) (State.reset), by dsimp only; exact ⟨admitted_of (by decide +kernel), by decide +kernel⟩⟩
theorem witness_RegionTestsStartAndEnd_6 : ∃ (s : State) (who : Who) (val : Word) (w : CtlWrite), let bank := fld w.new F.SRM_TESTCTL_BANK; admitted who SRM_TESTCTL val s w ∧ fld w.act F.SRM_TESTCTL_START = 1 ∧ s.fget SRM_TESTCTL F.SRM_TESTCTL_BUSY = 0 ∧ srmStage s bank = 0 ∧ (bankTest s bank).isSome = true :=
  ⟨{ State.reset with sram := { State.reset.sram with tests := [⟨5, 9, 0⟩] } }, .trusted 1, fv [(F.SRM_TESTCTL_START, 1), (F.SRM_TESTCTL_BANK, 5), (F.SRM_TESTCTL_REGION, 9)], wr (.trusted 1) SRM_TESTCTL (fv [(F.SRM_TESTCTL_START, 1), (F.SRM_TESTCTL_BANK, 5), (F.SRM_TESTCTL_REGION, 9)]) ({ State.reset with sram := { State.reset.sram with tests := [⟨5, 9, 0⟩] } }), by dsimp only; exact ⟨admitted_of (by decide +kernel), by decide +kernel⟩⟩
theorem witness_RegionTestsStartAndEnd_7 : ∃ (s : State) (bank : Nat) (region : Nat), bankTest s bank = some ⟨bank, region, 1⟩ ∧ s.sram.req = some (bank, region, false) ∧ ((∀ d ∈ s.sram.due, d.1 ≠ bank)) :=
  ⟨{ State.reset.sets [(SRM_TESTCTL, F.SRM_TESTCTL_BUSY, 1)] with sram := { State.reset.sram with tests := [⟨5, 9, 1⟩], req := some (5, 9, false) } }, 5, 9, by decide +kernel⟩
theorem witness_GuaranteesNotOvercommitted_1 : ∃ (s : State) (who : Who) (m : Nat) (occ : Bool) (val : Word) (w : CtlWrite), let reg := fun (k : Nat) => if occ then QOS_MOCC k else QOS_MDRAM k; let g := fld w.new F.QOS_MDRAM_GUAR; let sum := g + (((List.range 28).filter (· ≠ m)).map (fun k => s.fget (reg k) F.QOS_MDRAM_GUAR)).sum; admitted who (reg m) val s w ∧ m < 28 ∧ 4096 < sum :=
  ⟨State.reset.sets [(QOS_MDRAM 3, F.QOS_MDRAM_GUAR, 4000)], .trusted 1, 27, false, fv [(F.QOS_MDRAM_GUAR, 97)], wr (.trusted 1) (QOS_MDRAM 27) (fv [(F.QOS_MDRAM_GUAR, 97)]) (State.reset.sets [(QOS_MDRAM 3, F.QOS_MDRAM_GUAR, 4000)]), by dsimp only; exact ⟨admitted_of (by decide +kernel), by decide +kernel⟩⟩
theorem witness_GuaranteesNotOvercommitted_2 : ∃ (s : State) (who : Who) (m : Nat) (occ : Bool) (val : Word) (w : CtlWrite), let reg := fun (k : Nat) => if occ then QOS_MOCC k else QOS_MDRAM k; let g := fld w.new F.QOS_MDRAM_GUAR; let cap := fld w.new F.QOS_MDRAM_CAP; let sum := g + (((List.range 28).filter (· ≠ m)).map (fun k => s.fget (reg k) F.QOS_MDRAM_GUAR)).sum; admitted who (reg m) val s w ∧ m < 28 ∧ sum ≤ 4096 ∧ cap ≠ 0 ∧ cap < g :=
  ⟨State.reset, .trusted 1, 27, false, fv [(F.QOS_MDRAM_GUAR, 97), (F.QOS_MDRAM_CAP, 96)], wr (.trusted 1) (QOS_MDRAM 27) (fv [(F.QOS_MDRAM_GUAR, 97), (F.QOS_MDRAM_CAP, 96)]) (State.reset), by dsimp only; exact ⟨admitted_of (by decide +kernel), by decide +kernel⟩⟩
theorem witness_GuaranteesNotOvercommitted_3 : ∃ (s : State) (who : Who) (m : Nat) (occ : Bool) (val : Word) (w : CtlWrite), let reg := fun (k : Nat) => if occ then QOS_MOCC k else QOS_MDRAM k; let g := fld w.new F.QOS_MDRAM_GUAR; let cap := fld w.new F.QOS_MDRAM_CAP; let sum := g + (((List.range 28).filter (· ≠ m)).map (fun k => s.fget (reg k) F.QOS_MDRAM_GUAR)).sum; admitted who (reg m) val s w ∧ nothingWaits s ∧ m < 28 ∧ sum ≤ 4096 ∧ (cap = 0 ∨ g ≤ cap) :=
  ⟨State.reset, .trusted 1, 0, true, fv [(F.QOS_MDRAM_GUAR, 97), (F.QOS_MDRAM_CAP, 97)], wr (.trusted 1) (QOS_MOCC 0) (fv [(F.QOS_MDRAM_GUAR, 97), (F.QOS_MDRAM_CAP, 97)]) (State.reset), by dsimp only; exact ⟨admitted_of (by decide +kernel), by unfold nothingWaits; decide +kernel, by decide +kernel⟩⟩
theorem witness_RegulationPeriodAndWindow_1 : ∃ (s : State) (c : Nat), c < 24 ∧ ctlOpen s = true :=
  ⟨State.reset, 23, by decide +kernel⟩
theorem witness_RegulationPeriodAndWindow_2 : ∃ (s : State) (c : Nat), c < 24 ∧ ctlOpen s = true ∧ (s.chan c).regul.excused = true :=
  ⟨{ State.reset with chans := [(23, { Chan.init with regul := { Regul.init with excused := true, issued := [(1, 4)] } })] }, 23, by decide +kernel⟩
theorem witness_SnapshotCopiesEveryCounter_1 : ∃ (s : State) (who : Who) (val : Word) (w : CtlWrite), admitted who PMC_SNAPCTL val s w ∧ fld w.act F.PMC_SNAPCTL_GO = 1 ∧ s.fget PMC_SNAPCTL F.PMC_SNAPCTL_BUSY = 1 :=
  ⟨State.reset.sets [(PMC_SNAPCTL, F.PMC_SNAPCTL_BUSY, 1)], .trusted 1, fv [(F.PMC_SNAPCTL_GO, 1)], wr (.trusted 1) PMC_SNAPCTL (fv [(F.PMC_SNAPCTL_GO, 1)]) (State.reset.sets [(PMC_SNAPCTL, F.PMC_SNAPCTL_BUSY, 1)]), ⟨admitted_of (by decide +kernel), by decide +kernel⟩⟩
theorem witness_SnapshotCopiesEveryCounter_2 : ∃ (s : State) (who : Who) (val : Word) (w : CtlWrite), admitted who PMC_SNAPCTL val s w ∧ fld w.act F.PMC_SNAPCTL_GO = 1 ∧ s.fget PMC_SNAPCTL F.PMC_SNAPCTL_BUSY = 0 :=
  ⟨State.reset, .trusted 1, fv [(F.PMC_SNAPCTL_GO, 1)], wr (.trusted 1) PMC_SNAPCTL (fv [(F.PMC_SNAPCTL_GO, 1)]) (State.reset), ⟨admitted_of (by decide +kernel), by decide +kernel⟩⟩
theorem witness_SnapshotCopiesEveryCounter_3 : ∃ (s : State), s.memWf = true ∧ s.fget PMC_SNAPCTL F.PMC_SNAPCTL_BUSY = 1 ∧ ((s.fget PMC_SNAPCTL F.PMC_SNAPCTL_AT_EN = 0 ∨ (s.rg PMC_SNAPAT).toNat ≤ s.time)) :=
  ⟨State.reset.sets [(PMC_SNAPCTL, F.PMC_SNAPCTL_BUSY, 1), (PMC_SNAPCTL, F.PMC_SNAPCTL_CLEAR, 1), (PMC_CNT 1535, F.PMC_CNT_COUNT, 6)], by decide +kernel⟩
theorem witness_HistogramClears_1 : ∃ (s : State) (who : Who) (h : Nat) (val : Word) (w : CtlWrite), admitted who (QOS_HISTCFG h) val s w ∧ h < 8 ∧ fld w.act F.QOS_HISTCFG_CLEAR = 1 :=
  ⟨State.reset.sets [(QOS_HBIN 7 511, F.QOS_HBIN_BIN_LO, 4), (QOS_HBIN 6 0, F.QOS_HBIN_BIN_LO, 4)], .trusted 1, 7, fv [(F.QOS_HISTCFG_CLEAR, 1)], wr (.trusted 1) (QOS_HISTCFG 7) (fv [(F.QOS_HISTCFG_CLEAR, 1)]) (State.reset.sets [(QOS_HBIN 7 511, F.QOS_HBIN_BIN_LO, 4), (QOS_HBIN 6 0, F.QOS_HBIN_BIN_LO, 4)]), ⟨admitted_of (by decide +kernel), by decide +kernel⟩⟩
theorem witness_DrivenPinsStopTheDevice_1 : ∃ (s : State) (c : Instr) (op : Nat), (c, op) ∈ [(Instr.extest, 0), (.clamp, 3), (.highz, 4), (.extestPulse, 5), (.extestTrain, 6)] ∧ s.pst < 3 ∧ tapAllowed s = true :=
  ⟨State.reset, .extest, 0, by decide +kernel⟩
theorem witness_DrivenPinsStopTheDevice_2 : ∃ (s : State) (c : Instr) (op : Nat), (c, op) ∈ [(Instr.extest, 0), (.clamp, 3), (.highz, 4), (.extestPulse, 5), (.extestTrain, 6)] ∧ s.pst < 3 ∧ tapAllowed s = false :=
  ⟨wTapLate, .highz, 4, by decide +kernel⟩
theorem witness_DrivenPinsStopTheDevice_3 : ∃ (s : State), s.pst < 3 ∧ tapAllowed s = true :=
  ⟨State.reset, by decide +kernel⟩
theorem witness_DrivenPinsStopTheDevice_4 : ∃ (s : State), s.pst < 3 ∧ tapAllowed s = false :=
  ⟨wTapLate, by decide +kernel⟩
theorem witness_DrivenPinsStopTheDevice_5 : ∃ (s : State), s.pst < 3 :=
  ⟨State.reset, by decide +kernel⟩
theorem witness_DebugTransportKeepsState_1 : ∃ (s : State), s.pst < 3 :=
  ⟨State.reset, by decide +kernel⟩
theorem witness_TrackingMovesOneStep_1 : ∃ (s : State) (p : Nat) (l : Nat), s.fget CAL_CFG F.CAL_CFG_TRACK_EN = 1 ∧ p < 16 ∧ l < 17 ∧ laneLive s p = true ∧ laneHeld s p l = false ∧ laneState s p l = 0 :=
  ⟨wCal, 15, 16, by decide +kernel⟩
theorem witness_TrackingMovesOneStep_2 : ∃ (s : State) (p : Nat) (l : Nat), tabGet (fun _ => []) (s.calp p).pend l ≠ [] ∧ s.fget CAL_CFG F.CAL_CFG_AUTO_RECAL = 0 :=
  ⟨wCal.setCalp 15 { CalPort.init with pend := [(16, [3, -4, 0, 1, -1, 9])] }, 15, 16, by decide +kernel⟩
theorem witness_LaneRequestsWaitTheirTurn_1 : ∃ (s : State) (who : Who) (val : Word) (w : CtlWrite), ∃ c, admitted who CAL_REQ val s w ∧ fld w.act F.CAL_REQ_GO = 1 ∧ c ∈ [Instr.recalibrate who val, .laneCheck who val] ∧ s.fget CAL_REQ F.CAL_REQ_BUSY = 1 :=
  ⟨wCal.fset CAL_REQ F.CAL_REQ_BUSY 1, .trusted 1, fv [(F.CAL_REQ_GO, 1), (F.CAL_REQ_PORT, 15), (F.CAL_REQ_LANE, 16)], wr (.trusted 1) CAL_REQ (fv [(F.CAL_REQ_GO, 1), (F.CAL_REQ_PORT, 15), (F.CAL_REQ_LANE, 16)]) (wCal.fset CAL_REQ F.CAL_REQ_BUSY 1), .recalibrate (.trusted 1) (fv [(F.CAL_REQ_GO, 1), (F.CAL_REQ_PORT, 15), (F.CAL_REQ_LANE, 16)]), ⟨admitted_of (by decide +kernel), by decide +kernel⟩⟩
theorem witness_LaneRequestsWaitTheirTurn_2 : ∃ (s : State) (who : Who) (val : Word) (w : CtlWrite), ∃ c, let x := s.calp (fld w.new F.CAL_REQ_PORT); admitted who CAL_REQ val s w ∧ fld w.act F.CAL_REQ_GO = 1 ∧ c ∈ [Instr.recalibrate who val, .laneCheck who val] ∧ s.fget CAL_REQ F.CAL_REQ_BUSY = 0 ∧ (x.fixed = none ∨ x.queue ≠ []) :=
  ⟨wCal, .trusted 1, fv [(F.CAL_REQ_GO, 1), (F.CAL_REQ_PORT, 15), (F.CAL_REQ_LANE, 16)], wr (.trusted 1) CAL_REQ (fv [(F.CAL_REQ_GO, 1), (F.CAL_REQ_PORT, 15), (F.CAL_REQ_LANE, 16)]) (wCal), .recalibrate (.trusted 1) (fv [(F.CAL_REQ_GO, 1), (F.CAL_REQ_PORT, 15), (F.CAL_REQ_LANE, 16)]), by dsimp only; exact ⟨admitted_of (by decide +kernel), by decide +kernel⟩⟩
theorem witness_LaneRequestsWaitTheirTurn_3 : ∃ (s : State) (who : Who) (val : Word) (w : CtlWrite), ∃ c, let x := s.calp (fld w.new F.CAL_REQ_PORT); admitted who CAL_REQ val s w ∧ fld w.act F.CAL_REQ_GO = 1 ∧ c ∈ [Instr.recalibrate who val, .laneCheck who val] ∧ s.fget CAL_REQ F.CAL_REQ_BUSY = 0 ∧ x.fixed.isSome = true ∧ x.queue = [] ∧ s.fltTests = [] :=
  ⟨wCal.setCalp 15 { CalPort.init with fixed := some 3 }, .trusted 1, fv [(F.CAL_REQ_GO, 1), (F.CAL_REQ_PORT, 15), (F.CAL_REQ_LANE, 16)], wr (.trusted 1) CAL_REQ (fv [(F.CAL_REQ_GO, 1), (F.CAL_REQ_PORT, 15), (F.CAL_REQ_LANE, 16)]) (wCal.setCalp 15 { CalPort.init with fixed := some 3 }), .recalibrate (.trusted 1) (fv [(F.CAL_REQ_GO, 1), (F.CAL_REQ_PORT, 15), (F.CAL_REQ_LANE, 16)]), by dsimp only; exact ⟨admitted_of (by decide +kernel), by decide +kernel⟩⟩
theorem witness_LaneRequestsWaitTheirTurn_4 : ∃ (s : State) (p : Nat) (r : LaneReq) (rest : List LaneReq), (s.calp p).queue = r :: rest ∧ s.fltTests = [] ∧ (s.calp p).step = 0 :=
  ⟨wCal.setCalp 15 { CalPort.init with queue := [⟨16, 0, true⟩], step := 0 }, 15, ⟨16, 0, true⟩, [], by decide +kernel⟩
theorem witness_LaneRequestsWaitTheirTurn_5 : ∃ (s : State) (p : Nat) (r : LaneReq) (rest : List LaneReq), ∃ errs, (s.calp p).queue = r :: rest ∧ s.fltTests = [] ∧ 2 ≤ (s.calp p).step ∧ p < 16 ∧ r.kind = 1 ∧ errs ≤ s.fget CAL_CFG F.CAL_CFG_ERRMAX :=
  ⟨wCal.setCalp 15 { CalPort.init with queue := [⟨15, 1, true⟩], step := 2 }, 15, ⟨15, 1, true⟩, [], 0, by decide +kernel⟩
theorem witness_LaneRequestsWaitTheirTurn_6 : ∃ (s : State) (p : Nat) (l : Nat) (count : Nat), p < 16 ∧ l < 16 ∧ laneLive s p = true ∧ laneState s p l < 2 ∧ s.fget CAL_CFG F.CAL_CFG_BURST_THR < count :=
  ⟨wCal, 15, 15, 65535, by decide +kernel⟩
theorem witness_RecalibrationStepsAndLimits_1 : ∃ (s : State) (p : Nat) (r : LaneReq) (rest : List LaneReq), let x := s.calp p; p < 16 ∧ (s.calp p).queue = r :: rest ∧ x.step = 0 ∧ x.fixed = none ∧ laneState s p r.lane = 0 ∧ laneLive s p = true :=
  ⟨wCal.setCalp 15 { CalPort.init with queue := [⟨15, 0, true⟩], step := 0 }, 15, ⟨15, 0, true⟩, [], by dsimp only; exact by decide +kernel⟩
theorem witness_RecalibrationStepsAndLimits_2 : ∃ (s : State) (p : Nat) (errs : Nat) (r : LaneReq) (rest : List LaneReq), let x := s.calp p; p < 16 ∧ (s.calp p).queue = r :: rest ∧ x.step = 1 ∧ spareReady s p r.lane errs = false :=
  ⟨wCal.setCalp 15 { CalPort.init with queue := [⟨15, 0, true⟩], step := 1 }, 15, 1, ⟨15, 0, true⟩, [], by dsimp only; exact by decide +kernel⟩
theorem witness_RecalibrationStepsAndLimits_3 : ∃ (s : State) (p : Nat) (errs : Nat) (r : LaneReq) (rest : List LaneReq), let x := s.calp p; p < 16 ∧ (s.calp p).queue = r :: rest ∧ x.step = 1 ∧ spareReady s p r.lane errs = true :=
  ⟨(wCal.setSp 15 { wCal.sp 15 with gotA := 31 }).setCalp 15 { CalPort.init with queue := [⟨15, 0, true⟩], step := 1 }, 15, 0, ⟨15, 0, true⟩, [], by dsimp only; exact by decide +kernel⟩
theorem witness_RecalibrationStepsAndLimits_4 : ∃ (s : State) (p : Nat) (r : LaneReq) (rest : List LaneReq), let x := s.calp p; p < 16 ∧ (s.calp p).queue = r :: rest ∧ 2 ≤ x.step ∧ r.kind = 1 :=
  ⟨wCal.setCalp 15 { CalPort.init with queue := [⟨15, 1, true⟩], step := 2 }, 15, ⟨15, 1, true⟩, [], by dsimp only; exact by decide +kernel⟩
theorem witness_RecalibrationStepsAndLimits_5 : ∃ (s : State) (p : Nat) (r : LaneReq) (rest : List LaneReq), let x := s.calp p; p < 16 ∧ (s.calp p).queue = r :: rest ∧ x.step = 2 ∧ r.kind = 0 :=
  ⟨wCal.setCalp 15 { CalPort.init with queue := [⟨15, 0, true⟩], step := 2 }, 15, ⟨15, 0, true⟩, [], by dsimp only; exact by decide +kernel⟩
theorem witness_RecalibrationStepsAndLimits_6 : ∃ (s : State) (p : Nat) (eye : Nat) (prop : List Int) (r : LaneReq) (rest : List LaneReq), let x := s.calp p; p < 16 ∧ (s.calp p).queue = r :: rest ∧ x.step = 3 ∧ r.kind = 0 ∧ plausible s (laneReg s p r.lane) x.prop x.eye = false :=
  ⟨wCal.setCalp 15 { CalPort.init with queue := [⟨15, 0, true⟩], step := 3, eye := 0 }, 15, 77, [3, -4, 0, 1, -1, 9], ⟨15, 0, true⟩, [], by dsimp only; exact by decide +kernel⟩
theorem witness_RecalibrationStepsAndLimits_7 : ∃ (s : State) (p : Nat) (eye : Nat) (prop : List Int) (r : LaneReq) (rest : List LaneReq), let x := s.calp p; p < 16 ∧ (s.calp p).queue = r :: rest ∧ x.step = 3 ∧ r.kind = 0 ∧ plausible s (laneReg s p r.lane) x.prop x.eye = true :=
  ⟨wCal.setCalp 15 { CalPort.init with queue := [⟨15, 0, true⟩], step := 3, eye := 90 }, 15, 77, [3, -4, 0, 1, -1, 9], ⟨15, 0, true⟩, [], by dsimp only; exact by decide +kernel⟩
theorem witness_RecalibrationStepsAndLimits_8 : ∃ (s : State) (p : Nat) (r : LaneReq) (rest : List LaneReq), let x := s.calp p; p < 16 ∧ (s.calp p).queue = r :: rest ∧ x.step = 4 ∧ r.kind = 0 :=
  ⟨wCal.setCalp 15 { CalPort.init with queue := [⟨15, 0, true⟩], step := 4, eye := 90, prop := [1, 2, -3, 4, 5, 6] }, 15, ⟨15, 0, true⟩, [], by dsimp only; exact by decide +kernel⟩
theorem witness_RecalibrationStepsAndLimits_9 : ∃ (s : State) (p : Nat) (r : LaneReq) (rest : List LaneReq), let x := s.calp p; let none' := tabGet (fun _ => ([] : List Int)) x.pend r.lane = []; p < 16 ∧ (s.calp p).queue = r :: rest ∧ x.step = 5 ∧ r.kind = 0 ∧ ¬ none' :=
  ⟨wCal.setCalp 15 { CalPort.init with queue := [⟨15, 0, true⟩], step := 5, pend := [(15, [1])] }, 15, ⟨15, 0, true⟩, [], by dsimp only; exact by decide +kernel⟩
theorem witness_RecalibrationStepsAndLimits_10 : ∃ (s : State) (p : Nat) (errs : Nat) (r : LaneReq) (rest : List LaneReq), let x := s.calp p; let none' := tabGet (fun _ => ([] : List Int)) x.pend r.lane = []; p < 16 ∧ (s.calp p).queue = r :: rest ∧ x.step = 5 ∧ r.kind = 0 ∧ none' ∧ errs ≤ s.fget CAL_CFG F.CAL_CFG_ERRMAX :=
  ⟨wCal.setCalp 15 { CalPort.init with queue := [⟨15, 0, true⟩], step := 5 }, 15, 0, ⟨15, 0, true⟩, [], by dsimp only; exact by decide +kernel⟩
theorem witness_RecalibrationStepsAndLimits_11 : ∃ (s : State) (p : Nat) (errs : Nat) (r : LaneReq) (rest : List LaneReq), let x := s.calp p; let none' := tabGet (fun _ => ([] : List Int)) x.pend r.lane = []; p < 16 ∧ (s.calp p).queue = r :: rest ∧ x.step = 5 ∧ r.kind = 0 ∧ none' ∧ s.fget CAL_CFG F.CAL_CFG_ERRMAX < errs :=
  ⟨wCal.setCalp 15 { CalPort.init with queue := [⟨15, 0, true⟩], step := 5, old := 77 }, 15, 1000000, ⟨15, 0, true⟩, [], by dsimp only; exact by decide +kernel⟩
theorem witness_RecalibrationStepsAndLimits_12 : ∃ (s : State) (p : Nat) (r : LaneReq) (rest : List LaneReq), let x := s.calp p; p < 16 ∧ (s.calp p).queue = r :: rest ∧ x.step = 6 ∧ r.kind = 0 ∧ x.fixed = none :=
  ⟨wCal.setCalp 15 { CalPort.init with queue := [⟨15, 0, true⟩], step := 6, status := 5 }, 15, ⟨15, 0, true⟩, [], by dsimp only; exact by decide +kernel⟩
theorem witness_PatternHardwareAndMemoryTests_1 : ∃ (s : State) (who : Who) (p : Nat) (l : Nat) (val : Word) (w : CtlWrite), ∃ c, let enables := fld w.new F.CAL_PRBS_GEN_EN = 1 ∨ fld w.new F.CAL_PRBS_CHK_EN = 1 ∨ fld w.new F.CAL_PRBS_LOOP = 1; admitted who (CAL_PRBS p l) val s w ∧ p < 16 ∧ l < 17 ∧ c ∈ [Instr.prbsWrite who p l val, .clr who p l val] ∧ enables ∧ prbsFree s p l = false :=
  ⟨wCal, .trusted 1, 15, 15, fv [(F.CAL_PRBS_GEN_EN, 1), (F.CAL_PRBS_CLR, 1)], wr (.trusted 1) (CAL_PRBS 15 15) (fv [(F.CAL_PRBS_GEN_EN, 1), (F.CAL_PRBS_CLR, 1)]) wCal, .prbsWrite (.trusted 1) 15 15 (fv [(F.CAL_PRBS_GEN_EN, 1), (F.CAL_PRBS_CLR, 1)]), by dsimp only; exact ⟨admitted_of (by decide +kernel), by decide +kernel⟩⟩
theorem witness_PatternHardwareAndMemoryTests_2 : ∃ (s : State) (who : Who) (p : Nat) (l : Nat) (val : Word) (w : CtlWrite), ∃ c, let enables := fld w.new F.CAL_PRBS_GEN_EN = 1 ∨ fld w.new F.CAL_PRBS_CHK_EN = 1 ∨ fld w.new F.CAL_PRBS_LOOP = 1; admitted who (CAL_PRBS p l) val s w ∧ p < 16 ∧ l < 17 ∧ c ∈ [Instr.prbsWrite who p l val, .clr who p l val] ∧ (¬ enables ∨ prbsFree s p l = true) :=
  ⟨State.reset, .trusted 1, 15, 16, fv [(F.CAL_PRBS_GEN_EN, 1), (F.CAL_PRBS_CLR, 1)], wr (.trusted 1) (CAL_PRBS 15 16) (fv [(F.CAL_PRBS_GEN_EN, 1), (F.CAL_PRBS_CLR, 1)]) State.reset, .prbsWrite (.trusted 1) 15 16 (fv [(F.CAL_PRBS_GEN_EN, 1), (F.CAL_PRBS_CLR, 1)]), by dsimp only; exact ⟨admitted_of (by decide +kernel), by decide +kernel⟩⟩
theorem witness_PatternHardwareAndMemoryTests_3 : ∃ (s : State) (who : Who) (val : Word) (w : CtlWrite), ∃ c, let ch := fld w.new F.CAL_MBISTCTL_CH; admitted who CAL_MBISTCTL val s w ∧ fld w.act F.CAL_MBISTCTL_GO = 1 ∧ s.fget CAL_MBISTCTL F.CAL_MBISTCTL_BUSY = 0 ∧ c ∈ [Instr.marchC who val, .rowPerBank who val, .moduleMbist who val] ∧ ch < 24 ∧ (s.cstate ch = csFENCED ∨ s.cstate ch = csTESTING) ∧ fld w.new F.CAL_MBISTCTL_ALG < 3 ∧ ((fld w.new F.CAL_MBISTCTL_ALG = 2 → (s.chan ch).mbist = true)) :=
  ⟨State.reset.fset (DCH_STAT 23) F.DCH_STAT_STATE 5, .trusted 1, fv [(F.CAL_MBISTCTL_GO, 1), (F.CAL_MBISTCTL_CH, 23)], wr (.trusted 1) CAL_MBISTCTL (fv [(F.CAL_MBISTCTL_GO, 1), (F.CAL_MBISTCTL_CH, 23)]) (State.reset.fset (DCH_STAT 23) F.DCH_STAT_STATE 5), .marchC (.trusted 1) (fv [(F.CAL_MBISTCTL_GO, 1), (F.CAL_MBISTCTL_CH, 23)]), by dsimp only; exact ⟨admitted_of (by decide +kernel), by decide +kernel⟩⟩
theorem witness_PatternHardwareAndMemoryTests_4 : ∃ (s : State) (who : Who) (val : Word) (w : CtlWrite), ∃ c, let ch := fld w.new F.CAL_MBISTCTL_CH; admitted who CAL_MBISTCTL val s w ∧ fld w.act F.CAL_MBISTCTL_GO = 1 ∧ s.fget CAL_MBISTCTL F.CAL_MBISTCTL_BUSY = 0 ∧ c ∈ [Instr.marchC who val, .rowPerBank who val, .moduleMbist who val] ∧ s.cstate ch ≠ csFENCED ∧ s.cstate ch ≠ csTESTING :=
  ⟨State.reset, .trusted 1, fv [(F.CAL_MBISTCTL_GO, 1), (F.CAL_MBISTCTL_CH, 23)], wr (.trusted 1) CAL_MBISTCTL (fv [(F.CAL_MBISTCTL_GO, 1), (F.CAL_MBISTCTL_CH, 23)]) (State.reset), .marchC (.trusted 1) (fv [(F.CAL_MBISTCTL_GO, 1), (F.CAL_MBISTCTL_CH, 23)]), by dsimp only; exact ⟨admitted_of (by decide +kernel), by decide +kernel⟩⟩
theorem witness_PatternHardwareAndMemoryTests_5 : ∃ (s : State), s.fget CAL_MBISTCTL F.CAL_MBISTCTL_BUSY = 1 :=
  ⟨(State.reset.sets [(CAL_MBISTCTL, F.CAL_MBISTCTL_BUSY, 1), (CAL_MBISTCTL, F.CAL_MBISTCTL_CH, 0)]) |> fun s => { s with dram := { s.dram with lines := [(3, 5), (2 ^ 34 + 8, 9)] } }, by decide +kernel⟩
theorem witness_DrivenPinsStopTheDevice_6 : ∃ (s : State) (pins : Nat) (cells : Nat) (fails : List (Nat × Nat)), ∃ c, 3 ≤ s.pst ∧ c ∈ [Instr.extest, .clamp, .highz, .extestPulse, .extestTrain, .bist fails, .bypass, .idcode, .samplePreload pins cells] :=
  ⟨{ State.reset with pst := 3 }, 5, 6, [], .bypass, by decide +kernel⟩
theorem witness_RampNeedsEveryCondition_1 : ∃ (s : State) (h : Nat), h < 24 ∧ (¬ (s.fget (HEM_CTL h) F.HEM_CTL_EN = 1 ∧ ((s.hem h).adm = 0 ∨ (s.hem h).adm = 3) ∧ (s.hem h).retry = false ∧ (s.hem h).present = true ∧ (s.hem h).vinok = true ∧ (s.hem h).gate = 0 ∧ s.pwr.d2dLost = false)) :=
  ⟨State.reset, 23, by decide +kernel⟩
theorem witness_RampNeedsEveryCondition_2 : ∃ (s : State) (h : Nat), h < 24 ∧ s.pwr.d2dLost = false ∧ s.fget (HEM_STAT h) F.HEM_STAT_PG = 0 ∧ s.fget (HEM_CTL h) F.HEM_CTL_EN = 1 ∧ (s.hem h).adm = 0 ∧ (s.hem h).retry = false ∧ (s.hem h).present = true ∧ (s.hem h).vinok = true ∧ (s.hem h).gate = 0 :=
  ⟨{ (wHem) with hems := [(23, { Hem.init with present := true, vinok := true, gate := 0 })] }, 23, by decide +kernel⟩
theorem witness_RampNeedsEveryCondition_3 : ∃ (s : State) (h : Nat), h < 24 ∧ s.pwr.d2dLost = false ∧ s.fget (HEM_STAT h) F.HEM_STAT_PG = 0 ∧ (s.hem h).gate = 1 ∧ (s.hem h).adm = 0 :=
  ⟨{ (wHem) with hems := [(23, { Hem.init with present := true, vinok := true, gate := 1 })] }, 23, by decide +kernel⟩
theorem witness_RampNeedsEveryCondition_4 : ∃ (s : State) (h : Nat), h < 24 ∧ s.pwr.d2dLost = false ∧ s.fget (HEM_STAT h) F.HEM_STAT_PG = 0 ∧ (s.hem h).gate = 3 ∧ (s.hem h).adm = 0 :=
  ⟨{ (wHem) with hems := [(23, { Hem.init with present := true, vinok := true, gate := 3 })] }, 23, by decide +kernel⟩
theorem witness_RampNeedsEveryCondition_5 : ∃ (s : State) (h : Nat), h < 24 ∧ s.pwr.d2dLost = false ∧ s.fget (HEM_STAT h) F.HEM_STAT_PG = 0 ∧ (s.hem h).gate ≠ 2 ∧ (s.hem h).retry = true :=
  ⟨{ (wHem) with hems := [(0, { Hem.init with present := true, vinok := true, retry := true })] }, 0, by decide +kernel⟩
theorem witness_HemFaultsDischargeAndLatch_1 : ∃ (s : State) (h : Nat), h < 24 ∧ s.pwr.d2dLost = false ∧ ((s.hem h).gate = 1 ∨ (s.hem h).gate = 2) :=
  ⟨{ (wHem) with hems := [(23, { Hem.init with present := true, vinok := true, gate := 1 })] }, 23, by decide +kernel⟩
theorem witness_HemFaultsDischargeAndLatch_2 : ∃ (s : State) (h : Nat), h < 24 ∧ s.pwr.d2dLost = false ∧ 3 ≤ (s.hem h).gate :=
  ⟨{ (wHem) with hems := [(23, { Hem.init with present := true, vinok := true, gate := 3 })] }, 23, by decide +kernel⟩
theorem witness_HemFaultsDischargeAndLatch_3 : ∃ (s : State) (h : Nat), h < 24 ∧ s.pwr.d2dLost = false ∧ (s.hem h).gate ≠ 0 :=
  ⟨{ (wHem) with hems := [(23, { Hem.init with present := true, vinok := true, gate := 3 })] }, 23, by decide +kernel⟩
theorem witness_HemFaultsDischargeAndLatch_4 : ∃ (s : State) (h : Nat), ∃ low, h < 24 ∧ s.pwr.d2dLost = false ∧ (s.hem h).present ≠ low ∧ s.fget (HEM_STAT h) F.HEM_STAT_PG = 0 ∧ s.pst = 0 ∧ s.fget PWR_CTL F.PWR_CTL_BUSY = 0 :=
  ⟨{ (wHem) with hems := [(23, { Hem.init with present := true, vinok := true, gate := 1 })] }, 23, false, by decide +kernel⟩
theorem witness_RailOffNeedsAnIdleChannel_1 : ∃ (s : State) (who : Who) (h : Nat) (val : Word) (w : CtlWrite), ∃ c, admitted who (HEM_CTL h) val s w ∧ h < 24 ∧ c ∈ [Instr.railOff who h val, .railOn who h val, .clrpeak who h val] ∧ s.pwr.d2dLost = true :=
  ⟨wLost, .trusted 1, 23, fv [(F.HEM_CTL_EN, 1)], wr (.trusted 1) (HEM_CTL 23) (fv [(F.HEM_CTL_EN, 1)]) (wLost), .railOff (.trusted 1) 23 (fv [(F.HEM_CTL_EN, 1)]), ⟨admitted_of (by decide +kernel), by decide +kernel⟩⟩
theorem witness_RailOffNeedsAnIdleChannel_2 : ∃ (s : State) (who : Who) (h : Nat) (val : Word) (w : CtlWrite), ∃ c, admitted who (HEM_CTL h) val s w ∧ h < 24 ∧ c ∈ [Instr.railOff who h val, .railOn who h val, .clrpeak who h val] ∧ s.pwr.d2dLost = false ∧ fld w.new F.HEM_CTL_EN = 0 ∧ s.cstate h ≠ csABSENT ∧ s.cstate h ≠ csFENCED :=
  ⟨State.reset.sets [(DCH_STAT 23, F.DCH_STAT_STATE, 1)], .trusted 1, 23, fv [], wr (.trusted 1) (HEM_CTL 23) (fv []) (State.reset.sets [(DCH_STAT 23, F.DCH_STAT_STATE, 1)]), .railOff (.trusted 1) 23 (fv []), ⟨admitted_of (by decide +kernel), by decide +kernel⟩⟩
theorem witness_RailOffNeedsAnIdleChannel_3 : ∃ (s : State) (who : Who) (h : Nat) (val : Word) (w : CtlWrite), ∃ c, admitted who (HEM_CTL h) val s w ∧ h < 24 ∧ c ∈ [Instr.railOff who h val, .railOn who h val, .clrpeak who h val] ∧ s.pwr.d2dLost = false ∧ (fld w.new F.HEM_CTL_EN = 1 ∨ s.cstate h = csABSENT ∨ s.cstate h = csFENCED) ∧ s.fget (HEM_STAT h) F.HEM_STAT_PG = 0 :=
  ⟨wHem, .trusted 1, 23, fv [(F.HEM_CTL_CLRPEAK, 1)], wr (.trusted 1) (HEM_CTL 23) (fv [(F.HEM_CTL_CLRPEAK, 1)]) (wHem), .railOff (.trusted 1) 23 (fv [(F.HEM_CTL_CLRPEAK, 1)]), ⟨admitted_of (by decide +kernel), by decide +kernel⟩⟩
theorem witness_RailOffNeedsAnIdleChannel_4 : ∃ (s : State) (who : Who) (h : Nat) (val : Word) (w : CtlWrite), h < 24 ∧ admitted who (HEM_CFG h) val s w :=
  ⟨wLost, .trusted 1, 23, fv [(F.HEM_CFG_RAMP_MS, 100), (F.HEM_CFG_FAULT, 200), (F.HEM_CFG_RETRY, 1000), (F.HEM_CFG_ILIM, 100), (F.HEM_CFG_RSENSE, 20000)], wr (.trusted 1) (HEM_CFG 23) (fv [(F.HEM_CFG_RAMP_MS, 100), (F.HEM_CFG_FAULT, 200), (F.HEM_CFG_RETRY, 1000), (F.HEM_CFG_ILIM, 100), (F.HEM_CFG_RSENSE, 20000)]) (wLost), ⟨by decide +kernel, admitted_of (by decide +kernel)⟩⟩
theorem witness_LostLinkMakesHemStale_1 : ∃ (s : State), s.pwr.d2dLost = false ∧ s.pst < 3 :=
  ⟨wHem, by decide +kernel⟩
theorem witness_LostLinkMakesHemStale_2 : ∃ (s : State) (h : Nat), h < 24 ∧ s.pwr.d2dLost = true :=
  ⟨wLost, 23, by decide +kernel⟩
theorem witness_LostLinkMakesHemStale_3 : ∃ (s : State), s.pwr.d2dLost = true ∧ ((∀ h < 24, s.fget (HEM_STAT h) F.HEM_STAT_PG = 0)) :=
  ⟨{ wLost with hems := [(3, { Hem.init with vin := 4000 })], pwr := { wLost.pwr with lateReports := [{ src := 1, elem := 2, code := 3, addr := 4, detail := 5, level := none }] } }, by decide +kernel⟩
theorem witness_PowerEntryRequests_1 : ∃ (s : State) (who : Who) (val : Word) (w : CtlWrite), ∃ c, admitted who PWR_CTL val s w ∧ whoTrusted who = true ∧ fld w.act F.PWR_CTL_GO = 1 ∧ c ∈ [Instr.p2Entry who val, .p3Entry who val, .p4Entry who val] :=
  ⟨State.reset, .trusted 1, fv [(F.PWR_CTL_GO, 1), (F.PWR_CTL_TARGET, 1)], wr (.trusted 1) (PWR_CTL) (fv [(F.PWR_CTL_GO, 1), (F.PWR_CTL_TARGET, 1)]) (State.reset), .p2Entry (.trusted 1) (fv [(F.PWR_CTL_GO, 1), (F.PWR_CTL_TARGET, 1)]), ⟨admitted_of (by decide +kernel), by decide +kernel⟩⟩
theorem witness_PowerEntryRequests_2 : ∃ (s : State) (who : Who) (val : Word) (w : CtlWrite), ∃ c, admitted who PWR_CTL val s w ∧ whoTrusted who = true ∧ fld w.act F.PWR_CTL_GO = 1 ∧ c ∈ [Instr.p2Entry who val, .p3Entry who val, .p4Entry who val] :=
  ⟨State.reset, .trusted 1, fv [(F.PWR_CTL_GO, 1), (F.PWR_CTL_TARGET, 2)], wr (.trusted 1) (PWR_CTL) (fv [(F.PWR_CTL_GO, 1), (F.PWR_CTL_TARGET, 2)]) (State.reset), .p2Entry (.trusted 1) (fv [(F.PWR_CTL_GO, 1), (F.PWR_CTL_TARGET, 2)]), ⟨admitted_of (by decide +kernel), by decide +kernel⟩⟩
theorem witness_PowerStatesEnterAndWake_1 : ∃ (s : State), s.fget PWR_CFG F.PWR_CFG_P1_AUTO = 1 ∧ s.pst = 0 ∧ s.pwr.held = 0 ∧ s.fget PWR_CTL F.PWR_CTL_BUSY = 0 :=
  ⟨State.reset.sets [(PWR_CFG, F.PWR_CFG_P1_AUTO, 1)], by decide +kernel⟩
theorem witness_PowerStatesEnterAndWake_2 : ∃ (s : State), s.pst = 1 :=
  ⟨{ State.reset with pst := 1 }, by decide +kernel⟩
theorem witness_PowerStatesEnterAndWake_3 : ∃ (s : State), s.fget PWR_CTL F.PWR_CTL_BUSY = 1 ∧ s.pwr.target = 2 :=
  ⟨{ State.reset.sets [(PWR_CTL, F.PWR_CTL_BUSY, 1)] with pwr := { State.reset.pwr with target := 2 } }, by decide +kernel⟩
theorem witness_PowerStatesEnterAndWake_4 : ∃ (s : State), s.fget PWR_WAKE F.PWR_WAKE_TIMER_S ≠ 0 ∧ s.pst = 2 ∧ s.fget PWR_CTL F.PWR_CTL_BUSY = 0 :=
  ⟨{ State.reset.sets [(PWR_WAKE, F.PWR_WAKE_TIMER_S, 9)] with pst := 2 }, by decide +kernel⟩
theorem witness_PowerStatesEnterAndWake_5 : ∃ (s : State), ∃ src, wakeEnabled s src = false :=
  ⟨State.reset, 9, by decide +kernel⟩
theorem witness_PowerStatesEnterAndWake_6 : ∃ (s : State), ∃ p, linkUp s p = true ∧ (s.port p).trk = [] :=
  ⟨State.reset.sets [(PRT_CFG 15, F.PRT_CFG_MODE, 0), (PRT_LINKSTAT 15, F.PRT_LINKSTAT_UP, 1)], 15, by decide +kernel⟩
theorem witness_VoltageRequestsInRange_1 : ∃ (s : State) (who : Who) (val : Word) (w : CtlWrite), let mv := fld w.new F.PWR_VCORE_REQ_MV; admitted who PWR_VCORE val s w ∧ (mv < 650 ∨ 850 < mv) :=
  ⟨State.reset, .trusted 1, fv [(F.PWR_VCORE_REQ_MV, 649)], wr (.trusted 1) (PWR_VCORE) (fv [(F.PWR_VCORE_REQ_MV, 649)]) (State.reset), by dsimp only; exact ⟨admitted_of (by decide +kernel), by decide +kernel⟩⟩
theorem witness_VoltageRequestsInRange_2 : ∃ (s : State) (who : Who) (val : Word) (w : CtlWrite), let mv := fld w.new F.PWR_VCORE_REQ_MV; admitted who PWR_VCORE val s w ∧ 650 ≤ mv ∧ mv ≤ 850 :=
  ⟨State.reset, .trusted 1, fv [(F.PWR_VCORE_REQ_MV, 650)], wr (.trusted 1) (PWR_VCORE) (fv [(F.PWR_VCORE_REQ_MV, 650)]) (State.reset), by dsimp only; exact ⟨admitted_of (by decide +kernel), by decide +kernel⟩⟩
theorem witness_VoltageRequestsInRange_3 : ∃ (mv : Nat), mv ≤ 950 :=
  ⟨950, by decide +kernel⟩
theorem witness_VoltageRequestsInRange_4 : ∃ (mv : Nat), 950 < mv :=
  ⟨951, by decide +kernel⟩
theorem witness_GatingUnitsAndTrustedUse_1 : ∃ (s : State) (who : Who) (u : Nat) (val : Word) (w : CtlWrite), admitted who (PWR_UNITCTL u) val s w ∧ u < 165 ∧ whoTrusted who = true :=
  ⟨State.reset, .trusted 1, 0, fv [(F.PWR_UNITCTL_GATE, 0)], wr (.trusted 1) (PWR_UNITCTL 0) (fv [(F.PWR_UNITCTL_GATE, 0)]) (State.reset), ⟨admitted_of (by decide +kernel), by decide +kernel⟩⟩
theorem witness_GatingUnitsAndTrustedUse_2 : ∃ (s : State) (who : Who) (i : Nat) (val : Word) (w : CtlWrite), admitted who (MGT_TUSE i) val s w ∧ i < 4 ∧ s.pwr.normal = false :=
  ⟨State.reset, .trusted 1, 3, 255, wr (.trusted 1) (MGT_TUSE 3) (255) (State.reset), ⟨admitted_of (by decide +kernel), by decide +kernel⟩⟩
theorem witness_ColdResetsLoseEverything_1 : ∃ (s : State), s.pst ≠ 4 ∧ s.pwr.pwrok = true :=
  ⟨{ wFull with pwr := { wFull.pwr with pwrok := true } }, by decide +kernel⟩
theorem witness_ColdResetsLoseEverything_2 : ∃ (s : State), s.pst ≠ 4 ∧ s.pwr.pwrok = true :=
  ⟨{ wFull with pwr := { wFull.pwr with pwrok := true } }, by decide +kernel⟩
theorem witness_ColdResetsLoseEverything_3 : ∃ (s : State), ∃ rails, s.pst ≠ 4 ∧ s.pwr.pwrok = true ∧ s.pwr.held ≠ 3 ∧ rails % 32 ≠ 0 :=
  ⟨{ wFull with pwr := { wFull.pwr with pwrok := true } }, 63, by decide +kernel⟩
theorem witness_ColdResetsLoseEverything_4 : ∃ (s : State), s.pst ≠ 4 ∧ s.pwr.pwrok = true ∧ s.pwr.held = 0 :=
  ⟨{ wFull with pwr := { wFull.pwr with pwrok := true } }, by decide +kernel⟩
theorem witness_ColdResetsLoseEverything_5 : ∃ (s : State), s.pst ≠ 4 ∧ s.pwr.pwrok = false :=
  ⟨{ wFull with pwr := { wFull.pwr with pwrok := false } }, by decide +kernel⟩
theorem witness_ThermalPageFollowsTheSensors_1 : ∃ (core : List Nat) (selv : List Nat), core ≠ [] ∧ selv ≠ [] ∧ ((∀ x ∈ core, x < 128)) ∧ ((∀ x ∈ selv, x < 128)) :=
  ⟨[5, 100], [96], by decide +kernel⟩
theorem witness_ThermalPageFollowsTheSensors_2 : ∃ (s : State), s.mgmt.stopped = false ∧ s.pst = 0 ∧ s.fget PWR_CTL F.PWR_CTL_BUSY = 0 :=
  ⟨State.reset, by decide +kernel⟩
theorem witness_PowerStatesEnterAndWake_7 : ∃ (s : State), ∃ src, wakeEnabled s src = true ∧ wakeFrom src 2 = true ∧ s.pst = 2 ∧ s.fget PWR_CTL F.PWR_CTL_BUSY = 0 ∧ src < 16 :=
  ⟨{ State.reset.sets [(PWR_WAKE, F.PWR_WAKE_PIN, 1)] with pst := 2 }, 2, by decide +kernel⟩
theorem witness_PowerStatesEnterAndWake_8 : ∃ (s : State), ∃ src, wakeEnabled s src = true ∧ s.fget PWR_CTL F.PWR_CTL_BUSY = 1 ∧ wakeFrom src s.pwr.target = true ∧ 2 ≤ s.pwr.target ∧ s.pwr.target ≤ 4 :=
  ⟨{ State.reset.sets [(PWR_WAKE, F.PWR_WAKE_PIN, 1), (PWR_CTL, F.PWR_CTL_BUSY, 1)] with pwr := { State.reset.pwr with target := 4 } }, 2, by decide +kernel⟩
theorem witness_MailboxQueriesAnswer_1 : ∃ (s : State) (p : Nat), ∃ log, p < 16 ∧ mboxOpen s p = true ∧ log < 5 :=
  ⟨wUp, 15, 4, by decide +kernel⟩
theorem witness_MailboxQueriesAnswer_2 : ∃ (s : State) (p : Nat), p < 16 ∧ mboxOpen s p = true :=
  ⟨wUp, 15, by decide +kernel⟩
theorem witness_MailboxQueriesAnswer_3 : ∃ (s : State) (p : Nat), p < 16 ∧ mboxOpen s p = true :=
  ⟨wUp, 15, by decide +kernel⟩
theorem witness_MailboxQueriesAnswer_4 : ∃ (s : State) (p : Nat), p < 16 ∧ mboxOpen s p = true :=
  ⟨wUp, 15, by decide +kernel⟩
theorem witness_MailboxQueriesAnswer_5 : ∃ (s : State) (p : Nat), p < 16 ∧ mboxOpen s p = true :=
  ⟨wUp, 15, by decide +kernel⟩
theorem witness_MailboxQueriesAnswer_6 : ∃ (s : State) (p : Nat), ∃ off len, p < 16 ∧ mboxOpen s p = true ∧ len ≤ 4096 ∧ off + len ≤ effectsLog.length :=
  ⟨wUp, 15, 97, 3, by decide +kernel⟩
theorem witness_MailboxQueriesAnswer_7 : ∃ (s : State) (p : Nat), p < 16 ∧ mboxOpen s p = true :=
  ⟨wUp, 15, by decide +kernel⟩
theorem witness_MailboxQueriesAnswer_8 : ∃ (s : State) (p : Nat), p < 16 ∧ mboxOpen s p = true :=
  ⟨wUp, 15, by decide +kernel⟩
theorem witness_MailboxQueriesAnswer_9 : ∃ (s : State) (p : Nat), p < 16 ∧ mboxOpen s p = true :=
  ⟨wUp, 15, by decide +kernel⟩
theorem witness_MailboxQueriesAnswer_10 : ∃ (s : State) (p : Nat), p < 16 ∧ mboxOpen s p = true :=
  ⟨wUp, 15, by decide +kernel⟩
theorem witness_MailboxQueriesAnswer_11 : ∃ (s : State) (p : Nat), ∃ dpa len, p < 16 ∧ mboxOpen s p = true ∧ (((s.port p).poisonCur.1 ≠ dpa ∨ (s.port p).poisonCur.2.1 ≠ len)) :=
  ⟨wUp, 15, 0, 4096, by decide +kernel⟩
theorem witness_MailboxQueriesAnswer_12 : ∃ (s : State) (p : Nat), p < 16 ∧ mboxOpen s p = true :=
  ⟨wUp, 15, by decide +kernel⟩
theorem witness_MailboxQueriesAnswer_13 : ∃ (s : State) (p : Nat), p < 16 ∧ mboxOpen s p = true :=
  ⟨wUp, 15, by decide +kernel⟩
theorem witness_MailboxQueriesAnswer_14 : ∃ (s : State) (p : Nat), p < 16 ∧ mboxOpen s p = true :=
  ⟨wUp, 15, by decide +kernel⟩
theorem witness_MailboxQueriesAnswer_15 : ∃ (s : State) (p : Nat), p < 16 ∧ mboxOpen s p = true :=
  ⟨wUp, 15, by decide +kernel⟩
theorem witness_MailboxQueriesAnswer_16 : ∃ (s : State) (p : Nat), p < 16 ∧ mboxOpen s p = true :=
  ⟨wUp, 15, by decide +kernel⟩
theorem witness_MailboxSettingsTakeEffect_1 : ∃ (s : State) (p : Nat), p < 16 ∧ mboxOpen s p = true :=
  ⟨wUp, 15, by decide +kernel⟩
theorem witness_MailboxSettingsTakeEffect_2 : ∃ (s : State) (p : Nat), p < 16 ∧ mboxOpen s p = true :=
  ⟨wUp, 15, by decide +kernel⟩
theorem witness_MailboxSettingsTakeEffect_3 : ∃ (s : State) (p : Nat) (al : List Nat), p < 16 ∧ mboxOpen s p = true ∧ al.length = 3 :=
  ⟨wUp, 15, [1, 2, 3], by decide +kernel⟩
theorem witness_MailboxSettingsTakeEffect_4 : ∃ (s : State) (p : Nat) (al : List Nat), p < 16 ∧ mboxOpen s p = true ∧ al.length ≠ 3 :=
  ⟨wUp, 15, [1, 2], by decide +kernel⟩
theorem witness_MailboxSettingsTakeEffect_5 : ∃ (s : State) (p : Nat), ∃ log, p < 16 ∧ mboxOpen s p = true ∧ 5 ≤ log :=
  ⟨wUp, 15, 5, by decide +kernel⟩
theorem witness_MailboxSettingsTakeEffect_6 : ∃ (s : State) (p : Nat), ∃ log, p < 16 ∧ mboxOpen s p = true ∧ log < 5 :=
  ⟨wUp, 15, 4, by decide +kernel⟩
theorem witness_MailboxSettingsTakeEffect_7 : ∃ (s : State) (p : Nat), ∃ q, p < 16 ∧ mboxOpen s p = true ∧ q < 1024 ∧ headOwns s p q = false ∧ (s.port p).mboxBg = none :=
  ⟨wUp, 15, 1023, by decide +kernel⟩
theorem witness_MailboxSettingsTakeEffect_8 : ∃ (s : State) (p : Nat), ∃ q, p < 16 ∧ mboxOpen s p = true ∧ q < 1024 ∧ headOwns s p q = true ∧ (s.port p).mboxBg = none ∧ s.fget (SPL_STAT q) F.SPL_STAT_STATE = 4 :=
  ⟨(wUp.sets [(SPL_CLASSINFO 1023, F.SPL_CLASSINFO_OWNER, 15), (SPL_STAT 1023, F.SPL_STAT_STATE, 4)]), 15, 1023, by decide +kernel⟩
theorem witness_MailboxSettingsTakeEffect_9 : ∃ (s : State) (p : Nat), ∃ q, p < 16 ∧ mboxOpen s p = true ∧ q < 1024 ∧ headOwns s p q = true ∧ (s.port p).mboxBg = none ∧ s.fget (SPL_STAT q) F.SPL_STAT_STATE ≠ 4 :=
  ⟨{ (wUp.sets [(SPL_CLASSINFO 1023, F.SPL_CLASSINFO_OWNER, 15), (SPL_STAT 1023, F.SPL_STAT_STATE, 1)]) with spools := [(1023, { Spool.init with asked := true })] }, 15, 1023, by decide +kernel⟩
theorem witness_MailboxSettingsTakeEffect_10 : ∃ (s : State) (p : Nat), ∃ op, p < 16 ∧ mboxOpen s p = true ∧ mboxOpcodes.contains op = false :=
  ⟨wUp, 15, 0x0104, by decide +kernel⟩
theorem witness_PoisonCommandsGoThroughHome_1 : ∃ (s : State) (p : Nat) (dpa : Nat), p < 16 ∧ mboxOpen s p = true ∧ dpaUsable s p dpa = false :=
  ⟨wUp, 15, 0, by decide +kernel⟩
theorem witness_PoisonCommandsGoThroughHome_2 : ∃ (s : State) (p : Nat) (dpa : Nat), ∃ la, p < 16 ∧ mboxOpen s p = true ∧ dpaUsable s p dpa = true ∧ dpaToLa s p dpa = some la :=
  ⟨wHm, 15, 0x12345, 0x12345, by decide +kernel⟩
theorem witness_DynamicCapacityExtents_1 : ∃ (s : State) (p : Nat), ∃ eid, hostMode s p = true ∧ eid ≠ s.mgmt.fmEid :=
  ⟨wUp, 15, 5, by decide +kernel⟩
theorem witness_DynamicCapacityExtents_2 : ∃ (s : State) (p : Nat), ∃ eid, nothingWaits s ∧ hostMode s p = true ∧ s.devLevel ≠ 4 ∧ (s.port p).trk = [] ∧ s.home.recalls = [] ∧ s.home.dirEnt = [] ∧ eid ≠ s.mgmt.fmEid :=
  ⟨wUp, 15, 5, ⟨by unfold nothingWaits; decide +kernel, by decide +kernel⟩⟩
theorem witness_DynamicCapacityExtents_3 : ∃ (s : State) (p : Nat) (es : List (Nat × Nat)), hostMode s p = true ∧ ((∃ e ∈ es, hmCovers s p (e.1 + e.2) 513 e.1 = false)) :=
  ⟨wUp, 15, [(2097152, 2097152)], ⟨by decide +kernel, ⟨(2097152, 2097152), by decide +kernel, by decide +kernel⟩⟩⟩
theorem witness_DynamicCapacityExtents_4 : ∃ (s : State) (p : Nat) (es : List (Nat × Nat)), hostMode s p = true ∧ ((∀ e ∈ es, hmCovers s p (e.1 + e.2) 513 e.1 = true ∧ extentFits s p e = true)) :=
  ⟨wHm, 15, [(0x40000000, 2097152)], by decide +kernel⟩
theorem witness_DynamicCapacityExtents_5 : ∃ (s : State) (p : Nat), mboxOpen s p = true ∧ vecMasked s p = false :=
  ⟨(wHm).setPort 15 { (wHm).port 15 with offered := [[⟨0x40000000, 4194304⟩], []] }, 15, by decide +kernel⟩
theorem witness_DynamicCapacityExtents_6 : ∃ (s : State) (p : Nat) (dpa : Nat) (len : Nat), nothingWaits s ∧ mboxOpen s p = true ∧ vecMasked s p = false ∧ s.devLevel ≠ 4 ∧ (s.port p).trk = [] ∧ s.home.recalls = [] ∧ s.home.dirEnt = [] ∧ (s.port p).extents = [⟨dpa, len⟩] ∧ 0 < len :=
  ⟨(wHm).setPort 15 { (wHm).port 15 with extents := [⟨0x40000000, 4194304⟩] }, 15, 0x40000000, 4194304, ⟨by unfold nothingWaits; decide +kernel, by decide +kernel⟩⟩
theorem witness_DynamicCapacityExtents_7 : ∃ (s : State) (p : Nat), nothingWaits s ∧ hostMode s p = true ∧ s.devLevel ≠ 4 ∧ (s.port p).trk = [] ∧ s.home.recalls = [] ∧ s.home.dirEnt = [] :=
  ⟨(wHm).setPort 15 { (wHm).port 15 with extents := [⟨0x40000000, 6291456⟩] }, 15, ⟨by unfold nothingWaits; decide +kernel, by decide +kernel⟩⟩
theorem witness_PortResetsCutTheLink_1 : ∃ (s : State) (p : Nat), nothingWaits s ∧ p < 16 ∧ hostMode s p = true ∧ (s.calp p).queue = [] ∧ heldLines s p = [] ∧ s.home.recalls = [] ∧ s.pst = 0 ∧ s.fget PWR_CTL F.PWR_CTL_BUSY = 0 :=
  ⟨wTrk, 15, ⟨by unfold nothingWaits; decide +kernel, by decide +kernel⟩⟩
theorem witness_PortResetsCutTheLink_2 : ∃ (s : State) (p : Nat), nothingWaits s ∧ p < 16 ∧ hostMode s p = true ∧ (s.calp p).queue = [] ∧ heldLines s p = [] ∧ s.home.recalls = [] ∧ s.pst = 0 ∧ s.fget PWR_CTL F.PWR_CTL_BUSY = 0 ∧ (s.port p).perst = 1 :=
  ⟨(wUp).setPort 15 { (wUp).port 15 with perst := 1 }, 15, ⟨by unfold nothingWaits; decide +kernel, by decide +kernel⟩⟩
theorem witness_PortResetsCutTheLink_3 : ∃ (s : State) (p : Nat), nothingWaits s ∧ p < 16 ∧ hostMode s p = true ∧ (s.calp p).queue = [] ∧ heldLines s p = [] ∧ s.home.recalls = [] ∧ s.pst = 0 ∧ s.fget PWR_CTL F.PWR_CTL_BUSY = 0 ∧ linkUp s p = true :=
  ⟨wTrk, 15, ⟨by unfold nothingWaits; decide +kernel, by decide +kernel⟩⟩
theorem witness_HostLinkTrainsAndNarrows_1 : ∃ (s : State) (p : Nat) (width : Nat) (speed : Nat) (flit : Nat), p < 16 ∧ hostMode s p = true ∧ s.tap.driven = false ∧ s.fget (PRT_CFG p) F.PRT_CFG_RELEASE = 1 ∧ (s.port p).perst = 0 ∧ portFenced s p = false ∧ linkUp s p = false ∧ gated s (1 + p) = false ∧ s.pst < 2 ∧ s.fget (PRT_CFG p) F.PRT_CFG_MAXW ≤ width ∧ width < 4 ∧ speed < 3 ∧ flit < 3 ∧ ((speed = 2 → s.fget (PRT_CFG p) F.PRT_CFG_MAXSPD = 0)) ∧ (speed = 2 ↔ 0 < flit) ∧ ((flit = 2 → s.fget (PRT_CFG p) F.PRT_CFG_LOPT_EN = 1)) :=
  ⟨wRel, 15, 0, 2, 1, by decide +kernel⟩
theorem witness_HostLinkTrainsAndNarrows_2 : ∃ (s : State) (p : Nat) (width : Nat), p < 16 ∧ linkUp s p = true ∧ s.fget (PRT_CFG p) F.PRT_CFG_L0P_EN = 1 ∧ s.fget (PRT_LINKSTAT p) F.PRT_LINKSTAT_SPEED = 2 ∧ s.fget (PRT_LINKSTAT p) F.PRT_LINKSTAT_WIDTH ≤ width ∧ width < 3 :=
  ⟨wUp.fset (PRT_CFG 15) F.PRT_CFG_L0P_EN 1, 15, 2, by decide +kernel⟩
theorem witness_HostLinkTrainsAndNarrows_3 : ∃ (s : State) (p : Nat), p < 16 ∧ linkUp s p = true ∧ (s.fget (PRT_CFG p) F.PRT_CFG_L0P_EN = 0 ∨ s.fget (PRT_LINKSTAT p) F.PRT_LINKSTAT_SPEED ≠ 2) :=
  ⟨wUp.fset (PRT_CFG 15) F.PRT_CFG_L0P_EN 0, 15, by decide +kernel⟩
theorem witness_HostLinkTrainsAndNarrows_4 : ∃ (s : State) (p : Nat), p < 16 ∧ linkUp s p = true ∧ (s.port p).l1 = false ∧ (s.calp p).queue = [] :=
  ⟨(wUp).setPort 15 { (wUp).port 15 with replay := [3] }, 15, by decide +kernel⟩
theorem witness_HeadMapWritesAreChecked_1 : ∃ (s : State) (who : Who) (p : Nat) (n : Nat) (val : Word) (w : CtlWrite), admitted who (PRT_HMAPB p n) val s w ∧ p < 16 ∧ n < 512 ∧ s.fget (PRT_HMAPA p n) F.PRT_HMAPA_VALID = 1 :=
  ⟨wHm, .trusted 1, 15, 0, 77, wr (.trusted 1) (PRT_HMAPB 15 0) (77) (wHm), ⟨admitted_of (by decide +kernel), by decide +kernel⟩⟩
theorem witness_HeadMapWritesAreChecked_2 : ∃ (s : State) (who : Who) (p : Nat) (n : Nat) (val : Word) (w : CtlWrite), admitted who (PRT_HMAPB p n) val s w ∧ p < 16 ∧ n < 512 ∧ s.fget (PRT_HMAPA p n) F.PRT_HMAPA_VALID = 0 :=
  ⟨wHm, .trusted 1, 15, 511, 77, wr (.trusted 1) (PRT_HMAPB 15 511) (77) (wHm), ⟨admitted_of (by decide +kernel), by decide +kernel⟩⟩
theorem witness_HeadMapWritesAreChecked_3 : ∃ (s : State) (who : Who) (p : Nat) (n : Nat) (val : Word) (w : CtlWrite), admitted who (PRT_HMAPA p n) val s w ∧ p < 16 ∧ n < 512 ∧ fld w.old F.PRT_HMAPA_VALID = 1 ∧ w.new ≠ w.old ∧ w.new ≠ putf w.old F.PRT_HMAPA_VALID 0 :=
  ⟨wHm, .trusted 1, 15, 0, fv [(F.PRT_HMAPA_VALID, 1), (F.PRT_HMAPA_DPABASE, 512), (F.PRT_HMAPA_LEN, 511)], wr (.trusted 1) (PRT_HMAPA 15 0) (fv [(F.PRT_HMAPA_VALID, 1), (F.PRT_HMAPA_DPABASE, 512), (F.PRT_HMAPA_LEN, 511)]) (wHm), ⟨admitted_of (by decide +kernel), by decide +kernel⟩⟩
theorem witness_HeadMapWritesAreChecked_4 : ∃ (s : State) (who : Who) (p : Nat) (n : Nat) (val : Word) (w : CtlWrite), admitted who (PRT_HMAPA p n) val s w ∧ p < 16 ∧ n < 512 ∧ fld w.old F.PRT_HMAPA_VALID = 1 ∧ w.new = putf w.old F.PRT_HMAPA_VALID 0 :=
  ⟨wHm, .trusted 1, 15, 0, fv [(F.PRT_HMAPA_LEN, 1023)], wr (.trusted 1) (PRT_HMAPA 15 0) (fv [(F.PRT_HMAPA_LEN, 1023)]) (wHm), ⟨admitted_of (by decide +kernel), by decide +kernel⟩⟩
theorem witness_HeadMapWritesAreChecked_5 : ∃ (s : State) (who : Who) (p : Nat) (n : Nat) (val : Word) (w : CtlWrite), let lo := fld w.new F.PRT_HMAPA_DPABASE * 2 ^ 21; let len := (fld w.new F.PRT_HMAPA_LEN + 1) * 2 ^ 21; let overlap := ∃ i < 512, i ≠ n ∧ (hmEntry s p i).1 = true ∧ (hmEntry s p i).2.1 < lo + len ∧ lo < (hmEntry s p i).2.1 + (hmEntry s p i).2.2.1; admitted who (PRT_HMAPA p n) val s w ∧ p < 16 ∧ n < 512 ∧ fld w.old F.PRT_HMAPA_VALID = 0 ∧ fld w.new F.PRT_HMAPA_VALID = 1 ∧ overlap :=
  ⟨wHm, .trusted 1, 15, 511, fv [(F.PRT_HMAPA_VALID, 1), (F.PRT_HMAPA_DPABASE, 512), (F.PRT_HMAPA_LEN, 511)], wr (.trusted 1) (PRT_HMAPA 15 511) (fv [(F.PRT_HMAPA_VALID, 1), (F.PRT_HMAPA_DPABASE, 512), (F.PRT_HMAPA_LEN, 511)]) (wHm), by dsimp only; exact ⟨admitted_of (by decide +kernel), by decide +kernel⟩⟩
theorem witness_HeadMapWritesAreChecked_6 : ∃ (s : State) (who : Who) (p : Nat) (n : Nat) (val : Word) (w : CtlWrite), let lo := fld w.new F.PRT_HMAPA_DPABASE * 2 ^ 21; let len := (fld w.new F.PRT_HMAPA_LEN + 1) * 2 ^ 21; let overlap := ∃ i < 512, i ≠ n ∧ (hmEntry s p i).1 = true ∧ (hmEntry s p i).2.1 < lo + len ∧ lo < (hmEntry s p i).2.1 + (hmEntry s p i).2.2.1; let kind := fld (s.rg (PRT_HMAPB p n)).toNat F.PRT_HMAPB_KIND; let la := fld (s.rg (PRT_HMAPB p n)).toNat F.PRT_HMAPB_LABASE * 2 ^ 21; let outside := dpaEnd s p < lo + len ∨ (kind = 0 ∧ pagesL s * 4096 < la + len); admitted who (PRT_HMAPA p n) val s w ∧ p < 16 ∧ n < 512 ∧ fld w.old F.PRT_HMAPA_VALID = 0 ∧ fld w.new F.PRT_HMAPA_VALID = 1 ∧ ¬ overlap ∧ outside :=
  ⟨State.reset, .trusted 1, 15, 511, fv [(F.PRT_HMAPA_VALID, 1), (F.PRT_HMAPA_DPABASE, 512), (F.PRT_HMAPA_LEN, 511)], wr (.trusted 1) (PRT_HMAPA 15 511) (fv [(F.PRT_HMAPA_VALID, 1), (F.PRT_HMAPA_DPABASE, 512), (F.PRT_HMAPA_LEN, 511)]) (State.reset), by dsimp only; exact ⟨admitted_of (by decide +kernel), by decide +kernel⟩⟩
theorem witness_HeadMapWritesAreChecked_7 : ∃ (s : State) (who : Who) (p : Nat) (n : Nat) (val : Word) (w : CtlWrite), let lo := fld w.new F.PRT_HMAPA_DPABASE * 2 ^ 21; let len := (fld w.new F.PRT_HMAPA_LEN + 1) * 2 ^ 21; let overlap := ∃ i < 512, i ≠ n ∧ (hmEntry s p i).1 = true ∧ (hmEntry s p i).2.1 < lo + len ∧ lo < (hmEntry s p i).2.1 + (hmEntry s p i).2.2.1; let kind := fld (s.rg (PRT_HMAPB p n)).toNat F.PRT_HMAPB_KIND; let la := fld (s.rg (PRT_HMAPB p n)).toNat F.PRT_HMAPB_LABASE * 2 ^ 21; let outside := dpaEnd s p < lo + len ∨ (kind = 0 ∧ pagesL s * 4096 < la + len); admitted who (PRT_HMAPA p n) val s w ∧ p < 16 ∧ n < 512 ∧ fld w.old F.PRT_HMAPA_VALID = 0 ∧ fld w.new F.PRT_HMAPA_VALID = 1 ∧ ¬ overlap ∧ ¬ outside :=
  ⟨(wHm.fset (PRT_HMAPA 15 0) F.PRT_HMAPA_LEN 511).fset (PRT_HMAPB 15 511) F.PRT_HMAPB_KIND 1, .trusted 1, 15, 511, fv [(F.PRT_HMAPA_VALID, 1), (F.PRT_HMAPA_DPABASE, 512), (F.PRT_HMAPA_LEN, 511)], wr (.trusted 1) (PRT_HMAPA 15 511) (fv [(F.PRT_HMAPA_VALID, 1), (F.PRT_HMAPA_DPABASE, 512), (F.PRT_HMAPA_LEN, 511)]) ((wHm.fset (PRT_HMAPA 15 0) F.PRT_HMAPA_LEN 511).fset (PRT_HMAPB 15 511) F.PRT_HMAPB_KIND 1), by dsimp only; exact ⟨admitted_of (by decide +kernel), by decide +kernel⟩⟩
theorem witness_HeadMapWritesAreChecked_8 : ∃ (s : State) (who : Who) (p : Nat) (n : Nat) (val : Word) (w : CtlWrite), admitted who (PRT_HMAPA p n) val s w ∧ p < 16 ∧ n < 512 ∧ fld w.old F.PRT_HMAPA_VALID = 0 ∧ fld w.new F.PRT_HMAPA_VALID = 0 :=
  ⟨wHm, .trusted 1, 15, 1, 0, wr (.trusted 1) (PRT_HMAPA 15 1) (0) (wHm), ⟨admitted_of (by decide +kernel), by decide +kernel⟩⟩
theorem witness_HeadMapWritesAreChecked_9 : ∃ (s : State) (who : Who) (p : Nat) (n : Nat) (val : Word) (w : CtlWrite), let sum := fld w.new F.PRT_DPALAYOUT_STATIC + fld w.new F.PRT_DPALAYOUT_DCR0 + fld w.new F.PRT_DPALAYOUT_DCR1; admitted who (PRT_DPALAYOUT p) val s w ∧ p < 16 ∧ n < 512 ∧ 2 ^ 19 < sum :=
  ⟨wHm, .trusted 1, 15, 1, fv [(F.PRT_DPALAYOUT_STATIC, 2^18), (F.PRT_DPALAYOUT_DCR0, 2^18), (F.PRT_DPALAYOUT_DCR1, 1)], wr (.trusted 1) (PRT_DPALAYOUT 15) (fv [(F.PRT_DPALAYOUT_STATIC, 2^18), (F.PRT_DPALAYOUT_DCR0, 2^18), (F.PRT_DPALAYOUT_DCR1, 1)]) (wHm), by dsimp only; exact ⟨admitted_of (by decide +kernel), by decide +kernel⟩⟩
theorem witness_HeadMapWritesAreChecked_10 : ∃ (s : State) (who : Who) (p : Nat) (n : Nat) (val : Word) (w : CtlWrite), let sum := fld w.new F.PRT_DPALAYOUT_STATIC + fld w.new F.PRT_DPALAYOUT_DCR0 + fld w.new F.PRT_DPALAYOUT_DCR1; admitted who (PRT_DPALAYOUT p) val s w ∧ p < 16 ∧ n < 512 ∧ sum ≤ 2 ^ 19 :=
  ⟨wHm, .trusted 1, 15, 1, fv [(F.PRT_DPALAYOUT_STATIC, 2^18), (F.PRT_DPALAYOUT_DCR0, 2^18)], wr (.trusted 1) (PRT_DPALAYOUT 15) (fv [(F.PRT_DPALAYOUT_STATIC, 2^18), (F.PRT_DPALAYOUT_DCR0, 2^18)]) (wHm), by dsimp only; exact ⟨admitted_of (by decide +kernel), by decide +kernel⟩⟩
theorem witness_HeadMapWritesAreChecked_11 : ∃ (s : State) (who : Who) (p : Nat) (n : Nat) (val : Word) (w : CtlWrite), admitted who (PRT_CFG p) val s w ∧ p < 16 ∧ n < 512 :=
  ⟨wHm, .trusted 1, 15, 1, fv [(F.PRT_CFG_RELEASE, 1)], wr (.trusted 1) (PRT_CFG 15) (fv [(F.PRT_CFG_RELEASE, 1)]) (wHm), ⟨admitted_of (by decide +kernel), by decide +kernel⟩⟩
theorem witness_DecodersCommitInOrder_1 : ∃ (s : State) (p : Nat) (i : Nat) (base : Nat) (size : Nat) (ways : Nat) (gran : Nat), p < 16 ∧ i < 16 ∧ linkUp s p = true ∧ portDec s p i = none ∧ (decList s p).length = i ∧ base % 2 ^ 28 = 0 ∧ 0 < size ∧ ways ∈ decWays ∧ gran ∈ decGrans ∧ size % (2 ^ 28 * ways) = 0 ∧ ((∀ d ∈ decList s p, d.base + d.size ≤ base)) :=
  ⟨wUp, 15, 0, 2^28, 2^28, 1, 256, by decide +kernel⟩
theorem witness_DecodersCommitInOrder_2 : ∃ (s : State) (p : Nat) (i : Nat) (d : HdmDec), p < 16 ∧ i < 16 ∧ linkUp s p = true ∧ portDec s p i = some d :=
  ⟨wDec, 15, 0, (⟨2 ^ 28, 2 ^ 28, 64, 1, 256, true, false⟩ : HdmDec), by decide +kernel⟩
theorem witness_HostRequestsReachTheirSlice_1 : ∃ (s : State) (p : Nat) (hpa : Nat) (tag : Nat) (dpa : Nat), ∃ la, p < 16 ∧ linkUp s p = true ∧ s.fget (PRT_LINKSTAT p) F.PRT_LINKSTAT_MEM_EN = 1 ∧ s.fget (PRT_LINKSTAT p) F.PRT_LINKSTAT_IDE = 0 ∧ s.fget (PRT_HEADSTAT p) F.PRT_HEADSTAT_FATAL = 0 ∧ (s.port p).ideInsecure = false ∧ (s.port p).l1 = false ∧ coreOpen s = true ∧ s.pst = 0 ∧ s.fget PWR_CTL F.PWR_CTL_BUSY = 0 ∧ ((∀ r ∈ (s.port p).trk, r.tag ≠ tag)) ∧ (s.port p).trk.length < 2048 ∧ portHeld s p = false ∧ hpaToDpa s p hpa 16 0 = some dpa ∧ dpaUsable s p dpa = true ∧ dpaToLa s p dpa = some la :=
  ⟨{ wHm with ports := [(15, { Port.init with dec := [(0, some ⟨2 ^ 28, 2 ^ 28, 0, 1, 256, true, false⟩)] })] }, 15, 0x10012345, 9, 0x12345, 0x12345, by decide +kernel⟩
theorem witness_HostRequestsReachTheirSlice_2 : ∃ (s : State) (p : Nat) (hpa : Nat) (tag : Nat) (dpa : Nat), p < 16 ∧ linkUp s p = true ∧ s.fget (PRT_LINKSTAT p) F.PRT_LINKSTAT_MEM_EN = 1 ∧ s.fget (PRT_LINKSTAT p) F.PRT_LINKSTAT_IDE = 0 ∧ s.fget (PRT_HEADSTAT p) F.PRT_HEADSTAT_FATAL = 0 ∧ (s.port p).ideInsecure = false ∧ (s.port p).l1 = false ∧ coreOpen s = true ∧ s.pst = 0 ∧ s.fget PWR_CTL F.PWR_CTL_BUSY = 0 ∧ ((∀ r ∈ (s.port p).trk, r.tag ≠ tag)) ∧ (s.port p).trk.length < 2048 ∧ portHeld s p = false ∧ hpaToDpa s p hpa 16 0 = some dpa ∧ dpaUsable s p dpa = false :=
  ⟨{ wUp with ports := [(15, { Port.init with dec := [(0, some ⟨2 ^ 28, 2 ^ 28, 0, 1, 256, true, false⟩)] })] }, 15, 0x10012345, 9, 0x12345, by decide +kernel⟩
theorem witness_AttestationAndLinkKeys_1 : ∃ (s : State) (p : Nat), p < 16 ∧ linkUp s p = true :=
  ⟨wUp, 15, by decide +kernel⟩
theorem witness_AttestationAndLinkKeys_2 : ∃ (s : State) (tr : Nat), tr ≤ 17 ∧ s.mgmt.run = true :=
  ⟨{ State.reset with mgmt := { State.reset.mgmt with run := true, sessions := [] } }, 17, by decide +kernel⟩
theorem witness_AttestationAndLinkKeys_3 : ∃ (s : State) (tr : Nat), tr ≤ 17 ∧ s.mgmt.run = true ∧ s.mgmt.sessions.length < 8 :=
  ⟨{ State.reset with mgmt := { State.reset.mgmt with run := true, sessions := [0, 1, 3] } }, 17, by decide +kernel⟩
theorem witness_AttestationAndLinkKeys_4 : ∃ (s : State) (tr : Nat), tr ≤ 17 ∧ s.mgmt.run = true ∧ 8 ≤ s.mgmt.sessions.length :=
  ⟨{ State.reset with mgmt := { State.reset.mgmt with run := true, sessions := [0, 1, 2, 3, 4, 5, 6, 7] } }, 17, by decide +kernel⟩
theorem witness_AttestationAndLinkKeys_5 : ∃ (s : State) (tr : Nat) (arg : Nat), tr ≤ 17 ∧ s.mgmt.run = true ∧ arg ∈ s.mgmt.sessions :=
  ⟨{ State.reset with mgmt := { State.reset.mgmt with run := true, sessions := [0, 4] } }, 17, 4, by decide +kernel⟩
theorem witness_AttestationAndLinkKeys_6 : ∃ (s : State) (p : Nat) (session : Nat), linkUp s p = true ∧ s.mgmt.run = true ∧ session ∈ s.mgmt.sessions :=
  ⟨{ wUp with mgmt := { wUp.mgmt with run := true, sessions := [5] } }, 15, 5, by decide +kernel⟩
theorem witness_IntegerInstructions_1 : ∃ (s : State) (b : Nat) (rd : Nat) (rs1 : Nat) (rs2 : Nat) (imm : Nat), let a := fun func r2 => 1 * 2 ^ 26 + rd * 2 ^ 21 + rs1 * 2 ^ 16 + r2 * 2 ^ 11 + func; bobReady s b (a 0x000 rs2) ∧ rd < 32 ∧ rs1 < 32 ∧ rs2 < 32 ∧ imm < 2 ^ 16 :=
  ⟨{ State.reset with bobs := [(63, { Bob.init with run := 1, words := 10, pc := 5, text := [(5, 69275648)], g := [(1, 5), (2, 3)] })] }, 63, 1, 1, 2, 0, by dsimp only; exact ⟨ready_of (by decide +kernel), by decide +kernel⟩⟩
theorem witness_IntegerInstructions_2 : ∃ (s : State) (b : Nat) (rd : Nat) (rs1 : Nat) (rs2 : Nat) (imm : Nat), let a := fun func r2 => 1 * 2 ^ 26 + rd * 2 ^ 21 + rs1 * 2 ^ 16 + r2 * 2 ^ 11 + func; bobReady s b (a 0x001 rs2) ∧ rd < 32 ∧ rs1 < 32 ∧ rs2 < 32 ∧ imm < 2 ^ 16 :=
  ⟨{ State.reset with bobs := [(63, { Bob.init with run := 1, words := 10, pc := 5, text := [(5, 69275649)], g := [(1, 5), (2, 3)] })] }, 63, 1, 1, 2, 0, by dsimp only; exact ⟨ready_of (by decide +kernel), by decide +kernel⟩⟩
theorem witness_IntegerInstructions_3 : ∃ (s : State) (b : Nat) (rd : Nat) (rs1 : Nat) (rs2 : Nat) (imm : Nat), let a := fun func r2 => 1 * 2 ^ 26 + rd * 2 ^ 21 + rs1 * 2 ^ 16 + r2 * 2 ^ 11 + func; bobReady s b (a 0x002 rs2) ∧ rd < 32 ∧ rs1 < 32 ∧ rs2 < 32 ∧ imm < 2 ^ 16 :=
  ⟨{ State.reset with bobs := [(63, { Bob.init with run := 1, words := 10, pc := 5, text := [(5, 69275650)], g := [(1, 5), (2, 3)] })] }, 63, 1, 1, 2, 0, by dsimp only; exact ⟨ready_of (by decide +kernel), by decide +kernel⟩⟩
theorem witness_IntegerInstructions_4 : ∃ (s : State) (b : Nat) (rd : Nat) (rs1 : Nat) (rs2 : Nat) (imm : Nat), let a := fun func r2 => 1 * 2 ^ 26 + rd * 2 ^ 21 + rs1 * 2 ^ 16 + r2 * 2 ^ 11 + func; bobReady s b (a 0x003 rs2) ∧ rd < 32 ∧ rs1 < 32 ∧ rs2 < 32 ∧ imm < 2 ^ 16 :=
  ⟨{ State.reset with bobs := [(63, { Bob.init with run := 1, words := 10, pc := 5, text := [(5, 69275651)], g := [(1, 5), (2, 3)] })] }, 63, 1, 1, 2, 0, by dsimp only; exact ⟨ready_of (by decide +kernel), by decide +kernel⟩⟩
theorem witness_IntegerInstructions_5 : ∃ (s : State) (b : Nat) (rd : Nat) (rs1 : Nat) (rs2 : Nat) (imm : Nat), let a := fun func r2 => 1 * 2 ^ 26 + rd * 2 ^ 21 + rs1 * 2 ^ 16 + r2 * 2 ^ 11 + func; bobReady s b (a 0x004 rs2) ∧ rd < 32 ∧ rs1 < 32 ∧ rs2 < 32 ∧ imm < 2 ^ 16 :=
  ⟨{ State.reset with bobs := [(63, { Bob.init with run := 1, words := 10, pc := 5, text := [(5, 69275652)], g := [(1, 5), (2, 3)] })] }, 63, 1, 1, 2, 0, by dsimp only; exact ⟨ready_of (by decide +kernel), by decide +kernel⟩⟩
theorem witness_IntegerInstructions_6 : ∃ (s : State) (b : Nat) (rd : Nat) (rs1 : Nat) (rs2 : Nat) (imm : Nat), let a := fun func r2 => 1 * 2 ^ 26 + rd * 2 ^ 21 + rs1 * 2 ^ 16 + r2 * 2 ^ 11 + func; bobReady s b (a 0x005 rs2) ∧ rd < 32 ∧ rs1 < 32 ∧ rs2 < 32 ∧ imm < 2 ^ 16 :=
  ⟨{ State.reset with bobs := [(63, { Bob.init with run := 1, words := 10, pc := 5, text := [(5, 69275653)], g := [(1, 5), (2, 3)] })] }, 63, 1, 1, 2, 0, by dsimp only; exact ⟨ready_of (by decide +kernel), by decide +kernel⟩⟩
theorem witness_IntegerInstructions_7 : ∃ (s : State) (b : Nat) (rd : Nat) (rs1 : Nat) (rs2 : Nat) (imm : Nat), let a := fun func r2 => 1 * 2 ^ 26 + rd * 2 ^ 21 + rs1 * 2 ^ 16 + r2 * 2 ^ 11 + func; bobReady s b (a 0x006 rs2) ∧ rd < 32 ∧ rs1 < 32 ∧ rs2 < 32 ∧ imm < 2 ^ 16 :=
  ⟨{ State.reset with bobs := [(63, { Bob.init with run := 1, words := 10, pc := 5, text := [(5, 69275654)], g := [(1, 5), (2, 3)] })] }, 63, 1, 1, 2, 0, by dsimp only; exact ⟨ready_of (by decide +kernel), by decide +kernel⟩⟩
theorem witness_IntegerInstructions_8 : ∃ (s : State) (b : Nat) (rd : Nat) (rs1 : Nat) (rs2 : Nat) (imm : Nat), let a := fun func r2 => 1 * 2 ^ 26 + rd * 2 ^ 21 + rs1 * 2 ^ 16 + r2 * 2 ^ 11 + func; bobReady s b (a 0x007 rs2) ∧ rd < 32 ∧ rs1 < 32 ∧ rs2 < 32 ∧ imm < 2 ^ 16 :=
  ⟨{ State.reset with bobs := [(63, { Bob.init with run := 1, words := 10, pc := 5, text := [(5, 69275655)], g := [(1, 5), (2, 3)] })] }, 63, 1, 1, 2, 0, by dsimp only; exact ⟨ready_of (by decide +kernel), by decide +kernel⟩⟩
theorem witness_IntegerInstructions_9 : ∃ (s : State) (b : Nat) (rd : Nat) (rs1 : Nat) (rs2 : Nat) (imm : Nat), let a := fun func r2 => 1 * 2 ^ 26 + rd * 2 ^ 21 + rs1 * 2 ^ 16 + r2 * 2 ^ 11 + func; bobReady s b (a 0x008 rs2) ∧ rd < 32 ∧ rs1 < 32 ∧ rs2 < 32 ∧ imm < 2 ^ 16 :=
  ⟨{ State.reset with bobs := [(63, { Bob.init with run := 1, words := 10, pc := 5, text := [(5, 69275656)], g := [(1, 5), (2, 3)] })] }, 63, 1, 1, 2, 0, by dsimp only; exact ⟨ready_of (by decide +kernel), by decide +kernel⟩⟩
theorem witness_IntegerInstructions_10 : ∃ (s : State) (b : Nat) (rd : Nat) (rs1 : Nat) (rs2 : Nat) (imm : Nat), let a := fun func r2 => 1 * 2 ^ 26 + rd * 2 ^ 21 + rs1 * 2 ^ 16 + r2 * 2 ^ 11 + func; bobReady s b (a 0x009 rs2) ∧ rd < 32 ∧ rs1 < 32 ∧ rs2 < 32 ∧ imm < 2 ^ 16 :=
  ⟨{ State.reset with bobs := [(63, { Bob.init with run := 1, words := 10, pc := 5, text := [(5, 69275657)], g := [(1, 5), (2, 3)] })] }, 63, 1, 1, 2, 0, by dsimp only; exact ⟨ready_of (by decide +kernel), by decide +kernel⟩⟩
theorem witness_IntegerInstructions_11 : ∃ (s : State) (b : Nat) (rd : Nat) (rs1 : Nat) (rs2 : Nat) (imm : Nat), let a := fun func r2 => 1 * 2 ^ 26 + rd * 2 ^ 21 + rs1 * 2 ^ 16 + r2 * 2 ^ 11 + func; bobReady s b (a 0x00A rs2) ∧ rd < 32 ∧ rs1 < 32 ∧ rs2 < 32 ∧ imm < 2 ^ 16 :=
  ⟨{ State.reset with bobs := [(63, { Bob.init with run := 1, words := 10, pc := 5, text := [(5, 69275658)], g := [(1, 5), (2, 3)] })] }, 63, 1, 1, 2, 0, by dsimp only; exact ⟨ready_of (by decide +kernel), by decide +kernel⟩⟩
theorem witness_IntegerInstructions_12 : ∃ (s : State) (b : Nat) (rd : Nat) (rs1 : Nat) (rs2 : Nat) (imm : Nat), let a := fun func r2 => 1 * 2 ^ 26 + rd * 2 ^ 21 + rs1 * 2 ^ 16 + r2 * 2 ^ 11 + func; bobReady s b (a 0x00B rs2) ∧ rd < 32 ∧ rs1 < 32 ∧ rs2 < 32 ∧ imm < 2 ^ 16 :=
  ⟨{ State.reset with bobs := [(63, { Bob.init with run := 1, words := 10, pc := 5, text := [(5, 69275659)], g := [(1, 5), (2, 3)] })] }, 63, 1, 1, 2, 0, by dsimp only; exact ⟨ready_of (by decide +kernel), by decide +kernel⟩⟩
theorem witness_IntegerInstructions_13 : ∃ (s : State) (b : Nat) (rd : Nat) (rs1 : Nat) (rs2 : Nat) (imm : Nat), let a := fun func r2 => 1 * 2 ^ 26 + rd * 2 ^ 21 + rs1 * 2 ^ 16 + r2 * 2 ^ 11 + func; bobReady s b (a 0x010 rs2) ∧ rd < 32 ∧ rs1 < 32 ∧ rs2 < 32 ∧ imm < 2 ^ 16 :=
  ⟨{ State.reset with bobs := [(63, { Bob.init with run := 1, words := 10, pc := 5, text := [(5, 69275664)], g := [(1, 5), (2, 3)] })] }, 63, 1, 1, 2, 0, by dsimp only; exact ⟨ready_of (by decide +kernel), by decide +kernel⟩⟩
theorem witness_IntegerInstructions_14 : ∃ (s : State) (b : Nat) (rd : Nat) (rs1 : Nat) (rs2 : Nat) (imm : Nat), let a := fun func r2 => 1 * 2 ^ 26 + rd * 2 ^ 21 + rs1 * 2 ^ 16 + r2 * 2 ^ 11 + func; bobReady s b (a 0x011 rs2) ∧ rd < 32 ∧ rs1 < 32 ∧ rs2 < 32 ∧ imm < 2 ^ 16 :=
  ⟨{ State.reset with bobs := [(63, { Bob.init with run := 1, words := 10, pc := 5, text := [(5, 69275665)], g := [(1, 5), (2, 3)] })] }, 63, 1, 1, 2, 0, by dsimp only; exact ⟨ready_of (by decide +kernel), by decide +kernel⟩⟩
theorem witness_IntegerInstructions_15 : ∃ (s : State) (b : Nat) (rd : Nat) (rs1 : Nat) (rs2 : Nat) (imm : Nat), let a := fun func r2 => 1 * 2 ^ 26 + rd * 2 ^ 21 + rs1 * 2 ^ 16 + r2 * 2 ^ 11 + func; bobReady s b (a 0x012 rs2) ∧ rd < 32 ∧ rs1 < 32 ∧ rs2 < 32 ∧ imm < 2 ^ 16 :=
  ⟨{ State.reset with bobs := [(63, { Bob.init with run := 1, words := 10, pc := 5, text := [(5, 69275666)], g := [(1, 5), (2, 3)] })] }, 63, 1, 1, 2, 0, by dsimp only; exact ⟨ready_of (by decide +kernel), by decide +kernel⟩⟩
theorem witness_IntegerInstructions_16 : ∃ (s : State) (b : Nat) (rd : Nat) (rs1 : Nat) (rs2 : Nat) (imm : Nat), let a := fun func r2 => 1 * 2 ^ 26 + rd * 2 ^ 21 + rs1 * 2 ^ 16 + r2 * 2 ^ 11 + func; bobReady s b (a 0x013 rs2) ∧ rd < 32 ∧ rs1 < 32 ∧ rs2 < 32 ∧ imm < 2 ^ 16 :=
  ⟨{ State.reset with bobs := [(63, { Bob.init with run := 1, words := 10, pc := 5, text := [(5, 69275667)], g := [(1, 5), (2, 3)] })] }, 63, 1, 1, 2, 0, by dsimp only; exact ⟨ready_of (by decide +kernel), by decide +kernel⟩⟩
theorem witness_IntegerInstructions_17 : ∃ (s : State) (b : Nat) (rd : Nat) (rs1 : Nat) (rs2 : Nat) (imm : Nat), let a := fun func r2 => 1 * 2 ^ 26 + rd * 2 ^ 21 + rs1 * 2 ^ 16 + r2 * 2 ^ 11 + func; bobReady s b (a 0x014 rs2) ∧ rd < 32 ∧ rs1 < 32 ∧ rs2 < 32 ∧ imm < 2 ^ 16 :=
  ⟨{ State.reset with bobs := [(63, { Bob.init with run := 1, words := 10, pc := 5, text := [(5, 69275668)], g := [(1, 5), (2, 3)] })] }, 63, 1, 1, 2, 0, by dsimp only; exact ⟨ready_of (by decide +kernel), by decide +kernel⟩⟩
theorem witness_IntegerInstructions_18 : ∃ (s : State) (b : Nat) (rd : Nat) (rs1 : Nat) (rs2 : Nat) (imm : Nat), let a := fun func r2 => 1 * 2 ^ 26 + rd * 2 ^ 21 + rs1 * 2 ^ 16 + r2 * 2 ^ 11 + func; bobReady s b (a 0x015 rs2) ∧ rd < 32 ∧ rs1 < 32 ∧ rs2 < 32 ∧ imm < 2 ^ 16 :=
  ⟨{ State.reset with bobs := [(63, { Bob.init with run := 1, words := 10, pc := 5, text := [(5, 69275669)], g := [(1, 5), (2, 3)] })] }, 63, 1, 1, 2, 0, by dsimp only; exact ⟨ready_of (by decide +kernel), by decide +kernel⟩⟩
theorem witness_IntegerInstructions_19 : ∃ (s : State) (b : Nat) (rd : Nat) (rs1 : Nat) (rs2 : Nat) (imm : Nat), let x := (s.bob b).gr rs1; let y := (s.bob b).gr rs2; let a := fun func r2 => 1 * 2 ^ 26 + rd * 2 ^ 21 + rs1 * 2 ^ 16 + r2 * 2 ^ 11 + func; bobReady s b (a 0x014 rs2) ∧ rd < 32 ∧ rs1 < 32 ∧ rs2 < 32 ∧ imm < 2 ^ 16 ∧ x = BitVec.intMin 64 ∧ y = BitVec.allOnes 64 :=
  ⟨{ State.reset with bobs := [(63, { Bob.init with run := 1, words := 10, pc := 5, text := [(5, 73469972)], g := [(1, 9223372036854775808), (2, 18446744073709551615)] })] }, 63, 3, 1, 2, 0, by dsimp only; exact ⟨ready_of (by decide +kernel), by decide +kernel⟩⟩
theorem witness_IntegerInstructions_20 : ∃ (s : State) (b : Nat) (rd : Nat) (rs1 : Nat) (rs2 : Nat) (imm : Nat), let a := fun func r2 => 1 * 2 ^ 26 + rd * 2 ^ 21 + rs1 * 2 ^ 16 + r2 * 2 ^ 11 + func; bobReady s b (a 0x022 0) ∧ rd < 32 ∧ rs1 < 32 ∧ rs2 < 32 ∧ imm < 2 ^ 16 :=
  ⟨{ State.reset with bobs := [(63, { Bob.init with run := 1, words := 10, pc := 5, text := [(5, 73465890)], g := [(1, 1), (2, 1)] })] }, 63, 3, 1, 2, 0, by dsimp only; exact ⟨ready_of (by decide +kernel), by decide +kernel⟩⟩
theorem witness_IntegerInstructions_21 : ∃ (s : State) (b : Nat) (rd : Nat) (rs1 : Nat) (rs2 : Nat) (imm : Nat), let i := fun op r1 v => op * 2 ^ 26 + rd * 2 ^ 21 + r1 * 2 ^ 16 + v; bobReady s b (i 0x08 rs1 imm) ∧ rd < 32 ∧ rs1 < 32 ∧ rs2 < 32 ∧ imm < 2 ^ 16 :=
  ⟨{ State.reset with bobs := [(63, { Bob.init with run := 1, words := 10, pc := 5, text := [(5, 539066368)], g := [(1, 5), (2, 1)] })] }, 63, 1, 1, 2, 32768, by dsimp only; exact ⟨ready_of (by decide +kernel), by decide +kernel⟩⟩
theorem witness_IntegerInstructions_22 : ∃ (s : State) (b : Nat) (rd : Nat) (rs1 : Nat) (rs2 : Nat) (imm : Nat), let i := fun op r1 v => op * 2 ^ 26 + rd * 2 ^ 21 + r1 * 2 ^ 16 + v; bobReady s b (i 0x09 rs1 imm) ∧ rd < 32 ∧ rs1 < 32 ∧ rs2 < 32 ∧ imm < 2 ^ 16 :=
  ⟨{ State.reset with bobs := [(63, { Bob.init with run := 1, words := 10, pc := 5, text := [(5, 606175232)], g := [(1, 5), (2, 1)] })] }, 63, 1, 1, 2, 32768, by dsimp only; exact ⟨ready_of (by decide +kernel), by decide +kernel⟩⟩
theorem witness_IntegerInstructions_23 : ∃ (s : State) (b : Nat) (rd : Nat) (rs1 : Nat) (rs2 : Nat) (imm : Nat), let i := fun op r1 v => op * 2 ^ 26 + rd * 2 ^ 21 + r1 * 2 ^ 16 + v; bobReady s b (i 0x0A rs1 imm) ∧ rd < 32 ∧ rs1 < 32 ∧ rs2 < 32 ∧ imm < 2 ^ 16 :=
  ⟨{ State.reset with bobs := [(63, { Bob.init with run := 1, words := 10, pc := 5, text := [(5, 673284096)], g := [(1, 5), (2, 1)] })] }, 63, 1, 1, 2, 32768, by dsimp only; exact ⟨ready_of (by decide +kernel), by decide +kernel⟩⟩
theorem witness_IntegerInstructions_24 : ∃ (s : State) (b : Nat) (rd : Nat) (rs1 : Nat) (rs2 : Nat) (imm : Nat), let i := fun op r1 v => op * 2 ^ 26 + rd * 2 ^ 21 + r1 * 2 ^ 16 + v; bobReady s b (i 0x0B rs1 imm) ∧ rd < 32 ∧ rs1 < 32 ∧ rs2 < 32 ∧ imm < 2 ^ 16 :=
  ⟨{ State.reset with bobs := [(63, { Bob.init with run := 1, words := 10, pc := 5, text := [(5, 740392960)], g := [(1, 5), (2, 1)] })] }, 63, 1, 1, 2, 32768, by dsimp only; exact ⟨ready_of (by decide +kernel), by decide +kernel⟩⟩
theorem witness_IntegerInstructions_25 : ∃ (s : State) (b : Nat) (rd : Nat) (rs1 : Nat) (rs2 : Nat) (imm : Nat), let i := fun op r1 v => op * 2 ^ 26 + rd * 2 ^ 21 + r1 * 2 ^ 16 + v; bobReady s b (i 0x0C rs1 imm) ∧ rd < 32 ∧ rs1 < 32 ∧ rs2 < 32 ∧ imm < 2 ^ 16 :=
  ⟨{ State.reset with bobs := [(63, { Bob.init with run := 1, words := 10, pc := 5, text := [(5, 807501824)], g := [(1, 5), (2, 1)] })] }, 63, 1, 1, 2, 32768, by dsimp only; exact ⟨ready_of (by decide +kernel), by decide +kernel⟩⟩
theorem witness_IntegerInstructions_26 : ∃ (s : State) (b : Nat) (rd : Nat) (rs1 : Nat) (rs2 : Nat) (imm : Nat), let i := fun op r1 v => op * 2 ^ 26 + rd * 2 ^ 21 + r1 * 2 ^ 16 + v; bobReady s b (i 0x0D rs1 imm) ∧ rd < 32 ∧ rs1 < 32 ∧ rs2 < 32 ∧ imm < 2 ^ 16 :=
  ⟨{ State.reset with bobs := [(63, { Bob.init with run := 1, words := 10, pc := 5, text := [(5, 874610688)], g := [(1, 5), (2, 1)] })] }, 63, 1, 1, 2, 32768, by dsimp only; exact ⟨ready_of (by decide +kernel), by decide +kernel⟩⟩
theorem witness_IntegerInstructions_27 : ∃ (s : State) (b : Nat) (rd : Nat) (rs1 : Nat) (rs2 : Nat) (imm : Nat), ∃ k, let i := fun op r1 v => op * 2 ^ 26 + rd * 2 ^ 21 + r1 * 2 ^ 16 + v; bobReady s b (i 0x0E rs1 k) ∧ rd < 32 ∧ rs1 < 32 ∧ rs2 < 32 ∧ imm < 2 ^ 16 ∧ k < 64 :=
  ⟨{ State.reset with bobs := [(63, { Bob.init with run := 1, words := 10, pc := 5, text := [(5, 945881151)], g := [(1, 9223372036854775813), (2, 1)] })] }, 63, 3, 1, 2, 0, 63, by dsimp only; exact ⟨ready_of (by decide +kernel), by decide +kernel⟩⟩
theorem witness_IntegerInstructions_28 : ∃ (s : State) (b : Nat) (rd : Nat) (rs1 : Nat) (rs2 : Nat) (imm : Nat), ∃ k, let i := fun op r1 v => op * 2 ^ 26 + rd * 2 ^ 21 + r1 * 2 ^ 16 + v; bobReady s b (i 0x0E rs1 (64 + k)) ∧ rd < 32 ∧ rs1 < 32 ∧ rs2 < 32 ∧ imm < 2 ^ 16 ∧ k < 64 :=
  ⟨{ State.reset with bobs := [(63, { Bob.init with run := 1, words := 10, pc := 5, text := [(5, 945881215)], g := [(1, 9223372036854775813), (2, 1)] })] }, 63, 3, 1, 2, 0, 63, by dsimp only; exact ⟨ready_of (by decide +kernel), by decide +kernel⟩⟩
theorem witness_IntegerInstructions_29 : ∃ (s : State) (b : Nat) (rd : Nat) (rs1 : Nat) (rs2 : Nat) (imm : Nat), ∃ k, let i := fun op r1 v => op * 2 ^ 26 + rd * 2 ^ 21 + r1 * 2 ^ 16 + v; bobReady s b (i 0x0E rs1 (128 + k)) ∧ rd < 32 ∧ rs1 < 32 ∧ rs2 < 32 ∧ imm < 2 ^ 16 ∧ k < 64 :=
  ⟨{ State.reset with bobs := [(63, { Bob.init with run := 1, words := 10, pc := 5, text := [(5, 945881279)], g := [(1, 9223372036854775813), (2, 1)] })] }, 63, 3, 1, 2, 0, 63, by dsimp only; exact ⟨ready_of (by decide +kernel), by decide +kernel⟩⟩
theorem witness_IntegerInstructions_30 : ∃ (s : State) (b : Nat) (rd : Nat) (rs1 : Nat) (rs2 : Nat) (imm : Nat), ∃ k, let i := fun op r1 v => op * 2 ^ 26 + rd * 2 ^ 21 + r1 * 2 ^ 16 + v; bobReady s b (i 0x0E rs1 (192 + k)) ∧ rd < 32 ∧ rs1 < 32 ∧ rs2 < 32 ∧ imm < 2 ^ 16 ∧ k < 64 :=
  ⟨{ State.reset with bobs := [(63, { Bob.init with run := 1, words := 10, pc := 5, text := [(5, 945881343)], g := [(1, 9223372036854775813), (2, 1)] })] }, 63, 3, 1, 2, 0, 63, by dsimp only; exact ⟨ready_of (by decide +kernel), by decide +kernel⟩⟩
theorem witness_IntegerInstructions_31 : ∃ (s : State) (b : Nat) (rd : Nat) (rs1 : Nat) (rs2 : Nat) (imm : Nat), ∃ k, let i := fun op r1 v => op * 2 ^ 26 + rd * 2 ^ 21 + r1 * 2 ^ 16 + v; bobReady s b (i 0x0F k imm) ∧ rd < 32 ∧ rs1 < 32 ∧ rs2 < 32 ∧ imm < 2 ^ 16 ∧ k < 4 :=
  ⟨{ State.reset with bobs := [(63, { Bob.init with run := 1, words := 10, pc := 5, text := [(5, 1008959489)], g := [(1, 18446744073709551615), (2, 1)] })] }, 63, 1, 1, 2, 0x8001, 3, by dsimp only; exact ⟨ready_of (by decide +kernel), by decide +kernel⟩⟩
theorem witness_IntegerInstructions_32 : ∃ (rd : Nat) (rs1 : Nat) (rs2 : Nat) (imm : Nat), rd < 32 ∧ rs1 < 32 ∧ rs2 < 32 ∧ imm < 2 ^ 16 :=
  ⟨1, 1, 2, 0, by decide +kernel⟩
theorem witness_IntegerInstructions_33 : ∃ (rd : Nat) (rs1 : Nat) (rs2 : Nat) (imm : Nat), rd < 32 ∧ rs1 < 32 ∧ rs2 < 32 ∧ imm < 2 ^ 16 :=
  ⟨1, 1, 2, 0, by decide +kernel⟩
theorem witness_IntegerInstructions_34 : ∃ (rd : Nat) (rs1 : Nat) (rs2 : Nat) (imm : Nat), rd < 32 ∧ rs1 < 32 ∧ rs2 < 32 ∧ imm < 2 ^ 16 :=
  ⟨1, 1, 2, 0, by decide +kernel⟩
theorem witness_IntegerInstructions_35 : ∃ (rd : Nat) (rs1 : Nat) (rs2 : Nat) (imm : Nat), rd < 32 ∧ rs1 < 32 ∧ rs2 < 32 ∧ imm < 2 ^ 16 :=
  ⟨1, 1, 2, 0, by decide +kernel⟩
theorem witness_IntegerInstructions_36 : ∃ (rd : Nat) (rs1 : Nat) (rs2 : Nat) (imm : Nat), rd < 32 ∧ rs1 < 32 ∧ rs2 < 32 ∧ imm < 2 ^ 16 :=
  ⟨1, 1, 2, 0, by decide +kernel⟩
theorem witness_IntegerInstructions_37 : ∃ (rd : Nat) (rs1 : Nat) (rs2 : Nat) (imm : Nat), rd < 32 ∧ rs1 < 32 ∧ rs2 < 32 ∧ imm < 2 ^ 16 :=
  ⟨1, 1, 2, 0, by decide +kernel⟩
theorem witness_IntegerInstructions_38 : ∃ (rd : Nat) (rs1 : Nat) (rs2 : Nat) (imm : Nat), rd < 32 ∧ rs1 < 32 ∧ rs2 < 32 ∧ imm < 2 ^ 16 :=
  ⟨1, 1, 2, 0, by decide +kernel⟩
theorem witness_IntegerInstructions_39 : ∃ (rd : Nat) (rs1 : Nat) (rs2 : Nat) (imm : Nat), rd < 32 ∧ rs1 < 32 ∧ rs2 < 32 ∧ imm < 2 ^ 16 :=
  ⟨1, 1, 2, 0, by decide +kernel⟩
theorem witness_ControlFlowAndProgramEnds_1 : ∃ (s : State) (b : Nat) (rd : Nat) (rs1 : Nat) (rs2 : Nat) (imm : Nat), let u := s.bob b; let x := u.gr rs1; let y := u.gr rs2; let off := (BitVec.ofNat 16 imm).toInt; let d := fun op => op * 2 ^ 26 + rs1 * 2 ^ 21 + rs2 * 2 ^ 16 + imm; let inText := fun (k : Int) => 0 ≤ k ∧ k < (u.words : Int); bobReady s b (d 0x18) ∧ b < 64 ∧ rd < 32 ∧ rs1 < 32 ∧ rs2 < 32 ∧ imm < 2 ^ 16 ∧ (x = y) ∧ inText (u.pc + off) :=
  ⟨{ State.reset with bobs := [(63, { Bob.init with run := 1, words := 10, pc := 5, text := [(5, 1612840964)], g := [(1, 5), (2, 5)] })] }, 63, 3, 1, 2, 4, by dsimp only; exact ⟨ready_of (by decide +kernel), by decide +kernel⟩⟩
theorem witness_ControlFlowAndProgramEnds_2 : ∃ (s : State) (b : Nat) (rd : Nat) (rs1 : Nat) (rs2 : Nat) (imm : Nat), let u := s.bob b; let x := u.gr rs1; let y := u.gr rs2; let off := (BitVec.ofNat 16 imm).toInt; let d := fun op => op * 2 ^ 26 + rs1 * 2 ^ 21 + rs2 * 2 ^ 16 + imm; let inText := fun (k : Int) => 0 ≤ k ∧ k < (u.words : Int); bobReady s b (d 0x18) ∧ b < 64 ∧ rd < 32 ∧ rs1 < 32 ∧ rs2 < 32 ∧ imm < 2 ^ 16 ∧ (x = y) ∧ ¬ inText (u.pc + off) :=
  ⟨{ State.reset with bobs := [(63, { Bob.init with run := 1, words := 10, pc := 5, text := [(5, 1612840965)], g := [(1, 5), (2, 5)] })] }, 63, 3, 1, 2, 5, by dsimp only; exact ⟨ready_of (by decide +kernel), by decide +kernel⟩⟩
theorem witness_ControlFlowAndProgramEnds_3 : ∃ (s : State) (b : Nat) (rd : Nat) (rs1 : Nat) (rs2 : Nat) (imm : Nat), let u := s.bob b; let x := u.gr rs1; let y := u.gr rs2; let d := fun op => op * 2 ^ 26 + rs1 * 2 ^ 21 + rs2 * 2 ^ 16 + imm; bobReady s b (d 0x18) ∧ b < 64 ∧ rd < 32 ∧ rs1 < 32 ∧ rs2 < 32 ∧ imm < 2 ^ 16 ∧ ¬ (x = y) :=
  ⟨{ State.reset with bobs := [(63, { Bob.init with run := 1, words := 10, pc := 5, text := [(5, 1612840964)], g := [(1, 5), (2, 18446744073709551615)] })] }, 63, 3, 1, 2, 4, by dsimp only; exact ⟨ready_of (by decide +kernel), by decide +kernel⟩⟩
theorem witness_ControlFlowAndProgramEnds_4 : ∃ (s : State) (b : Nat) (rd : Nat) (rs1 : Nat) (rs2 : Nat) (imm : Nat), let u := s.bob b; let x := u.gr rs1; let y := u.gr rs2; let d := fun op => op * 2 ^ 26 + rs1 * 2 ^ 21 + rs2 * 2 ^ 16 + imm; bobReady s b (d 0x19) ∧ b < 64 ∧ rd < 32 ∧ rs1 < 32 ∧ rs2 < 32 ∧ imm < 2 ^ 16 ∧ ¬ (x ≠ y) :=
  ⟨{ State.reset with bobs := [(63, { Bob.init with run := 1, words := 10, pc := 5, text := [(5, 1679949828)], g := [(1, 5), (2, 5)] })] }, 63, 3, 1, 2, 4, by dsimp only; exact ⟨ready_of (by decide +kernel), by decide +kernel⟩⟩
theorem witness_ControlFlowAndProgramEnds_5 : ∃ (s : State) (b : Nat) (rd : Nat) (rs1 : Nat) (rs2 : Nat) (imm : Nat), let u := s.bob b; let x := u.gr rs1; let y := u.gr rs2; let off := (BitVec.ofNat 16 imm).toInt; let d := fun op => op * 2 ^ 26 + rs1 * 2 ^ 21 + rs2 * 2 ^ 16 + imm; let inText := fun (k : Int) => 0 ≤ k ∧ k < (u.words : Int); bobReady s b (d 0x19) ∧ b < 64 ∧ rd < 32 ∧ rs1 < 32 ∧ rs2 < 32 ∧ imm < 2 ^ 16 ∧ (x ≠ y) ∧ inText (u.pc + off) :=
  ⟨{ State.reset with bobs := [(63, { Bob.init with run := 1, words := 10, pc := 5, text := [(5, 1679949828)], g := [(1, 5), (2, 18446744073709551615)] })] }, 63, 3, 1, 2, 4, by dsimp only; exact ⟨ready_of (by decide +kernel), by decide +kernel⟩⟩
theorem witness_ControlFlowAndProgramEnds_6 : ∃ (s : State) (b : Nat) (rd : Nat) (rs1 : Nat) (rs2 : Nat) (imm : Nat), let u := s.bob b; let x := u.gr rs1; let y := u.gr rs2; let off := (BitVec.ofNat 16 imm).toInt; let d := fun op => op * 2 ^ 26 + rs1 * 2 ^ 21 + rs2 * 2 ^ 16 + imm; let inText := fun (k : Int) => 0 ≤ k ∧ k < (u.words : Int); bobReady s b (d 0x19) ∧ b < 64 ∧ rd < 32 ∧ rs1 < 32 ∧ rs2 < 32 ∧ imm < 2 ^ 16 ∧ (x ≠ y) ∧ ¬ inText (u.pc + off) :=
  ⟨{ State.reset with bobs := [(63, { Bob.init with run := 1, words := 10, pc := 5, text := [(5, 1679949829)], g := [(1, 5), (2, 18446744073709551615)] })] }, 63, 3, 1, 2, 5, by dsimp only; exact ⟨ready_of (by decide +kernel), by decide +kernel⟩⟩
theorem witness_ControlFlowAndProgramEnds_7 : ∃ (s : State) (b : Nat) (rd : Nat) (rs1 : Nat) (rs2 : Nat) (imm : Nat), let u := s.bob b; let x := u.gr rs1; let y := u.gr rs2; let d := fun op => op * 2 ^ 26 + rs1 * 2 ^ 21 + rs2 * 2 ^ 16 + imm; bobReady s b (d 0x1A) ∧ b < 64 ∧ rd < 32 ∧ rs1 < 32 ∧ rs2 < 32 ∧ imm < 2 ^ 16 ∧ ¬ (x.toInt < y.toInt) :=
  ⟨{ State.reset with bobs := [(63, { Bob.init with run := 1, words := 10, pc := 5, text := [(5, 1747058692)], g := [(1, 5), (2, 5)] })] }, 63, 3, 1, 2, 4, by dsimp only; exact ⟨ready_of (by decide +kernel), by decide +kernel⟩⟩
theorem witness_ControlFlowAndProgramEnds_8 : ∃ (s : State) (b : Nat) (rd : Nat) (rs1 : Nat) (rs2 : Nat) (imm : Nat), let u := s.bob b; let x := u.gr rs1; let y := u.gr rs2; let off := (BitVec.ofNat 16 imm).toInt; let d := fun op => op * 2 ^ 26 + rs1 * 2 ^ 21 + rs2 * 2 ^ 16 + imm; let inText := fun (k : Int) => 0 ≤ k ∧ k < (u.words : Int); bobReady s b (d 0x1A) ∧ b < 64 ∧ rd < 32 ∧ rs1 < 32 ∧ rs2 < 32 ∧ imm < 2 ^ 16 ∧ (x.toInt < y.toInt) ∧ inText (u.pc + off) :=
  ⟨{ State.reset with bobs := [(63, { Bob.init with run := 1, words := 10, pc := 5, text := [(5, 1747058692)], g := [(1, 18446744073709551615), (2, 5)] })] }, 63, 3, 1, 2, 4, by dsimp only; exact ⟨ready_of (by decide +kernel), by decide +kernel⟩⟩
theorem witness_ControlFlowAndProgramEnds_9 : ∃ (s : State) (b : Nat) (rd : Nat) (rs1 : Nat) (rs2 : Nat) (imm : Nat), let u := s.bob b; let x := u.gr rs1; let y := u.gr rs2; let off := (BitVec.ofNat 16 imm).toInt; let d := fun op => op * 2 ^ 26 + rs1 * 2 ^ 21 + rs2 * 2 ^ 16 + imm; let inText := fun (k : Int) => 0 ≤ k ∧ k < (u.words : Int); bobReady s b (d 0x1A) ∧ b < 64 ∧ rd < 32 ∧ rs1 < 32 ∧ rs2 < 32 ∧ imm < 2 ^ 16 ∧ (x.toInt < y.toInt) ∧ ¬ inText (u.pc + off) :=
  ⟨{ State.reset with bobs := [(63, { Bob.init with run := 1, words := 10, pc := 5, text := [(5, 1747058693)], g := [(1, 18446744073709551615), (2, 5)] })] }, 63, 3, 1, 2, 5, by dsimp only; exact ⟨ready_of (by decide +kernel), by decide +kernel⟩⟩
theorem witness_ControlFlowAndProgramEnds_10 : ∃ (s : State) (b : Nat) (rd : Nat) (rs1 : Nat) (rs2 : Nat) (imm : Nat), let u := s.bob b; let x := u.gr rs1; let y := u.gr rs2; let off := (BitVec.ofNat 16 imm).toInt; let d := fun op => op * 2 ^ 26 + rs1 * 2 ^ 21 + rs2 * 2 ^ 16 + imm; let inText := fun (k : Int) => 0 ≤ k ∧ k < (u.words : Int); bobReady s b (d 0x1B) ∧ b < 64 ∧ rd < 32 ∧ rs1 < 32 ∧ rs2 < 32 ∧ imm < 2 ^ 16 ∧ (y.toInt ≤ x.toInt) ∧ inText (u.pc + off) :=
  ⟨{ State.reset with bobs := [(63, { Bob.init with run := 1, words := 10, pc := 5, text := [(5, 1814167556)], g := [(1, 5), (2, 5)] })] }, 63, 3, 1, 2, 4, by dsimp only; exact ⟨ready_of (by decide +kernel), by decide +kernel⟩⟩
theorem witness_ControlFlowAndProgramEnds_11 : ∃ (s : State) (b : Nat) (rd : Nat) (rs1 : Nat) (rs2 : Nat) (imm : Nat), let u := s.bob b; let x := u.gr rs1; let y := u.gr rs2; let off := (BitVec.ofNat 16 imm).toInt; let d := fun op => op * 2 ^ 26 + rs1 * 2 ^ 21 + rs2 * 2 ^ 16 + imm; let inText := fun (k : Int) => 0 ≤ k ∧ k < (u.words : Int); bobReady s b (d 0x1B) ∧ b < 64 ∧ rd < 32 ∧ rs1 < 32 ∧ rs2 < 32 ∧ imm < 2 ^ 16 ∧ (y.toInt ≤ x.toInt) ∧ ¬ inText (u.pc + off) :=
  ⟨{ State.reset with bobs := [(63, { Bob.init with run := 1, words := 10, pc := 5, text := [(5, 1814167557)], g := [(1, 5), (2, 5)] })] }, 63, 3, 1, 2, 5, by dsimp only; exact ⟨ready_of (by decide +kernel), by decide +kernel⟩⟩
theorem witness_ControlFlowAndProgramEnds_12 : ∃ (s : State) (b : Nat) (rd : Nat) (rs1 : Nat) (rs2 : Nat) (imm : Nat), let u := s.bob b; let x := u.gr rs1; let y := u.gr rs2; let d := fun op => op * 2 ^ 26 + rs1 * 2 ^ 21 + rs2 * 2 ^ 16 + imm; bobReady s b (d 0x1B) ∧ b < 64 ∧ rd < 32 ∧ rs1 < 32 ∧ rs2 < 32 ∧ imm < 2 ^ 16 ∧ ¬ (y.toInt ≤ x.toInt) :=
  ⟨{ State.reset with bobs := [(63, { Bob.init with run := 1, words := 10, pc := 5, text := [(5, 1814167556)], g := [(1, 18446744073709551615), (2, 5)] })] }, 63, 3, 1, 2, 4, by dsimp only; exact ⟨ready_of (by decide +kernel), by decide +kernel⟩⟩
theorem witness_ControlFlowAndProgramEnds_13 : ∃ (s : State) (b : Nat) (rd : Nat) (rs1 : Nat) (rs2 : Nat) (imm : Nat), let u := s.bob b; let x := u.gr rs1; let y := u.gr rs2; let d := fun op => op * 2 ^ 26 + rs1 * 2 ^ 21 + rs2 * 2 ^ 16 + imm; bobReady s b (d 0x1C) ∧ b < 64 ∧ rd < 32 ∧ rs1 < 32 ∧ rs2 < 32 ∧ imm < 2 ^ 16 ∧ ¬ (x.toNat < y.toNat) :=
  ⟨{ State.reset with bobs := [(63, { Bob.init with run := 1, words := 10, pc := 5, text := [(5, 1881276420)], g := [(1, 5), (2, 5)] })] }, 63, 3, 1, 2, 4, by dsimp only; exact ⟨ready_of (by decide +kernel), by decide +kernel⟩⟩
theorem witness_ControlFlowAndProgramEnds_14 : ∃ (s : State) (b : Nat) (rd : Nat) (rs1 : Nat) (rs2 : Nat) (imm : Nat), let u := s.bob b; let x := u.gr rs1; let y := u.gr rs2; let off := (BitVec.ofNat 16 imm).toInt; let d := fun op => op * 2 ^ 26 + rs1 * 2 ^ 21 + rs2 * 2 ^ 16 + imm; let inText := fun (k : Int) => 0 ≤ k ∧ k < (u.words : Int); bobReady s b (d 0x1C) ∧ b < 64 ∧ rd < 32 ∧ rs1 < 32 ∧ rs2 < 32 ∧ imm < 2 ^ 16 ∧ (x.toNat < y.toNat) ∧ inText (u.pc + off) :=
  ⟨{ State.reset with bobs := [(63, { Bob.init with run := 1, words := 10, pc := 5, text := [(5, 1881276420)], g := [(1, 5), (2, 18446744073709551615)] })] }, 63, 3, 1, 2, 4, by dsimp only; exact ⟨ready_of (by decide +kernel), by decide +kernel⟩⟩
theorem witness_ControlFlowAndProgramEnds_15 : ∃ (s : State) (b : Nat) (rd : Nat) (rs1 : Nat) (rs2 : Nat) (imm : Nat), let u := s.bob b; let x := u.gr rs1; let y := u.gr rs2; let off := (BitVec.ofNat 16 imm).toInt; let d := fun op => op * 2 ^ 26 + rs1 * 2 ^ 21 + rs2 * 2 ^ 16 + imm; let inText := fun (k : Int) => 0 ≤ k ∧ k < (u.words : Int); bobReady s b (d 0x1C) ∧ b < 64 ∧ rd < 32 ∧ rs1 < 32 ∧ rs2 < 32 ∧ imm < 2 ^ 16 ∧ (x.toNat < y.toNat) ∧ ¬ inText (u.pc + off) :=
  ⟨{ State.reset with bobs := [(63, { Bob.init with run := 1, words := 10, pc := 5, text := [(5, 1881276421)], g := [(1, 5), (2, 18446744073709551615)] })] }, 63, 3, 1, 2, 5, by dsimp only; exact ⟨ready_of (by decide +kernel), by decide +kernel⟩⟩
theorem witness_ControlFlowAndProgramEnds_16 : ∃ (s : State) (b : Nat) (rd : Nat) (rs1 : Nat) (rs2 : Nat) (imm : Nat), let u := s.bob b; let x := u.gr rs1; let y := u.gr rs2; let off := (BitVec.ofNat 16 imm).toInt; let d := fun op => op * 2 ^ 26 + rs1 * 2 ^ 21 + rs2 * 2 ^ 16 + imm; let inText := fun (k : Int) => 0 ≤ k ∧ k < (u.words : Int); bobReady s b (d 0x1D) ∧ b < 64 ∧ rd < 32 ∧ rs1 < 32 ∧ rs2 < 32 ∧ imm < 2 ^ 16 ∧ (y.toNat ≤ x.toNat) ∧ inText (u.pc + off) :=
  ⟨{ State.reset with bobs := [(63, { Bob.init with run := 1, words := 10, pc := 5, text := [(5, 1948385284)], g := [(1, 5), (2, 5)] })] }, 63, 3, 1, 2, 4, by dsimp only; exact ⟨ready_of (by decide +kernel), by decide +kernel⟩⟩
theorem witness_ControlFlowAndProgramEnds_17 : ∃ (s : State) (b : Nat) (rd : Nat) (rs1 : Nat) (rs2 : Nat) (imm : Nat), let u := s.bob b; let x := u.gr rs1; let y := u.gr rs2; let off := (BitVec.ofNat 16 imm).toInt; let d := fun op => op * 2 ^ 26 + rs1 * 2 ^ 21 + rs2 * 2 ^ 16 + imm; let inText := fun (k : Int) => 0 ≤ k ∧ k < (u.words : Int); bobReady s b (d 0x1D) ∧ b < 64 ∧ rd < 32 ∧ rs1 < 32 ∧ rs2 < 32 ∧ imm < 2 ^ 16 ∧ (y.toNat ≤ x.toNat) ∧ ¬ inText (u.pc + off) :=
  ⟨{ State.reset with bobs := [(63, { Bob.init with run := 1, words := 10, pc := 5, text := [(5, 1948385285)], g := [(1, 5), (2, 5)] })] }, 63, 3, 1, 2, 5, by dsimp only; exact ⟨ready_of (by decide +kernel), by decide +kernel⟩⟩
theorem witness_ControlFlowAndProgramEnds_18 : ∃ (s : State) (b : Nat) (rd : Nat) (rs1 : Nat) (rs2 : Nat) (imm : Nat), let u := s.bob b; let x := u.gr rs1; let y := u.gr rs2; let d := fun op => op * 2 ^ 26 + rs1 * 2 ^ 21 + rs2 * 2 ^ 16 + imm; bobReady s b (d 0x1D) ∧ b < 64 ∧ rd < 32 ∧ rs1 < 32 ∧ rs2 < 32 ∧ imm < 2 ^ 16 ∧ ¬ (y.toNat ≤ x.toNat) :=
  ⟨{ State.reset with bobs := [(63, { Bob.init with run := 1, words := 10, pc := 5, text := [(5, 1948385284)], g := [(1, 5), (2, 18446744073709551615)] })] }, 63, 3, 1, 2, 4, by dsimp only; exact ⟨ready_of (by decide +kernel), by decide +kernel⟩⟩
theorem witness_ControlFlowAndProgramEnds_19 : ∃ (s : State) (b : Nat) (rd : Nat) (rs1 : Nat) (rs2 : Nat) (imm : Nat), let u := s.bob b; let off := (BitVec.ofNat 16 imm).toInt; let inText := fun (k : Int) => 0 ≤ k ∧ k < (u.words : Int); bobReady s b (0x1E * 2 ^ 26 + rd * 2 ^ 21 + imm) ∧ b < 64 ∧ rd < 32 ∧ rs1 < 32 ∧ rs2 < 32 ∧ imm < 2 ^ 16 ∧ inText (u.pc + off) :=
  ⟨{ State.reset with bobs := [(63, { Bob.init with run := 1, words := 10, pc := 5, text := [(5, 2019557380)] })] }, 63, 3, 1, 2, 4, by dsimp only; exact ⟨ready_of (by decide +kernel), by decide +kernel⟩⟩
theorem witness_ControlFlowAndProgramEnds_20 : ∃ (s : State) (b : Nat) (rd : Nat) (rs1 : Nat) (rs2 : Nat) (imm : Nat), let u := s.bob b; let off := (BitVec.ofNat 16 imm).toInt; let inText := fun (k : Int) => 0 ≤ k ∧ k < (u.words : Int); bobReady s b (0x1E * 2 ^ 26 + rd * 2 ^ 21 + imm) ∧ b < 64 ∧ rd < 32 ∧ rs1 < 32 ∧ rs2 < 32 ∧ imm < 2 ^ 16 ∧ ¬ inText (u.pc + off) :=
  ⟨{ State.reset with bobs := [(63, { Bob.init with run := 1, words := 10, pc := 5, text := [(5, 2019557381)] })] }, 63, 3, 1, 2, 5, by dsimp only; exact ⟨ready_of (by decide +kernel), by decide +kernel⟩⟩
theorem witness_ControlFlowAndProgramEnds_21 : ∃ (s : State) (b : Nat) (rd : Nat) (rs1 : Nat) (rs2 : Nat) (imm : Nat), let u := s.bob b; let x := u.gr rs1; let off := (BitVec.ofNat 16 imm).toInt; let inText := fun (k : Int) => 0 ≤ k ∧ k < (u.words : Int); bobReady s b (0x1F * 2 ^ 26 + rd * 2 ^ 21 + rs1 * 2 ^ 16 + imm) ∧ b < 64 ∧ rd < 32 ∧ rs1 < 32 ∧ rs2 < 32 ∧ imm < 2 ^ 16 ∧ inText (x.toInt + off) :=
  ⟨{ State.reset with bobs := [(63, { Bob.init with run := 1, words := 10, pc := 5, text := [(5, 2082537476)], g := [(1, 3)] })] }, 63, 1, 1, 2, 4, by dsimp only; exact ⟨ready_of (by decide +kernel), by decide +kernel⟩⟩
theorem witness_ControlFlowAndProgramEnds_22 : ∃ (s : State) (b : Nat) (rd : Nat) (rs1 : Nat) (rs2 : Nat) (imm : Nat), let u := s.bob b; let x := u.gr rs1; let off := (BitVec.ofNat 16 imm).toInt; let inText := fun (k : Int) => 0 ≤ k ∧ k < (u.words : Int); bobReady s b (0x1F * 2 ^ 26 + rd * 2 ^ 21 + rs1 * 2 ^ 16 + imm) ∧ b < 64 ∧ rd < 32 ∧ rs1 < 32 ∧ rs2 < 32 ∧ imm < 2 ^ 16 ∧ ¬ inText (x.toInt + off) :=
  ⟨{ State.reset with bobs := [(63, { Bob.init with run := 1, words := 10, pc := 5, text := [(5, 2082603007)], g := [(1, 0)] })] }, 63, 1, 1, 2, 65535, by dsimp only; exact ⟨ready_of (by decide +kernel), by decide +kernel⟩⟩
theorem witness_ControlFlowAndProgramEnds_23 : ∃ (s : State) (b : Nat) (rd : Nat) (rs1 : Nat) (rs2 : Nat) (imm : Nat), let u := s.bob b; noLaneWork s b ∧ b < 64 ∧ rd < 32 ∧ rs1 < 32 ∧ rs2 < 32 ∧ imm < 2 ^ 16 ∧ coreOpen s = true ∧ u.run = 1 ∧ u.opRd = none ∧ u.disc = none ∧ u.words = u.pc + 1 ∧ u.words ≤ 8192 ∧ tabGet (fun _ => 0) u.text u.pc = 0x08 * 2 ^ 26 + rd * 2 ^ 21 + rs1 * 2 ^ 16 + imm :=
  ⟨{ State.reset with bobs := [(63, { Bob.init with run := 1, words := 6, pc := 5, text := [(5, 539033605)], g := [(1, 9)] })] }, 63, 1, 1, 2, 5, by dsimp only; exact ⟨by unfold noLaneWork; decide +kernel, by decide +kernel⟩⟩
theorem witness_ControlFlowAndProgramEnds_24 : ∃ (s : State) (b : Nat) (rd : Nat) (rs1 : Nat) (rs2 : Nat) (imm : Nat), ∃ w, bobReady s b w ∧ b < 64 ∧ rd < 32 ∧ rs1 < 32 ∧ rs2 < 32 ∧ imm < 2 ^ 16 ∧ w < 2 ^ 32 ∧ (w = 0 ∨ w / 2 ^ 26 ∉ [1, 2, 3, 4, 8, 9, 10, 11, 12, 13, 14, 15, 16, 17, 18, 19, 20, 21, 24, 25, 26, 27, 28, 29, 30, 31, 32, 48, 49, 50, 51, 52, 53, 54, 56]) :=
  ⟨{ State.reset with bobs := [(63, { Bob.init with run := 1, words := 10, pc := 5, text := [(5, 0)] })] }, 63, 1, 1, 2, 5, 0, ⟨ready_of (by decide +kernel), by decide +kernel⟩⟩
theorem witness_ControlFlowAndProgramEnds_25 : ∃ (s : State) (b : Nat) (rd : Nat) (rs1 : Nat) (rs2 : Nat) (imm : Nat), let u := s.bob b; b < 64 ∧ rd < 32 ∧ rs1 < 32 ∧ rs2 < 32 ∧ imm < 2 ^ 16 ∧ u.run = 1 ∧ u.pc < 8192 ∧ getBits (u.cap.getD 0 0) 16 16 ≠ 0 :=
  ⟨{ State.reset with bobs := [(63, { Bob.init with run := 1, words := 10, pc := 5, text := [(5, 0)], cap := [65536] })] }, 63, 1, 1, 2, 5, by dsimp only; exact by decide +kernel⟩
theorem witness_ControlFlowAndProgramEnds_26 : ∃ (s : State) (b : Nat) (rd : Nat) (rs1 : Nat) (rs2 : Nat) (imm : Nat), let u := s.bob b; b < 64 ∧ rd < 32 ∧ rs1 < 32 ∧ rs2 < 32 ∧ imm < 2 ^ 16 ∧ (u.run = 1 ∨ u.run = 2) :=
  ⟨{ State.reset with bobs := [(63, { Bob.init with run := 1, words := 10, pc := 5, text := [(5, 0)], cap := [65536] })] }, 63, 1, 1, 2, 5, by dsimp only; exact by decide +kernel⟩
theorem witness_ControlFlowAndProgramEnds_27 : ∃ (s : State) (b : Nat) (rd : Nat) (rs1 : Nat) (rs2 : Nat) (imm : Nat), let u := s.bob b; noLaneWork s b ∧ b < 64 ∧ rd < 32 ∧ rs1 < 32 ∧ rs2 < 32 ∧ imm < 2 ^ 16 ∧ u.run = 2 ∧ s.devLevel ≠ 4 ∧ u.stores = [] ∧ u.jobs = [] ∧ u.opRd = none ∧ u.disc = none ∧ ((∀ c ∈ (s.spool u.q).cmds, c.n = u.n → c.recd ≠ 0)) ∧ s.fget (BOB_STAT b) F.BOB_STAT_STATE = 1 ∧ bobTestDue s b = false :=
  ⟨{ State.reset.fset (BOB_STAT 63) F.BOB_STAT_STATE 1 with bobs := [(63, { Bob.init with run := 2, words := 10, pc := 5, text := [(5, 0)] })] }, 63, 1, 1, 2, 5, by dsimp only; exact ⟨by unfold noLaneWork; decide +kernel, by decide +kernel⟩⟩
theorem witness_IntegerInstructions_40 : ∃ (s : State) (b : Nat) (rd : Nat) (rs1 : Nat) (rs2 : Nat) (imm : Nat), let x := (s.bob b).gr rs1; let y := (s.bob b).gr rs2; let a := fun func r2 => 1 * 2 ^ 26 + rd * 2 ^ 21 + rs1 * 2 ^ 16 + r2 * 2 ^ 11 + func; bobReady s b (a 0x015 rs2) ∧ rd < 32 ∧ rs1 < 32 ∧ rs2 < 32 ∧ imm < 2 ^ 16 ∧ x = BitVec.intMin 64 ∧ y = BitVec.allOnes 64 :=
  ⟨{ State.reset with bobs := [(63, { Bob.init with run := 1, words := 10, pc := 5, text := [(5, 73469973)], g := [(1, 9223372036854775808), (2, 18446744073709551615)] })] }, 63, 3, 1, 2, 0, by dsimp only; exact ⟨ready_of (by decide +kernel), by decide +kernel⟩⟩
theorem witness_LineRegistersAndScratchpad_1 : ∃ (s : State) (b : Nat) (rd : Nat) (rs1 : Nat) (rs2 : Nat) (rb : Nat) (imm : Nat), let u := s.bob b; let a := fun op func r1 r2 => op * 2 ^ 26 + rd * 2 ^ 21 + r1 * 2 ^ 16 + r2 * 2 ^ 11 + func; bobReady s b (a 2 0 rs1 0) ∧ rb < 32 ∧ imm < 2 ^ 13 ∧ rd < 8 ∧ rs1 < 8 ∧ rs2 < 8 ∧ u.loads = [] :=
  ⟨{ State.reset with bobs := [(63, { Bob.init with run := 1, words := 10, pc := 5, text := [(5, 140574720)], v := [(1, 0x1234567890abcdef11223344556677880000000000000000000000000000000000000000000000000000000000000000), (2, 0xff00ff00ff00ff00000000000000000000000000000000000000000000000000000000000000000000000000000000000000000000000000)] })] }, 63, 3, 1, 2, 9, 0, by dsimp only; exact ⟨ready_of (by decide +kernel), by decide +kernel⟩⟩
theorem witness_LineRegistersAndScratchpad_2 : ∃ (s : State) (b : Nat) (rd : Nat) (rs1 : Nat) (rs2 : Nat) (rb : Nat) (imm : Nat), let u := s.bob b; let a := fun op func r1 r2 => op * 2 ^ 26 + rd * 2 ^ 21 + r1 * 2 ^ 16 + r2 * 2 ^ 11 + func; bobReady s b (a 2 1 rs1 rs2) ∧ rb < 32 ∧ imm < 2 ^ 13 ∧ rd < 8 ∧ rs1 < 8 ∧ rs2 < 8 ∧ u.loads = [] :=
  ⟨{ State.reset with bobs := [(63, { Bob.init with run := 1, words := 10, pc := 5, text := [(5, 140578817)], v := [(1, 0x1234567890abcdef11223344556677880000000000000000000000000000000000000000000000000000000000000000), (2, 0xff00ff00ff00ff00000000000000000000000000000000000000000000000000000000000000000000000000000000000000000000000000)] })] }, 63, 3, 1, 2, 9, 0, by dsimp only; exact ⟨ready_of (by decide +kernel), by decide +kernel⟩⟩
theorem witness_LineRegistersAndScratchpad_3 : ∃ (s : State) (b : Nat) (rd : Nat) (rs1 : Nat) (rs2 : Nat) (rb : Nat) (imm : Nat), let u := s.bob b; let a := fun op func r1 r2 => op * 2 ^ 26 + rd * 2 ^ 21 + r1 * 2 ^ 16 + r2 * 2 ^ 11 + func; bobReady s b (a 2 2 rs1 rs2) ∧ rb < 32 ∧ imm < 2 ^ 13 ∧ rd < 8 ∧ rs1 < 8 ∧ rs2 < 8 ∧ u.loads = [] :=
  ⟨{ State.reset with bobs := [(63, { Bob.init with run := 1, words := 10, pc := 5, text := [(5, 140578818)], v := [(1, 0x1234567890abcdef11223344556677880000000000000000000000000000000000000000000000000000000000000000), (2, 0xff00ff00ff00ff00000000000000000000000000000000000000000000000000000000000000000000000000000000000000000000000000)] })] }, 63, 3, 1, 2, 9, 0, by dsimp only; exact ⟨ready_of (by decide +kernel), by decide +kernel⟩⟩
theorem witness_LineRegistersAndScratchpad_4 : ∃ (s : State) (b : Nat) (rd : Nat) (rs1 : Nat) (rs2 : Nat) (rb : Nat) (imm : Nat), let u := s.bob b; let a := fun op func r1 r2 => op * 2 ^ 26 + rd * 2 ^ 21 + r1 * 2 ^ 16 + r2 * 2 ^ 11 + func; bobReady s b (a 2 3 rs1 rs2) ∧ rb < 32 ∧ imm < 2 ^ 13 ∧ rd < 8 ∧ rs1 < 8 ∧ rs2 < 8 ∧ u.loads = [] :=
  ⟨{ State.reset with bobs := [(63, { Bob.init with run := 1, words := 10, pc := 5, text := [(5, 140578819)], v := [(1, 0x1234567890abcdef11223344556677880000000000000000000000000000000000000000000000000000000000000000), (2, 0xff00ff00ff00ff00000000000000000000000000000000000000000000000000000000000000000000000000000000000000000000000000)] })] }, 63, 3, 1, 2, 9, 0, by dsimp only; exact ⟨ready_of (by decide +kernel), by decide +kernel⟩⟩
theorem witness_LineRegistersAndScratchpad_5 : ∃ (s : State) (b : Nat) (rd : Nat) (rs1 : Nat) (rs2 : Nat) (rb : Nat) (imm : Nat), let u := s.bob b; let a := fun op func r1 r2 => op * 2 ^ 26 + rd * 2 ^ 21 + r1 * 2 ^ 16 + r2 * 2 ^ 11 + func; bobReady s b (a 2 4 0 0) ∧ rb < 32 ∧ imm < 2 ^ 13 ∧ rd < 8 ∧ rs1 < 8 ∧ rs2 < 8 ∧ u.loads = [] :=
  ⟨{ State.reset with bobs := [(63, { Bob.init with run := 1, words := 10, pc := 5, text := [(5, 140509188)], v := [(1, 0x1234567890abcdef11223344556677880000000000000000000000000000000000000000000000000000000000000000), (2, 0xff00ff00ff00ff00000000000000000000000000000000000000000000000000000000000000000000000000000000000000000000000000)] })] }, 63, 3, 1, 2, 9, 0, by dsimp only; exact ⟨ready_of (by decide +kernel), by decide +kernel⟩⟩
theorem witness_LineRegistersAndScratchpad_6 : ∃ (s : State) (b : Nat) (rd : Nat) (rs1 : Nat) (rs2 : Nat) (rb : Nat) (imm : Nat), ∃ i, let u := s.bob b; let a := fun op func r1 r2 => op * 2 ^ 26 + rd * 2 ^ 21 + r1 * 2 ^ 16 + r2 * 2 ^ 11 + func; bobReady s b (a 2 (8 + i) rs1 0) ∧ rb < 32 ∧ imm < 2 ^ 13 ∧ rd < 32 ∧ rs1 < 8 ∧ rs2 < 8 ∧ u.loads = [] ∧ i < 8 :=
  ⟨{ State.reset with bobs := [(63, { Bob.init with run := 1, words := 10, pc := 5, text := [(5, 140574728)], v := [(1, 0x1234567890abcdef11223344556677880000000000000000000000000000000000000000000000000000000000000000), (2, 0xff00ff00ff00ff00000000000000000000000000000000000000000000000000000000000000000000000000000000000000000000000000)] })] }, 63, 3, 1, 2, 9, 0, 0, by dsimp only; exact ⟨ready_of (by decide +kernel), by decide +kernel⟩⟩
theorem witness_LineRegistersAndScratchpad_7 : ∃ (s : State) (b : Nat) (rd : Nat) (rs1 : Nat) (rb : Nat) (imm : Nat), ∃ i, let u := s.bob b; rb < 32 ∧ imm < 2 ^ 13 ∧ rd < 8 ∧ rs1 < 32 ∧ u.loads = [] ∧ i < 8 :=
  ⟨{ State.reset with bobs := [(63, { Bob.init with run := 1, words := 10, pc := 5, text := [(5, 140574736)], v := [(1, 0x1234567890abcdef11223344556677880000000000000000000000000000000000000000000000000000000000000000), (2, 0xff00ff00ff00ff00000000000000000000000000000000000000000000000000000000000000000000000000000000000000000000000000)], g := [(1, 5)] })] }, 63, 3, 1, 9, 0, 0, by dsimp only; exact by decide +kernel⟩
theorem witness_LineRegistersAndScratchpad_8 : ∃ (s : State) (b : Nat) (rd : Nat) (rb : Nat) (imm : Nat), ∃ fn, let m := fun op fn => op * 2 ^ 26 + rd * 2 ^ 21 + rb * 2 ^ 16 + fn * 2 ^ 13 + imm; bobReady s b (m 0x11 fn) ∧ rb < 32 ∧ imm < 2 ^ 13 ∧ rd < 32 ∧ fn < 7 ∧ fn < 4 :=
  ⟨{ State.reset with bobs := [(63, { Bob.init with run := 1, words := 10, pc := 5, text := [(5, 1147764728)], g := [(9, 8), (3, 0xfedcba9876543210)], v := [(3, 0xfedcba98765432100123456789abcdef)], scratch := [(0, 0x8182838485868788), (1, 0x0102030405060708), (16383, 0xf000000000000001)] })] }, 63, 3, 9, 8184, 3, by dsimp only; exact ⟨ready_of (by decide +kernel), by decide +kernel⟩⟩
theorem witness_LineRegistersAndScratchpad_9 : ∃ (s : State) (b : Nat) (rd : Nat) (rb : Nat) (imm : Nat), ∃ fn, let m := fun op fn => op * 2 ^ 26 + rd * 2 ^ 21 + rb * 2 ^ 16 + fn * 2 ^ 13 + imm; bobReady s b (m 0x10 fn) ∧ rb < 32 ∧ imm < 2 ^ 13 ∧ rd < 32 ∧ fn < 7 :=
  ⟨{ State.reset with bobs := [(63, { Bob.init with run := 1, words := 10, pc := 5, text := [(5, 1080680440)], g := [(9, 8), (3, 0xfedcba9876543210)], v := [(3, 0xfedcba98765432100123456789abcdef)], scratch := [(0, 0x8182838485868788), (1, 0x0102030405060708), (16383, 0xf000000000000001)] })] }, 63, 3, 9, 8184, 6, by dsimp only; exact ⟨ready_of (by decide +kernel), by decide +kernel⟩⟩
theorem witness_LineRegistersAndScratchpad_10 : ∃ (s : State) (b : Nat) (rd : Nat) (rb : Nat) (imm : Nat), ∃ op fn, let m := fun op fn => op * 2 ^ 26 + rd * 2 ^ 21 + rb * 2 ^ 16 + fn * 2 ^ 13 + imm; bobReady s b (m op fn) ∧ rb < 32 ∧ imm < 2 ^ 13 ∧ rd < 32 ∧ (op = 0x10 ∧ fn = 7 ∨ op = 0x11 ∧ 4 ≤ fn ∧ fn < 8) :=
  ⟨{ State.reset with bobs := [(63, { Bob.init with run := 1, words := 10, pc := 5, text := [(5, 1080680453)] })] }, 63, 3, 9, 5, 16, 7, by dsimp only; exact ⟨ready_of (by decide +kernel), by decide +kernel⟩⟩
theorem witness_LineRegistersAndScratchpad_11 : ∃ (s : State) (b : Nat) (rd : Nat) (rb : Nat) (imm : Nat), let u := s.bob b; let m := fun op fn => op * 2 ^ 26 + rd * 2 ^ 21 + rb * 2 ^ 16 + fn * 2 ^ 13 + imm; bobReady s b (m 0x14 0) ∧ rb < 32 ∧ imm < 2 ^ 13 ∧ rd < 8 ∧ u.loads = [] :=
  ⟨{ State.reset with bobs := [(63, { Bob.init with run := 1, words := 10, pc := 5, text := [(5, 1349066751)], g := [(9, 64), (3, 0xfedcba9876543210)], v := [(3, 0xfedcba98765432100123456789abcdef)], scratch := [(0, 0x8182838485868788), (1, 0x0102030405060708), (16383, 0xf000000000000001)] })] }, 63, 3, 9, 8191, by dsimp only; exact ⟨ready_of (by decide +kernel), by decide +kernel⟩⟩
theorem witness_LineRegistersAndScratchpad_12 : ∃ (s : State) (b : Nat) (rd : Nat) (rb : Nat) (imm : Nat), let u := s.bob b; let m := fun op fn => op * 2 ^ 26 + rd * 2 ^ 21 + rb * 2 ^ 16 + fn * 2 ^ 13 + imm; bobReady s b (m 0x15 0) ∧ rb < 32 ∧ imm < 2 ^ 13 ∧ rd < 8 ∧ u.loads = [] :=
  ⟨{ State.reset with bobs := [(63, { Bob.init with run := 1, words := 10, pc := 5, text := [(5, 1416175615)], g := [(9, 64), (3, 0xfedcba9876543210)], v := [(3, 0xfedcba98765432100123456789abcdef)], scratch := [(0, 0x8182838485868788), (1, 0x0102030405060708), (16383, 0xf000000000000001)] })] }, 63, 3, 9, 8191, by dsimp only; exact ⟨ready_of (by decide +kernel), by decide +kernel⟩⟩
theorem witness_LineRegistersAndScratchpad_13 : ∃ (s : State) (b : Nat) (rd : Nat) (rs1 : Nat) (rs2 : Nat) (rb : Nat) (imm : Nat), let a := fun op func r1 r2 => op * 2 ^ 26 + rd * 2 ^ 21 + r1 * 2 ^ 16 + r2 * 2 ^ 11 + func; bobReady s b (a 3 0 rs1 rs2) ∧ rb < 32 ∧ imm < 2 ^ 13 ∧ rd < 32 ∧ rs1 < 32 ∧ rs2 < 32 :=
  ⟨{ State.reset with bobs := [(63, { Bob.init with run := 1, words := 10, pc := 5, text := [(5, 207687680)], g := [(1, 8), (2, 0xffffffffffffffff)], cap := [4], scratch := [(1, 7), (16383, 9)] })] }, 63, 3, 1, 2, 9, 0, by dsimp only; exact ⟨ready_of (by decide +kernel), by decide +kernel⟩⟩
theorem witness_LineRegistersAndScratchpad_14 : ∃ (s : State) (b : Nat) (rd : Nat) (rs1 : Nat) (rs2 : Nat) (rb : Nat) (imm : Nat), let a := fun op func r1 r2 => op * 2 ^ 26 + rd * 2 ^ 21 + r1 * 2 ^ 16 + r2 * 2 ^ 11 + func; bobReady s b (a 3 1 rs1 rs2) ∧ rb < 32 ∧ imm < 2 ^ 13 ∧ rd < 32 ∧ rs1 < 32 ∧ rs2 < 32 :=
  ⟨{ State.reset with bobs := [(63, { Bob.init with run := 1, words := 10, pc := 5, text := [(5, 207687681)], g := [(1, 8), (2, 0xffffffffffffffff)], cap := [4], scratch := [(1, 7), (16383, 9)] })] }, 63, 3, 1, 2, 9, 0, by dsimp only; exact ⟨ready_of (by decide +kernel), by decide +kernel⟩⟩
theorem witness_LineAccessesFencesPostEnd_1 : ∃ (s : State) (b : Nat) (rd : Nat) (rb : Nat) (imm : Nat), lineFree s b rd ∧ bobReady s b (0x12 * 2 ^ 26 + rd * 2 ^ 21 + rb * 2 ^ 16 + imm) ∧ rb < 32 ∧ imm < 2 ^ 13 ∧ classHeld s b = false ∧ rd < 8 :=
  ⟨{ State.reset with bobs := [(63, { Bob.init with run := 1, words := 10, pc := 5, text := [(5, 1214840832)], g := [(9, 64), (1, 64), (2, 0xff00)], v := [(3, 0x1234)], cap := [31, 7, 409600]  })] }, 63, 3, 9, 0, ⟨by unfold lineFree; decide +kernel, ready_of (by decide +kernel), by decide +kernel⟩⟩
theorem witness_LineAccessesFencesPostEnd_2 : ∃ (s : State) (b : Nat) (rd : Nat) (rb : Nat) (imm : Nat), lineFree s b rd ∧ bobReady s b (0x13 * 2 ^ 26 + rd * 2 ^ 21 + rb * 2 ^ 16 + imm) ∧ rb < 32 ∧ imm < 2 ^ 13 ∧ classHeld s b = false ∧ rd < 8 :=
  ⟨{ State.reset with bobs := [(63, { Bob.init with run := 1, words := 10, pc := 5, text := [(5, 1281949696)], g := [(9, 64), (1, 64), (2, 0xff00)], v := [(3, 0x1234)], cap := [31, 7, 409600]  })] }, 63, 3, 9, 0, ⟨by unfold lineFree; decide +kernel, ready_of (by decide +kernel), by decide +kernel⟩⟩
theorem witness_LineAccessesFencesPostEnd_3 : ∃ (s : State) (b : Nat) (rd : Nat) (rs1 : Nat) (rs2 : Nat) (rb : Nat) (imm : Nat), lineFree s b rd ∧ bobReady s b (4 * 2 ^ 26 + rd * 2 ^ 21 + rs1 * 2 ^ 16 + rs2 * 2 ^ 11) ∧ rb < 32 ∧ imm < 2 ^ 13 ∧ classHeld s b = false ∧ rd < 8 ∧ rs1 < 32 ∧ rs2 < 32 :=
  ⟨{ State.reset with bobs := [(63, { Bob.init with run := 1, words := 10, pc := 5, text := [(5, 274796544)], g := [(9, 64), (1, 64), (2, 5)], v := [(3, 0x1234)], cap := [31, 7, 409600]  })] }, 63, 3, 1, 2, 9, 0, ⟨by unfold lineFree; decide +kernel, ready_of (by decide +kernel), by decide +kernel⟩⟩
theorem witness_LineAccessesFencesPostEnd_4 : ∃ (s : State) (b : Nat) (rb : Nat) (imm : Nat) (r : BobReply) (l : Load), let u := s.bob b; rb < 32 ∧ imm < 2 ^ 13 ∧ r ∈ s.home.bobReplies ∧ r.bob = b ∧ ((∀ x ∈ s.home.bobReplies, x.bob = b → x.slot = r.slot → x = r)) ∧ l ∈ u.loads ∧ l.no = r.slot ∧ ((∀ x ∈ u.loads, x.no = r.slot → x = l)) ∧ r.status < 0x2000 :=
  ⟨{ State.reset with home := { State.reset.home with bobReplies := [⟨62, 7, 0, 0, false, 0⟩, ⟨63, 7, 64, 0x77, false, 0⟩] }, bobs := [(63, { Bob.init with run := 1, words := 10, pc := 9, loads := [⟨6, 1, 1⟩, ⟨7, 3, 4⟩], stores := [3, 8] })] }, 63, 9, 0, ⟨63, 7, 64, 0x77, false, 0⟩, ⟨7, 3, 4⟩, by dsimp only; exact by decide +kernel⟩
theorem witness_LineAccessesFencesPostEnd_5 : ∃ (s : State) (b : Nat) (rb : Nat) (imm : Nat) (r : BobReply) (l : Load), let u := s.bob b; noLaneWork s b ∧ rb < 32 ∧ imm < 2 ^ 13 ∧ r ∈ s.home.bobReplies ∧ r.bob = b ∧ ((∀ x ∈ s.home.bobReplies, x.bob = b → x.slot = r.slot → x = r)) ∧ l ∈ u.loads ∧ l.no = r.slot ∧ ((∀ x ∈ u.loads, x.no = r.slot → x = l)) ∧ 0x2000 ≤ r.status ∧ r.status < 0x10000 ∧ l.pc < 8192 ∧ b < 64 ∧ u.run = 1 ∧ u.disc = none :=
  ⟨{ State.reset with home := { State.reset.home with bobReplies := [⟨62, 7, 0, 0, false, 0⟩, ⟨63, 7, 64, 0x77, false, 8192⟩] }, bobs := [(63, { Bob.init with run := 1, words := 10, pc := 9, loads := [⟨6, 1, 1⟩, ⟨7, 3, 4⟩], stores := [3, 8] })] }, 63, 9, 0, ⟨63, 7, 64, 0x77, false, 8192⟩, ⟨7, 3, 4⟩, by dsimp only; exact ⟨by unfold noLaneWork; decide +kernel, by decide +kernel⟩⟩
theorem witness_LineAccessesFencesPostEnd_6 : ∃ (s : State) (b : Nat) (rd : Nat) (rb : Nat) (imm : Nat) (r : BobReply), let u := s.bob b; let sets := fun (t : State) (kind : ReqKind) (ga : Nat) (d : Line) (mask : Nat) (p : Bool) => ∃ r : HomeReq, r.kind = kind ∧ r.who = .bob b u.io ∧ r.data = d ∧ r.mask = mask ∧ r.poison = p ∧ r.master = 16 + s.fget (BOB_STAT b) F.BOB_STAT_CLASS ∧ t = { s with bobs := t.bobs, home := t.home, regs := t.regs } ∧ regsKept (slotReg b) s t ∧ (ga / 2 ^ 47 % 2 ^ 14 = s.fget FAB_NODEID F.FAB_NODEID_NODE → r.la = ga % 2 ^ 47 ∧ t.home = { s.home with toHome := s.home.toHome ++ [r] }) ∧ (ga / 2 ^ 47 % 2 ^ 14 ≠ s.fget FAB_NODEID F.FAB_NODEID_NODE → r.la = guestLa ga ∧ t.home = { s.home with guestReqs := s.home.guestReqs ++ [r] }); let stores := fun (t : State) (g mask : Nat) => (g % 64 ≠ 0 → faultsWith b C.BOB_E_ALIGN s t) ∧ (g % 64 = 0 → capOk s u g 64 2 = false → faultsWith b C.BOB_E_CAP s t) ∧ (g % 64 = 0 → capOk s u g 64 2 = true → sets t .write g (u.vr rd) mask (u.vpois rd) ∧ nextAt b { u with io := u.io + 1, stores := u.stores ++ [u.io] } s t); rb < 32 ∧ imm < 2 ^ 13 ∧ r ∈ s.home.bobReplies ∧ r.bob = b ∧ ((∀ x ∈ s.home.bobReplies, x.bob = b → x.slot = r.slot → x = r)) ∧ r.slot ∈ u.stores :=
  ⟨{ State.reset with home := { State.reset.home with bobReplies := [⟨62, 7, 0, 0, false, 0⟩, ⟨63, 7, 64, 0, false, 0⟩] }, bobs := [(63, { Bob.init with run := 2, held := 0, stores := [3, 7] })] }, 63, 3, 9, 0, ⟨63, 7, 64, 0, false, 0⟩, by dsimp only; exact by decide +kernel⟩
theorem witness_LineAccessesFencesPostEnd_7 : ∃ (s : State) (b : Nat) (rd : Nat) (rb : Nat) (imm : Nat), let u := s.bob b; let sets := fun (t : State) (kind : ReqKind) (ga : Nat) (d : Line) (mask : Nat) (p : Bool) => ∃ r : HomeReq, r.kind = kind ∧ r.who = .bob b u.io ∧ r.data = d ∧ r.mask = mask ∧ r.poison = p ∧ r.master = 16 + s.fget (BOB_STAT b) F.BOB_STAT_CLASS ∧ t = { s with bobs := t.bobs, home := t.home, regs := t.regs } ∧ regsKept (slotReg b) s t ∧ (ga / 2 ^ 47 % 2 ^ 14 = s.fget FAB_NODEID F.FAB_NODEID_NODE → r.la = ga % 2 ^ 47 ∧ t.home = { s.home with toHome := s.home.toHome ++ [r] }) ∧ (ga / 2 ^ 47 % 2 ^ 14 ≠ s.fget FAB_NODEID F.FAB_NODEID_NODE → r.la = guestLa ga ∧ t.home = { s.home with guestReqs := s.home.guestReqs ++ [r] }); let stores := fun (t : State) (g mask : Nat) => (g % 64 ≠ 0 → faultsWith b C.BOB_E_ALIGN s t) ∧ (g % 64 = 0 → capOk s u g 64 2 = false → faultsWith b C.BOB_E_CAP s t) ∧ (g % 64 = 0 → capOk s u g 64 2 = true → sets t .write g (u.vr rd) mask (u.vpois rd) ∧ nextAt b { u with io := u.io + 1, stores := u.stores ++ [u.io] } s t); bobReady s b (0x33 * 2 ^ 26 + 0) ∧ rb < 32 ∧ imm < 2 ^ 13 ∧ (u.stores = []) ∧ u.held = 0 :=
  ⟨{ State.reset with bobs := [(63, { Bob.init with run := 1, words := 10, pc := 5, text := [(5, 3422552064)], g := [(9, 64), (1, 64), (2, 0xff00)], v := [(3, 0x1234)], cap := [31, 7, 409600]  })] }, 63, 3, 9, 0, by dsimp only; exact ⟨ready_of (by decide +kernel), by decide +kernel⟩⟩
theorem witness_LineAccessesFencesPostEnd_8 : ∃ (s : State) (b : Nat) (rd : Nat) (rb : Nat) (imm : Nat), let u := s.bob b; let sets := fun (t : State) (kind : ReqKind) (ga : Nat) (d : Line) (mask : Nat) (p : Bool) => ∃ r : HomeReq, r.kind = kind ∧ r.who = .bob b u.io ∧ r.data = d ∧ r.mask = mask ∧ r.poison = p ∧ r.master = 16 + s.fget (BOB_STAT b) F.BOB_STAT_CLASS ∧ t = { s with bobs := t.bobs, home := t.home, regs := t.regs } ∧ regsKept (slotReg b) s t ∧ (ga / 2 ^ 47 % 2 ^ 14 = s.fget FAB_NODEID F.FAB_NODEID_NODE → r.la = ga % 2 ^ 47 ∧ t.home = { s.home with toHome := s.home.toHome ++ [r] }) ∧ (ga / 2 ^ 47 % 2 ^ 14 ≠ s.fget FAB_NODEID F.FAB_NODEID_NODE → r.la = guestLa ga ∧ t.home = { s.home with guestReqs := s.home.guestReqs ++ [r] }); let stores := fun (t : State) (g mask : Nat) => (g % 64 ≠ 0 → faultsWith b C.BOB_E_ALIGN s t) ∧ (g % 64 = 0 → capOk s u g 64 2 = false → faultsWith b C.BOB_E_CAP s t) ∧ (g % 64 = 0 → capOk s u g 64 2 = true → sets t .write g (u.vr rd) mask (u.vpois rd) ∧ nextAt b { u with io := u.io + 1, stores := u.stores ++ [u.io] } s t); bobReady s b (0x33 * 2 ^ 26 + 0) ∧ rb < 32 ∧ imm < 2 ^ 13 ∧ (u.stores = []) ∧ u.held ≠ 0 ∧ u.held < 0x10000 :=
  ⟨{ State.reset with bobs := [(63, { Bob.init with run := 1, words := 10, pc := 5, text := [(5, 3422552064)], g := [(9, 64), (1, 64), (2, 0xff00)], v := [(3, 0x1234)], cap := [31, 7, 409600] , held := 0x2005 })] }, 63, 3, 9, 0, by dsimp only; exact ⟨ready_of (by decide +kernel), by decide +kernel⟩⟩
theorem witness_LineAccessesFencesPostEnd_9 : ∃ (s : State) (b : Nat) (rd : Nat) (rb : Nat) (imm : Nat), let u := s.bob b; let sets := fun (t : State) (kind : ReqKind) (ga : Nat) (d : Line) (mask : Nat) (p : Bool) => ∃ r : HomeReq, r.kind = kind ∧ r.who = .bob b u.io ∧ r.data = d ∧ r.mask = mask ∧ r.poison = p ∧ r.master = 16 + s.fget (BOB_STAT b) F.BOB_STAT_CLASS ∧ t = { s with bobs := t.bobs, home := t.home, regs := t.regs } ∧ regsKept (slotReg b) s t ∧ (ga / 2 ^ 47 % 2 ^ 14 = s.fget FAB_NODEID F.FAB_NODEID_NODE → r.la = ga % 2 ^ 47 ∧ t.home = { s.home with toHome := s.home.toHome ++ [r] }) ∧ (ga / 2 ^ 47 % 2 ^ 14 ≠ s.fget FAB_NODEID F.FAB_NODEID_NODE → r.la = guestLa ga ∧ t.home = { s.home with guestReqs := s.home.guestReqs ++ [r] }); let stores := fun (t : State) (g mask : Nat) => (g % 64 ≠ 0 → faultsWith b C.BOB_E_ALIGN s t) ∧ (g % 64 = 0 → capOk s u g 64 2 = false → faultsWith b C.BOB_E_CAP s t) ∧ (g % 64 = 0 → capOk s u g 64 2 = true → sets t .write g (u.vr rd) mask (u.vpois rd) ∧ nextAt b { u with io := u.io + 1, stores := u.stores ++ [u.io] } s t); bobReady s b (0x33 * 2 ^ 26 + 0) ∧ rb < 32 ∧ imm < 2 ^ 13 ∧ ¬ (u.stores = []) :=
  ⟨{ State.reset with bobs := [(63, { Bob.init with run := 1, words := 10, pc := 5, text := [(5, 3422552064)], g := [(9, 64), (1, 64), (2, 0xff00)], v := [(3, 0x1234)], cap := [31, 7, 409600] , stores := [3] })] }, 63, 3, 9, 0, by dsimp only; exact ⟨ready_of (by decide +kernel), by decide +kernel⟩⟩
theorem witness_LineAccessesFencesPostEnd_10 : ∃ (s : State) (b : Nat) (rb : Nat) (imm : Nat), let u := s.bob b; bobReady s b (0x33 * 2 ^ 26 + 1) ∧ rb < 32 ∧ imm < 2 ^ 13 ∧ (u.jobs = []) ∧ 0 = 0 :=
  ⟨{ State.reset with bobs := [(63, { Bob.init with run := 1, words := 10, pc := 5, text := [(5, 3422552065)], g := [(9, 64), (1, 64), (2, 0xff00)], v := [(3, 0x1234)], cap := [31, 7, 409600]  })] }, 63, 9, 0, by dsimp only; exact ⟨ready_of (by decide +kernel), by decide +kernel⟩⟩
theorem witness_LineAccessesFencesPostEnd_11 : ∃ (s : State) (b : Nat) (rb : Nat) (imm : Nat), let u := s.bob b; bobReady s b (0x33 * 2 ^ 26 + 1) ∧ rb < 32 ∧ imm < 2 ^ 13 ∧ ¬ (u.jobs = []) :=
  ⟨{ State.reset with bobs := [(63, { Bob.init with run := 1, words := 10, pc := 5, text := [(5, 3422552065)], g := [(9, 64), (1, 64), (2, 0xff00)], v := [(3, 0x1234)], cap := [31, 7, 409600] , jobs := [⟨3, 0, 0, 0, 0, 8, 0, 0, false, [], none, 0, false⟩] })] }, 63, 9, 0, by dsimp only; exact ⟨ready_of (by decide +kernel), by decide +kernel⟩⟩
theorem witness_LineAccessesFencesPostEnd_12 : ∃ (s : State) (b : Nat) (rd : Nat) (rb : Nat) (imm : Nat), let u := s.bob b; let sets := fun (t : State) (kind : ReqKind) (ga : Nat) (d : Line) (mask : Nat) (p : Bool) => ∃ r : HomeReq, r.kind = kind ∧ r.who = .bob b u.io ∧ r.data = d ∧ r.mask = mask ∧ r.poison = p ∧ r.master = 16 + s.fget (BOB_STAT b) F.BOB_STAT_CLASS ∧ t = { s with bobs := t.bobs, home := t.home, regs := t.regs } ∧ regsKept (slotReg b) s t ∧ (ga / 2 ^ 47 % 2 ^ 14 = s.fget FAB_NODEID F.FAB_NODEID_NODE → r.la = ga % 2 ^ 47 ∧ t.home = { s.home with toHome := s.home.toHome ++ [r] }) ∧ (ga / 2 ^ 47 % 2 ^ 14 ≠ s.fget FAB_NODEID F.FAB_NODEID_NODE → r.la = guestLa ga ∧ t.home = { s.home with guestReqs := s.home.guestReqs ++ [r] }); let stores := fun (t : State) (g mask : Nat) => (g % 64 ≠ 0 → faultsWith b C.BOB_E_ALIGN s t) ∧ (g % 64 = 0 → capOk s u g 64 2 = false → faultsWith b C.BOB_E_CAP s t) ∧ (g % 64 = 0 → capOk s u g 64 2 = true → sets t .write g (u.vr rd) mask (u.vpois rd) ∧ nextAt b { u with io := u.io + 1, stores := u.stores ++ [u.io] } s t); bobReady s b (0x33 * 2 ^ 26 + 2) ∧ rb < 32 ∧ imm < 2 ^ 13 ∧ u.stores = [] ∧ u.jobs = [] ∧ u.held = 0 :=
  ⟨{ State.reset with bobs := [(63, { Bob.init with run := 1, words := 10, pc := 5, text := [(5, 3422552066)], g := [(9, 64), (1, 64), (2, 0xff00)], v := [(3, 0x1234)], cap := [31, 7, 409600]  })] }, 63, 3, 9, 0, by dsimp only; exact ⟨ready_of (by decide +kernel), by decide +kernel⟩⟩
theorem witness_LineAccessesFencesPostEnd_13 : ∃ (s : State) (b : Nat) (rd : Nat) (rb : Nat) (imm : Nat), let u := s.bob b; let sets := fun (t : State) (kind : ReqKind) (ga : Nat) (d : Line) (mask : Nat) (p : Bool) => ∃ r : HomeReq, r.kind = kind ∧ r.who = .bob b u.io ∧ r.data = d ∧ r.mask = mask ∧ r.poison = p ∧ r.master = 16 + s.fget (BOB_STAT b) F.BOB_STAT_CLASS ∧ t = { s with bobs := t.bobs, home := t.home, regs := t.regs } ∧ regsKept (slotReg b) s t ∧ (ga / 2 ^ 47 % 2 ^ 14 = s.fget FAB_NODEID F.FAB_NODEID_NODE → r.la = ga % 2 ^ 47 ∧ t.home = { s.home with toHome := s.home.toHome ++ [r] }) ∧ (ga / 2 ^ 47 % 2 ^ 14 ≠ s.fget FAB_NODEID F.FAB_NODEID_NODE → r.la = guestLa ga ∧ t.home = { s.home with guestReqs := s.home.guestReqs ++ [r] }); let stores := fun (t : State) (g mask : Nat) => (g % 64 ≠ 0 → faultsWith b C.BOB_E_ALIGN s t) ∧ (g % 64 = 0 → capOk s u g 64 2 = false → faultsWith b C.BOB_E_CAP s t) ∧ (g % 64 = 0 → capOk s u g 64 2 = true → sets t .write g (u.vr rd) mask (u.vpois rd) ∧ nextAt b { u with io := u.io + 1, stores := u.stores ++ [u.io] } s t); bobReady s b (0x33 * 2 ^ 26 + 2) ∧ rb < 32 ∧ imm < 2 ^ 13 ∧ u.stores = [] ∧ u.jobs = [] ∧ u.held ≠ 0 ∧ u.held < 0x10000 :=
  ⟨{ State.reset with bobs := [(63, { Bob.init with run := 1, words := 10, pc := 5, text := [(5, 3422552066)], g := [(9, 64), (1, 64), (2, 0xff00)], v := [(3, 0x1234)], cap := [31, 7, 409600] , held := 0x2005 })] }, 63, 3, 9, 0, by dsimp only; exact ⟨ready_of (by decide +kernel), by decide +kernel⟩⟩
theorem witness_LineAccessesFencesPostEnd_14 : ∃ (s : State) (b : Nat) (rd : Nat) (rb : Nat) (imm : Nat), let u := s.bob b; let sets := fun (t : State) (kind : ReqKind) (ga : Nat) (d : Line) (mask : Nat) (p : Bool) => ∃ r : HomeReq, r.kind = kind ∧ r.who = .bob b u.io ∧ r.data = d ∧ r.mask = mask ∧ r.poison = p ∧ r.master = 16 + s.fget (BOB_STAT b) F.BOB_STAT_CLASS ∧ t = { s with bobs := t.bobs, home := t.home, regs := t.regs } ∧ regsKept (slotReg b) s t ∧ (ga / 2 ^ 47 % 2 ^ 14 = s.fget FAB_NODEID F.FAB_NODEID_NODE → r.la = ga % 2 ^ 47 ∧ t.home = { s.home with toHome := s.home.toHome ++ [r] }) ∧ (ga / 2 ^ 47 % 2 ^ 14 ≠ s.fget FAB_NODEID F.FAB_NODEID_NODE → r.la = guestLa ga ∧ t.home = { s.home with guestReqs := s.home.guestReqs ++ [r] }); let stores := fun (t : State) (g mask : Nat) => (g % 64 ≠ 0 → faultsWith b C.BOB_E_ALIGN s t) ∧ (g % 64 = 0 → capOk s u g 64 2 = false → faultsWith b C.BOB_E_CAP s t) ∧ (g % 64 = 0 → capOk s u g 64 2 = true → sets t .write g (u.vr rd) mask (u.vpois rd) ∧ nextAt b { u with io := u.io + 1, stores := u.stores ++ [u.io] } s t); bobReady s b (0x33 * 2 ^ 26 + 2) ∧ rb < 32 ∧ imm < 2 ^ 13 ∧ ¬ (u.stores = [] ∧ u.jobs = []) :=
  ⟨{ State.reset with bobs := [(63, { Bob.init with run := 1, words := 10, pc := 5, text := [(5, 3422552066)], g := [(9, 64), (1, 64), (2, 0xff00)], v := [(3, 0x1234)], cap := [31, 7, 409600] , stores := [3] })] }, 63, 3, 9, 0, by dsimp only; exact ⟨ready_of (by decide +kernel), by decide +kernel⟩⟩
theorem witness_LineAccessesFencesPostEnd_15 : ∃ (s : State) (b : Nat) (rd : Nat) (rs1 : Nat) (rs2 : Nat) (rb : Nat) (imm : Nat), let u := s.bob b; bobReady s b (0x34 * 2 ^ 26 + rd * 2 ^ 21 + rs1 * 2 ^ 16 + rs2 * 2 ^ 11) ∧ rb < 32 ∧ imm < 2 ^ 13 ∧ rd < 32 ∧ rs1 < 32 ∧ rs2 < 32 ∧ u.posted = true :=
  ⟨{ (State.reset.sets [(SPL_CQBASE 1023, F.SPL_CQBASE_LPN, 77), (SPL_CFG 1023, F.SPL_CFG_SQLOG, 3)]) with spools := [(1023, { Spool.init with cmds := [⟨6, 0, 1, 2, none, 0, none, 0⟩, ⟨5, 0, 1, 63, none, 0, none, 0⟩] }), (3, Spool.init)], bobs := [(63, { Bob.init with run := 1, words := 10, pc := 5, text := [(5, 3496022016)], q := 1023, n := 5, g := [(1, 0x12345), (2, 0xfedcba9876543210)], posted := true })] }, 63, 3, 1, 2, 9, 0, by dsimp only; exact ⟨ready_of (by decide +kernel), by decide +kernel⟩⟩
theorem witness_LineAccessesFencesPostEnd_16 : ∃ (s : State) (b : Nat) (rd : Nat) (rs1 : Nat) (rs2 : Nat) (rb : Nat) (imm : Nat), ∃ c, let u := s.bob b; let sets := fun (t : State) (kind : ReqKind) (ga : Nat) (d : Line) (mask : Nat) (p : Bool) => ∃ r : HomeReq, r.kind = kind ∧ r.who = .bob b u.io ∧ r.data = d ∧ r.mask = mask ∧ r.poison = p ∧ r.master = 16 + s.fget (BOB_STAT b) F.BOB_STAT_CLASS ∧ t = { s with bobs := t.bobs, home := t.home, regs := t.regs } ∧ regsKept (slotReg b) s t ∧ (ga / 2 ^ 47 % 2 ^ 14 = s.fget FAB_NODEID F.FAB_NODEID_NODE → r.la = ga % 2 ^ 47 ∧ t.home = { s.home with toHome := s.home.toHome ++ [r] }) ∧ (ga / 2 ^ 47 % 2 ^ 14 ≠ s.fget FAB_NODEID F.FAB_NODEID_NODE → r.la = guestLa ga ∧ t.home = { s.home with guestReqs := s.home.guestReqs ++ [r] }); let stores := fun (t : State) (g mask : Nat) => (g % 64 ≠ 0 → faultsWith b C.BOB_E_ALIGN s t) ∧ (g % 64 = 0 → capOk s u g 64 2 = false → faultsWith b C.BOB_E_CAP s t) ∧ (g % 64 = 0 → capOk s u g 64 2 = true → sets t .write g (u.vr rd) mask (u.vpois rd) ∧ nextAt b { u with io := u.io + 1, stores := u.stores ++ [u.io] } s t); bobReady s b (0x34 * 2 ^ 26 + rd * 2 ^ 21 + rs1 * 2 ^ 16 + rs2 * 2 ^ 11) ∧ rb < 32 ∧ imm < 2 ^ 13 ∧ rd < 32 ∧ rs1 < 32 ∧ rs2 < 32 ∧ u.posted = false ∧ u.stores = [] ∧ u.jobs = [] ∧ u.held = 0 ∧ c ∈ (s.spool u.q).cmds ∧ c.n = u.n ∧ ((∀ x ∈ (s.spool u.q).cmds, x.n = u.n → x = c)) ∧ c.claim ≠ none :=
  ⟨{ (State.reset.sets [(SPL_CQBASE 1023, F.SPL_CQBASE_LPN, 77), (SPL_CFG 1023, F.SPL_CFG_SQLOG, 3)]) with spools := [(1023, { Spool.init with cmds := [⟨6, 0, 1, 2, none, 0, none, 0⟩, ⟨5, 0, 1, 63, some (1, 2), 0, none, 0⟩] }), (3, Spool.init)], bobs := [(63, { Bob.init with run := 1, words := 10, pc := 5, text := [(5, 3496022016)], q := 1023, n := 5, g := [(1, 0x12345), (2, 0xfedcba9876543210)] })] }, 63, 3, 1, 2, 9, 0, ⟨5, 0, 1, 63, some (1, 2), 0, none, 0⟩, by dsimp only; exact ⟨ready_of (by decide +kernel), by decide +kernel⟩⟩
theorem witness_LineAccessesFencesPostEnd_17 : ∃ (s : State) (b : Nat) (rd : Nat) (rs1 : Nat) (rs2 : Nat) (rb : Nat) (imm : Nat), ∃ c, let u := s.bob b; let sets := fun (t : State) (kind : ReqKind) (ga : Nat) (d : Line) (mask : Nat) (p : Bool) => ∃ r : HomeReq, r.kind = kind ∧ r.who = .bob b u.io ∧ r.data = d ∧ r.mask = mask ∧ r.poison = p ∧ r.master = 16 + s.fget (BOB_STAT b) F.BOB_STAT_CLASS ∧ t = { s with bobs := t.bobs, home := t.home, regs := t.regs } ∧ regsKept (slotReg b) s t ∧ (ga / 2 ^ 47 % 2 ^ 14 = s.fget FAB_NODEID F.FAB_NODEID_NODE → r.la = ga % 2 ^ 47 ∧ t.home = { s.home with toHome := s.home.toHome ++ [r] }) ∧ (ga / 2 ^ 47 % 2 ^ 14 ≠ s.fget FAB_NODEID F.FAB_NODEID_NODE → r.la = guestLa ga ∧ t.home = { s.home with guestReqs := s.home.guestReqs ++ [r] }); let stores := fun (t : State) (g mask : Nat) => (g % 64 ≠ 0 → faultsWith b C.BOB_E_ALIGN s t) ∧ (g % 64 = 0 → capOk s u g 64 2 = false → faultsWith b C.BOB_E_CAP s t) ∧ (g % 64 = 0 → capOk s u g 64 2 = true → sets t .write g (u.vr rd) mask (u.vpois rd) ∧ nextAt b { u with io := u.io + 1, stores := u.stores ++ [u.io] } s t); bobReady s b (0x34 * 2 ^ 26 + rd * 2 ^ 21 + rs1 * 2 ^ 16 + rs2 * 2 ^ 11) ∧ rb < 32 ∧ imm < 2 ^ 13 ∧ rd < 32 ∧ rs1 < 32 ∧ rs2 < 32 ∧ u.posted = false ∧ u.stores = [] ∧ u.jobs = [] ∧ u.held = 0 ∧ c ∈ (s.spool u.q).cmds ∧ c.n = u.n ∧ ((∀ x ∈ (s.spool u.q).cmds, x.n = u.n → x = c)) ∧ c.claim = none ∧ c.recd = 0 :=
  ⟨{ (State.reset.sets [(SPL_CQBASE 1023, F.SPL_CQBASE_LPN, 77), (SPL_CFG 1023, F.SPL_CFG_SQLOG, 3)]) with spools := [(1023, { Spool.init with cmds := [⟨6, 0, 1, 2, none, 0, none, 0⟩, ⟨5, 0, 1, 63, none, 0, none, 0⟩] }), (3, Spool.init)], bobs := [(63, { Bob.init with run := 1, words := 10, pc := 5, text := [(5, 3496022016)], q := 1023, n := 5, g := [(1, 0x12345), (2, 0xfedcba9876543210)] })] }, 63, 3, 1, 2, 9, 0, ⟨5, 0, 1, 63, none, 0, none, 0⟩, by dsimp only; exact ⟨ready_of (by decide +kernel), by decide +kernel⟩⟩
theorem witness_LineAccessesFencesPostEnd_18 : ∃ (s : State) (b : Nat) (rd : Nat) (rb : Nat) (imm : Nat), let u := s.bob b; let sets := fun (t : State) (kind : ReqKind) (ga : Nat) (d : Line) (mask : Nat) (p : Bool) => ∃ r : HomeReq, r.kind = kind ∧ r.who = .bob b u.io ∧ r.data = d ∧ r.mask = mask ∧ r.poison = p ∧ r.master = 16 + s.fget (BOB_STAT b) F.BOB_STAT_CLASS ∧ t = { s with bobs := t.bobs, home := t.home, regs := t.regs } ∧ regsKept (slotReg b) s t ∧ (ga / 2 ^ 47 % 2 ^ 14 = s.fget FAB_NODEID F.FAB_NODEID_NODE → r.la = ga % 2 ^ 47 ∧ t.home = { s.home with toHome := s.home.toHome ++ [r] }) ∧ (ga / 2 ^ 47 % 2 ^ 14 ≠ s.fget FAB_NODEID F.FAB_NODEID_NODE → r.la = guestLa ga ∧ t.home = { s.home with guestReqs := s.home.guestReqs ++ [r] }); let stores := fun (t : State) (g mask : Nat) => (g % 64 ≠ 0 → faultsWith b C.BOB_E_ALIGN s t) ∧ (g % 64 = 0 → capOk s u g 64 2 = false → faultsWith b C.BOB_E_CAP s t) ∧ (g % 64 = 0 → capOk s u g 64 2 = true → sets t .write g (u.vr rd) mask (u.vpois rd) ∧ nextAt b { u with io := u.io + 1, stores := u.stores ++ [u.io] } s t); bobReady s b (0x35 * 2 ^ 26) ∧ rb < 32 ∧ imm < 2 ^ 13 ∧ u.stores = [] ∧ u.jobs = [] ∧ u.held ≠ 0 ∧ u.held < 0x10000 :=
  ⟨{ (State.reset.sets [(BOB_STAT 63, F.BOB_STAT_STATE, 1), (BOB_CFG 63, F.BOB_CFG_DRAIN, 0)]) with spools := [(1023, { Spool.init with cmds := [⟨6, 0, 1, 2, none, 0, none, 0⟩, ⟨5, 0, 1, 63, some (1, 2), 1, none, 0⟩] }), (3, Spool.init)], bobs := [(63, { Bob.init with run := 1, words := 10, pc := 5, text := [(5, 3556769792)], q := 1023, n := 5, posted := true, held := 8197 })] }, 63, 3, 9, 0, by dsimp only; exact ⟨ready_of (by decide +kernel), by decide +kernel⟩⟩
theorem witness_LineAccessesFencesPostEnd_19 : ∃ (s : State) (b : Nat) (rd : Nat) (rb : Nat) (imm : Nat), let u := s.bob b; let sets := fun (t : State) (kind : ReqKind) (ga : Nat) (d : Line) (mask : Nat) (p : Bool) => ∃ r : HomeReq, r.kind = kind ∧ r.who = .bob b u.io ∧ r.data = d ∧ r.mask = mask ∧ r.poison = p ∧ r.master = 16 + s.fget (BOB_STAT b) F.BOB_STAT_CLASS ∧ t = { s with bobs := t.bobs, home := t.home, regs := t.regs } ∧ regsKept (slotReg b) s t ∧ (ga / 2 ^ 47 % 2 ^ 14 = s.fget FAB_NODEID F.FAB_NODEID_NODE → r.la = ga % 2 ^ 47 ∧ t.home = { s.home with toHome := s.home.toHome ++ [r] }) ∧ (ga / 2 ^ 47 % 2 ^ 14 ≠ s.fget FAB_NODEID F.FAB_NODEID_NODE → r.la = guestLa ga ∧ t.home = { s.home with guestReqs := s.home.guestReqs ++ [r] }); let stores := fun (t : State) (g mask : Nat) => (g % 64 ≠ 0 → faultsWith b C.BOB_E_ALIGN s t) ∧ (g % 64 = 0 → capOk s u g 64 2 = false → faultsWith b C.BOB_E_CAP s t) ∧ (g % 64 = 0 → capOk s u g 64 2 = true → sets t .write g (u.vr rd) mask (u.vpois rd) ∧ nextAt b { u with io := u.io + 1, stores := u.stores ++ [u.io] } s t); bobReady s b (0x35 * 2 ^ 26) ∧ rb < 32 ∧ imm < 2 ^ 13 ∧ u.stores = [] ∧ u.jobs = [] ∧ u.held = 0 ∧ u.posted = true ∧ ((∀ c ∈ (s.spool u.q).cmds, c.n = u.n → c.recd ≠ 0)) ∧ s.fget (BOB_STAT b) F.BOB_STAT_STATE = 1 ∧ bobTestDue s b = false :=
  ⟨{ (State.reset.sets [(BOB_STAT 63, F.BOB_STAT_STATE, 1), (BOB_CFG 63, F.BOB_CFG_DRAIN, 0)]) with spools := [(1023, { Spool.init with cmds := [⟨6, 0, 1, 2, none, 0, none, 0⟩, ⟨5, 0, 1, 63, some (1, 2), 1, none, 0⟩] }), (3, Spool.init)], bobs := [(63, { Bob.init with run := 1, words := 10, pc := 5, text := [(5, 3556769792)], q := 1023, n := 5, posted := true, held := 0 })] }, 63, 3, 9, 0, by dsimp only; exact ⟨ready_of (by decide +kernel), by decide +kernel⟩⟩
theorem witness_StitchesIssueAndFinish_1 : ∃ (s : State) (b : Nat) (rd : Nat) (rs : Nat) (rl : Nat) (tag : Nat) (flags : Nat), let u := s.bob b; let d := (u.gr rd).toNat; let src := (u.gr rs).toNat; let l := (u.gr rl).toNat; let x := if rl = 31 then 0 else (u.gr (rl + 1)).toNat; let bad := badParam s 0 d src l x flags rl; let granted := ∀ w ∈ jobWindows 0 d src l x flags, capOk s u w.1 w.2.1 w.2.2 = true; bobReady s b (0x38 * 2 ^ 26 + 0 * 2 ^ 22 + rd * 2 ^ 17 + rs * 2 ^ 12 + rl * 2 ^ 7 + tag * 2 ^ 3 + flags) ∧ rd < 32 ∧ rs < 32 ∧ rl < 32 ∧ tag < 16 ∧ flags < 8 ∧ u.held = 0 ∧ true = true ∧ bad = false ∧ granted ∧ (u.tag tag).st ≠ 1 ∧ 0 < l :=
  ⟨{ State.reset with bobs := [(63, { Bob.init with run := 1, words := 10, pc := 5, text := [(5, 3758236280)], cap := [31, 7, 409600], g := [(1, 64), (2, 128), (4, 64), (5, 0)], io := 9 })] }, 63, 1, 2, 4, 15, 0, by dsimp only; exact ⟨ready_of (by decide +kernel), by decide +kernel⟩⟩
theorem witness_StitchesIssueAndFinish_2 : ∃ (s : State) (b : Nat) (rd : Nat) (rs : Nat) (rl : Nat) (tag : Nat) (flags : Nat), let u := s.bob b; let d := (u.gr rd).toNat; let src := (u.gr rs).toNat; let l := (u.gr rl).toNat; let x := if rl = 31 then 0 else (u.gr (rl + 1)).toNat; let bad := badParam s 0 d src l x flags rl; let granted := ∀ w ∈ jobWindows 0 d src l x flags, capOk s u w.1 w.2.1 w.2.2 = true; bobReady s b (0x38 * 2 ^ 26 + 0 * 2 ^ 22 + rd * 2 ^ 17 + rs * 2 ^ 12 + rl * 2 ^ 7 + tag * 2 ^ 3 + flags) ∧ rd < 32 ∧ rs < 32 ∧ rl < 32 ∧ tag < 16 ∧ flags < 8 ∧ u.held = 0 ∧ true = true ∧ bad = false ∧ ¬ granted :=
  ⟨{ State.reset with bobs := [(63, { Bob.init with run := 1, words := 10, pc := 5, text := [(5, 3758236280)], cap := [31, 7, 409600], g := [(1, 64), (2, 413696), (4, 64), (5, 0)], io := 9 })] }, 63, 1, 2, 4, 15, 0, by dsimp only; exact ⟨ready_of (by decide +kernel), by decide +kernel⟩⟩
theorem witness_StitchesIssueAndFinish_3 : ∃ (s : State) (b : Nat) (rd : Nat) (rs : Nat) (rl : Nat) (tag : Nat) (flags : Nat), let u := s.bob b; let d := (u.gr rd).toNat; let src := (u.gr rs).toNat; let l := (u.gr rl).toNat; let x := if rl = 31 then 0 else (u.gr (rl + 1)).toNat; let bad := badParam s 0 d src l x flags rl; let granted := ∀ w ∈ jobWindows 0 d src l x flags, capOk s u w.1 w.2.1 w.2.2 = true; bobReady s b (0x38 * 2 ^ 26 + 0 * 2 ^ 22 + rd * 2 ^ 17 + rs * 2 ^ 12 + rl * 2 ^ 7 + tag * 2 ^ 3 + flags) ∧ rd < 32 ∧ rs < 32 ∧ rl < 32 ∧ tag < 16 ∧ flags < 8 ∧ u.held = 0 ∧ true = true ∧ (bad = true ∨ granted) ∧ (u.tag tag).st = 1 :=
  ⟨{ State.reset with bobs := [(63, { Bob.init with run := 1, words := 10, pc := 5, text := [(5, 3758236280)], cap := [31, 7, 409600], g := [(1, 64), (2, 128), (4, 64), (5, 0)], io := 9, tags := [(15, ⟨1, 0, 0⟩)] })] }, 63, 1, 2, 4, 15, 0, by dsimp only; exact ⟨ready_of (by decide +kernel), by decide +kernel⟩⟩
theorem witness_StitchesIssueAndFinish_4 : ∃ (s : State) (b : Nat) (rd : Nat) (rs : Nat) (rl : Nat) (tag : Nat) (flags : Nat), let u := s.bob b; let l := (u.gr rl).toNat; bobReady s b (0x38 * 2 ^ 26 + 0 * 2 ^ 22 + rd * 2 ^ 17 + rs * 2 ^ 12 + rl * 2 ^ 7 + tag * 2 ^ 3 + flags) ∧ rd < 32 ∧ rs < 32 ∧ rl < 32 ∧ tag < 16 ∧ flags < 8 ∧ u.held = 0 ∧ (rl % 2 = 1 ∨ (0 < 7 ∧ 2 ^ 30 < l)) :=
  ⟨{ State.reset with bobs := [(63, { Bob.init with run := 1, words := 10, pc := 5, text := [(5, 3758236408)], cap := [31, 7, 409600], g := [(1, 64), (2, 128), (4, 64), (5, 0)], io := 9 })] }, 63, 1, 2, 5, 15, 0, by dsimp only; exact ⟨ready_of (by decide +kernel), by decide +kernel⟩⟩
theorem witness_StitchesIssueAndFinish_5 : ∃ (s : State) (b : Nat) (rd : Nat) (rs : Nat) (rl : Nat) (tag : Nat) (flags : Nat), let u := s.bob b; let d := (u.gr rd).toNat; let src := (u.gr rs).toNat; let l := (u.gr rl).toNat; let x := if rl = 31 then 0 else (u.gr (rl + 1)).toNat; let bad := badParam s 0 d src l x flags rl; bobReady s b (0x38 * 2 ^ 26 + 0 * 2 ^ 22 + rd * 2 ^ 17 + rs * 2 ^ 12 + rl * 2 ^ 7 + tag * 2 ^ 3 + flags) ∧ rd < 32 ∧ rs < 32 ∧ rl < 32 ∧ tag < 16 ∧ flags < 8 ∧ u.held = 0 ∧ true = true ∧ bad = true ∧ (u.tag tag).st ≠ 1 :=
  ⟨{ State.reset with bobs := [(63, { Bob.init with run := 1, words := 10, pc := 5, text := [(5, 3758236408)], cap := [31, 7, 409600], g := [(1, 64), (2, 128), (4, 64), (5, 0)], io := 9 })] }, 63, 1, 2, 5, 15, 0, by dsimp only; exact ⟨ready_of (by decide +kernel), by decide +kernel⟩⟩
theorem witness_StitchesIssueAndFinish_6 : ∃ (s : State) (b : Nat) (rd : Nat) (rs : Nat) (rl : Nat) (tag : Nat) (flags : Nat), let u := s.bob b; let d := (u.gr rd).toNat; let src := (u.gr rs).toNat; let l := (u.gr rl).toNat; let x := if rl = 31 then 0 else (u.gr (rl + 1)).toNat; let bad := badParam s 0 d src l x flags rl; let granted := ∀ w ∈ jobWindows 0 d src l x flags, capOk s u w.1 w.2.1 w.2.2 = true; bobReady s b (0x38 * 2 ^ 26 + 0 * 2 ^ 22 + rd * 2 ^ 17 + rs * 2 ^ 12 + rl * 2 ^ 7 + tag * 2 ^ 3 + flags) ∧ rd < 32 ∧ rs < 32 ∧ rl < 32 ∧ tag < 16 ∧ flags < 8 ∧ u.held = 0 ∧ true = true ∧ bad = false ∧ granted ∧ (u.tag tag).st ≠ 1 ∧ l = 0 ∧ 0 ≠ 5 ∧ 0 ≠ 7 :=
  ⟨{ State.reset with bobs := [(63, { Bob.init with run := 1, words := 10, pc := 5, text := [(5, 3758236280)], cap := [31, 7, 409600], g := [(1, 64), (2, 128), (4, 0), (5, 0)], io := 9 })] }, 63, 1, 2, 4, 15, 0, by dsimp only; exact ⟨ready_of (by decide +kernel), by decide +kernel⟩⟩
theorem witness_StitchesIssueAndFinish_7 : ∃ (s : State) (b : Nat) (rd : Nat) (rs : Nat) (rl : Nat) (tag : Nat) (flags : Nat), let u := s.bob b; let cap := u.cap.getD 0 0; bobReady s b (0x38 * 2 ^ 26 + 5 * 2 ^ 22 + rd * 2 ^ 17 + rs * 2 ^ 12 + rl * 2 ^ 7 + tag * 2 ^ 3 + flags) ∧ rd < 32 ∧ rs < 32 ∧ rl < 32 ∧ tag < 16 ∧ flags < 8 ∧ u.held = 0 ∧ (bit cap 3) = false :=
  ⟨{ State.reset with bobs := [(63, { Bob.init with run := 1, words := 10, pc := 5, text := [(5, 3779207800)], cap := [0, 7, 409600], g := [(1, 64), (2, 128), (4, 64), (5, 4096)], io := 9 })] }, 63, 1, 2, 4, 15, 0, by dsimp only; exact ⟨ready_of (by decide +kernel), by decide +kernel⟩⟩
theorem witness_StitchesIssueAndFinish_8 : ∃ (s : State) (b : Nat) (rd : Nat) (rs : Nat) (rl : Nat) (tag : Nat) (flags : Nat), let u := s.bob b; bobReady s b (0x30 * 2 ^ 26 + rd * 2 ^ 21 + tag) ∧ rd < 32 ∧ rs < 32 ∧ rl < 32 ∧ tag < 16 ∧ flags < 8 ∧ 0x30 = 0x30 ∧ (u.tag tag).st = 1 :=
  ⟨{ State.reset with bobs := [(63, { Bob.init with run := 1, words := 10, pc := 5, text := [(5, 3223322639)], tags := [(15, ⟨1, 77, 99⟩)] })] }, 63, 1, 2, 4, 15, 0, by dsimp only; exact ⟨ready_of (by decide +kernel), by decide +kernel⟩⟩
theorem witness_StitchesIssueAndFinish_9 : ∃ (s : State) (b : Nat) (rd : Nat) (rs : Nat) (rl : Nat) (tag : Nat) (flags : Nat), let u := s.bob b; bobReady s b (0x30 * 2 ^ 26 + rd * 2 ^ 21 + tag) ∧ rd < 32 ∧ rs < 32 ∧ rl < 32 ∧ tag < 16 ∧ flags < 8 ∧ (u.tag tag).st = 2 :=
  ⟨{ State.reset with bobs := [(63, { Bob.init with run := 1, words := 10, pc := 5, text := [(5, 3223322639)], tags := [(15, ⟨2, 77, 99⟩)] })] }, 63, 1, 2, 4, 15, 0, by dsimp only; exact ⟨ready_of (by decide +kernel), by decide +kernel⟩⟩
theorem witness_StitchesIssueAndFinish_10 : ∃ (s : State) (b : Nat) (rd : Nat) (rs : Nat) (rl : Nat) (tag : Nat) (flags : Nat), let u := s.bob b; bobReady s b (0x30 * 2 ^ 26 + rd * 2 ^ 21 + tag) ∧ rd < 32 ∧ rs < 32 ∧ rl < 32 ∧ tag < 16 ∧ flags < 8 ∧ (u.tag tag).st = 0 :=
  ⟨{ State.reset with bobs := [(63, { Bob.init with run := 1, words := 10, pc := 5, text := [(5, 3223322639)], tags := [(15, ⟨0, 77, 99⟩)] })] }, 63, 1, 2, 4, 15, 0, by dsimp only; exact ⟨ready_of (by decide +kernel), by decide +kernel⟩⟩
theorem witness_StitchesIssueAndFinish_11 : ∃ (s : State) (b : Nat) (rd : Nat) (rs : Nat) (rl : Nat) (tag : Nat) (flags : Nat), let u := s.bob b; bobReady s b (0x31 * 2 ^ 26 + rd * 2 ^ 21 + tag) ∧ rd < 32 ∧ rs < 32 ∧ rl < 32 ∧ tag < 16 ∧ flags < 8 ∧ 0x31 ≠ 0x30 ∧ (u.tag tag).st = 1 :=
  ⟨{ State.reset with bobs := [(63, { Bob.init with run := 1, words := 10, pc := 5, text := [(5, 3290431503)], tags := [(15, ⟨1, 77, 99⟩)] })] }, 63, 1, 2, 4, 15, 0, by dsimp only; exact ⟨ready_of (by decide +kernel), by decide +kernel⟩⟩
theorem witness_StitchesIssueAndFinish_12 : ∃ (s : State) (b : Nat) (rd : Nat) (rs : Nat) (rl : Nat) (tag : Nat) (flags : Nat), let u := s.bob b; bobReady s b (0x31 * 2 ^ 26 + rd * 2 ^ 21 + tag) ∧ rd < 32 ∧ rs < 32 ∧ rl < 32 ∧ tag < 16 ∧ flags < 8 ∧ (u.tag tag).st = 2 :=
  ⟨{ State.reset with bobs := [(63, { Bob.init with run := 1, words := 10, pc := 5, text := [(5, 3290431503)], tags := [(15, ⟨2, 77, 99⟩)] })] }, 63, 1, 2, 4, 15, 0, by dsimp only; exact ⟨ready_of (by decide +kernel), by decide +kernel⟩⟩
theorem witness_StitchesIssueAndFinish_13 : ∃ (s : State) (b : Nat) (rd : Nat) (rs : Nat) (rl : Nat) (tag : Nat) (flags : Nat), let u := s.bob b; bobReady s b (0x31 * 2 ^ 26 + rd * 2 ^ 21 + tag) ∧ rd < 32 ∧ rs < 32 ∧ rl < 32 ∧ tag < 16 ∧ flags < 8 ∧ (u.tag tag).st = 0 :=
  ⟨{ State.reset with bobs := [(63, { Bob.init with run := 1, words := 10, pc := 5, text := [(5, 3290431503)], tags := [(15, ⟨0, 77, 99⟩)] })] }, 63, 1, 2, 4, 15, 0, by dsimp only; exact ⟨ready_of (by decide +kernel), by decide +kernel⟩⟩
theorem witness_StitchesIssueAndFinish_14 : ∃ (s : State) (b : Nat) (rd : Nat) (rs : Nat) (rl : Nat) (tag : Nat) (flags : Nat), let u := s.bob b; bobReady s b (0x32 * 2 ^ 26 + rd * 2 ^ 21 + tag) ∧ rd < 32 ∧ rs < 32 ∧ rl < 32 ∧ tag < 16 ∧ flags < 8 ∧ 0x32 ≠ 0x30 ∧ (u.tag tag).st = 1 :=
  ⟨{ State.reset with bobs := [(63, { Bob.init with run := 1, words := 10, pc := 5, text := [(5, 3357540367)], tags := [(15, ⟨1, 77, 99⟩)] })] }, 63, 1, 2, 4, 15, 0, by dsimp only; exact ⟨ready_of (by decide +kernel), by decide +kernel⟩⟩
theorem witness_StitchesIssueAndFinish_15 : ∃ (s : State) (b : Nat) (rd : Nat) (rs : Nat) (rl : Nat) (tag : Nat) (flags : Nat), let u := s.bob b; bobReady s b (0x32 * 2 ^ 26 + rd * 2 ^ 21 + tag) ∧ rd < 32 ∧ rs < 32 ∧ rl < 32 ∧ tag < 16 ∧ flags < 8 ∧ (u.tag tag).st = 2 :=
  ⟨{ State.reset with bobs := [(63, { Bob.init with run := 1, words := 10, pc := 5, text := [(5, 3357540367)], tags := [(15, ⟨2, 77, 99⟩)] })] }, 63, 1, 2, 4, 15, 0, by dsimp only; exact ⟨ready_of (by decide +kernel), by decide +kernel⟩⟩
theorem witness_StitchesIssueAndFinish_16 : ∃ (s : State) (b : Nat) (rd : Nat) (rs : Nat) (rl : Nat) (tag : Nat) (flags : Nat), let u := s.bob b; bobReady s b (0x32 * 2 ^ 26 + rd * 2 ^ 21 + tag) ∧ rd < 32 ∧ rs < 32 ∧ rl < 32 ∧ tag < 16 ∧ flags < 8 ∧ (u.tag tag).st = 0 :=
  ⟨{ State.reset with bobs := [(63, { Bob.init with run := 1, words := 10, pc := 5, text := [(5, 3357540367)], tags := [(15, ⟨0, 77, 99⟩)] })] }, 63, 1, 2, 4, 15, 0, by dsimp only; exact ⟨ready_of (by decide +kernel), by decide +kernel⟩⟩
theorem witness_StitchesIssueAndFinish_17 : ∃ (s : State) (b : Nat) (rd : Nat) (rs : Nat) (rl : Nat) (tag : Nat) (flags : Nat) (j : Job), let u := s.bob b; let d := (u.gr rd).toNat; let l := (u.gr rl).toNat; rd < 32 ∧ rs < 32 ∧ rl < 32 ∧ tag < 16 ∧ flags < 8 ∧ u.jobs = [j] ∧ j.tag = tag ∧ j.lines = [] ∧ j.prod = none ∧ j.racy = false ∧ 0 < j.l ∧ u.stores = [] ∧ u.lost = [] ∧ coreOpen s = true ∧ ((∀ w ∈ s.tier.pleat, w.la ≠ jobWork b tag)) ∧ (u.run = 1 ∨ u.run = 2) ∧ classHeld s b = false ∧ j.kind = 1 ∧ j.flags = 2 ∧ j.d % 8 = 0 ∧ j.l % 8 = 0 ∧ j.d + j.l ≤ 131072 :=
  ⟨{ State.reset with bobs := [(63, { Bob.init with run := 1, words := 10, pc := 5, text := [(5, 0)], jobs := [⟨15, 1, 2, 8, 1234605616436508552, 16, 0, 9, false, [], none, 0, false⟩], tags := [(15, ⟨1, 0, 0⟩)], scratch := [(1, 0x0807060504030201), (2, 0x100f0e0d0c0b0a09), (3, 7), (5, 9)] })] }, 63, 1, 2, 4, 15, 0, ⟨15, 1, 2, 8, 1234605616436508552, 16, 0, 9, false, [], none, 0, false⟩, by dsimp only; exact by decide +kernel⟩
theorem witness_StitchesIssueAndFinish_18 : ∃ (s : State) (b : Nat) (rd : Nat) (rs : Nat) (rl : Nat) (tag : Nat) (flags : Nat) (j : Job), let u := s.bob b; let d := (u.gr rd).toNat; let l := (u.gr rl).toNat; rd < 32 ∧ rs < 32 ∧ rl < 32 ∧ tag < 16 ∧ flags < 8 ∧ u.jobs = [j] ∧ j.tag = tag ∧ j.lines = [] ∧ j.prod = none ∧ j.racy = false ∧ 0 < j.l ∧ u.stores = [] ∧ u.lost = [] ∧ coreOpen s = true ∧ ((∀ w ∈ s.tier.pleat, w.la ≠ jobWork b tag)) ∧ (u.run = 1 ∨ u.run = 2) ∧ classHeld s b = false ∧ j.kind = 0 ∧ j.flags = 3 ∧ j.s + j.l ≤ 131072 ∧ j.d + j.l ≤ 131072 ∧ (j.s + j.l ≤ j.d ∨ j.d + j.l ≤ j.s) :=
  ⟨{ State.reset with bobs := [(63, { Bob.init with run := 1, words := 10, pc := 5, text := [(5, 0)], jobs := [⟨15, 0, 3, 100, 9, 16, 0, 9, false, [], none, 0, false⟩], tags := [(15, ⟨1, 0, 0⟩)], scratch := [(1, 0x0807060504030201), (2, 0x100f0e0d0c0b0a09), (3, 7), (5, 9)] })] }, 63, 1, 2, 4, 15, 0, ⟨15, 0, 3, 100, 9, 16, 0, 9, false, [], none, 0, false⟩, by dsimp only; exact by decide +kernel⟩
theorem witness_StitchesIssueAndFinish_19 : ∃ (s : State) (b : Nat) (rd : Nat) (rs : Nat) (rl : Nat) (tag : Nat) (flags : Nat) (j : Job), let u := s.bob b; let l := (u.gr rl).toNat; rd < 32 ∧ rs < 32 ∧ rl < 32 ∧ tag < 16 ∧ flags < 8 ∧ u.jobs = [j] ∧ j.tag = tag ∧ j.lines = [] ∧ j.prod = none ∧ j.racy = false ∧ 0 < j.l ∧ u.stores = [] ∧ u.lost = [] ∧ coreOpen s = true ∧ ((∀ w ∈ s.tier.pleat, w.la ≠ jobWork b tag)) ∧ (u.run = 1 ∨ u.run = 2) ∧ classHeld s b = false ∧ j.kind = 4 ∧ j.flags = 1 ∧ j.s % 8 = 0 ∧ j.l % 8 = 0 ∧ j.s + j.l ≤ 131072 :=
  ⟨{ State.reset with bobs := [(63, { Bob.init with run := 1, words := 10, pc := 5, text := [(5, 0)], jobs := [⟨15, 4, 1, 255, 8, 32, 7, 9, false, [], none, 0, false⟩], tags := [(15, ⟨1, 0, 0⟩)], scratch := [(1, 0x0807060504030201), (2, 0x100f0e0d0c0b0a09), (3, 7), (5, 9)] })] }, 63, 1, 2, 4, 15, 0, ⟨15, 4, 1, 255, 8, 32, 7, 9, false, [], none, 0, false⟩, by dsimp only; exact by decide +kernel⟩
theorem witness_HomeServesRequests_1 : ∃ (s : State) (la : Nat) (k : Nat) (c : Nat) (e : LcEntry) (r : HomeReq), homeQuiet s la ∧ lineCached s la k e ∧ s.home.dirEnt = [] ∧ r.la = la ∧ r.front = false ∧ r.who = .core c ∧ r.kind = .readCurrent :=
  ⟨wQuiet, wLa, lcBase wLa + 5, 2, wLine, { kind := .readCurrent, who := .core 2, la := wLa, data := 0, mask := 0, poison := false, master := 28, mval := 0 }, ⟨by unfold homeQuiet nothingWaits; decide +kernel, by unfold lineCached; decide +kernel, by decide +kernel⟩⟩
theorem witness_HomeServesRequests_2 : ∃ (s : State) (la : Nat) (k : Nat) (c : Nat) (e : LcEntry) (r : HomeReq), homeQuiet s la ∧ lineCached s la k e ∧ s.home.dirEnt = [] ∧ r.la = la ∧ r.front = false ∧ r.who = .core c ∧ r.kind = .readShared :=
  ⟨wQuiet, wLa, lcBase wLa + 5, 2, wLine, { kind := .readShared, who := .core 2, la := wLa, data := 0, mask := 0, poison := false, master := 28, mval := 0 }, ⟨by unfold homeQuiet nothingWaits; decide +kernel, by unfold lineCached; decide +kernel, by decide +kernel⟩⟩
theorem witness_HomeServesRequests_3 : ∃ (s : State) (la : Nat) (k : Nat) (c : Nat) (e : LcEntry) (r : HomeReq), homeQuiet s la ∧ lineCached s la k e ∧ s.home.dirEnt = [] ∧ r.la = la ∧ r.front = false ∧ r.who = .core c ∧ la < 2 ^ 47 ∧ r.kind = .readExclusive :=
  ⟨wQuiet, wLa, lcBase wLa + 5, 2, wLine, { kind := .readExclusive, who := .core 2, la := wLa, data := 0, mask := 0, poison := false, master := 28, mval := 0 }, ⟨by unfold homeQuiet nothingWaits; decide +kernel, by unfold lineCached; decide +kernel, by decide +kernel⟩⟩
theorem witness_HomeServesRequests_4 : ∃ (s : State) (la : Nat) (k : Nat) (c : Nat) (e : LcEntry) (r : HomeReq), homeQuiet s la ∧ lineCached s la k e ∧ s.home.dirEnt = [] ∧ r.la = la ∧ r.front = false ∧ r.who = .core c ∧ 2 ^ 47 ≤ la ∧ (r.kind = .readCurrent ∨ r.kind = .readShared) :=
  ⟨wQuietG, wGl, lcBase wGl + 5, 2, wGLine, { kind := .readCurrent, who := .core 2, la := wGl, data := 0, mask := 0, poison := false, master := 28, mval := 0 }, ⟨by unfold homeQuiet nothingWaits; decide +kernel, by unfold lineCached; decide +kernel, by decide +kernel⟩⟩
theorem witness_HomeServesRequests_5 : ∃ (s : State) (la : Nat) (k : Nat) (c : Nat) (e : LcEntry) (r : HomeReq), ∃ ch, homeQuiet s la ∧ lineCached s la k e ∧ s.home.dirEnt = [] ∧ r.la = la ∧ r.front = false ∧ r.who = .core c ∧ s.cstate ch ≠ csRETRAINING ∧ r.kind = .readCurrent :=
  ⟨wQuiet, wLa, lcBase wLa + 5, 2, wLine, { kind := .readCurrent, who := .core 2, la := wLa, data := 0, mask := 0, poison := false, master := 28, mval := 0 }, 3, ⟨by unfold homeQuiet nothingWaits; decide +kernel, by unfold lineCached; decide +kernel, by decide +kernel⟩⟩
theorem witness_HomeServesRequests_6 : ∃ (s : State) (la : Nat) (k : Nat) (c : Nat) (e : LcEntry) (r : HomeReq), ∃ ds, homeQuiet s la ∧ lineCached s la k e ∧ s.home.dirEnt = [] ∧ r.la = la ∧ r.front = false ∧ r.who = .core c ∧ la < 2 ^ 47 ∧ r.kind = .write ∧ r.mask = 2 ^ 64 - 1 ∧ descOf s (la / 4096) = some ds ∧ dState ds = stHOT ∧ writeRefusal s (la / 4096) ds = none :=
  ⟨wQuiet, wLa, lcBase wLa + 5, 2, wLine, { kind := .write, who := .core 2, la := wLa, data := 0x99, mask := 2 ^ 64 - 1, poison := false, master := 28, mval := 0 }, wDesc, ⟨by unfold homeQuiet nothingWaits; decide +kernel, by unfold lineCached; decide +kernel, by decide +kernel⟩⟩
theorem witness_HomeServesRequests_7 : ∃ (s : State) (la : Nat) (k : Nat) (p : Nat) (tag : Nat) (e : LcEntry) (r : HomeReq), homeQuiet s la ∧ lineCached s la k e ∧ p < 16 ∧ la < 2 ^ 47 ∧ portBI s p = true ∧ r.la = la ∧ r.who = .port p tag (s.port p).gen ∧ (s.port p).dirGen ≤ (s.port p).gen ∧ s.home.toHome = [r] ∧ ((∃ q ∈ (s.port p).trk, q.tag = tag)) ∧ s.home.dirEnt = [] ∧ r.kind = .readShared :=
  ⟨{ wBI with home := { wBI.home with toHome := [{ kind := .readShared, who := .port 15 5 0, la := wLa, data := 0, mask := 0, poison := false, master := 28, mval := 0 }] } }, wLa, lcBase wLa + 5, 15, 5, wLine, { kind := .readShared, who := .port 15 5 0, la := wLa, data := 0, mask := 0, poison := false, master := 28, mval := 0 }, ⟨by unfold homeQuiet nothingWaits; decide +kernel, by unfold lineCached; decide +kernel, by decide +kernel⟩⟩
theorem witness_HomeServesRequests_8 : ∃ (s : State) (la : Nat) (k : Nat) (p : Nat) (tag : Nat) (e : LcEntry) (r : HomeReq), homeQuiet s la ∧ lineCached s la k e ∧ p < 16 ∧ la < 2 ^ 47 ∧ portBI s p = true ∧ r.la = la ∧ r.who = .port p tag (s.port p).gen ∧ (s.port p).dirGen ≤ (s.port p).gen ∧ s.home.toHome = [r] ∧ ((∃ q ∈ (s.port p).trk, q.tag = tag)) ∧ s.home.dirEnt = [] ∧ r.kind = .readExclusive :=
  ⟨{ wBI with home := { wBI.home with toHome := [{ kind := .readExclusive, who := .port 15 5 0, la := wLa, data := 0, mask := 0, poison := false, master := 28, mval := 0 }] } }, wLa, lcBase wLa + 5, 15, 5, wLine, { kind := .readExclusive, who := .port 15 5 0, la := wLa, data := 0, mask := 0, poison := false, master := 28, mval := 0 }, ⟨by unfold homeQuiet nothingWaits; decide +kernel, by unfold lineCached; decide +kernel, by decide +kernel⟩⟩
theorem witness_HomeServesRequests_9 : ∃ (s : State) (la : Nat) (k : Nat) (p : Nat) (tag : Nat) (e : LcEntry) (r : HomeReq), homeQuiet s la ∧ lineCached s la k e ∧ p < 16 ∧ la < 2 ^ 47 ∧ portBI s p = true ∧ r.la = la ∧ r.who = .port p tag (s.port p).gen ∧ (s.port p).dirGen ≤ (s.port p).gen ∧ s.home.toHome = [r] ∧ ((∃ q ∈ (s.port p).trk, q.tag = tag)) ∧ s.home.dirEnt = [] ∧ r.kind = .readCurrent :=
  ⟨{ wBI with home := { wBI.home with toHome := [{ kind := .readCurrent, who := .port 15 5 0, la := wLa, data := 0, mask := 0, poison := false, master := 28, mval := 0 }] } }, wLa, lcBase wLa + 5, 15, 5, wLine, { kind := .readCurrent, who := .port 15 5 0, la := wLa, data := 0, mask := 0, poison := false, master := 28, mval := 0 }, ⟨by unfold homeQuiet nothingWaits; decide +kernel, by unfold lineCached; decide +kernel, by decide +kernel⟩⟩
theorem witness_HomeServesRequests_10 : ∃ (s : State) (la : Nat) (k : Nat) (p : Nat) (tag : Nat) (e : LcEntry) (r : HomeReq), ∃ x ds, homeQuiet s la ∧ lineCached s la k e ∧ onlyHolder s la x ∧ p < 16 ∧ la < 2 ^ 47 ∧ portBI s p = true ∧ r.la = la ∧ r.who = .port p tag (s.port p).gen ∧ (s.port p).dirGen ≤ (s.port p).gen ∧ s.home.toHome = [r] ∧ ((∃ q ∈ (s.port p).trk, q.tag = tag)) ∧ x.sharers = 2 ^ p ∧ x.state = 2 ∧ x.owner = p ∧ r.kind = .writeBack ∧ r.mval = 0 ∧ r.mask = 2 ^ 64 - 1 ∧ r.poison = false ∧ descOf s (la / 4096) = some ds ∧ dState ds = stHOT :=
  ⟨{ wBI with home := { wBI.home with toHome := [{ kind := .writeBack, who := .port 15 5 0, la := wLa, data := 0x99, mask := 2 ^ 64 - 1, poison := false, master := 28, mval := 0 }], dirEnt := [(wEnt, some ⟨2, 2 ^ 15, 15, wTag, 0⟩)] } }, wLa, lcBase wLa + 5, 15, 5, wLine, { kind := .writeBack, who := .port 15 5 0, la := wLa, data := 0x99, mask := 2 ^ 64 - 1, poison := false, master := 28, mval := 0 }, ⟨2, 2 ^ 15, 15, wTag, 0⟩, wDesc, ⟨by unfold homeQuiet nothingWaits; decide +kernel, by unfold lineCached; decide +kernel, ⟨_, rfl, by decide +kernel⟩, by decide +kernel⟩⟩
theorem witness_HomeServesRequests_11 : ∃ (s : State) (la : Nat) (k : Nat) (p : Nat) (tag : Nat) (e : LcEntry) (r : HomeReq), ∃ x, homeQuiet s la ∧ lineCached s la k e ∧ onlyHolder s la x ∧ p < 16 ∧ la < 2 ^ 47 ∧ portBI s p = true ∧ r.la = la ∧ r.who = .port p tag (s.port p).gen ∧ (s.port p).dirGen ≤ (s.port p).gen ∧ s.home.toHome = [r] ∧ ((∃ q ∈ (s.port p).trk, q.tag = tag)) ∧ x.sharers = 2 ^ p ∧ x.state = 1 ∧ r.kind = .cleanEvict :=
  ⟨{ wBI with home := { wBI.home with toHome := [{ kind := .cleanEvict, who := .port 15 5 0, la := wLa, data := 0, mask := 0, poison := false, master := 28, mval := 0 }], dirEnt := [(wEnt, some ⟨1, 2 ^ 15, 0, wTag, 0⟩)] } }, wLa, lcBase wLa + 5, 15, 5, wLine, { kind := .cleanEvict, who := .port 15 5 0, la := wLa, data := 0, mask := 0, poison := false, master := 28, mval := 0 }, ⟨1, 2 ^ 15, 0, wTag, 0⟩, ⟨by unfold homeQuiet nothingWaits; decide +kernel, by unfold lineCached; decide +kernel, ⟨_, rfl, by decide +kernel⟩, by decide +kernel⟩⟩
theorem witness_HomeServesRequests_12 : ∃ (s : State) (la : Nat) (p : Nat) (kind : Nat) (born : Nat) (x : DirEntry), nothingWaits s ∧ onlyHolder s la x ∧ p < 16 ∧ la < 2 ^ 47 ∧ s.home.evicting = [] ∧ x.sharers = 2 ^ p ∧ (x.state = 1 ∨ x.state = 2 ∧ x.owner = p) ∧ s.home.recalls = [⟨la, p, p, kind, false, false, true, false, born⟩] ∧ kind = 0 :=
  ⟨{ wBI with home := { wBI.home with dirEnt := [(wEnt, some ⟨1, 2 ^ 15, 0, wTag, 0⟩)], recalls := [⟨wLa, 15, 15, 0, false, false, true, false, 0⟩] } }, wLa, 15, 0, 0, ⟨1, 2 ^ 15, 0, wTag, 0⟩, ⟨by unfold nothingWaits; decide +kernel, ⟨_, rfl, by decide +kernel⟩, by decide +kernel⟩⟩
theorem witness_HomeServesRequests_13 : ∃ (s : State) (la : Nat) (p : Nat) (kind : Nat) (born : Nat) (x : DirEntry), nothingWaits s ∧ onlyHolder s la x ∧ p < 16 ∧ la < 2 ^ 47 ∧ s.home.evicting = [] ∧ x.sharers = 2 ^ p ∧ (x.state = 1 ∨ x.state = 2 ∧ x.owner = p) ∧ s.home.recalls = [⟨la, p, p, kind, false, false, true, false, born⟩] ∧ x.state = 1 :=
  ⟨{ wBI with home := { wBI.home with dirEnt := [(wEnt, some ⟨1, 2 ^ 15, 0, wTag, 0⟩)], recalls := [⟨wLa, 15, 15, 0, false, false, true, false, 0⟩] } }, wLa, 15, 0, 0, ⟨1, 2 ^ 15, 0, wTag, 0⟩, ⟨by unfold nothingWaits; decide +kernel, ⟨_, rfl, by decide +kernel⟩, by decide +kernel⟩⟩
theorem witness_WriteBacksAndRangeRecall_1 : ∃ (s : State) (la : Nat) (k : Nat) (e : LcEntry) (d : Desc), let i := la / 64 % 64; let m := d.toNat / 2 ^ (96 + 6 * i) % 64; nothingWaits s ∧ coreOpen s = true ∧ s.tier.promos = [] ∧ la % 64 = 0 ∧ la < 2 ^ 47 ∧ la / 4096 < pagesL s ∧ lcFind s la = some (k, e) ∧ copyFind s la = none ∧ descOf s (la / 4096) = some d ∧ busyOf s (la / 4096) = false ∧ dState d = stHOT ∧ s.cstate (dChan d) = csIN_SERVICE ∧ slotLive s (dKreg d) (dEpoch d) = true ∧ writeBlocked s (la / 4096) d = false ∧ s.fget TIR_CFG F.TIR_CFG_ACC_WB = 0 ∧ (dcCopies s (dcCopyBase (la / 4096))).length ≤ 2 ∧ (dcFreeWay s (dcCopyBase (la / 4096)) 16 0).isSome = true ∧ e.st = .dirty ∧ m < 63 :=
  ⟨{ wQuiet with tier := { wQuiet.tier with lc := [(lcBase wLa + 5, some { wLine with st := .dirty })] } }, wLa, lcBase wLa + 5, { wLine with st := .dirty }, wDesc, by dsimp only; exact ⟨by unfold nothingWaits; decide +kernel, by decide +kernel⟩⟩
theorem witness_WriteBacksAndRangeRecall_2 : ∃ (s : State) (la : Nat) (k : Nat) (e : LcEntry) (d : Desc), let i := la / 64 % 64; let m := d.toNat / 2 ^ (96 + 6 * i) % 64; nothingWaits s ∧ coreOpen s = true ∧ s.tier.promos = [] ∧ la % 64 = 0 ∧ la < 2 ^ 47 ∧ la / 4096 < pagesL s ∧ lcFind s la = some (k, e) ∧ copyFind s la = none ∧ descOf s (la / 4096) = some d ∧ busyOf s (la / 4096) = false ∧ dState d = stHOT ∧ s.cstate (dChan d) = csIN_SERVICE ∧ slotLive s (dKreg d) (dEpoch d) = true ∧ writeBlocked s (la / 4096) d = false ∧ s.fget TIR_CFG F.TIR_CFG_ACC_WB = 0 ∧ (dcCopies s (dcCopyBase (la / 4096))).length ≤ 2 ∧ (dcFreeWay s (dcCopyBase (la / 4096)) 16 0).isSome = true ∧ e.st = .held ∧ m < 63 :=
  ⟨{ wQuiet with tier := { wQuiet.tier with lc := [(lcBase wLa + 5, some { wLine with st := .held })] } }, wLa, lcBase wLa + 5, { wLine with st := .held }, wDesc, by dsimp only; exact ⟨by unfold nothingWaits; decide +kernel, by decide +kernel⟩⟩
theorem witness_WriteBacksAndRangeRecall_3 : ∃ (s : State) (who : Who) (val : Word) (w : CtlWrite), admitted who DIR_RECALLCTL val s w ∧ fld w.act F.DIR_RECALLCTL_START = 1 ∧ s.fget DIR_RECALLCTL F.DIR_RECALLCTL_BUSY = 1 :=
  ⟨State.reset.fset DIR_RECALLCTL F.DIR_RECALLCTL_BUSY 1, .trusted 1, fv [(F.DIR_RECALLCTL_START, 1)], wr (.trusted 1) (DIR_RECALLCTL) (fv [(F.DIR_RECALLCTL_START, 1)]) (State.reset.fset DIR_RECALLCTL F.DIR_RECALLCTL_BUSY 1), ⟨admitted_of (by decide +kernel), by decide +kernel⟩⟩
theorem witness_WriteBacksAndRangeRecall_4 : ∃ (s : State) (who : Who) (val : Word) (w : CtlWrite), admitted who DIR_RECALLCTL val s w ∧ fld w.act F.DIR_RECALLCTL_START = 1 ∧ s.fget DIR_RECALLCTL F.DIR_RECALLCTL_BUSY = 0 ∧ s.home.dirEnt = [] :=
  ⟨State.reset, .trusted 1, fv [(F.DIR_RECALLCTL_START, 1)], wr (.trusted 1) (DIR_RECALLCTL) (fv [(F.DIR_RECALLCTL_START, 1)]) (State.reset), ⟨admitted_of (by decide +kernel), by decide +kernel⟩⟩
theorem witness_WriteBacksAndRangeRecall_5 : ∃ (s : State), s.fget DIR_RECALLCTL F.DIR_RECALLCTL_BUSY = 1 ∧ s.home.recallLines = [] :=
  ⟨State.reset.fset DIR_RECALLCTL F.DIR_RECALLCTL_BUSY 1, by decide +kernel⟩
theorem witness_PoisonCommandsGoThroughHome_3 : ∃ (s : State) (p : Nat) (no : Nat) (op : Nat) (la : Nat) (k : Nat) (e : LcEntry) (r : HomeReq), homeQuiet s la ∧ lineCached s la k e ∧ ((∃ ds, descOf s (la / 4096) = some ds ∧ dState ds = stHOT ∧ writeRefusal s (la / 4096) ds = none)) ∧ p < 16 ∧ r.who = .dev (64 + p + 16 * no) ∧ (s.port p).mboxRun = some (op, no) ∧ la < 2 ^ 47 ∧ s.home.dirEnt = [] ∧ r.la = la ∧ r.kind = .write ∧ r.mask = 2 ^ 64 - 1 ∧ s.home.toHome = [r] :=
  ⟨{ wQuiet with ports := [(15, { Port.init with mboxRun := some (17153, 9) })], home := { wQuiet.home with toHome := [({ kind := .write, who := .dev (64 + 15 + 16 * 9), la := wLa, data := 0x99, mask := 2 ^ 64 - 1, poison := true, master := 28, mval := 0 } : HomeReq)] } }, 15, 9, 17153, wLa, lcBase wLa + 5, wLine, ({ kind := .write, who := .dev (64 + 15 + 16 * 9), la := wLa, data := 0x99, mask := 2 ^ 64 - 1, poison := true, master := 28, mval := 0 } : HomeReq), ⟨by unfold homeQuiet nothingWaits; decide +kernel, by unfold lineCached; decide +kernel, ⟨wDesc, by decide +kernel, by decide +kernel, by decide +kernel⟩, by decide +kernel⟩⟩
theorem witness_DescriptorCacheFlushAndPleat_1 : ∃ (s : State) (page : Nat), nothingWaits s ∧ page < pagesL s ∧ page < 2 ^ 35 ∧ dcFind s page = none ∧ (dcFreeWay s (dcBase page) 16 0).isSome = true ∧ coreOpen s = true :=
  ⟨{ wMem with tier := { wMem.tier with dc := [(dcBase 3, some ⟨3, wDesc, false, false, 0, false⟩)] } }, 4, ⟨by unfold nothingWaits; decide +kernel, by decide +kernel⟩⟩
theorem witness_DescriptorCacheFlushAndPleat_2 : ∃ (s : State) (page : Nat), nothingWaits s ∧ ((∀ w < 16, ∃ e, dcAt s (dcBase page + w) = some e ∧ dcFind s e.page = some (w, e) ∧ dcBase e.page = dcBase page ∧ e.busy = false ∧ e.page < 2 ^ 35)) ∧ coreOpen s = true ∧ s.home.dirEnt = [] :=
  ⟨wFullSet, 0, ⟨by unfold nothingWaits; decide +kernel, fun w hw => ⟨⟨wPg w, wDesc, false, false, w + 3, false⟩, by revert w; decide +kernel⟩, by decide +kernel⟩⟩
theorem witness_DescriptorCacheFlushAndPleat_3 : ∃ (s : State) (who : Who) (val : Word) (w : CtlWrite), admitted who TIR_FLUSHCTL val s w ∧ fld w.act F.TIR_FLUSHCTL_START = 1 ∧ s.fget TIR_FLUSHCTL F.TIR_FLUSHCTL_BUSY = 1 :=
  ⟨State.reset.fset TIR_FLUSHCTL F.TIR_FLUSHCTL_BUSY 1, .trusted 1, fv [(F.TIR_FLUSHCTL_START, 1)], wr (.trusted 1) (TIR_FLUSHCTL) (fv [(F.TIR_FLUSHCTL_START, 1)]) (State.reset.fset TIR_FLUSHCTL F.TIR_FLUSHCTL_BUSY 1), ⟨admitted_of (by decide +kernel), by decide +kernel⟩⟩
theorem witness_DescriptorCacheFlushAndPleat_4 : ∃ (s : State) (who : Who) (val : Word) (w : CtlWrite), admitted who TIR_FLUSHCTL val s w ∧ fld w.act F.TIR_FLUSHCTL_START = 1 ∧ s.fget TIR_FLUSHCTL F.TIR_FLUSHCTL_BUSY = 0 ∧ s.tier.lc = [] :=
  ⟨State.reset, .trusted 1, fv [(F.TIR_FLUSHCTL_START, 1)], wr (.trusted 1) (TIR_FLUSHCTL) (fv [(F.TIR_FLUSHCTL_START, 1)]) (State.reset), ⟨admitted_of (by decide +kernel), by decide +kernel⟩⟩
theorem witness_DescriptorCacheFlushAndPleat_5 : ∃ (s : State), nothingWaits s ∧ s.fget TIR_FLUSHCTL F.TIR_FLUSHCTL_BUSY = 1 ∧ s.tier.flushWait = [] ∧ coreOpen s = true :=
  ⟨{ State.reset.fset TIR_FLUSHCTL F.TIR_FLUSHCTL_BUSY 1 with tier := { State.reset.tier with flushBad := true } }, ⟨by unfold nothingWaits; decide +kernel, by decide +kernel⟩⟩
theorem witness_DescriptorCacheFlushAndPleat_6 : ∃ (s : State) (w : PleatWork), (w.cls ≠ 2 ∨ nothingWaits s) ∧ 1 ≤ w.cls ∧ w.cls ≤ 4 ∧ w.granted = false ∧ w.failed = false ∧ w.lanes = 0 ∧ 0 < w.need ∧ w.need ≤ 8 ∧ coreOpen s = true ∧ s.tier.pleat = [w] :=
  ⟨{ State.reset with tier := { State.reset.tier with pleat := [⟨3, 4, 512, 1, 0, false, false, false⟩] } }, ⟨3, 4, 512, 1, 0, false, false, false⟩, ⟨by unfold nothingWaits; decide +kernel, by decide +kernel⟩⟩
theorem witness_DescriptorCacheFlushAndPleat_7 : ∃ (s : State) (w : PleatWork), 1 ≤ w.cls ∧ w.cls ≤ 4 ∧ w.granted = false ∧ w.failed = false ∧ w.lanes = 0 ∧ 0 < w.need ∧ w.need ≤ 8 ∧ coreOpen s = true ∧ ((∀ x ∈ s.tier.pleat, 0 < x.need)) ∧ 16 ≤ lanesBusy s w.unit :=
  ⟨{ State.reset with tier := { State.reset.tier with pleat := List.replicate 16 ⟨3, 1, 0, 1, 1, false, true, false⟩ ++ [⟨3, 4, 512, 1, 0, false, false, false⟩] } }, ⟨3, 4, 512, 1, 0, false, false, false⟩, by decide +kernel⟩
theorem witness_ColdLogKeepsParity_1 : ∃ (s : State) (g : Nat) (o : OpenStripe), g < 2 ∧ s.tier.stripes = [o] ∧ o.group = g ∧ o.idx = headStripe s g ∧ o.closed = false ∧ 0 < o.fill ∧ 0 < headSect s g ∧ headSect s g < 704 ∧ 0 < stripesOf s g ∧ stripesOf s g ≤ 2 ^ 28 ∧ coreOpen s = true :=
  ⟨{ wMem.sets [(TIR_LOGHEAD 0, F.TIR_LOGHEAD_STRIPE, 13), (TIR_LOGHEAD 0, F.TIR_LOGHEAD_SECT, 66)] with tier := { wMem.tier with stripes := [wStr] } }, 0, wStr, by decide +kernel⟩
theorem witness_ColdLogKeepsParity_2 : ∃ (s : State) (g : Nat) (o : OpenStripe), nothingWaits s ∧ g < 2 ∧ s.tier.stripes = [o] ∧ o.group = g ∧ o.closed = true ∧ coreOpen s = true ∧ ((∀ c < 12, s.cstate (12 * g + c) = csIN_SERVICE)) :=
  ⟨{ wMem with tier := { wMem.tier with stripes := [{ wStr with closed := true }] }, dram := { wMem.dram with lines := [(5, 7)], poison := [(((12 * 0 + 1) * 2 ^ 28 + (coldBase wMem 0 + 13)) * 64 + 4, true)] } }, 0, { wStr with closed := true }, ⟨by unfold nothingWaits; decide +kernel, by decide +kernel⟩⟩
theorem witness_ColdLogKeepsParity_3 : ∃ (s : State) (o : PageOp) (d : Desc), nothingWaits s ∧ s.tier.ops = [o] ∧ s.tier.stripes = [] ∧ o.kind = 0 ∧ o.merged = [] ∧ ((∀ x ∈ s.tier.lc, ∀ e, x.2 = some e → e.st = .clean)) ∧ descOf s o.lpn = some d ∧ dHot d = true ∧ coreOpen s = true ∧ (s.bob o.bob).run = 1 ∧ (s.bob o.bob).opRd = some o.rd ∧ (s.bob o.bob).pc + 1 < (s.bob o.bob).words ∧ o.failed = false :=
  ⟨{ wQuiet with tier := { wQuiet.tier with ops := [wOp] }, bobs := [(63, { Bob.init with run := 1, words := 10, opRd := some 4, g := [(4, 9), (5, 6)] })], keys := { wQuiet.keys with slots := [(0, ⟨0x1234567, 3, 0⟩)] } }, wOp, wDesc, ⟨by unfold nothingWaits; decide +kernel, by decide +kernel⟩⟩
theorem witness_ColdLogKeepsParity_4 : ∃ (s : State) (o : PageOp) (d : Desc), nothingWaits s ∧ s.tier.ops = [o] ∧ s.tier.stripes = [] ∧ o.kind = 0 ∧ o.merged = [] ∧ ((∀ x ∈ s.tier.lc, ∀ e, x.2 = some e → e.st = .clean)) ∧ descOf s o.lpn = some d ∧ dHot d = true ∧ coreOpen s = true ∧ (s.bob o.bob).run = 1 ∧ (s.bob o.bob).opRd = some o.rd ∧ (s.bob o.bob).pc + 1 < (s.bob o.bob).words ∧ o.failed = true :=
  ⟨{ wQuiet with tier := { wQuiet.tier with ops := [{ wOp with failed := true }] }, bobs := [(63, { Bob.init with run := 1, words := 10, opRd := some 4, g := [(4, 9), (5, 6)] })], keys := { wQuiet.keys with slots := [(0, ⟨0x1234567, 3, 0⟩)] } }, { wOp with failed := true }, wDesc, ⟨by unfold nothingWaits; decide +kernel, by decide +kernel⟩⟩
theorem witness_ColdLogKeepsParity_5 : ∃ (s : State) (who : Who) (g : Nat) (val : Word) (w : CtlWrite), g < 2 ∧ admitted who (TIR_LOGTAIL g) val s w :=
  ⟨State.reset, .trusted 1, 1, fv [(F.TIR_LOGTAIL_STRIPE, 0)], wr (.trusted 1) (TIR_LOGTAIL 1) (fv [(F.TIR_LOGTAIL_STRIPE, 0)]) (State.reset), ⟨by decide +kernel, admitted_of (by decide +kernel)⟩⟩
theorem witness_ColdLogKeepsParity_6 : ∃ (s : State) (who : Who) (n : Nat) (val : Word) (w : CtlWrite), n < 64 ∧ admitted who (TIR_GRBASE n) val s w :=
  ⟨State.reset, .trusted 1, 63, fv [(F.TIR_GRBASE_GROUP, 2)], wr (.trusted 1) (TIR_GRBASE 63) (fv [(F.TIR_GRBASE_GROUP, 2)]) (State.reset), ⟨by decide +kernel, admitted_of (by decide +kernel)⟩⟩
theorem witness_KeySlotsAndSweep_1 : ∃ (s : State) (who : Who) (k : Nat) (val : Word) (w : CtlWrite), k < 32 ∧ admitted who (KEY_RGN k) val s w :=
  ⟨State.reset.sets [(KEY_RGN 3, F.KEY_RGN_BASE, 10), (KEY_RGN 3, F.KEY_RGN_LIMIT, 20), (KEY_RGN 3, F.KEY_RGN_VALID, 1)], .trusted 1, 0, fv [(F.KEY_RGN_BASE, 1), (F.KEY_RGN_LIMIT, 2), (F.KEY_RGN_VALID, 0)], wr (.trusted 1) (KEY_RGN 0) (fv [(F.KEY_RGN_BASE, 1), (F.KEY_RGN_LIMIT, 2), (F.KEY_RGN_VALID, 0)]) (State.reset.sets [(KEY_RGN 3, F.KEY_RGN_BASE, 10), (KEY_RGN 3, F.KEY_RGN_LIMIT, 20), (KEY_RGN 3, F.KEY_RGN_VALID, 1)]), ⟨by decide +kernel, admitted_of (by decide +kernel)⟩⟩
theorem witness_KeySlotsAndSweep_2 : ∃ (s : State) (who : Who) (k : Nat) (val : Word) (w : CtlWrite), let e := fld w.act F.KEY_RCTL_SLOT; let cur := s.fget (KEY_RCTL k) F.KEY_RCTL_CUR; let nx := fld w.new F.KEY_RCTL_CUR; admitted who (KEY_RCTL k) val s w ∧ nothingWaits s ∧ k < 32 ∧ fld w.act F.KEY_RCTL_ERASE = 0 ∧ fld w.act F.KEY_RCTL_LOAD = 1 ∧ nx = cur ∧ (s.slot k e).inuse ≠ 0 :=
  ⟨({ State.reset.sets [(KEY_RCTL 31, F.KEY_RCTL_LIVE, 1), (KEY_RCTL 31, F.KEY_RCTL_NEWER, 0), (KEY_RCTL 31, F.KEY_RCTL_CUR, 0)] with keys := { State.reset.keys with slots := [(62, ⟨5, 2, 7⟩), (63, ⟨6, 0, 9⟩)], kmat := [(0, 3), (11, 4)] } }), .trusted 1, 31, fv [(F.KEY_RCTL_LOAD, 1)], wr (.trusted 1) (KEY_RCTL 31) (fv [(F.KEY_RCTL_LOAD, 1)]) (({ State.reset.sets [(KEY_RCTL 31, F.KEY_RCTL_LIVE, 1), (KEY_RCTL 31, F.KEY_RCTL_NEWER, 0), (KEY_RCTL 31, F.KEY_RCTL_CUR, 0)] with keys := { State.reset.keys with slots := [(62, ⟨5, 2, 7⟩), (63, ⟨6, 0, 9⟩)], kmat := [(0, 3), (11, 4)] } })), by dsimp only; exact ⟨admitted_of (by decide +kernel), by unfold nothingWaits; decide +kernel, by decide +kernel⟩⟩
theorem witness_KeySlotsAndSweep_3 : ∃ (s : State) (who : Who) (k : Nat) (val : Word) (w : CtlWrite), let e := fld w.act F.KEY_RCTL_SLOT; let cur := s.fget (KEY_RCTL k) F.KEY_RCTL_CUR; let nx := fld w.new F.KEY_RCTL_CUR; admitted who (KEY_RCTL k) val s w ∧ nothingWaits s ∧ k < 32 ∧ fld w.act F.KEY_RCTL_ERASE = 0 ∧ fld w.act F.KEY_RCTL_LOAD = 1 ∧ nx = cur ∧ (s.slot k e).inuse = 0 ∧ fld w.act F.KEY_RCTL_GEN = 0 :=
  ⟨({ State.reset.sets [(KEY_RCTL 31, F.KEY_RCTL_LIVE, 1), (KEY_RCTL 31, F.KEY_RCTL_NEWER, 0), (KEY_RCTL 31, F.KEY_RCTL_CUR, 0)] with keys := { State.reset.keys with slots := [(62, ⟨5, 2, 7⟩), (63, ⟨6, 0, 9⟩)], kmat := [(0, 3), (11, 4)] } }), .trusted 1, 31, fv [(F.KEY_RCTL_LOAD, 1), (F.KEY_RCTL_SLOT, 1)], wr (.trusted 1) (KEY_RCTL 31) (fv [(F.KEY_RCTL_LOAD, 1), (F.KEY_RCTL_SLOT, 1)]) (({ State.reset.sets [(KEY_RCTL 31, F.KEY_RCTL_LIVE, 1), (KEY_RCTL 31, F.KEY_RCTL_NEWER, 0), (KEY_RCTL 31, F.KEY_RCTL_CUR, 0)] with keys := { State.reset.keys with slots := [(62, ⟨5, 2, 7⟩), (63, ⟨6, 0, 9⟩)], kmat := [(0, 3), (11, 4)] } })), by dsimp only; exact ⟨admitted_of (by decide +kernel), by unfold nothingWaits; decide +kernel, by decide +kernel⟩⟩
theorem witness_KeySlotsAndSweep_4 : ∃ (s : State) (who : Who) (k : Nat) (val : Word) (w : CtlWrite), admitted who (KEY_RCTL k) val s w ∧ nothingWaits s ∧ k < 32 ∧ fld w.act F.KEY_RCTL_ERASE = 0 ∧ fld w.act F.KEY_RCTL_LOAD = 0 :=
  ⟨({ State.reset.sets [(KEY_RCTL 31, F.KEY_RCTL_LIVE, 1), (KEY_RCTL 31, F.KEY_RCTL_NEWER, 0), (KEY_RCTL 31, F.KEY_RCTL_CUR, 0)] with keys := { State.reset.keys with slots := [(62, ⟨5, 2, 7⟩), (63, ⟨6, 0, 9⟩)], kmat := [(0, 3), (11, 4)] } }), .trusted 1, 31, fv [(F.KEY_RCTL_CUR, 1)], wr (.trusted 1) (KEY_RCTL 31) (fv [(F.KEY_RCTL_CUR, 1)]) (({ State.reset.sets [(KEY_RCTL 31, F.KEY_RCTL_LIVE, 1), (KEY_RCTL 31, F.KEY_RCTL_NEWER, 0), (KEY_RCTL 31, F.KEY_RCTL_CUR, 0)] with keys := { State.reset.keys with slots := [(62, ⟨5, 2, 7⟩), (63, ⟨6, 0, 9⟩)], kmat := [(0, 3), (11, 4)] } })), ⟨admitted_of (by decide +kernel), by unfold nothingWaits; decide +kernel, by decide +kernel⟩⟩
theorem witness_KeySlotsAndSweep_5 : ∃ (s : State) (who : Who) (k : Nat) (val : Word) (w : CtlWrite), let cur := s.fget (KEY_RCTL k) F.KEY_RCTL_CUR; let nx := fld w.new F.KEY_RCTL_CUR; admitted who (KEY_RCTL k) val s w ∧ nothingWaits s ∧ k < 32 ∧ fld w.act F.KEY_RCTL_ERASE = 1 ∧ fld w.act F.KEY_RCTL_LOAD = 0 ∧ nx = cur :=
  ⟨({ State.reset.sets [(KEY_RCTL 31, F.KEY_RCTL_LIVE, 3), (KEY_RCTL 31, F.KEY_RCTL_NEWER, 1), (KEY_RCTL 31, F.KEY_RCTL_CUR, 0)] with keys := { State.reset.keys with slots := [(62, ⟨5, 2, 7⟩), (63, ⟨6, 0, 9⟩)], kmat := [(0, 3), (11, 4)] } }), .trusted 1, 31, fv [(F.KEY_RCTL_ERASE, 1)], wr (.trusted 1) (KEY_RCTL 31) (fv [(F.KEY_RCTL_ERASE, 1)]) (({ State.reset.sets [(KEY_RCTL 31, F.KEY_RCTL_LIVE, 3), (KEY_RCTL 31, F.KEY_RCTL_NEWER, 1), (KEY_RCTL 31, F.KEY_RCTL_CUR, 0)] with keys := { State.reset.keys with slots := [(62, ⟨5, 2, 7⟩), (63, ⟨6, 0, 9⟩)], kmat := [(0, 3), (11, 4)] } })), by dsimp only; exact ⟨admitted_of (by decide +kernel), by unfold nothingWaits; decide +kernel, by decide +kernel⟩⟩
theorem witness_KeySlotsAndSweep_6 : ∃ (s : State) (who : Who) (val : Word) (w : CtlWrite), let busy := s.fget KEY_SWEEPCTL F.KEY_SWEEPCTL_BUSY; admitted who KEY_SWEEPCTL val s w ∧ fld w.act F.KEY_SWEEPCTL_START = 1 ∧ fld w.act F.KEY_SWEEPCTL_STOP = 0 ∧ busy = 1 :=
  ⟨State.reset.fset KEY_SWEEPCTL F.KEY_SWEEPCTL_BUSY 1, .trusted 1, fv [(F.KEY_SWEEPCTL_START, 1)], wr (.trusted 1) (KEY_SWEEPCTL) (fv [(F.KEY_SWEEPCTL_START, 1)]) (State.reset.fset KEY_SWEEPCTL F.KEY_SWEEPCTL_BUSY 1), by dsimp only; exact ⟨admitted_of (by decide +kernel), by decide +kernel⟩⟩
theorem witness_KeySlotsAndSweep_7 : ∃ (s : State) (who : Who) (val : Word) (w : CtlWrite), let busy := s.fget KEY_SWEEPCTL F.KEY_SWEEPCTL_BUSY; admitted who KEY_SWEEPCTL val s w ∧ fld w.act F.KEY_SWEEPCTL_START = 1 ∧ fld w.act F.KEY_SWEEPCTL_STOP = 0 ∧ busy = 0 ∧ s.devLevel = 3 :=
  ⟨State.reset.fset FLT_STAT F.FLT_STAT_DEVLEVEL 3, .trusted 1, fv [(F.KEY_SWEEPCTL_START, 1)], wr (.trusted 1) (KEY_SWEEPCTL) (fv [(F.KEY_SWEEPCTL_START, 1)]) (State.reset.fset FLT_STAT F.FLT_STAT_DEVLEVEL 3), by dsimp only; exact ⟨admitted_of (by decide +kernel), by decide +kernel⟩⟩
theorem witness_KeySlotsAndSweep_8 : ∃ (s : State) (who : Who) (val : Word) (w : CtlWrite), let busy := s.fget KEY_SWEEPCTL F.KEY_SWEEPCTL_BUSY; admitted who KEY_SWEEPCTL val s w ∧ fld w.act F.KEY_SWEEPCTL_START = 1 ∧ fld w.act F.KEY_SWEEPCTL_STOP = 0 ∧ busy = 0 ∧ s.devLevel ≠ 3 :=
  ⟨State.reset, .trusted 1, fv [(F.KEY_SWEEPCTL_START, 1)], wr (.trusted 1) (KEY_SWEEPCTL) (fv [(F.KEY_SWEEPCTL_START, 1)]) (State.reset), by dsimp only; exact ⟨admitted_of (by decide +kernel), by decide +kernel⟩⟩
theorem witness_KeySlotsAndSweep_9 : ∃ (s : State) (who : Who) (val : Word) (w : CtlWrite), let busy := s.fget KEY_SWEEPCTL F.KEY_SWEEPCTL_BUSY; admitted who KEY_SWEEPCTL val s w ∧ fld w.act F.KEY_SWEEPCTL_START = 0 ∧ fld w.act F.KEY_SWEEPCTL_STOP = 1 ∧ busy = 1 :=
  ⟨State.reset.fset KEY_SWEEPCTL F.KEY_SWEEPCTL_BUSY 1, .trusted 1, fv [(F.KEY_SWEEPCTL_STOP, 1)], wr (.trusted 1) (KEY_SWEEPCTL) (fv [(F.KEY_SWEEPCTL_STOP, 1)]) (State.reset.fset KEY_SWEEPCTL F.KEY_SWEEPCTL_BUSY 1), by dsimp only; exact ⟨admitted_of (by decide +kernel), by decide +kernel⟩⟩
theorem witness_KeySlotsAndSweep_10 : ∃ (s : State) (d : Desc), let n := s.fget KEY_SWEEPBASE F.KEY_SWEEPBASE_LPN; nothingWaits s ∧ s.fget KEY_SWEEPCTL F.KEY_SWEEPCTL_BUSY = 1 ∧ s.devLevel ≠ 3 ∧ coreOpen s = true ∧ n ≤ s.fget KEY_SWEEPLIM F.KEY_SWEEPLIM_LPN ∧ n < pagesL s ∧ n + 1 < 2 ^ 35 ∧ descOf s n = some d ∧ canBusy s n = true ∧ dHot d = true ∧ (s.slot (dKreg d) (dEpoch d)).mfloor < 2 ^ 40 ∧ slotLive s (dKreg d) (dEpoch d) = true ∧ regionOf s (n * 4096) = dKreg d ∧ s.fget (KEY_RCTL (dKreg d)) F.KEY_RCTL_CUR = dEpoch d :=
  ⟨{ wQuiet.sets [(KEY_SWEEPCTL, F.KEY_SWEEPCTL_BUSY, 1), (KEY_SWEEPBASE, F.KEY_SWEEPBASE_LPN, 3), (KEY_SWEEPLIM, F.KEY_SWEEPLIM_LPN, 3)] with tier := wQuiet.tier }, wDesc, by dsimp only; exact ⟨by unfold nothingWaits; decide +kernel, by decide +kernel⟩⟩
theorem witness_KeySlotsAndSweep_11 : ∃ (s : State) (who : Who) (val : Word) (w : CtlWrite), admitted who KEY_LINKCTL val s w ∧ fld w.act F.KEY_LINKCTL_LOAD = 1 :=
  ⟨{ State.reset with keys := { State.reset.keys with kmat := [(0, 3), (4, 4)], link := [(61, some (1, 2))] } }, .trusted 1, fv [(F.KEY_LINKCTL_LOAD, 1), (F.KEY_LINKCTL_PORT, 15), (F.KEY_LINKCTL_DIR, 1), (F.KEY_LINKCTL_SLOT, 0)], wr (.trusted 1) (KEY_LINKCTL) (fv [(F.KEY_LINKCTL_LOAD, 1), (F.KEY_LINKCTL_PORT, 15), (F.KEY_LINKCTL_DIR, 1), (F.KEY_LINKCTL_SLOT, 0)]) ({ State.reset with keys := { State.reset.keys with kmat := [(0, 3), (4, 4)], link := [(61, some (1, 2))] } }), ⟨admitted_of (by decide +kernel), by decide +kernel⟩⟩
theorem witness_KeySlotsAndSweep_12 : ∃ (c : Nat), c < 24 :=
  ⟨23, by decide +kernel⟩
theorem witness_SpoolsTakeAndEndCommands_1 : ∃ (s : State) (who : Who) (q : Nat) (val : Word) (w : CtlWrite), admitted who (SPL_DOORBELL q) val s w ∧ q < 1024 ∧ s.fget PWR_CTL F.PWR_CTL_BUSY = 0 :=
  ⟨State.reset.sets [(SPL_CFG 1023, F.SPL_CFG_SQLOG, 4), (SPL_STAT 1023, F.SPL_STAT_STATE, 1), (SPL_PROGRESS 1023, F.SPL_PROGRESS_CONS, 0), (SPL_PROGRESS 1023, F.SPL_PROGRESS_CQDONE, 0), (SPL_DOORBELL 1023, F.SPL_DOORBELL_SQTAIL, 0)], .trusted 1, 1023, fv [(F.SPL_DOORBELL_SQTAIL, 5), (F.SPL_DOORBELL_CQHEAD, 0)], wr (.trusted 1) (SPL_DOORBELL 1023) (fv [(F.SPL_DOORBELL_SQTAIL, 5), (F.SPL_DOORBELL_CQHEAD, 0)]) (State.reset.sets [(SPL_CFG 1023, F.SPL_CFG_SQLOG, 4), (SPL_STAT 1023, F.SPL_STAT_STATE, 1), (SPL_PROGRESS 1023, F.SPL_PROGRESS_CONS, 0), (SPL_PROGRESS 1023, F.SPL_PROGRESS_CQDONE, 0), (SPL_DOORBELL 1023, F.SPL_DOORBELL_SQTAIL, 0)]), ⟨admitted_of (by decide +kernel), by decide +kernel⟩⟩
theorem witness_SpoolsTakeAndEndCommands_2 : ∃ (s : State) (q : Nat) (r : BobReply), let n := s.fget (SPL_PROGRESS q) F.SPL_PROGRESS_CONS; q < 1024 ∧ mayConsume s q = true ∧ r ∈ s.home.bobReplies ∧ r.bob = 128 + q ∧ r.slot = 0 ∧ ((∀ x ∈ s.home.bobReplies, x.bob = 128 + q → x.slot = 0 → x = r)) ∧ r.status = 0 ∧ (r.poison = true ∨ r.data.toNat % 2 ^ 32 ≠ n ∨ cmdStatus s q r.data = 0) ∧ (splState s q = 1 ∨ splState s q = 5) :=
  ⟨{ State.reset.sets [(SPL_CFG 1023, F.SPL_CFG_SQLOG, 4), (SPL_CFG 1023, F.SPL_CFG_EN, 1), (SPL_STAT 1023, F.SPL_STAT_STATE, 1), (SPL_DOORBELL 1023, F.SPL_DOORBELL_SQTAIL, 9), (SPL_PROGRESS 1023, F.SPL_PROGRESS_CONS, 7)] with home := { State.reset.home with bobReplies := [⟨1151, 0, 64, 12884901895, false, 0⟩] }, progs := [(3, ⟨true, 0, 0, 0, 0, 0, 0, 255, 0⟩)], spools := [(1023, { Spool.init with cmds := [⟨6, 0, 1, 2, none, 0, none, 0⟩] })] }, 1023, ⟨1151, 0, 64, 12884901895, false, 0⟩, by dsimp only; exact by decide +kernel⟩
theorem witness_SpoolsTakeAndEndCommands_3 : ∃ (s : State) (q : Nat) (r : BobReply), let n := s.fget (SPL_PROGRESS q) F.SPL_PROGRESS_CONS; q < 1024 ∧ mayConsume s q = true ∧ r ∈ s.home.bobReplies ∧ r.bob = 128 + q ∧ r.slot = 0 ∧ ((∀ x ∈ s.home.bobReplies, x.bob = 128 + q → x.slot = 0 → x = r)) ∧ r.status = 0 ∧ (r.poison = true ∨ r.data.toNat % 2 ^ 32 ≠ n ∨ cmdStatus s q r.data = 0) ∧ (splState s q = 2 ∨ splState s q = 3) :=
  ⟨{ State.reset.sets [(SPL_CFG 1023, F.SPL_CFG_SQLOG, 4), (SPL_CFG 1023, F.SPL_CFG_EN, 1), (SPL_STAT 1023, F.SPL_STAT_STATE, 2), (SPL_DOORBELL 1023, F.SPL_DOORBELL_SQTAIL, 9), (SPL_PROGRESS 1023, F.SPL_PROGRESS_CONS, 7)] with home := { State.reset.home with bobReplies := [⟨1151, 0, 64, 12884901895, false, 0⟩] }, progs := [(3, ⟨true, 0, 0, 0, 0, 0, 0, 255, 0⟩)], spools := [(1023, { Spool.init with cmds := [⟨6, 0, 1, 2, none, 0, none, 0⟩] })] }, 1023, ⟨1151, 0, 64, 12884901895, false, 0⟩, by dsimp only; exact by decide +kernel⟩
theorem witness_SpoolsTakeAndEndCommands_4 : ∃ (s : State) (who : Who) (q : Nat) (val : Word) (w : CtlWrite), let was := s.fget (SPL_CFG q) F.SPL_CFG_EN; admitted who (SPL_CFG q) val s w ∧ dropSlotRead s q = s ∧ q < 1024 ∧ (s.spool q).cmds = [] ∧ fld w.act F.SPL_CFG_RESET = 0 ∧ fld w.new F.SPL_CFG_EN = 1 ∧ was = 0 :=
  ⟨wMem.sets [(SPL_SQBASE 1023, F.SPL_SQBASE_LPN, 3), (SPL_CQBASE 1023, F.SPL_CQBASE_LPN, 4), (SPL_STAT 1023, F.SPL_STAT_STATE, 0)], .trusted 1, 1023, fv [(F.SPL_CFG_EN, 1), (F.SPL_CFG_SQLOG, 6)], wr (.trusted 1) (SPL_CFG 1023) (fv [(F.SPL_CFG_EN, 1), (F.SPL_CFG_SQLOG, 6)]) (wMem.sets [(SPL_SQBASE 1023, F.SPL_SQBASE_LPN, 3), (SPL_CQBASE 1023, F.SPL_CQBASE_LPN, 4), (SPL_STAT 1023, F.SPL_STAT_STATE, 0)]), by dsimp only; exact ⟨admitted_of (by decide +kernel), dropSlotRead_id (by decide +kernel), by decide +kernel⟩⟩
theorem witness_SpoolsTakeAndEndCommands_5 : ∃ (s : State) (who : Who) (q : Nat) (val : Word) (w : CtlWrite), let was := s.fget (SPL_CFG q) F.SPL_CFG_EN; let lg := fld w.new F.SPL_CFG_SQLOG; admitted who (SPL_CFG q) val s w ∧ dropSlotRead s q = s ∧ q < 1024 ∧ (s.spool q).cmds = [] ∧ fld w.act F.SPL_CFG_RESET = 1 ∧ fld w.new F.SPL_CFG_EN = was ∧ lg = s.fget (SPL_CFG q) F.SPL_CFG_SQLOG :=
  ⟨State.reset, .trusted 1, 1023, fv [(F.SPL_CFG_RESET, 1), (F.SPL_CFG_SQLOG, 4)], wr (.trusted 1) (SPL_CFG 1023) (fv [(F.SPL_CFG_RESET, 1), (F.SPL_CFG_SQLOG, 4)]) (State.reset), by dsimp only; exact ⟨admitted_of (by decide +kernel), dropSlotRead_id (by decide +kernel), by decide +kernel⟩⟩
theorem witness_SpoolsTakeAndEndCommands_6 : ∃ (s : State) (q : Nat), q < 1024 ∧ splState s q = 4 ∧ (s.spool q).cmds = [] ∧ (s.spool q).mbox = [] :=
  ⟨State.reset.sets [(SPL_CFG 1023, F.SPL_CFG_EN, 1), (SPL_STAT 1023, F.SPL_STAT_STATE, 4), (SPL_PROGRESS 1023, F.SPL_PROGRESS_CONS, 7)], 1023, by decide +kernel⟩
theorem witness_SpoolsTakeAndEndCommands_7 : ∃ (s : State) (who : Who) (q : Nat) (val : Word) (w : CtlWrite), let n := fld w.new F.SPL_ABORT_SEQ; let back := (s.fget (SPL_PROGRESS q) F.SPL_PROGRESS_CONS + 2 ^ 32 - n) % 2 ^ 32; admitted who (SPL_ABORT q) val s w ∧ q < 1024 ∧ fld w.act F.SPL_ABORT_GO = 1 ∧ s.fget (SPL_ABORT q) F.SPL_ABORT_BUSY = 0 ∧ (back = 0 ∨ 2 ^ 31 ≤ back) :=
  ⟨State.reset.sets [(SPL_CFG 1023, F.SPL_CFG_SQLOG, 4), (SPL_CFG 1023, F.SPL_CFG_EN, 1), (SPL_STAT 1023, F.SPL_STAT_STATE, 1), (SPL_DOORBELL 1023, F.SPL_DOORBELL_SQTAIL, 9), (SPL_PROGRESS 1023, F.SPL_PROGRESS_CONS, 7)], .trusted 1, 1023, fv [(F.SPL_ABORT_GO, 1), (F.SPL_ABORT_SEQ, 7)], wr (.trusted 1) (SPL_ABORT 1023) (fv [(F.SPL_ABORT_GO, 1), (F.SPL_ABORT_SEQ, 7)]) (State.reset.sets [(SPL_CFG 1023, F.SPL_CFG_SQLOG, 4), (SPL_CFG 1023, F.SPL_CFG_EN, 1), (SPL_STAT 1023, F.SPL_STAT_STATE, 1), (SPL_DOORBELL 1023, F.SPL_DOORBELL_SQTAIL, 9), (SPL_PROGRESS 1023, F.SPL_PROGRESS_CONS, 7)]), by dsimp only; exact ⟨admitted_of (by decide +kernel), by decide +kernel⟩⟩
theorem witness_SpoolsTakeAndEndCommands_8 : ∃ (s : State) (who : Who) (q : Nat) (val : Word) (w : CtlWrite), ∃ c b, let n := fld w.new F.SPL_ABORT_SEQ; let back := (s.fget (SPL_PROGRESS q) F.SPL_PROGRESS_CONS + 2 ^ 32 - n) % 2 ^ 32; admitted who (SPL_ABORT q) val s w ∧ q < 1024 ∧ fld w.act F.SPL_ABORT_GO = 1 ∧ s.fget (SPL_ABORT q) F.SPL_ABORT_BUSY = 0 ∧ 0 < back ∧ back < 2 ^ 31 ∧ back ≤ 2 ^ s.fget (SPL_CFG q) F.SPL_CFG_SQLOG ∧ (s.spool q).cmds = [c] ∧ c.n = n ∧ c.stage = 1 ∧ c.claim = none ∧ bobOf s q n = some b ∧ (s.bob b).run = 1 :=
  ⟨{ State.reset.sets [(SPL_CFG 1023, F.SPL_CFG_SQLOG, 4), (SPL_CFG 1023, F.SPL_CFG_EN, 1), (SPL_STAT 1023, F.SPL_STAT_STATE, 1), (SPL_DOORBELL 1023, F.SPL_DOORBELL_SQTAIL, 9), (SPL_PROGRESS 1023, F.SPL_PROGRESS_CONS, 7)] with spools := [(1023, { Spool.init with cmds := [⟨6, 0, 1, 2, none, 0, none, 0⟩] })], bobs := [(63, { Bob.init with run := 1, q := 1023, n := 6 }), (62, Bob.init)] }, .trusted 1, 1023, fv [(F.SPL_ABORT_GO, 1), (F.SPL_ABORT_SEQ, 6)], wr (.trusted 1) (SPL_ABORT 1023) (fv [(F.SPL_ABORT_GO, 1), (F.SPL_ABORT_SEQ, 6)]) ({ State.reset.sets [(SPL_CFG 1023, F.SPL_CFG_SQLOG, 4), (SPL_CFG 1023, F.SPL_CFG_EN, 1), (SPL_STAT 1023, F.SPL_STAT_STATE, 1), (SPL_DOORBELL 1023, F.SPL_DOORBELL_SQTAIL, 9), (SPL_PROGRESS 1023, F.SPL_PROGRESS_CONS, 7)] with spools := [(1023, { Spool.init with cmds := [⟨6, 0, 1, 2, none, 0, none, 0⟩] })], bobs := [(63, { Bob.init with run := 1, q := 1023, n := 6 }), (62, Bob.init)] }), ⟨6, 0, 1, 2, none, 0, none, 0⟩, 63, by dsimp only; exact ⟨admitted_of (by decide +kernel), by decide +kernel⟩⟩
theorem witness_SpoolsTakeAndEndCommands_9 : ∃ (s : State) (who : Who) (q : Nat) (val : Word) (w : CtlWrite), ∃ k, admitted who (SPL_CAP q k) val s w ∧ q < 1024 ∧ k < 17 :=
  ⟨State.reset, .trusted 1, 1023, 31, wr (.trusted 1) (SPL_CAP 1023 0) (31) (State.reset), 0, ⟨admitted_of (by decide +kernel), by decide +kernel⟩⟩
theorem witness_SpoolsTakeAndEndCommands_10 : ∃ (s : State) (who : Who) (q : Nat) (val : Word) (w : CtlWrite), q < 1024 ∧ admitted who (SPL_CQBASE q) val s w :=
  ⟨State.reset, .trusted 1, 1023, 77, wr (.trusted 1) (SPL_CQBASE 1023) (77) (State.reset), ⟨by decide +kernel, admitted_of (by decide +kernel)⟩⟩
theorem witness_SpoolsTakeAndEndCommands_11 : ∃ (s : State) (who : Who) (q : Nat) (val : Word) (w : CtlWrite), q < 1024 ∧ admitted who (SPL_SQBASE q) val s w :=
  ⟨State.reset, .trusted 1, 1023, 77, wr (.trusted 1) (SPL_SQBASE 1023) (77) (State.reset), ⟨by decide +kernel, admitted_of (by decide +kernel)⟩⟩
theorem witness_SpoolsTakeAndEndCommands_12 : ∃ (s : State) (who : Who) (b : Nat) (val : Word) (w : CtlWrite), admitted who (BOB_CFG b) val s w ∧ b < 64 ∧ bobTestDue s b = false :=
  ⟨State.reset.fset (BOB_STAT 63) F.BOB_STAT_STATE 0, .trusted 1, 63, fv [(F.BOB_CFG_DRAIN, 1)], wr (.trusted 1) (BOB_CFG 63) (fv [(F.BOB_CFG_DRAIN, 1)]) (State.reset.fset (BOB_STAT 63) F.BOB_STAT_STATE 0), ⟨admitted_of (by decide +kernel), by decide +kernel⟩⟩
theorem witness_SpoolsTakeAndEndCommands_13 : ∃ (s : State) (q : Nat), q < 1024 ∧ s.fget (SPL_IRQ q) F.SPL_IRQ_EN = 1 ∧ 0 < (s.spool q).unrep ∧ s.fget (SPL_IRQ q) F.SPL_IRQ_DELAY_US ≠ 0 :=
  ⟨{ State.reset.sets [(SPL_IRQ 1023, F.SPL_IRQ_EN, 1), (SPL_IRQ 1023, F.SPL_IRQ_DELAY_US, 5), (SPL_IRQ 1023, F.SPL_IRQ_VECTOR, 3), (SPL_CLASSINFO 1023, F.SPL_CLASSINFO_OWNER, 2), (SPL_CLASSINFO 1023, F.SPL_CLASSINFO_OWNERKIND, 0)] with spools := [(1023, { Spool.init with unrep := 4 })] }, 1023, by decide +kernel⟩
theorem witness_ProgramLaunchSetsTheState_1 : ∃ (s : State) (b : Nat) (c : Cmd), let u := s.bob b; let p := c.desc.toNat / 2 ^ 32 % 2 ^ 16; let ga := (s.prog p).addr; let bytes := (u.load.reverse.flatMap lineBytes).drop (ga % 64); let m := bytes.take (imgLen (bytes.take 64)); b < 64 ∧ coreOpen s = true ∧ s.devLevel ≠ 3 ∧ gated s (68 + b) = false ∧ (s.bob b).run = 3 ∧ bobCmd s b = some c ∧ p < 256 ∧ lineCount ga 64 ≤ u.load.length ∧ lineCount ga (imgLen (bytes.take 64)) ≤ u.load.length ∧ imgOk m = true ∧ imgNeeds m &&& (u.cap.getD 0 0) % 32 = imgNeeds m ∧ u.img ≠ (p, (s.prog p).gen) :=
  ⟨{ State.reset with progs := [(3, ⟨true, 0x1010, 88, 3, 0, 0, 0, 255, 9⟩)], spools := [(1023, { Spool.init with cmds := [⟨7, 1745808324211275276442525282182119573631831815103816014167799041377239980230682248841364435113951254796171941747652789003462430861423148950615998070791, 1, 63, none, 0, none, 0⟩] })], bobs := [(63, { Bob.init with run := 3, q := 1023, n := 7, cap := [31], load := [4491503777115831489735536031295699782058656614000464320714841343727972911263854782054400, 6541548521368147263148174538523002373489162323562481588503812449375699285002515098016092304730809976050240650299406225718637547355111424], g := [(9, 5)], scratch := [(9, 9)], img := (3, 8) })] }, 63, ⟨7, 1745808324211275276442525282182119573631831815103816014167799041377239980230682248841364435113951254796171941747652789003462430861423148950615998070791, 1, 63, none, 0, none, 0⟩, by dsimp only; exact by decide +kernel⟩
theorem witness_SeamLinksSendReceiveAndTrain_1 : ∃ (s : State) (p : Nat), ∃ key, let x := s.sp p; let idle := s.home.nodeReplies = [] ∧ s.notices = [] ∧ s.seam.outq = [] ∧ s.seam.dups = [] ∧ s.seam.clear = none; p < 16 ∧ seamMode s p = true ∧ seamLive s p = true ∧ idle ∧ linkKey s p 0 x.txSlot = some key ∧ x.sent < 4096 ∧ x.resend = [] ∧ x.txq = [] ∧ x.units = [] :=
  ⟨{ (State.reset.sets [(PRT_CFG 15, F.PRT_CFG_MODE, 1), (PRT_CFG 15, F.PRT_CFG_RELEASE, 1), (PRT_SEAMSTAT 15, F.PRT_SEAMSTAT_STATE, 3)]) with keys := wKeys, seam := { State.reset.seam with ports := [(15, { SeamPort.init with txNext := 5, rxNext := 7, ctl := 3  })] } }, 15, (0x123456789, 7), by dsimp only; exact by decide +kernel⟩
theorem witness_SeamLinksSendReceiveAndTrain_2 : ∃ (s : State) (p : Nat), ∃ key m, let x := s.sp p; let idle := s.home.nodeReplies = [] ∧ s.notices = [] ∧ s.seam.outq = [] ∧ s.seam.dups = [] ∧ s.seam.clear = none; p < 16 ∧ seamMode s p = true ∧ seamLive s p = true ∧ idle ∧ linkKey s p 0 x.txSlot = some key ∧ x.sent < 4096 ∧ x.resend = [] ∧ x.txq = [m] ∧ x.units = [] ∧ x.buf.length < 1024 ∧ m.cost ≤ tabGet (fun _ => 0) x.cred m.vc ∧ m.opc ≠ 0x70 ∧ m.opc ≠ 0x72 :=
  ⟨{ (State.reset.sets [(PRT_CFG 15, F.PRT_CFG_MODE, 1), (PRT_CFG 15, F.PRT_CFG_RELEASE, 1), (PRT_SEAMSTAT 15, F.PRT_SEAMSTAT_STATE, 3)]) with keys := wKeys, seam := { State.reset.seam with ports := [(15, { SeamPort.init with txNext := 5, rxNext := 7, ctl := 3 , cred := [(0, 9), (1, 9), (4, 9)], txq := [⟨1, 5, 6, 9, 1, false, 31, 0, 0, 0, 1193046, 0⟩] })] } }, 15, (0x123456789, 7), ⟨1, 5, 6, 9, 1, false, 31, 0, 0, 0, 1193046, 0⟩, by dsimp only; exact by decide +kernel⟩
theorem witness_SeamLinksSendReceiveAndTrain_3 : ∃ (s : State) (p : Nat), ∃ key f rest, let x := s.sp p; let idle := s.home.nodeReplies = [] ∧ s.notices = [] ∧ s.seam.outq = [] ∧ s.seam.dups = [] ∧ s.seam.clear = none; p < 16 ∧ seamMode s p = true ∧ seamLive s p = true ∧ idle ∧ linkKey s p 0 x.txSlot = some key ∧ x.sent < 4096 ∧ x.resend = f.seq :: rest ∧ x.buf.find? (fun g => g.seq == f.seq) = some f :=
  ⟨{ (State.reset.sets [(PRT_CFG 15, F.PRT_CFG_MODE, 1), (PRT_CFG 15, F.PRT_CFG_RELEASE, 1), (PRT_SEAMSTAT 15, F.PRT_SEAMSTAT_STATE, 3)]) with keys := wKeys, seam := { State.reset.seam with ports := [(15, { SeamPort.init with txNext := 5, rxNext := 7, ctl := 3 , buf := [⟨2, 0x44, []⟩, ⟨3, 0x55, []⟩], resend := [3, 4] })] } }, 15, (0x123456789, 7), ⟨3, 0x55, []⟩, [4], by dsimp only; exact by decide +kernel⟩
theorem witness_SeamLinksSendReceiveAndTrain_4 : ∃ (s : State) (p : Nat) (flit : BitVec 2048) (b : Bytes) (fx : List Nat), let x := s.sp p; p < 16 ∧ seamMode s p = true ∧ seamLive s p = true ∧ flitFix flit = (b, fx) ∧ flitCrcOk b = false ∧ x.crcRun < 15 :=
  ⟨{ (State.reset.sets [(PRT_CFG 15, F.PRT_CFG_MODE, 1), (PRT_CFG 15, F.PRT_CFG_RELEASE, 1), (PRT_SEAMSTAT 15, F.PRT_SEAMSTAT_STATE, 3)]) with keys := wKeys, seam := { State.reset.seam with ports := [(15, { SeamPort.init with txNext := 5, rxNext := 7, ctl := 3  })] } }, 15, wFlit0, wFlitBytes0, [1, 0], by dsimp only; exact by decide +kernel⟩
theorem witness_SeamLinksSendReceiveAndTrain_5 : ∃ (s : State) (p : Nat) (flit : BitVec 2048) (b : Bytes) (fx : List Nat), ∃ key, let x := s.sp p; let h := leNat (b.take 10); let c := (b.drop 10).take 224; let n := extSeq x.rxNext (getBits h 8 16); let tag := fun (key : Nat × Nat) => (gcmTag (linkKeyBytes key.1) (flitIv key.2 (2 * n)) (b.take 10) c).take 8; p < 16 ∧ seamMode s p = true ∧ seamLive s p = true ∧ flitFix flit = (b, fx) ∧ flitCrcOk b = true ∧ flitType b = 1 ∧ linkKey s p 1 (getBits h 4 1) = some key ∧ tag key ≠ (b.drop 234).take 8 :=
  ⟨{ (State.reset.sets [(PRT_CFG 15, F.PRT_CFG_MODE, 1), (PRT_CFG 15, F.PRT_CFG_RELEASE, 1), (PRT_SEAMSTAT 15, F.PRT_SEAMSTAT_STATE, 3)]) with keys := wKeys, seam := { State.reset.seam with ports := [(15, { SeamPort.init with txNext := 5, rxNext := 7, ctl := 3  })] } }, 15, wFlit1, wFlitBytes1, [], (0x987654321, 9), by dsimp only; exact by decide +kernel⟩
theorem witness_SeamLinksSendReceiveAndTrain_6 : ∃ (s : State) (p : Nat) (flit : BitVec 2048) (b : Bytes) (fx : List Nat), ∃ key, let x := s.sp p; let h := leNat (b.take 10); let c := (b.drop 10).take 224; let n := extSeq x.rxNext (getBits h 8 16); let tag := fun (key : Nat × Nat) => (gcmTag (linkKeyBytes key.1) (flitIv key.2 (2 * n)) (b.take 10) c).take 8; p < 16 ∧ seamMode s p = true ∧ seamLive s p = true ∧ flitFix flit = (b, fx) ∧ flitCrcOk b = true ∧ flitType b = 1 ∧ linkKey s p 1 (getBits h 4 1) = some key ∧ tag key = (b.drop 234).take 8 ∧ n < x.rxNext :=
  ⟨{ (State.reset.sets [(PRT_CFG 15, F.PRT_CFG_MODE, 1), (PRT_CFG 15, F.PRT_CFG_RELEASE, 1), (PRT_SEAMSTAT 15, F.PRT_SEAMSTAT_STATE, 3)]) with keys := wKeys, seam := { State.reset.seam with ports := [(15, { SeamPort.init with txNext := 5, rxNext := 7, ctl := 3  })] } }, 15, wFlit2, wFlitBytes2, [], (0x987654321, 9), by dsimp only; exact by decide +kernel⟩
theorem witness_SeamLinksSendReceiveAndTrain_7 : ∃ (s : State) (p : Nat) (flit : BitVec 2048) (b : Bytes) (fx : List Nat), ∃ key, let x := s.sp p; let h := leNat (b.take 10); let c := (b.drop 10).take 224; let n := extSeq x.rxNext (getBits h 8 16); let sent := gcmCrypt (linkKeyBytes ((linkKey s p 1 (getBits h 4 1)).getD (0, 0)).1) (flitIv ((linkKey s p 1 (getBits h 4 1)).getD (0, 0)).2 (2 * n)) c; let all := x.stream ++ (chunk 16 14 sent).map leNat; let r := parseUnits (all.length + 1) all; let tag := fun (key : Nat × Nat) => (gcmTag (linkKeyBytes key.1) (flitIv key.2 (2 * n)) (b.take 10) c).take 8; p < 16 ∧ seamMode s p = true ∧ seamLive s p = true ∧ flitFix flit = (b, fx) ∧ flitCrcOk b = true ∧ flitType b = 1 ∧ linkKey s p 1 (getBits h 4 1) = some key ∧ tag key = (b.drop 234).take 8 ∧ n = x.rxNext ∧ bit h 6 = false ∧ r.2.2.1 = 0 :=
  ⟨{ (State.reset.sets [(PRT_CFG 15, F.PRT_CFG_MODE, 1), (PRT_CFG 15, F.PRT_CFG_RELEASE, 1), (PRT_SEAMSTAT 15, F.PRT_SEAMSTAT_STATE, 3)]) with keys := wKeys, seam := { State.reset.seam with ports := [(15, { SeamPort.init with txNext := 5, rxNext := 7, ctl := 3  })] } }, 15, wFlit3, wFlitBytes3, [], (0x987654321, 9), by dsimp only; exact by decide +kernel⟩
theorem witness_SeamLinksSendReceiveAndTrain_8 : ∃ (s : State) (p : Nat), ∃ f rest, let x := s.sp p; p < 16 ∧ seamMode s p = true ∧ seamLive s p = true ∧ x.buf = f :: rest ∧ (s.calp p).queue = [] :=
  ⟨{ (State.reset.sets [(PRT_CFG 15, F.PRT_CFG_MODE, 1), (PRT_CFG 15, F.PRT_CFG_RELEASE, 1), (PRT_SEAMSTAT 15, F.PRT_SEAMSTAT_STATE, 3)]) with keys := wKeys, seam := { State.reset.seam with ports := [(15, { SeamPort.init with txNext := 5, rxNext := 7, ctl := 3 , buf := [⟨3, 0x55, []⟩, ⟨4, 0x55, []⟩] })] } }, 15, ⟨3, 0x55, []⟩, [⟨4, 0x55, []⟩], by dsimp only; exact by decide +kernel⟩
theorem witness_SeamLinksSendReceiveAndTrain_9 : ∃ (s : State) (p : Nat) (a : List Nat) (b : List Nat), p < 16 ∧ seamMode s p = true ∧ seamLive s p = true ∧ a.length = 8 ∧ b.length = 8 :=
  ⟨{ (State.reset.sets [(PRT_CFG 15, F.PRT_CFG_MODE, 1), (PRT_CFG 15, F.PRT_CFG_RELEASE, 1), (PRT_SEAMSTAT 15, F.PRT_SEAMSTAT_STATE, 3)]) with keys := wKeys, seam := { State.reset.seam with ports := [(15, { SeamPort.init with txNext := 5, rxNext := 7, ctl := 3  })] } }, 15, [1, 1, 1, 1, 1, 2, 2, 2], [1, 2, 3, 4, 5, 6, 7, 8], by decide +kernel⟩
theorem witness_SeamLinksSendReceiveAndTrain_10 : ∃ (s : State) (p : Nat), p < 16 ∧ seamMode s p = true ∧ s.fget (PRT_CFG p) F.PRT_CFG_RELEASE = 1 ∧ portFenced s p = false ∧ lanesOut s p = [] ∧ gated s (1 + p) = false ∧ s.pst < 2 ∧ (linkState s p = 0 ∨ linkState s p = 5) :=
  ⟨{ (State.reset.sets [(PRT_CFG 15, F.PRT_CFG_MODE, 1), (PRT_CFG 15, F.PRT_CFG_RELEASE, 1), (PRT_SEAMSTAT 15, F.PRT_SEAMSTAT_STATE, 0)]) with keys := wKeys, seam := { State.reset.seam with ports := [(15, { SeamPort.init with txNext := 5, rxNext := 7, ctl := 3  })] } }, 15, by decide +kernel⟩
theorem witness_SeamLinksSendReceiveAndTrain_11 : ∃ (s : State) (p : Nat), p < 16 ∧ seamMode s p = true ∧ (linkState s p = 1 ∨ linkState s p = 4) :=
  ⟨{ (State.reset.sets [(PRT_CFG 15, F.PRT_CFG_MODE, 1), (PRT_CFG 15, F.PRT_CFG_RELEASE, 1), (PRT_SEAMSTAT 15, F.PRT_SEAMSTAT_STATE, 1)]) with keys := wKeys, seam := { State.reset.seam with ports := [(15, { SeamPort.init with txNext := 5, rxNext := 7, ctl := 3  })] } }, 15, by decide +kernel⟩
theorem witness_SeamLinksSendReceiveAndTrain_12 : ∃ (s : State) (p : Nat), ∃ key, let x := s.sp p; p < 16 ∧ seamMode s p = true ∧ linkState s p = 2 ∧ x.sent < 4096 ∧ linkKeyed s p = true ∧ linkKey s p 0 x.txSlot = some key :=
  ⟨{ (State.reset.sets [(PRT_CFG 15, F.PRT_CFG_MODE, 1), (PRT_CFG 15, F.PRT_CFG_RELEASE, 1), (PRT_SEAMSTAT 15, F.PRT_SEAMSTAT_STATE, 2)]) with keys := wKeys, seam := { State.reset.seam with ports := [(15, { SeamPort.init with txNext := 5, rxNext := 7, ctl := 3  })] } }, 15, (0x123456789, 7), by dsimp only; exact by decide +kernel⟩
theorem witness_SeamLinksSendReceiveAndTrain_13 : ∃ (s : State) (p : Nat), p < 16 ∧ seamMode s p = true ∧ linkState s p = 2 ∧ linkKeyed s p = false :=
  ⟨{ (State.reset.sets [(PRT_CFG 15, F.PRT_CFG_MODE, 1), (PRT_CFG 15, F.PRT_CFG_RELEASE, 1), (PRT_SEAMSTAT 15, F.PRT_SEAMSTAT_STATE, 2)]) with seam := { State.reset.seam with ports := [(15, { SeamPort.init with txNext := 5, rxNext := 7, ctl := 3  })] } }, 15, by decide +kernel⟩
theorem witness_SeamLinksSendReceiveAndTrain_14 : ∃ (s : State) (p : Nat) (flit : BitVec 2048) (b : Bytes) (fx : List Nat) (key : Nat × Nat), let x := s.sp p; let h := leNat (b.take 10); let pay := (b.drop 10).take 224; let ctl := bytesAt pay 28 8; p < 16 ∧ seamMode s p = true ∧ linkState s p = 2 ∧ flitFix flit = (b, fx) ∧ flitCrcOk b = true ∧ flitType b = 2 ∧ linkKey s p 1 (getBits h 4 1) = some key ∧ (flitSeal key true (2 * ctl + 1) (b.take 10) pay).2 = (b.drop 234).take 8 ∧ tabGet (fun _ => 0) x.slotCtl (getBits h 4 1) ≤ ctl ∧ s.fget (PRT_SEAMCFG p) F.PRT_SEAMCFG_EXPECT_EN = 0 ∧ x.got = 0 ∧ x.up = true ∧ bytesAt pay 3 1 % 2 = 1 ∧ bytesAt pay 8 4 = x.myGen ∧ bytesAt pay 4 4 = x.peerGen ∧ (x.repCnt + 1) % 8 ≠ 0 :=
  ⟨{ (State.reset.sets [(PRT_CFG 15, F.PRT_CFG_MODE, 1), (PRT_CFG 15, F.PRT_CFG_RELEASE, 1), (PRT_SEAMSTAT 15, F.PRT_SEAMSTAT_STATE, 2)]) with keys := wKeys, seam := { State.reset.seam with ports := [(15, { SeamPort.init with txNext := 5, rxNext := 7, ctl := 3 , up := true, myGen := 11, peerGen := 12, buf := [⟨3, 0x55, []⟩, ⟨4, 0x55, []⟩] })] } }, 15, wFlit6, wFlitBytes6, [], (0x987654321, 9), by dsimp only; exact by decide +kernel⟩
theorem witness_SeamLinksSendReceiveAndTrain_15 : ∃ (s : State) (p : Nat), p < 16 ∧ seamMode s p = true ∧ seamLive s p = true ∧ (s.calp p).queue = [] :=
  ⟨{ (State.reset.sets [(PRT_CFG 15, F.PRT_CFG_MODE, 1), (PRT_CFG 15, F.PRT_CFG_RELEASE, 1), (PRT_SEAMSTAT 15, F.PRT_SEAMSTAT_STATE, 3)]) with keys := wKeys, seam := { State.reset.seam with ports := [(15, { SeamPort.init with txNext := 5, rxNext := 7, ctl := 3 , crcRun := 4, resend := [3] })] } }, 15, by decide +kernel⟩
theorem witness_SeamLinksSendReceiveAndTrain_16 : ∃ (s : State) (p : Nat), let x := s.sp p; p < 16 ∧ seamMode s p = true ∧ linkState s p = 4 ∧ x.fails < 2 :=
  ⟨{ (State.reset.sets [(PRT_CFG 15, F.PRT_CFG_MODE, 1), (PRT_CFG 15, F.PRT_CFG_RELEASE, 1), (PRT_SEAMSTAT 15, F.PRT_SEAMSTAT_STATE, 4)]) with keys := wKeys, seam := { State.reset.seam with ports := [(15, { SeamPort.init with txNext := 5, rxNext := 7, ctl := 3 , fails := 1 })] } }, 15, by dsimp only; exact by decide +kernel⟩
theorem witness_SeamLinksSendReceiveAndTrain_17 : ∃ (s : State) (p : Nat), let x := s.sp p; p < 16 ∧ seamMode s p = true ∧ linkState s p = 4 ∧ x.buf = [] ∧ x.txq = [] ∧ 2 ≤ x.fails :=
  ⟨{ (State.reset.sets [(PRT_CFG 15, F.PRT_CFG_MODE, 1), (PRT_CFG 15, F.PRT_CFG_RELEASE, 1), (PRT_SEAMSTAT 15, F.PRT_SEAMSTAT_STATE, 4)]) with keys := wKeys, seam := { State.reset.seam with ports := [(15, { SeamPort.init with txNext := 5, rxNext := 7, ctl := 3 , fails := 2 })] } }, 15, by dsimp only; exact by decide +kernel⟩
theorem witness_SeamLinksSendReceiveAndTrain_18 : ∃ (s : State) (p : Nat), let x := s.sp p; p < 16 ∧ seamMode s p = true ∧ linkState s p = 4 ∧ x.buf = [] ∧ x.txq = [] :=
  ⟨{ (State.reset.sets [(PRT_CFG 15, F.PRT_CFG_MODE, 1), (PRT_CFG 15, F.PRT_CFG_RELEASE, 1), (PRT_SEAMSTAT 15, F.PRT_SEAMSTAT_STATE, 4)]) with keys := wKeys, seam := { State.reset.seam with ports := [(15, { SeamPort.init with txNext := 5, rxNext := 7, ctl := 3 , fails := 0 })] } }, 15, by dsimp only; exact by decide +kernel⟩
theorem witness_RoutesTimeAndLinkLocalMessages_1 : ∃ (s : State) (p : Nat) (vc : Nat) (at0 : Nat) (m : Msg), rxHead s p vc = some (m, at0) ∧ m.dst ≠ ownNode s ∧ m.dst ≠ 0x3FFF ∧ ownNode s ≠ 0x3FFF ∧ s.devLevel ≠ 4 ∧ m.ttl ≤ 1 ∧ s.fget FAB_CFG F.FAB_CFG_IRQ_EN = 0 :=
  ⟨{ (State.reset.sets [(PRT_CFG 15, F.PRT_CFG_MODE, 1), (PRT_SEAMSTAT 15, F.PRT_SEAMSTAT_STATE, 3), (PRT_CFG 2, F.PRT_CFG_MODE, 1), (PRT_SEAMSTAT 2, F.PRT_SEAMSTAT_STATE, 3), (FAB_NODEID, F.FAB_NODEID_NODE, 100), (FAB_CFG, F.FAB_CFG_IRQ_EN, 0)]) with seam := { State.reset.seam with ports := [(2, { SeamPort.init with rxq := [(⟨1, 9, 6, 9, 1, false, 1, 0, 0, 0, 4096, 0⟩, 4)] })] } }, 2, 0, 4, ⟨1, 9, 6, 9, 1, false, 1, 0, 0, 0, 4096, 0⟩, by decide +kernel⟩
theorem witness_RoutesTimeAndLinkLocalMessages_2 : ∃ (s : State) (p : Nat) (vc : Nat) (at0 : Nat) (m : Msg), ∃ q, rxHead s p vc = some (m, at0) ∧ m.dst ≠ ownNode s ∧ m.dst ≠ 0x3FFF ∧ ownNode s ≠ 0x3FFF ∧ s.devLevel ≠ 4 ∧ 2 ≤ m.ttl ∧ routePort s m 16 = some q :=
  ⟨{ (State.reset.sets [(PRT_CFG 15, F.PRT_CFG_MODE, 1), (PRT_SEAMSTAT 15, F.PRT_SEAMSTAT_STATE, 3), (PRT_CFG 2, F.PRT_CFG_MODE, 1), (PRT_SEAMSTAT 2, F.PRT_SEAMSTAT_STATE, 3), (FAB_NODEID, F.FAB_NODEID_NODE, 100), (FAB_ROUTE 9, F.FAB_ROUTE_MODE, 1), (FAB_ROUTE 9, F.FAB_ROUTE_PORTS, 32768)]) with seam := { State.reset.seam with ports := [(2, { SeamPort.init with rxq := [(⟨1, 9, 6, 9, 1, false, 2, 0, 0, 0, 4096, 0⟩, 4)] })] } }, 2, 0, 4, ⟨1, 9, 6, 9, 1, false, 2, 0, 0, 0, 4096, 0⟩, 15, by decide +kernel⟩
theorem witness_RoutesTimeAndLinkLocalMessages_3 : ∃ (s : State) (who : Who) (d : Nat) (val : Word) (w : CtlWrite), d < 2 ^ 14 ∧ admitted who (FAB_ROUTE d) val s w :=
  ⟨({ (State.reset.sets [(PRT_CFG 15, F.PRT_CFG_MODE, 1), (PRT_SEAMSTAT 15, F.PRT_SEAMSTAT_STATE, 3), (PRT_CFG 2, F.PRT_CFG_MODE, 1), (PRT_SEAMSTAT 2, F.PRT_SEAMSTAT_STATE, 3), (FAB_NODEID, F.FAB_NODEID_NODE, 1)]) with seam := { State.reset.seam with ports := [] } }), .trusted 1, 16383, fv [(F.FAB_ROUTE_MODE, 1), (F.FAB_ROUTE_PORTS, 4)], wr (.trusted 1) (FAB_ROUTE 16383) (fv [(F.FAB_ROUTE_MODE, 1), (F.FAB_ROUTE_PORTS, 4)]) (({ (State.reset.sets [(PRT_CFG 15, F.PRT_CFG_MODE, 1), (PRT_SEAMSTAT 15, F.PRT_SEAMSTAT_STATE, 3), (PRT_CFG 2, F.PRT_CFG_MODE, 1), (PRT_SEAMSTAT 2, F.PRT_SEAMSTAT_STATE, 3), (FAB_NODEID, F.FAB_NODEID_NODE, 1)]) with seam := { State.reset.seam with ports := [] } })), ⟨by decide +kernel, admitted_of (by decide +kernel)⟩⟩
theorem witness_RoutesTimeAndLinkLocalMessages_4 : ∃ (s : State) (who : Who) (val : Word) (w : CtlWrite), admitted who FAB_TIMESET val s w :=
  ⟨({ (State.reset.sets [(PRT_CFG 15, F.PRT_CFG_MODE, 1), (PRT_SEAMSTAT 15, F.PRT_SEAMSTAT_STATE, 3), (PRT_CFG 2, F.PRT_CFG_MODE, 1), (PRT_SEAMSTAT 2, F.PRT_SEAMSTAT_STATE, 3), (FAB_NODEID, F.FAB_NODEID_NODE, 1), (FAB_TIMECFG, F.FAB_TIMECFG_GM, 1)]) with seam := { State.reset.seam with ports := [] } }), .trusted 1, 12345, wr (.trusted 1) FAB_TIMESET 12345 (({ (State.reset.sets [(PRT_CFG 15, F.PRT_CFG_MODE, 1), (PRT_SEAMSTAT 15, F.PRT_SEAMSTAT_STATE, 3), (PRT_CFG 2, F.PRT_CFG_MODE, 1), (PRT_SEAMSTAT 2, F.PRT_SEAMSTAT_STATE, 3), (FAB_NODEID, F.FAB_NODEID_NODE, 1), (FAB_TIMECFG, F.FAB_TIMECFG_GM, 1)]) with seam := { State.reset.seam with ports := [] } })), admitted_of (by decide +kernel)⟩
theorem witness_RoutesTimeAndLinkLocalMessages_5 : ∃ (s : State) (p : Nat), p < 16 ∧ seamLive s p = true ∧ timeEn s = true ∧ (isGM s = true ∨ p ≠ upPort s) :=
  ⟨{ (State.reset.sets [(PRT_CFG 15, F.PRT_CFG_MODE, 1), (PRT_SEAMSTAT 15, F.PRT_SEAMSTAT_STATE, 3), (PRT_CFG 2, F.PRT_CFG_MODE, 1), (PRT_SEAMSTAT 2, F.PRT_SEAMSTAT_STATE, 3), (FAB_NODEID, F.FAB_NODEID_NODE, 1), (FAB_TIMECFG, F.FAB_TIMECFG_EN, 1), (FAB_TIMECFG, F.FAB_TIMECFG_UPPORT, 2), (FAB_TIMECFG, F.FAB_TIMECFG_ALARM_NS, 9000)]) with seam := { State.reset.seam with ports := [] } }, 15, by decide +kernel⟩
theorem witness_RoutesTimeAndLinkLocalMessages_6 : ∃ (s : State) (p : Nat) (opc : Nat) (at0 : Nat) (m : Msg), notchHead s p opc = some (m, at0) ∧ opc = 0x70 ∧ follows s p = true :=
  ⟨{ (State.reset.sets [(PRT_CFG 15, F.PRT_CFG_MODE, 1), (PRT_SEAMSTAT 15, F.PRT_SEAMSTAT_STATE, 3), (PRT_CFG 2, F.PRT_CFG_MODE, 1), (PRT_SEAMSTAT 2, F.PRT_SEAMSTAT_STATE, 3), (FAB_NODEID, F.FAB_NODEID_NODE, 1), (FAB_TIMECFG, F.FAB_TIMECFG_EN, 1), (FAB_TIMECFG, F.FAB_TIMECFG_UPPORT, 2), (FAB_TIMECFG, F.FAB_TIMECFG_ALARM_NS, 9000)]) with seam := { State.reset.seam with ports := [(2, { SeamPort.init with rxq := [(⟨112, 16383, 16383, 0, 0, false, 31, 0, 0, 0, 6044684438305367002186728, 0⟩, 777)] })], notch := ⟨5, 1, 2, 3, false, 9, 0, 0⟩ } }, 2, 112, 777, ⟨112, 16383, 16383, 0, 0, false, 31, 0, 0, 0, 6044684438305367002186728, 0⟩, by decide +kernel⟩
theorem witness_RoutesTimeAndLinkLocalMessages_7 : ∃ (s : State) (p : Nat) (opc : Nat) (at0 : Nat) (m : Msg), let n := s.seam.notch; notchHead s p opc = some (m, at0) ∧ opc = 0x71 ∧ follows s p = true ∧ notchEx m = n.ex :=
  ⟨{ (State.reset.sets [(PRT_CFG 15, F.PRT_CFG_MODE, 1), (PRT_SEAMSTAT 15, F.PRT_SEAMSTAT_STATE, 3), (PRT_CFG 2, F.PRT_CFG_MODE, 1), (PRT_SEAMSTAT 2, F.PRT_SEAMSTAT_STATE, 3), (FAB_NODEID, F.FAB_NODEID_NODE, 1), (FAB_TIMECFG, F.FAB_TIMECFG_EN, 1), (FAB_TIMECFG, F.FAB_TIMECFG_UPPORT, 2), (FAB_TIMECFG, F.FAB_TIMECFG_ALARM_NS, 9000)]) with seam := { State.reset.seam with ports := [(2, { SeamPort.init with rxq := [(⟨113, 16383, 16383, 0, 0, false, 31, 0, 0, 0, 6044684438305367002186728, 0⟩, 777)] })], notch := ⟨5, 1, 2, 3, false, 9, 0, 0⟩ } }, 2, 113, 777, ⟨113, 16383, 16383, 0, 0, false, 31, 0, 0, 0, 6044684438305367002186728, 0⟩, by dsimp only; exact by decide +kernel⟩
theorem witness_RoutesTimeAndLinkLocalMessages_8 : ∃ (s : State) (p : Nat) (opc : Nat) (at0 : Nat) (m : Msg), notchHead s p opc = some (m, at0) ∧ opc = 0x72 :=
  ⟨{ (State.reset.sets [(PRT_CFG 15, F.PRT_CFG_MODE, 1), (PRT_SEAMSTAT 15, F.PRT_SEAMSTAT_STATE, 3), (PRT_CFG 2, F.PRT_CFG_MODE, 1), (PRT_SEAMSTAT 2, F.PRT_SEAMSTAT_STATE, 3), (FAB_NODEID, F.FAB_NODEID_NODE, 1), (FAB_TIMECFG, F.FAB_TIMECFG_EN, 1), (FAB_TIMECFG, F.FAB_TIMECFG_UPPORT, 2), (FAB_TIMECFG, F.FAB_TIMECFG_ALARM_NS, 9000)]) with seam := { State.reset.seam with ports := [(2, { SeamPort.init with rxq := [(⟨114, 16383, 16383, 0, 0, false, 31, 0, 0, 0, 6044684438305367002186728, 0⟩, 777)] })], notch := ⟨5, 1, 2, 3, false, 9, 0, 0⟩ } }, 2, 114, 777, ⟨114, 16383, 16383, 0, 0, false, 31, 0, 0, 0, 6044684438305367002186728, 0⟩, by decide +kernel⟩
theorem witness_RoutesTimeAndLinkLocalMessages_9 : ∃ (s : State) (p : Nat) (opc : Nat) (at0 : Nat) (m : Msg), let n := s.seam.notch; let void := n.void = true ∨ bit m.addr 96 = true ∨ (s.sp p).replayedNotch = true; let a : Int := (n.t2 : Int) - n.t1; let b : Int := (notchTs m : Int) - n.t3; let asym : Int := signed16 (s.fget (PRT_SEAMCFG p) F.PRT_SEAMCFG_ASYM_PS) * 65536 / 1000; let off := Int.tdiv (a - b - asym) 2; notchHead s p opc = some (m, at0) ∧ opc = 0x73 ∧ follows s p = true ∧ notchEx m = n.ex ∧ ¬ void ∧ (off.natAbs : Int) ≤ s.fget FAB_TIMECFG F.FAB_TIMECFG_ALARM_NS * 65536 ∧ off.natAbs ≤ 1000 * 65536 :=
  ⟨{ (State.reset.sets [(PRT_CFG 15, F.PRT_CFG_MODE, 1), (PRT_SEAMSTAT 15, F.PRT_SEAMSTAT_STATE, 3), (PRT_CFG 2, F.PRT_CFG_MODE, 1), (PRT_SEAMSTAT 2, F.PRT_SEAMSTAT_STATE, 3), (FAB_NODEID, F.FAB_NODEID_NODE, 1), (FAB_TIMECFG, F.FAB_TIMECFG_EN, 1), (FAB_TIMECFG, F.FAB_TIMECFG_UPPORT, 2), (FAB_TIMECFG, F.FAB_TIMECFG_ALARM_NS, 9000), (PRT_SEAMCFG 2, F.PRT_SEAMCFG_ASYM_PS, 65000)]) with seam := { State.reset.seam with ports := [(2, { SeamPort.init with rxq := [(⟨115, 16383, 16383, 0, 0, false, 31, 0, 0, 0, 6044629098073145873532180, 0⟩, 777)] })], notch := ⟨5, 65536000, 91750400, 98304000, false, 9, 0, 0⟩ }, time := 9000 }, 2, 115, 777, ⟨115, 16383, 16383, 0, 0, false, 31, 0, 0, 0, 6044629098073145873532180, 0⟩, by dsimp only; exact by decide +kernel⟩
theorem witness_RoutesTimeAndLinkLocalMessages_10 : ∃ (s : State) (p : Nat) (opc : Nat) (at0 : Nat) (m : Msg), let n := s.seam.notch; let void := n.void = true ∨ bit m.addr 96 = true ∨ (s.sp p).replayedNotch = true; let a : Int := (n.t2 : Int) - n.t1; let b : Int := (notchTs m : Int) - n.t3; let asym : Int := signed16 (s.fget (PRT_SEAMCFG p) F.PRT_SEAMCFG_ASYM_PS) * 65536 / 1000; let off := Int.tdiv (a - b - asym) 2; notchHead s p opc = some (m, at0) ∧ opc = 0x73 ∧ follows s p = true ∧ notchEx m = n.ex ∧ ¬ void ∧ (off.natAbs : Int) ≤ s.fget FAB_TIMECFG F.FAB_TIMECFG_ALARM_NS * 65536 ∧ 1000 * 65536 < off.natAbs ∧ 0 ≤ (nowStamp s : Int) - off ∧ (nowStamp s : Int) - off < 2 ^ 80 :=
  ⟨{ (State.reset.sets [(PRT_CFG 15, F.PRT_CFG_MODE, 1), (PRT_SEAMSTAT 15, F.PRT_SEAMSTAT_STATE, 3), (PRT_CFG 2, F.PRT_CFG_MODE, 1), (PRT_SEAMSTAT 2, F.PRT_SEAMSTAT_STATE, 3), (FAB_NODEID, F.FAB_NODEID_NODE, 1), (FAB_TIMECFG, F.FAB_TIMECFG_EN, 1), (FAB_TIMECFG, F.FAB_TIMECFG_UPPORT, 2), (FAB_TIMECFG, F.FAB_TIMECFG_ALARM_NS, 9000), (PRT_SEAMCFG 2, F.PRT_SEAMCFG_ASYM_PS, 65000)]) with seam := { State.reset.seam with ports := [(2, { SeamPort.init with rxq := [(⟨115, 16383, 16383, 0, 0, false, 31, 0, 0, 0, 6044629098073145873538880, 0⟩, 777)] })], notch := ⟨5, 262144000, 0, 6553600, false, 9, 0, 0⟩ }, time := 9000 }, 2, 115, 777, ⟨115, 16383, 16383, 0, 0, false, 31, 0, 0, 0, 6044629098073145873538880, 0⟩, by dsimp only; exact by decide +kernel⟩
theorem witness_RoutesTimeAndLinkLocalMessages_11 : ∃ (s : State) (p : Nat) (opc : Nat) (at0 : Nat) (m : Msg), let n := s.seam.notch; let void := n.void = true ∨ bit m.addr 96 = true ∨ (s.sp p).replayedNotch = true; notchHead s p opc = some (m, at0) ∧ opc = 0x73 ∧ follows s p = true ∧ notchEx m = n.ex ∧ void :=
  ⟨{ (State.reset.sets [(PRT_CFG 15, F.PRT_CFG_MODE, 1), (PRT_SEAMSTAT 15, F.PRT_SEAMSTAT_STATE, 3), (PRT_CFG 2, F.PRT_CFG_MODE, 1), (PRT_SEAMSTAT 2, F.PRT_SEAMSTAT_STATE, 3), (FAB_NODEID, F.FAB_NODEID_NODE, 1), (FAB_TIMECFG, F.FAB_TIMECFG_EN, 1), (FAB_TIMECFG, F.FAB_TIMECFG_UPPORT, 2), (FAB_TIMECFG, F.FAB_TIMECFG_ALARM_NS, 9000), (PRT_SEAMCFG 2, F.PRT_SEAMCFG_ASYM_PS, 65000)]) with seam := { State.reset.seam with ports := [(2, { SeamPort.init with rxq := [(⟨115, 16383, 16383, 0, 0, false, 31, 0, 0, 0, 6044629098073145873531580, 0⟩, 777)] })], notch := ⟨5, 0, 19660800, 26214400, true, 9, 0, 0⟩ }, time := 9000 }, 2, 115, 777, ⟨115, 16383, 16383, 0, 0, false, 31, 0, 0, 0, 6044629098073145873531580, 0⟩, by dsimp only; exact by decide +kernel⟩
theorem witness_RoutesTimeAndLinkLocalMessages_12 : ∃ (s : State), timeEn s = true ∧ isGM s = false ∧ outOfSync s = true ∧ s.fget FAB_TIMESTAT F.FAB_TIMESTAT_HOLDOVER = 0 :=
  ⟨{ (State.reset.sets [(PRT_CFG 15, F.PRT_CFG_MODE, 1), (PRT_SEAMSTAT 15, F.PRT_SEAMSTAT_STATE, 3), (PRT_CFG 2, F.PRT_CFG_MODE, 1), (PRT_SEAMSTAT 2, F.PRT_SEAMSTAT_STATE, 3), (FAB_NODEID, F.FAB_NODEID_NODE, 1), (FAB_TIMECFG, F.FAB_TIMECFG_EN, 1), (FAB_TIMECFG, F.FAB_TIMECFG_UPPORT, 2), (FAB_TIMECFG, F.FAB_TIMECFG_ALARM_NS, 9000)]) with seam := { State.reset.seam with ports := [], notch := { State.reset.seam.notch with missed := 8 } } }, by decide +kernel⟩
theorem witness_RoutesTimeAndLinkLocalMessages_13 : ∃ (s : State), s.fget FAB_TIMESTAT F.FAB_TIMESTAT_HOLDOVER = 1 :=
  ⟨{ (State.reset.sets [(PRT_CFG 15, F.PRT_CFG_MODE, 1), (PRT_SEAMSTAT 15, F.PRT_SEAMSTAT_STATE, 3), (PRT_CFG 2, F.PRT_CFG_MODE, 1), (PRT_SEAMSTAT 2, F.PRT_SEAMSTAT_STATE, 3), (FAB_NODEID, F.FAB_NODEID_NODE, 1), (FAB_TIMECFG, F.FAB_TIMECFG_EN, 1), (FAB_TIMECFG, F.FAB_TIMECFG_UPPORT, 2), (FAB_TIMECFG, F.FAB_TIMECFG_ALARM_NS, 9000), (FAB_TIMESTAT, F.FAB_TIMESTAT_HOLDOVER, 1), (FAB_TIMESTAT, F.FAB_TIMESTAT_VALID, 1)]) with seam := { State.reset.seam with ports := [] } }, by decide +kernel⟩
theorem witness_RoutesTimeAndLinkLocalMessages_14 : ∃ (s : State) (p : Nat) (vc : Nat) (at0 : Nat) (m : Msg), p < 16 ∧ rxHead s p vc = some (m, at0) ∧ m.dst = 0x3FFF ∧ ctlOpen s = true :=
  ⟨{ (State.reset.sets [(PRT_CFG 15, F.PRT_CFG_MODE, 1), (PRT_SEAMSTAT 15, F.PRT_SEAMSTAT_STATE, 3), (PRT_CFG 2, F.PRT_CFG_MODE, 1), (PRT_SEAMSTAT 2, F.PRT_SEAMSTAT_STATE, 3), (FAB_NODEID, F.FAB_NODEID_NODE, 1)]) with seam := { State.reset.seam with ports := [(2, { SeamPort.init with rxq := [(⟨48, 16383, 16383, 7, 1, false, 31, 5, 0, 0, 0, 99⟩, 777)] })] } }, 2, 5, 777, ⟨48, 16383, 16383, 7, 1, false, 31, 5, 0, 0, 0, 99⟩, by decide +kernel⟩
theorem witness_SeamTransactions_1 : ∃ (s : State) (o : Nat) (dst : Nat), let noOrig := s.fget FAB_CFG F.FAB_CFG_ORIG_EN = 0; (o = 0x30 ∨ o = 0x20 ∨ o = 0x31) ∧ dst < 0x3FFF ∧ s.seam.outq = [] ∧ s.seam.txs.length < 4096 ∧ noOrig :=
  ⟨{ (State.sets (State.reset) [(PRT_CFG 15, F.PRT_CFG_MODE, 1), (PRT_SEAMSTAT 15, F.PRT_SEAMSTAT_STATE, 3), (PRT_CFG 2, F.PRT_CFG_MODE, 1), (PRT_SEAMSTAT 2, F.PRT_SEAMSTAT_STATE, 3), (FAB_NODEID, F.FAB_NODEID_NODE, 100), (FAB_TIMESTAT, F.FAB_TIMESTAT_VALID, 1), (FAB_DFCFG, F.FAB_DFCFG_MAXNODE, 3), (FAB_CFG, F.FAB_CFG_ORIG_EN, 0)]) with seam := { State.reset.seam with ports := [] } }, 48, 9, by dsimp only; exact by decide +kernel⟩
theorem witness_SeamTransactions_2 : ∃ (s : State) (o : Nat) (dst : Nat) (off : Nat) (v : Word), let m : Msg := { opc := o, dst := dst, src := ownNode s, tid := 0, ocls := 2, reissue := false, ttl := 31, status := 0, dl := 0, grant := 0, addr := mkAddr off 0 0, data := if o = 0x30 then 0 else v.toNat }; let noOrig := s.fget FAB_CFG F.FAB_CFG_ORIG_EN = 0; let noRoute := ownNode s = 0x3FFF ∨ dst ≠ ownNode s ∧ routePort s m 16 = none; (o = 0x30 ∨ o = 0x20 ∨ o = 0x31) ∧ dst < 0x3FFF ∧ s.seam.outq = [] ∧ s.seam.txs.length < 4096 ∧ ¬ noOrig ∧ noRoute :=
  ⟨{ (State.sets (State.reset) [(PRT_CFG 15, F.PRT_CFG_MODE, 1), (PRT_SEAMSTAT 15, F.PRT_SEAMSTAT_STATE, 3), (PRT_CFG 2, F.PRT_CFG_MODE, 1), (PRT_SEAMSTAT 2, F.PRT_SEAMSTAT_STATE, 3), (FAB_NODEID, F.FAB_NODEID_NODE, 100), (FAB_TIMESTAT, F.FAB_TIMESTAT_VALID, 1), (FAB_DFCFG, F.FAB_DFCFG_MAXNODE, 3), (FAB_CFG, F.FAB_CFG_ORIG_EN, 1)]) with seam := { State.reset.seam with ports := [] } }, 32, 9, 64, 77, by dsimp only; exact by decide +kernel⟩
theorem witness_SeamTransactions_3 : ∃ (s : State) (o : Nat) (dst : Nat) (off : Nat) (v : Word), ∃ q, let m : Msg := { opc := o, dst := dst, src := ownNode s, tid := 0, ocls := 2, reissue := false, ttl := 31, status := 0, dl := 0, grant := 0, addr := mkAddr off 0 0, data := if o = 0x30 then 0 else v.toNat }; let noOrig := s.fget FAB_CFG F.FAB_CFG_ORIG_EN = 0; (o = 0x30 ∨ o = 0x20 ∨ o = 0x31) ∧ dst < 0x3FFF ∧ s.seam.outq = [] ∧ s.seam.txs.length < 4096 ∧ ¬ noOrig ∧ ownNode s ≠ 0x3FFF ∧ dst ≠ ownNode s ∧ routePort s m 16 = some q ∧ maxNode s < dst ∧ s.seam.skips = [] ∧ ((∀ x ∈ s.seam.txs, x.msg.tid % 4096 ≠ s.seam.tid % 4096)) :=
  ⟨{ (State.sets (State.reset) [(PRT_CFG 15, F.PRT_CFG_MODE, 1), (PRT_SEAMSTAT 15, F.PRT_SEAMSTAT_STATE, 3), (PRT_CFG 2, F.PRT_CFG_MODE, 1), (PRT_SEAMSTAT 2, F.PRT_SEAMSTAT_STATE, 3), (FAB_NODEID, F.FAB_NODEID_NODE, 100), (FAB_TIMESTAT, F.FAB_TIMESTAT_VALID, 1), (FAB_DFCFG, F.FAB_DFCFG_MAXNODE, 3), (FAB_CFG, F.FAB_CFG_ORIG_EN, 1), (FAB_ROUTE 9, F.FAB_ROUTE_MODE, 2), (FAB_ROUTE 9, F.FAB_ROUTE_PORTS, 32772)]) with seam := { State.reset.seam with ports := [], tid := 7, fseq := [(38, 5)] } }, 49, 9, 64, 77, 2, by dsimp only; exact by decide +kernel⟩
theorem witness_SeamTransactions_4 : ∃ (s : State) (p : Nat) (vc : Nat) (at0 : Nat) (m : Msg), rxHead s p vc = some (m, at0) ∧ isCpl m.opc = true ∧ m.dst = ownNode s ∧ m.dst ≠ 0x3FFF ∧ ((∀ x ∈ s.seam.txs, x.msg.tid = m.tid → x.msg.dst ≠ m.src)) :=
  ⟨{ (State.sets (State.reset) [(PRT_CFG 15, F.PRT_CFG_MODE, 1), (PRT_SEAMSTAT 15, F.PRT_SEAMSTAT_STATE, 3), (PRT_CFG 2, F.PRT_CFG_MODE, 1), (PRT_SEAMSTAT 2, F.PRT_SEAMSTAT_STATE, 3), (FAB_NODEID, F.FAB_NODEID_NODE, 100), (FAB_TIMESTAT, F.FAB_TIMESTAT_VALID, 1), (FAB_DFCFG, F.FAB_DFCFG_MAXNODE, 3)]) with seam := { State.reset.seam with ports := [(2, { SeamPort.init with rxq := [(⟨82, 100, 9, 7, 1, false, 31, 3, 0, 0, 0, 5⟩, 4)] })], txs := [] } }, 2, 1, 4, ⟨82, 100, 9, 7, 1, false, 31, 3, 0, 0, 0, 5⟩, by decide +kernel⟩
theorem witness_SeamTransactions_5 : ∃ (s : State) (p : Nat) (vc : Nat) (at0 : Nat) (m : Msg), ∃ x o d off v, rxHead s p vc = some (m, at0) ∧ isCpl m.opc = true ∧ m.dst = ownNode s ∧ m.dst ≠ 0x3FFF ∧ s.seam.txs = [x] ∧ x.msg.tid = m.tid ∧ x.msg.dst = m.src ∧ x.ask = .fw o d off v :=
  ⟨{ (State.sets (State.reset) [(PRT_CFG 15, F.PRT_CFG_MODE, 1), (PRT_SEAMSTAT 15, F.PRT_SEAMSTAT_STATE, 3), (PRT_CFG 2, F.PRT_CFG_MODE, 1), (PRT_SEAMSTAT 2, F.PRT_SEAMSTAT_STATE, 3), (FAB_NODEID, F.FAB_NODEID_NODE, 100), (FAB_TIMESTAT, F.FAB_TIMESTAT_VALID, 1), (FAB_DFCFG, F.FAB_DFCFG_MAXNODE, 3)]) with seam := { State.reset.seam with ports := [(2, { SeamPort.init with rxq := [(⟨82, 100, 9, 7, 1, false, 31, 3, 0, 0, 0, 5⟩, 4)] })], txs := [⟨⟨48, 9, 100, 7, 1, false, 31, 0, 0, 0, 0, 0⟩, 0, .fw 48 9 64 77, 0⟩] } }, 2, 1, 4, ⟨82, 100, 9, 7, 1, false, 31, 3, 0, 0, 0, 5⟩, ⟨⟨48, 9, 100, 7, 1, false, 31, 0, 0, 0, 0, 0⟩, 0, .fw 48 9 64 77, 0⟩, 48, 9, 64, 77, by decide +kernel⟩
theorem witness_SeamTransactions_6 : ∃ (s : State) (x : Txn) (q : Nat), s.seam.txs = [x] ∧ s.seam.outq = [] ∧ x.msg.dst ≠ ownNode s ∧ routePort s { x.msg with reissue := true } 16 = some q :=
  ⟨{ (State.sets (State.reset) [(PRT_CFG 15, F.PRT_CFG_MODE, 1), (PRT_SEAMSTAT 15, F.PRT_SEAMSTAT_STATE, 3), (PRT_CFG 2, F.PRT_CFG_MODE, 1), (PRT_SEAMSTAT 2, F.PRT_SEAMSTAT_STATE, 3), (FAB_NODEID, F.FAB_NODEID_NODE, 100), (FAB_TIMESTAT, F.FAB_TIMESTAT_VALID, 1), (FAB_DFCFG, F.FAB_DFCFG_MAXNODE, 3), (FAB_ROUTE 9, F.FAB_ROUTE_MODE, 2), (FAB_ROUTE 9, F.FAB_ROUTE_PORTS, 32772)]) with seam := { State.reset.seam with ports := [], txs := [⟨⟨48, 9, 100, 7, 1, false, 31, 0, 0, 0, 0, 0⟩, 0, .fw 48 9 64 77, 0⟩] } }, ⟨⟨48, 9, 100, 7, 1, false, 31, 0, 0, 0, 0, 0⟩, 0, .fw 48 9 64 77, 0⟩, 2, by decide +kernel⟩
theorem witness_SeamTransactions_7 : ∃ (s : State) (x : Txn) (q : Nat), ∃ p at0 m, s.seam.txs = [x] ∧ s.seam.outq = [] ∧ x.msg.dst ≠ ownNode s ∧ routePort s { x.msg with reissue := true } 16 = some q ∧ rxHead s p 5 = some (m, at0) ∧ m.opc = 0x32 ∧ m.dst = ownNode s ∧ m.tid = x.msg.tid :=
  ⟨{ (State.sets (State.reset) [(PRT_CFG 15, F.PRT_CFG_MODE, 1), (PRT_SEAMSTAT 15, F.PRT_SEAMSTAT_STATE, 3), (PRT_CFG 2, F.PRT_CFG_MODE, 1), (PRT_SEAMSTAT 2, F.PRT_SEAMSTAT_STATE, 3), (FAB_NODEID, F.FAB_NODEID_NODE, 100), (FAB_TIMESTAT, F.FAB_TIMESTAT_VALID, 1), (FAB_DFCFG, F.FAB_DFCFG_MAXNODE, 3), (FAB_ROUTE 9, F.FAB_ROUTE_MODE, 2), (FAB_ROUTE 9, F.FAB_ROUTE_PORTS, 32772)]) with seam := { State.reset.seam with ports := [(2, { SeamPort.init with rxq := [(⟨50, 100, 9, 7, 1, false, 31, 0, 0, 0, 0, 0⟩, 4)] })], txs := [⟨⟨48, 9, 100, 7, 1, false, 31, 0, 0, 0, 0, 0⟩, 0, .fw 48 9 64 77, 0⟩] } }, ⟨⟨48, 9, 100, 7, 1, false, 31, 0, 0, 0, 0, 0⟩, 0, .fw 48 9 64 77, 0⟩, 2, 2, 4, ⟨50, 100, 9, 7, 1, false, 31, 0, 0, 0, 0, 0⟩, by decide +kernel⟩
theorem witness_SeamTransactions_8 : ∃ (s : State) (x : Txn) (o : Nat) (d : Nat) (off : Nat) (v : Word), s.seam.txs = [x] ∧ x.ask = .fw o d off v :=
  ⟨{ (State.sets (State.reset) [(PRT_CFG 15, F.PRT_CFG_MODE, 1), (PRT_SEAMSTAT 15, F.PRT_SEAMSTAT_STATE, 3), (PRT_CFG 2, F.PRT_CFG_MODE, 1), (PRT_SEAMSTAT 2, F.PRT_SEAMSTAT_STATE, 3), (FAB_NODEID, F.FAB_NODEID_NODE, 100), (FAB_TIMESTAT, F.FAB_TIMESTAT_VALID, 1), (FAB_DFCFG, F.FAB_DFCFG_MAXNODE, 3), (FAB_ROUTE 9, F.FAB_ROUTE_MODE, 2), (FAB_ROUTE 9, F.FAB_ROUTE_PORTS, 32772)]) with seam := { State.reset.seam with ports := [], txs := [⟨⟨48, 9, 100, 7, 1, false, 31, 0, 0, 0, 0, 0⟩, 0, .fw 48 9 64 77, 0⟩] } }, ⟨⟨48, 9, 100, 7, 1, false, 31, 0, 0, 0, 0, 0⟩, 0, .fw 48 9 64 77, 0⟩, 48, 9, 64, 77, by decide +kernel⟩
theorem witness_SeamTransactions_9 : ∃ (s : State) (p : Nat) (vc : Nat) (at0 : Nat) (m : Msg), ∃ q, let routed := fun (st q : Nat) => m.src ≠ ownNode s ∧ routePort s (reqAnswer s m (plainCpl m.opc) st 0 0) 16 = some q; rxHead s p vc = some (m, at0) ∧ m.isT = true ∧ m.dst = ownNode s ∧ m.dst ≠ 0x3FFF ∧ ctlOpen s = true ∧ s.seam.outq = [] ∧ s.devLevel = 4 ∧ routed C.FAB_E_HALTED q :=
  ⟨{ (State.sets (State.reset) [(PRT_CFG 15, F.PRT_CFG_MODE, 1), (PRT_SEAMSTAT 15, F.PRT_SEAMSTAT_STATE, 3), (PRT_CFG 2, F.PRT_CFG_MODE, 1), (PRT_SEAMSTAT 2, F.PRT_SEAMSTAT_STATE, 3), (FAB_NODEID, F.FAB_NODEID_NODE, 100), (FAB_TIMESTAT, F.FAB_TIMESTAT_VALID, 1), (FAB_DFCFG, F.FAB_DFCFG_MAXNODE, 3), (FAB_ROUTE 2, F.FAB_ROUTE_MODE, 2), (FAB_ROUTE 2, F.FAB_ROUTE_PORTS, 32768), (FAB_ROUTE 9, F.FAB_ROUTE_MODE, 2), (FAB_ROUTE 9, F.FAB_ROUTE_PORTS, 32768), (FLT_STAT, F.FLT_STAT_DEVLEVEL, 4)]) with seam := { State.reset.seam with ports := [(2, { SeamPort.init with rxq := [(⟨1, 100, 9, 9, 1, false, 31, 0, 5, 0, 0, 0⟩, 4)] })] } }, 2, 0, 4, ⟨1, 100, 9, 9, 1, false, 31, 0, 5, 0, 0, 0⟩, 15, by dsimp only; exact by decide +kernel⟩
theorem witness_SeamTransactions_10 : ∃ (s : State) (p : Nat) (vc : Nat) (at0 : Nat) (m : Msg), let turns := s.devLevel ≠ 4 ∧ (vc ≠ 0 ∨ portHeld s p = false) ∧ s.seam.reseq = [] ∧ s.seam.dups = [] ∧ s.fget PWR_CTL F.PWR_CTL_BUSY = 0 ∧ timeKnown s = true; rxHead s p vc = some (m, at0) ∧ m.isT = true ∧ m.dst = ownNode s ∧ m.dst ≠ 0x3FFF ∧ ctlOpen s = true ∧ s.seam.outq = [] ∧ turns ∧ maxNode s < m.src ∧ expired s m = true :=
  ⟨{ (State.sets (State.reset) [(PRT_CFG 15, F.PRT_CFG_MODE, 1), (PRT_SEAMSTAT 15, F.PRT_SEAMSTAT_STATE, 3), (PRT_CFG 2, F.PRT_CFG_MODE, 1), (PRT_SEAMSTAT 2, F.PRT_SEAMSTAT_STATE, 3), (FAB_NODEID, F.FAB_NODEID_NODE, 100), (FAB_TIMESTAT, F.FAB_TIMESTAT_VALID, 1), (FAB_DFCFG, F.FAB_DFCFG_MAXNODE, 3), (FAB_ROUTE 2, F.FAB_ROUTE_MODE, 2), (FAB_ROUTE 2, F.FAB_ROUTE_PORTS, 32768), (FAB_ROUTE 9, F.FAB_ROUTE_MODE, 2), (FAB_ROUTE 9, F.FAB_ROUTE_PORTS, 32768)]) with seam := { State.reset.seam with ports := [(2, { SeamPort.init with rxq := [(⟨48, 100, 9, 9, 1, false, 31, 0, 0, 0, 0, 0⟩, 4)] })] }, time := 2000 }, 2, 5, 4, ⟨48, 100, 9, 9, 1, false, 31, 0, 0, 0, 0, 0⟩, by dsimp only; exact by decide +kernel⟩
theorem witness_SeamTransactions_11 : ∃ (s : State) (p : Nat) (vc : Nat) (at0 : Nat) (m : Msg), ∃ q, let routed := fun (st q : Nat) => m.src ≠ ownNode s ∧ routePort s (reqAnswer s m (plainCpl m.opc) st 0 0) 16 = some q; let turns := s.devLevel ≠ 4 ∧ (vc ≠ 0 ∨ portHeld s p = false) ∧ s.seam.reseq = [] ∧ s.seam.dups = [] ∧ s.fget PWR_CTL F.PWR_CTL_BUSY = 0 ∧ timeKnown s = true; rxHead s p vc = some (m, at0) ∧ m.isT = true ∧ m.dst = ownNode s ∧ m.dst ≠ 0x3FFF ∧ ctlOpen s = true ∧ s.seam.outq = [] ∧ turns ∧ maxNode s < m.src ∧ expired s m = false ∧ routed C.FAB_E_ACCESS q :=
  ⟨{ (State.sets (State.reset) [(PRT_CFG 15, F.PRT_CFG_MODE, 1), (PRT_SEAMSTAT 15, F.PRT_SEAMSTAT_STATE, 3), (PRT_CFG 2, F.PRT_CFG_MODE, 1), (PRT_SEAMSTAT 2, F.PRT_SEAMSTAT_STATE, 3), (FAB_NODEID, F.FAB_NODEID_NODE, 100), (FAB_TIMESTAT, F.FAB_TIMESTAT_VALID, 1), (FAB_DFCFG, F.FAB_DFCFG_MAXNODE, 3), (FAB_ROUTE 2, F.FAB_ROUTE_MODE, 2), (FAB_ROUTE 2, F.FAB_ROUTE_PORTS, 32768), (FAB_ROUTE 9, F.FAB_ROUTE_MODE, 2), (FAB_ROUTE 9, F.FAB_ROUTE_PORTS, 32768)]) with seam := { State.reset.seam with ports := [(2, { SeamPort.init with rxq := [(⟨32, 100, 9, 9, 1, false, 31, 0, 8, 0, 0, 0⟩, 4)] })] } }, 2, 4, 4, ⟨32, 100, 9, 9, 1, false, 31, 0, 8, 0, 0, 0⟩, 15, by dsimp only; exact by decide +kernel⟩
theorem witness_SeamTransactions_12 : ∃ (s : State) (p : Nat) (vc : Nat) (at0 : Nat) (m : Msg), ∃ s1 s2 s2' s3 s3' d e, let turns := s.devLevel ≠ 4 ∧ (vc ≠ 0 ∨ portHeld s p = false) ∧ s.seam.reseq = [] ∧ s.seam.dups = [] ∧ s.fget PWR_CTL F.PWR_CTL_BUSY = 0 ∧ timeKnown s = true; let u := rxPop s1 p vc; let fl := dfFlowLa u m.src; let en := dfEntryLa s2' m.src m.tid; dfReady s m = (true, s1) ∧ dfRead u fl = (some (some d), s2) ∧ flowAdvance s2 d fl m.ocls m.fseq = some s2' ∧ dfRead s2' en = (some (some e), s3) ∧ dfRecord s3 m.src m.tid 1 0 0 0 0 = some s3' ∧ rxHead s p vc = some (m, at0) ∧ m.isT = true ∧ m.dst = ownNode s ∧ m.dst ≠ 0x3FFF ∧ ctlOpen s = true ∧ s.seam.outq = [] ∧ turns ∧ m.src ≤ maxNode s ∧ s1.seam.ports = s.seam.ports ∧ timeKnown u = true ∧ expired u m = false ∧ m.src ≤ maxNode u ∧ lineBad u m.src fl = false ∧ flowNext d fl m.ocls m.fseq = m.fseq ∧ lineBad s2' m.src en = false ∧ tidStands e en m.tid = 0 ∧ s3'.seam.reseq = [] ∧ s3'.seam.dups = [] ∧ s3'.seam.ports = u.seam.ports ∧ isSnoop m.opc = true :=
  ⟨wArr64_1, 2, 2, 4, ⟨64, 100, 2, 9, 1, false, 31, 0, 8, 0, 422212465070144, 0⟩, (dfReady wArr64_1 ⟨64, 100, 2, 9, 1, false, 31, 0, 8, 0, 422212465070144, 0⟩).2, wArr64_1b.2, wArr64_1f, wArr64_1c.2, wArr64_1g, 0, 0, by dsimp only; exact ⟨pair_of (by decide +kernel), pair_of (by decide +kernel), some_getD (by decide +kernel), pair_of (by decide +kernel), some_getD (by decide +kernel), by decide +kernel⟩⟩
theorem witness_SeamTransactions_13 : ∃ (s : State) (p : Nat) (vc : Nat) (at0 : Nat) (m : Msg), ∃ s1 s2 s2' s3 s3' d e, let turns := s.devLevel ≠ 4 ∧ (vc ≠ 0 ∨ portHeld s p = false) ∧ s.seam.reseq = [] ∧ s.seam.dups = [] ∧ s.fget PWR_CTL F.PWR_CTL_BUSY = 0 ∧ timeKnown s = true; let u := rxPop s1 p vc; let fl := dfFlowLa u m.src; let en := dfEntryLa s2' m.src m.tid; let s4 := evFAB 1 s3'; dfReady s m = (true, s1) ∧ dfRead u fl = (some (some d), s2) ∧ flowAdvance s2 d fl m.ocls m.fseq = some s2' ∧ dfRead s2' en = (some (some e), s3) ∧ dfRecord s3 m.src m.tid 1 0 0 0 0 = some s3' ∧ rxHead s p vc = some (m, at0) ∧ m.isT = true ∧ m.dst = ownNode s ∧ m.dst ≠ 0x3FFF ∧ ctlOpen s = true ∧ s.seam.outq = [] ∧ turns ∧ m.src ≤ maxNode s ∧ s1.seam.ports = s.seam.ports ∧ timeKnown u = true ∧ expired u m = false ∧ m.src ≤ maxNode u ∧ lineBad u m.src fl = false ∧ flowNext d fl m.ocls m.fseq = m.fseq ∧ lineBad s2' m.src en = false ∧ tidStands e en m.tid = 0 ∧ s3'.seam.reseq = [] ∧ s3'.seam.dups = [] ∧ s3'.seam.ports = u.seam.ports ∧ isSnoop m.opc = false ∧ m.opc ≠ 0x30 ∧ m.opc ≠ 0x31 ∧ m.opc ≠ 0x20 ∧ winAdmits s4 m = true :=
  ⟨wArr16_2, 2, 7, 4, ⟨16, 100, 2, 9, 1, false, 31, 0, 8, 0, 422212465070144, 0⟩, (dfReady wArr16_2 ⟨16, 100, 2, 9, 1, false, 31, 0, 8, 0, 422212465070144, 0⟩).2, wArr16_2b.2, wArr16_2f, wArr16_2c.2, wArr16_2g, 0, 0, by dsimp only; exact ⟨pair_of (by decide +kernel), pair_of (by decide +kernel), some_getD (by decide +kernel), pair_of (by decide +kernel), some_getD (by decide +kernel), by decide +kernel⟩⟩
theorem witness_SeamTransactions_14 : ∃ (s : State) (p : Nat) (at0 : Nat) (m : Msg), rxHead s p 5 = some (m, at0) ∧ m.opc = 0x33 ∧ m.dst = ownNode s ∧ m.dst ≠ 0x3FFF ∧ ctlOpen s = true ∧ s.devLevel ≠ 4 ∧ maxNode s < m.src :=
  ⟨{ (State.sets (State.reset) [(PRT_CFG 15, F.PRT_CFG_MODE, 1), (PRT_SEAMSTAT 15, F.PRT_SEAMSTAT_STATE, 3), (PRT_CFG 2, F.PRT_CFG_MODE, 1), (PRT_SEAMSTAT 2, F.PRT_SEAMSTAT_STATE, 3), (FAB_NODEID, F.FAB_NODEID_NODE, 100), (FAB_TIMESTAT, F.FAB_TIMESTAT_VALID, 1), (FAB_DFCFG, F.FAB_DFCFG_MAXNODE, 3)]) with seam := { State.reset.seam with ports := [(2, { SeamPort.init with rxq := [(⟨51, 100, 9, 7, 1, false, 31, 0, 0, 0, 0, 0⟩, 4)] })] } }, 2, 4, ⟨51, 100, 9, 7, 1, false, 31, 0, 0, 0, 0, 0⟩, by decide +kernel⟩
theorem witness_SeamTransactions_15 : ∃ (s : State) (p : Nat) (at0 : Nat) (m : Msg), ∃ s1 s2 s2' s3 t0 d e, let u := rxPop s1 p 5; let fl := dfFlowLa u m.src; let en := dfEntryLa s2' m.src m.tid; dfReady s m = (true, s1) ∧ dfRead u fl = (some (some d), s2) ∧ flowAdvance s2 d fl m.ocls m.fseq = some s2' ∧ dfRead s2' en = (some (some e), s3) ∧ dfRecord s3 m.src m.tid 2 0 0 0 C.FAB_E_UNREACHABLE = some t0 ∧ rxHead s p 5 = some (m, at0) ∧ m.opc = 0x33 ∧ m.dst = ownNode s ∧ m.dst ≠ 0x3FFF ∧ ctlOpen s = true ∧ s.devLevel ≠ 4 ∧ m.src ≤ maxNode s ∧ s1.seam.ports = s.seam.ports ∧ lineBad u m.src fl = false ∧ flowNext d fl m.ocls m.fseq = m.fseq ∧ tidStands e en m.tid = 0 ∧ t0.seam.reseq = [] ∧ t0.seam.dups = [] ∧ t0.seam.ports = u.seam.ports :=
  ⟨wSk, 2, 4, ⟨51, 100, 2, 9, 1, false, 31, 0, 0, 0, 422212465065984, 0⟩, (dfReady wSk ⟨51, 100, 2, 9, 1, false, 31, 0, 0, 0, 422212465065984, 0⟩).2, wSkb.2, wSkf, wSkc.2, wSkg, 0, 0, by dsimp only; exact ⟨pair_of (by decide +kernel), pair_of (by decide +kernel), some_getD (by decide +kernel), pair_of (by decide +kernel), some_getD (by decide +kernel), by decide +kernel⟩⟩
theorem witness_SeamTransactions_16 : ∃ (s : State) (p : Nat) (at0 : Nat) (m : Msg), s.home.nodeReplies = [] ∧ s.notices = [] ∧ s.seam.outq = [] ∧ s.seam.dups = [] ∧ rxHead s p 4 = some (m, at0) ∧ m.opc = 0x21 ∧ m.dst = ownNode s :=
  ⟨{ (State.sets (State.reset) [(PRT_CFG 15, F.PRT_CFG_MODE, 1), (PRT_SEAMSTAT 15, F.PRT_SEAMSTAT_STATE, 3), (PRT_CFG 2, F.PRT_CFG_MODE, 1), (PRT_SEAMSTAT 2, F.PRT_SEAMSTAT_STATE, 3), (FAB_NODEID, F.FAB_NODEID_NODE, 100), (FAB_TIMESTAT, F.FAB_TIMESTAT_VALID, 1), (FAB_DFCFG, F.FAB_DFCFG_MAXNODE, 3)]) with seam := { State.reset.seam with ports := [(2, { SeamPort.init with rxq := [(⟨33, 100, 9, 9, 1, false, 31, 0, 0, 0, 1030, 0⟩, 4)] })] } }, 2, 4, ⟨33, 100, 9, 9, 1, false, 31, 0, 0, 0, 1030, 0⟩, by decide +kernel⟩
theorem witness_SeamTransactions_17 : ∃ (s : State) (who : Who) (val : Word) (w : CtlWrite), let busy := s.fget FAB_DFCLEAR F.FAB_DFCLEAR_BUSY; admitted who FAB_DFCLEAR val s w ∧ fld w.act F.FAB_DFCLEAR_GO = 1 ∧ busy = 1 :=
  ⟨{ (State.sets (wDf) [(PRT_CFG 15, F.PRT_CFG_MODE, 1), (PRT_SEAMSTAT 15, F.PRT_SEAMSTAT_STATE, 3), (PRT_CFG 2, F.PRT_CFG_MODE, 1), (PRT_SEAMSTAT 2, F.PRT_SEAMSTAT_STATE, 3), (FAB_NODEID, F.FAB_NODEID_NODE, 100), (FAB_TIMESTAT, F.FAB_TIMESTAT_VALID, 1), (FAB_DFCFG, F.FAB_DFCFG_MAXNODE, 3), (FAB_DFCLEAR, F.FAB_DFCLEAR_BUSY, 1)]) with seam := { State.reset.seam with ports := [], bad := [(2, 64), (3, 64)] } }, .trusted 1, fv [(F.FAB_DFCLEAR_GO, 1), (F.FAB_DFCLEAR_NODE, 2)], wr (.trusted 1) FAB_DFCLEAR (fv [(F.FAB_DFCLEAR_GO, 1), (F.FAB_DFCLEAR_NODE, 2)]) ({ (State.sets (wDf) [(PRT_CFG 15, F.PRT_CFG_MODE, 1), (PRT_SEAMSTAT 15, F.PRT_SEAMSTAT_STATE, 3), (PRT_CFG 2, F.PRT_CFG_MODE, 1), (PRT_SEAMSTAT 2, F.PRT_SEAMSTAT_STATE, 3), (FAB_NODEID, F.FAB_NODEID_NODE, 100), (FAB_TIMESTAT, F.FAB_TIMESTAT_VALID, 1), (FAB_DFCFG, F.FAB_DFCFG_MAXNODE, 3), (FAB_DFCLEAR, F.FAB_DFCLEAR_BUSY, 1)]) with seam := { State.reset.seam with ports := [], bad := [(2, 64), (3, 64)] } }), by dsimp only; exact ⟨admitted_of (by decide +kernel), by decide +kernel⟩⟩
theorem witness_SeamTransactions_18 : ∃ (s : State) (who : Who) (val : Word) (w : CtlWrite), let n := fld w.act F.FAB_DFCLEAR_NODE; let busy := s.fget FAB_DFCLEAR F.FAB_DFCLEAR_BUSY; admitted who FAB_DFCLEAR val s w ∧ fld w.act F.FAB_DFCLEAR_GO = 1 ∧ busy = 0 ∧ maxNode s < n :=
  ⟨{ (State.sets (wDf) [(PRT_CFG 15, F.PRT_CFG_MODE, 1), (PRT_SEAMSTAT 15, F.PRT_SEAMSTAT_STATE, 3), (PRT_CFG 2, F.PRT_CFG_MODE, 1), (PRT_SEAMSTAT 2, F.PRT_SEAMSTAT_STATE, 3), (FAB_NODEID, F.FAB_NODEID_NODE, 100), (FAB_TIMESTAT, F.FAB_TIMESTAT_VALID, 1), (FAB_DFCFG, F.FAB_DFCFG_MAXNODE, 3), (FAB_DFCLEAR, F.FAB_DFCLEAR_BUSY, 0)]) with seam := { State.reset.seam with ports := [], bad := [(2, 64), (3, 64)] } }, .trusted 1, fv [(F.FAB_DFCLEAR_GO, 1), (F.FAB_DFCLEAR_NODE, 4)], wr (.trusted 1) FAB_DFCLEAR (fv [(F.FAB_DFCLEAR_GO, 1), (F.FAB_DFCLEAR_NODE, 4)]) ({ (State.sets (wDf) [(PRT_CFG 15, F.PRT_CFG_MODE, 1), (PRT_SEAMSTAT 15, F.PRT_SEAMSTAT_STATE, 3), (PRT_CFG 2, F.PRT_CFG_MODE, 1), (PRT_SEAMSTAT 2, F.PRT_SEAMSTAT_STATE, 3), (FAB_NODEID, F.FAB_NODEID_NODE, 100), (FAB_TIMESTAT, F.FAB_TIMESTAT_VALID, 1), (FAB_DFCFG, F.FAB_DFCFG_MAXNODE, 3), (FAB_DFCLEAR, F.FAB_DFCLEAR_BUSY, 0)]) with seam := { State.reset.seam with ports := [], bad := [(2, 64), (3, 64)] } }), by dsimp only; exact ⟨admitted_of (by decide +kernel), by decide +kernel⟩⟩
theorem witness_SeamTransactions_19 : ∃ (s : State) (who : Who) (val : Word) (w : CtlWrite), let n := fld w.act F.FAB_DFCLEAR_NODE; let busy := s.fget FAB_DFCLEAR F.FAB_DFCLEAR_BUSY; admitted who FAB_DFCLEAR val s w ∧ fld w.act F.FAB_DFCLEAR_GO = 1 ∧ busy = 0 ∧ n ≤ maxNode s :=
  ⟨{ (State.sets (wDf) [(PRT_CFG 15, F.PRT_CFG_MODE, 1), (PRT_SEAMSTAT 15, F.PRT_SEAMSTAT_STATE, 3), (PRT_CFG 2, F.PRT_CFG_MODE, 1), (PRT_SEAMSTAT 2, F.PRT_SEAMSTAT_STATE, 3), (FAB_NODEID, F.FAB_NODEID_NODE, 100), (FAB_TIMESTAT, F.FAB_TIMESTAT_VALID, 1), (FAB_DFCFG, F.FAB_DFCFG_MAXNODE, 3), (FAB_DFCLEAR, F.FAB_DFCLEAR_BUSY, 0)]) with seam := { State.reset.seam with ports := [], bad := [(2, 64), (3, 64)] } }, .trusted 1, fv [(F.FAB_DFCLEAR_GO, 1), (F.FAB_DFCLEAR_NODE, 2)], wr (.trusted 1) FAB_DFCLEAR (fv [(F.FAB_DFCLEAR_GO, 1), (F.FAB_DFCLEAR_NODE, 2)]) ({ (State.sets (wDf) [(PRT_CFG 15, F.PRT_CFG_MODE, 1), (PRT_SEAMSTAT 15, F.PRT_SEAMSTAT_STATE, 3), (PRT_CFG 2, F.PRT_CFG_MODE, 1), (PRT_SEAMSTAT 2, F.PRT_SEAMSTAT_STATE, 3), (FAB_NODEID, F.FAB_NODEID_NODE, 100), (FAB_TIMESTAT, F.FAB_TIMESTAT_VALID, 1), (FAB_DFCFG, F.FAB_DFCFG_MAXNODE, 3), (FAB_DFCLEAR, F.FAB_DFCLEAR_BUSY, 0)]) with seam := { State.reset.seam with ports := [], bad := [(2, 64), (3, 64)] } }), by dsimp only; exact ⟨admitted_of (by decide +kernel), by decide +kernel⟩⟩
theorem witness_SeamTransactions_20 : ∃ (s : State) (u : State) (p : Nat) (n : Nat), dfFlowClear s n = some u ∧ s.home.nodeReplies = [] ∧ s.notices = [] ∧ s.seam.outq = [] ∧ s.seam.dups = [] ∧ s.seam.clear = some (n, 5120) ∧ seamLive (dfClearEnd u n) p = false :=
  ⟨wDfc, (dfFlowClear wDfc 2).getD State.reset, 9, 2, ⟨some_getD (by decide +kernel), by decide +kernel⟩⟩
theorem witness_SeamTransactions_21 : ∃ (s : State) (p : Nat) (off : Nat), p < 16 ∧ seamLive s p = true ∧ linkLocalReg off = true :=
  ⟨{ (State.sets (State.reset) [(PRT_CFG 15, F.PRT_CFG_MODE, 1), (PRT_SEAMSTAT 15, F.PRT_SEAMSTAT_STATE, 3), (PRT_CFG 2, F.PRT_CFG_MODE, 1), (PRT_SEAMSTAT 2, F.PRT_SEAMSTAT_STATE, 3), (FAB_NODEID, F.FAB_NODEID_NODE, 100), (FAB_TIMESTAT, F.FAB_TIMESTAT_VALID, 1), (FAB_DFCFG, F.FAB_DFCFG_MAXNODE, 3)]) with seam := { State.reset.seam with ports := [] } }, 2, GLB_ID, by decide +kernel⟩
theorem witness_SeamTransactions_22 : ∃ (s : State) (a : InTxn) (g : Nat) (q : Nat), let m := a.msg; let la := snoopLa m; let u := (dfHold s (dfEntryLa s m.src m.tid)).2; ((∀ opc status data, routePort u (reqAnswer u m opc status 0 data) 16 = some q)) ∧ s.seam.snoops = [a] ∧ a.dup = some g ∧ u.seam.snoops = [a] ∧ u.seam.outq = [] ∧ m.src ≠ ownNode u ∧ dcFind u (la / 4096) = none :=
  ⟨wPx1, wPxA1, 2, 15, by dsimp only; exact ⟨route_answer (by decide +kernel), by decide +kernel⟩⟩
theorem witness_SeamTransactions_23 : ∃ (s : State) (a : InTxn) (g : Nat) (q : Nat), let m := a.msg; let la := snoopLa m; let u := (dfHold s (dfEntryLa s m.src m.tid)).2; ((∀ opc status data, routePort u (reqAnswer u m opc status 0 data) 16 = some q)) ∧ s.seam.snoops = [a] ∧ a.dup = some g ∧ u.seam.snoops = [a] ∧ u.seam.outq = [] ∧ m.src ≠ ownNode u ∧ (dcFind u (la / 4096)).isSome = true ∧ u.seam.txs = [] ∧ recallsOut u la = false ∧ u.home.evicting = [] ∧ (dirOf u la).state = 0 ∧ lcFind u la = none ∧ copyFind u la = none ∧ (m.opc = 0x40 ∨ rightsOf u la = 0) :=
  ⟨wPx2, wPxA2, 2, 15, by dsimp only; exact ⟨route_answer (by decide +kernel), by decide +kernel⟩⟩
theorem witness_SeamTransactions_24 : ∃ (s : State) (a : InTxn) (g : Nat) (q : Nat), ∃ k e, let m := a.msg; let la := snoopLa m; let u := (dfHold s (dfEntryLa s m.src m.tid)).2; ((∀ opc status data, routePort u (reqAnswer u m opc status 0 data) 16 = some q)) ∧ s.seam.snoops = [a] ∧ a.dup = some g ∧ u.seam.snoops = [a] ∧ u.seam.outq = [] ∧ m.src ≠ ownNode u ∧ (dcFind u (la / 4096)).isSome = true ∧ u.seam.txs = [] ∧ recallsOut u la = false ∧ u.home.evicting = [] ∧ (dirOf u la).state = 0 ∧ lcFind u la = some (k, e) ∧ e.st = .dirty ∧ m.opc = 0x43 :=
  ⟨wPx6, wPxA6, 2, 15, lcBase 1407374883565632 + 5, ⟨false, 1407374883565632 / 64, .dirty, 0x77, 3, 0⟩, by dsimp only; exact ⟨route_answer (by decide +kernel), by decide +kernel⟩⟩
theorem witness_DramRequestsRefreshScrubAndRowTests_1 : ∃ (s : State) (c : Nat) (req : DramOp), let x := s.chan c; let line := fun (t : State) (k : Nat) => tabGet (fun _ => (0 : Line)) t.dram.lines k; c < 24 ∧ coreOpen s = true ∧ (if req.wr then canWrite s c else canRead s c req.frame) = true ∧ req.frame < chanFrames s c ∧ req.line < 64 ∧ ((∀ r ∈ x.slots, r.op.id ≠ req.id)) ∧ ((∀ r ∈ x.regul.held, r.op.id ≠ req.id)) :=
  ⟨{ (State.reset.sets [(DCH_STAT 23, F.DCH_STAT_STATE, 2), (DCH_WMARK 23, F.DCH_WMARK_END, 2 ^ 22), (DCH_WMARK 23, F.DCH_WMARK_FRAME, 100)]) with chans := [(2, { Chan.init with refDebt := 9 }), (23, { Chan.init with raaimt := [(0, 3), (1, 3)] , slots := [⟨⟨8, 5, 63, false, 28, 2, 0, false⟩, 0, false⟩] })] }, 23, ⟨7, 5, 63, false, 27, 2, 0, false⟩, by dsimp only; exact by decide +kernel⟩
theorem witness_DramRequestsRefreshScrubAndRowTests_2 : ∃ (s : State) (c : Nat) (tight : List Nat), let x := s.chan c; c < 24 ∧ refreshes s c = true ∧ refreshDueNow x = true ∧ tight.any (refCovers s c) = false :=
  ⟨{ (State.reset.sets [(DCH_STAT 23, F.DCH_STAT_STATE, 2), (DCH_WMARK 23, F.DCH_WMARK_END, 2 ^ 22), (DCH_WMARK 23, F.DCH_WMARK_FRAME, 100)]) with chans := [(2, { Chan.init with refDebt := 9 }), (23, { Chan.init with raaimt := [(0, 3), (1, 3)] , refDebt := 1, openRow := [(3, some 4)], raa := [(3, 5), (4, 2)], rfmDue := [3], slots := [⟨⟨7, 5, 63, false, 3, 2, 0, false⟩, 0, true⟩] })] }, 23, [], by dsimp only; exact by decide +kernel⟩
theorem witness_DramRequestsRefreshScrubAndRowTests_3 : ∃ (s : State) (c : Nat) (tight : List Nat), ∃ b rest, let x := s.chan c; c < 24 ∧ refreshes s c = true ∧ refreshDueNow x = false ∧ x.rfmDue = b :: rest ∧ b ∉ tight :=
  ⟨{ (State.reset.sets [(DCH_STAT 23, F.DCH_STAT_STATE, 2), (DCH_WMARK 23, F.DCH_WMARK_END, 2 ^ 22), (DCH_WMARK 23, F.DCH_WMARK_FRAME, 100)]) with chans := [(2, { Chan.init with refDebt := 9 }), (23, { Chan.init with raaimt := [(0, 3), (1, 3)] , rfmDue := [3, 9], openRow := [(3, some 4)], raa := [(3, 5)], slots := [⟨⟨7, 5, 63, false, 3, 2, 0, false⟩, 0, false⟩] })] }, 23, [], 3, [9], by dsimp only; exact by decide +kernel⟩
theorem witness_DramRequestsRefreshScrubAndRowTests_4 : ∃ (s : State) (c : Nat) (ready : List Nat), ∃ r, let x := s.chan c; c < 24 ∧ refreshes s c = true ∧ refreshDueNow x = false ∧ x.rfmDue = [] ∧ x.merge = [] ∧ x.slots = [r] ∧ r.issued = false ∧ r.op.id ∈ ready ∧ mayServe s c r = true ∧ inTest s c r = false ∧ actHeld s c r = false :=
  ⟨{ (State.reset.sets [(DCH_STAT 23, F.DCH_STAT_STATE, 2), (DCH_WMARK 23, F.DCH_WMARK_END, 2 ^ 22), (DCH_WMARK 23, F.DCH_WMARK_FRAME, 100)]) with chans := [(2, { Chan.init with refDebt := 9 }), (23, { Chan.init with raaimt := [(0, 3), (1, 3)] ,  slots := [⟨⟨7, 5, 63, true, 3, 2, 0, false⟩, 0, false⟩] })] }, 23, [7], ⟨⟨7, 5, 63, true, 3, 2, 0, false⟩, 0, false⟩, by dsimp only; exact by decide +kernel⟩
theorem witness_DramRequestsRefreshScrubAndRowTests_5 : ∃ (s : State) (c : Nat) (id : Nat) (err : BitVec 640) (q : DramReq), let x := s.chan c; let line := fun (t : State) (k : Nat) => tabGet (fun _ => (0 : Line)) t.dram.lines k; let pois := fun (t : State) (k : Nat) => tabGet (fun _ => false) t.dram.poison k; let k := dramKey c q.op.frame q.op.line; let e := tabGet (fun _ => (0 : BitVec 640)) s.dram.err k ^^^ err; c < 24 ∧ x.slots.find? (fun r => r.op.id == id && r.issued && !r.op.wr) = some q ∧ q.op.master ≠ 24 ∧ mergeFind s c q.op.frame q.op.line = none ∧ x.merge.length < 32 ∧ x.rowTest = none ∧ e = 0 ∧ pois s k = false :=
  ⟨{ (State.reset.sets [(DCH_STAT 23, F.DCH_STAT_STATE, 2), (DCH_WMARK 23, F.DCH_WMARK_END, 2 ^ 22), (DCH_WMARK 23, F.DCH_WMARK_FRAME, 100)]) with chans := [(2, { Chan.init with refDebt := 9 }), (23, { Chan.init with raaimt := [(0, 3), (1, 3)] , slots := [⟨⟨6, 5, 63, true, 3, 2, 0, false⟩, 0, false⟩, ⟨⟨7, 5, 63, false, 3, 2, 5, false⟩, 0, true⟩] })], dram := { State.reset.dram with lines := [(dramKey 23 5 63, 0x77)] } }, 23, 7, 0, ⟨⟨7, 5, 63, false, 3, 2, 5, false⟩, 0, true⟩, by dsimp only; exact by decide +kernel⟩
theorem witness_DramRequestsRefreshScrubAndRowTests_6 : ∃ (s : State) (c : Nat) (id : Nat) (err : BitVec 640) (q : DramReq), let x := s.chan c; let line := fun (t : State) (k : Nat) => tabGet (fun _ => (0 : Line)) t.dram.lines k; let pois := fun (t : State) (k : Nat) => tabGet (fun _ => false) t.dram.poison k; let k := dramKey c q.op.frame q.op.line; let e := tabGet (fun _ => (0 : BitVec 640)) s.dram.err k ^^^ err; c < 24 ∧ x.slots.find? (fun r => r.op.id == id && r.issued && !r.op.wr) = some q ∧ q.op.master ≠ 24 ∧ mergeFind s c q.op.frame q.op.line = none ∧ x.merge.length < 32 ∧ x.rowTest = none ∧ e = 0 ∧ pois s k = true :=
  ⟨{ (State.reset.sets [(DCH_STAT 23, F.DCH_STAT_STATE, 2), (DCH_WMARK 23, F.DCH_WMARK_END, 2 ^ 22), (DCH_WMARK 23, F.DCH_WMARK_FRAME, 100)]) with chans := [(2, { Chan.init with refDebt := 9 }), (23, { Chan.init with raaimt := [(0, 3), (1, 3)] , slots := [⟨⟨6, 5, 63, true, 3, 2, 0, false⟩, 0, false⟩, ⟨⟨7, 5, 63, false, 3, 2, 5, false⟩, 0, true⟩] })], dram := { State.reset.dram with poison := [(dramKey 23 5 63, true)] } }, 23, 7, 0, ⟨⟨7, 5, 63, false, 3, 2, 5, false⟩, 0, true⟩, by dsimp only; exact by decide +kernel⟩
theorem witness_DramRequestsRefreshScrubAndRowTests_7 : ∃ (s : State) (c : Nat) (id : Nat) (err : BitVec 640) (q : DramReq), ∃ d ns, let x := s.chan c; let line := fun (t : State) (k : Nat) => tabGet (fun _ => (0 : Line)) t.dram.lines k; let pois := fun (t : State) (k : Nat) => tabGet (fun _ => false) t.dram.poison k; let k := dramKey c q.op.frame q.op.line; let e := tabGet (fun _ => (0 : BitVec 640)) s.dram.err k ^^^ err; let got := rsDecode (xorBytes (rsEncode (lineBytes (line s k)) (pois s k)) (leBytes 80 e.toNat)) (chanX8 s c) (markOf s c (q.op.line % 2)); x.rowTest = none ∧ e ≠ 0 ∧ c < 24 ∧ x.slots.find? (fun r => r.op.id == id && r.issued && !r.op.wr) = some q ∧ q.op.master ≠ 24 ∧ mergeFind s c q.op.frame q.op.line = none ∧ x.merge.length < 32 ∧ got = .data d ns ∧ ns ≠ [] :=
  ⟨{ (State.reset.sets [(DCH_STAT 23, F.DCH_STAT_STATE, 2), (DCH_WMARK 23, F.DCH_WMARK_END, 2 ^ 22), (DCH_WMARK 23, F.DCH_WMARK_FRAME, 100)]) with chans := [(2, { Chan.init with refDebt := 9 }), (23, { Chan.init with raaimt := [(0, 3), (1, 3)] , slots := [⟨⟨6, 5, 63, true, 3, 2, 0, false⟩, 0, false⟩, ⟨⟨7, 5, 63, false, 3, 2, 5, false⟩, 0, true⟩] })], dram := { State.reset.dram with lines := [(dramKey 23 5 63, 0x77)], err := [(dramKey 23 5 63, 0xff)] } }, 23, 7, 0, ⟨⟨7, 5, 63, false, 3, 2, 5, false⟩, 0, true⟩, 0x77, [0], by dsimp only; exact ⟨by decide +kernel, by decide +kernel, by decide +kernel⟩⟩
theorem witness_DramRequestsRefreshScrubAndRowTests_8 : ∃ (s : State) (c : Nat) (id : Nat) (err : BitVec 640) (q : DramReq), let x := s.chan c; let line := fun (t : State) (k : Nat) => tabGet (fun _ => (0 : Line)) t.dram.lines k; let pois := fun (t : State) (k : Nat) => tabGet (fun _ => false) t.dram.poison k; let k := dramKey c q.op.frame q.op.line; let e := tabGet (fun _ => (0 : BitVec 640)) s.dram.err k ^^^ err; let got := rsDecode (xorBytes (rsEncode (lineBytes (line s k)) (pois s k)) (leBytes 80 e.toNat)) (chanX8 s c) (markOf s c (q.op.line % 2)); x.rowTest = none ∧ e ≠ 0 ∧ c < 24 ∧ x.slots.find? (fun r => r.op.id == id && r.issued && !r.op.wr) = some q ∧ q.op.master ≠ 24 ∧ mergeFind s c q.op.frame q.op.line = none ∧ x.merge.length < 32 ∧ got = .ue :=
  ⟨{ (State.reset.sets [(DCH_STAT 23, F.DCH_STAT_STATE, 2), (DCH_WMARK 23, F.DCH_WMARK_END, 2 ^ 22), (DCH_WMARK 23, F.DCH_WMARK_FRAME, 100)]) with chans := [(2, { Chan.init with refDebt := 9 }), (23, { Chan.init with raaimt := [(0, 3), (1, 3)] , slots := [⟨⟨6, 5, 63, true, 3, 2, 0, false⟩, 0, false⟩, ⟨⟨7, 5, 63, false, 3, 2, 5, false⟩, 0, true⟩] })], dram := { State.reset.dram with lines := [(dramKey 23 5 63, 0x77)] } }, 23, 7, 0xff00000000000000000000000000000000000000000000000000000000000000ff, ⟨⟨7, 5, 63, false, 3, 2, 5, false⟩, 0, true⟩, by dsimp only; exact ⟨by decide +kernel, by decide +kernel, by decide +kernel⟩⟩
theorem witness_DramRequestsRefreshScrubAndRowTests_9 : ∃ (s : State) (c : Nat) (id : Nat) (q : DramReq), let x := s.chan c; let line := fun (t : State) (k : Nat) => tabGet (fun _ => (0 : Line)) t.dram.lines k; c < 24 ∧ x.slots.find? (fun r => r.op.id == id && r.issued && r.op.wr) = some q ∧ ((∀ e ∈ x.merge, mergeId e.frame e.line ≠ id)) ∧ x.rowTest = none :=
  ⟨{ (State.reset.sets [(DCH_STAT 23, F.DCH_STAT_STATE, 2), (DCH_WMARK 23, F.DCH_WMARK_END, 2 ^ 22), (DCH_WMARK 23, F.DCH_WMARK_FRAME, 100)]) with chans := [(2, { Chan.init with refDebt := 9 }), (23, { Chan.init with raaimt := [(0, 3), (1, 3)] , slots := [⟨⟨7, 5, 63, true, 3, 2, 99, true⟩, 0, true⟩] })], dram := { State.reset.dram with lines := [(dramKey 23 5 63, 0x77)], err := [(dramKey 23 5 63, 3)] } }, 23, 7, ⟨⟨7, 5, 63, true, 3, 2, 99, true⟩, 0, true⟩, by dsimp only; exact by decide +kernel⟩
theorem witness_DramRequestsRefreshScrubAndRowTests_10 : ∃ (s : State) (c : Nat), c < 24 ∧ coreOpen s = true ∧ canWrite s c = true :=
  ⟨{ (State.reset.sets [(DCH_STAT 23, F.DCH_STAT_STATE, 2), (DCH_WMARK 23, F.DCH_WMARK_END, 2 ^ 22), (DCH_WMARK 23, F.DCH_WMARK_FRAME, 100)]) with chans := [(2, { Chan.init with refDebt := 9 }), (23, { Chan.init with raaimt := [(0, 3), (1, 3)] , refDebt := 0 })], time := 5000 }, 23, by decide +kernel⟩
theorem witness_DramRequestsRefreshScrubAndRowTests_11 : ∃ (s : State) (c : Nat), let x := s.chan c; c < 24 ∧ coreOpen s = true ∧ canWrite s c = true ∧ x.refAt + refInterval s c ≤ s.time :=
  ⟨{ (State.reset.sets [(DCH_STAT 23, F.DCH_STAT_STATE, 3), (DCH_WMARK 23, F.DCH_WMARK_END, 2 ^ 22), (DCH_WMARK 23, F.DCH_WMARK_FRAME, 100)]) with chans := [(2, { Chan.init with refDebt := 9 }), (23, { Chan.init with raaimt := [(0, 3), (1, 3)] , refDebt := 4 })], time := 5000 }, 23, by dsimp only; exact by decide +kernel⟩
theorem witness_DramRequestsRefreshScrubAndRowTests_12 : ∃ (s : State) (c : Nat), c < 24 ∧ coreOpen s = true :=
  ⟨{ (State.reset.sets [(DCH_STAT 23, F.DCH_STAT_STATE, 2), (DCH_WMARK 23, F.DCH_WMARK_END, 2 ^ 22), (DCH_WMARK 23, F.DCH_WMARK_FRAME, 100)]) with chans := [(2, { Chan.init with refDebt := 9 }), (23, { Chan.init with raaimt := [(0, 3), (1, 3)]  })] }, 23, by decide +kernel⟩
theorem witness_DramRequestsRefreshScrubAndRowTests_13 : ∃ (s : State) (c : Nat), c < 24 ∧ s.cstate c ≠ csABSENT ∧ coreOpen s = true :=
  ⟨{ (State.reset.sets [(DCH_STAT 23, F.DCH_STAT_STATE, 2), (DCH_WMARK 23, F.DCH_WMARK_END, 2 ^ 22), (DCH_WMARK 23, F.DCH_WMARK_FRAME, 100)]) with chans := [(2, { Chan.init with refDebt := 9 }), (23, { Chan.init with raaimt := [(0, 3), (1, 3)] , openRow := [(3, some 4), (5, some 9)], cmds := [⟨6, 0, 3, 4⟩, ⟨7, 1, 3, 0⟩, ⟨8, 0, 5, 9⟩] })] }, 23, by decide +kernel⟩
theorem witness_DramRequestsRefreshScrubAndRowTests_14 : ∃ (s : State) (c : Nat) (test : RowTest), let x := s.chan c; c < 24 ∧ x.rowTest = some test ∧ x.rowQueue = [] ∧ test.pa < 2 ^ 45 ∧ s.fltTests = [] ∧ (test.buf.map (·.key)).Nodup :=
  ⟨{ (State.reset.sets [(DCH_STAT 23, F.DCH_STAT_STATE, 2), (DCH_WMARK 23, F.DCH_WMARK_END, 2 ^ 22), (DCH_WMARK 23, F.DCH_WMARK_FRAME, 100), (DCH_MODULE 23 0, F.DCH_MODULE_SPPR, 1), (DCH_MODULE 23 1, F.DCH_MODULE_SPPR, 1)]) with chans := [(2, { Chan.init with refDebt := 9 }), (23, { Chan.init with raaimt := [(0, 3), (1, 3)] , rowTest := some ⟨5, [⟨77, 5, false, 0⟩, ⟨5, 0, true, 3⟩, ⟨dramKey 23 5 63, 9, false, 0⟩]⟩ })], dram := { State.reset.dram with lines := [(dramKey 23 5 63, 0x77), (77, 4)], poison := [(dramKey 23 5 63, true)] } }, 23, ⟨5, [⟨77, 5, false, 0⟩, ⟨5, 0, true, 3⟩, ⟨dramKey 23 5 63, 9, false, 0⟩]⟩, by dsimp only; exact by decide +kernel⟩
theorem witness_DramRequestsRefreshScrubAndRowTests_15 : ∃ (s : State) (c : Nat) (test : RowTest), let x := s.chan c; c < 24 ∧ x.rowTest = some test ∧ x.rowQueue = [] ∧ test.pa < 2 ^ 45 ∧ s.fltTests = [] ∧ (test.buf.map (·.key)).Nodup :=
  ⟨{ (State.reset.sets [(DCH_STAT 23, F.DCH_STAT_STATE, 2), (DCH_WMARK 23, F.DCH_WMARK_END, 2 ^ 22), (DCH_WMARK 23, F.DCH_WMARK_FRAME, 100), (DCH_MODULE 23 0, F.DCH_MODULE_SPPR, 1), (DCH_MODULE 23 1, F.DCH_MODULE_SPPR, 1)]) with chans := [(2, { Chan.init with refDebt := 9 }), (23, { Chan.init with raaimt := [(0, 3), (1, 3)] , rowTest := some ⟨5, [⟨77, 5, false, 0⟩, ⟨5, 0, true, 3⟩, ⟨dramKey 23 5 63, 9, false, 0⟩]⟩ })], dram := { State.reset.dram with lines := [(dramKey 23 5 63, 0x77), (77, 4)], poison := [(dramKey 23 5 63, true)] } }, 23, ⟨5, [⟨77, 5, false, 0⟩, ⟨5, 0, true, 3⟩, ⟨dramKey 23 5 63, 9, false, 0⟩]⟩, by dsimp only; exact by decide +kernel⟩
theorem witness_DramRequestsRefreshScrubAndRowTests_16 : ∃ (s : State) (c : Nat) (who : Who) (val : Word) (w : CtlWrite), admitted who (DCH_SCRUBCTL c) val s w ∧ c < 24 ∧ fld w.act F.DCH_SCRUBCTL_START = 1 :=
  ⟨{ (State.reset.sets [(DCH_STAT 23, F.DCH_STAT_STATE, 2), (DCH_WMARK 23, F.DCH_WMARK_END, 2 ^ 22), (DCH_WMARK 23, F.DCH_WMARK_FRAME, 100)]) with chans := [(2, { Chan.init with refDebt := 9 }), (23, { Chan.init with raaimt := [(0, 3), (1, 3)] , scrubLine := 4 })] }, 23, .trusted 1, fv [(F.DCH_SCRUBCTL_START, 1)], wr (.trusted 1) (DCH_SCRUBCTL 23) (fv [(F.DCH_SCRUBCTL_START, 1)]) ({ (State.reset.sets [(DCH_STAT 23, F.DCH_STAT_STATE, 2), (DCH_WMARK 23, F.DCH_WMARK_END, 2 ^ 22), (DCH_WMARK 23, F.DCH_WMARK_FRAME, 100)]) with chans := [(2, { Chan.init with refDebt := 9 }), (23, { Chan.init with raaimt := [(0, 3), (1, 3)] , scrubLine := 4 })] }), ⟨admitted_of (by decide +kernel), by decide +kernel⟩⟩
theorem witness_DramRequestsRefreshScrubAndRowTests_17 : ∃ (s : State) (c : Nat), c < 24 ∧ s.fget (DCH_SCRUBCTL c) F.DCH_SCRUBCTL_BUSY = 1 ∧ s.fget (DCH_SCRUBLIM c) F.DCH_SCRUBLIM_FRAME < s.fget (DCH_SCRUBBASE c) F.DCH_SCRUBBASE_FRAME :=
  ⟨{ (State.reset.sets [(DCH_STAT 23, F.DCH_STAT_STATE, 2), (DCH_WMARK 23, F.DCH_WMARK_END, 2 ^ 22), (DCH_WMARK 23, F.DCH_WMARK_FRAME, 100), (DCH_SCRUBCTL 23, F.DCH_SCRUBCTL_BUSY, 1), (DCH_SCRUBCTL 23, F.DCH_SCRUBCTL_STATUS, 5), (DCH_SCRUBBASE 23, F.DCH_SCRUBBASE_FRAME, 1)]) with chans := [(2, { Chan.init with refDebt := 9 }), (23, { Chan.init with raaimt := [(0, 3), (1, 3)]  })] }, 23, by decide +kernel⟩
theorem witness_DramRequestsRefreshScrubAndRowTests_18 : ∃ (s : State) (c : Nat) (rank : Nat) (delta : Int), let x := s.chan c; let v := tabGet (fun _ => (0 : Int)) x.track rank + delta.sign; c < 24 ∧ canWrite s c = true ∧ coreOpen s = true ∧ 16 < v.natAbs ∧ (¬ (x.reqWait = 0 ∧ (s.cstate c = csIN_SERVICE ∨ s.cstate c = csDRAINING))) :=
  ⟨{ (State.reset.sets [(DCH_STAT 23, F.DCH_STAT_STATE, 2), (DCH_WMARK 23, F.DCH_WMARK_END, 2 ^ 22), (DCH_WMARK 23, F.DCH_WMARK_FRAME, 100)]) with chans := [(2, { Chan.init with refDebt := 9 }), (23, { Chan.init with raaimt := [(0, 3), (1, 3)] , track := [(1, 16)], reqWait := 1 })] }, 23, 1, 1, by dsimp only; exact by decide +kernel⟩
theorem witness_DramRequestsRefreshScrubAndRowTests_19 : ∃ (s : State) (c : Nat) (rank : Nat) (delta : Int), let x := s.chan c; let v := tabGet (fun _ => (0 : Int)) x.track rank + delta.sign; c < 24 ∧ canWrite s c = true ∧ coreOpen s = true ∧ v.natAbs ≤ 16 :=
  ⟨{ (State.reset.sets [(DCH_STAT 23, F.DCH_STAT_STATE, 2), (DCH_WMARK 23, F.DCH_WMARK_END, 2 ^ 22), (DCH_WMARK 23, F.DCH_WMARK_FRAME, 100)]) with chans := [(2, { Chan.init with refDebt := 9 }), (23, { Chan.init with raaimt := [(0, 3), (1, 3)] , track := [(1, 15)] })] }, 23, 1, 9, by dsimp only; exact by decide +kernel⟩
theorem witness_DramRequestsRefreshScrubAndRowTests_20 : ∃ (s : State) (c : Nat) (rank : Nat) (delta : Int), let x := s.chan c; let v := tabGet (fun _ => (0 : Int)) x.track rank + delta.sign; c < 24 ∧ canWrite s c = true ∧ coreOpen s = true ∧ 16 < v.natAbs ∧ x.reqWait = 0 ∧ (s.cstate c = csIN_SERVICE ∨ s.cstate c = csDRAINING) :=
  ⟨{ (State.reset.sets [(DCH_STAT 23, F.DCH_STAT_STATE, 2), (DCH_WMARK 23, F.DCH_WMARK_END, 2 ^ 22), (DCH_WMARK 23, F.DCH_WMARK_FRAME, 100)]) with chans := [(2, { Chan.init with refDebt := 9 }), (23, { Chan.init with raaimt := [(0, 3), (1, 3)] , track := [(1, 16)] })] }, 23, 1, 1, by dsimp only; exact by decide +kernel⟩
theorem witness_DramRequestsRefreshScrubAndRowTests_21 : ∃ (s : State) (c : Nat) (e : MergeEnt) (id : Nat), let x := s.chan c; let line := fun (t : State) (k : Nat) => tabGet (fun _ => (0 : Line)) t.dram.lines k; c < 24 ∧ x.merge = [e] ∧ e.issued = true ∧ id = mergeId e.frame e.line ∧ x.rowTest = none ∧ x.rowQueue = [] :=
  ⟨{ (State.reset.sets [(DCH_STAT 23, F.DCH_STAT_STATE, 2), (DCH_WMARK 23, F.DCH_WMARK_END, 2 ^ 22), (DCH_WMARK 23, F.DCH_WMARK_FRAME, 100)]) with chans := [(2, { Chan.init with refDebt := 9 }), (23, { Chan.init with raaimt := [(0, 3), (1, 3)] , merge := [⟨5, 63, 0x99, true, 0, 28⟩], slots := [⟨⟨7, 5, 63, true, 3, 2, 99, true⟩, 0, true⟩] })], dram := { State.reset.dram with lines := [(dramKey 23 5 63, 0x77)], err := [(dramKey 23 5 63, 3)], poison := [(dramKey 23 5 63, true)] } }, 23, ⟨5, 63, 0x99, true, 0, 28⟩, mergeId 5 63, by dsimp only; exact by decide +kernel⟩
theorem witness_ChannelStatesTrainingAndRebuild_1 : ∃ (s : State) (c : Nat) (who : Who) (val : Word) (w : CtlWrite), let x := s.chan c; let d := fld w.new F.DCH_CTL_DRAIN; let d0 := s.fget (DCH_CTL c) F.DCH_CTL_DRAIN; let f := fld w.act F.DCH_CTL_FENCE; let r := fld w.act F.DCH_CTL_RETRAIN; nothingWaits s ∧ admitted who (DCH_CTL c) val s w ∧ c < 24 ∧ f = 0 ∧ r = 0 ∧ d ≠ d0 ∧ x.reqWait = 0 :=
  ⟨{ (State.reset.sets [(DCH_STAT 23, F.DCH_STAT_STATE, 2), (DCH_WMARK 23, F.DCH_WMARK_END, 2 ^ 22), (DCH_WMARK 23, F.DCH_WMARK_FRAME, 100)]) with chans := [(2, { Chan.init with refDebt := 9 }), (23, { Chan.init with raaimt := [(0, 3), (1, 3)]  })] }, 23, .trusted 1, fv [(F.DCH_CTL_DRAIN, 1)], wr (.trusted 1) (DCH_CTL 23) (fv [(F.DCH_CTL_DRAIN, 1)]) ({ (State.reset.sets [(DCH_STAT 23, F.DCH_STAT_STATE, 2), (DCH_WMARK 23, F.DCH_WMARK_END, 2 ^ 22), (DCH_WMARK 23, F.DCH_WMARK_FRAME, 100)]) with chans := [(2, { Chan.init with refDebt := 9 }), (23, { Chan.init with raaimt := [(0, 3), (1, 3)]  })] }), by dsimp only; exact ⟨by unfold nothingWaits; decide +kernel, admitted_of (by decide +kernel), by decide +kernel⟩⟩
theorem witness_ChannelStatesTrainingAndRebuild_2 : ∃ (s : State) (c : Nat) (who : Who) (val : Word) (w : CtlWrite), let st := s.cstate c; let d := fld w.new F.DCH_CTL_DRAIN; let d0 := s.fget (DCH_CTL c) F.DCH_CTL_DRAIN; let f := fld w.act F.DCH_CTL_FENCE; let r := fld w.act F.DCH_CTL_RETRAIN; nothingWaits s ∧ admitted who (DCH_CTL c) val s w ∧ c < 24 ∧ ((st = csDRAINING → d0 = 1)) ∧ ((st = csIN_SERVICE → d0 = 0)) ∧ f = 0 ∧ r = 1 ∧ d = d0 :=
  ⟨{ (State.reset.sets [(DCH_STAT 23, F.DCH_STAT_STATE, 2), (DCH_WMARK 23, F.DCH_WMARK_END, 2 ^ 22), (DCH_WMARK 23, F.DCH_WMARK_FRAME, 100)]) with chans := [(2, { Chan.init with refDebt := 9 }), (23, { Chan.init with raaimt := [(0, 3), (1, 3)]  })] }, 23, .trusted 1, fv [(F.DCH_CTL_RETRAIN, 1)], wr (.trusted 1) (DCH_CTL 23) (fv [(F.DCH_CTL_RETRAIN, 1)]) ({ (State.reset.sets [(DCH_STAT 23, F.DCH_STAT_STATE, 2), (DCH_WMARK 23, F.DCH_WMARK_END, 2 ^ 22), (DCH_WMARK 23, F.DCH_WMARK_FRAME, 100)]) with chans := [(2, { Chan.init with refDebt := 9 }), (23, { Chan.init with raaimt := [(0, 3), (1, 3)]  })] }), by dsimp only; exact ⟨by unfold nothingWaits; decide +kernel, admitted_of (by decide +kernel), by decide +kernel⟩⟩
theorem witness_ChannelStatesTrainingAndRebuild_3 : ∃ (s : State) (c : Nat) (who : Who) (val : Word) (w : CtlWrite), let st := s.cstate c; let d := fld w.new F.DCH_CTL_DRAIN; let d0 := s.fget (DCH_CTL c) F.DCH_CTL_DRAIN; let f := fld w.act F.DCH_CTL_FENCE; let r := fld w.act F.DCH_CTL_RETRAIN; nothingWaits s ∧ admitted who (DCH_CTL c) val s w ∧ c < 24 ∧ ((st = csDRAINING → d0 = 1)) ∧ ((st = csIN_SERVICE → d0 = 0)) ∧ f = 1 ∧ r = 0 ∧ d = d0 :=
  ⟨{ (State.reset.sets [(DCH_STAT 23, F.DCH_STAT_STATE, 3), (DCH_WMARK 23, F.DCH_WMARK_END, 2 ^ 22), (DCH_WMARK 23, F.DCH_WMARK_FRAME, 100), (DCH_CTL 23, F.DCH_CTL_DRAIN, 1)]) with chans := [(2, { Chan.init with refDebt := 9 }), (23, { Chan.init with raaimt := [(0, 3), (1, 3)]  })] }, 23, .trusted 1, fv [(F.DCH_CTL_FENCE, 1), (F.DCH_CTL_DRAIN, 1)], wr (.trusted 1) (DCH_CTL 23) (fv [(F.DCH_CTL_FENCE, 1), (F.DCH_CTL_DRAIN, 1)]) ({ (State.reset.sets [(DCH_STAT 23, F.DCH_STAT_STATE, 3), (DCH_WMARK 23, F.DCH_WMARK_END, 2 ^ 22), (DCH_WMARK 23, F.DCH_WMARK_FRAME, 100), (DCH_CTL 23, F.DCH_CTL_DRAIN, 1)]) with chans := [(2, { Chan.init with refDebt := 9 }), (23, { Chan.init with raaimt := [(0, 3), (1, 3)]  })] }), by dsimp only; exact ⟨by unfold nothingWaits; decide +kernel, admitted_of (by decide +kernel), by decide +kernel⟩⟩
theorem witness_ChannelStatesTrainingAndRebuild_4 : ∃ (s : State) (c : Nat), let x := s.chan c; let st := s.cstate c; let quiet := x.slots = [] ∧ x.regul.held = [] ∧ x.rowTest = none ∧ s.fltTests = []; nothingWaits s ∧ c < 24 ∧ groupServes s c = true ∧ ctlOpen s = true ∧ x.reqWait = 1 ∧ st ≠ csFENCED ∧ quiet :=
  ⟨{ (State.reset.sets [(DCH_STAT 23, F.DCH_STAT_STATE, 3), (DCH_WMARK 23, F.DCH_WMARK_END, 2 ^ 22), (DCH_WMARK 23, F.DCH_WMARK_FRAME, 100), (DCH_STAT 12, F.DCH_STAT_STATE, 3), (DCH_STAT 13, F.DCH_STAT_STATE, 2), (DCH_STAT 14, F.DCH_STAT_STATE, 3), (DCH_STAT 15, F.DCH_STAT_STATE, 2), (DCH_STAT 16, F.DCH_STAT_STATE, 3), (DCH_STAT 17, F.DCH_STAT_STATE, 2), (DCH_STAT 18, F.DCH_STAT_STATE, 3), (DCH_STAT 19, F.DCH_STAT_STATE, 2), (DCH_STAT 20, F.DCH_STAT_STATE, 3), (DCH_STAT 21, F.DCH_STAT_STATE, 2), (DCH_STAT 22, F.DCH_STAT_STATE, 3)]) with chans := [(2, { Chan.init with refDebt := 9 }), (23, { Chan.init with raaimt := [(0, 3), (1, 3)] , reqWait := 1, ring := some ⟨1, 2, 3, 0⟩ })] }, 23, by dsimp only; exact ⟨by unfold nothingWaits; decide +kernel, by decide +kernel⟩⟩
theorem witness_ChannelStatesTrainingAndRebuild_5 : ∃ (s : State) (c : Nat), let x := s.chan c; let quiet := x.slots = [] ∧ x.regul.held = [] ∧ x.rowTest = none ∧ s.fltTests = []; nothingWaits s ∧ c < 24 ∧ groupServes s c = true ∧ ctlOpen s = true ∧ x.reqWait = 2 ∧ quiet ∧ x.merge = [] :=
  ⟨{ (State.reset.sets [(DCH_STAT 23, F.DCH_STAT_STATE, 3), (DCH_WMARK 23, F.DCH_WMARK_END, 2 ^ 22), (DCH_WMARK 23, F.DCH_WMARK_FRAME, 100), (DCH_STAT 12, F.DCH_STAT_STATE, 3), (DCH_STAT 13, F.DCH_STAT_STATE, 2), (DCH_STAT 14, F.DCH_STAT_STATE, 3), (DCH_STAT 15, F.DCH_STAT_STATE, 2), (DCH_STAT 16, F.DCH_STAT_STATE, 3), (DCH_STAT 17, F.DCH_STAT_STATE, 2), (DCH_STAT 18, F.DCH_STAT_STATE, 3), (DCH_STAT 19, F.DCH_STAT_STATE, 2), (DCH_STAT 20, F.DCH_STAT_STATE, 3), (DCH_STAT 21, F.DCH_STAT_STATE, 2), (DCH_STAT 22, F.DCH_STAT_STATE, 3)]) with chans := [(2, { Chan.init with refDebt := 9 }), (23, { Chan.init with raaimt := [(0, 3), (1, 3)] , reqWait := 2, ring := some ⟨1, 2, 3, 0⟩ })] }, 23, by dsimp only; exact ⟨by unfold nothingWaits; decide +kernel, by decide +kernel⟩⟩
theorem witness_ChannelStatesTrainingAndRebuild_6 : ∃ (s : State) (c : Nat) (q : DramReq), let x := s.chan c; nothingWaits s ∧ c < 24 ∧ groupServes s c = true ∧ ctlOpen s = true ∧ x.slots = [q] ∧ q.issued = false ∧ x.regul.held = [] ∧ x.rowTest = none ∧ x.merge = [] ∧ areaOf s c q.op.frame = 3 ∧ x.reqWait = 2 ∧ q.op.wr = false :=
  ⟨{ (State.reset.sets [(DCH_STAT 23, F.DCH_STAT_STATE, 3), (DCH_WMARK 23, F.DCH_WMARK_END, 2 ^ 22), (DCH_WMARK 23, F.DCH_WMARK_FRAME, 100), (DCH_STAT 12, F.DCH_STAT_STATE, 3), (DCH_STAT 13, F.DCH_STAT_STATE, 2), (DCH_STAT 14, F.DCH_STAT_STATE, 3), (DCH_STAT 15, F.DCH_STAT_STATE, 2), (DCH_STAT 16, F.DCH_STAT_STATE, 3), (DCH_STAT 17, F.DCH_STAT_STATE, 2), (DCH_STAT 18, F.DCH_STAT_STATE, 3), (DCH_STAT 19, F.DCH_STAT_STATE, 2), (DCH_STAT 20, F.DCH_STAT_STATE, 3), (DCH_STAT 21, F.DCH_STAT_STATE, 2), (DCH_STAT 22, F.DCH_STAT_STATE, 3)]) with chans := [(2, { Chan.init with refDebt := 9 }), (23, { Chan.init with raaimt := [(0, 3), (1, 3)] , reqWait := 2, slots := [⟨⟨7, 5, 63, false, 3, 2, 0, false⟩, 0, false⟩] })] }, 23, ⟨⟨7, 5, 63, false, 3, 2, 0, false⟩, 0, false⟩, by dsimp only; exact ⟨by unfold nothingWaits; decide +kernel, by decide +kernel⟩⟩
theorem witness_ChannelStatesTrainingAndRebuild_7 : ∃ (s : State) (c : Nat) (q : DramReq), let x := s.chan c; nothingWaits s ∧ c < 24 ∧ groupServes s c = true ∧ ctlOpen s = true ∧ x.slots = [q] ∧ q.issued = false ∧ x.regul.held = [] ∧ x.rowTest = none ∧ x.merge = [] ∧ areaOf s c q.op.frame = 3 ∧ x.reqWait = 2 ∧ q.op.wr = true ∧ framePage s c q.op.frame = none :=
  ⟨{ (State.reset.sets [(DCH_STAT 23, F.DCH_STAT_STATE, 3), (DCH_WMARK 23, F.DCH_WMARK_END, 2 ^ 22), (DCH_WMARK 23, F.DCH_WMARK_FRAME, 100), (DCH_STAT 12, F.DCH_STAT_STATE, 3), (DCH_STAT 13, F.DCH_STAT_STATE, 2), (DCH_STAT 14, F.DCH_STAT_STATE, 3), (DCH_STAT 15, F.DCH_STAT_STATE, 2), (DCH_STAT 16, F.DCH_STAT_STATE, 3), (DCH_STAT 17, F.DCH_STAT_STATE, 2), (DCH_STAT 18, F.DCH_STAT_STATE, 3), (DCH_STAT 19, F.DCH_STAT_STATE, 2), (DCH_STAT 20, F.DCH_STAT_STATE, 3), (DCH_STAT 21, F.DCH_STAT_STATE, 2), (DCH_STAT 22, F.DCH_STAT_STATE, 3)]) with chans := [(2, { Chan.init with refDebt := 9 }), (23, { Chan.init with raaimt := [(0, 3), (1, 3)] , reqWait := 2, slots := [⟨⟨7, 5, 63, true, 3, 2, 0, false⟩, 0, false⟩] })] }, 23, ⟨⟨7, 5, 63, true, 3, 2, 0, false⟩, 0, false⟩, by dsimp only; exact ⟨by unfold nothingWaits; decide +kernel, by decide +kernel⟩⟩
theorem witness_ChannelStatesTrainingAndRebuild_8 : ∃ (s : State) (c : Nat), let x := s.chan c; nothingWaits s ∧ c < 24 ∧ groupServes s c = false ∧ ctlOpen s = true ∧ (x.reqWait = 1 ∨ x.reqWait = 2) :=
  ⟨{ (State.reset.sets [(DCH_STAT 23, F.DCH_STAT_STATE, 3), (DCH_WMARK 23, F.DCH_WMARK_END, 2 ^ 22), (DCH_WMARK 23, F.DCH_WMARK_FRAME, 100)]) with chans := [(2, { Chan.init with refDebt := 9 }), (23, { Chan.init with raaimt := [(0, 3), (1, 3)] , reqWait := 1 })] }, 23, by dsimp only; exact ⟨by unfold nothingWaits; decide +kernel, by decide +kernel⟩⟩
theorem witness_ChannelStatesTrainingAndRebuild_9 : ∃ (s : State) (c : Nat), let x := s.chan c; let st := s.cstate c; nothingWaits s ∧ c < 24 ∧ st = csRETRAINING ∧ ctlOpen s = true ∧ 10 ≤ x.trainStep :=
  ⟨{ (State.reset.sets [(DCH_STAT 23, F.DCH_STAT_STATE, 4), (DCH_WMARK 23, F.DCH_WMARK_END, 2 ^ 22), (DCH_WMARK 23, F.DCH_WMARK_FRAME, 100), (DCH_CFG 23, F.DCH_CFG_TEST, 0)]) with chans := [(2, { Chan.init with refDebt := 9 }), (23, { Chan.init with raaimt := [(0, 3), (1, 3)] , trainStep := 10, ring := some ⟨1, 2, 3, 0⟩ })] }, 23, by dsimp only; exact ⟨by unfold nothingWaits; decide +kernel, by decide +kernel⟩⟩
theorem witness_ChannelStatesTrainingAndRebuild_10 : ∃ (s : State) (c : Nat), let x := s.chan c; let st := s.cstate c; let quiet := x.slots = [] ∧ x.regul.held = [] ∧ x.rowTest = none ∧ s.fltTests = []; nothingWaits s ∧ c < 24 ∧ st = csRETRAINING ∧ ctlOpen s = true ∧ x.trainRetried = true ∧ quiet :=
  ⟨{ (State.reset.sets [(DCH_STAT 23, F.DCH_STAT_STATE, 4), (DCH_WMARK 23, F.DCH_WMARK_END, 2 ^ 22), (DCH_WMARK 23, F.DCH_WMARK_FRAME, 100), (DCH_CFG 23, F.DCH_CFG_TEST, 0)]) with chans := [(2, { Chan.init with refDebt := 9 }), (23, { Chan.init with raaimt := [(0, 3), (1, 3)] , trainStep := 4, trainRetried := true, ring := some ⟨1, 2, 3, 0⟩ })] }, 23, by dsimp only; exact ⟨by unfold nothingWaits; decide +kernel, by decide +kernel⟩⟩
theorem witness_ChannelStatesTrainingAndRebuild_11 : ∃ (s : State) (c : Nat), let st := s.cstate c; nothingWaits s ∧ c < 24 ∧ st = csTESTING ∧ s.fget (DCH_CFG c) F.DCH_CFG_TEST = 0 :=
  ⟨{ (State.reset.sets [(DCH_STAT 23, F.DCH_STAT_STATE, 6), (DCH_WMARK 23, F.DCH_WMARK_END, 2 ^ 22), (DCH_WMARK 23, F.DCH_WMARK_FRAME, 100), (DCH_CFG 23, F.DCH_CFG_TEST, 0)]) with chans := [(2, { Chan.init with refDebt := 9 }), (23, { Chan.init with raaimt := [(0, 3), (1, 3)] ,  ring := some ⟨1, 2, 3, 0⟩ })] }, 23, by dsimp only; exact ⟨by unfold nothingWaits; decide +kernel, by decide +kernel⟩⟩
theorem witness_ChannelStatesTrainingAndRebuild_12 : ∃ (s : State) (c : Nat), let st := s.cstate c; nothingWaits s ∧ c < 24 ∧ st = csTESTING ∧ s.fget (DCH_CFG c) F.DCH_CFG_TEST ≠ 0 :=
  ⟨{ (State.reset.sets [(DCH_STAT 23, F.DCH_STAT_STATE, 6), (DCH_WMARK 23, F.DCH_WMARK_END, 2 ^ 22), (DCH_WMARK 23, F.DCH_WMARK_FRAME, 100), (DCH_CFG 23, F.DCH_CFG_TEST, 1)]) with chans := [(2, { Chan.init with refDebt := 9 }), (23, { Chan.init with raaimt := [(0, 3), (1, 3)] ,  ring := some ⟨1, 2, 3, 0⟩ })] }, 23, by dsimp only; exact ⟨by unfold nothingWaits; decide +kernel, by decide +kernel⟩⟩
theorem witness_ChannelStatesTrainingAndRebuild_13 : ∃ (s : State) (c : Nat), let x := s.chan c; let st := s.cstate c; let quiet := x.slots = [] ∧ x.regul.held = [] ∧ x.rowTest = none ∧ s.fltTests = []; nothingWaits s ∧ c < 24 ∧ st ≠ csABSENT ∧ st ≠ csFENCED ∧ quiet :=
  ⟨{ (State.reset.sets [(DCH_STAT 23, F.DCH_STAT_STATE, 2), (DCH_WMARK 23, F.DCH_WMARK_END, 2 ^ 22), (DCH_WMARK 23, F.DCH_WMARK_FRAME, 100)]) with chans := [(2, { Chan.init with refDebt := 9 }), (23, { Chan.init with raaimt := [(0, 3), (1, 3)] , reqWait := 1 })] }, 23, by dsimp only; exact ⟨by unfold nothingWaits; decide +kernel, by decide +kernel⟩⟩
theorem witness_ChannelStatesTrainingAndRebuild_14 : ∃ (s : State) (c : Nat) (m : ModuleInfo) (v : Nat), let st := s.cstate c; nothingWaits s ∧ c < 24 ∧ st = csABSENT ∧ ctlOpen s = true ∧ s.fget (HEM_STAT c) F.HEM_STAT_PG ≠ 0 ∧ gated s (17 + c) = false ∧ moduleOk m = true ∧ rateOf (min 2 (s.fget (DCH_CFG c) F.DCH_CFG_MAXSPD)) m none = some v :=
  ⟨{ (State.reset.sets [(DCH_STAT 23, F.DCH_STAT_STATE, 0), (DCH_WMARK 23, F.DCH_WMARK_END, 2 ^ 22), (DCH_WMARK 23, F.DCH_WMARK_FRAME, 100), (HEM_STAT 23, F.HEM_STAT_PG, 1), (DCH_CFG 23, F.DCH_CFG_MAXSPD, 1)]) with chans := [(2, { Chan.init with refDebt := 9 }), (23, { Chan.init with raaimt := [(0, 3), (1, 3)]  })], dram := { State.reset.dram with lines := [(5, 7), (dramKey 23 5 63, 0x77)], poison := [(6, true), (dramKey 23 5 63, true)], err := [(dramKey 23 5 63, 4)] } }, 23, { kind := .rdimm, width := 4, ranks := 2, raw := 7, cid := 1, sppr := true, dieGb := 16, sizeGib := 64, rated := 8800, raaimt := 32, raammt := 96, rfmSup := true, eccWidth8 := true, readable := true, mbist := false }, 1, by dsimp only; exact ⟨by unfold nothingWaits; decide +kernel, by decide +kernel⟩⟩
theorem witness_ChannelStatesTrainingAndRebuild_15 : ∃ (s : State) (c : Nat) (m : ModuleInfo), let st := s.cstate c; nothingWaits s ∧ c < 24 ∧ st = csABSENT ∧ ctlOpen s = true ∧ s.fget (HEM_STAT c) F.HEM_STAT_PG ≠ 0 ∧ gated s (17 + c) = false ∧ moduleOk m = false :=
  ⟨{ (State.reset.sets [(DCH_STAT 23, F.DCH_STAT_STATE, 0), (DCH_WMARK 23, F.DCH_WMARK_END, 2 ^ 22), (DCH_WMARK 23, F.DCH_WMARK_FRAME, 100), (HEM_STAT 23, F.HEM_STAT_PG, 1), (DCH_MODULE 23 0, F.DCH_MODULE_SPPR, 1)]) with chans := [(2, { Chan.init with refDebt := 9 }), (23, { Chan.init with raaimt := [(0, 3), (1, 3)]  })] }, 23, { kind := .rdimm, width := 4, ranks := 2, raw := 7, cid := 1, sppr := true, dieGb := 17, sizeGib := 64, rated := 8800, raaimt := 32, raammt := 96, rfmSup := true, eccWidth8 := true, readable := true, mbist := false }, by dsimp only; exact ⟨by unfold nothingWaits; decide +kernel, by decide +kernel⟩⟩
theorem witness_ChannelStatesTrainingAndRebuild_16 : ∃ (s : State) (c : Nat), let x := s.chan c; nothingWaits s ∧ c < 24 ∧ x.trainStep ≠ 0 ∧ ctlOpen s = true ∧ x.trainStep < 10 :=
  ⟨{ (State.reset.sets [(DCH_STAT 23, F.DCH_STAT_STATE, 1), (DCH_WMARK 23, F.DCH_WMARK_END, 2 ^ 22), (DCH_WMARK 23, F.DCH_WMARK_FRAME, 100)]) with chans := [(2, { Chan.init with refDebt := 9 }), (23, { Chan.init with raaimt := [(0, 3), (1, 3)] , trainStep := 9, trainRetried := true, atBoot := true })] }, 23, by dsimp only; exact ⟨by unfold nothingWaits; decide +kernel, by decide +kernel⟩⟩
theorem witness_ChannelStatesTrainingAndRebuild_17 : ∃ (s : State) (c : Nat), let x := s.chan c; let st := s.cstate c; nothingWaits s ∧ c < 24 ∧ x.trainStep ≠ 0 ∧ ctlOpen s = true ∧ st ≠ csRETRAINING ∧ 10 ≤ x.trainStep :=
  ⟨{ (State.reset.sets [(DCH_STAT 23, F.DCH_STAT_STATE, 1), (DCH_WMARK 23, F.DCH_WMARK_END, 2 ^ 22), (DCH_WMARK 23, F.DCH_WMARK_FRAME, 100)]) with chans := [(2, { Chan.init with refDebt := 9 }), (23, { Chan.init with raaimt := [(0, 3), (1, 3)] , trainStep := 10, trainRetried := false, atBoot := true })] }, 23, by dsimp only; exact ⟨by unfold nothingWaits; decide +kernel, by decide +kernel⟩⟩
theorem witness_ChannelStatesTrainingAndRebuild_18 : ∃ (s : State) (c : Nat), let x := s.chan c; let st := s.cstate c; nothingWaits s ∧ c < 24 ∧ x.trainStep ≠ 0 ∧ ctlOpen s = true ∧ x.trainRetried = false ∧ (x.trainStep < 10 ∨ st ≠ csRETRAINING) :=
  ⟨{ (State.reset.sets [(DCH_STAT 23, F.DCH_STAT_STATE, 1), (DCH_WMARK 23, F.DCH_WMARK_END, 2 ^ 22), (DCH_WMARK 23, F.DCH_WMARK_FRAME, 100)]) with chans := [(2, { Chan.init with refDebt := 9 }), (23, { Chan.init with raaimt := [(0, 3), (1, 3)] , trainStep := 10, trainRetried := false, atBoot := false })] }, 23, by dsimp only; exact ⟨by unfold nothingWaits; decide +kernel, by decide +kernel⟩⟩
theorem witness_ChannelStatesTrainingAndRebuild_19 : ∃ (s : State) (c : Nat), let x := s.chan c; let st := s.cstate c; nothingWaits s ∧ c < 24 ∧ x.trainStep ≠ 0 ∧ ctlOpen s = true ∧ st ≠ csRETRAINING ∧ x.trainRetried = true :=
  ⟨{ (State.reset.sets [(DCH_STAT 23, F.DCH_STAT_STATE, 1), (DCH_WMARK 23, F.DCH_WMARK_END, 2 ^ 22), (DCH_WMARK 23, F.DCH_WMARK_FRAME, 100)]) with chans := [(2, { Chan.init with refDebt := 9 }), (23, { Chan.init with raaimt := [(0, 3), (1, 3)] , trainStep := 10, trainRetried := true, atBoot := false })] }, 23, by dsimp only; exact ⟨by unfold nothingWaits; decide +kernel, by decide +kernel⟩⟩
theorem witness_ChannelStatesTrainingAndRebuild_20 : ∃ (s : State) (c : Nat) (who : Who) (val : Word) (w : CtlWrite), c < 24 ∧ nothingWaits s ∧ admitted who (DCH_RBRING c) val s w :=
  ⟨{ (State.reset.sets [(DCH_STAT 23, F.DCH_STAT_STATE, 7), (DCH_WMARK 23, F.DCH_WMARK_END, 2 ^ 22), (DCH_WMARK 23, F.DCH_WMARK_FRAME, 100)]) with chans := [(2, { Chan.init with refDebt := 9 }), (23, { Chan.init with raaimt := [(0, 3), (1, 3)] , ringStop := true })] }, 23, .trusted 1, fv [(F.DCH_RBRING_EN, 1), (F.DCH_RBRING_LPN, 9)], wr (.trusted 1) (DCH_RBRING 23) (fv [(F.DCH_RBRING_EN, 1), (F.DCH_RBRING_LPN, 9)]) ({ (State.reset.sets [(DCH_STAT 23, F.DCH_STAT_STATE, 7), (DCH_WMARK 23, F.DCH_WMARK_END, 2 ^ 22), (DCH_WMARK 23, F.DCH_WMARK_FRAME, 100)]) with chans := [(2, { Chan.init with refDebt := 9 }), (23, { Chan.init with raaimt := [(0, 3), (1, 3)] , ringStop := true })] }), ⟨by decide +kernel, by unfold nothingWaits; decide +kernel, admitted_of (by decide +kernel)⟩⟩
theorem witness_ChannelStatesTrainingAndRebuild_21 : ∃ (s : State) (c : Nat) (s1 : State) (s2 : State) (h : BobReply) (d : BobReply), let x := s.chan c; let st := s.cstate c; let base := s.fget (DCH_RBRING c) F.DCH_RBRING_LPN * 4096; let l := h.data; let e := d.data; let at16 := 16 * (lineNum l 8 4 % 252); let first := lineNum e (at16 % 64) 4; let count := lineNum e (at16 % 64 + 4) 4; let action := lineNum e (at16 % 64 + 8) 1; nothingWaits s ∧ ringRead s c base = (some h, s1) ∧ ringRead s1 c (base + (64 + at16) / 64 * 64) = (some d, s2) ∧ c < 24 ∧ s.fget (DCH_RBRING c) F.DCH_RBRING_EN = 1 ∧ coreOpen s = true ∧ x.ringStop = false ∧ x.ring = none ∧ x.ringSeen = none ∧ st = csREJOINING ∧ h.poison = false ∧ statusClass h.status < 2 ∧ lineNum l 8 4 < lineNum l 0 8 ∧ d.poison = false ∧ statusClass d.status < 2 ∧ first = s2.fget (DCH_WMARK c) F.DCH_WMARK_FRAME ∧ 0 < count ∧ first + count ≤ chanFrames s2 c ∧ lineNum e (at16 % 64 + 9) 7 = 0 ∧ action ≤ 4 ∧ actionAll s2 c action first (first + count - 1) = true :=
  ⟨wRing0, 23, wRingA0.2, wRingB0.2, ⟨2071, 0, 0x5000, 129127208515966861320, false, 0⟩, ⟨2071, 0, 20608, 2180516173394542642874429421544132826721551477293379002855951220987009340362957372440753076686857619101299596510150393677918556984967168, false, 0⟩, by dsimp only; exact ⟨by unfold nothingWaits; decide +kernel, pair_of (by decide +kernel), pair_of (by decide +kernel), by decide +kernel⟩⟩
theorem witness_ChannelStatesTrainingAndRebuild_22 : ∃ (s : State) (c : Nat) (f : Nat) (left : Nat) (action : Nat) (consumed : Nat), let x := s.chan c; let st := s.cstate c; let pois := fun (t : State) (k : Nat) => tabGet (fun _ => false) t.dram.poison k; let twin := c / 12 * 12 + (c % 12 + 6) % 12; nothingWaits s ∧ c < 24 ∧ x.ring = some ⟨f, left, action, consumed⟩ ∧ st = csREJOINING ∧ 2 ≤ left ∧ f < 2 ^ 28 ∧ f + 1 ≠ chanFrames s c ∧ action ≠ 0 ∧ coreOpen s = true ∧ x.rowTest = none ∧ ((∀ k ∈ rebuildChans c action, 64 ≤ passes s k 26)) ∧ action = 1 ∧ x.merge = [] ∧ (s.chan twin).merge = [] ∧ (s.chan twin).rowTest = none ∧ canRead s twin f = true ∧ ((∀ l < 64, tabGet (fun _ => (0 : BitVec 640)) s.dram.err (dramKey twin f l) = 0 ∧ pois s (dramKey twin f l) = false)) :=
  ⟨{ (State.reset.sets [(DCH_STAT 23, F.DCH_STAT_STATE, 7), (DCH_WMARK 23, F.DCH_WMARK_END, 2 ^ 22), (DCH_WMARK 23, F.DCH_WMARK_FRAME, 100), (DCH_STAT 17, F.DCH_STAT_STATE, 2)]) with chans := [(2, { Chan.init with refDebt := 9 }), (23, { Chan.init with raaimt := [(0, 3), (1, 3)] , regul := { Regul.init with passes := [(26, 64)] }, ring := some ⟨100, 3, 1, 9⟩ }), (17, { Chan.init with regul := { Regul.init with passes := [(26, 64)] } })], dram := { State.reset.dram with lines := [(dramKey 17 100 63, 0x77), (dramKey 23 100 3, 0x99)], poison := [(dramKey 23 100 3, true)] } }, 23, 100, 3, 1, 9, by dsimp only; exact ⟨by unfold nothingWaits; decide +kernel, by decide +kernel⟩⟩
theorem witness_ChannelStatesTrainingAndRebuild_23 : ∃ (s : State) (c : Nat) (f : Nat) (left : Nat) (action : Nat) (consumed : Nat), let x := s.chan c; let st := s.cstate c; nothingWaits s ∧ c < 24 ∧ x.ring = some ⟨f, left, action, consumed⟩ ∧ st = csREJOINING ∧ 2 ≤ left ∧ f < 2 ^ 28 ∧ f + 1 ≠ chanFrames s c ∧ action ≠ 0 ∧ coreOpen s = true ∧ x.rowTest = none ∧ ((∀ k ∈ rebuildChans c action, 64 ≤ passes s k 26)) ∧ 3 ≤ action :=
  ⟨{ (State.reset.sets [(DCH_STAT 23, F.DCH_STAT_STATE, 7), (DCH_WMARK 23, F.DCH_WMARK_END, 2 ^ 22), (DCH_WMARK 23, F.DCH_WMARK_FRAME, 100), (DCH_STAT 17, F.DCH_STAT_STATE, 2)]) with chans := [(2, { Chan.init with refDebt := 9 }), (23, { Chan.init with raaimt := [(0, 3), (1, 3)] , regul := { Regul.init with passes := [(26, 64)] }, ring := some ⟨100, 3, 3, 9⟩ }), (17, { Chan.init with regul := { Regul.init with passes := [(26, 64)] } })], dram := { State.reset.dram with lines := [(dramKey 17 100 63, 0x77), (dramKey 23 100 3, 0x99)], poison := [(dramKey 23 100 3, true)] } }, 23, 100, 3, 3, 9, by dsimp only; exact ⟨by unfold nothingWaits; decide +kernel, by decide +kernel⟩⟩
theorem witness_FaultRecordsLevelsAndReadmission_1 : ∃ (s : State) (r : Report), s.fltAge.length < 1024 ∧ s.fltAge.length ∉ s.fltAge ∧ s.fltTests = [] ∧ s.pst = 0 ∧ s.fget PWR_CTL F.PWR_CTL_BUSY = 0 ∧ r ∈ s.reports ∧ srcDefined r.src = true ∧ r.level = some 0 ∧ r.code ∉ [C.DCH_F_ROW, C.DCH_W_SPARED, C.SRM_F_BANK, C.SRM_W_COLUMN_REPAIRED, C.CAL_F_LANE_LOST] :=
  ⟨{ (State.sets (State.reset) []) with reports := [{ src := (srcId 3 3), elem := 0, code := C.PLT_F_UNIT, addr := 0, detail := 0, level := none }, { src := (srcId 9 0), elem := 65535, code := C.FAB_W_REISSUED, addr := 0, detail := 1099511627785, level := some 0 }], time := 777, fltAge := (List.range 1023) }, { src := (srcId 9 0), elem := 65535, code := C.FAB_W_REISSUED, addr := 0, detail := 1099511627785, level := some 0 }, by decide +kernel⟩
theorem witness_FaultRecordsLevelsAndReadmission_2 : ∃ (s : State) (r : Report) (n : Nat), ((∃ u, u ≠ n ∧ u < 24 ∧ u / 12 = n / 12 ∧ srcOut s (srcId 3 u) = false)) ∧ s.fltAge.length < 1024 ∧ s.fltAge.length ∉ s.fltAge ∧ s.fltTests = [] ∧ s.pst = 0 ∧ s.fget PWR_CTL F.PWR_CTL_BUSY = 0 ∧ r ∈ s.reports ∧ n < 24 ∧ r.src = srcId 3 n ∧ r.code = C.PLT_F_UNIT ∧ r.level = some 2 ∧ s.fget FLT_READMIT F.FLT_READMIT_BUSY = 0 :=
  ⟨{ (State.sets (State.reset) []) with reports := [{ src := (srcId 3 23), elem := 0, code := C.PLT_F_UNIT, addr := 5, detail := 9, level := some 2 }], time := 777, fltAge := (List.range 1023), tier := { State.reset.tier with pleat := [⟨23, 1, 64, 1, 1, false, true, false⟩] } }, { src := (srcId 3 23), elem := 0, code := C.PLT_F_UNIT, addr := 5, detail := 9, level := some 2 }, 23, ⟨⟨22, by decide +kernel⟩, by decide +kernel⟩⟩
theorem witness_FaultRecordsLevelsAndReadmission_3 : ∃ (s : State), s.fltAge.length < 1024 ∧ s.fltAge.length ∉ s.fltAge ∧ s.fltTests = [] ∧ s.pst = 0 ∧ s.fget PWR_CTL F.PWR_CTL_BUSY = 0 ∧ s.devLevel < 4 :=
  ⟨{ (State.sets (State.reset) [(FLT_STAT, F.FLT_STAT_DEVLEVEL, 3), (PRT_CFG 15, F.PRT_CFG_MODE, 0), (PRT_LINKSTAT 15, F.PRT_LINKSTAT_UP, 1)]) with reports := [], time := 777, fltAge := (List.range 1023), ports := [(15, { Port.init with trk := [⟨5, false, 64, 64, 0⟩] })] }, by decide +kernel⟩
theorem witness_FaultRecordsLevelsAndReadmission_4 : ∃ (s : State), ∃ c, s.fltAge.length < 1024 ∧ s.fltAge.length ∉ s.fltAge ∧ s.fltTests = [] ∧ s.pst = 0 ∧ s.fget PWR_CTL F.PWR_CTL_BUSY = 0 ∧ c < 4 :=
  ⟨{ (State.sets (State.reset) [(FLT_SRCCFG (srcId 11 3), F.FLT_SRCCFG_N, 9), (FLT_SRCSTAT (srcId 11 3), F.FLT_SRCSTAT_COUNT, 4)]) with reports := [], time := 777, fltAge := (List.range 1023) }, 3, by decide +kernel⟩
theorem witness_FaultRecordsLevelsAndReadmission_5 : ∃ (s : State) (x : FltTest) (n : Nat), n < 24 ∧ s.fltTests = [x] ∧ x.src = srcId 3 n ∧ x.code = C.PLT_F_UNIT ∧ x.idx < 1024 :=
  ⟨{ (State.sets (State.reset) [(FLT_REC 1022 1, ⟨48, 2⟩, 1)]) with reports := [], time := 777, fltAge := (List.range 1023), fltTests := [⟨srcId 3 23, 0, C.PLT_F_UNIT, 1022, false⟩] }, ⟨srcId 3 23, 0, C.PLT_F_UNIT, 1022, false⟩, 23, by decide +kernel⟩
theorem witness_FaultRecordsLevelsAndReadmission_6 : ∃ (s : State) (x : FltTest) (n : Nat), n < 24 ∧ s.fltTests = [x] ∧ x.src = srcId 3 n ∧ x.code = C.PLT_F_UNIT ∧ x.idx < 1024 ∧ s.fltAge.length < 1024 ∧ s.fltAge.length ≠ x.idx ∧ s.pst = 0 ∧ s.fget PWR_CTL F.PWR_CTL_BUSY = 0 ∧ s.fget FLT_READMIT F.FLT_READMIT_BUSY = 0 :=
  ⟨{ (State.sets (State.reset) [(FLT_REC 1022 1, ⟨48, 2⟩, 1)]) with reports := [], time := 777, fltAge := (List.range 1023), fltTests := [⟨srcId 3 23, 0, C.PLT_F_UNIT, 1022, false⟩] }, ⟨srcId 3 23, 0, C.PLT_F_UNIT, 1022, false⟩, 23, by decide +kernel⟩
theorem witness_FaultRecordsLevelsAndReadmission_7 : ∃ (s : State) (x : FltTest) (n : Nat), n < 24 ∧ s.fltTests = [x] ∧ x.src = srcId 3 n ∧ x.code = C.PLT_F_UNIT ∧ x.idx < 1024 :=
  ⟨{ (State.sets (State.reset) [(FLT_REC 1022 1, ⟨48, 2⟩, 1)]) with reports := [], time := 777, fltAge := (List.range 1023), fltTests := [⟨srcId 3 23, 0, C.PLT_F_UNIT, 1022, false⟩] }, ⟨srcId 3 23, 0, C.PLT_F_UNIT, 1022, false⟩, 23, by decide +kernel⟩
theorem witness_FaultRecordsLevelsAndReadmission_8 : ∃ (s : State) (who : Who) (val : Word) (w : CtlWrite), admitted who FLT_LOG val s w ∧ fld w.act F.FLT_LOG_ACK = 1 :=
  ⟨State.reset.sets [(FLT_REC 1023 1, ⟨53, 2⟩, 1), (FLT_REC 1023 1, ⟨0, 12⟩, 403), (FLT_REC 1023 3, ⟨0, 12⟩, 403)], .trusted 1, fv [(F.FLT_LOG_ACK, 1), (F.FLT_LOG_ACKIDX, 1023)], wr (.trusted 1) (FLT_LOG) (fv [(F.FLT_LOG_ACK, 1), (F.FLT_LOG_ACKIDX, 1023)]) (State.reset.sets [(FLT_REC 1023 1, ⟨53, 2⟩, 1), (FLT_REC 1023 1, ⟨0, 12⟩, 403), (FLT_REC 1023 3, ⟨0, 12⟩, 403)]), ⟨admitted_of (by decide +kernel), by decide +kernel⟩⟩
theorem witness_FaultRecordsLevelsAndReadmission_9 : ∃ (s : State) (who : Who) (val : Word) (w : CtlWrite), admitted who FLT_LEVELCTL val s w ∧ nothingWaits s ∧ s.spools = [] ∧ fld w.act F.FLT_LEVELCTL_EXIT_BASTING = 0 ∧ fld w.act F.FLT_LEVELCTL_RELEASE = 1 ∧ s.devLevel ≠ 4 :=
  ⟨State.reset.fset FLT_STAT F.FLT_STAT_DEVLEVEL 0, .trusted 1, fv [(F.FLT_LEVELCTL_RELEASE, 1)], wr (.trusted 1) (FLT_LEVELCTL) (fv [(F.FLT_LEVELCTL_RELEASE, 1)]) (State.reset.fset FLT_STAT F.FLT_STAT_DEVLEVEL 0), ⟨admitted_of (by decide +kernel), by unfold nothingWaits; decide +kernel, by decide +kernel⟩⟩
theorem witness_FaultRecordsLevelsAndReadmission_10 : ∃ (s : State) (who : Who) (val : Word) (w : CtlWrite), admitted who FLT_LEVELCTL val s w ∧ nothingWaits s ∧ s.spools = [] ∧ fld w.act F.FLT_LEVELCTL_EXIT_BASTING = 1 ∧ fld w.act F.FLT_LEVELCTL_RELEASE = 0 ∧ s.devLevel = 3 :=
  ⟨State.reset.fset FLT_STAT F.FLT_STAT_DEVLEVEL 3, .trusted 1, fv [(F.FLT_LEVELCTL_EXIT_BASTING, 1)], wr (.trusted 1) (FLT_LEVELCTL) (fv [(F.FLT_LEVELCTL_EXIT_BASTING, 1)]) (State.reset.fset FLT_STAT F.FLT_STAT_DEVLEVEL 3), ⟨admitted_of (by decide +kernel), by unfold nothingWaits; decide +kernel, by decide +kernel⟩⟩
theorem witness_FaultRecordsLevelsAndReadmission_11 : ∃ (s : State) (who : Who) (val : Word) (w : CtlWrite), admitted who FLT_LEVELCTL val s w ∧ nothingWaits s ∧ s.spools = [] ∧ fld w.act F.FLT_LEVELCTL_EXIT_BASTING = 1 ∧ fld w.act F.FLT_LEVELCTL_RELEASE = 0 ∧ s.devLevel = 4 :=
  ⟨State.reset.fset FLT_STAT F.FLT_STAT_DEVLEVEL 4, .trusted 1, fv [(F.FLT_LEVELCTL_EXIT_BASTING, 1)], wr (.trusted 1) (FLT_LEVELCTL) (fv [(F.FLT_LEVELCTL_EXIT_BASTING, 1)]) (State.reset.fset FLT_STAT F.FLT_STAT_DEVLEVEL 4), ⟨admitted_of (by decide +kernel), by unfold nothingWaits; decide +kernel, by decide +kernel⟩⟩
theorem witness_FaultRecordsLevelsAndReadmission_12 : ∃ (s : State) (who : Who) (val : Word) (w : CtlWrite), admitted who FLT_LEVELCTL val s w ∧ nothingWaits s ∧ s.spools = [] ∧ fld w.act F.FLT_LEVELCTL_EXIT_BASTING = 0 ∧ fld w.act F.FLT_LEVELCTL_RELEASE = 1 ∧ s.devLevel = 4 :=
  ⟨State.reset.fset FLT_STAT F.FLT_STAT_DEVLEVEL 4, .trusted 1, fv [(F.FLT_LEVELCTL_RELEASE, 1)], wr (.trusted 1) (FLT_LEVELCTL) (fv [(F.FLT_LEVELCTL_RELEASE, 1)]) (State.reset.fset FLT_STAT F.FLT_STAT_DEVLEVEL 4), ⟨admitted_of (by decide +kernel), by unfold nothingWaits; decide +kernel, by decide +kernel⟩⟩
theorem witness_FaultRecordsLevelsAndReadmission_13 : ∃ (s : State) (who : Who) (val : Word) (w : CtlWrite), ∃ n, let busy := s.fget FLT_READMIT F.FLT_READMIT_BUSY; admitted who FLT_READMIT val s w ∧ fld w.act F.FLT_READMIT_GO = 1 ∧ n < 24 ∧ busy = 0 ∧ fld w.new F.FLT_READMIT_SOURCE = srcId 3 n ∧ fld w.new F.FLT_READMIT_ELEMENT = 0 ∧ s.fget (FLT_SRCSTAT (srcId 3 n)) F.FLT_SRCSTAT_STATE = 1 :=
  ⟨State.reset.fset (FLT_SRCSTAT (srcId 3 23)) F.FLT_SRCSTAT_STATE 1, .trusted 1, fv [(F.FLT_READMIT_GO, 1), (F.FLT_READMIT_SOURCE, srcId 3 23)], wr (.trusted 1) (FLT_READMIT) (fv [(F.FLT_READMIT_GO, 1), (F.FLT_READMIT_SOURCE, srcId 3 23)]) (State.reset.fset (FLT_SRCSTAT (srcId 3 23)) F.FLT_SRCSTAT_STATE 1), 23, by dsimp only; exact ⟨admitted_of (by decide +kernel), by decide +kernel⟩⟩
theorem witness_FaultRecordsLevelsAndReadmission_14 : ∃ (s : State) (who : Who) (val : Word) (w : CtlWrite), let busy := s.fget FLT_READMIT F.FLT_READMIT_BUSY; admitted who FLT_READMIT val s w ∧ fld w.act F.FLT_READMIT_GO = 1 ∧ (busy = 1 ∨ readmOk s (fld w.new F.FLT_READMIT_SOURCE) (fld w.new F.FLT_READMIT_ELEMENT) = false) :=
  ⟨State.reset.fset FLT_READMIT F.FLT_READMIT_BUSY 1, .trusted 1, fv [(F.FLT_READMIT_GO, 1), (F.FLT_READMIT_SOURCE, srcId 3 23)], wr (.trusted 1) (FLT_READMIT) (fv [(F.FLT_READMIT_GO, 1), (F.FLT_READMIT_SOURCE, srcId 3 23)]) (State.reset.fset FLT_READMIT F.FLT_READMIT_BUSY 1), by dsimp only; exact ⟨admitted_of (by decide +kernel), by decide +kernel⟩⟩
theorem witness_FaultRecordsLevelsAndReadmission_15 : ∃ (s : State) (n : Nat), let stage := s.fget FLT_READMIT F.FLT_READMIT_STAGE; nothingWaits s ∧ n < 24 ∧ s.fget FLT_READMIT F.FLT_READMIT_BUSY = 1 ∧ s.fget FLT_READMIT F.FLT_READMIT_SOURCE = srcId 3 n ∧ s.fget FLT_READMIT F.FLT_READMIT_ELEMENT = 0 ∧ stage = 1 :=
  ⟨State.reset.sets [(FLT_READMIT, F.FLT_READMIT_BUSY, 1), (FLT_READMIT, F.FLT_READMIT_SOURCE, srcId 3 23), (FLT_READMIT, F.FLT_READMIT_STAGE, 1), (FLT_SRCSTAT (srcId 3 23), F.FLT_SRCSTAT_STATE, 2), (PLT_STAT 23, F.PLT_STAT_FENCED, 1)], 23, by dsimp only; exact ⟨by unfold nothingWaits; decide +kernel, by decide +kernel⟩⟩
theorem witness_FaultRecordsLevelsAndReadmission_16 : ∃ (s : State) (n : Nat), let stage := s.fget FLT_READMIT F.FLT_READMIT_STAGE; nothingWaits s ∧ n < 24 ∧ s.fget FLT_READMIT F.FLT_READMIT_BUSY = 1 ∧ s.fget FLT_READMIT F.FLT_READMIT_SOURCE = srcId 3 n ∧ s.fget FLT_READMIT F.FLT_READMIT_ELEMENT = 0 ∧ stage = 1 :=
  ⟨State.reset.sets [(FLT_READMIT, F.FLT_READMIT_BUSY, 1), (FLT_READMIT, F.FLT_READMIT_SOURCE, srcId 3 23), (FLT_READMIT, F.FLT_READMIT_STAGE, 1), (FLT_SRCSTAT (srcId 3 23), F.FLT_SRCSTAT_STATE, 2), (PLT_STAT 23, F.PLT_STAT_FENCED, 1)], 23, by dsimp only; exact ⟨by unfold nothingWaits; decide +kernel, by decide +kernel⟩⟩
theorem witness_FaultRecordsLevelsAndReadmission_17 : ∃ (s : State) (n : Nat), let stage := s.fget FLT_READMIT F.FLT_READMIT_STAGE; nothingWaits s ∧ n < 24 ∧ s.fget FLT_READMIT F.FLT_READMIT_BUSY = 1 ∧ s.fget FLT_READMIT F.FLT_READMIT_SOURCE = srcId 3 n ∧ s.fget FLT_READMIT F.FLT_READMIT_ELEMENT = 0 ∧ stage = 2 :=
  ⟨State.reset.sets [(FLT_READMIT, F.FLT_READMIT_BUSY, 1), (FLT_READMIT, F.FLT_READMIT_SOURCE, srcId 3 23), (FLT_READMIT, F.FLT_READMIT_STAGE, 2), (FLT_SRCSTAT (srcId 3 23), F.FLT_SRCSTAT_STATE, 3), (PLT_STAT 23, F.PLT_STAT_FENCED, 1)], 23, by dsimp only; exact ⟨by unfold nothingWaits; decide +kernel, by decide +kernel⟩⟩
theorem witness_ThimbleServices_1 : ∃ (s : State) (core : Nat) (buf : Nat) (idx : Nat) (src : Nat) (elem : Nat) (region : Nat) (slot : Nat) (base : Nat) (limit : Nat) (id : Nat) (addr : Nat) (classes : Nat) (bits : Nat), ∃ x, nothingWaits s ∧ x ∈ [(1, Instr.version core), (2, .faultNext core buf), (3, .faultAck core idx), (4, .readmit core src elem), (5, .exitBasting core), (6, .keyCtlLoad core region slot), (6, .keyCtlSetCur core region slot), (6, .keyCtlErase core region), (6, .keyCtlSetRange core region base limit), (7, .progInstall core id addr classes), (8, .progRemove core id), (9, .measure core idx addr), (10, .debugN core bits), (11, .warmReset core), (12, .svnCommit core)] ∧ svcOpen s core = true ∧ s.mgmt.haltReq = [] ∧ bit s.mgmt.svcmask x.1 = false :=
  ⟨{ wSvc with mgmt := { wSvc.mgmt with svcmask := 65533 } }, 3, 0, 7, 0, 0, 0, 0, 0, 0, 0, 0, 0, 0, (1, Instr.version 3), ⟨by unfold nothingWaits; decide +kernel, by simp, by decide +kernel⟩⟩
theorem witness_ThimbleServices_2 : ∃ (s : State) (core : Nat) (idx : Nat), nothingWaits s ∧ svcOpen s core = true ∧ s.mgmt.haltReq = [] ∧ (idx = 0 ∨ 12 < idx) :=
  ⟨wSvc, 3, 0, ⟨by unfold nothingWaits; decide +kernel, by decide +kernel⟩⟩
theorem witness_ThimbleServices_3 : ∃ (s : State) (core : Nat), let on := fun (n : Nat) => bit s.mgmt.svcmask n = true; nothingWaits s ∧ svcOpen s core = true ∧ s.mgmt.haltReq = [] ∧ on 1 :=
  ⟨wSvc, 3, by dsimp only; exact ⟨by unfold nothingWaits; decide +kernel, by decide +kernel⟩⟩
theorem witness_ThimbleServices_4 : ∃ (s : State) (core : Nat) (buf : Nat), let on := fun (n : Nat) => bit s.mgmt.svcmask n = true; nothingWaits s ∧ svcOpen s core = true ∧ s.mgmt.haltReq = [] ∧ on 2 ∧ 2 ^ 47 < buf + 32 :=
  ⟨wSvc, 3, 140737488355297, by dsimp only; exact ⟨by unfold nothingWaits; decide +kernel, by decide +kernel⟩⟩
theorem witness_ThimbleServices_5 : ∃ (s : State) (core : Nat) (buf : Nat), let on := fun (n : Nat) => bit s.mgmt.svcmask n = true; nothingWaits s ∧ svcOpen s core = true ∧ s.mgmt.haltReq = [] ∧ on 2 ∧ buf + 32 ≤ 2 ^ 47 ∧ recNext s = none :=
  ⟨{ wSvc.sets [(FLT_REC 7 1, ⟨12, 3⟩, 2)] with fltAge := [7] }, 3, 140737488355296, by dsimp only; exact ⟨by unfold nothingWaits; decide +kernel, by decide +kernel⟩⟩
theorem witness_ThimbleServices_6 : ∃ (s : State) (core : Nat) (buf : Nat), ∃ i, let on := fun (n : Nat) => bit s.mgmt.svcmask n = true; nothingWaits s ∧ svcOpen s core = true ∧ s.mgmt.haltReq = [] ∧ on 2 ∧ buf + 32 ≤ 2 ^ 47 ∧ recNext s = some i :=
  ⟨{ wSvc.sets [(FLT_REC 8 1, ⟨12, 3⟩, 2)] with fltAge := [7, 8, 9] }, 3, 12352, 8, by dsimp only; exact ⟨by unfold nothingWaits; decide +kernel, by decide +kernel⟩⟩
theorem witness_ThimbleServices_7 : ∃ (s : State) (core : Nat) (idx : Nat), let on := fun (n : Nat) => bit s.mgmt.svcmask n = true; nothingWaits s ∧ svcOpen s core = true ∧ s.mgmt.haltReq = [] ∧ on 3 ∧ idx ∉ s.mgmt.passed :=
  ⟨wSvc, 3, 8, by dsimp only; exact ⟨by unfold nothingWaits; decide +kernel, by decide +kernel⟩⟩
theorem witness_ThimbleServices_8 : ∃ (s : State) (core : Nat) (idx : Nat), let on := fun (n : Nat) => bit s.mgmt.svcmask n = true; nothingWaits s ∧ svcOpen s core = true ∧ s.mgmt.haltReq = [] ∧ on 3 ∧ idx ∈ s.mgmt.passed ∧ idx < 1024 :=
  ⟨wSvc.sets [(FLT_REC 7 1, ⟨53, 2⟩, 1)], 3, 7, by dsimp only; exact ⟨by unfold nothingWaits; decide +kernel, by decide +kernel⟩⟩
theorem witness_ThimbleServices_9 : ∃ (s : State) (core : Nat) (src : Nat) (elem : Nat), ∃ u, let on := fun (n : Nat) => bit s.mgmt.svcmask n = true; nothingWaits s ∧ svcOpen s core = true ∧ s.mgmt.haltReq = [] ∧ on 4 ∧ srcDefined src = true ∧ elem < 65536 ∧ unitOfSrc src = some u ∧ s.fget (MGT_ASSIGN u) F.MGT_ASSIGN_KIND ≠ 2 :=
  ⟨wSvc, 3, srcId 3 0, 0, 43, by dsimp only; exact ⟨by unfold nothingWaits; decide +kernel, by decide +kernel⟩⟩
theorem witness_ThimbleServices_10 : ∃ (s : State) (core : Nat) (src : Nat) (elem : Nat), ∃ u n, let on := fun (n : Nat) => bit s.mgmt.svcmask n = true; nothingWaits s ∧ svcOpen s core = true ∧ s.mgmt.haltReq = [] ∧ on 4 ∧ srcDefined src = true ∧ elem < 65536 ∧ unitOfSrc src = some u ∧ n < 24 ∧ s.fget (MGT_ASSIGN u) F.MGT_ASSIGN_KIND = 2 ∧ src = srcId 3 n ∧ elem = 0 ∧ s.fget (FLT_SRCSTAT src) F.FLT_SRCSTAT_STATE = 1 ∧ s.fget FLT_READMIT F.FLT_READMIT_BUSY = 0 :=
  ⟨wSvc.sets [(MGT_ASSIGN 66, F.MGT_ASSIGN_KIND, 2), (FLT_SRCSTAT (srcId 3 23), F.FLT_SRCSTAT_STATE, 1)], 3, srcId 3 23, 0, 66, 23, by dsimp only; exact ⟨by unfold nothingWaits; decide +kernel, by decide +kernel⟩⟩
theorem witness_ThimbleServices_11 : ∃ (s : State) (core : Nat), let on := fun (n : Nat) => bit s.mgmt.svcmask n = true; nothingWaits s ∧ svcOpen s core = true ∧ s.mgmt.haltReq = [] ∧ on 5 ∧ s.devLevel = 3 :=
  ⟨wSvc.fset FLT_STAT F.FLT_STAT_DEVLEVEL 3, 3, by dsimp only; exact ⟨by unfold nothingWaits; decide +kernel, by decide +kernel⟩⟩
theorem witness_ThimbleServices_12 : ∃ (s : State) (core : Nat) (region : Nat) (slot : Nat), let on := fun (n : Nat) => bit s.mgmt.svcmask n = true; nothingWaits s ∧ svcOpen s core = true ∧ s.mgmt.haltReq = [] ∧ on 6 ∧ (32 ≤ region ∨ 2 ≤ slot) :=
  ⟨wSvc, 3, 32, 0, by dsimp only; exact ⟨by unfold nothingWaits; decide +kernel, by decide +kernel⟩⟩
theorem witness_ThimbleServices_13 : ∃ (s : State) (core : Nat) (region : Nat) (slot : Nat), let on := fun (n : Nat) => bit s.mgmt.svcmask n = true; nothingWaits s ∧ svcOpen s core = true ∧ s.mgmt.haltReq = [] ∧ on 6 ∧ region < 32 ∧ slot < 2 ∧ (s.slot region slot).inuse = 0 :=
  ⟨wSvc, 3, 31, 1, by dsimp only; exact ⟨by unfold nothingWaits; decide +kernel, by decide +kernel⟩⟩
theorem witness_ThimbleServices_14 : ∃ (s : State) (core : Nat) (region : Nat) (slot : Nat), let on := fun (n : Nat) => bit s.mgmt.svcmask n = true; nothingWaits s ∧ svcOpen s core = true ∧ s.mgmt.haltReq = [] ∧ on 6 ∧ region < 32 ∧ slot < 2 ∧ slotLive s region slot = true ∧ s.fget (KEY_RCTL region) F.KEY_RCTL_NEWER = slot :=
  ⟨{ wSvc.sets [(KEY_RCTL 31, F.KEY_RCTL_LIVE, 3), (KEY_RCTL 31, F.KEY_RCTL_NEWER, 1)] with keys := { wSvc.keys with slots := [(62, ⟨5, 1, 0⟩), (63, ⟨6, 0, 0⟩)] } }, 3, 31, 1, by dsimp only; exact ⟨by unfold nothingWaits; decide +kernel, by decide +kernel⟩⟩
theorem witness_ThimbleServices_15 : ∃ (s : State) (core : Nat) (region : Nat), let on := fun (n : Nat) => bit s.mgmt.svcmask n = true; nothingWaits s ∧ svcOpen s core = true ∧ s.mgmt.haltReq = [] ∧ on 6 ∧ region < 32 :=
  ⟨{ wSvc.sets [(KEY_RCTL 31, F.KEY_RCTL_LIVE, 3), (KEY_RCTL 31, F.KEY_RCTL_NEWER, 1)] with keys := { wSvc.keys with slots := [(62, ⟨5, 0, 0⟩), (63, ⟨6, 0, 0⟩)] } }, 3, 31, by dsimp only; exact ⟨by unfold nothingWaits; decide +kernel, by decide +kernel⟩⟩
theorem witness_ThimbleServices_16 : ∃ (s : State) (core : Nat) (region : Nat) (base : Nat) (limit : Nat), let on := fun (n : Nat) => bit s.mgmt.svcmask n = true; let clash := ∃ j, 1 ≤ j ∧ j < 32 ∧ j ≠ region ∧ s.fget (KEY_RGN j) F.KEY_RGN_VALID = 1 ∧ s.fget (KEY_RGN j) F.KEY_RGN_BASE ≤ limit ∧ base ≤ s.fget (KEY_RGN j) F.KEY_RGN_LIMIT; nothingWaits s ∧ (region = 0 ∨ limit < base ∨ clash) ∧ svcOpen s core = true ∧ s.mgmt.haltReq = [] ∧ on 6 ∧ region < 32 ∧ base < 2 ^ 26 ∧ limit < 2 ^ 26 ∧ s.locked = false :=
  ⟨wSvc.sets [(KEY_RGN 5, F.KEY_RGN_VALID, 1), (KEY_RGN 5, F.KEY_RGN_BASE, 4), (KEY_RGN 5, F.KEY_RGN_LIMIT, 6)], 3, 0, 1, 2, by dsimp only; exact ⟨by unfold nothingWaits; decide +kernel, .inl rfl, by decide +kernel⟩⟩
theorem witness_ThimbleServices_17 : ∃ (s : State) (core : Nat) (region : Nat) (base : Nat) (limit : Nat), let on := fun (n : Nat) => bit s.mgmt.svcmask n = true; let clash := ∃ j, 1 ≤ j ∧ j < 32 ∧ j ≠ region ∧ s.fget (KEY_RGN j) F.KEY_RGN_VALID = 1 ∧ s.fget (KEY_RGN j) F.KEY_RGN_BASE ≤ limit ∧ base ≤ s.fget (KEY_RGN j) F.KEY_RGN_LIMIT; nothingWaits s ∧ ¬ clash ∧ svcOpen s core = true ∧ s.mgmt.haltReq = [] ∧ on 6 ∧ region < 32 ∧ base < 2 ^ 26 ∧ limit < 2 ^ 26 ∧ s.locked = false ∧ region ≠ 0 ∧ base ≤ limit :=
  ⟨wSvc.sets [(KEY_RGN 5, F.KEY_RGN_VALID, 1), (KEY_RGN 5, F.KEY_RGN_BASE, 4), (KEY_RGN 5, F.KEY_RGN_LIMIT, 6)], 3, 31, 7, 67108863, by dsimp only; exact ⟨by unfold nothingWaits; decide +kernel, by rintro ⟨j, _, h, _, hv, _, hl⟩; revert hv hl; interval_cases j <;> decide, by decide +kernel⟩⟩
theorem witness_ThimbleServices_18 : ∃ (s : State) (core : Nat) (id : Nat) (addr : Nat) (classes : Nat), ∃ h m s1 s2, let on := fun (n : Nat) => bit s.mgmt.svcmask n = true; nothingWaits s ∧ coreRead core addr 64 s = (some (some h), s1) ∧ coreRead core addr (imgSpan (some h)) s1 = (some (some m), s2) ∧ svcOpen s core = true ∧ s.mgmt.haltReq = [] ∧ on 7 ∧ id < 256 ∧ classes < 256 ∧ inFirmware s addr 64 = true ∧ inFirmware s addr (imgSpan (some h)) = true ∧ svcOpen s1 core = true ∧ svcOpen s2 core = true ∧ imgOk m = true ∧ ((∀ c < 8, bit classes c = true → imgNeeds (m.take 64) &&& classFlagceil s c = imgNeeds (m.take 64))) :=
  ⟨wFw, 3, 3, 12352, 0, wFwH, wFwM, wFwA.2, wFwB.2, by dsimp only; exact ⟨by unfold nothingWaits; decide +kernel, pair_of (by decide +kernel), pair_of (by decide +kernel), by decide +kernel⟩⟩
theorem witness_ThimbleServices_19 : ∃ (s : State) (core : Nat) (id : Nat), let on := fun (n : Nat) => bit s.mgmt.svcmask n = true; nothingWaits s ∧ svcOpen s core = true ∧ s.mgmt.haltReq = [] ∧ on 8 ∧ 256 ≤ id :=
  ⟨wSvc, 3, 256, by dsimp only; exact ⟨by unfold nothingWaits; decide +kernel, by decide +kernel⟩⟩
theorem witness_ThimbleServices_20 : ∃ (s : State) (core : Nat) (id : Nat), let on := fun (n : Nat) => bit s.mgmt.svcmask n = true; nothingWaits s ∧ svcOpen s core = true ∧ s.mgmt.haltReq = [] ∧ on 8 ∧ id < 256 :=
  ⟨{ wSvc with progs := [(255, { ProgEntry.init with valid := true, gen := 4 })] }, 3, 255, by dsimp only; exact ⟨by unfold nothingWaits; decide +kernel, by decide +kernel⟩⟩
theorem witness_ThimbleServices_21 : ∃ (s : State) (core : Nat) (idx : Nat) (addr : Nat), let on := fun (n : Nat) => bit s.mgmt.svcmask n = true; nothingWaits s ∧ svcOpen s core = true ∧ s.mgmt.haltReq = [] ∧ on 9 ∧ (idx < 5 ∨ 7 < idx ∨ 2 ^ 47 < addr + 48) :=
  ⟨wSvc, 3, 4, 0, by dsimp only; exact ⟨by unfold nothingWaits; decide +kernel, by decide +kernel⟩⟩
theorem witness_ThimbleServices_22 : ∃ (s : State) (core : Nat) (idx : Nat) (addr : Nat), ∃ d s1, let on := fun (n : Nat) => bit s.mgmt.svcmask n = true; nothingWaits s ∧ coreRead core addr 48 s = (some (some d), s1) ∧ svcOpen s1 core = true ∧ svcOpen s core = true ∧ s.mgmt.haltReq = [] ∧ on 9 ∧ 5 ≤ idx ∧ idx ≤ 7 ∧ addr + 48 ≤ 2 ^ 47 :=
  ⟨wFw, 3, 7, 12368, wMeD, wMe.2, by dsimp only; exact ⟨by unfold nothingWaits; decide +kernel, pair_of (by decide +kernel), by decide +kernel, by decide +kernel⟩⟩
theorem witness_ThimbleServices_23 : ∃ (s : State) (core : Nat) (bits : Nat), let on := fun (n : Nat) => bit s.mgmt.svcmask n = true; nothingWaits s ∧ svcOpen s core = true ∧ s.mgmt.haltReq = [] ∧ on 10 ∧ 4 ≤ bits :=
  ⟨wSvc, 3, 4, by dsimp only; exact ⟨by unfold nothingWaits; decide +kernel, by decide +kernel⟩⟩
theorem witness_ThimbleServices_24 : ∃ (s : State) (core : Nat) (bits : Nat), let on := fun (n : Nat) => bit s.mgmt.svcmask n = true; nothingWaits s ∧ svcOpen s core = true ∧ s.mgmt.haltReq = [] ∧ on 10 ∧ bits < 4 ∧ bits &&& (s.mgmt.dbgmask % 4) ≠ bits :=
  ⟨wSvc, 3, 2, by dsimp only; exact ⟨by unfold nothingWaits; decide +kernel, by decide +kernel⟩⟩
theorem witness_ThimbleServices_25 : ∃ (s : State) (core : Nat) (bits : Nat), let on := fun (n : Nat) => bit s.mgmt.svcmask n = true; nothingWaits s ∧ svcOpen s core = true ∧ s.mgmt.haltReq = [] ∧ on 10 ∧ bits < 4 ∧ bits &&& (s.mgmt.dbgmask % 4) = bits :=
  ⟨wSvc, 3, 1, by dsimp only; exact ⟨by unfold nothingWaits; decide +kernel, by decide +kernel⟩⟩
theorem witness_ThimbleServices_26 : ∃ (s : State) (core : Nat), let on := fun (n : Nat) => bit s.mgmt.svcmask n = true; nothingWaits s ∧ svcOpen s core = true ∧ s.mgmt.haltReq = [] ∧ on 11 :=
  ⟨wSvc, 3, by dsimp only; exact ⟨by unfold nothingWaits; decide +kernel, by decide +kernel⟩⟩
theorem witness_ThimbleServices_27 : ∃ (s : State) (core : Nat), let on := fun (n : Nat) => bit s.mgmt.svcmask n = true; nothingWaits s ∧ svcOpen s core = true ∧ s.mgmt.haltReq = [] ∧ on 12 :=
  ⟨wSvc.sets [(MGT_BOOTSTAT, F.MGT_BOOTSTAT_SVN, 9)], 3, by dsimp only; exact ⟨by unfold nothingWaits; decide +kernel, by decide +kernel⟩⟩
theorem witness_ManagementRegistersBootAndDebug_1 : ∃ (s : State) (who : Who) (off : Nat) (width : Nat), ((∀ p, who ≠ .bar0 p ∧ who ≠ .load p)) ∧ ctlOpen s = true ∧ (width ≠ 8 ∨ off % 8 ≠ 0) :=
  ⟨State.reset, .trusted 1, FAB_CFG, 4, ⟨fun p => ⟨nofun, nofun⟩, by decide +kernel⟩⟩
theorem witness_ManagementRegistersBootAndDebug_2 : ∃ (s : State) (who : Who) (off : Nat) (width : Nat), ((∀ p, who ≠ .bar0 p ∧ who ≠ .load p)) ∧ ctlOpen s = true ∧ width = 8 ∧ off % 8 = 0 ∧ (2 ^ 32 ≤ off ∨ regFind off = none) :=
  ⟨State.reset, .trusted 1, 2^32, 8, ⟨fun p => ⟨nofun, nofun⟩, by decide +kernel⟩⟩
theorem witness_ManagementRegistersBootAndDebug_3 : ∃ (s : State) (who : Who) (off : Nat) (width : Nat), ∃ h, ((∀ p, who ≠ .bar0 p ∧ who ≠ .load p)) ∧ ctlOpen s = true ∧ width = 8 ∧ off % 8 = 0 ∧ off < 2 ^ 32 ∧ regFind off = some h ∧ regExists h = true ∧ owns s who off = false :=
  ⟨State.reset, .node 5, FAB_CFG, 8, (wr (.trusted 1) FAB_CFG 5 State.reset).hit, ⟨fun p => ⟨nofun, nofun⟩, by decide +kernel⟩⟩
theorem witness_ManagementRegistersBootAndDebug_4 : ∃ (s : State) (who : Who) (off : Nat) (width : Nat) (val : Word), ∃ w, ((∀ p, who ≠ .bar0 p ∧ who ≠ .load p)) ∧ admitted who off val s w ∧ hookAt (whoTrusted who) off = plainHook off ∧ ctlOpen s = true ∧ width = 8 :=
  ⟨State.reset, .trusted 1, FLT_CFG, 8, 5, wr (.trusted 1) (FLT_CFG) (5) State.reset, ⟨fun p => ⟨nofun, nofun⟩, admitted_of (by decide +kernel), by rfl, by decide +kernel⟩⟩
theorem witness_ManagementRegistersBootAndDebug_5 : ∃ (s : State) (who : Who) (val : Word) (w : CtlWrite), admitted who MGT_LOCK val s w ∧ fld w.act F.MGT_LOCK_LOCK = 1 :=
  ⟨State.reset, .trusted 1, fv [(F.MGT_LOCK_LOCK, 1)], wr (.trusted 1) (MGT_LOCK) (fv [(F.MGT_LOCK_LOCK, 1)]) (State.reset), ⟨admitted_of (by decide +kernel), by decide +kernel⟩⟩
theorem witness_ManagementRegistersBootAndDebug_6 : ∃ (s : State) (who : Who) (val : Word) (w : CtlWrite), admitted who MGT_BOOTCTL val s w ∧ fld w.act F.MGT_BOOTCTL_DINIT = 1 :=
  ⟨State.reset.sets [], .trusted 1, fv [(F.MGT_BOOTCTL_DINIT, 1)], wr (.trusted 1) (MGT_BOOTCTL) (fv [(F.MGT_BOOTCTL_DINIT, 1)]) (State.reset.sets []), ⟨admitted_of (by decide +kernel), by decide +kernel⟩⟩
theorem witness_ManagementRegistersBootAndDebug_7 : ∃ (s : State) (who : Who) (val : Word) (w : CtlWrite), admitted who MGT_RSTCTL val s w ∧ fld w.act F.MGT_RSTCTL_WARM = 1 :=
  ⟨{ State.reset with mgmt := { State.reset.mgmt with run := true, step := 12, halted := [1, 3, 7], haltReq := [1, 2], stage := [(0, 5), (5, 9)] } }, .trusted 1, fv [(F.MGT_RSTCTL_WARM, 1)], wr (.trusted 1) (MGT_RSTCTL) (fv [(F.MGT_RSTCTL_WARM, 1)]) ({ State.reset with mgmt := { State.reset.mgmt with run := true, step := 12, halted := [1, 3, 7], haltReq := [1, 2], stage := [(0, 5), (5, 9)] } }), ⟨admitted_of (by decide +kernel), by decide +kernel⟩⟩
theorem witness_ManagementRegistersBootAndDebug_8 : ∃ (s : State) (who : Who) (val : Word) (w : CtlWrite), admitted who MGT_RSTCTL val s w ∧ fld w.act F.MGT_RSTCTL_WARM = 0 :=
  ⟨{ State.reset with mgmt := { State.reset.mgmt with run := true, step := 12, halted := [1, 3, 7], haltReq := [1, 2], stage := [(0, 5), (5, 9)] } }, .trusted 1, fv [(F.MGT_RSTCTL_CORERST, 8)], wr (.trusted 1) (MGT_RSTCTL) (fv [(F.MGT_RSTCTL_CORERST, 8)]) ({ State.reset with mgmt := { State.reset.mgmt with run := true, step := 12, halted := [1, 3, 7], haltReq := [1, 2], stage := [(0, 5), (5, 9)] } }), ⟨admitted_of (by decide +kernel), by decide +kernel⟩⟩
theorem witness_ManagementRegistersBootAndDebug_9 : ∃ (s : State) (who : Who) (val : Word) (w : CtlWrite), admitted who MGT_MREXT val s w ∧ fld w.act F.MGT_MREXT_GO = 1 :=
  ⟨{ (State.reset.sets [(MGT_MREXT, F.MGT_MREXT_LOCK0, 0)]) with mgmt := { State.reset.mgmt with stage := [(0, 5), (5, 9)] } }, .trusted 1, fv [(F.MGT_MREXT_GO, 1), (F.MGT_MREXT_INDEX, 7)], wr (.trusted 1) (MGT_MREXT) (fv [(F.MGT_MREXT_GO, 1), (F.MGT_MREXT_INDEX, 7)]) ({ (State.reset.sets [(MGT_MREXT, F.MGT_MREXT_LOCK0, 0)]) with mgmt := { State.reset.mgmt with stage := [(0, 5), (5, 9)] } }), ⟨admitted_of (by decide +kernel), by decide +kernel⟩⟩
theorem witness_ManagementRegistersBootAndDebug_10 : ∃ (s : State) (who : Who) (val : Word) (w : CtlWrite), admitted who MGT_MREXT val s w ∧ fld w.act F.MGT_MREXT_GO = 0 :=
  ⟨State.reset, .trusted 1, fv [(F.MGT_MREXT_LOCK0, 1), (F.MGT_MREXT_INDEX, 3)], wr (.trusted 1) (MGT_MREXT) (fv [(F.MGT_MREXT_LOCK0, 1), (F.MGT_MREXT_INDEX, 3)]) (State.reset), ⟨admitted_of (by decide +kernel), by decide +kernel⟩⟩
theorem witness_ManagementRegistersBootAndDebug_11 : ∃ (s : State) (who : Who) (val : Word) (w : CtlWrite), admitted who MGT_WDOGKICK val s w ∧ fld w.act F.MGT_WDOGKICK_KICK = 1 :=
  ⟨{ State.reset with mgmt := { State.reset.mgmt with wdog := true } }, .trusted 1, fv [(F.MGT_WDOGKICK_KICK, 1)], wr (.trusted 1) (MGT_WDOGKICK) (fv [(F.MGT_WDOGKICK_KICK, 1)]) ({ State.reset with mgmt := { State.reset.mgmt with wdog := true } }), ⟨admitted_of (by decide +kernel), by decide +kernel⟩⟩
theorem witness_ManagementRegistersBootAndDebug_12 : ∃ (s : State), s.fget MGT_BOOTCTL F.MGT_BOOTCTL_BUSY = 1 ∧ nothingWaits s :=
  ⟨{ wMem.fset MGT_BOOTCTL F.MGT_BOOTCTL_BUSY 1 with dram := { wMem.dram with lines := [(5, 7), (64 * (dFrames wMem) + 3, 9), (2 ^ 34 * 23 + 63, 4)] } }, ⟨by decide +kernel, by unfold nothingWaits; decide +kernel⟩⟩
theorem witness_ManagementRegistersBootAndDebug_13 : ∃ (s : State), s.fget MGT_WDOG F.MGT_WDOG_EN = 1 ∧ s.pst = 0 ∧ s.pwr.held = 0 ∧ s.mgmt.wdog = false :=
  ⟨{ State.reset.fset MGT_WDOG F.MGT_WDOG_EN 1 with mgmt := { State.reset.mgmt with wdog := false, run := true } }, by decide +kernel⟩
theorem witness_ManagementRegistersBootAndDebug_14 : ∃ (s : State), s.fget MGT_WDOG F.MGT_WDOG_EN = 1 ∧ s.pst = 0 ∧ s.pwr.held = 0 ∧ s.mgmt.wdog = true :=
  ⟨{ State.reset.fset MGT_WDOG F.MGT_WDOG_EN 1 with mgmt := { State.reset.mgmt with wdog := true, run := true } }, by decide +kernel⟩
theorem witness_ManagementRegistersBootAndDebug_15 : ∃ (s : State) (core : Nat), core < 4 ∧ s.coreState core = 0 ∧ s.pst = 0 ∧ ((∀ x ∈ s.mgmt.halted, x % 4 ≠ core)) :=
  ⟨{ (State.reset.setCoreState 3 0).sets [(MGT_DBGCTL, F.MGT_DBGCTL_T_INV, 1), (MGT_DBGCTL, F.MGT_DBGCTL_N_INV, 1)] with mgmt := { State.reset.mgmt with haltReq := [3], halted := [4] } }, 3, by decide +kernel⟩
theorem witness_ManagementRegistersBootAndDebug_16 : ∃ (s : State), let k := s.mgmt.step + 1; s.pwr.held = 0 ∧ s.tap.driven = false ∧ s.mgmt.stopped = false ∧ s.pwr.pwrok = true ∧ s.pst = 0 ∧ s.mgmt.warm = false ∧ k ≤ 2 :=
  ⟨{ State.reset.sets [] with mgmt := { State.reset.mgmt with step := 1 } }, by dsimp only; exact by decide +kernel⟩
theorem witness_ManagementRegistersBootAndDebug_17 : ∃ (s : State), let k := s.mgmt.step + 1; s.pwr.held = 0 ∧ s.tap.driven = false ∧ s.mgmt.stopped = false ∧ s.pwr.pwrok = true ∧ s.pst = 0 ∧ s.mgmt.warm = false ∧ k = 3 :=
  ⟨{ State.reset.sets [] with mgmt := { State.reset.mgmt with step := 2 } }, by dsimp only; exact by decide +kernel⟩
theorem witness_ManagementRegistersBootAndDebug_18 : ∃ (s : State), let k := s.mgmt.step + 1; s.pwr.held = 0 ∧ s.tap.driven = false ∧ s.mgmt.stopped = false ∧ s.pwr.pwrok = true ∧ s.pst = 0 ∧ s.mgmt.warm = false ∧ k = 4 ∧ copyStatus s s.mgmt.flash.1 ≠ 0 ∧ copyStatus s s.mgmt.flash.2 ≠ 0 :=
  ⟨{ State.reset.sets [] with mgmt := { State.reset.mgmt with step := 3, flash := ([1], [2]) } }, by dsimp only; exact by decide +kernel⟩
theorem witness_ManagementRegistersBootAndDebug_19 : ∃ (s : State), let k := s.mgmt.step + 1; s.pwr.held = 0 ∧ s.tap.driven = false ∧ s.mgmt.stopped = false ∧ s.pwr.pwrok = true ∧ s.pst = 0 ∧ s.mgmt.warm = false ∧ k = 8 ∧ s.mgmt.dinit = true ∧ s.fget MGT_BOOTCTL F.MGT_BOOTCTL_BUSY = 0 :=
  ⟨{ State.reset.sets [] with mgmt := { State.reset.mgmt with step := 7, dinit := true } }, by dsimp only; exact by decide +kernel⟩
theorem witness_ManagementRegistersBootAndDebug_20 : ∃ (s : State), let k := s.mgmt.step + 1; s.pwr.held = 0 ∧ s.tap.driven = false ∧ s.mgmt.stopped = false ∧ s.pwr.pwrok = true ∧ s.pst = 0 ∧ s.mgmt.warm = false ∧ k = 12 ∧ ((∀ p < 16, s.fget (PRT_CFG p) F.PRT_CFG_MODE ≠ 0)) :=
  ⟨{ State.reset.sets [(PRT_CFG 0, F.PRT_CFG_MODE, 1), (PRT_CFG 1, F.PRT_CFG_MODE, 1), (PRT_CFG 2, F.PRT_CFG_MODE, 1), (PRT_CFG 3, F.PRT_CFG_MODE, 1), (PRT_CFG 4, F.PRT_CFG_MODE, 1), (PRT_CFG 5, F.PRT_CFG_MODE, 1), (PRT_CFG 6, F.PRT_CFG_MODE, 1), (PRT_CFG 7, F.PRT_CFG_MODE, 1), (PRT_CFG 8, F.PRT_CFG_MODE, 1), (PRT_CFG 9, F.PRT_CFG_MODE, 1), (PRT_CFG 10, F.PRT_CFG_MODE, 1), (PRT_CFG 11, F.PRT_CFG_MODE, 1), (PRT_CFG 12, F.PRT_CFG_MODE, 1), (PRT_CFG 13, F.PRT_CFG_MODE, 1), (PRT_CFG 14, F.PRT_CFG_MODE, 1), (PRT_CFG 15, F.PRT_CFG_MODE, 1)] with mgmt := { State.reset.mgmt with step := 11 } }, by dsimp only; exact by decide +kernel⟩
theorem witness_ManagementRegistersBootAndDebug_21 : ∃ (s : State), s.pwr.held = 0 ∧ s.tap.driven = false ∧ s.mgmt.stopped = false ∧ s.pst = 3 ∧ (s.pwr.resume = 1 ∨ s.pwr.resume = 2) :=
  ⟨{ State.reset.sets [] with pst := 3, pwr := { State.reset.pwr with resume := 1 } }, by decide +kernel⟩
theorem witness_ManagementRegistersBootAndDebug_22 : ∃ (s : State) (failed : List Nat), ∃ c, s.pwr.held = 0 ∧ s.tap.driven = false ∧ s.mgmt.stopped = false ∧ s.pst = 3 ∧ s.pwr.resume = 4 ∧ failed = [c] ∧ c < 24 ∧ s.cstate c = csIN_SERVICE :=
  ⟨{ State.reset.sets [(DCH_STAT 23, F.DCH_STAT_STATE, 2)] with pst := 3, pwr := { State.reset.pwr with resume := 4 } }, [23], 23, by decide +kernel⟩
theorem witness_ManagementRegistersBootAndDebug_23 : ∃ (s : State), s.pwr.held = 0 ∧ s.tap.driven = false ∧ s.mgmt.stopped = false ∧ s.pst = 3 ∧ s.pwr.resume = 6 :=
  ⟨{ State.reset.sets [] with pst := 3, pwr := { State.reset.pwr with resume := 6 } }, by decide +kernel⟩
theorem witness_DescriptorOperationsOfABobbin_1 : ∃ (s : State) (b : Nat) (rd : Nat) (rs1 : Nat) (rs2 : Nat), let u := s.bob b; let tier := (u.cap.getD 0 0) % 2; let w := fun func r2 => 0x20 * 2 ^ 26 + rd * 2 ^ 21 + rs1 * 2 ^ 16 + r2 * 2 ^ 11 + func; bobReady s b (w 4 0) ∧ rd < 32 ∧ rs1 < 32 ∧ rs2 < 8 ∧ (s.bob b).loads = [] ∧ (s.bob b).stores = [] ∧ (s.bob b).held = 0 ∧ classHeld s b = false ∧ tier = 0 :=
  ⟨{ wMem with tier := { (wMem).tier with dc := [(dcBase 3 + 2, some ⟨3, wDesc, false, false, 0, false⟩)] }, bobs := [(63, { Bob.init with run := 1, words := 10, pc := 5, text := [(5, 2149711876)], cap := [0], g := [(2, 3)] })] }, 63, 1, 2, 4, by dsimp only; exact ⟨ready_of (by decide +kernel), by decide +kernel⟩⟩
theorem witness_DescriptorOperationsOfABobbin_2 : ∃ (s : State) (b : Nat) (rd : Nat) (rs1 : Nat) (rs2 : Nat), let u := s.bob b; let n := (u.gr rs1).toNat; let tier := (u.cap.getD 0 0) % 2; let w := fun func r2 => 0x20 * 2 ^ 26 + rd * 2 ^ 21 + rs1 * 2 ^ 16 + r2 * 2 ^ 11 + func; bobReady s b (w 4 0) ∧ rd < 32 ∧ rs1 < 32 ∧ rs2 < 8 ∧ (s.bob b).loads = [] ∧ (s.bob b).stores = [] ∧ (s.bob b).held = 0 ∧ classHeld s b = false ∧ 4 < 6 ∧ (4 = 0 ∨ 4 = 4 ∨ 4 = 5 ∨ u.vpois rs2 = false ∧ u.vpois (rs2 ^^^ 1) = false) ∧ ((4 < 4 ∨ classHeld s b = false)) ∧ tier = 1 ∧ 2 ^ 35 ≤ n :=
  ⟨{ wMem with tier := { (wMem).tier with dc := [(dcBase 3 + 2, some ⟨3, wDesc, false, false, 0, false⟩)] }, bobs := [(63, { Bob.init with run := 1, words := 10, pc := 5, text := [(5, 2149711876)], cap := [1], g := [(2, 34359738368)] })] }, 63, 1, 2, 4, by dsimp only; exact ⟨ready_of (by decide +kernel), by decide +kernel⟩⟩
theorem witness_DescriptorOperationsOfABobbin_3 : ∃ (s : State) (b : Nat) (rd : Nat) (rs1 : Nat) (rs2 : Nat), let u := s.bob b; let n := (u.gr rs1).toNat; let tier := (u.cap.getD 0 0) % 2; let w := fun func r2 => 0x20 * 2 ^ 26 + rd * 2 ^ 21 + rs1 * 2 ^ 16 + r2 * 2 ^ 11 + func; bobReady s b (w 4 0) ∧ rd < 32 ∧ rs1 < 32 ∧ rs2 < 8 ∧ (s.bob b).loads = [] ∧ (s.bob b).stores = [] ∧ (s.bob b).held = 0 ∧ classHeld s b = false ∧ 4 < 6 ∧ (4 = 0 ∨ 4 = 4 ∨ 4 = 5 ∨ u.vpois rs2 = false ∧ u.vpois (rs2 ^^^ 1) = false) ∧ ((4 < 4 ∨ classHeld s b = false)) ∧ tier = 1 ∧ n < 2 ^ 35 ∧ pagesL s ≤ n :=
  ⟨{ wMem with tier := { (wMem).tier with dc := [(dcBase 3 + 2, some ⟨3, wDesc, false, false, 0, false⟩)] }, bobs := [(63, { Bob.init with run := 1, words := 10, pc := 5, text := [(5, 2149711876)], cap := [1], g := [(2, 786432)] })] }, 63, 1, 2, 4, by dsimp only; exact ⟨ready_of (by decide +kernel), by decide +kernel⟩⟩
theorem witness_DescriptorOperationsOfABobbin_4 : ∃ (s : State) (b : Nat) (rd : Nat) (rs1 : Nat) (rs2 : Nat), let u := s.bob b; let tier := (u.cap.getD 0 0) % 2; let w := fun func r2 => 0x20 * 2 ^ 26 + rd * 2 ^ 21 + rs1 * 2 ^ 16 + r2 * 2 ^ 11 + func; bobReady s b (w 5 0) ∧ rd < 32 ∧ rs1 < 32 ∧ rs2 < 8 ∧ (s.bob b).loads = [] ∧ (s.bob b).stores = [] ∧ (s.bob b).held = 0 ∧ classHeld s b = false ∧ tier = 0 :=
  ⟨{ wMem with tier := { (wMem).tier with dc := [(dcBase 3 + 2, some ⟨3, wDesc, false, false, 0, false⟩)] }, bobs := [(63, { Bob.init with run := 1, words := 10, pc := 5, text := [(5, 2149711877)], cap := [0], g := [(2, 3)] })] }, 63, 1, 2, 4, by dsimp only; exact ⟨ready_of (by decide +kernel), by decide +kernel⟩⟩
theorem witness_DescriptorOperationsOfABobbin_5 : ∃ (s : State) (b : Nat) (rd : Nat) (rs1 : Nat) (rs2 : Nat), let u := s.bob b; let n := (u.gr rs1).toNat; let tier := (u.cap.getD 0 0) % 2; let w := fun func r2 => 0x20 * 2 ^ 26 + rd * 2 ^ 21 + rs1 * 2 ^ 16 + r2 * 2 ^ 11 + func; bobReady s b (w 5 0) ∧ rd < 32 ∧ rs1 < 32 ∧ rs2 < 8 ∧ (s.bob b).loads = [] ∧ (s.bob b).stores = [] ∧ (s.bob b).held = 0 ∧ classHeld s b = false ∧ 5 < 6 ∧ (5 = 0 ∨ 5 = 4 ∨ 5 = 5 ∨ u.vpois rs2 = false ∧ u.vpois (rs2 ^^^ 1) = false) ∧ ((5 < 4 ∨ classHeld s b = false)) ∧ tier = 1 ∧ 2 ^ 35 ≤ n :=
  ⟨{ wMem with tier := { (wMem).tier with dc := [(dcBase 3 + 2, some ⟨3, wDesc, false, false, 0, false⟩)] }, bobs := [(63, { Bob.init with run := 1, words := 10, pc := 5, text := [(5, 2149711877)], cap := [1], g := [(2, 34359738368)] })] }, 63, 1, 2, 4, by dsimp only; exact ⟨ready_of (by decide +kernel), by decide +kernel⟩⟩
theorem witness_DescriptorOperationsOfABobbin_6 : ∃ (s : State) (b : Nat) (rd : Nat) (rs1 : Nat) (rs2 : Nat), let u := s.bob b; let n := (u.gr rs1).toNat; let tier := (u.cap.getD 0 0) % 2; let w := fun func r2 => 0x20 * 2 ^ 26 + rd * 2 ^ 21 + rs1 * 2 ^ 16 + r2 * 2 ^ 11 + func; bobReady s b (w 5 0) ∧ rd < 32 ∧ rs1 < 32 ∧ rs2 < 8 ∧ (s.bob b).loads = [] ∧ (s.bob b).stores = [] ∧ (s.bob b).held = 0 ∧ classHeld s b = false ∧ 5 < 6 ∧ (5 = 0 ∨ 5 = 4 ∨ 5 = 5 ∨ u.vpois rs2 = false ∧ u.vpois (rs2 ^^^ 1) = false) ∧ ((5 < 4 ∨ classHeld s b = false)) ∧ tier = 1 ∧ n < 2 ^ 35 ∧ pagesL s ≤ n :=
  ⟨{ wMem with tier := { (wMem).tier with dc := [(dcBase 3 + 2, some ⟨3, wDesc, false, false, 0, false⟩)] }, bobs := [(63, { Bob.init with run := 1, words := 10, pc := 5, text := [(5, 2149711877)], cap := [1], g := [(2, 786432)] })] }, 63, 1, 2, 4, by dsimp only; exact ⟨ready_of (by decide +kernel), by decide +kernel⟩⟩
theorem witness_DescriptorOperationsOfABobbin_7 : ∃ (s : State) (b : Nat) (rd : Nat) (rs1 : Nat) (rs2 : Nat), let u := s.bob b; let tier := (u.cap.getD 0 0) % 2; let w := fun func r2 => 0x20 * 2 ^ 26 + rd * 2 ^ 21 + rs1 * 2 ^ 16 + r2 * 2 ^ 11 + func; bobReady s b (w 0 rs2) ∧ rd < 32 ∧ rs1 < 32 ∧ rs2 < 8 ∧ (s.bob b).loads = [] ∧ (s.bob b).stores = [] ∧ (s.bob b).held = 0 ∧ tier = 0 :=
  ⟨{ wMem with tier := { (wMem).tier with dc := [(dcBase 3 + 2, some ⟨3, wDesc, false, false, 0, false⟩)] }, bobs := [(63, { Bob.init with run := 1, words := 10, pc := 5, text := [(5, 2149720064)], cap := [0], g := [(2, 3)] })] }, 63, 1, 2, 4, by dsimp only; exact ⟨ready_of (by decide +kernel), by decide +kernel⟩⟩
theorem witness_DescriptorOperationsOfABobbin_8 : ∃ (s : State) (b : Nat) (rd : Nat) (rs1 : Nat) (rs2 : Nat), let u := s.bob b; let n := (u.gr rs1).toNat; let tier := (u.cap.getD 0 0) % 2; let w := fun func r2 => 0x20 * 2 ^ 26 + rd * 2 ^ 21 + rs1 * 2 ^ 16 + r2 * 2 ^ 11 + func; bobReady s b (w 0 rs2) ∧ rd < 32 ∧ rs1 < 32 ∧ rs2 < 8 ∧ (s.bob b).loads = [] ∧ (s.bob b).stores = [] ∧ (s.bob b).held = 0 ∧ 0 < 6 ∧ (0 = 0 ∨ 0 = 4 ∨ 0 = 5 ∨ u.vpois rs2 = false ∧ u.vpois (rs2 ^^^ 1) = false) ∧ ((0 < 4 ∨ classHeld s b = false)) ∧ tier = 1 ∧ 2 ^ 35 ≤ n :=
  ⟨{ wMem with tier := { (wMem).tier with dc := [(dcBase 3 + 2, some ⟨3, wDesc, false, false, 0, false⟩)] }, bobs := [(63, { Bob.init with run := 1, words := 10, pc := 5, text := [(5, 2149720064)], cap := [1], g := [(2, 34359738368)] })] }, 63, 1, 2, 4, by dsimp only; exact ⟨ready_of (by decide +kernel), by decide +kernel⟩⟩
theorem witness_DescriptorOperationsOfABobbin_9 : ∃ (s : State) (b : Nat) (rd : Nat) (rs1 : Nat) (rs2 : Nat), let u := s.bob b; let n := (u.gr rs1).toNat; let tier := (u.cap.getD 0 0) % 2; let w := fun func r2 => 0x20 * 2 ^ 26 + rd * 2 ^ 21 + rs1 * 2 ^ 16 + r2 * 2 ^ 11 + func; bobReady s b (w 0 rs2) ∧ rd < 32 ∧ rs1 < 32 ∧ rs2 < 8 ∧ (s.bob b).loads = [] ∧ (s.bob b).stores = [] ∧ (s.bob b).held = 0 ∧ 0 < 6 ∧ (0 = 0 ∨ 0 = 4 ∨ 0 = 5 ∨ u.vpois rs2 = false ∧ u.vpois (rs2 ^^^ 1) = false) ∧ ((0 < 4 ∨ classHeld s b = false)) ∧ tier = 1 ∧ n < 2 ^ 35 ∧ pagesL s ≤ n :=
  ⟨{ wMem with tier := { (wMem).tier with dc := [(dcBase 3 + 2, some ⟨3, wDesc, false, false, 0, false⟩)] }, bobs := [(63, { Bob.init with run := 1, words := 10, pc := 5, text := [(5, 2149720064)], cap := [1], g := [(2, 786432)] })] }, 63, 1, 2, 4, by dsimp only; exact ⟨ready_of (by decide +kernel), by decide +kernel⟩⟩
theorem witness_DescriptorOperationsOfABobbin_10 : ∃ (s : State) (b : Nat) (rd : Nat) (rs1 : Nat) (rs2 : Nat), let u := s.bob b; let tier := (u.cap.getD 0 0) % 2; let w := fun func r2 => 0x20 * 2 ^ 26 + rd * 2 ^ 21 + rs1 * 2 ^ 16 + r2 * 2 ^ 11 + func; bobReady s b (w 1 rs2) ∧ rd < 32 ∧ rs1 < 32 ∧ rs2 < 8 ∧ (s.bob b).loads = [] ∧ (s.bob b).stores = [] ∧ (s.bob b).held = 0 ∧ tier = 0 :=
  ⟨{ wMem with tier := { (wMem).tier with dc := [(dcBase 3 + 2, some ⟨3, wDesc, false, false, 0, false⟩)] }, bobs := [(63, { Bob.init with run := 1, words := 10, pc := 5, text := [(5, 2149720065)], cap := [0], g := [(2, 3)] })] }, 63, 1, 2, 4, by dsimp only; exact ⟨ready_of (by decide +kernel), by decide +kernel⟩⟩
theorem witness_DescriptorOperationsOfABobbin_11 : ∃ (s : State) (b : Nat) (rd : Nat) (rs1 : Nat) (rs2 : Nat), let u := s.bob b; let n := (u.gr rs1).toNat; let tier := (u.cap.getD 0 0) % 2; let w := fun func r2 => 0x20 * 2 ^ 26 + rd * 2 ^ 21 + rs1 * 2 ^ 16 + r2 * 2 ^ 11 + func; bobReady s b (w 1 rs2) ∧ rd < 32 ∧ rs1 < 32 ∧ rs2 < 8 ∧ (s.bob b).loads = [] ∧ (s.bob b).stores = [] ∧ (s.bob b).held = 0 ∧ 1 < 6 ∧ (1 = 0 ∨ 1 = 4 ∨ 1 = 5 ∨ u.vpois rs2 = false ∧ u.vpois (rs2 ^^^ 1) = false) ∧ ((1 < 4 ∨ classHeld s b = false)) ∧ tier = 1 ∧ 2 ^ 35 ≤ n :=
  ⟨{ wMem with tier := { (wMem).tier with dc := [(dcBase 3 + 2, some ⟨3, wDesc, false, false, 0, false⟩)] }, bobs := [(63, { Bob.init with run := 1, words := 10, pc := 5, text := [(5, 2149720065)], cap := [1], g := [(2, 34359738368)] })] }, 63, 1, 2, 4, by dsimp only; exact ⟨ready_of (by decide +kernel), by decide +kernel⟩⟩
theorem witness_DescriptorOperationsOfABobbin_12 : ∃ (s : State) (b : Nat) (rd : Nat) (rs1 : Nat) (rs2 : Nat), let u := s.bob b; let n := (u.gr rs1).toNat; let tier := (u.cap.getD 0 0) % 2; let w := fun func r2 => 0x20 * 2 ^ 26 + rd * 2 ^ 21 + rs1 * 2 ^ 16 + r2 * 2 ^ 11 + func; bobReady s b (w 1 rs2) ∧ rd < 32 ∧ rs1 < 32 ∧ rs2 < 8 ∧ (s.bob b).loads = [] ∧ (s.bob b).stores = [] ∧ (s.bob b).held = 0 ∧ 1 < 6 ∧ (1 = 0 ∨ 1 = 4 ∨ 1 = 5 ∨ u.vpois rs2 = false ∧ u.vpois (rs2 ^^^ 1) = false) ∧ ((1 < 4 ∨ classHeld s b = false)) ∧ tier = 1 ∧ n < 2 ^ 35 ∧ pagesL s ≤ n :=
  ⟨{ wMem with tier := { (wMem).tier with dc := [(dcBase 3 + 2, some ⟨3, wDesc, false, false, 0, false⟩)] }, bobs := [(63, { Bob.init with run := 1, words := 10, pc := 5, text := [(5, 2149720065)], cap := [1], g := [(2, 786432)] })] }, 63, 1, 2, 4, by dsimp only; exact ⟨ready_of (by decide +kernel), by decide +kernel⟩⟩
theorem witness_DescriptorOperationsOfABobbin_13 : ∃ (s : State) (b : Nat) (rd : Nat) (rs1 : Nat) (rs2 : Nat), let u := s.bob b; let tier := (u.cap.getD 0 0) % 2; let w := fun func r2 => 0x20 * 2 ^ 26 + rd * 2 ^ 21 + rs1 * 2 ^ 16 + r2 * 2 ^ 11 + func; bobReady s b (w 2 rs2) ∧ rd < 32 ∧ rs1 < 32 ∧ rs2 < 8 ∧ (s.bob b).loads = [] ∧ (s.bob b).stores = [] ∧ (s.bob b).held = 0 ∧ tier = 0 :=
  ⟨{ wMem with tier := { (wMem).tier with dc := [(dcBase 3 + 2, some ⟨3, wDesc, false, false, 0, false⟩)] }, bobs := [(63, { Bob.init with run := 1, words := 10, pc := 5, text := [(5, 2149720066)], cap := [0], g := [(2, 3)] })] }, 63, 1, 2, 4, by dsimp only; exact ⟨ready_of (by decide +kernel), by decide +kernel⟩⟩
theorem witness_DescriptorOperationsOfABobbin_14 : ∃ (s : State) (b : Nat) (rd : Nat) (rs1 : Nat) (rs2 : Nat), let u := s.bob b; let n := (u.gr rs1).toNat; let tier := (u.cap.getD 0 0) % 2; let w := fun func r2 => 0x20 * 2 ^ 26 + rd * 2 ^ 21 + rs1 * 2 ^ 16 + r2 * 2 ^ 11 + func; bobReady s b (w 2 rs2) ∧ rd < 32 ∧ rs1 < 32 ∧ rs2 < 8 ∧ (s.bob b).loads = [] ∧ (s.bob b).stores = [] ∧ (s.bob b).held = 0 ∧ 2 < 6 ∧ (2 = 0 ∨ 2 = 4 ∨ 2 = 5 ∨ u.vpois rs2 = false ∧ u.vpois (rs2 ^^^ 1) = false) ∧ ((2 < 4 ∨ classHeld s b = false)) ∧ tier = 1 ∧ 2 ^ 35 ≤ n :=
  ⟨{ wMem with tier := { (wMem).tier with dc := [(dcBase 3 + 2, some ⟨3, wDesc, false, false, 0, false⟩)] }, bobs := [(63, { Bob.init with run := 1, words := 10, pc := 5, text := [(5, 2149720066)], cap := [1], g := [(2, 34359738368)] })] }, 63, 1, 2, 4, by dsimp only; exact ⟨ready_of (by decide +kernel), by decide +kernel⟩⟩
theorem witness_DescriptorOperationsOfABobbin_15 : ∃ (s : State) (b : Nat) (rd : Nat) (rs1 : Nat) (rs2 : Nat), let u := s.bob b; let n := (u.gr rs1).toNat; let tier := (u.cap.getD 0 0) % 2; let w := fun func r2 => 0x20 * 2 ^ 26 + rd * 2 ^ 21 + rs1 * 2 ^ 16 + r2 * 2 ^ 11 + func; bobReady s b (w 2 rs2) ∧ rd < 32 ∧ rs1 < 32 ∧ rs2 < 8 ∧ (s.bob b).loads = [] ∧ (s.bob b).stores = [] ∧ (s.bob b).held = 0 ∧ 2 < 6 ∧ (2 = 0 ∨ 2 = 4 ∨ 2 = 5 ∨ u.vpois rs2 = false ∧ u.vpois (rs2 ^^^ 1) = false) ∧ ((2 < 4 ∨ classHeld s b = false)) ∧ tier = 1 ∧ n < 2 ^ 35 ∧ pagesL s ≤ n :=
  ⟨{ wMem with tier := { (wMem).tier with dc := [(dcBase 3 + 2, some ⟨3, wDesc, false, false, 0, false⟩)] }, bobs := [(63, { Bob.init with run := 1, words := 10, pc := 5, text := [(5, 2149720066)], cap := [1], g := [(2, 786432)] })] }, 63, 1, 2, 4, by dsimp only; exact ⟨ready_of (by decide +kernel), by decide +kernel⟩⟩
theorem witness_DescriptorOperationsOfABobbin_16 : ∃ (s : State) (b : Nat) (rd : Nat) (rs1 : Nat) (rs2 : Nat), let u := s.bob b; let tier := (u.cap.getD 0 0) % 2; let w := fun func r2 => 0x20 * 2 ^ 26 + rd * 2 ^ 21 + rs1 * 2 ^ 16 + r2 * 2 ^ 11 + func; bobReady s b (w 3 rs2) ∧ rd < 32 ∧ rs1 < 32 ∧ rs2 < 8 ∧ (s.bob b).loads = [] ∧ (s.bob b).stores = [] ∧ (s.bob b).held = 0 ∧ tier = 0 :=
  ⟨{ wMem with tier := { (wMem).tier with dc := [(dcBase 3 + 2, some ⟨3, wDesc, false, false, 0, false⟩)] }, bobs := [(63, { Bob.init with run := 1, words := 10, pc := 5, text := [(5, 2149720067)], cap := [0], g := [(2, 3)] })] }, 63, 1, 2, 4, by dsimp only; exact ⟨ready_of (by decide +kernel), by decide +kernel⟩⟩
theorem witness_DescriptorOperationsOfABobbin_17 : ∃ (s : State) (b : Nat) (rd : Nat) (rs1 : Nat) (rs2 : Nat), let u := s.bob b; let n := (u.gr rs1).toNat; let tier := (u.cap.getD 0 0) % 2; let w := fun func r2 => 0x20 * 2 ^ 26 + rd * 2 ^ 21 + rs1 * 2 ^ 16 + r2 * 2 ^ 11 + func; bobReady s b (w 3 rs2) ∧ rd < 32 ∧ rs1 < 32 ∧ rs2 < 8 ∧ (s.bob b).loads = [] ∧ (s.bob b).stores = [] ∧ (s.bob b).held = 0 ∧ 3 < 6 ∧ (3 = 0 ∨ 3 = 4 ∨ 3 = 5 ∨ u.vpois rs2 = false ∧ u.vpois (rs2 ^^^ 1) = false) ∧ ((3 < 4 ∨ classHeld s b = false)) ∧ tier = 1 ∧ 2 ^ 35 ≤ n :=
  ⟨{ wMem with tier := { (wMem).tier with dc := [(dcBase 3 + 2, some ⟨3, wDesc, false, false, 0, false⟩)] }, bobs := [(63, { Bob.init with run := 1, words := 10, pc := 5, text := [(5, 2149720067)], cap := [1], g := [(2, 34359738368)] })] }, 63, 1, 2, 4, by dsimp only; exact ⟨ready_of (by decide +kernel), by decide +kernel⟩⟩
theorem witness_DescriptorOperationsOfABobbin_18 : ∃ (s : State) (b : Nat) (rd : Nat) (rs1 : Nat) (rs2 : Nat), let u := s.bob b; let n := (u.gr rs1).toNat; let tier := (u.cap.getD 0 0) % 2; let w := fun func r2 => 0x20 * 2 ^ 26 + rd * 2 ^ 21 + rs1 * 2 ^ 16 + r2 * 2 ^ 11 + func; bobReady s b (w 3 rs2) ∧ rd < 32 ∧ rs1 < 32 ∧ rs2 < 8 ∧ (s.bob b).loads = [] ∧ (s.bob b).stores = [] ∧ (s.bob b).held = 0 ∧ 3 < 6 ∧ (3 = 0 ∨ 3 = 4 ∨ 3 = 5 ∨ u.vpois rs2 = false ∧ u.vpois (rs2 ^^^ 1) = false) ∧ ((3 < 4 ∨ classHeld s b = false)) ∧ tier = 1 ∧ n < 2 ^ 35 ∧ pagesL s ≤ n :=
  ⟨{ wMem with tier := { (wMem).tier with dc := [(dcBase 3 + 2, some ⟨3, wDesc, false, false, 0, false⟩)] }, bobs := [(63, { Bob.init with run := 1, words := 10, pc := 5, text := [(5, 2149720067)], cap := [1], g := [(2, 786432)] })] }, 63, 1, 2, 4, by dsimp only; exact ⟨ready_of (by decide +kernel), by decide +kernel⟩⟩
theorem witness_DescriptorOperationsOfABobbin_19 : ∃ (s : State) (b : Nat) (rd : Nat) (rs1 : Nat) (rs2 : Nat), let u := s.bob b; let tier := (u.cap.getD 0 0) % 2; let w := fun func r2 => 0x20 * 2 ^ 26 + rd * 2 ^ 21 + rs1 * 2 ^ 16 + r2 * 2 ^ 11 + func; bobReady s b (w 6 0) ∧ rd < 32 ∧ rs1 < 32 ∧ rs2 < 8 ∧ (s.bob b).loads = [] ∧ (s.bob b).stores = [] ∧ (s.bob b).held = 0 ∧ tier = 0 :=
  ⟨{ wMem with tier := { (wMem).tier with dc := [(dcBase 3 + 2, some ⟨3, wDesc, false, false, 0, false⟩)] }, bobs := [(63, { Bob.init with run := 1, words := 10, pc := 5, text := [(5, 2149711878)], cap := [0], g := [(2, 3)] })] }, 63, 1, 2, 4, by dsimp only; exact ⟨ready_of (by decide +kernel), by decide +kernel⟩⟩
theorem witness_DescriptorOperationsOfABobbin_20 : ∃ (s : State) (b : Nat) (rd : Nat) (rs1 : Nat) (rs2 : Nat), ∃ d, let u := s.bob b; let n := (u.gr rs1).toNat; let tier := (u.cap.getD 0 0) % 2; let w := fun func r2 => 0x20 * 2 ^ 26 + rd * 2 ^ 21 + rs1 * 2 ^ 16 + r2 * 2 ^ 11 + func; bobReady s b (w 0 rs2) ∧ rd < 32 ∧ rs1 < 32 ∧ rs2 < 8 ∧ (s.bob b).loads = [] ∧ (s.bob b).stores = [] ∧ (s.bob b).held = 0 ∧ n < 2 ^ 35 ∧ n < pagesL s ∧ descOf s n = some d ∧ tier = 1 :=
  ⟨{ wMem with tier := { (wMem).tier with dc := [(dcBase 3 + 2, some ⟨3, wDesc, false, false, 0, false⟩)] }, bobs := [(63, { Bob.init with run := 1, words := 10, pc := 5, text := [(5, 2149720064)], cap := [1], g := [(2, 3)] })] }, 63, 1, 2, 4, wDesc, by dsimp only; exact ⟨ready_of (by decide +kernel), by decide +kernel⟩⟩
theorem witness_DescriptorOperationsOfABobbin_21 : ∃ (s : State) (b : Nat) (rd : Nat) (rs1 : Nat) (rs2 : Nat), ∃ d, let u := s.bob b; let n := (u.gr rs1).toNat; let tier := (u.cap.getD 0 0) % 2; let w := fun func r2 => 0x20 * 2 ^ 26 + rd * 2 ^ 21 + rs1 * 2 ^ 16 + r2 * 2 ^ 11 + func; nothingWaits s ∧ bobReady s b (w 2 rs2) ∧ rd < 32 ∧ rs1 < 32 ∧ rs2 < 8 ∧ (s.bob b).loads = [] ∧ (s.bob b).stores = [] ∧ (s.bob b).held = 0 ∧ n < 2 ^ 35 ∧ n < pagesL s ∧ descOf s n = some d ∧ busyOf s n = false ∧ u.vpois rs2 = false ∧ dState d ≠ stINIT ∧ tier = 1 :=
  ⟨{ wMem with tier := { (wMem).tier with dc := [(dcBase 3 + 2, some ⟨3, wDesc, false, false, 0, false⟩)] }, bobs := [(63, { Bob.init with run := 1, words := 10, pc := 5, text := [(5, 2149720066)], cap := [1], g := [(2, 3)], v := [(4, wDesc ||| 0x3fc00), (5, 0)] })] }, 63, 1, 2, 4, wDesc, by dsimp only; exact ⟨by unfold nothingWaits; decide +kernel, ready_of (by decide +kernel), by decide +kernel⟩⟩
theorem witness_DescriptorOperationsOfABobbin_22 : ∃ (s : State) (b : Nat) (rd : Nat) (rs1 : Nat) (rs2 : Nat), ∃ d, let u := s.bob b; let n := (u.gr rs1).toNat; let tier := (u.cap.getD 0 0) % 2; let w := fun func r2 => 0x20 * 2 ^ 26 + rd * 2 ^ 21 + rs1 * 2 ^ 16 + r2 * 2 ^ 11 + func; nothingWaits s ∧ bobReady s b (w 2 rs2) ∧ rd < 32 ∧ rs1 < 32 ∧ rs2 < 8 ∧ (s.bob b).loads = [] ∧ (s.bob b).stores = [] ∧ (s.bob b).held = 0 ∧ n < 2 ^ 35 ∧ n < pagesL s ∧ descOf s n = some d ∧ busyOf s n = false ∧ u.vpois rs2 = false ∧ dState d = stINIT ∧ tier = 1 :=
  ⟨{ wMem with tier := { (wMem).tier with dc := [(dcBase 3 + 2, some ⟨3, 0, false, false, 0, false⟩)] }, bobs := [(63, { Bob.init with run := 1, words := 10, pc := 5, text := [(5, 2149720066)], cap := [1], g := [(2, 3)], v := [(4, wDesc), (5, 0)] })] }, 63, 1, 2, 4, 0, by dsimp only; exact ⟨by unfold nothingWaits; decide +kernel, ready_of (by decide +kernel), by decide +kernel⟩⟩
theorem witness_DescriptorOperationsOfABobbin_23 : ∃ (s : State) (b : Nat) (rd : Nat) (rs1 : Nat) (rs2 : Nat), ∃ d, let u := s.bob b; let n := (u.gr rs1).toNat; let tier := (u.cap.getD 0 0) % 2; let w := fun func r2 => 0x20 * 2 ^ 26 + rd * 2 ^ 21 + rs1 * 2 ^ 16 + r2 * 2 ^ 11 + func; let new := u.vr rs2; let plain := descOk s new = true ∧ (dHot d = true ∧ dHot new = true ∧ dput new 10 8 (dAcc d) = d ∨ dHot d = false ∧ dHot new = false ∧ dState new ≠ stINIT ∧ (dState new = stCOLD → 0 < dSize new → slotLive s (dKreg new) (dEpoch new) = true)); nothingWaits s ∧ bobReady s b (w 1 rs2) ∧ rd < 32 ∧ rs1 < 32 ∧ rs2 < 8 ∧ (s.bob b).loads = [] ∧ (s.bob b).stores = [] ∧ (s.bob b).held = 0 ∧ n < 2 ^ 35 ∧ n < pagesL s ∧ descOf s n = some d ∧ busyOf s n = false ∧ u.vpois rs2 = false ∧ plain ∧ tier = 1 :=
  ⟨{ wMem with tier := { (wMem).tier with dc := [(dcBase 3 + 2, some ⟨3, wDesc, false, false, 0, false⟩)] }, bobs := [(63, { Bob.init with run := 1, words := 10, pc := 5, text := [(5, 2149720065)], cap := [1], g := [(2, 3)], v := [(4, (dput wDesc 10 8 77)), (5, 0)] })] }, 63, 1, 2, 4, wDesc, by dsimp only; exact ⟨by unfold nothingWaits; decide +kernel, ready_of (by decide +kernel), by decide +kernel⟩⟩
theorem witness_DescriptorOperationsOfABobbin_24 : ∃ (s : State) (b : Nat) (rd : Nat) (rs1 : Nat) (rs2 : Nat), ∃ d, let u := s.bob b; let n := (u.gr rs1).toNat; let tier := (u.cap.getD 0 0) % 2; let w := fun func r2 => 0x20 * 2 ^ 26 + rd * 2 ^ 21 + rs1 * 2 ^ 16 + r2 * 2 ^ 11 + func; let new := u.vr rs2; let forged := descOk s new = true ∧ dHot new = true ∧ (dHot d = false ∨ dput new 10 8 (dAcc d) ≠ d); nothingWaits s ∧ bobReady s b (w 1 rs2) ∧ rd < 32 ∧ rs1 < 32 ∧ rs2 < 8 ∧ (s.bob b).loads = [] ∧ (s.bob b).stores = [] ∧ (s.bob b).held = 0 ∧ n < 2 ^ 35 ∧ n < pagesL s ∧ descOf s n = some d ∧ busyOf s n = false ∧ u.vpois rs2 = false ∧ forged ∧ tier = 1 :=
  ⟨{ wMem with tier := { (wMem).tier with dc := [(dcBase 3 + 2, some ⟨3, wDesc, false, false, 0, false⟩)] }, bobs := [(63, { Bob.init with run := 1, words := 10, pc := 5, text := [(5, 2149720065)], cap := [1], g := [(2, 3)], v := [(4, (dput wDesc 54 40 8)), (5, 0)] })] }, 63, 1, 2, 4, wDesc, by dsimp only; exact ⟨by unfold nothingWaits; decide +kernel, ready_of (by decide +kernel), by decide +kernel⟩⟩
theorem witness_DescriptorOperationsOfABobbin_25 : ∃ (s : State) (b : Nat) (rd : Nat) (rs1 : Nat) (rs2 : Nat), ∃ d, let u := s.bob b; let n := (u.gr rs1).toNat; let tier := (u.cap.getD 0 0) % 2; let w := fun func r2 => 0x20 * 2 ^ 26 + rd * 2 ^ 21 + rs1 * 2 ^ 16 + r2 * 2 ^ 11 + func; nothingWaits s ∧ bobReady s b (w 3 rs2) ∧ rd < 32 ∧ rs1 < 32 ∧ rs2 < 8 ∧ (s.bob b).loads = [] ∧ (s.bob b).stores = [] ∧ (s.bob b).held = 0 ∧ n < 2 ^ 35 ∧ n < pagesL s ∧ descOf s n = some d ∧ busyOf s n = false ∧ u.vpois rs2 = false ∧ u.vpois (rs2 ^^^ 1) = false ∧ u.vr (rs2 ^^^ 1) ≠ d ∧ tier = 1 :=
  ⟨{ wMem with tier := { (wMem).tier with dc := [(dcBase 3 + 2, some ⟨3, wDesc, false, false, 0, false⟩)] }, bobs := [(63, { Bob.init with run := 1, words := 10, pc := 5, text := [(5, 2149720067)], cap := [1], g := [(2, 3)], v := [(4, (dput wDesc 10 8 77)), (5, 1)] })] }, 63, 1, 2, 4, wDesc, by dsimp only; exact ⟨by unfold nothingWaits; decide +kernel, ready_of (by decide +kernel), by decide +kernel⟩⟩
theorem witness_DescriptorOperationsOfABobbin_26 : ∃ (s : State) (b : Nat) (rd : Nat) (rs1 : Nat) (rs2 : Nat), ∃ d, let u := s.bob b; let n := (u.gr rs1).toNat; let tier := (u.cap.getD 0 0) % 2; let w := fun func r2 => 0x20 * 2 ^ 26 + rd * 2 ^ 21 + rs1 * 2 ^ 16 + r2 * 2 ^ 11 + func; let new := u.vr rs2; let plain := descOk s new = true ∧ (dHot d = true ∧ dHot new = true ∧ dput new 10 8 (dAcc d) = d ∨ dHot d = false ∧ dHot new = false ∧ dState new ≠ stINIT ∧ (dState new = stCOLD → 0 < dSize new → slotLive s (dKreg new) (dEpoch new) = true)); nothingWaits s ∧ bobReady s b (w 3 rs2) ∧ rd < 32 ∧ rs1 < 32 ∧ rs2 < 8 ∧ (s.bob b).loads = [] ∧ (s.bob b).stores = [] ∧ (s.bob b).held = 0 ∧ n < 2 ^ 35 ∧ n < pagesL s ∧ descOf s n = some d ∧ busyOf s n = false ∧ u.vpois rs2 = false ∧ u.vpois (rs2 ^^^ 1) = false ∧ u.vr (rs2 ^^^ 1) = d ∧ plain ∧ tier = 1 :=
  ⟨{ wMem with tier := { (wMem).tier with dc := [(dcBase 3 + 2, some ⟨3, wDesc, false, false, 0, false⟩)] }, bobs := [(63, { Bob.init with run := 1, words := 10, pc := 5, text := [(5, 2149720067)], cap := [1], g := [(2, 3)], v := [(4, (dput wDesc 10 8 77)), (5, wDesc)] })] }, 63, 1, 2, 4, wDesc, by dsimp only; exact ⟨by unfold nothingWaits; decide +kernel, ready_of (by decide +kernel), by decide +kernel⟩⟩
theorem witness_DescriptorOperationsOfABobbin_27 : ∃ (s : State) (b : Nat) (rd : Nat) (rs1 : Nat) (rs2 : Nat), ∃ d, let u := s.bob b; let n := (u.gr rs1).toNat; let tier := (u.cap.getD 0 0) % 2; let w := fun func r2 => 0x20 * 2 ^ 26 + rd * 2 ^ 21 + rs1 * 2 ^ 16 + r2 * 2 ^ 11 + func; let new := u.vr rs2; let forged := descOk s new = true ∧ dHot new = true ∧ (dHot d = false ∨ dput new 10 8 (dAcc d) ≠ d); nothingWaits s ∧ bobReady s b (w 3 rs2) ∧ rd < 32 ∧ rs1 < 32 ∧ rs2 < 8 ∧ (s.bob b).loads = [] ∧ (s.bob b).stores = [] ∧ (s.bob b).held = 0 ∧ n < 2 ^ 35 ∧ n < pagesL s ∧ descOf s n = some d ∧ busyOf s n = false ∧ u.vpois rs2 = false ∧ u.vpois (rs2 ^^^ 1) = false ∧ u.vr (rs2 ^^^ 1) = d ∧ forged ∧ tier = 1 :=
  ⟨{ wMem with tier := { (wMem).tier with dc := [(dcBase 3 + 2, some ⟨3, wDesc, false, false, 0, false⟩)] }, bobs := [(63, { Bob.init with run := 1, words := 10, pc := 5, text := [(5, 2149720067)], cap := [1], g := [(2, 3)], v := [(4, (dput wDesc 54 40 8)), (5, wDesc)] })] }, 63, 1, 2, 4, wDesc, by dsimp only; exact ⟨by unfold nothingWaits; decide +kernel, ready_of (by decide +kernel), by decide +kernel⟩⟩
theorem witness_DescriptorOperationsOfABobbin_28 : ∃ (s : State) (b : Nat) (rd : Nat) (rs1 : Nat) (rs2 : Nat), ∃ d, let u := s.bob b; let n := (u.gr rs1).toNat; let tier := (u.cap.getD 0 0) % 2; let w := fun func r2 => 0x20 * 2 ^ 26 + rd * 2 ^ 21 + rs1 * 2 ^ 16 + r2 * 2 ^ 11 + func; nothingWaits s ∧ bobReady s b (w 4 0) ∧ rd < 32 ∧ rs1 < 32 ∧ rs2 < 8 ∧ (s.bob b).loads = [] ∧ (s.bob b).stores = [] ∧ (s.bob b).held = 0 ∧ n < 2 ^ 35 ∧ n < pagesL s ∧ descOf s n = some d ∧ busyOf s n = false ∧ classHeld s b = false ∧ canBusy s n = true ∧ promoOf s n = none ∧ dState d ≠ stCOLD ∧ tier = 1 :=
  ⟨{ wMem with tier := { (wMem).tier with dc := [(dcBase 3 + 2, some ⟨3, wDesc, false, false, 0, false⟩)] }, bobs := [(63, { Bob.init with run := 1, words := 10, pc := 5, text := [(5, 2149711876)], cap := [1], g := [(2, 3)] })] }, 63, 1, 2, 4, wDesc, by dsimp only; exact ⟨by unfold nothingWaits; decide +kernel, ready_of (by decide +kernel), by decide +kernel⟩⟩
theorem witness_DescriptorOperationsOfABobbin_29 : ∃ (s : State) (b : Nat) (rd : Nat) (rs1 : Nat) (rs2 : Nat), ∃ d, let u := s.bob b; let n := (u.gr rs1).toNat; let tier := (u.cap.getD 0 0) % 2; let w := fun func r2 => 0x20 * 2 ^ 26 + rd * 2 ^ 21 + rs1 * 2 ^ 16 + r2 * 2 ^ 11 + func; nothingWaits s ∧ bobReady s b (w 4 0) ∧ rd < 32 ∧ rs1 < 32 ∧ rs2 < 8 ∧ (s.bob b).loads = [] ∧ (s.bob b).stores = [] ∧ (s.bob b).held = 0 ∧ n < 2 ^ 35 ∧ n < pagesL s ∧ descOf s n = some d ∧ busyOf s n = false ∧ classHeld s b = false ∧ canBusy s n = true ∧ promoOf s n = none ∧ dState d = stCOLD ∧ 0 < dSize d ∧ slotLive s (dKreg d) (dEpoch d) = false ∧ tier = 1 :=
  ⟨{ (wMem.fset (KEY_RCTL 0) F.KEY_RCTL_LIVE 2) with tier := { ((wMem.fset (KEY_RCTL 0) F.KEY_RCTL_LIVE 2)).tier with dc := [(dcBase 3 + 2, some ⟨3, (mkCold 0 0 5 40 2 [2, 4, 5, 6, 7, 8, 9, 10] 0), false, false, 0, false⟩)] }, bobs := [(63, { Bob.init with run := 1, words := 10, pc := 5, text := [(5, 2149711876)], cap := [1], g := [(2, 3)] })] }, 63, 1, 2, 4, (mkCold 0 0 5 40 2 [2, 4, 5, 6, 7, 8, 9, 10] 0), by dsimp only; exact ⟨by unfold nothingWaits; decide +kernel, ready_of (by decide +kernel), by decide +kernel⟩⟩
theorem witness_DescriptorOperationsOfABobbin_30 : ∃ (s : State) (b : Nat) (rd : Nat) (rs1 : Nat) (rs2 : Nat), ∃ d, let u := s.bob b; let n := (u.gr rs1).toNat; let tier := (u.cap.getD 0 0) % 2; let w := fun func r2 => 0x20 * 2 ^ 26 + rd * 2 ^ 21 + rs1 * 2 ^ 16 + r2 * 2 ^ 11 + func; nothingWaits s ∧ bobReady s b (w 5 0) ∧ rd < 32 ∧ rs1 < 32 ∧ rs2 < 8 ∧ (s.bob b).loads = [] ∧ (s.bob b).stores = [] ∧ (s.bob b).held = 0 ∧ n < 2 ^ 35 ∧ n < pagesL s ∧ descOf s n = some d ∧ busyOf s n = false ∧ classHeld s b = false ∧ canBusy s n = true ∧ promoOf s n = none ∧ (dState d = stINIT ∨ dState d = stLOST) ∧ tier = 1 :=
  ⟨{ wMem with tier := { (wMem).tier with dc := [(dcBase 3 + 2, some ⟨3, 4, false, false, 0, false⟩)] }, bobs := [(63, { Bob.init with run := 1, words := 10, pc := 5, text := [(5, 2149711877)], cap := [1], g := [(2, 3)] })] }, 63, 1, 2, 4, 4, by dsimp only; exact ⟨by unfold nothingWaits; decide +kernel, ready_of (by decide +kernel), by decide +kernel⟩⟩
theorem witness_DescriptorOperationsOfABobbin_31 : ∃ (s : State) (b : Nat) (rd : Nat) (rs1 : Nat) (rs2 : Nat), ∃ d, let u := s.bob b; let n := (u.gr rs1).toNat; let tier := (u.cap.getD 0 0) % 2; let w := fun func r2 => 0x20 * 2 ^ 26 + rd * 2 ^ 21 + rs1 * 2 ^ 16 + r2 * 2 ^ 11 + func; nothingWaits s ∧ bobReady s b (w 5 0) ∧ rd < 32 ∧ rs1 < 32 ∧ rs2 < 8 ∧ (s.bob b).loads = [] ∧ (s.bob b).stores = [] ∧ (s.bob b).held = 0 ∧ n < 2 ^ 35 ∧ n < pagesL s ∧ descOf s n = some d ∧ busyOf s n = false ∧ classHeld s b = false ∧ canBusy s n = true ∧ promoOf s n = none ∧ dState d = stCOLD ∧ dSize d = 0 ∧ stripesOf s (groupFor s (n * 4096)) ≠ 0 ∧ tier = 1 :=
  ⟨{ wMem with tier := { (wMem).tier with dc := [(dcBase 3 + 2, some ⟨3, (mkCold 0 0 5 0 0 [0, 0, 0, 0, 0, 0, 0, 0] 0), false, false, 0, false⟩)] }, bobs := [(63, { Bob.init with run := 1, words := 10, pc := 5, text := [(5, 2149711877)], cap := [1], g := [(2, 3)] })] }, 63, 1, 2, 4, (mkCold 0 0 5 0 0 [0, 0, 0, 0, 0, 0, 0, 0] 0), by dsimp only; exact ⟨by unfold nothingWaits; decide +kernel, ready_of (by decide +kernel), by decide +kernel⟩⟩
theorem witness_DescriptorOperationsOfABobbin_32 : ∃ (s : State) (b : Nat) (rd : Nat) (rs1 : Nat) (rs2 : Nat), let u := s.bob b; let n := (u.gr rs1).toNat; let tier := (u.cap.getD 0 0) % 2; let w := fun func r2 => 0x20 * 2 ^ 26 + rd * 2 ^ 21 + rs1 * 2 ^ 16 + r2 * 2 ^ 11 + func; let c := n / 2 ^ 28 % 32; let i := n % 2 ^ 28; let g := c / 12; let inPlain := n < 2 ^ 33 ∧ c < 24 ∧ groupEn s g = true ∧ plainBase s g ≤ i ∧ i < chanFrames s c; bobReady s b (w 6 0) ∧ rd < 32 ∧ rs1 < 32 ∧ rs2 < 8 ∧ (s.bob b).loads = [] ∧ (s.bob b).stores = [] ∧ (s.bob b).held = 0 ∧ inPlain ∧ (s.chan c).fifoP.length < 1024 ∧ tier = 1 :=
  ⟨{ wMem with tier := { (wMem).tier with dc := [(dcBase 3 + 2, some ⟨3, wDesc, false, false, 0, false⟩)] }, bobs := [(63, { Bob.init with run := 1, words := 10, pc := 5, text := [(5, 2149711878)], cap := [1], g := [(2, 2956984319)] })] }, 63, 1, 2, 4, by dsimp only; exact ⟨ready_of (by decide +kernel), by decide +kernel⟩⟩
theorem witness_DescriptorOperationsOfABobbin_33 : ∃ (s : State) (b : Nat) (rd : Nat) (rs1 : Nat) (rs2 : Nat), let u := s.bob b; let n := (u.gr rs1).toNat; let tier := (u.cap.getD 0 0) % 2; let w := fun func r2 => 0x20 * 2 ^ 26 + rd * 2 ^ 21 + rs1 * 2 ^ 16 + r2 * 2 ^ 11 + func; let c := n / 2 ^ 28 % 32; let i := n % 2 ^ 28; let g := c / 12; let inPlain := n < 2 ^ 33 ∧ c < 24 ∧ groupEn s g = true ∧ plainBase s g ≤ i ∧ i < chanFrames s c; bobReady s b (w 6 0) ∧ rd < 32 ∧ rs1 < 32 ∧ rs2 < 8 ∧ (s.bob b).loads = [] ∧ (s.bob b).stores = [] ∧ (s.bob b).held = 0 ∧ inPlain ∧ 1024 ≤ (s.chan c).fifoP.length ∧ tier = 1 :=
  ⟨{ wMem with tier := { (wMem).tier with dc := [(dcBase 3 + 2, some ⟨3, wDesc, false, false, 0, false⟩)] }, chans := [(11, { Chan.init with fifoP := List.replicate 1024 3 })], bobs := [(63, { Bob.init with run := 1, words := 10, pc := 5, text := [(5, 2149711878)], cap := [1], g := [(2, 2956984319)] })] }, 63, 1, 2, 4, by dsimp only; exact ⟨ready_of (by decide +kernel), by decide +kernel⟩⟩
theorem witness_DescriptorOperationsOfABobbin_34 : ∃ (s : State) (b : Nat) (rd : Nat) (rs1 : Nat) (rs2 : Nat), let u := s.bob b; let n := (u.gr rs1).toNat; let tier := (u.cap.getD 0 0) % 2; let w := fun func r2 => 0x20 * 2 ^ 26 + rd * 2 ^ 21 + rs1 * 2 ^ 16 + r2 * 2 ^ 11 + func; let c := n / 2 ^ 28 % 32; let i := n % 2 ^ 28; let g := c / 12; let inMirror := n < 2 ^ 33 ∧ c < 24 ∧ groupEn s g = true ∧ c % 12 < 6 ∧ dFrames s ≤ i ∧ i < coldBase s g; bobReady s b (w 6 0) ∧ rd < 32 ∧ rs1 < 32 ∧ rs2 < 8 ∧ (s.bob b).loads = [] ∧ (s.bob b).stores = [] ∧ (s.bob b).held = 0 ∧ inMirror ∧ (s.chan c).fifoM.length < 1024 ∧ tier = 1 :=
  ⟨{ wMem with tier := { (wMem).tier with dc := [(dcBase 3 + 2, some ⟨3, wDesc, false, false, 0, false⟩)] }, bobs := [(63, { Bob.init with run := 1, words := 10, pc := 5, text := [(5, 2149711878)], cap := [1], g := [(2, 1342701567)] })] }, 63, 1, 2, 4, by dsimp only; exact ⟨ready_of (by decide +kernel), by decide +kernel⟩⟩
theorem witness_DescriptorOperationsOfABobbin_35 : ∃ (s : State) (b : Nat) (rd : Nat) (rs1 : Nat) (rs2 : Nat), let u := s.bob b; let n := (u.gr rs1).toNat; let tier := (u.cap.getD 0 0) % 2; let w := fun func r2 => 0x20 * 2 ^ 26 + rd * 2 ^ 21 + rs1 * 2 ^ 16 + r2 * 2 ^ 11 + func; let c := n / 2 ^ 28 % 32; let i := n % 2 ^ 28; let g := c / 12; let inPlain := n < 2 ^ 33 ∧ c < 24 ∧ groupEn s g = true ∧ plainBase s g ≤ i ∧ i < chanFrames s c; let inMirror := n < 2 ^ 33 ∧ c < 24 ∧ groupEn s g = true ∧ c % 12 < 6 ∧ dFrames s ≤ i ∧ i < coldBase s g; bobReady s b (w 6 0) ∧ rd < 32 ∧ rs1 < 32 ∧ rs2 < 8 ∧ (s.bob b).loads = [] ∧ (s.bob b).stores = [] ∧ (s.bob b).held = 0 ∧ ¬ inPlain ∧ ¬ inMirror ∧ tier = 1 :=
  ⟨{ wMem with tier := { (wMem).tier with dc := [(dcBase 3 + 2, some ⟨3, wDesc, false, false, 0, false⟩)] }, bobs := [(63, { Bob.init with run := 1, words := 10, pc := 5, text := [(5, 2149711878)], cap := [1], g := [(2, 6443237376)] })] }, 63, 1, 2, 4, by dsimp only; exact ⟨ready_of (by decide +kernel), by decide +kernel⟩⟩
theorem witness_IntegerInstructions_clz : ∃ s b, bobReady s b (1 * 2 ^ 26 + 3 * 2 ^ 21 + 1 * 2 ^ 16 + 0 * 2 ^ 11 + 32) := ⟨({ State.reset with bobs := [(63, { Bob.init with run := 1, words := 10, pc := 5, text := [(5, 73465888)], g := [(1, 7), (2, 1)] })] }), 63, ready_of (by decide +kernel)⟩
theorem witness_IntegerInstructions_ctz : ∃ s b, bobReady s b (1 * 2 ^ 26 + 3 * 2 ^ 21 + 1 * 2 ^ 16 + 0 * 2 ^ 11 + 33) := ⟨({ State.reset with bobs := [(63, { Bob.init with run := 1, words := 10, pc := 5, text := [(5, 73465889)], g := [(1, 7), (2, 1)] })] }), 63, ready_of (by decide +kernel)⟩
theorem witness_IntegerInstructions_bswap : ∃ s b, bobReady s b (1 * 2 ^ 26 + 3 * 2 ^ 21 + 1 * 2 ^ 16 + 0 * 2 ^ 11 + 35) := ⟨({ State.reset with bobs := [(63, { Bob.init with run := 1, words := 10, pc := 5, text := [(5, 73465891)], g := [(1, 7), (2, 1)] })] }), 63, ready_of (by decide +kernel)⟩
theorem witness_LineRegistersAndScratchpad_vcmp : ∃ s b, (s.bob b).loads = [] ∧ bobReady s b (2 * 2 ^ 26 + 3 * 2 ^ 21 + 1 * 2 ^ 16 + 2 * 2 ^ 11 + 24) := ⟨({ State.reset with bobs := [(63, { Bob.init with run := 1, words := 10, pc := 5, text := [(5, 140578840)], v := [(1, 0x1234567890abcdef11223344556677880000000000000000000000000000000000000000000000000000000000000000), (2, 0xff00ff00ff00ff00000000000000000000000000000000000000000000000000000000000000000000000000000000000000000000000000)] })] }), 63, rfl, ready_of (by decide +kernel)⟩
theorem ok_of {x : OpRes} {p : State → Bool} (h : (match x with | .ok t => p t | _ => false) = true) : ∃ t, x = .ok t ∧ p t = true := by
  cases x with
  | ok t => exact ⟨t, rfl, h⟩
  | wait _ => cases h
  | failed _ => cases h
  | error _ _ => cases h
theorem witness_DescriptorCacheFlushAndPleat_promotion : ∃ (s : State) (s1 : State) (la : Nat) (k : Nat) (e : LcEntry) (d : Desc), nothingWaits s ∧ promotePage (dcTouch s (la / 4096)) (la / 4096) (la / 4096 * 4096) d (some la) (some (la / 64 % 64, e.data, false)) = .ok s1 ∧ s1.tier.promos = [] ∧ s1.fget TIR_CFG F.TIR_CFG_ACC_WB = 0 ∧ nothingWaits s1 ∧ lcFind s1 la = some (k, e) ∧ la % 64 = 0 ∧ la < 2 ^ 47 ∧ la / 4096 < pagesL s ∧ lcFind s la = some (k, e) ∧ e.st = .dirty ∧ descOf s (la / 4096) = some d ∧ dState d = stCOLD ∧ dSize d = 0 ∧ s.devLevel < 3 ∧ coreOpen s = true ∧ canBusy s (la / 4096) = true ∧ s.tier.promos = [] := by
  obtain ⟨t, h1, h2⟩ := ok_of (x := promotePage (dcTouch wProm (wLa / 4096)) (wLa / 4096) (wLa / 4096 * 4096) (mkCold 0 0 5 0 0 [] 0) (some wLa) (some (wLa / 64 % 64, 0x77, false)))
    (p := fun s1 => decide (s1.tier.promos = [] ∧ s1.fget TIR_CFG F.TIR_CFG_ACC_WB = 0 ∧
      (s1.home.waiting = [] ∧ s1.home.arrived = [] ∧ s1.tier.wbQueue = [] ∧ (∀ x ∈ s1.ports, x.2.releasing = []) ∧ ∀ x ∈ s1.tier.dc, x.2.isSome = true → bankOut s1 (dcBank x.1) = false) ∧
      lcFind s1 wLa = some (lcBase wLa + 5, wPromL))) (by decide +kernel)
  obtain ⟨p1, p2, p3, p4⟩ := of_decide_eq_true h2
  exact ⟨wProm, t, wLa, lcBase wLa + 5, wPromL, mkCold 0 0 5 0 0 [] 0, ⟨by unfold nothingWaits; decide +kernel, h1, p1, p2, p3, p4, by decide +kernel⟩⟩
theorem witness_DescriptorCacheFlushAndPleat_coldSegment : ∃ (s : State) (s1 : State) (la : Nat) (c : Nat) (w : PleatWork) (d : Desc) (r : HomeReq) (ws : List Nat), coldSegment { s with tier := { s.tier with pleat := [] } } (la / 4096) d (la / 512 % 8) = (some ws, s1) ∧ homeQuiet { s1 with home := { s1.home with waiting := [] } } la ∧ la % 64 = 0 ∧ la < 2 ^ 47 ∧ coreOpen s = true ∧ s.tier.pleat = [w] ∧ w.la = la / 512 * 512 ∧ w.cls = 1 ∧ w.granted = true ∧ descOf s (la / 4096) = some d ∧ dState d = stCOLD ∧ 0 < dSize d ∧ slotLive s (dKreg d) (dEpoch d) = true ∧ s1.home.waiting = [r] ∧ r.front = false ∧ s1.home.dirEnt = [] ∧ s1.tier.lc = [] ∧ s1.tier.pleat = [] ∧ s1.fget TIR_CFG F.TIR_CFG_SEGFILL = 0 ∧ s1.fget TIR_CFG F.TIR_CFG_ACC_FILL = 0 ∧ r.kind = .readCurrent ∧ r.who = .core c ∧ r.la = la := by
  have h : wColdR = (some (wColdR.1.getD []), wColdR.2) := Prod.ext (some_getD (by decide +kernel)) rfl
  exact ⟨wColdS, wColdR.2, wLa, 2, ⟨3, 1, 0x3000, 1, 1, false, true, false⟩, wColdD, wColdReq, wColdR.1.getD [], ⟨h, by unfold homeQuiet nothingWaits; decide +kernel, by decide +kernel⟩⟩
theorem witness_EveryStepKeepsTheStoresCanonical : ∃ s t : State, s.memWf = true ∧ step s = .next t :=
  ⟨State.reset, idle State.reset, by decide, rfl⟩
theorem witness_DescriptorOperationsOfABobbin_promote : ∃ (s : State) (b : Nat) (rd : Nat) (rs1 : Nat) (rs2 : Nat), ∃ d s1, let u := s.bob b; let n := (u.gr rs1).toNat; let tier := (u.cap.getD 0 0) % 2; let w := fun func r2 => 0x20 * 2 ^ 26 + rd * 2 ^ 21 + rs1 * 2 ^ 16 + r2 * 2 ^ 11 + func; nothingWaits s ∧ promotePage (dcTouch (s.setBob b { u with last := u.pc }) n) n (bobWork b) d none none = .ok s1 ∧ s1.bobs = (s.setBob b { u with last := u.pc }).bobs ∧ nothingWaits s1 ∧ bobReady s b (w 4 0) ∧ rd < 32 ∧ rs1 < 32 ∧ rs2 < 8 ∧ (s.bob b).loads = [] ∧ (s.bob b).stores = [] ∧ (s.bob b).held = 0 ∧ n < 2 ^ 35 ∧ n < pagesL s ∧ descOf s n = some d ∧ busyOf s n = false ∧ classHeld s b = false ∧ canBusy s n = true ∧ promoOf s n = none ∧ dState d = stCOLD ∧ dSize d = 0 ∧ tier = 1 := by
  obtain ⟨t, h1, h2⟩ := ok_of (x := wPrR) (p := fun s1 => decide (s1.bobs = (wPrB.setBob 63 { wPrB.bob 63 with last := (wPrB.bob 63).pc }).bobs ∧
      (s1.home.waiting = [] ∧ s1.home.arrived = [] ∧ s1.tier.wbQueue = [] ∧ (∀ x ∈ s1.ports, x.2.releasing = []) ∧ ∀ x ∈ s1.tier.dc, x.2.isSome = true → bankOut s1 (dcBank x.1) = false))) (by decide +kernel)
  obtain ⟨p1, p2⟩ := of_decide_eq_true h2
  exact ⟨wPrB, 63, 1, 2, 4, (mkCold 0 0 5 0 0 [0, 0, 0, 0, 0, 0, 0, 0] 0), t, by dsimp only; exact ⟨by unfold nothingWaits; decide +kernel, h1, p1, p2, ready_of (by decide +kernel), by decide +kernel⟩⟩
end

section
/-! PROOF. What registers an operation leaves alone, and what a control-space write does from its check to its end (R3, R59, R490, R497). -/

namespace Sys2Proof.Machine

/-! Registers kept. -/

theorem regsKept.refl (ex : Nat → Prop) (s : State) : regsKept ex s s := fun _ _ => rfl

theorem regsKept.trans {ex : Nat → Prop} {s t u : State} (a : regsKept ex s t) (b : regsKept ex t u) : regsKept ex s u :=
  fun off h => (b off h).trans (a off h)

theorem regsKept.mono {ex ex' : Nat → Prop} {s t : State} (a : regsKept ex s t) (h : ∀ off, ex off → ex' off) : regsKept ex' s t :=
  fun off hn => a off fun he => hn (h off he)

/-- An operation that leaves the register file alone keeps every register. -/
theorem regsKept.of_regs {ex : Nat → Prop} {s t : State} (h : t.regs = s.regs) : regsKept ex s t :=
  fun off _ => congrArg (tabGet regReset · off) h

/-- Storing a register among the exceptions keeps the others. -/
theorem regsKept.setRg {ex : Nat → Prop} {s t : State} (a : regsKept ex s t) {off : Nat} (h : ex off) (v : Word) : regsKept ex s (t.setRg off v) :=
  a.trans fun m hm => t.setRg_rg_other off m v fun e => hm (e ▸ h)

theorem regsKept.fset {ex : Nat → Prop} {s t : State} (a : regsKept ex s t) {off : Nat} (h : ex off) (f : Fld) (v : Nat) : regsKept ex s (t.fset off f v) :=
  a.setRg h _

theorem regsKept.put {ex : Nat → Prop} {s t : State} (a : regsKept ex s t) (o : Out) : regsKept ex s (t.put o) := a

theorem regsKept.setMgmt {ex : Nat → Prop} {s t : State} (a : regsKept ex s t) (m : Mgmt) : regsKept ex s { t with mgmt := m } := a

/-- A fold keeps the registers that each of its steps keeps. -/
theorem regsKept.foldl {α : Type} {ex : Nat → Prop} (f : State → α → State) (l : List α) (h : ∀ x ∈ l, ∀ t, regsKept ex t (f t x)) (s : State) :
    regsKept ex s (l.foldl f s) := by
  induction l generalizing s with
  | nil => exact regsKept.refl ex s
  | cons x r ih => exact (h x List.mem_cons_self s).trans (ih (fun y hy => h y (List.mem_cons_of_mem _ hy)) _)

/-- An event changes event counters only. -/
theorem State.ev_regsKept (s : State) (e : Nat) (h : e < 1536) : regsKept (fun o => counterReg o = true) s (s.ev e) := by
  intro off hn
  refine s.ev_rg_other e off (fun ho => hn ?_) (fun ho => hn ?_)
  · subst ho
    have hs : 0xA00000 ≤ PMC_CNT e ∧ PMC_CNT e < 0xA03000 := by unfold PMC_CNT; omega
    simp [counterReg, hs]
  · subst ho
    simp [counterReg]

/-- A register outside the exceptions shows the same field. -/
theorem regsKept.fget {ex : Nat → Prop} {s t : State} (a : regsKept ex s t) {off : Nat} (h : ¬ ex off) (f : Fld) : t.fget off f = s.fget off f := by
  unfold State.fget
  rw [a off h]

/-- The management complex is apart from the registers. -/
theorem State.setMgmt_fget (s : State) (m : Mgmt) (off : Nat) (f : Fld) : ({ s with mgmt := m } : State).fget off f = s.fget off f := rfl

/-- A field that takes a value it can hold reads as that value. -/
theorem State.fset_fget_lt (s : State) (off : Nat) (f : Fld) (v : Nat) (h : f.lo + f.w ≤ 64) (hv : v < 2 ^ f.w) : (s.fset off f v).fget off f = v :=
  (s.fset_fget_same off f v h).trans (Nat.mod_eq_of_lt hv)

/-! Nothing but registers differs. -/

/-- Nothing but registers differs between the two states. -/
def RegsOnly (s t : State) : Prop := t = { s with regs := t.regs }

theorem RegsOnly.refl (s : State) : RegsOnly s s := rfl

theorem RegsOnly.trans {s t u : State} (a : RegsOnly s t) (b : RegsOnly t u) : RegsOnly s u := by
  unfold RegsOnly at *
  rw [b, a]

theorem RegsOnly.setRg {s t : State} (a : RegsOnly s t) (off : Nat) (v : Word) : RegsOnly s (t.setRg off v) :=
  a.trans (u := t.setRg off v) rfl

theorem RegsOnly.fset {s t : State} (a : RegsOnly s t) (off : Nat) (f : Fld) (v : Nat) : RegsOnly s (t.fset off f v) := a.setRg off _

theorem RegsOnly.foldl {α : Type} (f : State → α → State) (h : ∀ s x, RegsOnly s (f s x)) (l : List α) (s : State) : RegsOnly s (l.foldl f s) := by
  induction l generalizing s with
  | nil => exact RegsOnly.refl s
  | cons x r ih => exact (h s x).trans (ih _)

/-- What reads the same whatever the registers are, an operation on registers alone does not change. -/
theorem RegsOnly.same {β : Type} {s t : State} (a : RegsOnly s t) (p : State → β) (h : ∀ r, p { s with regs := r } = p s) : p t = p s := by
  rw [a]
  exact h _

theorem RegsOnly.mgmt {s t : State} (a : RegsOnly s t) : t.mgmt = s.mgmt := a.same _ fun _ => rfl
theorem RegsOnly.dram {s t : State} (a : RegsOnly s t) : t.dram = s.dram := a.same _ fun _ => rfl

/-! The end of a control-space write. -/

theorem ctlEnd_endedWith (w : Who) (off st : Nat) (s : State) : endedWith w off st (ctlEnd w off st s) := rfl

/-- The record of a refused access stands in one register: a core's in MGT_CTLERR, a head's in its PRT_CTLERR, others have none. -/
theorem ctlRecord_records (w : Who) (off st : Nat) (s : State) : RegsOnly s (ctlRecord w off st s) ∧ regsKept errorReg s (ctlRecord w off st s) := by
  have r := RegsOnly.refl s
  have k := regsKept.refl errorReg s
  have core : errorReg MGT_CTLERR := .inl rfl
  have head : ∀ p, errorReg (PRT_CTLERR p) := fun p => .inr ⟨p, rfl⟩
  cases w with
  | trusted | part | badVmid => exact ⟨((r.fset _ _ _).fset _ _ _).fset _ _ _, ((k.fset core _ _).fset core _ _).fset core _ _⟩
  | head p | load p =>
    exact ⟨(((r.fset _ _ _).fset _ _ _).fset _ _ _).fset _ _ _, (((k.fset (head p) _ _).fset (head p) _ _).fset (head p) _ _).fset (head p) _ _⟩
  | node | bar0 => exact ⟨r, k⟩

/-- A status that is not one of the two that count an event: the output, and a record of the access. -/
theorem ctlEnd_uncounted (w : Who) (off st : Nat) (s : State) (h1 : st ≠ C.CTL_E_WORLD) (h2 : st ≠ C.CTL_E_NOT_OWNER) :
    ctlEnd w off st s = { s with regs := (ctlEnd w off st s).regs, out := .ctlDone w off st :: s.out } ∧ regsKept errorReg s (ctlEnd w off st s) := by
  have e : ctlEnd w off st s = (if 2 ≤ statusClass st then ctlRecord w off st s else s).put (.ctlDone w off st) := by
    unfold ctlEnd ctlNote
    rw [if_neg h1, if_neg h2]
  rw [e]
  split
  · exact ⟨by rw [(ctlRecord_records w off st s).1]; rfl, (ctlRecord_records w off st s).2⟩
  · exact ⟨rfl, regsKept.refl _ _⟩

/-- A write that succeeds leaves no record. -/
theorem ctlEnd_success (w : Who) (off : Nat) (s : State) : ctlEnd w off 0 s = s.put (.ctlDone w off 0) :=
  ctlEnd_plain w off 0 s (by decide) (by decide) (by decide)

/-- An access of another owner's register counts its event and is recorded. -/
theorem ctlEnd_notOwner (w : Who) (off : Nat) (s : State) :
    onlyRegisters s (ctlEnd w off C.CTL_E_NOT_OWNER s) ∧ regsKept (fun o => errorReg o ∨ counterReg o = true) s (ctlEnd w off C.CTL_E_NOT_OWNER s) := by
  have e : ctlEnd w off C.CTL_E_NOT_OWNER s = (ctlRecord w off C.CTL_E_NOT_OWNER (s.ev 0x5CB)).put (.ctlDone w off C.CTL_E_NOT_OWNER) := by
    unfold ctlEnd ctlNote
    rw [if_neg (by decide : ¬ C.CTL_E_NOT_OWNER = C.CTL_E_WORLD), if_pos rfl]
    rfl
  rw [e]
  constructor
  · obtain ⟨r, l, h⟩ := s.ev_frame 0x5CB
    rw [onlyRegisters, (ctlRecord_records w off _ _).1, h]
    rfl
  · exact ((s.ev_regsKept 0x5CB (by decide)).mono fun _ => .inr).trans ((ctlRecord_records w off _ _).2.mono fun _ => .inl)

/-- A refused access that counts no event changes only what records it. -/
theorem ctlEnd_refused (w : Who) (off st : Nat) (s : State) (h1 : st ≠ C.CTL_E_WORLD) (h2 : st ≠ C.CTL_E_NOT_OWNER) :
    onlyRegisters s (ctlEnd w off st s) ∧ regsKept (fun o => errorReg o ∨ counterReg o = true) s (ctlEnd w off st s) := by
  obtain ⟨hf, hr⟩ := ctlEnd_uncounted w off st s h1 h2
  refine ⟨?_, hr.mono fun _ => .inl⟩
  rw [onlyRegisters, hf]

/-! The checks (R59, R490). -/

theorem ctlCheck_width {w : Who} {off width val : Nat} {rival : Bool} {s : State} (h : width ≠ 8 ∨ off % 8 ≠ 0) :
    ctlCheck w off width val rival s = .error C.CTL_E_WIDTH := if_pos h

theorem ctlCheck_noRegister {w : Who} {off val : Nat} {rival : Bool} {s : State} (ha : off % 8 = 0) (h : 2 ^ 32 ≤ off ∨ regFind off = none) :
    ctlCheck w off 8 val rival s = .error C.CTL_E_NO_REGISTER := by
  have hn : (if off < 0x100000000 then regFind off else none) = none := by
    obtain h | h := h
    · exact if_neg (by omega)
    · rw [h, ite_self]
  unfold ctlCheck
  rw [if_neg (by omega), hn]

theorem ctlCheck_notOwner {w : Who} {off val : Nat} {rival : Bool} {s : State} {h : RegHit} (ha : off % 8 = 0) (hl : off < 2 ^ 32) (hf : regFind off = some h)
    (he : regExists h = true) (ho : owns s w off = false) : ctlCheck w off 8 val rival s = .error C.CTL_E_NOT_OWNER := by
  unfold ctlCheck
  rw [if_neg (by omega), if_pos (by omega), hf]
  simp [he, ho]

/-! The write as a command. -/

/-- A command that answers `u` completes in any state that is the same. -/
theorem completes_next {c : Instr} {s u t : State} {P : State → Prop} (h : exec c s = .next u) (e : u = t) (hp : P t) : completes c s P := ⟨t, e ▸ h, hp⟩

/-- A command that names neither BAR0 nor a read is a control-space write. -/
theorem exec_controlSpaceWrite {who : Who} (h : ∀ p, who ≠ .bar0 p ∧ who ≠ .load p) (off width : Nat) (val : Word) (rival : Bool) (s : State) :
    exec (.controlSpaceWrite who off width val rival) s = .next (ctlWrite who off width val rival s) := by
  cases who with
  | bar0 p => exact absurd rfl (h p).1
  | load p => exact absurd rfl (h p).2
  | _ => rfl

/-- A write that is admitted does what the register's hook does, and ends with the hook's status. -/
theorem rowWrite_admitted {hook : Hook} {who : Who} {off st : Nat} {val : Word} {s t : State} {w : CtlWrite} (ha : admitted who off val s w)
    (h : hook w.hit.idx w.old w.new w.act s = (t, st)) : rowWrite hook who off val s = ctlEnd who off st t := by
  obtain ⟨hopen, hok, hworld⟩ := ha
  rw [rowWrite, ctlWriteWith_ok _ _ _ _ _ _ _ _ hopen hok, hworld, h]
  by_cases h0 : st = 0
  · simp [h0]
  · rw [if_pos h0]

/-- A write whose hook succeeds ends with status 0, and leaves no record. -/
theorem rowWrite_success {hook : Hook} {who : Who} {off : Nat} {val : Word} {s t : State} {w : CtlWrite} (ha : admitted who off val s w)
    (h : hook w.hit.idx w.old w.new w.act s = (t, 0)) : rowWrite hook who off val s = t.put (.ctlDone who off 0) :=
  (rowWrite_admitted ha h).trans (ctlEnd_success ..)

/-- A refused write ends with the check's status and changes only what records it. -/
theorem controlSpaceWrite_refused {s : State} {who : Who} {off width st : Nat} {val : Word} (hopen : ctlOpen s = true) (hw : ∀ p, who ≠ .bar0 p ∧ who ≠ .load p)
    (hc : ctlCheck who off width val.toNat false s = .error st) (hst : st ≠ C.CTL_E_WORLD) :
    completes (.controlSpaceWrite who off width val false) s
      (fun t => endedWith who off st t ∧ onlyRegisters s t ∧ regsKept (fun o => errorReg o ∨ counterReg o = true) s t) := by
  have e : ctlWrite who off width val false s = ctlEnd who off st s := ctlWriteWith_error _ _ _ _ _ _ _ _ hopen hc
  refine completes_next (exec_controlSpaceWrite hw ..) e ⟨ctlEnd_endedWith .., ?_⟩
  by_cases ho : st = C.CTL_E_NOT_OWNER
  · rw [ho]
    exact ctlEnd_notOwner who off s
  · exact ctlEnd_refused who off st s hst ho

/-- An admitted write of a register without an action of its own stores the admitted fields. -/
theorem controlSpaceWrite_plain {s : State} {who : Who} {off : Nat} {val : Word} {w : CtlWrite} (hw : ∀ p, who ≠ .bar0 p ∧ who ≠ .load p)
    (ha : admitted who off val s w) (hk : hookAt (whoTrusted who) off = plainHook off) :
    completes (.controlSpaceWrite who off 8 val false) s (fun t => endedWith who off 0 t ∧ t.rg off = BitVec.ofNat 64 w.new ∧
      t = { s with regs := t.regs, out := t.out } ∧ regsKept (fun o => o = off) s t) := by
  have e : ctlWrite who off 8 val false s = (s.setRg off (BitVec.ofNat 64 w.new)).put (.ctlDone who off 0) := by
    rw [ctlWrite, hk]
    exact rowWrite_success (hook := plainHook off) ha rfl
  exact completes_next (exec_controlSpaceWrite hw ..) e ⟨rfl, s.setRg_rg_same .., rfl, (regsKept.refl (fun o => o = off) s).setRg rfl _⟩

end Sys2Proof.Machine
end

section
/-! PROOF. Byte strings, SHA-384 and the six-word registers: a digest is 48 bytes, and six words that were put read back as the digest (R498, R505). -/

namespace Sys2Proof.Machine

/-! Bytes of a number. -/

theorem length_leBytes (n v : Nat) : (leBytes n v).length = n := by
  induction n generalizing v with
  | zero => rfl
  | succ n ih => rw [leBytes, List.length_cons, ih]

theorem lt_of_mem_leBytes (n v : Nat) : ∀ x ∈ leBytes n v, x < 256 := by
  induction n generalizing v with
  | zero => exact fun x hx => absurd hx List.not_mem_nil
  | succ n ih =>
    rw [leBytes, List.forall_mem_cons]
    exact ⟨Nat.mod_lt _ (by decide), ih _⟩

theorem leNat_lt (b : Bytes) : leNat b < 256 ^ b.length := by
  induction b with
  | nil => exact Nat.one_pos
  | cons x r ih =>
    have hx : x % 256 < 256 := Nat.mod_lt _ (by decide)
    rw [leNat, List.length_cons, Nat.pow_succ]
    omega

/-- A string of bytes is the bytes of the number it spells. -/
theorem leBytes_leNat (b : Bytes) (h : ∀ x ∈ b, x < 256) : leBytes b.length (leNat b) = b := by
  induction b with
  | nil => rfl
  | cons x r ih =>
    obtain ⟨hx, hr⟩ := List.forall_mem_cons.1 h
    have h1 : (x % 256 + 256 * leNat r) % 256 = x := by omega
    have h2 : (x % 256 + 256 * leNat r) / 256 = leNat r := by omega
    rw [leNat, List.length_cons, leBytes, h1, h2, ih hr]

/-! A SHA-384 digest is 48 bytes. -/

theorem length_words64 (n v : Nat) : (words64 n v).length = n := by
  induction n generalizing v with
  | zero => rfl
  | succ n ih => rw [words64, List.length_cons, ih]

/-- A round keeps four words in each history. -/
theorem length_shaTurn (v : ShaVars) (x : Nat) (h : v.up.length = 4 ∧ v.dn.length = 4) : (shaTurn v x).up.length = 4 ∧ (shaTurn v x).dn.length = 4 := by
  simp [shaTurn, h]

theorem length_shaTurns (l : List Nat) (v : ShaVars) (h : v.up.length = 4 ∧ v.dn.length = 4) :
    (l.foldl shaTurn v).up.length = 4 ∧ (l.foldl shaTurn v).dn.length = 4 := by
  induction l generalizing v with
  | nil => exact h
  | cons x r ih => exact ih _ (length_shaTurn v x h)

theorem length_shaAbsorb (h : List Nat) (b : Bytes) (hh : h.length = 8) : (shaAbsorb h b).length = 8 := by
  obtain ⟨hu, hd⟩ := length_shaTurns (List.zipWith (· + ·) (shaGrowBy 64 ((chunk 8 16 b).map beNat).reverse).reverse (words64 80 shaRoundTable))
    ⟨h.take 4, h.drop 4⟩ (by simp [hh])
  rw [shaAbsorb, List.length_zipWith, List.length_append, hu, hd, hh, Nat.min_self]

theorem length_shaAbsorbs (l : List Bytes) (h : List Nat) (hh : h.length = 8) : (l.foldl shaAbsorb h).length = 8 := by
  induction l generalizing h with
  | nil => exact hh
  | cons b r ih => exact ih _ (length_shaAbsorb h b hh)

theorem length_sha384 (m : Bytes) : (sha384 m).length = 48 := by
  have h := length_shaAbsorbs (chunk 128 ((shaPad m).length / 128) (shaPad m)) (words64 8 shaStartTable) (length_words64 _ _)
  have hb : ∀ v, (beBytes 8 v).length = 8 := fun v => by rw [beBytes, List.length_reverse, length_leBytes]
  rw [sha384, List.length_flatMap]
  simp [hb, h]

theorem lt_of_mem_sha384 (m : Bytes) : ∀ x ∈ sha384 m, x < 256 := by
  intro x hx
  obtain ⟨w, -, hw⟩ := List.mem_flatMap.1 hx
  exact lt_of_mem_leBytes 8 w x (List.mem_reverse.1 hw)

/-! Six registers as 48 bytes. -/

theorem wordBytes_congr {v w : Nat → Nat} (h : ∀ i < 6, v i = w i) : wordBytes v = wordBytes w :=
  List.flatMap_congr fun i hi => by rw [h i (List.mem_range.1 hi)]

/-- Six registers that are kept read as before. -/
theorem wordBytes_regsKept {ex : Nat → Prop} {s t : State} (h : regsKept ex s t) {off : Nat → Nat} (ho : ∀ j < 6, ¬ ex (off j)) :
    wordBytes (fun j => (t.rg (off j)).toNat) = wordBytes (fun j => (s.rg (off j)).toNat) :=
  wordBytes_congr fun j hj => congrArg BitVec.toNat (h _ (ho j hj))

/-- A string of `8 n` bytes is its words one after the other. -/
theorem flatMap_words (d : Bytes) (n : Nat) : (List.range n).flatMap (fun i => (d.drop (8 * i)).take 8) = d.take (8 * n) := by
  induction n with
  | zero => rfl
  | succ n ih => rw [List.range_succ, List.flatMap_append, ih, List.flatMap_singleton, Nat.mul_succ, List.take_add]

/-- Six words that spell a digest, as bytes, are the digest. -/
theorem wordBytes_leNat {d : Bytes} (hl : d.length = 48) (hb : ∀ x ∈ d, x < 256) :
    wordBytes (fun w => (BitVec.ofNat 64 (leNat ((d.drop (8 * w)).take 8))).toNat) = d := by
  have word : ∀ i ∈ List.range 6, leBytes 8 (BitVec.ofNat 64 (leNat ((d.drop (8 * i)).take 8))).toNat = (d.drop (8 * i)).take 8 := by
    intro i hi
    have hi := List.mem_range.1 hi
    have hlen : ((d.drop (8 * i)).take 8).length = 8 := by simp; omega
    have hlt := leNat_lt ((d.drop (8 * i)).take 8)
    have hback := leBytes_leNat ((d.drop (8 * i)).take 8) fun x hx => hb x (List.mem_of_mem_drop (List.mem_of_mem_take hx))
    rw [hlen] at hlt hback
    rw [BitVec.toNat_ofNat, Nat.mod_eq_of_lt (by omega), hback]
  rw [wordBytes, List.flatMap_congr word, flatMap_words, List.take_of_length_le (by omega)]

/-! Putting a digest into six registers. -/

theorem putWords_regsOnly (s : State) (off : Nat → Nat) (d : Bytes) : RegsOnly s (putWords s off d) :=
  RegsOnly.foldl _ (fun t _ => (RegsOnly.refl t).setRg _ _) _ s

theorem putWords_regsKept (s : State) (off : Nat → Nat) (d : Bytes) : regsKept (fun o => ∃ w < 6, o = off w) s (putWords s off d) :=
  regsKept.foldl _ _ (fun w hw t => (regsKept.refl _ t).setRg ⟨w, List.mem_range.1 hw, rfl⟩ _) s

/-- Each of the six registers holds its word of the digest. -/
theorem putWords_rg (s : State) {off : Nat → Nat} (d : Bytes) (hi : Function.Injective off) {w : Nat} (hw : w < 6) :
    (putWords s off d).rg (off w) = BitVec.ofNat 64 (leNat ((d.drop (8 * w)).take 8)) := by
  have e : List.range 6 = [0, 1, 2, 3, 4, 5] := rfl
  unfold putWords
  rw [e]
  interval_cases w <;> simp [State.setRg_rg, hi.eq_iff]

/-- Six registers that take a digest read back as that digest. -/
theorem wordBytes_putWords (s : State) {off : Nat → Nat} (hi : Function.Injective off) {d : Bytes} (hl : d.length = 48) (hb : ∀ x ∈ d, x < 256) :
    wordBytes (fun w => ((putWords s off d).rg (off w)).toNat) = d :=
  (wordBytes_congr fun _ hw => congrArg BitVec.toNat (putWords_rg s d hi hw)).trans (wordBytes_leNat hl hb)

theorem wordBytes_putWords_sha384 (s : State) {off : Nat → Nat} (hi : Function.Injective off) (m : Bytes) :
    wordBytes (fun w => ((putWords s off (sha384 m)).rg (off w)).toNat) = sha384 m :=
  wordBytes_putWords s hi (length_sha384 m) (lt_of_mem_sha384 m)

theorem MGT_MR_injective (k : Nat) : Function.Injective (MGT_MR k) := by
  intro a b h
  unfold MGT_MR at h
  omega

theorem MGT_LOCKDIG_injective : Function.Injective MGT_LOCKDIG := by
  intro a b h
  unfold MGT_LOCKDIG at h
  omega

/-! The measurement registers (R505). -/

/-- An extended MR reads as the digest of what it held and what it takes. -/
theorem mrBytes_mrExtend (s : State) (k : Nat) (d : Bytes) : mrBytes (mrExtend s k d) k = sha384 (mrBytes s k ++ d) :=
  wordBytes_putWords_sha384 s (MGT_MR_injective k) _

/-- An MR whose words are kept reads as before. -/
theorem mrBytes_regsKept {ex : Nat → Prop} {s t : State} (h : regsKept ex s t) {k : Nat} (hk : ∀ j < 6, ¬ ex (MGT_MR k j)) : mrBytes t k = mrBytes s k :=
  wordBytes_regsKept h hk

end Sys2Proof.Machine
end

section
/-! PROOF. The assignment lock, descriptor initialisation, measurement and the watchdog's kick as writes of their registers (R493, R505, R509, R513). -/

namespace Sys2Proof.Machine

/-- An offset in its 64 KiB other than that of PRT_CTLERR records no refused access. -/
theorem not_errorReg {off : Nat} (h : off ≠ MGT_CTLERR) (hm : off % 0x10000 ≠ 0x20) : ¬ errorReg off := by
  rintro (e | ⟨p, e⟩)
  · exact h e
  · unfold PRT_CTLERR at e
    omega

/-- After a change of registers alone, the end of the access adds to registers and outputs only. -/
theorem RegsOnly.ctlEnd {s u : State} (a : RegsOnly s u) (w : Who) (off st : Nat) (h1 : st ≠ C.CTL_E_WORLD) (h2 : st ≠ C.CTL_E_NOT_OWNER) :
    ctlEnd w off st u = { s with regs := (ctlEnd w off st u).regs, out := (ctlEnd w off st u).out } := by
  rw [(ctlEnd_uncounted w off st u h1 h2).1, a]

/-! The assignment lock. -/

/-- The status of a lock is none of those that count an event, and fits its field. -/
theorem lockStatus_code (s : State) : lockStatus s ≠ C.CTL_E_WORLD ∧ lockStatus s ≠ C.CTL_E_NOT_OWNER ∧ lockStatus s < 2 ^ 16 := by
  unfold lockStatus
  split_ifs <;> decide

/-- A lock that a check turns away stores the status alone. -/
theorem lockGo_failed {s : State} (h : lockStatus s ≠ 0) : lockGo s = (s.fset MGT_LOCK F.MGT_LOCK_STATUS (lockStatus s), lockStatus s) := if_pos h

/-- A lock that passes sets LOCKED, and the digest of the Pattern's tables in MGT_LOCKDIG. -/
theorem lockGo_passed {s : State} (h : lockStatus s = 0) : ∃ u, RegsOnly s u ∧ u.locked = true ∧
    lockGo s = ((putWords u MGT_LOCKDIG (lockDigest s.mgmt.pat)).fset MGT_LOCK F.MGT_LOCK_STATUS 0, 0) := by
  have hl : lockGo s = ((putWords (((s.fset TIR_LAYOUT F.TIR_LAYOUT_GRP_EN ((if groupFull s 0 then 1 else 0) + (if groupFull s 1 then 2 else 0))).fset MGT_LOCK
      F.MGT_LOCK_LOCK 1).fset MGT_LOCK F.MGT_LOCK_LOCKED 1) MGT_LOCKDIG (lockDigest s.mgmt.pat)).fset MGT_LOCK F.MGT_LOCK_STATUS 0, 0) := by
    unfold lockGo
    rw [if_neg (not_not.2 h), h]
  refine ⟨_, (((RegsOnly.refl s).fset _ _ _).fset _ _ _).fset _ _ _, ?_, hl⟩
  rw [State.locked, State.fset_fget_lt _ _ _ _ (by decide) (by decide)]
  rfl

/-- The digest lies apart from MGT_LOCK. -/
theorem MGT_LOCKDIG_ne_lock (k : Nat) : MGT_LOCKDIG k ≠ MGT_LOCK := by
  unfold MGT_LOCKDIG MGT_LOCK
  omega

theorem hookLock_go {act : Nat} (h : fld act F.MGT_LOCK_LOCK = 1) (idx : List Nat) (old new : Nat) (s : State) : hookLock idx old new act s = lockGo s := if_pos h

/-- The assignment lock ends with the status of its checks: with 0 it is set, and otherwise only the status is stored. -/
theorem assignmentLock_completes {s : State} {who : Who} {val : Word} {w : CtlWrite} (ha : admitted who MGT_LOCK val s w) (hl : fld w.act F.MGT_LOCK_LOCK = 1) :
    completes (.assignmentLock who val) s (fun t => endedWith who MGT_LOCK (lockStatus s) t ∧
      t = { s with regs := t.regs, out := t.out } ∧ t.fget MGT_LOCK F.MGT_LOCK_STATUS = lockStatus s ∧
      (lockStatus s = 0 → t.locked = true ∧ wordBytes (fun k => (t.rg (MGT_LOCKDIG k)).toNat) = lockDigest s.mgmt.pat) ∧
      (lockStatus s ≠ 0 → t.locked = s.locked ∧ regsKept (fun o => o = MGT_LOCK ∨ errorReg o) s t)) := by
  have hook := hookLock_go hl w.hit.idx w.old w.new s
  by_cases h0 : lockStatus s = 0
  · obtain ⟨u, hu, hlocked, e⟩ := lockGo_passed h0
    rw [h0]
    have hd := putWords_regsOnly u MGT_LOCKDIG (lockDigest s.mgmt.pat)
    have hk := putWords_regsKept u MGT_LOCKDIG (lockDigest s.mgmt.pat)
    have hs := (regsKept.refl (fun o => o = MGT_LOCK) (putWords u MGT_LOCKDIG (lockDigest s.mgmt.pat))).fset rfl F.MGT_LOCK_STATUS 0 |>.put
      (.ctlDone who MGT_LOCK 0)
    refine completes_next rfl (rowWrite_success ha (hook.trans e)) ⟨rfl, ?_, ?_, fun _ => ⟨?_, ?_⟩, fun h => absurd rfl h⟩
    · rw [(hu.trans hd).fset MGT_LOCK F.MGT_LOCK_STATUS 0]
      rfl
    · rw [State.put_fget, State.fset_fget_lt _ _ _ _ (by decide) (by decide)]
    · rw [State.locked, State.put_fget, State.fset_fget_apart _ _ _ _ _ (by decide) (by decide), hk.fget fun ⟨k, _, h⟩ => MGT_LOCKDIG_ne_lock k h.symm]
      exact hlocked
    · exact (wordBytes_regsKept hs fun k _ => MGT_LOCKDIG_ne_lock k).trans (wordBytes_putWords_sha384 u MGT_LOCKDIG_injective _)
  · obtain ⟨hw, ho, hlt⟩ := lockStatus_code s
    have hr := (ctlEnd_uncounted who MGT_LOCK (lockStatus s) (s.fset MGT_LOCK F.MGT_LOCK_STATUS (lockStatus s)) hw ho).2
    have hn : ¬ errorReg MGT_LOCK := not_errorReg (by decide) (by decide)
    refine completes_next rfl (rowWrite_admitted ha (hook.trans (lockGo_failed h0))) ⟨ctlEnd_endedWith .., ((RegsOnly.refl s).fset _ _ _).ctlEnd _ _ _ hw ho, ?_,
      fun h => absurd h h0, fun _ => ⟨?_, ?_⟩⟩
    · rw [hr.fget hn, State.fset_fget_lt _ _ _ _ (by decide) hlt]
    · rw [State.locked, hr.fget hn, State.fset_fget_apart _ _ _ _ _ (by decide) (by decide)]
      rfl
    · exact ((regsKept.refl _ s).fset (.inl rfl) _ _).trans (hr.mono fun _ => .inr)

/-! Descriptor initialisation begins. -/

theorem hookBootCtl_go {act : Nat} (h : fld act F.MGT_BOOTCTL_DINIT = 1) (idx : List Nat) (old new : Nat) (s : State) :
    hookBootCtl idx old new act s = dinitGo s := if_pos h

/-- DINIT is refused after the lock and while one runs, and else sets BUSY. -/
theorem dinit_completes {s : State} {who : Who} {val : Word} {w : CtlWrite} (ha : admitted who MGT_BOOTCTL val s w) (hd : fld w.act F.MGT_BOOTCTL_DINIT = 1) :
    completes (.dinit who val) s (fun t => t = { s with regs := t.regs, out := t.out } ∧
      (s.locked = true ∨ s.fget MGT_BOOTCTL F.MGT_BOOTCTL_BUSY = 1 → endedWith who MGT_BOOTCTL C.MGT_E_STATE t ∧ regsKept errorReg s t) ∧
      (s.locked = false → s.fget MGT_BOOTCTL F.MGT_BOOTCTL_BUSY = 0 → endedWith who MGT_BOOTCTL 0 t ∧ t.fget MGT_BOOTCTL F.MGT_BOOTCTL_BUSY = 1 ∧
        regsKept (fun o => o = MGT_BOOTCTL) s t)) := by
  have hook := hookBootCtl_go hd w.hit.idx w.old w.new s
  by_cases h : s.locked ∨ s.fget MGT_BOOTCTL F.MGT_BOOTCTL_BUSY = 1
  · refine completes_next rfl (rowWrite_admitted ha (hook.trans (if_pos h))) ⟨(RegsOnly.refl s).ctlEnd _ _ _ (by decide) (by decide),
      fun _ => ⟨ctlEnd_endedWith .., (ctlEnd_uncounted _ _ _ s (by decide) (by decide)).2⟩, fun hl hb => ?_⟩
    simp [hl, hb] at h
  · exact completes_next rfl (rowWrite_success ha (hook.trans (if_neg h))) ⟨rfl, fun h' => absurd h' h, fun _ _ => ⟨rfl,
      (State.put_fget ..).trans (State.fset_fget_lt _ _ _ _ (by decide) (by decide)), (regsKept.refl (fun o => o = MGT_BOOTCTL) s).fset rfl _ _⟩⟩

/-! Measurement. -/

/-- A write of MGT_MREXT: the MR that INDEX names is extended when GO is set and the MR is open, and the register is stored. -/
theorem rowWrite_mrExt {s : State} {who : Who} {val : Word} {w : CtlWrite} (ha : admitted who MGT_MREXT val s w) :
    rowWrite hookMrExt who MGT_MREXT val s =
      ((if fld w.act F.MGT_MREXT_GO = 1 ∧ ¬(fld w.new F.MGT_MREXT_INDEX = 0 ∧ s.fget MGT_MREXT F.MGT_MREXT_LOCK0 = 1) then
          mrExtend s (fld w.new F.MGT_MREXT_INDEX) (wordBytes (fun j => tabGet (fun _ => 0) s.mgmt.stage j))
        else s).setRg MGT_MREXT (BitVec.ofNat 64 w.new)).put (.ctlDone who MGT_MREXT 0) :=
  rowWrite_success ha rfl

/-- No MR lies at MGT_MREXT. -/
theorem MGT_MR_ne_mrExt (k j : Nat) : MGT_MR k j ≠ MGT_MREXT := by
  unfold MGT_MR MGT_MREXT
  omega

/-- What a write of MGT_MREXT ends with, whatever it has done to the words of MR `k`. -/
theorem mrExt_stored {s u : State} {k : Nat} (who : Who) (v : Word) (hu : RegsOnly s u) (hk : regsKept (fun o => ∃ j < 6, o = MGT_MR k j) s u) :
    let t := (u.setRg MGT_MREXT v).put (.ctlDone who MGT_MREXT 0)
    endedWith who MGT_MREXT 0 t ∧ t.rg MGT_MREXT = v ∧ t = { s with regs := t.regs, out := t.out } ∧
      regsKept (fun o => o = MGT_MREXT ∨ ∃ j < 6, o = MGT_MR k j) s t := by
  refine ⟨rfl, State.setRg_rg_same .., ?_, (hk.mono fun _ => .inr).setRg (.inl rfl) v⟩
  rw [hu]
  rfl

/-- What MR `k` holds after a write of MGT_MREXT is what it held before the register was stored. -/
theorem mrBytes_mrExt_stored (u : State) (who : Who) (v : Word) (k : Nat) : mrBytes ((u.setRg MGT_MREXT v).put (.ctlDone who MGT_MREXT 0)) k = mrBytes u k :=
  mrBytes_regsKept ((regsKept.refl (fun o => o = MGT_MREXT) u).setRg rfl v) fun j _ => MGT_MR_ne_mrExt k j

/-- GO extends the MR that INDEX names with the staged digest, unless it is MR0 under LOCK0. -/
theorem mrextGo_completes {s : State} {who : Who} {val : Word} {w : CtlWrite} (ha : admitted who MGT_MREXT val s w) (hg : fld w.act F.MGT_MREXT_GO = 1) :
    let k := fld w.new F.MGT_MREXT_INDEX
    completes (.mrextGo who val) s (fun t => (endedWith who MGT_MREXT 0 t ∧ t.rg MGT_MREXT = BitVec.ofNat 64 w.new ∧ t = { s with regs := t.regs, out := t.out } ∧
      regsKept (fun o => o = MGT_MREXT ∨ ∃ j < 6, o = MGT_MR k j) s t) ∧
      mrBytes t k = (if k = 0 ∧ s.fget MGT_MREXT F.MGT_MREXT_LOCK0 = 1 then mrBytes s k
        else sha384 (mrBytes s k ++ wordBytes (fun j => tabGet (fun _ => 0) s.mgmt.stage j)))) := by
  refine completes_next rfl (rowWrite_mrExt ha) ?_
  rw [mrBytes_mrExt_stored]
  by_cases h : fld w.new F.MGT_MREXT_INDEX = 0 ∧ s.fget MGT_MREXT F.MGT_MREXT_LOCK0 = 1
  · rw [if_neg fun hn => hn.2 h, if_pos h]
    exact ⟨mrExt_stored who _ (RegsOnly.refl s) (regsKept.refl _ s), rfl⟩
  · rw [if_pos ⟨hg, h⟩, if_neg h]
    exact ⟨mrExt_stored who _ (putWords_regsOnly _ _ _) (putWords_regsKept _ _ _), mrBytes_mrExtend ..⟩

/-- Without GO, only MGT_MREXT is stored. -/
theorem lock0_completes {s : State} {who : Who} {val : Word} {w : CtlWrite} (ha : admitted who MGT_MREXT val s w) (hg : fld w.act F.MGT_MREXT_GO = 0) :
    let k := fld w.new F.MGT_MREXT_INDEX
    completes (.lock0 who val) s (fun t => (endedWith who MGT_MREXT 0 t ∧ t.rg MGT_MREXT = BitVec.ofNat 64 w.new ∧ t = { s with regs := t.regs, out := t.out } ∧
      regsKept (fun o => o = MGT_MREXT ∨ ∃ j < 6, o = MGT_MR k j) s t) ∧ mrBytes t k = mrBytes s k) := by
  refine completes_next rfl (rowWrite_mrExt ha) ?_
  rw [mrBytes_mrExt_stored, if_neg fun h => absurd (hg.symm.trans h.1) (by decide)]
  exact ⟨mrExt_stored who _ (RegsOnly.refl s) (regsKept.refl _ s), rfl⟩

/-! The watchdog's kick. -/

/-- A kick forgets an expiry. -/
theorem kick_completes {s : State} {who : Who} {val : Word} {w : CtlWrite} (ha : admitted who MGT_WDOGKICK val s w) (hk : fld w.act F.MGT_WDOGKICK_KICK = 1) :
    completes (.kick who val) s (fun t => t = { s with mgmt := { s.mgmt with wdog := false }, out := .ctlDone who MGT_WDOGKICK 0 :: s.out }) := by
  have e : hookKick w.hit.idx w.old w.new w.act s = (wdogRestart s, 0) := congrArg (·, 0) (if_pos hk)
  exact completes_next rfl (rowWrite_success ha e) rfl

end Sys2Proof.Machine
end

section
/-! PROOF. Warm and core resets, the watchdog's expiries and debug requests (R499, R510, R512, R513). -/

namespace Sys2Proof.Machine

/-! Folds. -/

/-- What each step of a fold leaves the same, the fold does. -/
theorem foldl_same {α β : Type} (p : State → β) (f : State → α → State) (h : ∀ t x, p (f t x) = p t) (l : List α) (s : State) : p (l.foldl f s) = p s := by
  induction l generalizing s with
  | nil => rfl
  | cons x r ih => exact (ih _).trans (h s x)

/-- What one step of a fold brings about, and every step keeps, holds after it. -/
theorem foldl_reaches {α : Type} {P : State → Prop} (f : State → α → State) {l : List α} {x : α} (hx : x ∈ l) (at_x : ∀ t, P (f t x))
    (kept : ∀ y ∈ l, ∀ t, P t → P (f t y)) (s : State) : P (l.foldl f s) := by
  induction l generalizing s with
  | nil => exact absurd hx List.not_mem_nil
  | cons y r ih =>
    have keptr : ∀ z ∈ r, ∀ t, P t → P (f t z) := fun z hz => kept z (List.mem_cons_of_mem _ hz)
    obtain rfl | hx := List.mem_cons.1 hx
    · exact List.foldlRecOn r f (at_x s) fun t ht z hz => keptr z hz t ht
    · exact ih hx keptr _

/-! States of the cores. -/

theorem State.coreState_setCoreState_same (s : State) {c v : Nat} (hc : c < 4) (hv : v < 16) : (s.setCoreState c v).coreState c = v := by
  unfold State.coreState State.setCoreState
  rw [State.setRg_rg_same, BitVec.toNat_ofNat, Nat.mod_eq_of_lt (putBits_lt _ _ _ _ _ (s.rg MGT_CORESTAT).isLt (by omega)), getBits_putBits_same]
  exact Nat.mod_eq_of_lt hv

theorem State.coreState_setCoreState_other (s : State) {c d v : Nat} (hc : c < 4) (hd : d ≠ c) : (s.setCoreState c v).coreState d = s.coreState d := by
  unfold State.coreState State.setCoreState
  rw [State.setRg_rg_same, BitVec.toNat_ofNat, Nat.mod_eq_of_lt (putBits_lt _ _ _ _ _ (s.rg MGT_CORESTAT).isLt (by omega))]
  obtain h | h := Nat.lt_or_gt_of_ne hd
  · exact getBits_putBits_below _ _ _ _ _ _ (by omega)
  · exact getBits_putBits_above _ _ _ _ _ _ (by omega)

theorem regsKept.coreState {ex : Nat → Prop} {s t : State} (a : regsKept ex s t) (h : ¬ ex MGT_CORESTAT) (c : Nat) : t.coreState c = s.coreState c := by
  unfold State.coreState
  rw [a _ h]

/-- A core that takes a state: MGT_CORESTAT is stored, or the core is fenced or being re-admitted and nothing changes. -/
theorem coreTo_cases (v : Nat) (s : State) (c : Nat) :
    ((s.coreState c = 1 ∨ s.coreState c = 2 ∨ s.coreState c = 3) ∧ coreTo v s c = s) ∨ coreTo v s c = s.setCoreState c v := by
  unfold coreTo
  split
  case isTrue h => exact .inl ⟨h, rfl⟩
  case isFalse => exact .inr rfl

theorem coreTo_regsOnly (v : Nat) (s : State) (c : Nat) : RegsOnly s (coreTo v s c) := by
  obtain ⟨-, h⟩ | h := coreTo_cases v s c <;> rw [h]
  · exact RegsOnly.refl s
  · exact (RegsOnly.refl s).setRg _ _

theorem coreTo_regsKept (v : Nat) (s : State) (c : Nat) : regsKept (fun o => o = MGT_CORESTAT) s (coreTo v s c) := by
  obtain ⟨-, h⟩ | h := coreTo_cases v s c <;> rw [h]
  · exact regsKept.refl _ s
  · exact (regsKept.refl (fun o => o = MGT_CORESTAT) s).setRg rfl _

/-! What a warm reset leaves of the registers (R505, R512). -/

/-- The end of mailbox commands changes ports and outputs only. -/
theorem mboxWarm_same {β : Type} (p : State → β) (hp : ∀ (t : State) (x : Tab Port) (o : List Out), p { t with ports := x, out := o } = p t) (s : State) (n : Nat) :
    p (mboxWarm s n) = p s := by
  have onPort : ∀ (t : State) k x, p (t.setPort k x) = p t := fun t k x => hp t (t.setPort k x).ports t.out
  have onOut : ∀ (t : State) o, p (t.put o) = p t := fun t o => hp t t.ports (t.put o).out
  have raised : ∀ (t : State) k v, p (msix t k v) = p t := by
    intro t k v
    simp only [msix]
    split
    · exact onPort ..
    · exact onOut ..
  unfold mboxWarm
  split
  · exact (raised ..).trans ((onPort ..).trans (onPort ..))
  · rfl

theorem mrClear_regsOnly (s : State) : RegsOnly s (mrClear s) :=
  (RegsOnly.foldl _ (fun t k => putWords_regsOnly t (MGT_MR k) []) _ s).fset _ _ _

/-- Zeros put into six registers leave a register zero that was. -/
theorem putWords_nil_zero (s : State) (off : Nat → Nat) {m : Nat} (h : s.rg m = 0) : (putWords s off []).rg m = 0 :=
  List.foldlRecOn (motive := fun t => t.rg m = 0) _ _ h fun (t : State) ht w _ => by
    rw [State.setRg_rg]
    split
    · simp [leNat]
    · exact ht

/-- Every MR is zero once the MRs are cleared. -/
theorem mrClear_zero (s : State) {k j : Nat} (hk : k < 8) (hj : j < 6) : (mrClear s).rg (MGT_MR k j) = 0 := by
  unfold mrClear
  rw [State.fset_rg_other _ _ _ _ _ (MGT_MR_ne_mrExt k j)]
  refine foldl_reaches (P := fun t => t.rg (MGT_MR k j) = 0) _ (List.mem_range.2 hk) (fun t => ?_) (fun i _ t ht => putWords_nil_zero t _ ht) s
  rw [putWords_rg t [] (MGT_MR_injective k) hj]
  simp [leNat]

/-! The warm reset. -/

/-- The state of a warm reset before the management complex itself restarts: cores, measurement registers and mailboxes are reset. -/
def warmBase (s : State) : State := (List.range 16).foldl mboxWarm (mrClear ((List.range 4).foldl (coreTo 4) s))

theorem warmBase_regs (s : State) : (warmBase s).regs = (mrClear ((List.range 4).foldl (coreTo 4) s)).regs :=
  foldl_same State.regs _ (mboxWarm_same _ fun _ _ _ => rfl) _ _

/-- What reads neither registers nor ports nor outputs reads as before. -/
theorem warmBase_same {β : Type} (p : State → β)
    (hp : ∀ (t : State) (r : Tab Word) (x : Tab Port) (o : List Out), p { t with regs := r, ports := x, out := o } = p t) (s : State) : p (warmBase s) = p s :=
  calc p (warmBase s) = p (mrClear ((List.range 4).foldl (coreTo 4) s)) := foldl_same p _ (mboxWarm_same p fun t x o => hp t t.regs x o) _ _
    _ = p s := ((RegsOnly.foldl _ (coreTo_regsOnly 4) _ s).trans (mrClear_regsOnly _)).same p fun r => hp s r s.ports s.out

/-- The management complex as a warm reset leaves it: the boot goes on with step 3. -/
def mgmtRestarted (m : Mgmt) : Mgmt :=
  { m with run := false, step := 2, stopped := false, warm := true, sessions := [], deviceKey := none, aliasKey := none, aliasCert := [], haltReq := [], halted := [],
           hyp := [], passed := [], stage := [], wdog := false }

/-- The warm reset from that state on. -/
theorem warmReset_eq (why : Nat) (s : State) :
    warmReset why s = (((({ warmBase s with mgmt := mgmtRestarted (warmBase s).mgmt }.fset MGT_RSTCTL F.MGT_RSTCTL_LASTRST why).fsat MGT_RSTCTL
      F.MGT_RSTCTL_WARMS 1).fset MGT_BOOTSTAT F.MGT_BOOTSTAT_STAGE 3).fset MGT_BOOTSTAT F.MGT_BOOTSTAT_STATUS 0) := by
  simp only [warmReset, mgmtRestarted, warmBase]

theorem warmReset_mgmt (why : Nat) (s : State) : (warmReset why s).mgmt = mgmtRestarted s.mgmt := by
  rw [warmReset_eq]
  simp only [State.fset_mgmt, State.fsat_mgmt]
  rw [warmBase_same State.mgmt (fun _ _ _ _ => rfl)]

theorem warmReset_dram (why : Nat) (s : State) : (warmReset why s).dram = s.dram := by
  rw [warmReset_eq]
  simp only [State.fset_dram, State.fsat_dram]
  exact warmBase_same State.dram (fun _ _ _ _ => rfl) s

theorem warmReset_keys (why : Nat) (s : State) : (warmReset why s).keys = s.keys := by
  rw [warmReset_eq]
  simp only [State.fset_keys, State.fsat_keys]
  exact warmBase_same State.keys (fun _ _ _ _ => rfl) s

theorem warmReset_tier (why : Nat) (s : State) : (warmReset why s).tier = s.tier := by
  rw [warmReset_eq]
  simp only [State.fset_tier, State.fsat_tier]
  exact warmBase_same State.tier (fun _ _ _ _ => rfl) s

/-- Beyond its first part a warm reset stores MGT_RSTCTL and MGT_BOOTSTAT. -/
theorem warmReset_regsKept (why : Nat) (s : State) : regsKept (fun o => o = MGT_RSTCTL ∨ o = MGT_BOOTSTAT) (warmBase s) (warmReset why s) := by
  have k := (regsKept.refl (fun o => o = MGT_RSTCTL ∨ o = MGT_BOOTSTAT) (warmBase s)).setMgmt (mgmtRestarted (warmBase s).mgmt)
  rw [warmReset_eq]
  exact (((k.fset (.inl rfl) _ _).setRg (.inl rfl) _).fset (.inr rfl) _ _).fset (.inr rfl) _ _

theorem warmReset_mr (why : Nat) (s : State) {k j : Nat} (hk : k < 8) (hj : j < 6) : (warmReset why s).rg (MGT_MR k j) = 0 := by
  have far : ¬ (MGT_MR k j = MGT_RSTCTL ∨ MGT_MR k j = MGT_BOOTSTAT) := by
    unfold MGT_MR MGT_RSTCTL MGT_BOOTSTAT
    omega
  rw [warmReset_regsKept why s _ far, State.rg, warmBase_regs]
  exact mrClear_zero _ hk hj

theorem warmReset_lastRst {why : Nat} (s : State) (h : why < 8) : (warmReset why s).fget MGT_RSTCTL F.MGT_RSTCTL_LASTRST = why := by
  rw [warmReset_eq, State.fsat]
  rw [State.fset_fget_off _ _ _ _ _ _ (by decide), State.fset_fget_off _ _ _ _ _ _ (by decide), State.fset_fget_apart _ _ _ _ _ (by decide) (by decide),
    State.fset_fget_lt _ _ _ _ (by decide) h]

theorem warmReset_stage (why : Nat) (s : State) : (warmReset why s).fget MGT_BOOTSTAT F.MGT_BOOTSTAT_STAGE = 3 := by
  rw [warmReset_eq, State.fset_fget_apart _ _ _ _ _ (by decide) (by decide), State.fset_fget_lt _ _ _ _ (by decide) (by decide)]

/-! Core resets and the write of MGT_RSTCTL (R510). -/

theorem coreResets_mgmtOnly (l : List Nat) (s : State) : l.foldl coreReset s = { s with mgmt := (l.foldl coreReset s).mgmt } := by
  induction l generalizing s with
  | nil => rfl
  | cons c r ih =>
    rw [List.foldl_cons, ih]
    rfl

/-- A core that is reset is not halted. -/
theorem mem_halted_coreResets (l : List Nat) (s : State) (x : Nat) : x ∈ (l.foldl coreReset s).mgmt.halted ↔ x ∈ s.mgmt.halted ∧ x % 4 ∉ l := by
  induction l generalizing s with
  | nil => simp
  | cons c r ih =>
    rw [List.foldl_cons, ih]
    simp [coreReset, and_assoc]

/-- The cores that CORERST names. -/
def coresReset (act : Nat) (s : State) : State := ((List.range 4).filter (bit (fld act F.MGT_RSTCTL_CORERST))).foldl coreReset s

/-- WARM restarts the management complex and leaves DRAM, keys and caches standing. -/
theorem warm_completes {s : State} {who : Who} {val : Word} {w : CtlWrite} (ha : admitted who MGT_RSTCTL val s w) (hw : fld w.act F.MGT_RSTCTL_WARM = 1) :
    completes (.warm who val) s (fun t => endedWith who MGT_RSTCTL 0 t ∧ t.fget MGT_RSTCTL F.MGT_RSTCTL_LASTRST = 3 ∧ t.mgmt.warm = true ∧
      t.mgmt.run = false ∧ t.mgmt.step = 2 ∧ t.fget MGT_BOOTSTAT F.MGT_BOOTSTAT_STAGE = 3 ∧ (∀ k < 8, ∀ j < 6, t.rg (MGT_MR k j) = 0) ∧ t.dram = s.dram ∧
      t.keys = s.keys ∧ t.tier = s.tier) := by
  have e : hookRstCtl w.hit.idx w.old w.new w.act s = (warmReset 3 (coresReset w.act s), 0) := by
    simp only [hookRstCtl, coresReset, if_pos hw]
  have hc : coresReset w.act s = { s with mgmt := (coresReset w.act s).mgmt } := coreResets_mgmtOnly _ s
  refine completes_next rfl (rowWrite_success ha e) ⟨rfl, ?_, ?_, ?_, ?_, ?_, ?_, ?_, ?_, ?_⟩
  · rw [State.put_fget, warmReset_lastRst _ (by decide)]
  · rw [State.put_mgmt, warmReset_mgmt]; rfl
  · rw [State.put_mgmt, warmReset_mgmt]; rfl
  · rw [State.put_mgmt, warmReset_mgmt]; rfl
  · rw [State.put_fget, warmReset_stage]
  · exact fun k hk j hj => (State.put_rg ..).trans (warmReset_mr 3 _ hk hj)
  · rw [State.put_dram, warmReset_dram, hc]
  · rw [State.put_keys, warmReset_keys, hc]
  · rw [State.put_tier, warmReset_tier, hc]

/-- CORERST ends the halts of the cores that it names, and does nothing else. -/
theorem corerst_completes {s : State} {who : Who} {val : Word} {w : CtlWrite} (ha : admitted who MGT_RSTCTL val s w) (hw : fld w.act F.MGT_RSTCTL_WARM = 0) :
    completes (.corerst who val) s (fun t => endedWith who MGT_RSTCTL 0 t ∧ t = { s with mgmt := t.mgmt, out := t.out } ∧
      (∀ c < 4, bit (fld w.act F.MGT_RSTCTL_CORERST) c = true → ∀ x ∈ t.mgmt.halted, x % 4 ≠ c) ∧ (fld w.act F.MGT_RSTCTL_CORERST = 0 → t.mgmt = s.mgmt)) := by
  have e : hookRstCtl w.hit.idx w.old w.new w.act s = (coresReset w.act s, 0) := by
    simp only [hookRstCtl, coresReset, hw, Nat.zero_ne_one, if_false]
  refine completes_next rfl (rowWrite_success ha e) ⟨rfl, ?_, fun c hc hb x hx hxc => ?_, fun h0 => ?_⟩
  · rw [coresReset, coreResets_mgmtOnly]
    rfl
  · exact ((mem_halted_coreResets _ s x).1 hx).2 (hxc ▸ List.mem_filter.2 ⟨List.mem_range.2 hc, hb⟩)
  · have none : (List.range 4).filter (bit (fld w.act F.MGT_RSTCTL_CORERST)) = [] := by
      rw [h0]
      decide
    rw [State.put_mgmt, coresReset, none]
    rfl

/-! The watchdog (R513). -/

/-- With the core clock running an interrupt source puts out an interrupt, or nothing. -/
theorem State.irq_awake {s : State} (h : s.pst = 0) (n : Nat) : s.irq n = s ∨ ∃ o, s.irq n = s.put o := by
  have hw : coreWoken s = s := if_neg (by omega)
  obtain e | ⟨c, k, p, e⟩ := s.irq_cases n
  · exact .inl e
  · exact .inr ⟨_, e.trans (by rw [hw])⟩

/-- The state at the first expiry, before its interrupt and its report. -/
def wdogStaged (s : State) : State := { s.fset MGT_WDOG F.MGT_WDOG_STAGE1 1 with mgmt := { s.mgmt with wdog := true } }

theorem wdogStaged_stage1 (s : State) : (wdogStaged s).fget MGT_WDOG F.MGT_WDOG_STAGE1 = 1 := by
  rw [wdogStaged, State.setMgmt_fget, State.fset_fget_lt _ _ _ _ (by decide) (by decide)]

theorem wdogStaged_pst (s : State) : (wdogStaged s).pst = s.pst := by simp only [wdogStaged, State.fset_pst]
theorem wdogStaged_dram (s : State) : (wdogStaged s).dram = s.dram := by simp only [wdogStaged, State.fset_dram]
theorem wdogStaged_reports (s : State) : (wdogStaged s).reports = s.reports := by simp only [wdogStaged, State.fset_reports]

/-- The first expiry sets STAGE1 and is reported. -/
theorem watchdogExpiry_first {s : State} (hen : s.fget MGT_WDOG F.MGT_WDOG_EN = 1) (hp : s.pst = 0) (hh : s.pwr.held = 0) (hw : s.mgmt.wdog = false) :
    completes .watchdogExpiry s (fun t => t.mgmt = { s.mgmt with wdog := true } ∧ t.fget MGT_WDOG F.MGT_WDOG_STAGE1 = 1 ∧ t.dram = s.dram ∧
      t.reports = s.reports ++ [{ src := srcId 11 127, elem := 0, code := C.MGT_F_WATCHDOG, addr := 0, detail := 0, level := some 1 }]) := by
  have e : watchdogExpiry s = ((wdogStaged s).irq 11).reportAt 1 (srcId 11 127) 0 C.MGT_F_WATCHDOG 0 0 := by
    simp only [watchdogExpiry, wdogStaged]
    rw [if_neg (by omega), if_neg (by simp [hw])]
  obtain h | ⟨o, h⟩ := State.irq_awake ((wdogStaged_pst s).trans hp) 11 <;> rw [h] at e <;> refine completes_next rfl e ⟨rfl, ?_, ?_, ?_⟩ <;>
    simp only [State.reportAt_fget, State.reportAt_dram, State.reportAt_reports, State.put_fget, State.put_dram, State.put_reports, wdogStaged_stage1, wdogStaged_dram,
      wdogStaged_reports]

/-- The second expiry is a warm reset. -/
theorem watchdogExpiry_second {s : State} (hen : s.fget MGT_WDOG F.MGT_WDOG_EN = 1) (hp : s.pst = 0) (hh : s.pwr.held = 0) (hw : s.mgmt.wdog = true) :
    completes .watchdogExpiry s (fun t => t.fget MGT_RSTCTL F.MGT_RSTCTL_LASTRST = 4 ∧ t.mgmt.warm = true ∧ t.mgmt.wdog = false ∧ t.mgmt.step = 2 ∧
      t.dram = s.dram ∧ t.keys = s.keys) := by
  have e : watchdogExpiry s = warmReset 4 s := by
    unfold watchdogExpiry
    rw [if_neg (by omega), if_pos hw]
  have hm := warmReset_mgmt 4 s
  exact completes_next rfl e ⟨warmReset_lastRst s (by decide), by rw [hm]; rfl, by rw [hm]; rfl, by rw [hm]; rfl, warmReset_dram 4 s, warmReset_keys 4 s⟩

/-! Debug (R499). -/

/-- A halt request to a hart that runs meets the enable of its world, or waits for the trusted world to be left. -/
theorem debugHaltRequest_completes {s : State} {core : Nat} (trusted : Bool) (hc : core < 4) (hs : s.coreState core = 0) (hp : s.pst = 0)
    (hn : ∀ x ∈ s.mgmt.halted, x % 4 ≠ core) :
    let inv := s.fget MGT_DBGCTL (if trusted then F.MGT_DBGCTL_T_INV else F.MGT_DBGCTL_N_INV) = 1
    completes (.debugHaltRequest core 0 trusted) s (fun t => t = { s with mgmt := t.mgmt } ∧
      (inv → t.mgmt = { s.mgmt with halted := s.mgmt.halted ++ [core + (if trusted then 4 else 0)], haltReq := s.mgmt.haltReq.erase core }) ∧
      (¬ inv → trusted = true → core ∉ s.mgmt.haltReq → t.mgmt = { s.mgmt with haltReq := s.mgmt.haltReq ++ [core] }) ∧
      (¬ inv → trusted = false → t = s)) := by
  intro inv
  have hw : coreWoken s = s := if_neg (by omega)
  have running : s.mgmt.halted.find? (fun x => x % 4 == core) = none := List.find?_eq_none.2 fun x hx => by simp [hn x hx]
  have e : debugRequest core 0 trusted (coreWoken s) =
      if inv then { s with mgmt := { s.mgmt with halted := s.mgmt.halted ++ [core + if trusted then 4 else 0], haltReq := s.mgmt.haltReq.erase core } }
      else if trusted ∧ s.mgmt.haltReq.contains core = false then { s with mgmt := { s.mgmt with haltReq := s.mgmt.haltReq ++ [core] } }
      else s := by
    unfold debugRequest
    rw [hw, if_neg (by omega), running]
    simp [inv]
  by_cases hi : inv
  · rw [if_pos hi] at e
    exact completes_next rfl e ⟨rfl, fun _ => rfl, fun h => absurd hi h, fun h => absurd hi h⟩
  · rw [if_neg hi] at e
    by_cases ht : trusted ∧ s.mgmt.haltReq.contains core = false
    · rw [if_pos ht] at e
      exact completes_next rfl e ⟨rfl, fun h => absurd h hi, fun _ _ _ => rfl, fun _ hf => absurd (hf.symm.trans ht.1) (by decide)⟩
    · rw [if_neg ht] at e
      exact completes_next rfl e ⟨rfl, fun h => absurd h hi, fun _ h hm => absurd ⟨h, by simpa using hm⟩ ht, fun _ _ => rfl⟩

end Sys2Proof.Machine
end

section
/-! PROOF. Descriptor initialisation ends: descriptor memory is clear, and what was quiet at the slices stays quiet (R509). -/

namespace Sys2Proof.Machine

/-! Bits of fields. -/

theorem bit_eq_testBit (x i : Nat) : bit x i = x.testBit i := by
  rw [Nat.testBit_eq_decide_div_mod_eq]
  rfl

theorem bit_getBits (x lo w i : Nat) : bit (getBits x lo w) i = (decide (i < w) && bit x (lo + i)) := by
  rw [bit_eq_testBit, bit_eq_testBit, getBits, Nat.testBit_mod_two_pow, Nat.testBit_div_two_pow, Nat.add_comm i lo]

/-- Zeros put into a field set no bit. -/
theorem bit_putBits_zero {x lo w i : Nat} (h : bit (putBits x lo w 0) i = true) : bit x i = true := by
  have one : ∀ y, bit y i = bit (getBits y i 1) 0 := fun y => by rw [bit_getBits]; simp
  obtain hb | ha | hin : i + 1 ≤ lo ∨ lo + w ≤ i ∨ lo ≤ i ∧ i < lo + w := by omega
  · rwa [one, getBits_putBits_below _ _ _ _ _ _ hb, ← one] at h
  · rwa [one, getBits_putBits_above _ _ _ _ _ _ ha, ← one] at h
  · have hz := bit_getBits (putBits x lo w 0) lo w (i - lo)
    rw [getBits_putBits_same, Nat.add_sub_of_le hin.1, h, Nat.zero_mod] at hz
    simp [bit] at hz
    omega

/-- A field that takes zero sets no bit of any field. -/
theorem State.ftest_fset_zero {s : State} {off m : Nat} {f g : Fld} {i : Nat} (hf : f.lo + f.w ≤ 64) (h : (s.fset off f 0).ftest m g i = true) :
    s.ftest m g i = true := by
  unfold State.ftest State.fget fld at h ⊢
  by_cases e : m = off
  · subst e
    rw [State.fset_toNat s m f 0 hf, bit_getBits, Bool.and_eq_true] at h
    rw [bit_getBits, Bool.and_eq_true]
    exact ⟨h.1, bit_putBits_zero h.2⟩
  · rwa [State.fset_rg_other _ _ _ _ _ e] at h

/-! Sparse tables. -/

theorem tabGet_tabDrop {α : Type} (d : Nat → α) (p : Nat → Bool) (t : Tab α) (k : Nat) : tabGet d (tabDrop p t) k = if p k = true then d k else tabGet d t k := by
  induction t with
  | nil => exact (ite_self _).symm
  | cons e r ih =>
    obtain ⟨j, v⟩ := e
    unfold tabDrop at ih ⊢
    rw [List.filter_cons]
    by_cases hj : j = k <;> by_cases hp : p j = true <;> simp_all [tabGet]

theorem mem_tabIns {α : Type} {t : Tab α} {k : Nat} {v : α} {x : Nat × α} (h : x ∈ tabIns t k v) : x = (k, v) ∨ x ∈ t := by
  induction t with
  | nil => exact .inl (List.mem_singleton.1 h)
  | cons e r ih =>
    obtain ⟨j, u⟩ := e
    unfold tabIns at h
    split_ifs at h
    · exact (List.mem_cons.1 h).imp_right (List.mem_cons_of_mem _)
    · exact List.mem_cons.1 h
    · obtain h | h := List.mem_cons.1 h
      · exact .inr (h ▸ List.mem_cons_self)
      · exact (ih h).imp_right (List.mem_cons_of_mem _)

/-- Every entry after a key is set is the new one or an old one. -/
theorem mem_tabSet {α : Type} [DecidableEq α] {d : Nat → α} {t : Tab α} {k : Nat} {v : α} {x : Nat × α} (h : x ∈ tabSet d t k v) : x = (k, v) ∨ x ∈ t := by
  unfold tabSet at h
  split at h
  · exact .inr (List.mem_filter.1 h).1
  · exact mem_tabIns h

/-! Initialisation. -/

/-- Initialisation's part outside registers and key slots, with `dc` for the descriptor caches. -/
def dinitMem (s : State) (dc : Tab (Option DcEntry)) : State :=
  { s with
    dram := { s.dram with
      lines := tabDrop (fun k => decide (k / 64 % 2 ^ 28 < dFrames s)) s.dram.lines
      poison := tabDrop (fun k => decide (k / 64 % 2 ^ 28 < dFrames s)) s.dram.poison
      err := tabDrop (fun k => decide (k / 64 % 2 ^ 28 < dFrames s)) s.dram.err }
    mgmt := { s.mgmt with dinit := true }
    tier := { s.tier with dc := dc } }

/-- Every entry of the table lies where an entry of the state's descriptor caches lies. -/
def DcWithin (s : State) (dc : Tab (Option DcEntry)) : Prop := ∀ x ∈ dc, x.2.isSome = true → ∃ y ∈ s.tier.dc, y.1 = x.1 ∧ y.2.isSome = true

/-- Entries of the descriptor caches are cleared in place, or dropped. -/
theorem dinitAll_eq (s : State) : ∃ dc, DcWithin s dc ∧ dinitAll s = [0, 1].foldl (fun t g => t.setRg (TIR_LOGLIVE g) 0)
    ((List.range 64).foldl (fun t i => t.setSlot (i / 2) (i % 2) { t.slot (i / 2) (i % 2) with inuse := 0 }) (dinitMem s dc)) := by
  simp only [dinitAll, dinitMem]
  generalize hd : List.foldl _ s.tier.dc _ = dc
  refine ⟨dc, ?_, rfl⟩
  rw [← hd]
  refine List.foldlRecOn (motive := DcWithin s) _ _ (fun x hx hs => ⟨x, hx, rfl, hs⟩) fun t ht k hk x hx hs => ?_
  split at hx
  · obtain rfl | hx := mem_tabSet hx
    · obtain ⟨⟨j, v⟩, hy, rfl⟩ := List.mem_map.1 hk
      obtain ⟨hy, hp⟩ := List.mem_filter.1 hy
      cases v with
      | some e => exact ⟨_, hy, rfl, rfl⟩
      | none => exact absurd hp Bool.false_ne_true
    · exact ht x hx hs
  · exact ht x hx hs

/-- All that initialisation does: its part in memory, key slots, and the counts of live sectors. -/
theorem dinitAll_frame (s : State) : ∃ dc r k, DcWithin s dc ∧ dinitAll s = { dinitMem s dc with regs := r, keys := k } ∧
    regsKept (fun o => ∃ g < 2, o = TIR_LOGLIVE g) s (dinitAll s) := by
  obtain ⟨dc, hdc, e⟩ := dinitAll_eq s
  generalize hu : (List.range 64).foldl (fun t i => t.setSlot (i / 2) (i % 2) { t.slot (i / 2) (i % 2) with inuse := 0 }) (dinitMem s dc) = u at e
  have slots : u = { dinitMem s dc with keys := u.keys } := by
    rw [← hu]
    exact List.foldlRecOn (motive := fun (t : State) => t = { dinitMem s dc with keys := t.keys }) _ _ rfl fun t ht i _ => by rw [ht]; rfl
  have counts := RegsOnly.foldl (fun t g => t.setRg (TIR_LOGLIVE g) 0) (fun t g => (RegsOnly.refl t).setRg _ _) [0, 1] u
  refine ⟨dc, (dinitAll s).regs, u.keys, hdc, ?_, ?_⟩
  · rw [e, counts, slots]
  · have k : regsKept (fun o => ∃ g < 2, o = TIR_LOGLIVE g) s u := regsKept.of_regs (by rw [slots]; rfl)
    rw [e]
    exact (k.setRg ⟨0, by decide, rfl⟩ 0).setRg ⟨1, by decide, rfl⟩ 0

/-- The state at the end of an initialisation, before the slices' turn. -/
def dinitDone (s : State) : State := ((dinitAll s).fset MGT_BOOTCTL F.MGT_BOOTCTL_BUSY 0).fset MGT_BOOTCTL F.MGT_BOOTCTL_STATUS 0

/-- No bank goes out of service by an initialisation. -/
theorem bankOut_dinitDone {s : State} {bank : Nat} (h : bankOut s bank = false) : bankOut (dinitDone s) bank = false := by
  obtain ⟨-, -, -, -, -, kept⟩ := dinitAll_frame s
  have far : ¬ ∃ g < 2, SRM_FENCE (bank / 64) = TIR_LOGLIVE g := by
    rintro ⟨g, hg, e⟩
    unfold SRM_FENCE TIR_LOGLIVE at e
    omega
  have same : bankOut (dinitAll s) bank = bankOut s bank := by
    unfold bankOut State.ftest
    rw [kept.fget far]
  by_contra hn
  have hs : bankOut (dinitAll s) bank = true := State.ftest_fset_zero (by decide) (State.ftest_fset_zero (by decide) (Bool.of_not_eq_false hn))
  exact Bool.false_ne_true (h.symm.trans (same.symm.trans hs))

/-- Where nothing waited, nothing waits after an initialisation. -/
theorem nothingWaits_dinitDone {s : State} (h : nothingWaits s) : nothingWaits (dinitDone s) := by
  obtain ⟨hw, ha, hb, hr, hd⟩ := h
  obtain ⟨dc, r, k, hdc, e, -⟩ := dinitAll_frame s
  have ht : (dinitDone s).tier = { s.tier with dc := dc } := by
    rw [dinitDone, State.fset_tier, State.fset_tier, e]
    rfl
  have hh : (dinitDone s).home = s.home := by
    rw [dinitDone, State.fset_home, State.fset_home, e]
    rfl
  have hp : (dinitDone s).ports = s.ports := by
    rw [dinitDone, State.fset_ports, State.fset_ports, e]
    rfl
  unfold nothingWaits
  rw [hh, ht, hp]
  refine ⟨hw, ha, hb, hr, fun x hx hs => ?_⟩
  obtain ⟨y, hy, hk, hys⟩ := hdc x hx hs
  rw [← hk]
  exact bankOut_dinitDone (hd y hy hys)

/-- An initialisation under way ends: BUSY is clear, and descriptor memory reads zero. -/
theorem dinitComplete_completes {s : State} (hb : s.fget MGT_BOOTCTL F.MGT_BOOTCTL_BUSY = 1) (hn : nothingWaits s) :
    completes .dinitComplete s (fun t => t.fget MGT_BOOTCTL F.MGT_BOOTCTL_BUSY = 0 ∧ t.fget MGT_BOOTCTL F.MGT_BOOTCTL_STATUS = 0 ∧ t.mgmt.dinit = true ∧
      (∀ k, (k / 64 % 2 ^ 28 < dFrames s → tabGet (fun _ => (0 : Line)) t.dram.lines k = 0) ∧
        (dFrames s ≤ k / 64 % 2 ^ 28 → tabGet (fun _ => (0 : Line)) t.dram.lines k = tabGet (fun _ => (0 : Line)) s.dram.lines k))) := by
  have e : dinitComplete s = dinitDone s :=
    (if_neg fun h => absurd (h.symm.trans hb) (by decide)).trans (pump_quiet (nothingWaits_dinitDone hn))
  obtain ⟨dc, r, k, -, ha, -⟩ := dinitAll_frame s
  have hm : (dinitDone s).mgmt = { s.mgmt with dinit := true } := by
    rw [dinitDone, State.fset_mgmt, State.fset_mgmt, ha]
    rfl
  have hl : (dinitDone s).dram.lines = tabDrop (fun k => decide (k / 64 % 2 ^ 28 < dFrames s)) s.dram.lines := by
    rw [dinitDone, State.fset_dram, State.fset_dram, ha]
    rfl
  refine completes_next rfl e ⟨?_, ?_, by rw [hm], fun k => ⟨fun hk => ?_, fun hk => ?_⟩⟩
  · rw [dinitDone, State.fset_fget_apart _ _ _ _ _ (by decide) (by decide), State.fset_fget_lt _ _ _ _ (by decide) (by decide)]
  · rw [dinitDone, State.fset_fget_lt _ _ _ _ (by decide) (by decide)]
  · rw [hl, tabGet_tabDrop, if_pos (decide_eq_true hk)]
  · rw [hl, tabGet_tabDrop, if_neg (by simpa using hk)]

end Sys2Proof.Machine
end

section
/-! PROOF. The steps of a cold boot, its stop, and the resume sequence of P3 (R504, R508, R529). -/

namespace Sys2Proof.Machine

/-! A step of a cold boot. -/

/-- The next step of a cold boot can end. -/
structure Booting (s : State) : Prop where
  held : s.pwr.held = 0
  driven : s.tap.driven = false
  stopped : s.mgmt.stopped = false
  pwrok : s.pwr.pwrok = true
  awake : s.pst = 0
  cold : s.mgmt.warm = false

/-- The state after step `k` has ended in `u`: the boot is one step further. -/
def stepped (k : Nat) (u : State) : State := { u with mgmt := { u.mgmt with step := k } }

/-- The next boot step ends and takes STAGE on; DRAM stands, and `P` holds of the state after it. -/
def BootGoes (s : State) (a b : List Nat) (P : State → Prop) : Prop :=
  completes (.coldBootStepComplete a b) s (fun t => t.mgmt.step = s.mgmt.step + 1 ∧
    (s.mgmt.step + 1 < 12 → t.fget MGT_BOOTSTAT F.MGT_BOOTSTAT_STAGE = s.mgmt.step + 1 + 1) ∧ t.dram = s.dram ∧ P t)

section
variable {s : State} (h : Booting s) (a b : List Nat)
include h

/-- Nothing holds the boot back: a step that has ended stops the boot, or takes it on. -/
theorem Booting.bootGo_eq {u : State} {k st : Nat} (hk : s.mgmt.step + 1 = k) (hle : k ≤ 12) (hu : bootStep k a b s = (u, st, true)) :
    bootGo a b s = if st ≠ 0 then bootStop u st else if k = 12 then stepped k u else (stepped k u).fset MGT_BOOTSTAT F.MGT_BOOTSTAT_STAGE (k + 1) := by
  obtain ⟨hh, hd, hs, hp, h0, hw⟩ := h
  have guard : ¬(s.pwr.held ≠ 0 ∨ s.pwr.pwrok = false ∨ s.pst ≠ 0 ∨ s.tap.driven ∨ s.mgmt.stopped ∨ 12 < k) := by
    simp [hh, hd, hs, hp, h0]
    omega
  simp only [bootGo, hk]
  rw [if_neg guard, hu]
  simp [hw, stepAfter, stepped]

/-- A step before the last that ends well moves STAGE on. -/
theorem Booting.goes {u : State} {k : Nat} {P : State → Prop} (hk : s.mgmt.step + 1 = k) (hlt : k < 12) (hu : bootStep k a b s = (u, 0, true))
    (hd : u.dram = s.dram) (hP : P ((stepped k u).fset MGT_BOOTSTAT F.MGT_BOOTSTAT_STAGE (k + 1))) : BootGoes s a b P := by
  unfold BootGoes
  rw [hk]
  have e : bootGo a b s = (stepped k u).fset MGT_BOOTSTAT F.MGT_BOOTSTAT_STAGE (k + 1) := by
    rw [h.bootGo_eq a b hk hlt.le hu, if_neg (by decide), if_neg (by omega)]
  have stage : k + 1 < 2 ^ F.MGT_BOOTSTAT_STAGE.w := by
    show _ < 16
    omega
  exact completes_next rfl e ⟨rfl, fun _ => State.fset_fget_lt _ _ _ _ (by decide) stage, hd, hP⟩

/-- A step that fails stops the boot. -/
theorem Booting.stops {u : State} {k st : Nat} (hk : s.mgmt.step + 1 = k) (hlt : k ≤ 12) (hu : bootStep k a b s = (u, st, true)) (hst : st ≠ 0) :
    bootGo a b s = bootStop u st := by
  rw [h.bootGo_eq a b hk hlt hu, if_pos hst]

end

/-- A step stores MGT_BOOTSTAT and what it stores itself. -/
theorem stepped_regsKept {ex : Nat → Prop} {s u : State} (a : regsKept ex s u) (k : Nat) (h : ex MGT_BOOTSTAT) :
    regsKept ex s ((stepped k u).fset MGT_BOOTSTAT F.MGT_BOOTSTAT_STAGE (k + 1)) := (a.setMgmt _).fset h _ _

/-! The copies of the Pattern (R502, R504). -/

theorem copyStatus_lt (s : State) (p : List Nat) : copyStatus s p < 2 ^ 16 := by
  unfold copyStatus
  split_ifs <;> decide

/-- The state with the copy numbered `c` accepted as the Pattern. -/
def copyTaken (s : State) (c : Nat) (p : List Nat) : State := { s.fset MGT_BOOTSTAT F.MGT_BOOTSTAT_COPY c with mgmt := { s.mgmt with pat := p } }

theorem checkCopies_first {s : State} (h : copyStatus s s.mgmt.flash.1 = 0) : checkCopies s = (copyTaken s 0 s.mgmt.flash.1, 0) := if_pos h

theorem checkCopies_second {s : State} (h1 : copyStatus s s.mgmt.flash.1 ≠ 0) (h2 : copyStatus s s.mgmt.flash.2 = 0) :
    checkCopies s = (copyTaken s 1 s.mgmt.flash.2, 0) := (if_neg h1).trans (if_pos h2)

theorem checkCopies_neither {s : State} (h1 : copyStatus s s.mgmt.flash.1 ≠ 0) (h2 : copyStatus s s.mgmt.flash.2 ≠ 0) :
    checkCopies s = (s, copyStatus s s.mgmt.flash.2) := (if_neg h1).trans (if_neg h2)

/-- STAGE leaves COPY as the accepted copy has set it. -/
theorem copyTaken_copy (s : State) {c : Nat} (hc : c < 2) (p : List Nat) (k : Nat) :
    ((stepped k (copyTaken s c p)).fset MGT_BOOTSTAT F.MGT_BOOTSTAT_STAGE (k + 1)).fget MGT_BOOTSTAT F.MGT_BOOTSTAT_COPY = c := by
  rw [State.fset_fget_apart _ _ _ _ _ (by decide) (by decide)]
  exact (State.setMgmt_fget ..).trans (State.fset_fget_lt s _ _ _ (by decide) hc)

/-! The stop. -/

theorem bootStop_mgmt (s : State) (st : Nat) : (bootStop s st).mgmt = { s.mgmt with stopped := true, run := false } := by
  simp only [bootStop]
  rw [(RegsOnly.foldl _ (coreTo_regsOnly 5) (List.range 4) s).mgmt]

theorem bootStop_dram (s : State) (st : Nat) : (bootStop s st).dram = s.dram := by
  simp only [bootStop, State.fset_dram]
  exact (RegsOnly.foldl _ (coreTo_regsOnly 5) (List.range 4) s).dram

theorem bootStop_status (s : State) {st : Nat} (h : st < 2 ^ 16) : (bootStop s st).fget MGT_BOOTSTAT F.MGT_BOOTSTAT_STATUS = st := by
  simp only [bootStop]
  rw [State.setMgmt_fget, State.fset_fget_lt _ _ _ _ (by decide) h]

/-- Core `c` is fenced, being re-admitted, or stopped. -/
def coreOut (c : Nat) (s : State) : Prop := s.coreState c = 1 ∨ s.coreState c = 2 ∨ s.coreState c = 3 ∨ s.coreState c = 5

/-- Stopping a core takes it out, and lets none back. -/
theorem coreTo_coreOut (t : State) {c d : Nat} (hd : d < 4) (h : c = d ∨ coreOut c t) : coreOut c (coreTo 5 t d) := by
  obtain ⟨hs, e⟩ | e := coreTo_cases 5 t d <;> rw [e]
  · obtain rfl | h := h
    · obtain hs | hs | hs := hs
      · exact .inl hs
      · exact .inr (.inl hs)
      · exact .inr (.inr (.inl hs))
    · exact h
  · by_cases hc : c = d
    · subst hc
      exact .inr (.inr (.inr (State.coreState_setCoreState_same _ hd (by decide))))
    · unfold coreOut
      rw [State.coreState_setCoreState_other _ hd hc]
      exact h.resolve_left hc

theorem bootStop_coreOut (s : State) (st : Nat) {c : Nat} (hc : c < 4) : coreOut c (bootStop s st) := by
  have h : coreOut c ((List.range 4).foldl (coreTo 5) s) :=
    foldl_reaches (P := coreOut c) _ (List.mem_range.2 hc) (fun t => coreTo_coreOut t hc (.inl rfl)) (fun d hd t ht => coreTo_coreOut t (List.mem_range.1 hd) (.inr ht)) s
  have kept : regsKept (fun o => o = MGT_BOOTSTAT) ((List.range 4).foldl (coreTo 5) s) (bootStop s st) :=
    ((regsKept.refl (fun o => o = MGT_BOOTSTAT) _).fset rfl F.MGT_BOOTSTAT_STATUS st).setMgmt _
  unfold coreOut
  rw [kept.coreState (by decide)]
  exact h

/-! The last step. -/

/-- Where no port is in the mode, none is released. -/
theorem releasePorts_none {s : State} {mode : Nat} (h : ∀ p < 16, s.fget (PRT_CFG p) F.PRT_CFG_MODE ≠ mode) : releasePorts mode s = s :=
  List.foldlRecOn (motive := fun t => t = s) _ _ rfl fun t ht p hp => by
    rw [ht]
    exact if_neg (h p (List.mem_range.1 hp))

/-! The steps. -/

section
variable {s : State} (h : Booting s) (a b : List Nat)
include h

/-- Steps 1 and 2 change nothing but SRAM repair. -/
theorem Booting.selfTest (hk : s.mgmt.step + 1 ≤ 2) : BootGoes s a b (fun t => t.chans = s.chans ∧ regsKept (fun o => o = MGT_BOOTSTAT) s t) := by
  obtain hk | hk : s.mgmt.step + 1 = 1 ∨ s.mgmt.step + 1 = 2 := by omega
  · exact h.goes a b hk (by decide) rfl rfl ⟨rfl, stepped_regsKept (regsKept.refl _ s) 1 rfl⟩
  · exact h.goes a b hk (by decide) rfl rfl ⟨rfl, stepped_regsKept (regsKept.of_regs rfl) 2 rfl⟩

/-- Step 3 takes the flash content. -/
theorem Booting.flash (hk : s.mgmt.step + 1 = 3) :
    BootGoes s a b (fun t => t.mgmt.flash = (a, b) ∧ regsKept (fun o => o = MGT_BOOTSTAT ∨ o = MGT_CORESTAT) s t) :=
  have core := (coreTo_regsKept 0 s (bootCore s)).mono (ex' := fun o => o = MGT_BOOTSTAT ∨ o = MGT_CORESTAT) fun _ => .inr
  h.goes a b hk (by decide) rfl (coreTo_regsOnly 0 s (bootCore s)).dram ⟨rfl, stepped_regsKept (core.setMgmt _) 3 (.inl rfl)⟩

omit h in
/-- Step 4 is the check of the copies. -/
theorem bootStep_four {u : State} {st : Nat} (e : checkCopies s = (u, st)) : bootStep 4 a b s = (u, st, true) :=
  congrArg (fun r : State × Nat => (r.1, r.2, true)) e

/-- Step 4 accepts copy A when it passes. -/
theorem Booting.copyA (hk : s.mgmt.step + 1 = 4) (h1 : copyStatus s s.mgmt.flash.1 = 0) :
    BootGoes s a b (fun t => t.mgmt.pat = s.mgmt.flash.1 ∧ t.fget MGT_BOOTSTAT F.MGT_BOOTSTAT_COPY = 0) :=
  h.goes a b hk (by decide) (bootStep_four a b (checkCopies_first h1)) rfl ⟨rfl, copyTaken_copy s (by decide) _ 4⟩

/-- It accepts copy B when only that passes. -/
theorem Booting.copyB (hk : s.mgmt.step + 1 = 4) (h1 : copyStatus s s.mgmt.flash.1 ≠ 0) (h2 : copyStatus s s.mgmt.flash.2 = 0) :
    BootGoes s a b (fun t => t.mgmt.pat = s.mgmt.flash.2 ∧ t.fget MGT_BOOTSTAT F.MGT_BOOTSTAT_COPY = 1) :=
  h.goes a b hk (by decide) (bootStep_four a b (checkCopies_second h1 h2)) rfl ⟨rfl, copyTaken_copy s (by decide) _ 4⟩

/-- With neither the boot stops, with copy B's status and no core in service. -/
theorem Booting.noCopy (hk : s.mgmt.step + 1 = 4) (h1 : copyStatus s s.mgmt.flash.1 ≠ 0) (h2 : copyStatus s s.mgmt.flash.2 ≠ 0) :
    completes (.coldBootStepComplete a b) s (fun t => t.mgmt = { s.mgmt with stopped := true, run := false } ∧ t.dram = s.dram ∧
      t.fget MGT_BOOTSTAT F.MGT_BOOTSTAT_STATUS = copyStatus s s.mgmt.flash.2 ∧ ∀ c < 4, coreOut c t) :=
  completes_next rfl (h.stops a b hk (by decide) (bootStep_four a b (checkCopies_neither h1 h2)) h2)
    ⟨bootStop_mgmt .., bootStop_dram .., bootStop_status _ (copyStatus_lt ..), fun _ hc => bootStop_coreOut s _ hc⟩

/-- Step 8 ends once descriptor initialisation is complete. -/
theorem Booting.memory (hk : s.mgmt.step + 1 = 8) (hi : s.mgmt.dinit = true) (hb : s.fget MGT_BOOTCTL F.MGT_BOOTCTL_BUSY = 0) :
    BootGoes s a b (fun t => regsKept (fun o => o = MGT_BOOTSTAT) s t) := by
  have hu : bootStep 8 a b s = (s, 0, true) := by simp [bootStep, hi, hb]
  exact h.goes a b hk (by decide) hu rfl (stepped_regsKept (regsKept.refl _ s) 8 rfl)

/-- Step 12 sets DONE. -/
theorem Booting.done (hk : s.mgmt.step + 1 = 12) (hp : ∀ p < 16, s.fget (PRT_CFG p) F.PRT_CFG_MODE ≠ 0) :
    BootGoes s a b (fun t => t.fget MGT_BOOTSTAT F.MGT_BOOTSTAT_DONE = 1 ∧ regsKept (fun o => o = MGT_BOOTSTAT) s t) := by
  have hu : bootStep 12 a b s = (s.fset MGT_BOOTSTAT F.MGT_BOOTSTAT_DONE 1, 0, true) :=
    congrArg (fun t : State => (t.fset MGT_BOOTSTAT F.MGT_BOOTSTAT_DONE 1, 0, true)) (releasePorts_none hp)
  have e : bootGo a b s = stepped 12 (s.fset MGT_BOOTSTAT F.MGT_BOOTSTAT_DONE 1) := by
    rw [h.bootGo_eq a b hk (by decide) hu, if_neg (by decide), if_pos rfl]
  exact completes_next rfl e ⟨hk.symm, fun hlt => absurd hk hlt.ne, rfl, State.fset_fget_lt s _ _ _ (by decide) (by decide),
    ((regsKept.refl (fun o => o = MGT_BOOTSTAT) s).fset rfl _ _).setMgmt _⟩

end

/-! The resume sequence (R529). -/

/-- A resume step that ends well moves the sequence on. -/
theorem resumeGo_next {s u : State} {k : Nat} (a b failed : List Nat) (hh : s.pwr.held = 0) (hs : s.mgmt.stopped = false) (hp : s.pst = 3) (hk : s.pwr.resume = k)
    (h0 : k ≠ 0) (hu : resumeStep k a b failed s = (u, 0)) : resumeGo a b failed s = { u with pwr := { u.pwr with resume := if k = 6 then 0 else k + 1 } } := by
  have guard : ¬(k = 0 ∨ s.pst ≠ 3 ∨ s.pwr.held ≠ 0 ∨ s.mgmt.stopped) := by simp [hh, hs, hp, h0]
  simp only [resumeGo, hk]
  rw [if_neg guard, hu]
  rfl

/-- Steps 1 and 2 end with nothing left to do. -/
theorem resume_early {s : State} (a b failed : List Nat) (hh : s.pwr.held = 0) (hs : s.mgmt.stopped = false) (hp : s.pst = 3)
    (hk : s.pwr.resume = 1 ∨ s.pwr.resume = 2) :
    completes (.resumeStepComplete a b failed) s (fun t => t = { s with pwr := { s.pwr with resume := s.pwr.resume + 1 } }) := by
  obtain hk | hk := hk <;> rw [hk] <;> exact completes_next rfl (resumeGo_next a b failed hh hs hp hk (by decide) rfl) rfl

/-- The last step returns to P0. -/
theorem resume_last {s : State} (a b failed : List Nat) (hh : s.pwr.held = 0) (hs : s.mgmt.stopped = false) (hp : s.pst = 3) (hk : s.pwr.resume = 6) :
    completes (.resumeStepComplete a b failed) s (fun t => t.pst = 0 ∧ t.pwr.resume = 0 ∧ t.dram = s.dram) :=
  completes_next rfl (resumeGo_next a b failed hh hs hp hk (by decide) rfl) ⟨rfl, rfl, (RegsOnly.foldl _ (coreTo_regsOnly 0) (List.range 4) s).dram⟩

/-! Step 4 of the resume sequence: channels are retrained. -/

theorem setSrcState_records (s : State) (src st : Nat) : RegsOnly s (setSrcState s src st) ∧ regsKept (fun o => o = FLT_SRCSTAT src) s (setSrcState s src st) := by
  have r := RegsOnly.refl s
  have k := regsKept.refl (fun o => o = FLT_SRCSTAT src) s
  simp only [setSrcState]
  split_ifs
  · exact ⟨r, k⟩
  · exact ⟨(r.fset _ _ _).fset _ _ _, (k.fset rfl _ _).fset rfl _ _⟩
  · exact ⟨r.fset _ _ _, k.fset rfl _ _⟩

theorem readmEnd_records (s : State) (src elem st : Nat) : RegsOnly s (readmEnd s src elem st) ∧ regsKept (fun o => o = FLT_READMIT) s (readmEnd s src elem st) := by
  have r := RegsOnly.refl s
  have k := regsKept.refl (fun o => o = FLT_READMIT) s
  simp only [readmEnd]
  split_ifs
  · exact ⟨((r.fset _ _ _).fset _ _ _).fset _ _ _, ((k.fset rfl _ _).fset rfl _ _).fset rfl _ _⟩
  · exact ⟨r, k⟩

theorem readmStage_records (s : State) (src elem st : Nat) :
    RegsOnly s (readmStage s src elem st) ∧ regsKept (fun o => o = FLT_READMIT) s (readmStage s src elem st) := by
  have r := RegsOnly.refl s
  have k := regsKept.refl (fun o => o = FLT_READMIT) s
  simp only [readmStage]
  split_ifs
  · exact ⟨r.fset _ _ _, k.fset rfl _ _⟩
  · exact ⟨r, k⟩

theorem State.irq_dram (s : State) (n : Nat) : (s.irq n).dram = s.dram := by
  have hw : (coreWoken s).dram = s.dram := by
    obtain h | h := coreWoken_cases s <;> rw [h]
    rfl
  obtain h | ⟨c, k, p, h⟩ := s.irq_cases n <;> rw [h]
  exact hw

/-- A channel's new state, and what else its change stores: its source's state, the re-admission, and the power status on a wake. -/
theorem State.setCstate_spec (s : State) (c v : Nat) : (s.setCstate c v).dram = s.dram ∧
    regsKept (fun o => o = FLT_SRCSTAT (srcId 2 c) ∨ o = PWR_STAT ∨ o = FLT_READMIT) (s.fset (DCH_STAT c) F.DCH_STAT_STATE v) (s.setCstate c v) := by
  have src := setSrcState_records (s.fset (DCH_STAT c) F.DCH_STAT_STATE v) (srcId 2 c) (chanSrcState v)
  simp only [State.setCstate]
  generalize setSrcState (s.fset (DCH_STAT c) F.DCH_STAT_STATE v) (srcId 2 c) (chanSrcState v) = u at src ⊢
  have ku : regsKept (fun o => o = FLT_SRCSTAT (srcId 2 c) ∨ o = PWR_STAT ∨ o = FLT_READMIT) (s.fset (DCH_STAT c) F.DCH_STAT_STATE v) (u.irq (16 + c)) :=
    (src.2.mono fun _ => .inl).trans fun off ho => u.irq_rg_other _ off fun e => ho (.inr (.inl e))
  have du : (u.irq (16 + c)).dram = s.dram := (u.irq_dram _).trans (src.1.dram.trans (State.fset_dram ..))
  split_ifs
  · have e := readmEnd_records (u.irq (16 + c)) (srcId 2 c) 0 0
    exact ⟨e.1.dram.trans du, ku.trans (e.2.mono fun _ h => .inr (.inr h))⟩
  · have e := readmStage_records (u.irq (16 + c)) (srcId 2 c) 0 (chanSrcState v - 1)
    exact ⟨e.1.dram.trans du, ku.trans (e.2.mono fun _ h => .inr (.inr h))⟩

/-- A channel is in the state that it was set to. -/
theorem State.cstate_setCstate (s : State) {c v : Nat} (hc : c < 24) (hv : v < 8) : (s.setCstate c v).cstate c = v := by
  have far : ¬(DCH_STAT c = FLT_SRCSTAT (srcId 2 c) ∨ DCH_STAT c = PWR_STAT ∨ DCH_STAT c = FLT_READMIT) := by
    unfold DCH_STAT FLT_SRCSTAT srcId PWR_STAT FLT_READMIT
    omega
  unfold State.cstate
  rw [(s.setCstate_spec c v).2.fget far, State.fset_fget_lt _ _ _ _ (by decide) hv]

/-- One channel that fails its checks is retrained. -/
theorem resumeChannels_one {s : State} {c : Nat} (hc : c < 24) (hs : s.cstate c = csIN_SERVICE) :
    (resumeChannels [c] s).cstate c = csRETRAINING ∧ (resumeChannels [c] s).dram = s.dram := by
  have e : resumeChannels [c] s = chanUpd (s.setCstate c csRETRAINING) c (fun x => { x with trainStep := 4, trainRetried := false }) := if_pos ⟨hc, hs⟩
  rw [e]
  exact ⟨(State.setChan_fget ..).trans (s.cstate_setCstate hc (by decide)), (s.setCstate_spec c _).1⟩

/-- Step 4 retrains the channel that fails. -/
theorem resume_channel {s : State} (a b : List Nat) {failed : List Nat} (hh : s.pwr.held = 0) (hs : s.mgmt.stopped = false) (hp : s.pst = 3) {c : Nat}
    (hk : s.pwr.resume = 4) (hf : failed = [c]) (hc : c < 24) (hcs : s.cstate c = csIN_SERVICE) :
    completes (.resumeStepComplete a b failed) s (fun t => t.pwr.resume = 5 ∧ t.cstate c = csRETRAINING ∧ t.dram = s.dram) := by
  subst hf
  obtain ⟨h1, h2⟩ := resumeChannels_one hc hcs
  exact completes_next rfl (resumeGo_next a b [c] hh hs hp hk (by decide) rfl) ⟨rfl, h1, h2⟩

end Sys2Proof.Machine
end

section
/-! PROOF. O58, put together from control-space writes, the registers of the management complex, its resets, the watchdog, debug, boot and resume. -/

open Sys2Proof Sys2Proof.Machine

/-- Settles O58: each command's effect is that of its register's write or of its step of the boot, by the lemma on each. -/
theorem managementRegistersBootAndDebug : Obligations.ManagementRegistersBootAndDebug := by
  unfold Obligations.ManagementRegistersBootAndDebug
  refine ⟨fun s who off width val hopen hw => ⟨fun h => ?_, fun h8 ha h => ?_, fun r h8 ha hl hf he ho => ?_, fun w h8 ha hk => ?_⟩,
    fun s who val w => ⟨assignmentLock_completes, dinit_completes, fun ha => ⟨warm_completes ha, corerst_completes ha⟩,
      fun ha => ⟨mrextGo_completes ha, lock0_completes ha⟩, kick_completes⟩,
    fun s => dinitComplete_completes, fun s hen hp hh => ⟨watchdogExpiry_first hen hp hh, watchdogExpiry_second hen hp hh⟩,
    fun s core trusted => debugHaltRequest_completes trusted, fun s a b hh hd hs => ⟨fun hpw hp hc => ?_, fun hp failed => ?_⟩⟩
  · exact controlSpaceWrite_refused hopen hw (ctlCheck_width h) (by decide)
  · subst h8
    exact controlSpaceWrite_refused hopen hw (ctlCheck_noRegister ha h) (by decide)
  · subst h8
    exact controlSpaceWrite_refused hopen hw (ctlCheck_notOwner ha hl hf he ho) (by decide)
  · subst h8
    exact controlSpaceWrite_plain hw ha hk
  · have boot : Booting s := ⟨hh, hd, hs, hpw, hp, hc⟩
    exact ⟨boot.selfTest a b, boot.flash a b, fun hk => ⟨boot.copyA a b hk, boot.copyB a b hk, boot.noCopy a b hk⟩, boot.memory a b, boot.done a b⟩
  · exact ⟨resume_early a b failed hh hs hp, fun c => resume_channel a b hh hs hp, resume_last a b failed hh hs hp⟩
end

section
/-! PROOF. Tokens of the Interlining: one hop, watchdogs and the end of a remapping, O2 (R29, R30, R40). -/

namespace Sys2Proof.Machine

/-! Latches. -/

@[simp] theorem latchAt_latchPut_same (s : State) (k : Nat) (t : Option Token) : latchAt (latchPut s k t) k = t := tabGet_tabSet_same _ _ _ _

theorem latchAt_latchPut_other (s : State) {k j : Nat} (t : Option Token) (h : j ≠ k) : latchAt (latchPut s k t) j = latchAt s j :=
  tabGet_tabSet_other _ _ _ _ _ h

/-- The keys of latches of two nodes of a plane differ. -/
theorem latchKey_ne {plane row col row' col' inp inp' cls cls' : Nat} (hi : inp < 8) (hi' : inp' < 8) (hk : cls < 3) (hk' : cls' < 3)
    (h : row * 8 + col ≠ row' * 8 + col') : latchKey plane row col inp cls ≠ latchKey plane row' col' inp' cls' := by
  unfold latchKey
  omega

theorem neighbour_input_lt (row col dir : Nat) : (neighbour row col dir).2.2 < 8 := by
  unfold neighbour
  split <;> simp

/-- The latch that the channel in direction `dir` leads to. -/
def nextLatch (plane row col dir cls : Nat) : Nat := latchKey plane (neighbour row col dir).1 (neighbour row col dir).2.1 (neighbour row col dir).2.2 cls

/-- The latch that a token's route leads to is another node's. -/
theorem nextLatch_ne {row col inp cls : Nat} {tok : Token} (plane : Nat) (hi : inp < 8) (hk : cls < 3) (hr : routeDir row col tok ≠ 4) :
    nextLatch plane row col (routeDir row col tok) cls ≠ latchKey plane row col inp cls := by
  refine latchKey_ne (neighbour_input_lt ..) hi hk hk ?_
  unfold routeDir at hr ⊢
  split_ifs at hr ⊢ <;> simp only [neighbour] <;> omega

/-! One handshake. -/

/-- A token stands in the latch of input `inp` and class `cls` of a node, in a plane that is not fenced, while the core runs. -/
structure TokenAt (s : State) (plane row col inp cls : Nat) (tok : Token) : Prop where
  alive : coreAlive s = true
  plane_lt : plane < 4
  row_lt : row < 8
  col_lt : col < 8
  inp_lt : inp < 8
  cls_lt : cls < 3
  usable : s.ftest GLB_ILNSTAT F.GLB_ILNSTAT_FENCED plane = false
  latched : latchAt s (latchKey plane row col inp cls) = some tok

section
variable {s : State} {plane row col inp cls : Nat} {tok : Token}

theorem TokenAt.inMesh (h : TokenAt s plane row col inp cls tok) : ¬ (4 ≤ plane ∨ 8 ≤ row ∨ 8 ≤ col ∨ coreAlive s = false) := by
  have := h.plane_lt
  have := h.row_lt
  have := h.col_lt
  simp [h.alive]
  omega

theorem TokenAt.served (h : TokenAt s plane row col inp cls tok) : ¬ (8 ≤ inp ∨ 3 ≤ cls ∨ s.ftest GLB_ILNSTAT F.GLB_ILNSTAT_FENCED plane = true) := by
  have := h.inp_lt
  have := h.cls_lt
  simp [h.usable]
  omega

/-- A handshake takes up the token in the latch that it names. -/
theorem TokenAt.taken (h : TokenAt s plane row col inp cls tok) (dir : Nat) (fd : Line) (fc : Nat) :
    tokenTransfer plane row col dir none inp cls fd fc s =
      if routeDir row col tok ≠ dir then s
      else if dir = 4 then tokenArrive plane (corrupt fd fc tok) (latchPut s (latchKey plane row col inp cls) none)
      else if latchAt s (nextLatch plane row col dir cls) = none then
        latchPut (latchPut s (latchKey plane row col inp cls) none) (nextLatch plane row col dir cls) (some (corrupt fd fc tok))
      else s := by
  unfold tokenTransfer
  rw [if_neg h.inMesh, if_neg h.served, h.latched]
  refine if_congr Iff.rfl rfl (if_congr Iff.rfl rfl ?_)
  unfold nextLatch
  dsimp only
  cases latchAt s (latchKey plane (neighbour row col dir).1 (neighbour row col dir).2.1 (neighbour row col dir).2.2 cls) <;> rfl

/-- A token at its destination is checked there. -/
theorem TokenAt.arrives (h : TokenAt s plane row col inp cls tok) (hd : routeDir row col tok = 4) (fd : Line) (fc : Nat) :
    tokenTransfer plane row col 4 none inp cls fd fc s = tokenArrive plane (corrupt fd fc tok) (latchPut s (latchKey plane row col inp cls) none) := by
  rw [h.taken, if_neg (not_not.2 hd), if_pos rfl]

/-- A full latch withholds its acknowledge: nothing changes. -/
theorem TokenAt.withheld (h : TokenAt s plane row col inp cls tok) {dir : Nat} (hd : dir = routeDir row col tok) (h4 : dir ≠ 4)
    (hn : (latchAt s (nextLatch plane row col dir cls)).isSome = true) (fd : Line) (fc : Nat) :
    exec (.tokenTransfer plane row col dir none inp cls (fd, fc)) s = .next s := by
  refine congrArg Host.Outcome.next ((h.taken dir fd fc).trans ?_)
  rw [if_neg (not_not.2 hd.symm), if_neg h4, if_neg (Option.isSome_iff_ne_none.1 hn)]

/-- Into an empty latch the token moves, with the errors of the channel; every other latch keeps its content. -/
theorem TokenAt.moves (h : TokenAt s plane row col inp cls tok) {dir : Nat} (hd : dir = routeDir row col tok) (h4 : dir ≠ 4)
    (hn : latchAt s (nextLatch plane row col dir cls) = none) (fd : Line) (fc : Nat) :
    completes (.tokenTransfer plane row col dir none inp cls (fd, fc)) s (fun t => latchAt t (latchKey plane row col inp cls) = none ∧
      latchAt t (nextLatch plane row col dir cls) = some (corrupt fd fc tok) ∧
      (∀ j, j ≠ latchKey plane row col inp cls → j ≠ nextLatch plane row col dir cls → latchAt t j = latchAt s j) ∧
      t = { s with iln := { s.iln with latch := t.iln.latch } }) := by
  have apart : nextLatch plane row col dir cls ≠ latchKey plane row col inp cls := by
    rw [hd] at h4 ⊢
    exact nextLatch_ne plane h.inp_lt h.cls_lt h4
  have e := h.taken dir fd fc
  rw [if_neg (not_not.2 hd.symm), if_neg h4, if_pos hn] at e
  refine completes_next rfl e ⟨?_, latchAt_latchPut_same .., fun j h1 h2 => ?_, rfl⟩
  · rw [latchAt_latchPut_other _ _ apart.symm, latchAt_latchPut_same]
  · rw [latchAt_latchPut_other _ _ h2, latchAt_latchPut_other _ _ h1]

end

/-! Events of a plane. -/

/-- A bit of GLB_ILNSTAT is set, event `k` is counted and a report leaves for the collector. -/
def planeEvent (s : State) (f : Fld) (k src elem code : Nat) : State := (evSRM k (s.fset GLB_ILNSTAT f 1)).report src elem code 0 0

theorem planeEvent_frame (s : State) (f : Fld) (k src elem code : Nat) : planeEvent s f k src elem code =
    { s with regs := (planeEvent s f k src elem code).regs, levelNs := (planeEvent s f k src elem code).levelNs
             reports := s.reports ++ [{ src := src, elem := elem, code := code, addr := 0, detail := 0, level := none }] } := by
  obtain ⟨r, l, h⟩ := (s.fset GLB_ILNSTAT f 1).ev_frame (0x3E0 + k)
  rw [planeEvent, evSRM, h]
  rfl

section
variable (s : State) (f : Fld) {k : Nat} (src elem code : Nat) (hk : k < 16)
include hk

theorem planeEvent_counted : regsKept (fun off => counterReg off = true) (s.fset GLB_ILNSTAT f 1) (planeEvent s f k src elem code) :=
  State.ev_regsKept _ (0x3E0 + k) (by omega)

theorem planeEvent_regsKept : regsKept (fun off => off = GLB_ILNSTAT ∨ counterReg off = true) s (planeEvent s f k src elem code) :=
  ((regsKept.refl (fun off => off = GLB_ILNSTAT ∨ counterReg off = true) s).fset (.inl rfl) f 1).trans
    ((planeEvent_counted s f src elem code hk).mono fun _ => .inr)

theorem planeEvent_fget (hf : f.lo + f.w ≤ 64) (hw : f.w = 1) : (planeEvent s f k src elem code).fget GLB_ILNSTAT f = 1 := by
  rw [(planeEvent_counted s f src elem code hk).fget (by decide), State.fset_fget_same _ _ _ _ hf, hw]
  rfl

end

/-! Watchdogs. -/

/-- Node `n` has one trip more. -/
def tripped (s : State) (n : Nat) : State :=
  { s with iln := { s.iln with trips := tabSet (fun _ => 0) s.iln.trips n (tabGet (fun _ => 0) s.iln.trips n + 1) } }

theorem tripped_trips (s : State) (n m : Nat) :
    tabGet (fun _ => 0) (tripped s n).iln.trips m = tabGet (fun _ => 0) s.iln.trips m + if m = n then 1 else 0 := by
  simp only [tripped, tabGet_tabSet]
  split_ifs with h
  · rw [h]
  · rfl

theorem stallWatchdog_trips {s : State} {plane row col : Nat} (hp : plane < 4) (hr : row < 8) (hc : col < 8)
    (hf : s.ftest GLB_ILNSTAT F.GLB_ILNSTAT_FENCED plane = false) (ha : nodeActive s plane row col = true) :
    stallWatchdog plane row col s =
      planeEvent (tripped s (plane * 64 + row * 8 + col)) F.GLB_ILNSTAT_STALL (12 + plane) (srcId 14 plane) (row * 8 + col) C.ILN_F_STALL := by
  refine if_neg ?_
  simp [hf, ha]
  omega

/-- A watchdog's trip sets STALL, counts it at its node and reports the plane. -/
theorem stallWatchdog_completes {s : State} {plane row col : Nat} (hp : plane < 4) (hr : row < 8) (hc : col < 8)
    (hf : s.ftest GLB_ILNSTAT F.GLB_ILNSTAT_FENCED plane = false) (ha : nodeActive s plane row col = true) :
    completes (.stallWatchdog plane row col) s (fun t => t.fget GLB_ILNSTAT F.GLB_ILNSTAT_STALL = 1 ∧
      (∀ n, tabGet (fun _ => 0) t.iln.trips n = tabGet (fun _ => 0) s.iln.trips n + if n = plane * 64 + row * 8 + col then 1 else 0) ∧
      t.reports = s.reports ++ [{ src := srcId 14 plane, elem := row * 8 + col, code := C.ILN_F_STALL, addr := 0, detail := 0, level := none }] ∧
      t = { s with regs := t.regs, reports := t.reports, levelNs := t.levelNs, iln := { s.iln with trips := t.iln.trips } } ∧
      regsKept (fun off => off = GLB_ILNSTAT ∨ counterReg off = true) s t) := by
  have hk : 12 + plane < 16 := by omega
  refine completes_next rfl (stallWatchdog_trips hp hr hc hf ha) ⟨planeEvent_fget _ _ _ _ _ hk (by decide) rfl, fun n => ?_, ?_, ?_,
    planeEvent_regsKept (tripped s _) _ _ _ _ hk⟩
  · rw [planeEvent_frame]
    exact tripped_trips ..
  · rw [planeEvent_frame]
    rfl
  · rw [planeEvent_frame]
    rfl

/-! The end of a remapping. -/

/-- A register that says nothing of fences leaves what waits at the slices as it is. -/
theorem nothingWaits_setRg {s : State} {off : Nat} (ho : ∀ i, off ≠ SRM_FENCE i) (v : Word) (h : nothingWaits s) : nothingWaits (s.setRg off v) := by
  obtain ⟨hw, ha, hb, hr, hd⟩ := h
  refine ⟨hw, ha, hb, hr, fun x hx hs => ?_⟩
  have e : bankOut (s.setRg off v) (dcBank x.1) = bankOut s (dcBank x.1) := by
    unfold bankOut State.ftest State.fget
    rw [State.setRg_rg_other _ _ _ _ (ho _).symm]
  rw [e]
  exact hd x hx hs

theorem bit_withBit_false (x i : Nat) : bit (withBit x i false) i = false := by
  have h : getBits (withBit x i false) i 1 = 0 := getBits_putBits_same ..
  unfold getBits at h
  simpa [bit] using h

/-- A bit of a field that is cleared reads 0. -/
theorem State.ftest_fbit_false (s : State) (off : Nat) (f : Fld) (i : Nat) (hf : f.lo + f.w ≤ 64) : (s.fbit off f i false).ftest off f i = false := by
  have low : ∀ x, x % 2 ^ f.w = getBits x 0 f.w := fun x => by simp [getBits]
  unfold State.ftest State.fbit
  rw [State.fset_fget_same _ _ _ _ hf, low, bit_getBits, Nat.zero_add, bit_withBit_false, Bool.and_false]

/-- While a token waits to be sent again from the plane on another, the remapping goes on. -/
theorem remapComplete_waits {s : State} {plane : Nat} (h : ∃ x ∈ s.iln.resend, x.1 = plane ∧ x.2.1 ≠ plane) : remapComplete plane s = s := by
  obtain ⟨x, hx, h1, h2⟩ := h
  refine if_pos (.inr (List.any_eq_true.2 ⟨x, hx, ?_⟩))
  simp [h1, h2]

/-- With none left, REMAP_BUSY clears and the slices are given their turn. -/
theorem remapComplete_ends {s : State} {plane : Nat} (hp : plane < 4) (hb : s.ftest GLB_ILNSTAT F.GLB_ILNSTAT_REMAP_BUSY plane = true)
    (h : ∀ x ∈ s.iln.resend, x.1 = plane → x.2.1 = plane) :
    remapComplete plane s = pump (s.fbit GLB_ILNSTAT F.GLB_ILNSTAT_REMAP_BUSY plane false) := by
  have none : s.iln.resend.any (fun x => x.1 == plane && x.2.1 != plane) = false := List.any_eq_false.2 fun x hx => by
    have := h x hx
    simpa using this
  unfold remapComplete
  rw [none, if_neg (by simpa using hp), if_pos hb]

/-- A remapping with nothing left ends with REMAP_BUSY clear, and where nothing waits at the slices no other register changes. -/
theorem remapComplete_completes {s : State} {plane : Nat} (hp : plane < 4) (hb : s.ftest GLB_ILNSTAT F.GLB_ILNSTAT_REMAP_BUSY plane = true)
    (h : ∀ x ∈ s.iln.resend, x.1 = plane → x.2.1 = plane) (hq : nothingWaits s) :
    completes (.remapComplete plane) s (fun t => t.ftest GLB_ILNSTAT F.GLB_ILNSTAT_REMAP_BUSY plane = false ∧ t.dram = s.dram ∧
      regsKept (fun off => off = GLB_ILNSTAT) s t) := by
  have quiet : nothingWaits (s.fbit GLB_ILNSTAT F.GLB_ILNSTAT_REMAP_BUSY plane false) := nothingWaits_setRg (fun i => by unfold GLB_ILNSTAT SRM_FENCE; omega) _ hq
  exact completes_next rfl ((remapComplete_ends hp hb h).trans (pump_quiet quiet)) ⟨State.ftest_fbit_false _ _ _ _ (by decide), rfl,
    (regsKept.refl (fun off => off = GLB_ILNSTAT) s).setRg rfl _⟩

end Sys2Proof.Machine

open Sys2Proof Sys2Proof.Machine

/-- Settles O2: a token moves or is withheld by the latch ahead, a watchdog's trip and the end of a remapping are one step each. -/
theorem tokensMoveStallsTripRemapsEnd : Obligations.TokensMoveStallsTripRemapsEnd := by
  unfold Obligations.TokensMoveStallsTripRemapsEnd
  refine ⟨fun s plane row col dir inp cls fd fc tok ha hp hr hc hi hk hf hl hd h4 => ?_,
    fun s plane hp => ⟨fun row col hr hc hf ha => ?_, fun hb => ⟨fun h => ?_, fun h hq => ?_⟩⟩⟩
  · have here : TokenAt s plane row col inp cls tok := ⟨ha, hp, hr, hc, hi, hk, hf, hl⟩
    exact ⟨fun hn => here.moves hd h4 hn fd fc, fun hn => here.withheld hd h4 hn fd fc⟩
  · exact stallWatchdog_completes hp hr hc hf ha
  · exact congrArg Host.Outcome.next (remapComplete_waits h)
  · exact remapComplete_completes hp hb h hq
end

section
/-! PROOF. A token at its destination: the check, the resend and the delivery, O3 (R32, R39, R40). -/

namespace Sys2Proof.Machine

/-! The check fails. -/

/-- What the source of a token with this tag still holds for it is to be sent again on the plane. -/
def resent (s : State) (plane : Nat) (tag : Nat × Nat × Nat) : State :=
  { s with iln := { s.iln with
      resend := s.iln.resend ++ (s.iln.held.filter (fun x => decide (tokenTag x.tok = tag) && !x.got)).map (fun x => (plane, plane, x.tok)) } }

theorem tokenArrive_fails {t : Token} (h : t.check ≠ checkOf t) (plane : Nat) (s : State) :
    tokenArrive plane t s = planeEvent (resent s plane (tokenTag t)) F.GLB_ILNSTAT_CHECK (8 + plane) (srcId 14 plane) 0 C.ILN_F_TOKEN_CHECK := by
  unfold tokenArrive resent
  rw [if_pos h]
  simp only [← beq_eq_decide]
  rfl

/-! The check holds. -/

/-- A token that has been acknowledged before is discarded. -/
theorem tokenArrive_repeated {s : State} {t : Token} (h : t.check = checkOf t) (ha : s.iln.acked.contains (tokenTag t) = true) (plane : Nat) :
    tokenArrive plane t s = s := by
  unfold tokenArrive
  rw [if_neg (not_not.2 h), if_pos ha]

/-- A token with this tag is acknowledged. -/
def accepted (s : State) (tag : Nat × Nat × Nat) : State :=
  { s with iln := { s.iln with
      acked := s.iln.acked ++ [tag]
      held := s.iln.held.map (fun x => if tokenTag x.tok = tag then { x with got := true } else x) } }

theorem tokenArrive_new {s : State} {t : Token} (h : t.check = checkOf t) (ha : s.iln.acked.contains (tokenTag t) = false) (plane : Nat) :
    tokenArrive plane t s = deliverTokens t.srcAgent t.dstAgent plane (accepted s (tokenTag t)) := by
  unfold tokenArrive
  rw [if_neg (not_not.2 h), if_neg (by rw [ha]; exact Bool.false_ne_true)]
  rfl

/-- Outputs are all that putting out changes. -/
theorem foldl_put_frame {α : Type} (o : α → Out) (l : List α) (s : State) : l.foldl (fun t x => t.put (o x)) s = { s with out := (l.map o).reverse ++ s.out } := by
  induction l generalizing s with
  | nil => rfl
  | cons x r ih =>
    rw [List.foldl_cons, ih, List.map_cons, List.reverse_cons, List.append_assoc]
    rfl

/-- Delivery takes the tokens that are in order from those held, and puts them out. -/
theorem deliverTokens_eq (src dst plane : Nat) (s : State) : deliverTokens src dst plane s =
    { s with iln := { s.iln with held := (inOrder src dst plane s.iln.held).2 }
             out := ((inOrder src dst plane s.iln.held).1.map (Out.tokenDelivered plane)).reverse ++ s.out } :=
  foldl_put_frame (Out.tokenDelivered plane) _ _

/-- Accepting the token of the only transfer held marks that transfer. -/
theorem accepted_single {s : State} {tag : Nat × Nat × Nat} {x : Transit} (hx : s.iln.held = [x]) (hm : tokenTag x.tok = tag) :
    (accepted s tag).iln.held = [{ x with got := true }] := by
  simp [accepted, hx, hm]

/-- The only transfer held, once accepted, is in order. -/
theorem inOrder_single {src dst plane : Nat} {x : Transit} (hp : onPath src dst plane x = true) :
    inOrder src dst plane [{ x with got := true }] = ([x.tok], []) := by
  have e : onPath src dst plane { x with got := true } = true := hp
  simp [inOrder, e]

/-! Arrival. -/

theorem routeDir_destination {row col : Nat} {t : Token} (hr : t.dstRow = row) (hc : t.dstCol = col) : routeDir row col t = 4 := by
  simp [routeDir, hr, hc]

section
variable {s : State} {plane row col inp cls : Nat} {tok : Token} {fd : Line} {fc : Nat}

/-- A token that fails its check leaves its latch, waits to be sent again, and is reported. -/
theorem TokenAt.checkFails (h : TokenAt s plane row col inp cls tok) (hd : routeDir row col tok = 4)
    (hc : (corrupt fd fc tok).check ≠ checkOf (corrupt fd fc tok)) :
    completes (.tokenTransfer plane row col 4 none inp cls (fd, fc)) s (fun t => latchAt t (latchKey plane row col inp cls) = none ∧
      t.iln.resend = s.iln.resend ++ (s.iln.held.filter (fun x => decide (tokenTag x.tok = tokenTag tok) && !x.got)).map (fun x => (plane, plane, x.tok)) ∧
      t.iln.held = s.iln.held ∧ t.fget GLB_ILNSTAT F.GLB_ILNSTAT_CHECK = 1 ∧ t.out = s.out ∧
      t.reports = s.reports ++ [{ src := srcId 14 plane, elem := 0, code := C.ILN_F_TOKEN_CHECK, addr := 0, detail := 0, level := none }] ∧
      t.dram = s.dram ∧ regsKept (fun off => off = GLB_ILNSTAT ∨ counterReg off = true) s t) := by
  have empty := latchAt_latchPut_same s (latchKey plane row col inp cls) none
  have hk : 8 + plane < 16 := by have := h.plane_lt; omega
  have flag := planeEvent_fget (resent (latchPut s (latchKey plane row col inp cls) none) plane (tokenTag tok)) F.GLB_ILNSTAT_CHECK (srcId 14 plane) 0
    C.ILN_F_TOKEN_CHECK hk (by decide) rfl
  have kept := planeEvent_regsKept (resent (latchPut s (latchKey plane row col inp cls) none) plane (tokenTag tok)) F.GLB_ILNSTAT_CHECK (srcId 14 plane) 0
    C.ILN_F_TOKEN_CHECK hk
  rw [planeEvent_frame] at flag kept
  exact completes_next rfl ((h.arrives hd fd fc).trans ((tokenArrive_fails hc plane _).trans (planeEvent_frame ..)))
    ⟨empty, rfl, rfl, flag, rfl, rfl, rfl, kept⟩

/-- A token that passes its check is acknowledged once, and delivered when it is the only transfer held. -/
theorem TokenAt.checkHolds (h : TokenAt s plane row col inp cls tok) (hd : routeDir row col tok = 4)
    (hc : (corrupt fd fc tok).check = checkOf (corrupt fd fc tok)) :
    completes (.tokenTransfer plane row col 4 none inp cls (fd, fc)) s (fun t => latchAt t (latchKey plane row col inp cls) = none ∧
      t.iln.resend = s.iln.resend ∧ t.regs = s.regs ∧ t.dram = s.dram ∧ t.reports = s.reports ∧
      (s.iln.acked.contains (tokenTag tok) = true → t.out = s.out ∧ t.iln.acked = s.iln.acked ∧ t.iln.held = s.iln.held) ∧
      (s.iln.acked.contains (tokenTag tok) = false → t.iln.acked = s.iln.acked ++ [tokenTag tok] ∧
        (∀ x, s.iln.held = [x] → tokenTag x.tok = tokenTag tok → onPath tok.srcAgent tok.dstAgent plane x = true →
          t.out = .tokenDelivered plane x.tok :: s.out ∧ t.iln.held = []))) := by
  have empty := latchAt_latchPut_same s (latchKey plane row col inp cls) none
  cases ha : (latchPut s (latchKey plane row col inp cls) none).iln.acked.contains (tokenTag (corrupt fd fc tok)) with
  | true =>
    exact completes_next rfl ((h.arrives hd fd fc).trans (tokenArrive_repeated hc ha plane))
      ⟨empty, rfl, rfl, rfl, rfl, fun _ => ⟨rfl, rfl, rfl⟩, fun hn => Bool.noConfusion (ha.symm.trans hn)⟩
  | false =>
    refine completes_next rfl ((h.arrives hd fd fc).trans ((tokenArrive_new hc ha plane).trans (deliverTokens_eq ..)))
      ⟨empty, rfl, rfl, rfl, rfl, fun hn => Bool.noConfusion (ha.symm.trans hn), fun _ => ⟨rfl, fun x hx hm hp => ?_⟩⟩
    have order : inOrder tok.srcAgent tok.dstAgent plane (accepted (latchPut s (latchKey plane row col inp cls) none) (tokenTag tok)).iln.held =
        ([x.tok], []) := by
      rw [accepted_single (s := latchPut s _ none) hx hm, inOrder_single hp]
    exact ⟨congrArg (fun y => (y.1.map (Out.tokenDelivered plane)).reverse ++ s.out) order, congrArg Prod.snd order⟩

end

end Sys2Proof.Machine

open Sys2Proof Sys2Proof.Machine

/-- Settles O3: a token at its destination is checked as it arrives, with the errors of the last channel. -/
theorem tokenCheckedAtDestination : Obligations.TokenCheckedAtDestination := by
  unfold Obligations.TokenCheckedAtDestination
  intro s plane row col inp cls fd fc tok ha hp hr hc hi hk hf hl hrow hcol
  have here : TokenAt s plane row col inp cls tok := ⟨ha, hp, hr, hc, hi, hk, hf, hl⟩
  exact ⟨here.checkFails (routeDir_destination hrow hcol), here.checkHolds (routeDir_destination hrow hcol)⟩
end

section
/-! PROOF. Enabling planes: O4 (R41). -/

namespace Sys2Proof.Machine

/-- GLB_ILNCFG has one field, PLANE_EN, which only the trusted world writes and only before the lock. -/
theorem regFind_ilnCfg : regFind GLB_ILNCFG = some ⟨⟨.GLB_ILNCFG, GLB_ILNCFG, [], [⟨0, 4, .rwl, .t⟩], 0xf⟩, []⟩ := by decide

/-- What a trusted write would have GLB_ILNCFG hold: before the lock PLANE_EN is what is written, after it the register keeps its value. -/
def ilnCfgNew (s : State) (val : Word) : Nat :=
  if s.locked then (s.rg GLB_ILNCFG).toNat else putf (s.rg GLB_ILNCFG).toNat F.GLB_ILNCFG_PLANE_EN (fld val.toNat F.GLB_ILNCFG_PLANE_EN)

theorem ofNat_ilnCfgNew_locked {s : State} (h : s.locked = true) (val : Word) : BitVec.ofNat 64 (ilnCfgNew s val) = s.rg GLB_ILNCFG := by
  rw [ilnCfgNew, if_pos h, BitVec.ofNat_toNat, BitVec.setWidth_eq]

theorem fld_ilnCfgNew_unlocked {s : State} (h : s.locked = false) (val : Word) : fld (ilnCfgNew s val) F.GLB_ILNCFG_PLANE_EN = val.toNat % 16 := by
  have e : ilnCfgNew s val = putf (s.rg GLB_ILNCFG).toNat F.GLB_ILNCFG_PLANE_EN (fld val.toNat F.GLB_ILNCFG_PLANE_EN) := if_neg (by simp [h])
  rw [e, fld, putf, getBits_putBits_same, fld, getBits, Nat.mod_mod]
  exact congrArg (· % 16) (Nat.div_one _)

theorem ilnCfgNew_lt (s : State) (val : Word) : ilnCfgNew s val < 2 ^ 64 := by
  unfold ilnCfgNew
  split
  · exact (s.rg GLB_ILNCFG).isLt
  · exact putBits_lt _ _ _ _ _ (s.rg GLB_ILNCFG).isLt (by decide)

/-- A trusted write of GLB_ILNCFG passes its checks. -/
theorem ilnCfg_admitted {s : State} (hopen : ctlOpen s = true) (c : Nat) (val : Word) :
    ∃ w, admitted (.trusted c) GLB_ILNCFG val s w ∧ w.new = ilnCfgNew s val := by
  unfold admitted ctlCheck ilnCfgNew
  rw [if_neg (by decide), if_pos (by decide), regFind_ilnCfg]
  cases s.locked with
  | true => exact ⟨_, ⟨hopen, rfl, rfl⟩, rfl⟩
  | false => exact ⟨_, ⟨hopen, rfl, rfl⟩, rfl⟩

/-- The planes that `new` enables and that are not fenced. -/
def planesLeft (s : State) (new : Nat) : Nat := fld new F.GLB_ILNCFG_PLANE_EN &&& (15 - s.fget GLB_ILNSTAT F.GLB_ILNSTAT_FENCED)

/-- A value that leaves no usable plane is not stored. -/
theorem hookIlnCfg_noPlane {s : State} {new : Nat} (h : planesLeft s new = 0) (idx : List Nat) (old act : Nat) :
    hookIlnCfg idx old new act s = (s, C.GLB_E_NO_PLANE) := if_pos h

/-- One that leaves a usable plane is. -/
theorem hookIlnCfg_planes {s : State} {new : Nat} (h : planesLeft s new ≠ 0) (idx : List Nat) (old act : Nat) :
    hookIlnCfg idx old new act s = (s.setRg GLB_ILNCFG (BitVec.ofNat 64 new), 0) := if_neg h

/-- A core's refused access is recorded in MGT_CTLERR. -/
theorem ctlRecord_trusted_regsKept (c off st : Nat) (s : State) : regsKept (fun o => o = MGT_CTLERR) s (ctlRecord (.trusted c) off st s) :=
  (((regsKept.refl (fun o => o = MGT_CTLERR) s).fset rfl _ _).fset rfl _ _).fset rfl _ _

/-- The end of a core's access leaves every other register, when its status counts no event. -/
theorem ctlEnd_trusted_regsKept (c off st : Nat) (s : State) (h1 : st ≠ C.CTL_E_WORLD) (h2 : st ≠ C.CTL_E_NOT_OWNER) :
    regsKept (fun o => o = MGT_CTLERR) s (ctlEnd (.trusted c) off st s) := by
  unfold ctlEnd ctlNote
  rw [if_neg h1, if_neg h2]
  split
  · exact (ctlRecord_trusted_regsKept c off st s).put _
  · exact (regsKept.refl _ s).put _

/-- A trusted write that would leave no usable plane ends with GLB_E_NO_PLANE and changes only what records it. -/
theorem planeEnWrite_noPlane {s : State} (hopen : ctlOpen s = true) (c : Nat) {val : Word} (h : planesLeft s (ilnCfgNew s val) = 0) :
    completes (.planeEnWrite (.trusted c) val) s (fun t => endedWith (.trusted c) GLB_ILNCFG C.GLB_E_NO_PLANE t ∧
      t = { s with regs := t.regs, out := t.out } ∧ regsKept (fun o => o = MGT_CTLERR) s t) := by
  obtain ⟨w, ha, hw⟩ := ilnCfg_admitted hopen c val
  exact completes_next rfl (rowWrite_admitted ha (hookIlnCfg_noPlane (hw ▸ h) _ _ _)) ⟨ctlEnd_endedWith ..,
    (RegsOnly.refl s).ctlEnd _ _ _ (by decide) (by decide), ctlEnd_trusted_regsKept _ _ _ s (by decide) (by decide)⟩

/-- Any other stores what the lock allows, and ends with status 0. -/
theorem planeEnWrite_planes {s : State} (hopen : ctlOpen s = true) (c : Nat) {val : Word} (h : planesLeft s (ilnCfgNew s val) ≠ 0) :
    completes (.planeEnWrite (.trusted c) val) s (fun t => endedWith (.trusted c) GLB_ILNCFG 0 t ∧ t.rg GLB_ILNCFG = BitVec.ofNat 64 (ilnCfgNew s val) ∧
      t = { s with regs := t.regs, out := t.out } ∧ regsKept (fun o => o = GLB_ILNCFG) s t) := by
  obtain ⟨w, ha, hw⟩ := ilnCfg_admitted hopen c val
  rw [← hw] at h ⊢
  exact completes_next rfl (rowWrite_success ha (hookIlnCfg_planes h _ _ _)) ⟨rfl, s.setRg_rg_same .., rfl,
    (regsKept.refl (fun o => o = GLB_ILNCFG) s).setRg rfl _⟩

end Sys2Proof.Machine

open Sys2Proof Sys2Proof.Machine

/-- Settles O4: the value that the lock lets the register take leaves a usable plane or not. -/
theorem lastPlaneStaysEnabled : Obligations.LastPlaneStaysEnabled := by
  unfold Obligations.LastPlaneStaysEnabled
  intro s c val hopen en
  have unlocked : s.locked = false → planesLeft s (ilnCfgNew s val) = en &&& (15 - s.fget GLB_ILNSTAT F.GLB_ILNSTAT_FENCED) := fun hl => by
    rw [planesLeft, fld_ilnCfgNew_unlocked hl]
  by_cases h : planesLeft s (ilnCfgNew s val) = 0
  · obtain ⟨t, ht, hend, hframe, hkept⟩ := planeEnWrite_noPlane hopen c h
    have same : t.rg GLB_ILNCFG = s.rg GLB_ILNCFG := hkept _ (by decide)
    exact ⟨t, ht, fun _ _ => ⟨same, hend⟩, fun hl hn => absurd h (unlocked hl ▸ hn), fun _ => same, hframe, hkept.mono fun _ => .inr⟩
  · obtain ⟨t, ht, hend, hrg, hframe, hkept⟩ := planeEnWrite_planes hopen c h
    refine ⟨t, ht, fun hl hz => absurd ((unlocked hl).trans hz) h, fun hl _ => ⟨?_, hend⟩, fun hl => hrg.trans (ofNat_ilnCfgNew_locked hl val), hframe,
      hkept.mono fun _ => .inl⟩
    rw [State.fget, hrg, BitVec.toNat_ofNat, Nat.mod_eq_of_lt (ilnCfgNew_lt s val), fld_ilnCfgNew_unlocked hl]
end

section
/-! PROOF. Speed measurements: O5 (R36, R37). -/

namespace Sys2Proof.Machine

/-! START. -/

/-- START starts nothing while CONT is 1. -/
theorem hookSpdCfg_cont {new : Nat} (h : fld new F.GLB_SPDCFG_CONT ≠ 0) (idx : List Nat) (old act : Nat) (s : State) :
    hookSpdCfg idx old new act s = (s.setRg GLB_SPDCFG (BitVec.ofNat 64 new), 0) := if_neg fun hn => h hn.2

theorem hookSpdCfg_start {new act : Nat} (ha : fld act F.GLB_SPDCFG_START = 1) (hc : fld new F.GLB_SPDCFG_CONT = 0) (idx : List Nat) (old : Nat) (s : State) :
    hookSpdCfg idx old new act s =
      ({ (s.setRg GLB_SPDCFG (BitVec.ofNat 64 new)).fset GLB_SPDCFG F.GLB_SPDCFG_DONE 0 with iln := { s.iln with spd := true } }, 0) := if_pos ⟨ha, hc⟩

/-- START stores the register, and begins a single measurement where CONT is 0. -/
theorem start_completes {s : State} {who : Who} {val : Word} {w : CtlWrite} (ha : admitted who GLB_SPDCFG val s w) (hst : fld w.act F.GLB_SPDCFG_START = 1) :
    completes (.start who val) s (fun t => endedWith who GLB_SPDCFG 0 t ∧
      (fld w.new F.GLB_SPDCFG_CONT = 0 → t.iln.spd = true ∧ t.fget GLB_SPDCFG F.GLB_SPDCFG_DONE = 0) ∧
      (fld w.new F.GLB_SPDCFG_CONT ≠ 0 → t.iln = s.iln) ∧
      t = { s with regs := t.regs, out := t.out, iln := { s.iln with spd := t.iln.spd } } ∧ regsKept (fun off => off = GLB_SPDCFG) s t) := by
  have stored := (regsKept.refl (fun off => off = GLB_SPDCFG) s).setRg rfl (BitVec.ofNat 64 w.new)
  by_cases hc : fld w.new F.GLB_SPDCFG_CONT = 0
  · exact completes_next rfl (rowWrite_success ha (hookSpdCfg_start hst hc ..)) ⟨rfl,
      fun _ => ⟨rfl, State.fset_fget_lt (s.setRg GLB_SPDCFG _) _ F.GLB_SPDCFG_DONE 0 (by decide) (by decide)⟩, fun h => absurd hc h, rfl,
      stored.fset rfl F.GLB_SPDCFG_DONE 0⟩
  · exact completes_next rfl (rowWrite_success ha (hookSpdCfg_cont hc ..)) ⟨rfl, fun h => absurd h hc, fun _ => rfl, rfl, stored⟩

/-! The Interlining is apart from the registers. -/

theorem regsKept.setIln {ex : Nat → Prop} {s t : State} (a : regsKept ex s t) (x : IlnState) : regsKept ex s { t with iln := x } := a

theorem State.setIln_fget (s : State) (x : IlnState) (off : Nat) (f : Fld) : ({ s with iln := x } : State).fget off f = s.fget off f := rfl

theorem State.setIln_dram (s : State) (x : IlnState) : ({ s with iln := x } : State).dram = s.dram := rfl

/-! The monitors. -/

/-- Monitor `n` takes its count. -/
def monitorRead (counts : List Nat) (s : State) (n : Nat) : State :=
  (s.fset (GLB_SPDMON n) F.GLB_SPDMON_COUNT (counts.getD n 0)).fset (GLB_SPDMON n) F.GLB_SPDMON_VALID 1

/-- Every monitor has taken its count. -/
def monitorsRead (counts : List Nat) (s : State) : State := (List.range 16).foldl (monitorRead counts) s

theorem GLB_SPDMON_injective : Function.Injective GLB_SPDMON := by
  intro m n h
  unfold GLB_SPDMON at h
  omega

theorem GLB_SPDMON_ne_cfg (n : Nat) : GLB_SPDMON n ≠ GLB_SPDCFG := by
  unfold GLB_SPDMON GLB_SPDCFG
  omega

theorem GLB_SPDMON_ne_min (n : Nat) : GLB_SPDMON n ≠ GLB_SPDMIN := by
  unfold GLB_SPDMON GLB_SPDMIN
  omega

theorem GLB_SPDMON_lt {n : Nat} (h : n < 16) : GLB_SPDMON n < 0x1000 := by
  unfold GLB_SPDMON
  omega

theorem monitorRead_regsKept (counts : List Nat) (s : State) (n : Nat) : regsKept (fun off => off = GLB_SPDMON n) s (monitorRead counts s n) :=
  ((regsKept.refl (fun off => off = GLB_SPDMON n) s).fset rfl _ _).fset rfl _ _

theorem monitorsRead_regsKept (counts : List Nat) (s : State) : regsKept (fun off => ∃ n < 16, off = GLB_SPDMON n) s (monitorsRead counts s) :=
  regsKept.foldl _ _ (fun n hn t => (monitorRead_regsKept counts t n).mono fun _ h => ⟨n, List.mem_range.1 hn, h⟩) s

theorem monitorsRead_regsOnly (counts : List Nat) (s : State) : RegsOnly s (monitorsRead counts s) :=
  RegsOnly.foldl _ (fun t _ => ((RegsOnly.refl t).fset _ _ _).fset _ _ _) _ s

/-- What monitor `n` shows once it has taken its count. -/
def monitorShows (counts : List Nat) (n : Nat) (t : State) : Prop :=
  t.fget (GLB_SPDMON n) F.GLB_SPDMON_VALID = 1 ∧ t.fget (GLB_SPDMON n) F.GLB_SPDMON_COUNT = counts.getD n 0 % 2 ^ F.GLB_SPDMON_COUNT.w

theorem monitorRead_shows (counts : List Nat) (s : State) (n : Nat) : monitorShows counts n (monitorRead counts s n) :=
  ⟨State.fset_fget_lt _ _ _ _ (by decide) (by decide),
    (State.fset_fget_apart _ _ _ _ _ (by decide) (by decide)).trans (State.fset_fget_same _ _ _ _ (by decide))⟩

/-- A monitor shows the same while its register is kept. -/
theorem regsKept.monitorShows {ex : Nat → Prop} {s t : State} (a : regsKept ex s t) {counts : List Nat} {n : Nat} (h : ¬ ex (GLB_SPDMON n))
    (hs : monitorShows counts n s) : monitorShows counts n t := by
  unfold Machine.monitorShows
  rw [a.fget h, a.fget h]
  exact hs

theorem monitorsRead_shows (counts : List Nat) (s : State) {n : Nat} (hn : n < 16) : monitorShows counts n (monitorsRead counts s) := by
  refine foldl_reaches _ (List.mem_range.2 hn) (fun t => monitorRead_shows counts t n) (fun m _ t ht => ?_) s
  by_cases h : n = m
  · exact h ▸ monitorRead_shows counts t n
  · exact (monitorRead_regsKept counts t m).monitorShows (fun e => h (GLB_SPDMON_injective e)) ht

/-! The slowest replica. -/

/-- The pick by `<` is no greater than the first candidate or any of those it looks at. -/
theorem spdPick_le (f : Nat → Nat) (n i b : Nat) :
    f (spdPick f (fun x y => decide (x < y)) n i b) ≤ f b ∧ ∀ j, i ≤ j → j < i + n → f (spdPick f (fun x y => decide (x < y)) n i b) ≤ f j := by
  induction n generalizing i b with
  | zero => exact ⟨Nat.le_refl _, fun j h1 h2 => by omega⟩
  | succ n ih =>
    obtain ⟨best, rest⟩ := ih (i + 1) (if decide (f i < f b) then i else b)
    have both : f (if decide (f i < f b) then i else b) ≤ f b ∧ f (if decide (f i < f b) then i else b) ≤ f i := by
      by_cases h : f i < f b
      · simp [h, Nat.le_of_lt h]
      · simp [h, Nat.le_of_not_lt h]
    refine ⟨best.trans both.1, fun j h1 h2 => ?_⟩
    obtain rfl | h := Nat.eq_or_lt_of_le h1
    · exact best.trans both.2
    · exact rest j h (by omega)

/-- The monitor with the least rate. -/
def slowest (s : State) : Nat := spdPick (spdRate s) (fun a b => decide (a < b)) 15 1 0

/-- The monitor with the greatest rate. -/
def fastest (s : State) : Nat := spdPick (spdRate s) (fun a b => decide (b < a)) 15 1 0

theorem spdRate_slowest_le (s : State) {n : Nat} (hn : n < 16) : spdRate s (slowest s) ≤ spdRate s n := by
  obtain ⟨first, others⟩ := spdPick_le (spdRate s) 15 1 0
  obtain rfl | h := Nat.eq_zero_or_pos n
  · exact first
  · exact others n h (by omega)

/-! What a measurement reports. -/

/-- `t` is `s` with changes of GLB_SPDMIN and of the power status on a wake, and with reports and outputs added. -/
structure AfterAlarms (s t : State) : Prop where
  kept : regsKept (fun off => off = GLB_SPDMIN ∨ off = PWR_STAT) s t
  dram : t.dram = s.dram
  iln : t.iln = s.iln
  reports : ∀ r ∈ s.reports, r ∈ t.reports

theorem AfterAlarms.refl (s : State) : AfterAlarms s s := ⟨regsKept.refl _ s, rfl, rfl, fun _ h => h⟩

theorem AfterAlarms.trans {s t u : State} (a : AfterAlarms s t) (b : AfterAlarms t u) : AfterAlarms s u :=
  ⟨a.kept.trans b.kept, b.dram.trans a.dram, b.iln.trans a.iln, fun r h => b.reports r (a.reports r h)⟩

/-- An interrupt changes registers, the power state and outputs. -/
theorem State.irq_frame (s : State) (n : Nat) : ∃ r k o, s.irq n = { s with regs := r, pst := k, out := o } := by
  obtain h | ⟨c, k, p, h⟩ := s.irq_cases n
  · exact ⟨s.regs, s.pst, s.out, h⟩
  · obtain w | w := coreWoken_cases s <;> rw [h, w] <;> exact ⟨_, _, _, rfl⟩

theorem AfterAlarms.irq (s : State) (n : Nat) : AfterAlarms s (s.irq n) := by
  have kept : regsKept (fun off => off = GLB_SPDMIN ∨ off = PWR_STAT) s (s.irq n) := fun off h => s.irq_rg_other n off fun e => h (.inr e)
  obtain ⟨r, k, o, h⟩ := s.irq_frame n
  rw [h] at kept ⊢
  exact ⟨kept, rfl, rfl, fun _ h => h⟩

/-- A flag of GLB_SPDMIN is set and a report leaves at level 0. -/
def flagged (s : State) (f : Fld) (src code : Nat) : State := (s.fset GLB_SPDMIN f 1).reportAt 0 src 0 code 0 0

theorem AfterAlarms.flagged (s : State) (f : Fld) (src code : Nat) : AfterAlarms s (flagged s f src code) :=
  ⟨(regsKept.refl (fun off => off = GLB_SPDMIN ∨ off = PWR_STAT) s).fset (.inl rfl) f 1, rfl, rfl, fun _ h => List.mem_append_left _ h⟩

/-- The rates and the indices of the slowest and the fastest replica are stored. -/
def ratesStored (s : State) : State :=
  (((s.fset GLB_SPDMIN F.GLB_SPDMIN_MIN (spdRate s (slowest s) / 1000000)).fset GLB_SPDMIN F.GLB_SPDMIN_MINIDX (slowest s)).fset GLB_SPDMIN
    F.GLB_SPDMIN_MAX (spdRate s (fastest s) / 1000000)).fset GLB_SPDMIN F.GLB_SPDMIN_MAXIDX (fastest s)

/-- DONE is set, and no single measurement runs. -/
def measured (s : State) : State := { (ratesStored s).fset GLB_SPDCFG F.GLB_SPDCFG_DONE 1 with iln := { (ratesStored s).iln with spd := false } }

/-- ALARM where the least rate of `s1` is below the threshold of `s`. -/
def alarmStage (s s1 t : State) : State :=
  if spdRate s1 (slowest s1) < s.fget GLB_SPDCFG F.GLB_SPDCFG_ALARM * 1000000 then
    (flagged t F.GLB_SPDMIN_ALARM (srcId 14 (slowest s1 / 4)) C.ILN_W_BELOW_ALARM).irq 8
  else t

/-- SPREAD where the rates of `s1` lie more than 12.5 % apart. -/
def spreadStage (s1 t : State) : State :=
  if spdRate s1 (slowest s1) * 9 < spdRate s1 (fastest s1) * 8 then flagged t F.GLB_SPDMIN_SPREAD (srcId 14 (slowest s1 / 4)) C.GLB_W_MONITOR_SPREAD else t

/-- A measurement window that is running ends. -/
theorem speedMeasurement_eq {s : State} (ha : coreAlive s = true) (hr : s.fget GLB_SPDCFG F.GLB_SPDCFG_CONT = 1 ∨ s.iln.spd = true) (counts : List Nat) :
    speedMeasurement counts s = spreadStage (monitorsRead counts s) (alarmStage s (monitorsRead counts s) (measured (monitorsRead counts s))) := by
  have runs : ¬ (coreAlive s = false ∨ (s.fget GLB_SPDCFG F.GLB_SPDCFG_CONT = 0 ∧ s.iln.spd = false)) := by
    rintro (h | ⟨hc, hs⟩)
    · exact Bool.noConfusion (ha.symm.trans h)
    · obtain h | h := hr
      · exact absurd (h.symm.trans hc) (by decide)
      · exact Bool.noConfusion (h.symm.trans hs)
  exact if_neg runs

theorem alarmStage_after (s s1 t : State) : AfterAlarms t (alarmStage s s1 t) := by
  unfold alarmStage
  split
  · exact (AfterAlarms.flagged ..).trans (AfterAlarms.irq ..)
  · exact AfterAlarms.refl t

theorem spreadStage_after (s1 t : State) : AfterAlarms t (spreadStage s1 t) := by
  unfold spreadStage
  split
  · exact AfterAlarms.flagged ..
  · exact AfterAlarms.refl t

/-- A least rate below the threshold is reported. -/
theorem alarmStage_reports {s s1 : State} (t : State) (h : spdRate s1 (slowest s1) < s.fget GLB_SPDCFG F.GLB_SPDCFG_ALARM * 1000000) :
    ∃ r ∈ (alarmStage s s1 t).reports, r.code = C.ILN_W_BELOW_ALARM ∧ r.level = some 0 := by
  rw [alarmStage, if_pos h]
  exact ⟨_, (AfterAlarms.irq _ 8).reports _ (List.mem_append_right _ (List.mem_singleton_self _)), rfl, rfl⟩

theorem ratesStored_regsOnly (s : State) : RegsOnly s (ratesStored s) :=
  ((((RegsOnly.refl s).fset _ _ _).fset _ _ _).fset _ _ _).fset _ _ _

theorem ratesStored_regsKept (s : State) : regsKept (fun off => off = GLB_SPDMIN) s (ratesStored s) :=
  ((((regsKept.refl (fun off => off = GLB_SPDMIN) s).fset rfl _ _).fset rfl _ _).fset rfl _ _).fset rfl _ _

theorem measured_regsKept (s : State) : regsKept (fun off => off = GLB_SPDMIN ∨ off = GLB_SPDCFG) s (measured s) := by
  unfold measured
  exact (((ratesStored_regsKept s).mono fun _ => .inl).fset (.inr rfl) F.GLB_SPDCFG_DONE 1).setIln _

theorem measured_dram (s : State) : (measured s).dram = s.dram := by
  rw [measured, State.setIln_dram, State.fset_dram, (ratesStored_regsOnly s).dram]

theorem measured_done (s : State) : (measured s).fget GLB_SPDCFG F.GLB_SPDCFG_DONE = 1 := by
  rw [measured, State.setIln_fget, State.fset_fget_lt _ _ _ _ (by decide) (by decide)]

theorem measured_window (s : State) : (measured s).fget GLB_SPDCFG F.GLB_SPDCFG_WINDOW = s.fget GLB_SPDCFG F.GLB_SPDCFG_WINDOW := by
  rw [measured, State.setIln_fget, State.fset_fget_apart _ _ _ _ _ (by decide) (by decide)]
  exact (ratesStored_regsKept s).fget (by decide) _

/-- All that a measurement changes once the monitors have taken their counts. -/
structure MeasurementEnds (s t : State) : Prop where
  kept : regsKept (fun off => off = GLB_SPDMIN ∨ off = GLB_SPDCFG ∨ off = PWR_STAT) s t
  dram : t.dram = s.dram
  idle : t.iln.spd = false
  done : t.fget GLB_SPDCFG F.GLB_SPDCFG_DONE = 1
  window : t.fget GLB_SPDCFG F.GLB_SPDCFG_WINDOW = s.fget GLB_SPDCFG F.GLB_SPDCFG_WINDOW

theorem AfterAlarms.measurementEnds {s t : State} (a : AfterAlarms (measured s) t) : MeasurementEnds s t where
  kept := ((measured_regsKept s).mono fun _ => Or.imp_right .inl).trans (a.kept.mono fun _ => Or.imp_right .inr)
  dram := a.dram.trans (measured_dram s)
  idle := congrArg IlnState.spd a.iln
  done := (a.kept.fget (by decide) _).trans (measured_done s)
  window := (a.kept.fget (by decide) _).trans (measured_window s)

/-- The registers of the monitors are apart from those that a measurement changes after them. -/
theorem GLB_SPDMON_apart {n : Nat} (hn : n < 16) : ¬ (GLB_SPDMON n = GLB_SPDMIN ∨ GLB_SPDMON n = GLB_SPDCFG ∨ GLB_SPDMON n = PWR_STAT) := by
  have := GLB_SPDMON_lt hn
  rintro (h | h | h)
  · exact GLB_SPDMON_ne_min n h
  · exact GLB_SPDMON_ne_cfg n h
  · unfold PWR_STAT at h
    omega

/-- The rates stay what they were when the monitors had taken their counts. -/
theorem MeasurementEnds.spdRate {s t : State} (a : MeasurementEnds s t) {n : Nat} (hn : n < 16) : spdRate t n = spdRate s n := by
  unfold Machine.spdRate spdWindow
  rw [a.kept.fget (GLB_SPDMON_apart hn), a.kept.fget (GLB_SPDMON_apart hn), a.window]

/-- A measurement that is running ends: DONE, the monitors' counts, and the report of a rate below the threshold. -/
theorem speedMeasurement_completes {s : State} (counts : List Nat) (ha : coreAlive s = true)
    (hr : s.fget GLB_SPDCFG F.GLB_SPDCFG_CONT = 1 ∨ s.iln.spd = true) :
    completes (.speedMeasurement counts) s (fun t => t.fget GLB_SPDCFG F.GLB_SPDCFG_DONE = 1 ∧ t.iln.spd = false ∧
      (∀ n < 16, t.fget (GLB_SPDMON n) F.GLB_SPDMON_VALID = 1 ∧ t.fget (GLB_SPDMON n) F.GLB_SPDMON_COUNT = counts.getD n 0 % 2 ^ F.GLB_SPDMON_COUNT.w) ∧
      ((∃ n < 16, spdRate t n < s.fget GLB_SPDCFG F.GLB_SPDCFG_ALARM * 1000000) →
        ∃ r ∈ t.reports, r.code = C.ILN_W_BELOW_ALARM ∧ r.level = some 0) ∧
      t.dram = s.dram ∧ regsKept (fun off => off < 0x1000 ∨ counterReg off = true ∨ off = PWR_STAT) s t) := by
  have spread := spreadStage_after (monitorsRead counts s) (alarmStage s (monitorsRead counts s) (measured (monitorsRead counts s)))
  have ends := ((alarmStage_after s (monitorsRead counts s) _).trans spread).measurementEnds
  refine completes_next rfl (speedMeasurement_eq ha hr counts) ⟨ends.done, ends.idle,
    fun n hn => ends.kept.monitorShows (GLB_SPDMON_apart hn) (monitorsRead_shows counts s hn), fun ⟨n, hn, h⟩ => ?_,
    ends.dram.trans (monitorsRead_regsOnly counts s).dram, ?_⟩
  · rw [ends.spdRate hn] at h
    obtain ⟨r, hmem, hcode⟩ := alarmStage_reports (measured (monitorsRead counts s)) (Nat.lt_of_le_of_lt (spdRate_slowest_le _ hn) h)
    exact ⟨r, spread.reports r hmem, hcode⟩
  · refine ((monitorsRead_regsKept counts s).mono ?_).trans (ends.kept.mono ?_)
    · rintro _ ⟨n, hn, rfl⟩
      exact .inl (GLB_SPDMON_lt hn)
    · rintro _ (rfl | rfl | h)
      · exact .inl (by decide)
      · exact .inl (by decide)
      · exact .inr (.inr h)

end Sys2Proof.Machine

open Sys2Proof Sys2Proof.Machine

/-- Settles O5: START is a write of its register, and a measurement goes through its stages. -/
theorem speedMeasurementRuns : Obligations.SpeedMeasurementRuns :=
  ⟨fun _ _ _ _ => start_completes, fun _ counts => speedMeasurement_completes counts⟩
end

section
/-! PROOF. O44 is refuted: a write-back of an owner is not completed where the key slot of its page is EMPTY (R194). -/

namespace Sys2Proof.Machine

/-- A command answers one state, so that it completes with what holds of that state. -/
theorem completes_iff {c : Instr} {s u : State} {P : State → Prop} (h : exec c s = .next u) : completes c s P ↔ P u := by
  constructor
  · rintro ⟨t, ht, hp⟩
    rw [Host.Outcome.next.inj (h.symm.trans ht)]
    exact hp
  · exact fun hp => ⟨u, h, hp⟩

/-- A write-back reaches its slice as HOME_WRITE_BACK. -/
theorem exec_homeWriteBack {r : HomeReq} (h : r.kind = .writeBack) (s : State) : exec (.homeWriteBack r) s = .next (writeBackArrives r s) :=
  congrArg Host.Outcome.next (if_pos h)

/-- The write-back of a whole line by port 0, which keeps nothing of it. -/
def ownerBackReq : HomeReq :=
  { kind := .writeBack, who := .port 0 5 0, la := 0, data := 0x99, mask := 2 ^ 64 - 1, poison := false, master := 0, mval := 0 }

/-- The descriptor of page 0: HOT, under slot 0 of key region 0. -/
def keylessDesc : Desc := mkHot stHOT 0 0 0 0 0 0

/-- What the line cache has of line 0. -/
def keylessLine : LcEntry := ⟨false, 0, .clean, 0x77, 0, 0⟩

/-- Port 0 owns line 0 in E. -/
def keylessOwner : DirEntry := ⟨2, 1, 0, 0, 0⟩

/-- Line 0 is cached and owned by port 0, whose write-back is on its way; the key slot that its page names is EMPTY, as after reset. -/
def keyless : State :=
  { (State.reset.fset TIR_EXTENT F.TIR_EXTENT_L3G 1).fset (PRT_CFG 0) F.PRT_CFG_MODE 0 with
    tier := { State.reset.tier with dc := [(0, some ⟨0, keylessDesc, false, false, 0, false⟩)], lc := [(0, some keylessLine)] }
    home := { State.reset.home with toHome := [ownerBackReq], dirEnt := [(0, some keylessOwner)] }
    ports := [(0, { Port.init with trk := [⟨5, true, 0, 0, 0⟩], dec := [(0, some ⟨2 ^ 28, 2 ^ 28, 0, 1, 256, true, false⟩)] })] }

theorem homeQuiet_keyless : homeQuiet keyless 0 := by
  unfold homeQuiet nothingWaits
  decide +kernel

theorem lineCached_keyless : lineCached keyless 0 0 keylessLine := ⟨by decide +kernel, .inl rfl⟩

theorem onlyHolder_keyless : onlyHolder keyless 0 keylessOwner := ⟨0, rfl, by decide +kernel⟩

/-- The write-back is refused (R194): the host gets no completion. -/
theorem writeBackArrives_keyless_out : (writeBackArrives ownerBackReq keyless).out = [] := by decide +kernel

end Sys2Proof.Machine

open Sys2Proof Sys2Proof.Machine

/-- Refutes O44: its clause of an owner's whole-line MemWr does not ask that the page's writes are admitted. In `keyless` the key slot of the page is EMPTY, so
that the write-back is refused and its completion withheld (R194), where the clause has the host completed. -/
theorem not_homeServesRequests : ¬ Obligations.HomeServesRequests := by
  unfold Obligations.HomeServesRequests
  rintro ⟨-, hosts, -⟩
  have tracked : ∃ q ∈ (keyless.port 0).trk, q.tag = 5 := ⟨_, List.mem_singleton_self _, rfl⟩
  obtain ⟨-, owner⟩ := hosts keyless 0 0 0 5 keylessLine ownerBackReq (by decide) (by decide) homeQuiet_keyless lineCached_keyless (by decide +kernel) rfl rfl
    (by decide +kernel) rfl tracked
  obtain ⟨back, -⟩ := owner keylessOwner onlyHolder_keyless rfl
  obtain ⟨byBack, -⟩ := back keylessDesc rfl rfl rfl rfl rfl rfl (by decide +kernel) (by decide +kernel)
  obtain ⟨⟨mv, load, -, out⟩, -⟩ := (completes_iff (exec_homeWriteBack rfl keyless)).1 byBack
  rw [writeBackArrives_keyless_out] at out
  exact List.cons_ne_nil _ _ out.symm
end

section
/-! PROOF. A device with memory whose channels are in service: the ground of the states that refute O46 and O47. -/

namespace Sys2Proof.Machine

/-- Both groups' channels are in service, with 2^22 frames each. -/
def channelsServe (s : State) : State :=
  (List.range 24).foldl (fun t c => (t.fset (DCH_STAT c) F.DCH_STAT_STATE csIN_SERVICE).fset (DCH_WMARK c) F.DCH_WMARK_END (2 ^ 22)) s

/-- An extent of 3 GiB, with a mirror pool and a cold area in group 0; slot 0 of key region 0 is LIVE, and ACC counts no write-back. -/
def deviceServes : State :=
  channelsServe ((((((State.reset.fset TIR_EXTENT F.TIR_EXTENT_L3G 1).fset TIR_LAYOUT F.TIR_LAYOUT_DSIZE 1).fset (TIR_GLAYOUT 0) F.TIR_GLAYOUT_MSIZE 1).fset
    (TIR_GLAYOUT 0) F.TIR_GLAYOUT_CSIZE 1).fset (KEY_RCTL 0) F.KEY_RCTL_LIVE 1).fset TIR_CFG F.TIR_CFG_ACC_WB 0)

/-- `nothingWaits`, as a computation. -/
def nothingWaitsNow (s : State) : Bool :=
  decide (s.home.waiting = [] ∧ s.home.arrived = [] ∧ s.tier.wbQueue = [] ∧ (∀ x ∈ s.ports, x.2.releasing = []) ∧
    ∀ x ∈ s.tier.dc, x.2.isSome = true → bankOut s (dcBank x.1) = false)

theorem nothingWaitsNow_iff {s : State} : nothingWaitsNow s = true ↔ nothingWaits s := decide_eq_true_iff

end Sys2Proof.Machine
end

section
/-! PROOF. O46 is refuted: a promotion loses its page's descriptor where the set of the descriptor's copy is full of entries of the page itself (R72, R129, R425). -/

namespace Sys2Proof.Machine

/-- The state that a page operation has ended in, where it has been made. -/
def OpRes.made : OpRes → Option State
  | .ok s => some s
  | _ => none

theorem OpRes.made_eq_some {x : OpRes} {s : State} (h : x.made = some s) : x = .ok s := by
  cases x with
  | ok t => exact congrArg OpRes.ok (Option.some.inj h)
  | wait | failed | error => cases h

/-- The line whose eviction promotes page 3, and its way. -/
def strayLa : Nat := 3 * 4096 + 64
def strayWay : Nat := lcBase strayLa
def strayLine : LcEntry := ⟨false, strayLa / 64, .dirty, 0x77, 3, 0⟩

/-- The descriptor of page 3: COLD with SIZE 0, ACC 5. -/
def zeroPageDesc : Desc := mkCold 0 0 5 0 0 [] 0

/-- An entry of page 3. -/
def strayEntry : DcEntry := ⟨3, zeroPageDesc, false, false, 0, false⟩

/-- Page 3 is cached in its set and has a dirty line; every way of the partner share's set, where the page's copy goes, holds an entry of page 3 too, which
belongs in the page's own set only. -/
def strayDescriptors : State :=
  { deviceServes with
    chans := [(0, { Chan.init with fifoP := [3 * gib + 9] })]
    tier := { deviceServes.tier with
      dc := (dcBase 3, some strayEntry) :: (List.range 16).map fun w => (dcCopyBase 3 + w, some strayEntry)
      lc := [(strayWay, some strayLine)] } }

theorem nothingWaits_strayDescriptors : nothingWaits strayDescriptors := nothingWaitsNow_iff.1 (by decide +kernel)

/-- The promotion that the eviction of the page's line asks for. -/
def strayPromotion : OpRes :=
  promotePage (dcTouch strayDescriptors (strayLa / 4096)) (strayLa / 4096) (strayLa / 4096 * 4096) zeroPageDesc (some strayLa)
    (some (strayLa / 64 % 64, strayLine.data, false))

/-- It is made, and leaves the line in its way and nothing that waits. -/
theorem strayPromotion_made : ∃ t, strayPromotion = .ok t ∧ t.tier.promos = [] ∧ t.fget TIR_CFG F.TIR_CFG_ACC_WB = 0 ∧ nothingWaits t ∧
    lcFind t strayLa = some (strayWay, strayLine) := by
  have made : strayPromotion.made.any (fun t => decide (t.tier.promos = [] ∧ t.fget TIR_CFG F.TIR_CFG_ACC_WB = 0 ∧ nothingWaitsNow t = true ∧
    lcFind t strayLa = some (strayWay, strayLine))) = true := by decide +kernel
  obtain ⟨t, ht, left⟩ := (Option.any_eq_true ..).1 made
  obtain ⟨promos, count, quiet, cached⟩ := of_decide_eq_true left
  exact ⟨t, OpRes.made_eq_some ht, promos, count, nothingWaitsNow_iff.1 quiet, cached⟩

/-- Making room for its copy drops the page's own entry: the page is cached no more. -/
theorem descOf_promotion_strayDescriptors : descOf (promotion strayLa strayDescriptors) (strayLa / 4096) = none :=
  Option.isNone_iff_eq_none.1 (by decide +kernel)

end Sys2Proof.Machine

open Sys2Proof Sys2Proof.Machine

/-- Refutes O46: its clause of PROMOTION does not ask that each descriptor lies in its page's set. In `strayDescriptors` the set that takes the copy of the
promoted descriptor (R425) is full of entries of the same page; the entry that makes room is looked up by its page, so that the page's own, busy as it is, is
dropped, where the clause has the page HOT. -/
theorem not_descriptorCacheFlushAndPleat : ¬ Obligations.DescriptorCacheFlushAndPleat := by
  unfold Obligations.DescriptorCacheFlushAndPleat
  rintro ⟨-, -, -, -, -, -, promotes⟩
  obtain ⟨s1, made, noPromos, noCount, quiet, cached⟩ := strayPromotion_made
  have promoted := promotes strayDescriptors s1 strayLa strayWay strayLine zeroPageDesc (by decide) (by decide) (by decide +kernel) (by decide +kernel) rfl
    (by decide +kernel) (by decide +kernel) (by decide +kernel) (by decide +kernel) (by decide +kernel) (by decide +kernel) rfl nothingWaits_strayDescriptors
    made noPromos noCount quiet cached
  obtain ⟨-, -, -, -, d, found, -⟩ := (completes_iff rfl).1 promoted
  rw [descOf_promotion_strayDescriptors] at found
  exact absurd found nofun
end

section
/-! PROOF. O47 is refuted: sectors of a stripe that is written while a row test has their line go to the test's buffer, and the cells keep the test's pattern (R134, R405). -/

namespace Sys2Proof.Machine

/-! A line in the buffer of a row test (R405). -/

/-- The running row test of channel `c` has the line of key `k` in its buffer. -/
def rowBuffered (s : State) (c k : Nat) : Prop := ∃ t, (s.chan c).rowTest = some t ∧ t.buf.any (fun q => q.key == k) = true

theorem rowBuffered_congr {s t : State} {c k : Nat} (h : (t.chan c).rowTest = (s.chan c).rowTest) : rowBuffered t c k ↔ rowBuffered s c k := by
  rw [rowBuffered, h, rowBuffered]

@[simp] theorem mergeDrop_rowTest (s : State) (c f l c' : Nat) : ((mergeDrop s c f l).chan c').rowTest = (s.chan c').rowTest := by
  unfold mergeDrop
  split
  · rfl
  · rw [State.setChan_chan]
    split
    · next e => rw [e]
    · rfl

/-- A write of a buffered line goes to the buffer: the cells are not written. -/
theorem linePut_dram_of_rowBuffered {s : State} {c : Nat} {r : RowLine} (h : rowBuffered s c r.key) : (linePut s c r).dram = s.dram := by
  obtain ⟨t, ht, hk⟩ := h
  simp only [linePut, ht, hk, if_true, State.setChan_dram]

/-- Replacing the entry of a key takes no key out of a buffer. -/
theorem any_key_replaced (r : RowLine) (l : List RowLine) (k : Nat) :
    (l.map fun q => if q.key = r.key then r else q).any (fun q => q.key == k) = l.any (fun q => q.key == k) := by
  have same : ∀ q : RowLine, (if q.key = r.key then r else q).key = q.key := fun q => by
    split
    · next e => exact e.symm
    · rfl
  rw [List.any_map]
  exact congrArg l.any (funext fun q => by rw [Function.comp_apply, same])

theorem linePut_rowBuffered {s : State} {c k : Nat} (h : rowBuffered s c k) (c' : Nat) (r : RowLine) : rowBuffered (linePut s c' r) c k := by
  simp only [linePut]
  split
  · next t ht =>
    split
    · by_cases e : c = c'
      · subst e
        obtain ⟨t', ht', hk⟩ := h
        obtain rfl : t = t' := Option.some.inj (ht.symm.trans ht')
        exact ⟨_, by rw [State.chan_setChan], by rw [any_key_replaced]; exact hk⟩
      · exact (rowBuffered_congr (by rw [State.setChan_chan, if_neg e])).2 h
    · exact h
  · exact h

/-! What the writes of a stripe keep of such a line of channel 0. -/

/-- From `s` to `t` the line of key `k` stays in the buffer of channel 0's row test, its cells are not written, and the tiers, the slices and the ports are
not touched. -/
structure KeepsBuffered (k : Nat) (s t : State) : Prop where
  buffered : rowBuffered s 0 k → rowBuffered t 0 k
  cells : rowBuffered s 0 k → tabGet (fun _ => (0 : Line)) t.dram.lines k = tabGet (fun _ => (0 : Line)) s.dram.lines k
  tier : t.tier = s.tier
  home : t.home = s.home
  ports : t.ports = s.ports

namespace KeepsBuffered

variable {k : Nat} {s t u : State}

theorem refl (s : State) : KeepsBuffered k s s := ⟨id, fun _ => rfl, rfl, rfl, rfl⟩

theorem trans (a : KeepsBuffered k s t) (b : KeepsBuffered k t u) : KeepsBuffered k s u :=
  ⟨b.buffered ∘ a.buffered, fun h => (b.cells (a.buffered h)).trans (a.cells h), b.tier.trans a.tier, b.home.trans a.home, b.ports.trans a.ports⟩

theorem foldl {α : Type} {f : State → α → State} (h : ∀ s x, KeepsBuffered k s (f s x)) (l : List α) (s : State) : KeepsBuffered k s (l.foldl f s) := by
  induction l generalizing s with
  | nil => exact refl s
  | cons x r ih => exact (h s x).trans (ih _)

end KeepsBuffered

theorem ev_keepsBuffered (k : Nat) (s : State) (e : Nat) : KeepsBuffered k s (s.ev e) where
  buffered := (rowBuffered_congr (by simp only [State.chan, State.ev_chans])).2
  cells _ := by rw [State.ev_dram]
  tier := s.ev_tier e
  home := s.ev_home e
  ports := s.ev_ports e

/-- A key below 2^34 names a line of channel 0. -/
theorem chan_of_dramKey_lt {c f l : Nat} (h : dramKey c f l < 2 ^ 34) : c = 0 := by
  unfold dramKey at h
  omega

theorem mergeDrop_frame (s : State) (c f l : Nat) : ∃ x, mergeDrop s c f l = { s with chans := x } := by
  unfold mergeDrop
  split
  · exact ⟨s.chans, rfl⟩
  · exact ⟨_, rfl⟩

theorem linePut_frame (s : State) (c : Nat) (r : RowLine) : ∃ d x, linePut s c r = { s with dram := d, chans := x } := by
  simp only [linePut]
  repeat' split
  all_goals exact ⟨_, _, rfl⟩

/-- A write of a line changes the cells, its channel and the event counters only. -/
theorem dramWrite_frame (c f l : Nat) (d : Line) (poison : Bool) (s : State) :
    ∃ r n m x, dramWrite c f l d poison s = { s with regs := r, levelNs := n, dram := m, chans := x } := by
  obtain ⟨x, hx⟩ := mergeDrop_frame s c f l
  obtain ⟨m, y, hy⟩ := linePut_frame (mergeDrop s c f l) c ⟨dramKey c f l, d, poison, 0⟩
  obtain ⟨r, n, hr⟩ := (linePut (mergeDrop s c f l) c ⟨dramKey c f l, d, poison, 0⟩).ev_frame (0x100 + 16 * c + 2)
  exact ⟨r, n, m, y, hr.trans (by rw [hy, hx])⟩

theorem dramWrite_keepsBuffered {k : Nat} (hk : k < 2 ^ 34) (c f l : Nat) (d : Line) (poison : Bool) (s : State) :
    KeepsBuffered k s (dramWrite c f l d poison s) := by
  have dropped : rowBuffered s 0 k → rowBuffered (mergeDrop s c f l) 0 k := (rowBuffered_congr (mergeDrop_rowTest s c f l 0)).2
  obtain ⟨r, n, m, x, frame⟩ := dramWrite_frame c f l d poison s
  refine ⟨fun h => (ev_keepsBuffered k _ _).buffered (linePut_rowBuffered (dropped h) _ _), fun h => ?_, by rw [frame], by rw [frame], by rw [frame]⟩
  by_cases e : k = dramKey c f l
  · subst e
    obtain rfl := chan_of_dramKey_lt hk
    have cells : (dramWrite 0 f l d poison s).dram = s.dram :=
      (State.ev_dram ..).trans ((linePut_dram_of_rowBuffered (r := ⟨dramKey 0 f l, d, poison, 0⟩) (dropped h)).trans (mergeDrop_dram ..))
    rw [cells]
  · exact (dramWrite_others c f l d poison s k e).1

theorem chunkWrite_keepsBuffered {k : Nat} (hk : k < 2 ^ 34) (s : State) (o : OpenStripe) (pos : Nat) : KeepsBuffered k s (chunkWrite s o pos) := by
  have written := KeepsBuffered.foldl (fun t l => dramWrite_keepsBuffered hk (12 * o.group + pos) (coldBase s o.group + o.idx) l (chunkLine o pos l) false t)
    (List.range 64) s
  simp only [chunkWrite]
  split
  · exact written.trans ⟨(rowBuffered_congr (by
      rw [State.setChan_chan]
      split
      · next e => rw [e]; rfl
      · rfl)).2, fun _ => rfl, rfl, rfl, rfl⟩
  · exact written.trans ⟨id, fun _ => rfl, rfl, rfl, rfl⟩

/-- The write of a group's closed stripe, all of whose channels take writes (R134). -/
theorem stripeWritten_inService {s : State} {g : Nat} {o : OpenStripe} (ho : s.tier.stripes = [o]) (hg : o.group = g) (hc : o.closed = true)
    (hopen : coreOpen s = true) (hout : chansOut s g = []) :
    stripeWritten g o.idx s = evTIR (9 + g) ((List.range 12).foldl (fun t p => chunkWrite t o p) (setStripes s [])) := by
  unfold stripeWritten
  simp [ho, hg, hc, hopen, hout]

/-- Through such a write, and the turn of the waiting work after it, a line in the buffer of channel 0's row test keeps what its cells hold. -/
theorem stripeWritten_cells_of_rowBuffered {k : Nat} (hk : k < 2 ^ 34) {s : State} {g : Nat} {o : OpenStripe} (ho : s.tier.stripes = [o]) (hg : o.group = g)
    (hc : o.closed = true) (hopen : coreOpen s = true) (hout : chansOut s g = []) (hq : nothingWaits s) (hd : s.tier.dc = []) (hb : rowBuffered s 0 k) :
    tabGet (fun _ => (0 : Line)) (pump (stripeWritten g o.idx s)).dram.lines k = tabGet (fun _ => (0 : Line)) s.dram.lines k := by
  rw [stripeWritten_inService ho hg hc hopen hout]
  have kept := (KeepsBuffered.foldl (chunkWrite_keepsBuffered hk · o) (List.range 12) (setStripes s [])).trans (ev_keepsBuffered k _ (0x390 + (9 + g)))
  obtain ⟨waiting, arrived, queue, releasing, -⟩ := hq
  have quiet : nothingWaits (evTIR (9 + g) ((List.range 12).foldl (fun t p => chunkWrite t o p) (setStripes s []))) := by
    rw [nothingWaits, evTIR, kept.home, kept.tier, kept.ports]
    exact ⟨waiting, arrived, queue, releasing, fun x hx => absurd (hd ▸ hx : x ∈ []) List.not_mem_nil⟩
  rw [pump_quiet quiet]
  exact kept.cells hb

/-! The state that refutes O47. -/

/-- A closed stripe with the one sector 0x55; its parity lies in channel 1. -/
def stripeToWrite : OpenStripe := ⟨0, 13, [(0, 0x55)], 1, true, 0⟩

/-- The stripe awaits its write. -/
def stripeWaits : State := { deviceServes with tier := { deviceServes.tier with stripes := [stripeToWrite] } }

/-- Frame of the stripe's chunks. -/
def stripeFrame : Nat := coldBase stripeWaits 0 + stripeToWrite.idx

/-- A corrected error in channel 0's chunk has started the test of its row (R405). -/
def rowTestRuns : State := rowTestReq stripeWaits 0 (framePa stripeWaits 0 stripeFrame 0)

theorem nothingWaits_rowTestRuns : nothingWaits rowTestRuns := nothingWaitsNow_iff.1 (by decide +kernel)

/-- The place of the stripe's first sector is in the test's buffer. -/
theorem rowBuffered_rowTestRuns : rowBuffered rowTestRuns 0 (dramKey 0 stripeFrame 0) := by
  have h : (rowTestRuns.chan 0).rowTest.any (fun t => t.buf.any (fun q => q.key == dramKey 0 stripeFrame 0)) = true := by decide +kernel
  exact (Option.any_eq_true ..).1 h

/-- With the stripe written, the cells of its first sector hold the test's pattern. -/
theorem firstSector_rowTestRuns :
    tabGet (fun _ => (0 : Line)) (pump (stripeWritten 0 stripeToWrite.idx rowTestRuns)).dram.lines (dramKey 0 stripeFrame 0) = 0 := by
  have kept := stripeWritten_cells_of_rowBuffered (s := rowTestRuns) (g := 0) (o := stripeToWrite) (by decide +kernel) (by decide +kernel) rfl rfl
    (by decide +kernel) (by decide +kernel) nothingWaits_rowTestRuns (by decide +kernel) rowBuffered_rowTestRuns
  exact kept.trans (by decide +kernel)

end Sys2Proof.Machine

open Sys2Proof Sys2Proof.Machine

/-- Refutes O47: its clause of STRIPE_WRITTEN reads the cells, and does not ask that no row test runs. In `rowTestRuns` a row test of channel 0 has the stripe's
row in its buffer, and takes the chunk there (R405): the cells of the first sector, 0x55, hold the test's pattern 0. -/
theorem not_coldLogKeepsParity : ¬ Obligations.ColdLogKeepsParity := by
  unfold Obligations.ColdLogKeepsParity
  rintro ⟨-, writes, -⟩
  have written := writes rowTestRuns 0 stripeToWrite (by decide) (by decide +kernel) rfl rfl (by decide +kernel) nothingWaits_rowTestRuns (by decide +kernel)
  obtain ⟨-, -, -, sectors, -⟩ := (completes_iff rfl).1 written
  have place : ((12 * 0 + (if 0 < stripeToWrite.idx % 12 then 0 else 0 + 1)) * 2 ^ 28 + (coldBase rowTestRuns 0 + stripeToWrite.idx)) * 64 + 0 =
    dramKey 0 stripeFrame 0 := by decide +kernel
  have first := sectors 0 (by decide) 0 (by decide)
  beta_reduce at first
  rw [place, firstSector_rowTestRuns] at first
  exact absurd first (by decide +kernel)
end

section
/-! PROOF. Heads: what an update of a port, an MSI-X vector, an event record, an interrupt and the end of a mailbox command change, and what of the registers a
head reads (R84, R91, R94, R97, R108, R110). -/

namespace Sys2Proof.Machine

/-! A port after an update. -/

@[simp] theorem portUpd_port (s : State) (p k : Nat) (f : Port → Port) : (portUpd s p f).port k = if k = p then f (s.port p) else s.port k :=
  State.setPort_port ..

@[simp] theorem State.setRg_port (s : State) (off : Nat) (v : Word) (k : Nat) : (s.setRg off v).port k = s.port k := rfl
@[simp] theorem State.fset_port (s : State) (off : Nat) (f : Fld) (v k : Nat) : (s.fset off f v).port k = s.port k := rfl
@[simp] theorem State.fsat_port (s : State) (off : Nat) (f : Fld) (n k : Nat) : (s.fsat off f n).port k = s.port k := rfl
@[simp] theorem State.put_port (s : State) (o : Out) (k : Nat) : (s.put o).port k = s.port k := rfl
@[simp] theorem State.reportAt_port (s : State) (l a b c d e k : Nat) : (s.reportAt l a b c d e).port k = s.port k := rfl
@[simp] theorem State.diagSet_port (s : State) (d i n k : Nat) : (s.diagSet d i n).port k = s.port k := rfl
@[simp] theorem State.diagAdd_port (s : State) (d i n k : Nat) : (s.diagAdd d i n).port k = s.port k := rfl
@[simp] theorem State.diagLog_port (s : State) (d i n : Nat) (x : Nat × Nat) (k : Nat) : (s.diagLog d i n x).port k = s.port k := rfl
@[simp] theorem State.ev_port (s : State) (e k : Nat) : (s.ev e).port k = s.port k := congrArg (tabGet _ · k) (s.ev_ports e)

/-! An interrupt. -/

/-- What reads neither registers nor the power state nor outputs is the same after an interrupt. -/
theorem State.irq_same {β : Type} (f : State → β) (h : ∀ (t : State) r k o, f { t with regs := r, pst := k, out := o } = f t) (s : State) (n : Nat) :
    f (s.irq n) = f s := by
  obtain ⟨r, k, o, e⟩ := s.irq_frame n
  rw [e]
  exact h s r k o

@[simp] theorem State.irq_port (s : State) (n k : Nat) : (s.irq n).port k = s.port k := State.irq_same (·.port k) (fun _ _ _ _ => rfl) s n
@[simp] theorem State.irq_time (s : State) (n : Nat) : (s.irq n).time = s.time := State.irq_same _ (fun _ _ _ _ => rfl) s n
@[simp] theorem State.irq_mgmt (s : State) (n : Nat) : (s.irq n).mgmt = s.mgmt := State.irq_same _ (fun _ _ _ _ => rfl) s n
@[simp] theorem State.irq_chan (s : State) (n c : Nat) : (s.irq n).chan c = s.chan c := State.irq_same (·.chan c) (fun _ _ _ _ => rfl) s n
@[simp] theorem State.irq_home (s : State) (n : Nat) : (s.irq n).home = s.home := State.irq_same _ (fun _ _ _ _ => rfl) s n

theorem State.irq_regsKept (s : State) (n : Nat) : regsKept (fun off => off = PWR_STAT) s (s.irq n) := fun off h => s.irq_rg_other n off h

theorem State.fset_regsKept (s : State) (off : Nat) (f : Fld) (v : Nat) : regsKept (fun o => o = off) s (s.fset off f v) :=
  (regsKept.refl (fun o => o = off) s).fset rfl f v

theorem portUpd_regsKept (ex : Nat → Prop) (s : State) (p : Nat) (f : Port → Port) : regsKept ex s (portUpd s p f) := .of_regs rfl

/-! Nothing but one head changes. -/

/-- Nothing but port `p` and the outputs differs. -/
structure HeadOnly (p : Nat) (s t : State) : Prop where
  frame : t = { s with ports := t.ports, out := t.out }
  others : ∀ q, q ≠ p → t.port q = s.port q

namespace HeadOnly

variable {p : Nat} {s t u : State}

theorem refl (p : Nat) (s : State) : HeadOnly p s s := ⟨rfl, fun _ _ => rfl⟩

theorem trans (a : HeadOnly p s t) (b : HeadOnly p t u) : HeadOnly p s u :=
  ⟨by rw [b.frame, a.frame], fun q h => (b.others q h).trans (a.others q h)⟩

theorem setPort (a : HeadOnly p s t) (x : Port) : HeadOnly p s (t.setPort p x) :=
  a.trans ⟨rfl, fun q h => (t.setPort_port p q x).trans (if_neg h)⟩

theorem portUpd (a : HeadOnly p s t) (f : Port → Port) : HeadOnly p s (portUpd t p f) := a.setPort _

theorem put (a : HeadOnly p s t) (o : Out) : HeadOnly p s (t.put o) := a.trans ⟨rfl, fun _ _ => rfl⟩

theorem msix (a : HeadOnly p s t) (v : Nat) : HeadOnly p s (msix t p v) := by
  unfold Machine.msix
  dsimp only
  split
  · exact a.setPort _
  · exact a.put _

theorem portEventIn (a : HeadOnly p s t) (log st src dpa len : Nat) : HeadOnly p s (portEventIn t p log st src dpa len) := by
  unfold Machine.portEventIn
  dsimp only
  split_ifs
  · exact a.setPort _
  · exact (a.setPort _).msix _
  · exact a.setPort _

theorem mboxDone (a : HeadOnly p s t) (op rc vendor : Nat) (payload : List Nat) : HeadOnly p s (mboxDone t p op rc vendor payload) := (a.portUpd _).msix 0

theorem foldl {α : Type} (f : State → α → State) (h : ∀ t x, HeadOnly p t (f t x)) (l : List α) (s : State) : HeadOnly p s (l.foldl f s) := by
  induction l generalizing s with
  | nil => exact refl p s
  | cons x r ih => exact (h s x).trans (ih _)

theorem regs (a : HeadOnly p s t) : t.regs = s.regs := by rw [a.frame]

theorem home (a : HeadOnly p s t) : t.home = s.home := by rw [a.frame]

theorem dram (a : HeadOnly p s t) : t.dram = s.dram := by rw [a.frame]

theorem reports (a : HeadOnly p s t) : t.reports = s.reports := by rw [a.frame]

theorem regsKept (a : HeadOnly p s t) (ex : Nat → Prop) : regsKept ex s t := .of_regs a.regs

theorem rg (a : HeadOnly p s t) (off : Nat) : t.rg off = s.rg off := congrArg (tabGet regReset · off) a.regs

theorem fget (a : HeadOnly p s t) (off : Nat) (f : Fld) : t.fget off f = s.fget off f := congrArg (fun v : Word => fld v.toNat f) (a.rg off)

/-- After an interrupt: the power state, PWR_STAT and outputs differ too. -/
theorem afterIrq {n : Nat} (a : HeadOnly p (s.irq n) t) : (∀ q, q ≠ p → t.port q = s.port q) ∧
    t = { s with regs := t.regs, ports := t.ports, out := t.out, pst := t.pst } ∧ Machine.regsKept (fun off => off = PWR_STAT) s t := by
  obtain ⟨r, k, o, e⟩ := s.irq_frame n
  refine ⟨fun q h => (a.others q h).trans (s.irq_port n q), ?_, (s.irq_regsKept n).trans (a.regsKept _)⟩
  rw [a.frame, e]

end HeadOnly

/-! Nothing but registers and ports changes. -/

/-- Nothing but registers and ports differs. -/
def RegsPorts (s t : State) : Prop := t = { s with regs := t.regs, ports := t.ports }

theorem RegsPorts.trans {s t u : State} (a : RegsPorts s t) (b : RegsPorts t u) : RegsPorts s u := by
  unfold RegsPorts at *
  rw [b, a]

theorem State.fset_regsPorts (s : State) (off : Nat) (f : Fld) (v : Nat) : RegsPorts s (s.fset off f v) := rfl

theorem portUpd_regsPorts (s : State) (p : Nat) (f : Port → Port) : RegsPorts s (portUpd s p f) := rfl

/-! The end of a mailbox command. -/

/-- A mailbox command on an open head runs after the interrupt to a core that serves the port. -/
theorem mbox_open {s : State} {p : Nat} (hp : p < 16) (ho : mboxOpen s p = true) (f : State → State) : mbox p s f = f (s.irq (64 + p)) := if_pos ⟨hp, ho⟩

/-- The port as the end of a command leaves it, but for the interrupt. -/
def mboxEnded (x : Port) (p op rc vendor : Nat) (payload : List Nat) : Port :=
  { x with mbox := some ⟨op, rc, vendor, payload⟩, detail := if rc = 0 then x.detail else (vendor, srcId 1 p) }

/-- Vector 0 of a head is masked: its pending bit is set. -/
theorem msix_masked {s : State} {p : Nat} (h : vecMasked s p = true) : msix s p 0 = s.setPort p { s.port p with msixPend := withBit (s.port p).msixPend 0 true } :=
  if_pos h

theorem msix_unmasked {s : State} {p : Nat} (h : vecMasked s p = false) : msix s p 0 = s.put (.msix p 0) := if_neg (fun e => Bool.false_ne_true (h.symm.trans e))

theorem mboxDone_eq (s : State) (p op rc vendor : Nat) (payload : List Nat) :
    mboxDone s p op rc vendor payload = msix (portUpd s p (mboxEnded · p op rc vendor payload)) p 0 := rfl

theorem vecMasked_portUpd {s : State} {p : Nat} {f : Port → Port} (h : (f (s.port p)).msixTab = (s.port p).msixTab) : vecMasked (portUpd s p f) p = vecMasked s p := by
  rw [vecMasked, portUpd_port, if_pos rfl, h, vecMasked]

/-- The end of a command is told to the host as the MSI-X table of the head has it. -/
theorem mboxDone_told {s v : State} {p : Nat} (hm : vecMasked v p = vecMasked s p) (op rc vendor : Nat) (payload : List Nat) :
    toldHost s p (mboxEnded (v.port p) p op rc vendor payload) (mboxDone v p op rc vendor payload) := by
  have masked : vecMasked (portUpd v p (mboxEnded · p op rc vendor payload)) p = vecMasked s p := (vecMasked_portUpd rfl).trans hm
  rw [mboxDone_eq]
  cases h : vecMasked s p with
  | true =>
    rw [msix_masked (masked.trans h)]
    exact ⟨fun e => absurd (h.symm.trans e) (by decide), by simp [h]⟩
  | false =>
    rw [msix_unmasked (masked.trans h)]
    exact ⟨fun _ => rfl, by simp [h]⟩

/-- With vector 0 not masked the outcome stands in the port, and the vector is raised. -/
theorem mboxDone_unmasked {v : State} {p : Nat} (hm : vecMasked v p = false) (op rc vendor : Nat) (payload : List Nat) :
    mboxDone v p op rc vendor payload = (portUpd v p (mboxEnded · p op rc vendor payload)).put (.msix p 0) :=
  (mboxDone_eq ..).trans (msix_unmasked ((vecMasked_portUpd rfl).trans hm))

/-- Masked or not, the outcome stands in the port. -/
theorem toldHost.mbox {s t : State} {p : Nat} {x : Port} (h : toldHost s p x t) : (t.port p).mbox = x.mbox := by
  rw [h.2]
  split <;> rfl

/-! What a head reads of the registers (R94, R97). -/

/-- The registers of ports, channels, tiers, Spools and the Seam read the same: those below 0x800000. -/
def UnitRegsKept (s t : State) : Prop := regsKept (fun off => 0x800000 ≤ off) s t

theorem regsKept.units {ex : Nat → Prop} {s t : State} (a : regsKept ex s t) (h : ∀ off, ex off → 0x800000 ≤ off) : UnitRegsKept s t := a.mono h

theorem State.irq_units (s : State) (n : Nat) : UnitRegsKept s (s.irq n) := (s.irq_regsKept n).units fun off h => by rw [h]; decide

namespace UnitRegsKept

variable {s t : State} {p : Nat}

theorem fget (a : UnitRegsKept s t) {off : Nat} (h : off < 0x800000) (f : Fld) : t.fget off f = s.fget off f := regsKept.fget a (by omega) f

theorem layoutField (a : UnitRegsKept s t) (hp : p < 16) (f : Fld) : t.fget (PRT_DPALAYOUT p) f = s.fget (PRT_DPALAYOUT p) f :=
  a.fget (by unfold PRT_DPALAYOUT; omega) f

theorem dpaS (a : UnitRegsKept s t) (hp : p < 16) : dpaS t p = dpaS s p := by rw [Machine.dpaS, a.layoutField hp, Machine.dpaS]
theorem dpaR0 (a : UnitRegsKept s t) (hp : p < 16) : dpaR0 t p = dpaR0 s p := by rw [Machine.dpaR0, a.layoutField hp, Machine.dpaR0]
theorem dpaR1 (a : UnitRegsKept s t) (hp : p < 16) : dpaR1 t p = dpaR1 s p := by rw [Machine.dpaR1, a.layoutField hp, Machine.dpaR1]

theorem hmEntry (a : UnitRegsKept s t) (hp : p < 16) {n : Nat} (hn : n < 512) : hmEntry t p n = hmEntry s p n := by
  have low : ¬ 0x800000 ≤ PRT_HMAPA p n ∧ ¬ 0x800000 ≤ PRT_HMAPB p n := by unfold PRT_HMAPA PRT_HMAPB; omega
  unfold Machine.hmEntry
  rw [a _ low.1, a _ low.2, a.fget (by decide)]

theorem hmFind (a : UnitRegsKept s t) (hp : p < 16) (dpa n i : Nat) (h : i + n ≤ 512) : hmFind t p dpa n i = hmFind s p dpa n i := by
  induction n generalizing i with
  | zero => rfl
  | succ n ih =>
    simp only [Machine.hmFind]
    rw [a.hmEntry hp (by omega), ih (i + 1) (by omega)]

theorem dpaUsable (a : UnitRegsKept s t) (hp : p < 16) (he : (t.port p).extents = (s.port p).extents) (dpa : Nat) : dpaUsable t p dpa = dpaUsable s p dpa := by
  rw [Machine.dpaUsable, a.hmFind hp _ _ _ (by omega), a.dpaS hp, he, Machine.dpaUsable]

theorem hmFind_lt {dpa : Nat} (n i : Nat) {k : Nat} (h : Machine.hmFind s p dpa n i = some k) : k < i + n := by
  induction n generalizing i with
  | zero => cases h
  | succ n ih =>
    simp only [Machine.hmFind] at h
    split at h
    · cases h
      omega
    · have := ih (i + 1) h
      omega

theorem dpaToLa (a : UnitRegsKept s t) (hp : p < 16) (dpa : Nat) : dpaToLa t p dpa = dpaToLa s p dpa := by
  unfold Machine.dpaToLa
  rw [a.hmFind hp _ _ _ (by omega)]
  cases h : Machine.hmFind s p dpa 512 0 with
  | none => rfl
  | some i =>
    dsimp only
    rw [a.hmEntry hp (by have := hmFind_lt _ _ h; omega)]

theorem headOwns (a : UnitRegsKept s t) {q : Nat} (hq : q < 1024) : headOwns t p q = headOwns s p q := by
  have low : SPL_CLASSINFO q < 0x800000 := by unfold SPL_CLASSINFO; omega
  rw [Machine.headOwns, a.fget low, a.fget low, Machine.headOwns]

theorem spoolClass (a : UnitRegsKept s t) {q : Nat} (hq : q < 1024) : spoolClass t q = spoolClass s q :=
  a.fget (by unfold SPL_CLASSINFO; omega) _

/-- The Spools that the head owns. -/
theorem ownedSpools (a : UnitRegsKept s t) : (List.range 1024).filter (Machine.headOwns t p) = (List.range 1024).filter (Machine.headOwns s p) :=
  List.filter_congr fun _ hq => a.headOwns (List.mem_range.1 hq)

theorem correctedErrors (a : UnitRegsKept s t) : correctedErrors t = correctedErrors s := by
  unfold Machine.correctedErrors
  refine List.foldl_ext _ _ _ fun n c hc => ?_
  rw [a.fget (by unfold DCH_ECCSTAT; have := List.mem_range.1 hc; omega)]

end UnitRegsKept

/-! Links (R84, R87, R114). -/

theorem linkUp_iff {s : State} {p : Nat} : linkUp s p = true ↔ s.tap.driven = false ∧ hostMode s p = true ∧ s.fget (PRT_LINKSTAT p) F.PRT_LINKSTAT_UP = 1 := by
  simp [linkUp, and_assoc]

theorem PRT_HEADSTAT_ne_linkstat (p q : Nat) : PRT_HEADSTAT p ≠ PRT_LINKSTAT q := by
  unfold PRT_HEADSTAT PRT_LINKSTAT
  omega

theorem PRT_CFG_ne_linkstat (p q : Nat) : PRT_CFG p ≠ PRT_LINKSTAT q := by
  unfold PRT_CFG PRT_LINKSTAT
  omega

@[simp] theorem memEnable_port (s : State) (p k : Nat) : (memEnable s p).port k = s.port k := rfl

theorem memEnable_regsPorts (s : State) (p : Nat) : RegsPorts s (memEnable s p) := s.fset_regsPorts _ _ _

theorem memEnable_regsKept (s : State) (p : Nat) : regsKept (fun off => off = PRT_LINKSTAT p) s (memEnable s p) :=
  s.fset_regsKept _ _ _

/-- The other fields of the link's status stand. -/
theorem memEnable_fget (s : State) (p off : Nat) {f : Fld} (hf : f.lo + f.w ≤ 10 ∨ 11 ≤ f.lo) : (memEnable s p).fget off f = s.fget off f := by
  by_cases h : off = PRT_LINKSTAT p
  · rw [h]
    exact State.fset_fget_apart _ _ _ _ _ (by decide) hf
  · exact (memEnable_regsKept s p).fget h f

/-- CXL.mem is enabled where the link is fast and wide enough and the host asks for it. -/
theorem memEnable_iff (s : State) (p : Nat) : (memEnable s p).fget (PRT_LINKSTAT p) F.PRT_LINKSTAT_MEM_EN = 1 ↔
    s.fget (PRT_LINKSTAT p) F.PRT_LINKSTAT_UP = 1 ∧ 1 ≤ s.fget (PRT_LINKSTAT p) F.PRT_LINKSTAT_SPEED ∧ s.fget (PRT_LINKSTAT p) F.PRT_LINKSTAT_WIDTH < 3 ∧
      (s.port p).memEn = true := by
  unfold memEnable
  dsimp only
  split
  case isTrue h =>
    rw [State.fset_fget_lt _ _ _ _ (by decide) (by decide)]
    exact iff_of_true rfl h
  case isFalse h =>
    rw [State.fset_fget_lt _ _ _ _ (by decide) (by decide)]
    exact iff_of_false (by decide) h

/-! A request on its way to its home slice. -/

/-- The request joins those on their way to the home slices. -/
def homeSent (s : State) (r : HomeReq) : State := { s with home := { s.home with toHome := s.home.toHome ++ [r] } }

theorem homeSent_toHome (s : State) (r : HomeReq) : (homeSent s r).home.toHome = s.home.toHome ++ [r] := rfl
theorem homeSent_port (s : State) (r : HomeReq) (k : Nat) : (homeSent s r).port k = s.port k := rfl
theorem homeSent_dram (s : State) (r : HomeReq) : (homeSent s r).dram = s.dram := rfl
theorem homeSent_out (s : State) (r : HomeReq) : (homeSent s r).out = s.out := rfl
theorem homeSent_regsKept (ex : Nat → Prop) (s : State) (r : HomeReq) : regsKept ex s (homeSent s r) := .of_regs rfl

end Sys2Proof.Machine
end

section
/-! PROOF. The queries of a head mailbox: O28 (R94, R108, R109). -/

namespace Sys2Proof.Machine

/-- A command has ended with success and this payload on a head whose port is otherwise `x`, and nothing else has changed but the power state. -/
def commandAnswered (s : State) (p : Nat) (x : Port) (op : Nat) (payload : List Nat) (t : State) : Prop :=
  toldHost s p { x with mbox := some ⟨op, 0, 0, payload⟩ } t ∧ (∀ q, q ≠ p → t.port q = s.port q) ∧
    t = { s with regs := t.regs, ports := t.ports, out := t.out, pst := t.pst } ∧ regsKept (fun off => off = PWR_STAT) s t

section
variable {s : State} {p : Nat} (hp : p < 16) (ho : mboxOpen s p = true)
include hp ho

/-- A command that changes the head into `v` and ends with success. -/
theorem command_answered {c : Instr} {f : State → State} {v : State} {op : Nat} {payload : List Nat} (hc : exec c s = .next (mbox p s f))
    (hv : HeadOnly p (s.irq (64 + p)) v) (hm : vecMasked v p = vecMasked s p) (hf : f (s.irq (64 + p)) = mboxDone v p op 0 0 payload) :
    completes c s (commandAnswered s p (v.port p) op payload) :=
  completes_next hc ((mbox_open hp ho f).trans hf) ⟨mboxDone_told hm .., (hv.mboxDone ..).afterIrq⟩

/-- A command that only answers. -/
theorem query_answered {c : Instr} {f : State → State} {op : Nat} {payload : List Nat} (hc : exec c s = .next (mbox p s f))
    (hf : f (s.irq (64 + p)) = mboxDone (s.irq (64 + p)) p op 0 0 payload) : completes c s (commandAnswered s p (s.port p) op payload) := by
  have answered := command_answered hp ho hc (.refl p _) (by simp [vecMasked]) hf
  rwa [State.irq_port] at answered

theorem getEventRecords_answered {log : Nat} (hl : log < 5) : let l := (s.port p).events.filter (fun e => e.log == log)
    completes (.getEventRecords p log) s (commandAnswered s p (s.port p) 0x0100
      (((if bit (s.port p).evOverflow log then 1 else 0) + (if 31 < l.length then 2 else 0)) :: (l.take 31).flatMap fun e => [e.handle, e.status, e.src, e.dpa, e.len])) := by
  refine query_answered hp ho rfl ?_
  dsimp only
  rw [if_neg (by omega), State.irq_port]
  rfl

theorem getLog_answered {off len : Nat} (hl : len ≤ 4096) (he : off + len ≤ effectsLog.length) :
    completes (.getLog p (Config.logUuid 0) off len) s (commandAnswered s p (s.port p) 0x0401 ((effectsLog.drop off).take len)) := by
  refine query_answered hp ho rfl ?_
  rw [if_neg (by omega), if_pos rfl, if_neg (by omega)]

theorem getHealthInfo_answered : completes (.getHealthInfo p) s (commandAnswered s p (s.port p) 0x4200
    [s.devLevel, s.fget SBT_TEMP F.SBT_TEMP_CORE_MAX, correctedErrors s, spareFrames s, alertsNow s (s.port p)]) := by
  have k := s.irq_regsKept (64 + p)
  have frames : spareFrames (s.irq (64 + p)) = spareFrames s := by simp only [spareFrames, State.irq_chan]
  have errors := (s.irq_units (64 + p)).correctedErrors
  have temp := k.fget (off := SBT_TEMP) (by decide) F.SBT_TEMP_CORE_MAX
  have level : (s.irq (64 + p)).devLevel = s.devLevel := k.fget (by decide) _
  have alerts : alertsNow (s.irq (64 + p)) (s.port p) = alertsNow s (s.port p) := by rw [alertsNow, temp, errors, frames, alertsNow]
  exact query_answered hp ho rfl (congrArg (mboxDone _ p 0x4200 0 0) (by rw [level, temp, errors, frames, State.irq_port, alerts]))

/-- A range asked for afresh is answered from its first line on. -/
theorem getPoisonList_answered {dpa len : Nat} (hf : (s.port p).poisonCur.1 ≠ dpa ∨ (s.port p).poisonCur.2.1 ≠ len) :
    let l := (s.port p).poisonList.filter (fun d => decide (dpa ≤ d) && decide (d < dpa + len) && dpaUsable s p d)
    completes (.getPoisonList p dpa len) s (commandAnswered s p { s.port p with poisonCur := if 254 < l.length then (dpa, len, 254) else (0, 0, 0) } 0x4300
      (((if (s.port p).poisonOver then 1 else 0) + (if 254 < l.length then 2 else 0)) :: l.take 254)) := by
  intro l
  have usable : dpaUsable (s.irq (64 + p)) p = dpaUsable s p := funext fun d => (s.irq_units (64 + p)).dpaUsable hp (by rw [State.irq_port]) d
  have start : (if (s.port p).poisonCur.1 = dpa ∧ (s.port p).poisonCur.2.1 = len then (s.port p).poisonCur.2.2 else 0) = 0 := if_neg (by tauto)
  have answered := command_answered hp ho (c := .getPoisonList p dpa len) (op := 0x4300)
    (payload := ((if (s.port p).poisonOver then 1 else 0) + (if 254 < l.length then 2 else 0)) :: l.take 254) rfl
    ((HeadOnly.refl p (s.irq (64 + p))).setPort { s.port p with poisonCur := if 254 < l.length then (dpa, len, 254) else (0, 0, 0) })
    (by simp [vecMasked]) (by simp only [State.irq_port, usable, start, maxPoison, Nat.zero_add, decide_eq_true_eq, List.drop_zero, l])
  rwa [State.setPort_port, if_pos rfl] at answered

theorem getProgramDirectory_answered (n : Nat) : completes (.getProgramDirectory (p, n)) s (commandAnswered s p (s.port p) 0xC002
    ((((List.range 256).filter fun i => decide (n ≤ i) && (s.prog i).valid &&
      (((List.range 1024).filter (headOwns s p)).map (spoolClass s)).any (bit (s.prog i).classes)).take 227).flatMap fun i => [i, (s.prog i).name])) := by
  have u := s.irq_units (64 + p)
  have classes : ((List.range 1024).filter (headOwns (s.irq (64 + p)) p)).map (spoolClass (s.irq (64 + p))) =
      ((List.range 1024).filter (headOwns s p)).map (spoolClass s) := by
    rw [u.ownedSpools]
    exact List.map_congr_left fun q hq => u.spoolClass (List.mem_range.1 (List.mem_filter.1 hq).1)
  have progs : (s.irq (64 + p)).progs = s.progs := State.irq_same _ (fun _ _ _ _ => rfl) s _
  refine query_answered hp ho rfl ?_
  dsimp only
  rw [classes, progs]
  rfl

theorem getSpoolAssignment_answered : completes (.getSpoolAssignment p) s (commandAnswered s p (s.port p) 0xC000
    (((List.range 1024).filter (headOwns s p)).flatMap fun q => [q, spoolClass s q])) := by
  have u := s.irq_units (64 + p)
  refine query_answered hp ho rfl (congrArg (mboxDone _ p 0xC000 0 0) ?_)
  rw [u.ownedSpools]
  exact List.flatMap_congr fun q hq => by rw [u.spoolClass (List.mem_range.1 (List.mem_filter.1 hq).1)]

theorem getDcConfiguration_answered : completes (.getDcConfiguration p) s (commandAnswered s p (s.port p) 0x4800
    [dpaS s p, dpaR0 s p, dpaS s p + dpaR0 s p, dpaR1 s p, 2097152, s.fget (PRT_DPALAYOUT p) F.PRT_DPALAYOUT_DCR1_SHARE]) := by
  have u := s.irq_units (64 + p)
  exact query_answered hp ho rfl (congrArg (mboxDone _ p 0x4800 0 0) (by rw [u.dpaS hp, u.dpaR0 hp, u.dpaR1 hp, u.layoutField hp]; rfl))

end

end Sys2Proof.Machine

open Sys2Proof Sys2Proof.Machine

/-- Settles O28: each query answers from what an interrupt leaves alone. -/
theorem mailboxQueriesAnswer : Obligations.MailboxQueriesAnswer := by
  intro s p hp ho answersAs answers
  have u := s.irq_units (64 + p)
  exact ⟨fun _ hl => getEventRecords_answered hp ho hl,
    query_answered hp ho rfl (by rw [State.irq_port]),
    query_answered hp ho rfl (by rw [State.irq_mgmt]),
    query_answered hp ho rfl (by simp only [State.irq_port, State.irq_time]),
    query_answered hp ho rfl rfl,
    fun _ _ hl he => getLog_answered hp ho hl he,
    query_answered hp ho rfl (congrArg (mboxDone _ p 0x4000 0 0) (by rw [u.dpaS hp])),
    query_answered hp ho rfl (congrArg (mboxDone _ p 0x4100 0 0) (by rw [u.dpaS hp])),
    getHealthInfo_answered hp ho,
    query_answered hp ho rfl (by rw [State.irq_port]),
    fun _ _ => getPoisonList_answered hp ho,
    getDcConfiguration_answered hp ho,
    fun _ => query_answered hp ho rfl (by simp only [State.irq_port]; rfl),
    getSpoolAssignment_answered hp ho,
    fun n => getProgramDirectory_answered hp ho n,
    query_answered hp ho rfl (by rw [State.irq_port])⟩
end

section
/-! PROOF. HDM decoders: O35 (R95, R114). -/

namespace Sys2Proof.Machine

/-! The host's Mem_Enable, which comes with its commit. -/

/-- The host has set, or cleared, Mem_Enable. -/
def memChosen (s : State) (p : Nat) (memEn : Bool) : State := memEnable (portUpd s p (fun x => { x with memEn := memEn })) p

theorem exec_hdmCommit {s : State} {p : Nat} (hl : linkUp s p = true) (i base size skip ways gran : Nat) (bi lock commit memEn : Bool) :
    exec (.hdmCommit p i base size skip ways gran bi lock (commit, memEn)) s =
      .next (memChosen (hdmCommit p i base size skip ways gran bi lock commit s) p memEn) := congrArg Host.Outcome.next (if_pos hl)

section
variable (s : State) (p : Nat) (memEn : Bool)

@[simp] theorem memChosen_port (k : Nat) : (memChosen s p memEn).port k = if k = p then { s.port p with memEn := memEn } else s.port k := by
  rw [memChosen, memEnable_port, portUpd_port]

@[simp] theorem memChosen_portDec (j : Nat) : portDec (memChosen s p memEn) p j = portDec s p j := by simp [portDec]

@[simp] theorem memChosen_decList : decList (memChosen s p memEn) p = decList s p := by simp [decList]

theorem memChosen_regsKept : regsKept (fun off => off = PRT_LINKSTAT p) s (memChosen s p memEn) :=
  (portUpd_regsKept _ s p _).trans (memEnable_regsKept _ p)

theorem memChosen_regsPorts : RegsPorts s (memChosen s p memEn) := (portUpd_regsPorts s p _).trans (memEnable_regsPorts _ p)

theorem memChosen_dram : (memChosen s p memEn).dram = s.dram := by rw [memChosen_regsPorts]

/-- On a link that is up, speed and width and the host's choice decide on CXL.mem. -/
theorem memChosen_enabled {u : State} (hl : linkUp s p = true) (hu : u.rg (PRT_LINKSTAT p) = s.rg (PRT_LINKSTAT p)) :
    (memChosen u p memEn).fget (PRT_LINKSTAT p) F.PRT_LINKSTAT_MEM_EN = 1 ↔
      memEn = true ∧ 1 ≤ s.fget (PRT_LINKSTAT p) F.PRT_LINKSTAT_SPEED ∧ s.fget (PRT_LINKSTAT p) F.PRT_LINKSTAT_WIDTH < 3 := by
  have same : ∀ f, (portUpd u p (fun x => { x with memEn := memEn })).fget (PRT_LINKSTAT p) f = s.fget (PRT_LINKSTAT p) f := fun f =>
    congrArg (fun v : Word => fld v.toNat f) hu
  obtain ⟨-, -, up⟩ := linkUp_iff.1 hl
  rw [memChosen, memEnable_iff, same, same, same, portUpd_port, if_pos rfl]
  tauto

end

/-! The commit. -/

/-- The head's table of decoders, and the failed commits of the decoder are forgotten where it is committed. -/
def decPut (s : State) (p i : Nat) (d : Option HdmDec) (failed : List Nat → List Nat) : State :=
  decStat (portUpd s p (fun x => { x with dec := tabSet (fun _ => none) x.dec i d, notCommitted := failed x.notCommitted })) p

section
variable (s : State) (p i : Nat) (d : Option HdmDec) (failed : List Nat → List Nat)

theorem decPut_port (k : Nat) : (decPut s p i d failed).port k =
    if k = p then { s.port p with dec := tabSet (fun _ => none) (s.port p).dec i d, notCommitted := failed (s.port p).notCommitted } else s.port k := by
  unfold decPut decStat
  rw [State.fset_port, State.fset_port, portUpd_port]

theorem decPut_portDec (j : Nat) : portDec (decPut s p i d failed) p j = if j = i then d else portDec s p j := by
  rw [portDec, decPut_port, if_pos rfl]
  exact tabGet_tabSet ..

theorem decPut_regsKept : regsKept (fun off => off = PRT_HEADSTAT p) s (decPut s p i d failed) := by
  unfold decPut decStat
  exact (portUpd_regsKept _ s p _).trans ((State.fset_regsKept _ _ _ _).trans (State.fset_regsKept _ _ _ _))

theorem decPut_regsPorts : RegsPorts s (decPut s p i d failed) := by
  unfold decPut decStat
  exact (portUpd_regsPorts s p _).trans ((State.fset_regsPorts _ _ _ _).trans (State.fset_regsPorts _ _ _ _))

theorem decPut_linkstat : (decPut s p i d failed).rg (PRT_LINKSTAT p) = s.rg (PRT_LINKSTAT p) :=
  decPut_regsKept s p i d failed _ (PRT_HEADSTAT_ne_linkstat p p).symm

theorem decStat_decCommit : (decStat s p).fget (PRT_HEADSTAT p) F.PRT_HEADSTAT_DEC_COMMIT = (decList s p).length % 2 ^ F.PRT_HEADSTAT_DEC_COMMIT.w :=
  (State.fset_fget_apart _ _ _ _ _ (by decide) (by decide)).trans (State.fset_fget_same _ _ _ _ (by decide))

theorem decStat_decList : decList (decStat s p) p = decList s p := by
  unfold decList decStat
  rw [State.fset_port, State.fset_port]

theorem decPut_decCommit : (decPut s p i d failed).fget (PRT_HEADSTAT p) F.PRT_HEADSTAT_DEC_COMMIT =
    (decList (decPut s p i d failed) p).length % 2 ^ F.PRT_HEADSTAT_DEC_COMMIT.w := by
  rw [decPut, decStat_decCommit, decStat_decList]

/-- What a command leaves that stores the table and the host's Mem_Enable. -/
theorem decPut_frame (memEn : Bool) (hl : linkUp s p = true) {t : State} (e : t = memChosen (decPut s p i d failed) p memEn) :
    (t.fget (PRT_LINKSTAT p) F.PRT_LINKSTAT_MEM_EN = 1 ↔ memEn = true ∧ 1 ≤ s.fget (PRT_LINKSTAT p) F.PRT_LINKSTAT_SPEED ∧
      s.fget (PRT_LINKSTAT p) F.PRT_LINKSTAT_WIDTH < 3) ∧ (∀ q, q ≠ p → t.port q = s.port q) ∧ t = { s with regs := t.regs, ports := t.ports } ∧
    regsKept (fun off => off = PRT_HEADSTAT p ∨ off = PRT_LINKSTAT p) s t := by
  subst e
  refine ⟨memChosen_enabled s p memEn hl (decPut_linkstat ..), fun q hq => ?_, (decPut_regsPorts s p i d failed).trans (memChosen_regsPorts _ p memEn), ?_⟩
  · rw [memChosen_port, if_neg hq, decPut_port, if_neg hq]
  · exact ((decPut_regsKept s p i d failed).mono fun _ => .inl).trans ((memChosen_regsKept _ p memEn).mono fun _ => .inr)

end

/-- The host's operands fit decoder `i`, and every decoder below it is committed. -/
structure CommitFits (s : State) (p i base size ways gran : Nat) : Prop where
  free : portDec s p i = none
  order : (decList s p).length = i
  aligned : base % 2 ^ 28 = 0
  nonempty : 0 < size
  wayCount : ways ∈ decWays
  granule : gran ∈ decGrans
  whole : size % (2 ^ 28 * ways) = 0
  above : ∀ d ∈ decList s p, d.base + d.size ≤ base

/-- First DPA of the decoder after those that are committed. -/
def firstDpa (s : State) (p skip : Nat) : Nat := (decList s p).foldl (fun a d => max a (d.dpa + d.size / d.ways)) 0 + skip

section
variable {s : State} {p i base size skip ways gran : Nat} {lock : Bool} (hl : linkUp s p = true) (hi : i < 16)
include hl hi

theorem hdm_taken : ¬ (linkUp s p = false ∨ 16 ≤ i) := by
  rw [hl]
  simpa using hi

/-- A commit that fits depends on back-invalidate alone. -/
theorem hdmCommit_fits (h : CommitFits s p i base size ways gran) (bi : Bool) : hdmCommit p i base size skip ways gran bi lock true s =
    if bi = false ∧ ((s.fget (PRT_LINKSTAT p) F.PRT_LINKSTAT_FLIT == 0) = false ∨ hmShared s p (firstDpa s p skip) (firstDpa s p skip + size / ways) 512 0) then
      portEvent (notCommit s p i) p C.PRT_E_BI_REQUIRED (srcId 1 p) 0
    else decPut s p i (some ⟨base, size, firstDpa s p skip, ways, gran, bi, lock⟩) (·.filter (· != i)) := by
  have form : (base % 2 ^ 28 == 0 && decide (0 < size) && decWays.contains ways && decGrans.contains gran && size % (2 ^ 28 * ways) == 0 &&
      (decList s p).all (fun d => decide (d.base + d.size ≤ base))) = true := by
    simp only [Bool.and_eq_true, beq_iff_eq, decide_eq_true_eq, List.contains_iff_mem, List.all_eq_true]
    exact ⟨⟨⟨⟨⟨h.aligned, h.nonempty⟩, h.wayCount⟩, h.granule⟩, h.whole⟩, h.above⟩
  have order : ((decList s p).length == i) = true := by simp [h.order]
  unfold hdmCommit
  rw [if_neg (hdm_taken hl hi), h.free]
  dsimp only
  rw [if_neg (by decide), form, order, if_neg (by decide)]
  rfl

theorem hdmCommit_bi (h : CommitFits s p i base size ways gran) : hdmCommit p i base size skip ways gran true lock true s =
    decPut s p i (some ⟨base, size, firstDpa s p skip, ways, gran, true, lock⟩) (·.filter (· != i)) :=
  (hdmCommit_fits hl hi h true).trans (if_neg fun hb => absurd hb.1 (by decide))

theorem hdmCommit_noBi (h : CommitFits s p i base size ways gran) (hf : s.fget (PRT_LINKSTAT p) F.PRT_LINKSTAT_FLIT ≠ 0) :
    hdmCommit p i base size skip ways gran false lock true s = portEvent (notCommit s p i) p C.PRT_E_BI_REQUIRED (srcId 1 p) 0 :=
  (hdmCommit_fits hl hi h false).trans (if_pos ⟨rfl, .inl (by simpa using hf)⟩)

theorem hdmCommit_uncommits {d : HdmDec} (h : portDec s p i = some d) (hu : d.locked = false) (bi : Bool) :
    hdmCommit p i base size skip ways gran bi lock false s = decPut s p i none id := by
  unfold hdmCommit
  rw [if_neg (hdm_taken hl hi), h]
  dsimp only
  rw [if_neg (by simp [hu])]
  rfl

theorem hdmCommit_locked {d : HdmDec} (h : portDec s p i = some d) (hu : d.locked = true) (bi : Bool) :
    hdmCommit p i base size skip ways gran bi lock false s = s := by
  unfold hdmCommit
  rw [if_neg (hdm_taken hl hi), h]
  exact if_pos (.inr hu)

end

/-- Error Not Committed stands after a failed commit. -/
theorem mem_notCommit (s : State) (p i : Nat) : i ∈ ((notCommit s p i).port p).notCommitted := by
  rw [notCommit, portUpd_port, if_pos rfl]
  dsimp only
  split
  case isTrue h => exact List.contains_iff_mem.1 h
  case isFalse => exact List.mem_append_right _ (List.mem_singleton_self i)

theorem notCommit_dec (s : State) (p i : Nat) : ((notCommit s p i).port p).dec = (s.port p).dec := by simp [notCommit]

/-- An event record leaves the decoders and their failed commits as they are. -/
theorem portEvent_decoders (s : State) (p st src dpa : Nat) :
    ((portEvent s p st src dpa).port p).dec = (s.port p).dec ∧ ((portEvent s p st src dpa).port p).notCommitted = (s.port p).notCommitted := by
  unfold portEvent portEventIn msix
  dsimp only
  split_ifs <;> simp

end Sys2Proof.Machine

open Sys2Proof Sys2Proof.Machine

/-- Settles O35: a commit or an uncommit that is taken stores the table of decoders, and the host's Mem_Enable follows. -/
theorem decodersCommitInOrder : Obligations.DecodersCommitInOrder := by
  intro s p i base size skip ways gran lock memEn hp hi hl enabled frame
  refine ⟨fun free order hbase hsize hways hgran whole above => ?_, fun d hd => ⟨fun hu => ?_, fun hu => ?_⟩⟩
  · have fits : CommitFits s p i base size ways gran := ⟨free, order, hbase, hsize, hways, hgran, whole, above⟩
    constructor
    · have e := exec_hdmCommit hl i base size skip ways gran true lock true memEn
      rw [hdmCommit_bi hl hi fits] at e
      refine completes_next e rfl ⟨?_, ?_, fun j hj => ?_, decPut_frame s p i _ _ memEn hl rfl⟩
      · rw [memChosen_portDec, decPut_portDec, if_pos rfl, firstDpa]
      · rw [(memChosen_regsKept _ p memEn).fget (PRT_HEADSTAT_ne_linkstat p p), decPut_decCommit, memChosen_decList]
      · rw [memChosen_portDec, decPut_portDec, if_neg hj]
    · intro hf
      have e := exec_hdmCommit hl i base size skip ways gran false lock true memEn
      rw [hdmCommit_noBi hl hi fits hf] at e
      have event : HeadOnly p s (portEvent (notCommit s p i) p C.PRT_E_BI_REQUIRED (srcId 1 p) 0) :=
        ((HeadOnly.refl p s).portUpd _).portEventIn _ _ _ _ _
      obtain ⟨decoders, failed⟩ := portEvent_decoders (notCommit s p i) p C.PRT_E_BI_REQUIRED (srcId 1 p) 0
      have same : ∀ j, portDec (memChosen (portEvent (notCommit s p i) p C.PRT_E_BI_REQUIRED (srcId 1 p) 0) p memEn) p j = portDec s p j := fun j => by
        rw [memChosen_portDec, portDec, decoders, notCommit_dec, portDec]
      refine completes_next e rfl ⟨?_, (same i).trans free, same, memChosen_enabled s p memEn hl (event.rg _), (memChosen_dram _ p memEn).trans event.dram,
        (event.regsKept _).trans (memChosen_regsKept _ p memEn)⟩
      rw [memChosen_port, if_pos rfl]
      exact failed ▸ mem_notCommit s p i
  · have e := exec_hdmCommit hl i base size skip ways gran true lock false memEn
    rw [hdmCommit_uncommits hl hi hd hu] at e
    refine completes_next e rfl ⟨?_, fun j hj => ?_, decPut_frame s p i _ _ memEn hl rfl⟩
    · rw [memChosen_portDec, decPut_portDec, if_pos rfl]
    · rw [memChosen_portDec, decPut_portDec, if_neg hj]
  · have e := exec_hdmCommit hl i base size skip ways gran true lock false memEn
    rw [hdmCommit_locked hl hi hd hu] at e
    exact completes_next e rfl ⟨memChosen_portDec s p memEn, memChosen_enabled s p memEn hl rfl, fun q hq => by rw [memChosen_port, if_neg hq], memChosen_regsPorts s p memEn,
      (memChosen_regsKept s p memEn).mono fun _ => .inr⟩
end

section
/-! PROOF. The CDAT, the SPDM responder and CXL_IDE_KM: O37 (R85, R218, R507). -/

namespace Sys2Proof.Machine

/-! The CDAT (R85). -/

/-- A read of the CDAT puts out as many bytes as were asked for. -/
theorem cdatRead_completes {s : State} {p : Nat} (hp : p < 16) (hl : linkUp s p = true) (off len : Nat) : completes (.cdatRead p off len) s (fun t =>
    ∃ b, b.length = len ∧ (∀ x ∈ b, x < 256) ∧ t = { s with out := .doe p b :: s.out }) := by
  refine completes_next rfl (if_pos ⟨hp, hl⟩) ⟨_, by rw [List.length_map, List.length_range], fun x hx => ?_, rfl⟩
  obtain ⟨i, -, rfl⟩ := List.mem_map.1 hx
  exact Nat.mod_lt _ (by decide)

/-! SPDM (R507). -/

section
variable {s : State} {tr : Nat} (ht : tr ≤ 17) (hr : s.mgmt.run = true)
include ht hr

/-- While Thimble runs, a request on one of the transports is taken. -/
theorem spdm_taken : ¬ (17 < tr ∨ s.mgmt.run = false) := by
  rw [hr]
  simpa using ht

theorem spdmRequest_version (arg : Nat) : spdmRequest tr 0x84 arg s = s.put (.spdm tr 0x04 [0x12, 0x13]) := if_neg (spdm_taken ht hr)

/-- The lowest session number that no live session has. -/
def freeSession (live : List Nat) : Nat := ((List.range 8).find? (fun i => !(live.contains i))).getD 0

omit ht hr in
/-- With fewer than eight live sessions a number is free. -/
theorem freeSession_free {live : List Nat} (h : live.length < 8) : freeSession live < 8 ∧ freeSession live ∉ live := by
  unfold freeSession
  cases hf : (List.range 8).find? (fun i => !(live.contains i)) with
  | some i =>
    have free := List.find?_some hf
    exact ⟨List.mem_range.1 (List.mem_of_find?_eq_some hf), by simpa using free⟩
  | none =>
    have all : List.range 8 ⊆ live := fun i hi => by simpa using List.find?_eq_none.1 hf i hi
    have := (List.nodup_range.subperm all).length_le
    rw [List.length_range] at this
    omega

theorem spdmRequest_keyExchange (hl : s.mgmt.sessions.length < 8) (arg : Nat) : spdmRequest tr 0xE4 arg s =
    { s with mgmt := { s.mgmt with sessions := s.mgmt.sessions ++ [freeSession s.mgmt.sessions] } }.put (.spdm tr 0x64 [freeSession s.mgmt.sessions]) :=
  (if_neg (spdm_taken ht hr)).trans (if_neg (Nat.not_le.2 hl))

theorem spdmRequest_noSession (hl : 8 ≤ s.mgmt.sessions.length) (arg : Nat) : spdmRequest tr 0xE4 arg s = s.put (.spdm tr 0x7F [0x0A]) :=
  (if_neg (spdm_taken ht hr)).trans (if_pos hl)

theorem spdmRequest_endSession {arg : Nat} (ha : arg ∈ s.mgmt.sessions) : spdmRequest tr 0xEC arg s =
    { s with mgmt := { s.mgmt with sessions := s.mgmt.sessions.filter (· != arg) } }.put (.spdm tr 0x6C [arg]) :=
  (if_neg (spdm_taken ht hr)).trans (if_pos (List.contains_iff_mem.2 ha))

theorem keyExchange_completes (hl : s.mgmt.sessions.length < 8) (arg : Nat) : completes (.spdmRequest tr 0xE4 arg) s (fun t => ∃ id < 8, id ∉ s.mgmt.sessions ∧
    t = { s with mgmt := { s.mgmt with sessions := s.mgmt.sessions ++ [id] }, out := .spdm tr 0x64 [id] :: s.out }) :=
  completes_next rfl (spdmRequest_keyExchange ht hr hl arg) ⟨_, (freeSession_free hl).1, (freeSession_free hl).2, rfl⟩

theorem endSession_completes {arg : Nat} (ha : arg ∈ s.mgmt.sessions) : completes (.spdmRequest tr 0xEC arg) s (fun t => arg ∉ t.mgmt.sessions ∧
    t = { s with mgmt := { s.mgmt with sessions := t.mgmt.sessions }, out := t.out }) :=
  completes_next rfl (spdmRequest_endSession ht hr ha) ⟨fun h => by simp at h, rfl⟩

end

/-! CXL_IDE_KM (R85, R218). -/

section
variable {s : State} {p session : Nat} (hl : linkUp s p = true) (hr : s.mgmt.run = true) (hs : session ∈ s.mgmt.sessions)

/-- The key set has a key for direction `d`. -/
def hasLinkKey (s : State) (p slot d : Nat) : Bool := (tabGet (fun _ => none) s.keys.link (p * 4 + d * 2 + slot % 2)).isSome

/-- The stream goes on with the key set `slot` mod 2. -/
def ideSwitched (s : State) (p slot : Nat) : State :=
  (portUpd (if (s.port p).ideSet.isSome then s.diagAdd dgIDEKEY p 1 else s) p
    (fun x => { x with ideInsecure := false, ideSet := some (slot % 2), ideContain := bit slot 1 })).fset (PRT_LINKSTAT p) F.PRT_LINKSTAT_IDE 1

/-- The stream of the key set in use ends. -/
def ideStopped (s : State) (p : Nat) : State := (portUpd s p (fun x => { x with ideSet := none })).fset (PRT_LINKSTAT p) F.PRT_LINKSTAT_IDE 0

theorem ideSwitched_ide (s : State) (p slot : Nat) : (ideSwitched s p slot).fget (PRT_LINKSTAT p) F.PRT_LINKSTAT_IDE = 1 := by
  rw [ideSwitched, State.fset_fget_lt _ _ _ _ (by decide) (by decide)]

theorem ideSwitched_ideSet (s : State) (p slot : Nat) : ((ideSwitched s p slot).port p).ideSet = some (slot % 2) := by simp [ideSwitched]

theorem ideSwitched_frame (s : State) (p slot : Nat) : ideSwitched s p slot =
    { s with regs := (ideSwitched s p slot).regs, ports := (ideSwitched s p slot).ports, diag := (ideSwitched s p slot).diag } := by
  unfold ideSwitched
  split <;> rfl

theorem ideSwitched_regsKept (s : State) (p slot : Nat) : regsKept (fun off => off = PRT_LINKSTAT p) s (ideSwitched s p slot) := by
  have same : regsKept (fun off => off = PRT_LINKSTAT p) s (portUpd (if (s.port p).ideSet.isSome then s.diagAdd dgIDEKEY p 1 else s) p
      (fun x => { x with ideInsecure := false, ideSet := some (slot % 2), ideContain := bit slot 1 })) := regsKept.of_regs (by split <;> rfl)
  exact same.fset rfl _ _

theorem ideStopped_ide (s : State) (p : Nat) : (ideStopped s p).fget (PRT_LINKSTAT p) F.PRT_LINKSTAT_IDE = 0 := by
  rw [ideStopped, State.fset_fget_lt _ _ _ _ (by decide) (by decide)]

theorem ideStopped_port (s : State) (p q : Nat) : (ideStopped s p).port q = if q = p then { s.port p with ideSet := none } else s.port q := by
  rw [ideStopped, State.fset_port, portUpd_port]

theorem ideStopped_regsKept (s : State) (p : Nat) : regsKept (fun off => off = PRT_LINKSTAT p) s (ideStopped s p) :=
  (regsKept.of_regs (ex := fun off => off = PRT_LINKSTAT p) (t := portUpd s p (fun x => { x with ideSet := none })) rfl).fset rfl _ _

include hl hr hs

/-- A message in a live session on a link that is up is taken. -/
theorem ideKm_taken : ¬ (linkUp s p = false ∨ s.mgmt.run = false ∨ s.mgmt.sessions.contains session = false) := by
  rw [hl, hr, List.contains_iff_mem.2 hs]
  decide

theorem cxlIdeKm_keyProg (slot : Nat) : cxlIdeKm p 0 slot session s = s.put (.ideKm p 0 slot) := if_neg (ideKm_taken hl hr hs)

theorem cxlIdeKm_setGo (slot : Nat) : cxlIdeKm p 1 slot session s =
    if hasLinkKey s p slot 0 ∧ hasLinkKey s p slot 1 then (ideSwitched s p slot).put (.ideKm p 1 slot) else s.put (.ideKm p 1 slot) := if_neg (ideKm_taken hl hr hs)

theorem cxlIdeKm_setStop (slot : Nat) : cxlIdeKm p 2 slot session s =
    (if (s.port p).ideSet = some (slot % 2) then ideStopped s p else s).put (.ideKm p 2 slot) := if_neg (ideKm_taken hl hr hs)

theorem setGo_completes (slot : Nat) : let keys := ∀ d < 2, hasLinkKey s p slot d = true
    completes (.cxlIdeKm p 1 (slot, session)) s (fun t => t = { s with regs := t.regs, ports := t.ports, diag := t.diag, out := .ideKm p 1 slot :: s.out } ∧
      (keys → t.fget (PRT_LINKSTAT p) F.PRT_LINKSTAT_IDE = 1 ∧ (t.port p).ideSet = some (slot % 2)) ∧ (¬ keys → t.regs = s.regs) ∧
      regsKept (fun off => off = PRT_LINKSTAT p) s t) := by
  intro keys
  have both : keys ↔ hasLinkKey s p slot 0 = true ∧ hasLinkKey s p slot 1 = true := by
    refine ⟨fun h => ⟨h 0 (by decide), h 1 (by decide)⟩, fun h d hd => ?_⟩
    interval_cases d
    · exact h.1
    · exact h.2
  by_cases h : keys
  · refine completes_next rfl ((cxlIdeKm_setGo hl hr hs slot).trans (if_pos (both.1 h))) ⟨?_, fun _ => ?_, fun hn => absurd h hn,
      (ideSwitched_regsKept s p slot).put _⟩
    · exact congrArg (State.put · (.ideKm p 1 slot)) (ideSwitched_frame s p slot)
    · rw [State.put_fget, State.put_port]
      exact ⟨ideSwitched_ide s p slot, ideSwitched_ideSet s p slot⟩
  · exact completes_next rfl ((cxlIdeKm_setGo hl hr hs slot).trans (if_neg fun hb => h (both.2 hb))) ⟨rfl, fun hk => absurd hk h, fun _ => rfl, regsKept.refl _ _⟩

theorem setStop_completes (slot : Nat) : completes (.cxlIdeKm p 2 (slot, session)) s (fun t =>
    ((s.port p).ideSet = some (slot % 2) → t.fget (PRT_LINKSTAT p) F.PRT_LINKSTAT_IDE = 0 ∧ (t.port p).ideSet = none) ∧
    t = { s with regs := t.regs, ports := t.ports, out := .ideKm p 2 slot :: s.out } ∧ (∀ q, q ≠ p → t.port q = s.port q) ∧
    regsKept (fun off => off = PRT_LINKSTAT p) s t) := by
  have e := cxlIdeKm_setStop hl hr hs slot
  by_cases h : (s.port p).ideSet = some (slot % 2)
  · rw [if_pos h] at e
    refine completes_next rfl e ⟨fun _ => ?_, rfl, fun q hq => ?_, (ideStopped_regsKept s p).put _⟩
    · rw [State.put_fget, State.put_port, ideStopped_port, if_pos rfl]
      exact ⟨ideStopped_ide s p, rfl⟩
    · rw [State.put_port, ideStopped_port, if_neg hq]
  · rw [if_neg h] at e
    exact completes_next rfl e ⟨fun hk => absurd hk h, rfl, fun _ _ => rfl, regsKept.refl _ _⟩

end

end Sys2Proof.Machine

open Sys2Proof Sys2Proof.Machine

/-- Settles O37: each request is taken, and answered by its code. -/
theorem attestationAndLinkKeys : Obligations.AttestationAndLinkKeys :=
  ⟨fun _ _ off len hp hl => cdatRead_completes hp hl off len,
    fun _ _ arg ht hr => ⟨completes_next rfl (spdmRequest_version ht hr arg) rfl, fun hl => keyExchange_completes ht hr hl arg,
      fun hl => completes_next rfl (spdmRequest_noSession ht hr hl arg) ⟨_, rfl⟩, fun ha => endSession_completes ht hr ha⟩,
    fun _ _ slot _ hl hr hs => ⟨completes_next rfl (cxlIdeKm_keyProg hl hr hs slot) rfl, setGo_completes hl hr hs slot, setStop_completes hl hr hs slot⟩⟩
end

section
/-! PROOF. O29 is refuted: the completion record of a command that Reset Spool cancels raises the Spool's interrupt, which a masked vector leaves pending at the
head's port (R91, R309, R322). -/

namespace Sys2Proof.Machine

/-- A command that has been consumed and not launched. -/
def commandConsumed : Cmd := { n := 0, desc := 0, stage := 0, bob := 255, claim := none, recd := 0, failed := none, born := 0 }

/-- The link of port 0 is up, and Spool 0, which the head owns, has its interrupt enabled and one command in flight; the head's vectors are masked, as after reset. -/
def spoolInterrupts : State :=
  { (State.reset.fset (PRT_LINKSTAT 0) F.PRT_LINKSTAT_UP 1).fset (SPL_IRQ 0) F.SPL_IRQ_EN 1 with spools := [(0, { Spool.init with cmds := [commandConsumed] })] }

/-- Reset Spool leaves vector 6, the Spool's, pending. -/
theorem mboxResetSpool_spoolInterrupts_msixPend : ((mbox 0 spoolInterrupts (mboxResetSpool 0 0)).port 0).msixPend = 64 := by decide +kernel

end Sys2Proof.Machine

open Sys2Proof Sys2Proof.Machine

/-- Refutes O29: its clause of RESET_SPOOL has the head's port change in the background command alone, whatever commands the Spool has in flight. In
`spoolInterrupts` the record of the cancelled command raises the Spool's interrupt, and its pending bit is set in the port (R91). -/
theorem not_mailboxSettingsTakeEffect : ¬ Obligations.MailboxSettingsTakeEffect := by
  unfold Obligations.MailboxSettingsTakeEffect
  intro h
  obtain ⟨-, -, -, -, -, -, -, owned, -⟩ := h spoolInterrupts 0 (by decide) (by decide +kernel)
  obtain ⟨-, resets⟩ := owned 0 (by decide) (by decide +kernel) (by decide +kernel)
  obtain ⟨-, port, -⟩ := (completes_iff rfl).1 (resets (by decide +kernel))
  exact absurd (mboxResetSpool_spoolInterrupts_msixPend.symm.trans (congrArg Port.msixPend port)) (by decide +kernel)
end

section
/-! PROOF. O34 is refuted: clearing VALID of a head-map entry takes the poisoned lines of its range off the head's poison list (R97, R105). -/

namespace Sys2Proof.Machine

/-- Entry 0 of port 0's head map is valid, and the head's poison list names the first line of its range. -/
def headMapPoisoned : State :=
  { State.reset.fset (PRT_HMAPA 0 0) F.PRT_HMAPA_VALID 1 with ports := [(0, { Port.init with poisonList := [0] })] }

/-- The trusted world may clear VALID of the entry. -/
theorem admitted_headMapPoisoned : ∃ w, admitted (.trusted 0) (PRT_HMAPA 0 0) 0 headMapPoisoned w ∧ fld w.old F.PRT_HMAPA_VALID = 1 ∧
    w.new = putf w.old F.PRT_HMAPA_VALID 0 := by
  have passes : (ctlCheck (.trusted 0) (PRT_HMAPA 0 0) 8 0 false headMapPoisoned).toOption.any (fun w =>
      decide (w.worldErr = false ∧ fld w.old F.PRT_HMAPA_VALID = 1 ∧ w.new = putf w.old F.PRT_HMAPA_VALID 0)) = true := by decide +kernel
  cases hc : ctlCheck (.trusted 0) (PRT_HMAPA 0 0) 8 0 false headMapPoisoned with
  | error e =>
    rw [hc] at passes
    exact absurd passes Bool.false_ne_true
  | ok w =>
    rw [hc] at passes
    obtain ⟨world, valid, cleared⟩ := of_decide_eq_true passes
    exact ⟨w, ⟨by decide +kernel, hc, world⟩, valid, cleared⟩

/-- The write leaves the poison list empty. -/
theorem rowWrite_headMapPoisoned : ((rowWrite hookHmapA (.trusted 0) (PRT_HMAPA 0 0) 0 headMapPoisoned).port 0).poisonList = [] := by decide +kernel

end Sys2Proof.Machine

open Sys2Proof Sys2Proof.Machine

/-- Refutes O34: its clause of HMAPA_WRITE that clears VALID has nothing but registers and outputs change. In `headMapPoisoned` the head's poison list names a
line of the entry's range, which leaves the list with the entry (R105). -/
theorem not_headMapWritesAreChecked : ¬ Obligations.HeadMapWritesAreChecked := by
  unfold Obligations.HeadMapWritesAreChecked
  intro h
  obtain ⟨w, passes, valid, cleared⟩ := admitted_headMapPoisoned
  obtain ⟨-, entry, -⟩ := h headMapPoisoned (.trusted 0) 0 0 0 w (by decide) (by decide)
  obtain ⟨-, clears, -⟩ := entry passes
  obtain ⟨-, -, frame, -⟩ := (completes_iff rfl).1 (clears valid cleared)
  have list := congrArg (fun t => (t.port 0).poisonList) frame
  exact absurd (rowWrite_headMapPoisoned.symm.trans list) (by decide +kernel)
end

section
/-! PROOF. Links: what link training, a link that goes down and its events change of the rest of the device (R86, R111, R567). -/

namespace Sys2Proof.Machine

/-- The registers that a change of a port's link may change: its status, its trims, event counters and PWR_STAT (an interrupt may wake the core). -/
def linkReg (p off : Nat) : Prop :=
  off = PRT_LINKSTAT p ∨ off = PRT_HEADSTAT p ∨ off = PWR_STAT ∨ counterReg off = true ∨ ∃ l, off = CAL_LANE p l

theorem counterReg_iff {off : Nat} : counterReg off = true ↔ 0xA00000 ≤ off ∧ off < 0xA03000 ∨ off = PMC_STAT := by
  simp [counterReg]

/-- But for the port's status they lie above the registers of units. -/
theorem linkReg_units {p off : Nat} (h : linkReg p off) (hl : off ≠ PRT_LINKSTAT p) (hh : off ≠ PRT_HEADSTAT p) : 0x800000 ≤ off := by
  obtain h | h | h | h | ⟨l, h⟩ := h
  · exact absurd h hl
  · exact absurd h hh
  · rw [h]
    decide
  · rw [counterReg_iff, PMC_STAT] at h
    omega
  · rw [h, CAL_LANE]
    omega

theorem not_linkReg {p off : Nat} (h : off < 0x800000) (hl : off ≠ PRT_LINKSTAT p) (hh : off ≠ PRT_HEADSTAT p) : ¬ linkReg p off := fun hr => by
  have := linkReg_units hr hl hh
  omega

/-- Nothing of another port, of the home slices, of DRAM and its caches, of the reports, and no register but the link's own changes. -/
structure LinkStep (p : Nat) (s t : State) : Prop where
  others : ∀ q, q ≠ p → t.port q = s.port q
  home : t.home = s.home
  tier : t.tier = s.tier
  dram : t.dram = s.dram
  tap : t.tap = s.tap
  reports : t.reports = s.reports
  regs : regsKept (linkReg p) s t

namespace LinkStep

variable {p : Nat} {s t u : State}

theorem refl (p : Nat) (s : State) : LinkStep p s s := ⟨fun _ _ => rfl, rfl, rfl, rfl, rfl, rfl, .refl _ s⟩

theorem trans (a : LinkStep p s t) (b : LinkStep p t u) : LinkStep p s u :=
  ⟨fun q hq => (b.others q hq).trans (a.others q hq), b.home.trans a.home, b.tier.trans a.tier, b.dram.trans a.dram, b.tap.trans a.tap,
    b.reports.trans a.reports, a.regs.trans b.regs⟩

theorem setRg (a : LinkStep p s t) {off : Nat} (h : linkReg p off) (v : Word) : LinkStep p s (t.setRg off v) :=
  a.trans ⟨fun _ _ => rfl, rfl, rfl, rfl, rfl, rfl, (regsKept.refl _ t).setRg h v⟩

theorem status (a : LinkStep p s t) (f : Fld) (v : Nat) : LinkStep p s (t.fset (PRT_LINKSTAT p) f v) := a.setRg (.inl rfl) _

theorem head (a : LinkStep p s t) (f : Fld) (v : Nat) : LinkStep p s (t.fset (PRT_HEADSTAT p) f v) := a.setRg (.inr (.inl rfl)) _

theorem portUpd (a : LinkStep p s t) (f : Port → Port) : LinkStep p s (portUpd t p f) :=
  a.trans ⟨fun q hq => (portUpd_port t p q f).trans (if_neg hq), rfl, rfl, rfl, rfl, rfl, portUpd_regsKept _ t p f⟩

theorem irq (a : LinkStep p s t) (n : Nat) : LinkStep p s (t.irq n) :=
  a.trans ⟨fun q _ => t.irq_port n q, t.irq_home n, State.irq_same (·.tier) (fun _ _ _ _ => rfl) t n, t.irq_dram n,
    State.irq_same (·.tap) (fun _ _ _ _ => rfl) t n, State.irq_same (·.reports) (fun _ _ _ _ => rfl) t n,
    (t.irq_regsKept n).mono fun _ h => .inr (.inr (.inl h))⟩

theorem ev (a : LinkStep p s t) {e : Nat} (h : e < 1536) : LinkStep p s (t.ev e) :=
  a.trans ⟨fun q _ => t.ev_port e q, t.ev_home e, t.ev_tier e, t.ev_dram e, t.ev_tap e, t.ev_reports e,
    (t.ev_regsKept e h).mono fun _ h => .inr (.inr (.inr (.inl h)))⟩

/-- What changes diagnostics, the count of free values or calibration only. -/
theorem inside (a : LinkStep p s t) (d : Diag) (n : Nat) (c : Tab CalPort) : LinkStep p s { t with diag := d, ctr := n, cal := c } :=
  a.trans ⟨fun _ _ => rfl, rfl, rfl, rfl, rfl, rfl, .of_regs rfl⟩

theorem diagSet (a : LinkStep p s t) (k i n : Nat) : LinkStep p s (t.diagSet k i n) := a.inside _ t.ctr t.cal

theorem diagAdd (a : LinkStep p s t) (k i n : Nat) : LinkStep p s (t.diagAdd k i n) := a.inside _ t.ctr t.cal

theorem ltssm (a : LinkStep p s t) (n : Nat) : LinkStep p s (ltssm t p n) := a.inside _ t.ctr t.cal

theorem free (a : LinkStep p s t) (n : Nat) : LinkStep p s (t.free n).2 := a.inside t.diag _ t.cal

theorem memEnable (a : LinkStep p s t) : LinkStep p s (memEnable t p) := a.status _ _

theorem headOnly (a : LinkStep p s t) (b : HeadOnly p t u) : LinkStep p s u :=
  a.trans ⟨b.others, b.home, by rw [b.frame], b.dram, by rw [b.frame], b.reports, b.regsKept _⟩

theorem foldl {α : Type} (a : LinkStep p s t) (f : State → α → State) (h : ∀ v x, LinkStep p v (f v x)) (l : List α) : LinkStep p s (l.foldl f t) := by
  induction l generalizing t with
  | nil => exact a
  | cons x r ih => exact ih (a.trans (h t x))

theorem fget (a : LinkStep p s t) {off : Nat} (h : ¬ linkReg p off) (f : Fld) : t.fget off f = s.fget off f := a.regs.fget h f

theorem hostMode (a : LinkStep p s t) (hp : p < 16) : hostMode t p = hostMode s p := by
  rw [Machine.hostMode, a.fget (not_linkReg (by unfold PRT_CFG; omega) (PRT_CFG_ne_linkstat p p) (by unfold PRT_CFG PRT_HEADSTAT; omega)), Machine.hostMode]

/-- The link is up where its status shows so. -/
theorem linkUp (a : LinkStep p s t) (hp : p < 16) (hd : s.tap.driven = false) (hm : Machine.hostMode s p = true)
    (hu : t.fget (PRT_LINKSTAT p) F.PRT_LINKSTAT_UP = 1) : linkUp t p = true :=
  linkUp_iff.2 ⟨a.tap ▸ hd, (a.hostMode hp).trans hm, hu⟩

end LinkStep

@[simp] theorem ltssm_port (s : State) (p n k : Nat) : (ltssm s p n).port k = s.port k := State.diagLog_port ..
@[simp] theorem ltssm_calp (s : State) (p n k : Nat) : (ltssm s p n).calp k = s.calp k := congrArg (tabGet (fun _ => CalPort.init) · k) (s.diagLog_cal ..)
@[simp] theorem State.diagAdd_calp (s : State) (d i n k : Nat) : (s.diagAdd d i n).calp k = s.calp k := congrArg (tabGet (fun _ => CalPort.init) · k) (s.diagAdd_cal ..)
@[simp] theorem ltssm_fget (s : State) (p n off : Nat) (f : Fld) : (ltssm s p n).fget off f = s.fget off f := State.diagLog_fget ..
@[simp] theorem portUpd_fget (s : State) (p : Nat) (f : Port → Port) (off : Nat) (g : Fld) : (portUpd s p f).fget off g = s.fget off g := rfl
@[simp] theorem State.free_port (s : State) (n k : Nat) : (s.free n).2.port k = s.port k := rfl
@[simp] theorem State.free_fget (s : State) (n off : Nat) (f : Fld) : (s.free n).2.fget off f = s.fget off f := rfl

/-! Training sets the trims of the port's lanes only. -/

theorem calInterrupt_idle {s : State} {p : Nat} (h : (s.calp p).queue = []) : calInterrupt s p = s := by
  unfold calInterrupt
  simp only [h]

/-- The trims of one lane. -/
def trimsSet (p : Nat) (t : State) (l : Nat) : State :=
  let f := t.free 37
  f.2.setRg (CAL_LANE p l) (BitVec.ofNat 64 (putBits (f.2.rg (CAL_LANE p l)).toNat 0 37 f.1))

theorem calTrained_eq (s : State) (p : Nat) : calTrained s p = (List.range 17).foldl (trimsSet p) (s.setCalp p { s.calp p with pend := [], phase := [] }) := rfl

/-- Setting the trims of a lane stores its register and counts a free value. -/
theorem trimsSet_cases (p : Nat) (t : State) (l : Nat) : ∃ n v, trimsSet p t l = { t with ctr := n }.setRg (CAL_LANE p l) v := ⟨_, _, rfl⟩

theorem trimsSet_linkStep (p : Nat) (t : State) (l : Nat) : LinkStep p t (trimsSet p t l) := by
  obtain ⟨n, v, e⟩ := trimsSet_cases p t l
  rw [e]
  exact ((LinkStep.refl p t).inside t.diag n t.cal).setRg (.inr (.inr (.inr (.inr ⟨l, rfl⟩)))) v

theorem calTrained_linkStep (s : State) (p : Nat) : LinkStep p s (calTrained s p) := by
  rw [calTrained_eq]
  exact ((LinkStep.refl p s).inside s.diag s.ctr _).foldl _ (trimsSet_linkStep p) _

theorem foldl_trimsSet_port (p k : Nat) (l : List Nat) (t : State) : (l.foldl (trimsSet p) t).port k = t.port k := by
  induction l generalizing t with
  | nil => rfl
  | cons x r ih =>
    obtain ⟨n, v, e⟩ := trimsSet_cases p t x
    rw [List.foldl_cons, ih, e, State.setRg_port]
    rfl

@[simp] theorem calTrained_port (s : State) (p k : Nat) : (calTrained s p).port k = s.port k := by
  rw [calTrained_eq, foldl_trimsSet_port]
  rfl

/-- Training leaves the registers of units as they are. -/
theorem calTrained_units (s : State) (p : Nat) : UnitRegsKept s (calTrained s p) := by
  rw [calTrained_eq]
  refine regsKept.trans (.of_regs (State.setCalp_regs ..)) (regsKept.foldl _ _ (fun l _ t => ?_) _)
  obtain ⟨n, v, e⟩ := trimsSet_cases p t l
  rw [e]
  exact regsKept.setRg (t := { t with ctr := n }) (.refl _ t) (by unfold CAL_LANE; omega) v

/-! Releases of Dynamic Capacity while nothing waits. -/

/-- What a table shows at a key is the default or the value of an entry. -/
theorem tabGet_cases {α : Type} (d : Nat → α) (t : Tab α) (k : Nat) : tabGet d t k = d k ∨ ∃ x ∈ t, tabGet d t k = x.2 := by
  induction t with
  | nil => exact .inl rfl
  | cons x r ih =>
    rw [show tabGet d (x :: r) k = if x.1 = k then x.2 else tabGet d r k from rfl]
    split
    · exact .inr ⟨x, List.mem_cons_self, rfl⟩
    · exact ih.imp_right fun ⟨y, hy, e⟩ => ⟨y, List.mem_cons_of_mem _ hy, e⟩

theorem portUpd_ports (s : State) (p : Nat) (f : Port → Port) : (portUpd s p f).ports = tabSet (fun _ => Port.init) s.ports p (f (s.port p)) := rfl

theorem releasing_none {s : State} (h : ∀ x ∈ s.ports, x.2.releasing = []) (p : Nat) : (s.port p).releasing = [] := by
  obtain e | ⟨x, hx, e⟩ := tabGet_cases (fun _ => Port.init) s.ports p
  · exact congrArg Port.releasing e
  · exact (congrArg Port.releasing e).trans (h x hx)

/-- An update that releases nothing leaves no port with a release. -/
theorem portUpd_releasing {s : State} (h : ∀ x ∈ s.ports, x.2.releasing = []) {p : Nat} {f : Port → Port} (hf : (f (s.port p)).releasing = (s.port p).releasing) :
    ∀ x ∈ (portUpd s p f).ports, x.2.releasing = [] := by
  intro x hx
  rw [portUpd_ports] at hx
  obtain e | e := mem_tabSet hx
  · rw [e]
    exact hf.trans (releasing_none h p)
  · exact h x e

theorem port_releasing {s : State} (h : nothingWaits s) (p : Nat) : (s.port p).releasing = [] := by
  obtain ⟨-, -, -, ports, -⟩ := h
  exact releasing_none ports p

theorem nothingWaits_portUpd {s : State} (h : nothingWaits s) {p : Nat} {f : Port → Port} (hf : (f (s.port p)).releasing = (s.port p).releasing) : nothingWaits (portUpd s p f) := by
  obtain ⟨waiting, arrived, writes, ports, banks⟩ := h
  exact ⟨waiting, arrived, writes, portUpd_releasing ports hf, banks⟩

theorem msix_releasing {s : State} (h : ∀ x ∈ s.ports, x.2.releasing = []) (p v : Nat) : ∀ x ∈ (msix s p v).ports, x.2.releasing = [] := by
  unfold msix
  dsimp only
  split
  · exact portUpd_releasing (f := fun x => { x with msixPend := withBit x.msixPend v true }) h rfl
  · exact h

/-! A line in the line cache. -/

theorem lcScan_of_lc {s t : State} (h : t.tier.lc = s.tier.lc) (base line : Nat) (copy : Bool) (n w : Nat) : lcScan t base line copy n w = lcScan s base line copy n w := by
  induction n generalizing w with
  | zero => rfl
  | succ n ih =>
    have same : lcAt t (base + w) = lcAt s (base + w) := by rw [lcAt, h, lcAt]
    simp only [lcScan, same, ih]

theorem lcFind_of_lc {s t : State} (h : t.tier.lc = s.tier.lc) (la : Nat) : lcFind t la = lcFind s la := lcScan_of_lc h ..

end Sys2Proof.Machine
end

section
/-! PROOF. Host links that train, narrow and recover: O33 (R86 to R88, R111). -/

namespace Sys2Proof.Machine

/-! Training (R86, R87). -/

/-- The link's status as training has set it, but for CXL.mem. -/
def linkShown (s : State) (p width speed flit : Nat) : State :=
  let r := PRT_LINKSTAT p
  ((((s.fset r F.PRT_LINKSTAT_UP 1).fset r F.PRT_LINKSTAT_WIDTH width).fset r F.PRT_LINKSTAT_SPEED speed).fset r F.PRT_LINKSTAT_FLIT flit).fset r F.PRT_LINKSTAT_L0PW width

/-- The link after training, but for CXL.mem. -/
def linkTrained (s : State) (p width speed flit : Nat) : State :=
  let fr := (linkShown s p width speed flit).free 256
  portUpd (calTrained ((ltssm (fr.2.diagSet dgEQ p fr.1) p 1).irq (64 + p)) p) p (fun x => { x with terms := true, l1 := false, full := width })

/-- The port may train, and width, speed and flit format are ones it allows. -/
structure TrainFits (s : State) (p width speed flit : Nat) : Prop where
  host : hostMode s p = true
  released : s.fget (PRT_CFG p) F.PRT_CFG_RELEASE = 1
  perst : (s.port p).perst = 0
  unfenced : portFenced s p = false
  down : linkUp s p = false
  clocked : gated s (1 + p) = false
  awake : s.pst < 2
  maxWidth : s.fget (PRT_CFG p) F.PRT_CFG_MAXW ≤ width
  width_lt : width < 4
  speed_lt : speed < 3
  flit_lt : flit < 3
  maxSpeed : speed = 2 → s.fget (PRT_CFG p) F.PRT_CFG_MAXSPD = 0
  format : speed = 2 ↔ 0 < flit
  latency : flit = 2 → s.fget (PRT_CFG p) F.PRT_CFG_LOPT_EN = 1

theorem TrainFits.fit {s : State} {p width speed flit : Nat} (h : TrainFits s p width speed flit) :
    (decide (s.fget (PRT_CFG p) F.PRT_CFG_MAXW ≤ width) && width < 4 && speed < 3 && flit < 3 && (speed != 2 || s.fget (PRT_CFG p) F.PRT_CFG_MAXSPD == 0) &&
      ((speed == 2) == (0 < flit)) && (flit != 2 || s.fget (PRT_CFG p) F.PRT_CFG_LOPT_EN == 1)) = true := by
  have hs := h.maxSpeed
  have hf := h.format
  have hl := h.latency
  simp only [Bool.and_eq_true, decide_eq_true_eq, Bool.or_eq_true, bne_iff_ne, beq_iff_eq, ne_eq]
  refine ⟨⟨⟨⟨⟨⟨h.maxWidth, h.width_lt⟩, h.speed_lt⟩, h.flit_lt⟩, ?_⟩, ?_⟩, ?_⟩
  · tauto
  · rw [Bool.eq_iff_iff, beq_iff_eq, decide_eq_true_eq]
    exact hf
  · tauto

/-- A link slower or narrower than CXL.mem needs is recorded besides. -/
theorem hostLinkUp_fits {s : State} {p width speed flit : Nat} (h : TrainFits s p width speed flit) : hostLinkUp p width speed flit s =
    if 1 ≤ speed ∧ width < 3 then memEnable (linkTrained s p width speed flit) p
    else portEvent (memEnable (linkTrained s p width speed flit) p) p C.PRT_E_SPEED (srcId 1 p) 0 := by
  refine if_neg ?_
  rintro (e | e | e | e | e | e | e | e)
  · exact absurd (h.host.symm.trans e) (by decide)
  · exact absurd (h.released.symm.trans e) (by decide)
  · exact e h.perst
  · exact absurd (h.unfenced.symm.trans e) (by decide)
  · exact absurd (h.down.symm.trans e) (by decide)
  · exact absurd (h.clocked.symm.trans e) (by decide)
  · exact absurd h.awake (by omega)
  · exact absurd (h.fit.symm.trans e) (by decide)

section
variable (s : State) (p width speed flit : Nat)

theorem linkShown_linkStep : LinkStep p s (linkShown s p width speed flit) := (((((LinkStep.refl p s).status _ _).status _ _).status _ _).status _ _).status _ _

theorem linkShown_up : (linkShown s p width speed flit).fget (PRT_LINKSTAT p) F.PRT_LINKSTAT_UP = 1 := by
  unfold linkShown
  dsimp only
  rw [State.fset_fget_apart _ _ _ _ _ (by decide) (by decide), State.fset_fget_apart _ _ _ _ _ (by decide) (by decide), State.fset_fget_apart _ _ _ _ _ (by decide) (by decide),
    State.fset_fget_apart _ _ _ _ _ (by decide) (by decide), State.fset_fget_lt _ _ _ _ (by decide) (by decide)]

theorem linkShown_width (hw : width < 4) : (linkShown s p width speed flit).fget (PRT_LINKSTAT p) F.PRT_LINKSTAT_WIDTH = width := by
  unfold linkShown
  dsimp only
  rw [State.fset_fget_apart _ _ _ _ _ (by decide) (by decide), State.fset_fget_apart _ _ _ _ _ (by decide) (by decide), State.fset_fget_apart _ _ _ _ _ (by decide) (by decide),
    State.fset_fget_lt _ _ _ _ (by decide) hw]

theorem linkShown_speed (hs : speed < 3) : (linkShown s p width speed flit).fget (PRT_LINKSTAT p) F.PRT_LINKSTAT_SPEED = speed := by
  unfold linkShown
  dsimp only
  rw [State.fset_fget_apart _ _ _ _ _ (by decide) (by decide), State.fset_fget_apart _ _ _ _ _ (by decide) (by decide),
    State.fset_fget_lt _ _ _ _ (by decide) (hs.trans (by decide))]

theorem linkShown_flit (hf : flit < 3) : (linkShown s p width speed flit).fget (PRT_LINKSTAT p) F.PRT_LINKSTAT_FLIT = flit := by
  unfold linkShown
  dsimp only
  rw [State.fset_fget_apart _ _ _ _ _ (by decide) (by decide), State.fset_fget_lt _ _ _ _ (by decide) (hf.trans (by decide))]

/-- What training does besides leaves the link's status alone. -/
theorem linkTrained_fget (hp : p < 16) (f : Fld) :
    (linkTrained s p width speed flit).fget (PRT_LINKSTAT p) f = (linkShown s p width speed flit).fget (PRT_LINKSTAT p) f := by
  have low : PRT_LINKSTAT p < 0x800000 := by
    unfold PRT_LINKSTAT
    omega
  unfold linkTrained
  rw [portUpd_fget, (calTrained_units _ p).fget low, (State.irq_units _ _).fget low, ltssm_fget, State.diagSet_fget, State.free_fget]

theorem linkTrained_linkStep : LinkStep p s (linkTrained s p width speed flit) := by
  unfold linkTrained
  exact ((((((linkShown_linkStep s p width speed flit).free 256).diagSet _ _ _).ltssm 1).irq (64 + p)).trans (calTrained_linkStep _ p)).portUpd _

theorem linkTrained_memEn : ((linkTrained s p width speed flit).port p).memEn = (s.port p).memEn := by
  have shown : (linkShown s p width speed flit).port p = s.port p := by simp only [linkShown, State.fset_port]
  unfold linkTrained
  rw [portUpd_port, if_pos rfl]
  dsimp only
  rw [calTrained_port, State.irq_port, ltssm_port, State.diagSet_port, State.free_port, shown]

end

/-! Recovery (R111). -/

/-- The link has recovered, with the count of its replays and its trims. -/
def linkRecovered (s : State) (p : Nat) : State :=
  evPRT p 11 (portUpd (calTrained (ltssm (ltssm (s.diagAdd dgREPLAY p (s.port p).replay.length) p 2) p 1) p) p (fun x => { x with replay := [] }))

theorem exec_linkRecovery {s : State} {p : Nat} (hl : linkUp s p = true) (h1 : (s.port p).l1 = false) (hq : (s.calp p).queue = []) :
    exec (.linkRecovery p) s = .next (linkRecovered s p) := by
  have idle : (calInterrupt (ltssm (ltssm (s.diagAdd dgREPLAY p (s.port p).replay.length) p 2) p 1) p) =
      ltssm (ltssm (s.diagAdd dgREPLAY p (s.port p).replay.length) p 2) p 1 := calInterrupt_idle (by rw [ltssm_calp, ltssm_calp, State.diagAdd_calp, hq])
  have e : execLinkRecovery p s = .next (linkRecovered s p) := by
    rw [execLinkRecovery, if_pos hl, h1]
    dsimp only
    rw [if_neg Bool.false_ne_true, idle, linkRecovered]
  exact e

theorem linkRecovered_linkStep {s : State} {p : Nat} (hp : p < 16) : LinkStep p s (linkRecovered s p) :=
  ((((((LinkStep.refl p s).diagAdd _ _ _).ltssm 2).ltssm 1).trans (calTrained_linkStep _ p)).portUpd _).ev (by omega)

theorem linkRecovered_port (s : State) (p : Nat) : (linkRecovered s p).port p = { s.port p with replay := [] } := by
  unfold linkRecovered evPRT
  rw [State.ev_port, portUpd_port, if_pos rfl, calTrained_port, ltssm_port, ltssm_port, State.diagAdd_port]

theorem linkRecovered_fget {s : State} {p : Nat} (hp : p < 16) (f : Fld) : (linkRecovered s p).fget (PRT_LINKSTAT p) f = s.fget (PRT_LINKSTAT p) f := by
  have low : PRT_LINKSTAT p < 0x800000 := by
    unfold PRT_LINKSTAT
    omega
  unfold linkRecovered evPRT
  rw [(State.ev_regsKept _ _ (by omega)).fget (by rw [counterReg_iff, PMC_STAT]; omega), portUpd_fget, (calTrained_units _ p).fget low, ltssm_fget, ltssm_fget, State.diagAdd_fget]

end Sys2Proof.Machine

open Sys2Proof Sys2Proof.Machine

/-- Settles O33: training sets the link's status, L0p one field of it, and recovery none. -/
theorem hostLinkTrainsAndNarrows : Obligations.HostLinkTrainsAndNarrows := by
  refine ⟨fun s p width speed flit hp host undriven released perst unfenced down clocked awake maxWidth hw hs hf maxSpeed format latency => ?_, fun s p width hp hl => ⟨?_, ?_⟩, ?_⟩
  · have step := (linkTrained_linkStep s p width speed flit).memEnable
    have shown : ∀ f : Fld, (f.lo + f.w ≤ 10 ∨ 11 ≤ f.lo) →
        (memEnable (linkTrained s p width speed flit) p).fget (PRT_LINKSTAT p) f = (linkShown s p width speed flit).fget (PRT_LINKSTAT p) f :=
      fun f h => (memEnable_fget _ p _ h).trans (linkTrained_fget s p width speed flit hp f)
    have mem : (memEnable (linkTrained s p width speed flit) p).fget (PRT_LINKSTAT p) F.PRT_LINKSTAT_MEM_EN = 1 ↔ 1 ≤ speed ∧ width < 3 ∧ (s.port p).memEn = true := by
      rw [memEnable_iff]
      simp only [linkTrained_fget s p width speed flit hp, linkShown_up, linkShown_width s p width speed flit hw, linkShown_speed s p width speed flit hs, linkTrained_memEn,
        true_and]
    have event : HeadOnly p (memEnable (linkTrained s p width speed flit) p) (hostLinkUp p width speed flit s) := by
      rw [hostLinkUp_fits ⟨host, released, perst, unfenced, down, clocked, awake, maxWidth, hw, hs, hf, maxSpeed, format, latency⟩]
      split
      · exact .refl p _
      · exact (HeadOnly.refl p _).portEventIn _ _ _ _ _
    have all := step.headOnly event
    refine completes_next rfl rfl ⟨all.linkUp hp undriven host ?_, ?_, ?_, ?_, ?_, all.others, all.dram, all.home⟩
    · rw [event.fget, shown _ (by decide), linkShown_up]
    · rw [event.fget, shown _ (by decide), linkShown_width s p width speed flit hw]
    · rw [event.fget, shown _ (by decide), linkShown_speed s p width speed flit hs]
    · rw [event.fget, shown _ (by decide), linkShown_flit s p width speed flit hf]
    · rw [event.fget, mem]
  · intro on fast wide narrow
    have e : exec (.l0pWidthChange p width) s = .next (evPRT p 12 (s.fset (PRT_LINKSTAT p) F.PRT_LINKSTAT_L0PW width)) := congrArg Host.Outcome.next (if_pos ⟨hl, on, fast, wide, narrow⟩)
    have event := (s.fset (PRT_LINKSTAT p) F.PRT_LINKSTAT_L0PW width).ev_regsKept (16 * p + 12) (by omega)
    refine completes_next e rfl ⟨?_, ?_, ((s.fset_regsKept _ _ _).mono fun _ => .inl).trans (event.mono fun _ => .inr)⟩
    · rw [evPRT, event.fget (by rw [counterReg_iff, PMC_STAT, PRT_LINKSTAT]; omega), State.fset_fget_lt _ _ _ _ (by decide) (narrow.trans (by decide))]
    · obtain ⟨r, l, h⟩ := State.ev_frame (s.fset (PRT_LINKSTAT p) F.PRT_LINKSTAT_L0PW width) (16 * p + 12)
      obtain ⟨r', h'⟩ := s.fset_frame (PRT_LINKSTAT p) F.PRT_LINKSTAT_L0PW width
      rw [evPRT, h, h']
  · intro h
    refine congrArg Host.Outcome.next (if_neg fun ⟨_, on, fast, _⟩ => ?_)
    obtain h | h := h
    · exact absurd (h.symm.trans on) (by decide)
    · exact h fast
  · intro s p hp hl h1 hq
    obtain ⟨undriven, host, up⟩ := linkUp_iff.1 hl
    have step : LinkStep p s (linkRecovered s p) := linkRecovered_linkStep hp
    refine completes_next (exec_linkRecovery hl h1 hq) rfl ⟨step.linkUp hp undriven host ?_, linkRecovered_port s p, step.others, step.dram, step.home⟩
    rw [linkRecovered_fget hp, up]
end

section
/-! PROOF. Resets of a host-mode port: O32 (R111, R112, R114). -/

namespace Sys2Proof.Machine

/-! A port without anything at the home slices (R112, R113). -/

theorem heldLines_eq_nil {s : State} {p : Nat} : heldLines s p = [] ↔ ∀ x ∈ s.home.dirEnt, ∀ e, x.2 = some e → bit e.sharers p = false := by
  unfold heldLines
  rw [List.filterMap_eq_nil_iff]
  refine forall₂_congr fun x _ => ?_
  cases x.2 with
  | none => simp
  | some e => simp

/-- The port holds no line, no recall is out, and nothing waits. -/
structure Unheld (s : State) (p : Nat) : Prop where
  lines : heldLines s p = []
  recalls : s.home.recalls = []
  quiet : nothingWaits s

theorem Unheld.of_home {s t : State} {p : Nat} (a : Unheld s p) (h : t.home = s.home) (q : nothingWaits t) : Unheld t p := by
  refine ⟨?_, h ▸ a.recalls, q⟩
  rw [heldLines_eq_nil, h]
  exact heldLines_eq_nil.1 a.lines

theorem nothingWaits_status {s : State} (h : nothingWaits s) {p : Nat} (hp : p < 16) (f : Fld) (v : Nat) : nothingWaits (s.fset (PRT_LINKSTAT p) f v) :=
  nothingWaits_setRg (fun i => by unfold PRT_LINKSTAT SRM_FENCE; omega) _ h

theorem nothingWaits_irq {s : State} (h : nothingWaits s) (hz : s.pst = 0) (n : Nat) : nothingWaits (s.irq n) := by
  obtain e | ⟨o, e⟩ := State.irq_awake hz n
  · exact e.symm ▸ h
  · exact e.symm ▸ h

theorem leaveDirectory_unheld {s : State} {p : Nat} (h : s.home.recalls = []) : leaveDirectory s p [] true = s := by
  unfold leaveDirectory
  simp only [List.filter_nil, List.foldl_nil, h, List.map_nil, List.length_nil, ne_eq, not_true_eq_false, if_true, if_false]
  rw [← h]

/-- The port as the cut leaves it. -/
def cutOff (x : Port) : Port := { x with trk := [], replay := [], gen := x.gen + 1, dirGen := x.gen + 1 }

theorem cutPort_unheld {s : State} {p : Nat} (a : Unheld s p) : cutPort s p = portUpd s p cutOff := by
  have b : Unheld (portUpd s p cutOff) p := a.of_home rfl (nothingWaits_portUpd a.quiet rfl)
  have e : cutPort s p = pump (leaveDirectory (portUpd s p cutOff) p (heldLines (portUpd s p cutOff) p) true) := rfl
  rw [e, b.lines, leaveDirectory_unheld b.recalls, pump_quiet b.quiet]

/-! The link's status (R84, R111). -/

/-- What of a port's link status a reset changes. -/
structure LinkFields where
  up : Nat
  memEn : Nat
  ide : Nat
  resets : Nat
  lastrst : Nat

def linkFields (s : State) (p : Nat) : LinkFields :=
  ⟨s.fget (PRT_LINKSTAT p) F.PRT_LINKSTAT_UP, s.fget (PRT_LINKSTAT p) F.PRT_LINKSTAT_MEM_EN, s.fget (PRT_LINKSTAT p) F.PRT_LINKSTAT_IDE,
    s.fget (PRT_LINKSTAT p) F.PRT_LINKSTAT_RESETS, s.fget (PRT_LINKSTAT p) F.PRT_LINKSTAT_LASTRST⟩

theorem linkFields_of_rg {s t : State} {p : Nat} (h : t.rg (PRT_LINKSTAT p) = s.rg (PRT_LINKSTAT p)) : linkFields t p = linkFields s p := by
  simp only [linkFields, State.fget, h]

section
variable (s : State) (p : Nat)

/-! One field is set, the others stand. -/

theorem linkFields_up {v : Nat} (hv : v < 2) : linkFields (s.fset (PRT_LINKSTAT p) F.PRT_LINKSTAT_UP v) p = { linkFields s p with up := v } := by
  simp only [linkFields, State.fset_fget_lt s _ F.PRT_LINKSTAT_UP v (by decide) hv]
  simp (disch := decide) only [State.fset_fget_apart]

theorem linkFields_memEn {v : Nat} (hv : v < 2) : linkFields (s.fset (PRT_LINKSTAT p) F.PRT_LINKSTAT_MEM_EN v) p = { linkFields s p with memEn := v } := by
  simp only [linkFields, State.fset_fget_lt s _ F.PRT_LINKSTAT_MEM_EN v (by decide) hv]
  simp (disch := decide) only [State.fset_fget_apart]

theorem linkFields_ide {v : Nat} (hv : v < 2) : linkFields (s.fset (PRT_LINKSTAT p) F.PRT_LINKSTAT_IDE v) p = { linkFields s p with ide := v } := by
  simp only [linkFields, State.fset_fget_lt s _ F.PRT_LINKSTAT_IDE v (by decide) hv]
  simp (disch := decide) only [State.fset_fget_apart]

theorem linkFields_resets {v : Nat} (hv : v < 2 ^ F.PRT_LINKSTAT_RESETS.w) :
    linkFields (s.fset (PRT_LINKSTAT p) F.PRT_LINKSTAT_RESETS v) p = { linkFields s p with resets := v } := by
  simp only [linkFields, State.fset_fget_lt s _ F.PRT_LINKSTAT_RESETS v (by decide) hv]
  simp (disch := decide) only [State.fset_fget_apart]

theorem linkFields_lastrst {v : Nat} (hv : v < 8) : linkFields (s.fset (PRT_LINKSTAT p) F.PRT_LINKSTAT_LASTRST v) p = { linkFields s p with lastrst := v } := by
  simp only [linkFields, State.fset_fget_lt s _ F.PRT_LINKSTAT_LASTRST v (by decide) hv]
  simp (disch := decide) only [State.fset_fget_apart]

@[simp] theorem linkFields_head (f : Fld) (v : Nat) : linkFields (s.fset (PRT_HEADSTAT p) f v) p = linkFields s p :=
  linkFields_of_rg (s.fset_rg_other _ _ _ _ (PRT_HEADSTAT_ne_linkstat p p).symm)

/-! The steps of a reset. -/

@[simp] theorem linkFields_portUpd (f : Port → Port) : linkFields (portUpd s p f) p = linkFields s p := linkFields_of_rg (portUpd_regsKept (fun _ => False) s p f _ id)

@[simp] theorem linkFields_ltssm (n : Nat) : linkFields (ltssm s p n) p = linkFields s p := linkFields_of_rg (State.diagLog_rg ..)

@[simp] theorem linkFields_endMailbox : linkFields (endMailbox s p) p = linkFields s p := linkFields_portUpd ..

@[simp] theorem linkFields_clearFatal : linkFields (clearFatal s p) p = linkFields s p := by
  unfold clearFatal
  split
  · exact linkFields_head ..
  · rfl

/-- With Mem_Enable clear CXL.mem is off. -/
theorem memEnable_off (h : (s.port p).memEn = false) : memEnable s p = s.fset (PRT_LINKSTAT p) F.PRT_LINKSTAT_MEM_EN 0 :=
  congrArg (s.fset _ _) (if_neg fun ⟨_, _, _, on⟩ => Bool.false_ne_true (h.symm.trans on))

@[simp] theorem linkFields_uncommitAll : linkFields (uncommitAll s p) p = { linkFields s p with memEn := 0 } := by
  unfold uncommitAll
  rw [memEnable_off _ _ (by rw [State.fset_port, State.fset_port, portUpd_port, if_pos rfl]), linkFields_memEn _ _ (by decide), linkFields_head, linkFields_head, linkFields_portUpd]

@[simp] theorem linkFields_tearIde : linkFields (tearIde s p) p = { linkFields s p with ide := 0 } := by
  unfold tearIde
  rw [linkFields_ide _ _ (by decide), linkFields_portUpd]

/-- The count after one more reset. -/
def resetsCounted (n : Nat) : Nat := min (n + 1) (2 ^ F.PRT_LINKSTAT_RESETS.w - 1)

theorem resetsCounted_lt (n : Nat) : resetsCounted n < 2 ^ F.PRT_LINKSTAT_RESETS.w := (Nat.min_le_right _ _).trans_lt (by decide)

theorem linkFields_counted : linkFields (s.fsat (PRT_LINKSTAT p) F.PRT_LINKSTAT_RESETS 1) p = { linkFields s p with resets := resetsCounted (linkFields s p).resets } :=
  linkFields_resets s p (resetsCounted_lt _)

theorem linkFields_countReset {kind : Nat} (hk : kind < 8) :
    linkFields (countReset s p kind) p = { linkFields s p with resets := resetsCounted (linkFields s p).resets, lastrst := kind } := by
  unfold countReset
  rw [linkFields_lastrst _ _ hk, linkFields_counted]

theorem linkFields_linkDown (hp : p < 16) (hq : (s.calp p).queue = []) : linkFields (linkDown s p) p = { linkFields s p with up := 0, memEn := 0 } := by
  have irq : ∀ v : State, linkFields (v.irq (64 + p)) p = linkFields v p := fun v =>
    linkFields_of_rg (v.irq_rg_other _ _ (by unfold PRT_LINKSTAT PWR_STAT; omega))
  unfold linkDown
  rw [calInterrupt_idle hq]
  dsimp only
  rw [linkFields_portUpd, irq, linkFields_memEn _ _ (by decide), linkFields_up _ _ (by decide), linkFields_ltssm]

end

/-! The rest of a reset (R111, R113, R114). -/

namespace LinkStep

variable {p : Nat} {s t : State}

theorem uncommitAll (a : LinkStep p s t) : LinkStep p s (uncommitAll t p) := (((a.portUpd _).head _ _).head _ _).memEnable
theorem tearIde (a : LinkStep p s t) : LinkStep p s (tearIde t p) := (a.portUpd _).status _ _
theorem endMailbox (a : LinkStep p s t) : LinkStep p s (endMailbox t p) := a.portUpd _
theorem countReset (a : LinkStep p s t) (kind : Nat) : LinkStep p s (countReset t p kind) := (a.status _ _).status _ _

theorem clearFatal (a : LinkStep p s t) : LinkStep p s (clearFatal t p) := by
  unfold Machine.clearFatal
  split
  · exact a.head _ _
  · exact a

theorem linkDown (a : LinkStep p s t) (hq : (t.calp p).queue = []) : LinkStep p s (linkDown t p) := by
  unfold Machine.linkDown
  rw [calInterrupt_idle hq]
  exact ((((a.ltssm 0).status _ _).status _ _).irq _).portUpd _

theorem cutPort (a : LinkStep p s t) (h : Unheld t p) : LinkStep p s (cutPort t p) := by
  rw [cutPort_unheld h]
  exact a.portUpd _

theorem dramKept (a : LinkStep p s t) : dramKept s t := fun _ => by rw [a.dram]; exact ⟨rfl, rfl, rfl⟩

/-- The other ports show what they showed. -/
theorem othersKept (a : LinkStep p s t) : (∀ q, q ≠ p → t.port q = s.port q) ∧ Machine.dramKept s t ∧
    (∀ q < 16, q ≠ p → t.rg (PRT_LINKSTAT q) = s.rg (PRT_LINKSTAT q) ∧ t.rg (PRT_HEADSTAT q) = s.rg (PRT_HEADSTAT q)) :=
  ⟨a.others, a.dramKept, fun q hq hn =>
    ⟨a.regs _ (not_linkReg (by unfold PRT_LINKSTAT; omega) (by unfold PRT_LINKSTAT; omega) (PRT_HEADSTAT_ne_linkstat p q).symm),
      a.regs _ (not_linkReg (by unfold PRT_HEADSTAT; omega) (PRT_HEADSTAT_ne_linkstat q p) (by unfold PRT_HEADSTAT; omega))⟩⟩

end LinkStep

theorem linkDown_unheld {s : State} {p : Nat} (hp : p < 16) (hq : (s.calp p).queue = []) (hz : s.pst = 0) (a : Unheld s p) : Unheld (linkDown s p) p := by
  refine a.of_home ((LinkStep.refl p s).linkDown hq).home ?_
  unfold linkDown
  rw [calInterrupt_idle hq]
  have traced : nothingWaits (ltssm s p 0) := a.quiet
  have awake : (((ltssm s p 0).fset (PRT_LINKSTAT p) F.PRT_LINKSTAT_UP 0).fset (PRT_LINKSTAT p) F.PRT_LINKSTAT_MEM_EN 0).pst = 0 := by
    rw [State.fset_pst, State.fset_pst, ltssm, State.diagLog_pst, hz]
  exact nothingWaits_portUpd (nothingWaits_irq (nothingWaits_status (nothingWaits_status traced hp _ _) hp _ _) awake _) rfl

theorem ltssm_unheld {s : State} {p : Nat} (a : Unheld s p) (n : Nat) : Unheld (ltssm s p n) p := a.of_home (State.diagLog_home ..) a.quiet

/-! The port that is reset. -/

section
variable (s : State) (p : Nat)

theorem linkDown_port (hq : (s.calp p).queue = []) : (linkDown s p).port p = { s.port p with l1 := false } := by
  unfold linkDown
  rw [calInterrupt_idle hq]
  dsimp only
  rw [portUpd_port, if_pos rfl, State.irq_port, State.fset_port, State.fset_port, ltssm_port]

theorem cutPort_port (h : Unheld s p) : (cutPort s p).port p = cutOff (s.port p) := by
  rw [cutPort_unheld h, portUpd_port, if_pos rfl]

@[simp] theorem uncommitAll_port : (uncommitAll s p).port p = { s.port p with dec := [], notCommitted := [], memEn := false } := by
  unfold uncommitAll
  rw [memEnable_port, State.fset_port, State.fset_port, portUpd_port, if_pos rfl]

@[simp] theorem tearIde_port : (tearIde s p).port p = { s.port p with ideInsecure := false, ideSet := none } := by
  unfold tearIde
  rw [State.fset_port, portUpd_port, if_pos rfl]

@[simp] theorem countReset_port (kind k : Nat) : (countReset s p kind).port k = s.port k := by
  unfold countReset
  rw [State.fset_port, State.fsat_port]

@[simp] theorem clearFatal_port (k : Nat) : (clearFatal s p).port k = s.port k := by
  unfold clearFatal
  split
  · rw [State.fset_port]
  · rfl

/-- The end of a mailbox command changes the mailbox only. -/
theorem endMailbox_same {β : Type} (f : Port → β) (h : ∀ (x : Port) a b c d, f { x with mboxBg := a, mboxRun := b, mbox := c, detail := d } = f x) :
    f ((endMailbox s p).port p) = f (s.port p) := by
  unfold endMailbox
  rw [portUpd_port, if_pos rfl]
  split
  · exact h ..
  · rfl

@[simp] theorem endMailbox_trk : ((endMailbox s p).port p).trk = (s.port p).trk := endMailbox_same s p _ fun _ _ _ _ _ => rfl
@[simp] theorem endMailbox_replay : ((endMailbox s p).port p).replay = (s.port p).replay := endMailbox_same s p _ fun _ _ _ _ _ => rfl
@[simp] theorem endMailbox_dec : ((endMailbox s p).port p).dec = (s.port p).dec := endMailbox_same s p _ fun _ _ _ _ _ => rfl

/-- The count of committed decoders that the head shows. -/
def decsShown : Nat := s.fget (PRT_HEADSTAT p) F.PRT_HEADSTAT_DEC_COMMIT

@[simp] theorem decsShown_status (f : Fld) (v : Nat) : decsShown (s.fset (PRT_LINKSTAT p) f v) p = decsShown s p := s.fset_fget_off _ _ _ _ _ (PRT_HEADSTAT_ne_linkstat p p)
@[simp] theorem decsShown_portUpd (f : Port → Port) : decsShown (portUpd s p f) p = decsShown s p := portUpd_fget ..

@[simp] theorem decsShown_uncommitAll : decsShown (uncommitAll s p) p = 0 := by
  unfold uncommitAll
  rw [memEnable_off _ _ (by rw [State.fset_port, State.fset_port, portUpd_port, if_pos rfl]), decsShown_status]
  unfold decsShown
  rw [State.fset_fget_apart _ _ _ _ _ (by decide) (by decide), State.fset_fget_lt _ _ _ _ (by decide) (by decide)]

@[simp] theorem decsShown_tearIde : decsShown (tearIde s p) p = decsShown s p := (decsShown_status ..).trans (decsShown_portUpd ..)
@[simp] theorem decsShown_endMailbox : decsShown (endMailbox s p) p = decsShown s p := decsShown_portUpd ..
@[simp] theorem decsShown_countReset (kind : Nat) : decsShown (countReset s p kind) p = decsShown s p := (decsShown_status ..).trans (decsShown_status ..)

@[simp] theorem decsShown_clearFatal : decsShown (clearFatal s p) p = decsShown s p := by
  unfold clearFatal
  split
  · exact State.fset_fget_apart _ _ _ _ _ (by decide) (by decide)
  · rfl

end

/-- In P0 without a power entry PERST_N wakes nothing. -/
theorem wake_perst {s : State} (hz : s.pst = 0) (hb : s.fget PWR_CTL F.PWR_CTL_BUSY = 0) : wake 0 s = s := by
  have asleep : wakeFrom 0 s.pst = false := by
    rw [hz]
    rfl
  unfold wake
  split
  · rfl
  · rw [if_neg (by rw [hb]; decide)]

/-! What a reset leaves, by its steps. -/

/-- The link down, and with it everything of the port that is under way. -/
def severed (s : State) (p : Nat) : State := tearIde (cutPort (linkDown s p) p) p

theorem downKept_eq (s : State) (p kind : Nat) : downKept s p kind = countReset (endMailbox (severed s p) p) p kind := rfl

section
variable {s : State} {p : Nat} (hp : p < 16) (hq : (s.calp p).queue = []) (hz : s.pst = 0) (a : Unheld s p)
include hp hq hz a

theorem cutPort_linkDown_linkStep : LinkStep p s (cutPort (linkDown s p) p) := ((LinkStep.refl p s).linkDown hq).cutPort (linkDown_unheld hp hq hz a)

theorem cutPort_linkDown_port : (cutPort (linkDown s p) p).port p = cutOff { s.port p with l1 := false } := by
  rw [cutPort_port _ _ (linkDown_unheld hp hq hz a), linkDown_port _ _ hq]

theorem linkFields_cutPort_linkDown : linkFields (cutPort (linkDown s p) p) p = { linkFields s p with up := 0, memEn := 0 } := by
  rw [cutPort_unheld (linkDown_unheld hp hq hz a), linkFields_portUpd, linkFields_linkDown _ _ hp hq]

theorem downKept_linkStep (kind : Nat) : LinkStep p s (downKept s p kind) := (cutPort_linkDown_linkStep hp hq hz a).tearIde.endMailbox.countReset kind

theorem downKept_dec (kind : Nat) : ((downKept s p kind).port p).dec = (s.port p).dec := by
  rw [downKept_eq, countReset_port, endMailbox_dec, severed, tearIde_port, cutPort_linkDown_port hp hq hz a]
  rfl

theorem downKept_cut (kind : Nat) : ((downKept s p kind).port p).trk = [] ∧ ((downKept s p kind).port p).replay = [] := by
  rw [downKept_eq, countReset_port, endMailbox_trk, endMailbox_replay, severed, tearIde_port, cutPort_linkDown_port hp hq hz a]
  exact ⟨rfl, rfl⟩

theorem linkFields_downKept {kind : Nat} (hk : kind < 8) : linkFields (downKept s p kind) p = ⟨0, 0, 0, resetsCounted (linkFields s p).resets, kind⟩ := by
  rw [downKept_eq, linkFields_countReset _ _ hk, linkFields_endMailbox, severed, linkFields_tearIde, linkFields_cutPort_linkDown hp hq hz a]

/-- PERST_N is asserted. -/
def perstHeld (s : State) (p : Nat) : State :=
  clearFatal (portUpd (countReset (endMailbox (tearIde (uncommitAll (cutPort (linkDown s p) p) p) p) p) p 1) p (fun x => { x with perst := 1, terms := false })) p

theorem perstHeld_linkStep : LinkStep p s (perstHeld s p) :=
  (((cutPort_linkDown_linkStep hp hq hz a).uncommitAll.tearIde.endMailbox.countReset 1).portUpd _).clearFatal

theorem linkFields_perstHeld : linkFields (perstHeld s p) p = ⟨0, 0, 0, resetsCounted (linkFields s p).resets, 1⟩ := by
  rw [perstHeld, linkFields_clearFatal, linkFields_portUpd, linkFields_countReset _ _ (by decide), linkFields_endMailbox, linkFields_tearIde, linkFields_uncommitAll,
    linkFields_cutPort_linkDown hp hq hz a]

theorem perstHeld_cut : ((perstHeld s p).port p).trk = [] ∧ ((perstHeld s p).port p).replay = [] := by
  rw [perstHeld, clearFatal_port, portUpd_port, if_pos rfl, countReset_port, endMailbox_trk, endMailbox_replay, tearIde_port, uncommitAll_port,
    cutPort_linkDown_port hp hq hz a]
  exact ⟨rfl, rfl⟩

omit hp hq hz a in
theorem perstHeld_port : ((perstHeld s p).port p).perst = 1 ∧ ((perstHeld s p).port p).terms = false := by
  rw [perstHeld, clearFatal_port, portUpd_port, if_pos rfl]
  exact ⟨rfl, rfl⟩

omit hp hq hz a in
theorem perstHeld_uncommitted : ((perstHeld s p).port p).dec = [] ∧ decsShown (perstHeld s p) p = 0 := by
  constructor
  · rw [perstHeld, clearFatal_port, portUpd_port, if_pos rfl, countReset_port, endMailbox_dec, tearIde_port, uncommitAll_port]
  · rw [perstHeld, decsShown_clearFatal, decsShown_portUpd, decsShown_countReset, decsShown_endMailbox, decsShown_tearIde, decsShown_uncommitAll]

end

/-- A link that went down with its decoders loses them too. -/
def uncommitted (s : State) (p : Nat) : State := clearFatal (uncommitAll s p) p

theorem uncommitted_decoders (s : State) (p : Nat) : ((uncommitted s p).port p).dec = [] ∧ decsShown (uncommitted s p) p = 0 := by
  rw [uncommitted, clearFatal_port, uncommitAll_port, decsShown_clearFatal, decsShown_uncommitAll]
  exact ⟨rfl, rfl⟩

theorem uncommitted_cut {s : State} {p : Nat} (h : (s.port p).trk = [] ∧ (s.port p).replay = []) :
    ((uncommitted s p).port p).trk = [] ∧ ((uncommitted s p).port p).replay = [] := by
  rw [uncommitted, clearFatal_port, uncommitAll_port]
  exact h

theorem linkFields_uncommitted (s : State) (p : Nat) : linkFields (uncommitted s p) p = { linkFields s p with memEn := 0 } := by
  rw [uncommitted, linkFields_clearFatal, linkFields_uncommitAll]

/-- CXL Reset: the cut with the link up. -/
def cutLinked (s : State) (p : Nat) : State := clearFatal (countReset (endMailbox (uncommitAll (cutPort s p) p) p) p 5) p

section
variable {s : State} {p : Nat} (a : Unheld s p)
include a

theorem cutLinked_linkStep : LinkStep p s (cutLinked s p) := (((LinkStep.refl p s).cutPort a).uncommitAll.endMailbox.countReset 5).clearFatal

theorem linkFields_cutLinked : linkFields (cutLinked s p) p = { linkFields s p with memEn := 0, resets := resetsCounted (linkFields s p).resets, lastrst := 5 } := by
  rw [cutLinked, linkFields_clearFatal, linkFields_countReset _ _ (by decide), linkFields_endMailbox, linkFields_uncommitAll, cutPort_unheld a, linkFields_portUpd]

theorem cutLinked_cut : ((cutLinked s p).port p).trk = [] ∧ ((cutLinked s p).port p).replay = [] := by
  rw [cutLinked, clearFatal_port, countReset_port, endMailbox_trk, endMailbox_replay, uncommitAll_port, cutPort_port _ _ a]
  exact ⟨rfl, rfl⟩

omit a in
theorem cutLinked_uncommitted : ((cutLinked s p).port p).dec = [] ∧ decsShown (cutLinked s p) p = 0 := by
  constructor
  · rw [cutLinked, clearFatal_port, countReset_port, endMailbox_dec, uncommitAll_port]
  · rw [cutLinked, decsShown_clearFatal, decsShown_countReset, decsShown_endMailbox, decsShown_uncommitAll]

end

/-! What an event record keeps of the port. -/

theorem portEvent_cut (s : State) (p st src dpa : Nat) : ((portEvent s p st src dpa).port p).trk = (s.port p).trk ∧
    ((portEvent s p st src dpa).port p).replay = (s.port p).replay ∧ ((portEvent s p st src dpa).port p).dec = (s.port p).dec := by
  unfold portEvent portEventIn msix
  dsimp only
  split_ifs <;> simp

/-! The rules of the resets. -/

section
variable {s : State} {p : Nat}

theorem exec_perstAssert (hz : s.pst = 0) (hb : s.fget PWR_CTL F.PWR_CTL_BUSY = 0) (hm : hostMode s p = true) : exec (.perstAssert p) s = .next (perstHeld s p) := by
  have e : perstAssert p (wake 0 s) = perstHeld s p := by
    rw [wake_perst hz hb, perstAssert, if_neg (by omega), if_pos hm, perstHeld]
  exact congrArg Host.Outcome.next e

theorem exec_perstRelease (hz : s.pst = 0) (hb : s.fget PWR_CTL F.PWR_CTL_BUSY = 0) (h : (s.port p).perst = 1) :
    exec (.perstRelease p) s = .next (portUpd s p (fun x => { x with perst := 0, terms := decide (s.pst < 3) && s.fget (PRT_CFG p) F.PRT_CFG_RELEASE == 1 })) := by
  have e : perstRelease p (wake 0 s) = portUpd s p (fun x => { x with perst := 0, terms := decide (s.pst < 3) && s.fget (PRT_CFG p) F.PRT_CFG_RELEASE == 1 }) := by
    rw [wake_perst hz hb, perstRelease, if_pos h]
  exact congrArg Host.Outcome.next e

variable (hl : linkUp s p = true)
include hl

theorem exec_surpriseLinkDown : exec (.surpriseLinkDown p) s =
    .next ((portEvent (downKept s p 2) p C.PRT_F_LINK (srcId 1 p) 0).report (srcId 1 p) 0 C.PRT_F_LINK 0 0) := congrArg Host.Outcome.next (if_pos hl)

theorem exec_hotReset : exec (.hotReset p) s = .next (uncommitted (downKept (ltssm s p 4) p 3) p) := congrArg Host.Outcome.next (if_pos hl)

theorem exec_linkDisable : exec (.linkDisable p) s = .next (downKept (ltssm s p 3) p 4) := congrArg Host.Outcome.next (if_pos hl)

theorem exec_cxlReset (hq : (s.calp p).queue = []) : exec (.cxlReset p) s = .next (cutLinked s p) := by
  have e : execCxlReset p s = .next (cutLinked s p) := by
    rw [execCxlReset, if_pos hl, calInterrupt_idle hq, cutLinked]
  exact e

theorem exec_functionLevelReset : exec (.functionLevelReset p) s = .next ((endMailbox s p).fsat (PRT_LINKSTAT p) F.PRT_LINKSTAT_RESETS 1) :=
  congrArg Host.Outcome.next (if_pos hl)

end
end Sys2Proof.Machine

open Sys2Proof Sys2Proof.Machine

/-- Settles O32: with no line held and nothing waiting a cut changes the port alone, and each reset is a chain of steps that keep to the port's link. -/
theorem portResetsCutTheLink : Obligations.PortResetsCutTheLink := by
  intro s p hp host hq held recalls quiet hz hb others cut down uncommits
  have free : Unheld s p := ⟨held, recalls, quiet⟩
  have shows : ∀ {t : State} {n k : Nat}, linkFields t p = ⟨0, 0, 0, n, k⟩ → down t := fun h => ⟨congrArg LinkFields.up h, congrArg LinkFields.memEn h, congrArg LinkFields.ide h⟩
  have isCut : ∀ {t : State} {x : LinkFields}, LinkStep p s t → (t.port p).trk = [] ∧ (t.port p).replay = [] →
      linkFields t p = { x with resets := resetsCounted (linkFields s p).resets } → cut x.lastrst t := fun step ⟨trk, replay⟩ h =>
    ⟨trk, replay, congrArg LinkFields.lastrst h, congrArg LinkFields.resets h, step.othersKept⟩
  have atLtssm : ∀ n, ((ltssm s p n).calp p).queue = [] ∧ (ltssm s p n).pst = 0 ∧ Unheld (ltssm s p n) p ∧ LinkStep p s (ltssm s p n) := fun n =>
    ⟨(ltssm_calp s p n p).symm ▸ hq, hz, ltssm_unheld free n, (LinkStep.refl p s).ltssm n⟩
  refine ⟨?_, fun perst => ?_, fun hl => ⟨?_, ?_, ?_, ?_, ?_⟩⟩
  · have fields := linkFields_perstHeld hp hq hz free
    exact completes_next (exec_perstAssert hz hb host) rfl ⟨isCut (x := ⟨0, 0, 0, 0, 1⟩) (perstHeld_linkStep hp hq hz free) (perstHeld_cut hp hq hz free) fields, shows fields,
      perstHeld_uncommitted, perstHeld_port⟩
  · refine completes_next (exec_perstRelease hz hb perst) rfl ⟨?_, ?_, rfl, ((LinkStep.refl p s).portUpd _).othersKept⟩
    · rw [portUpd_port, if_pos rfl]
    · rw [portUpd_port, if_pos rfl]
      simp [hz]
  · have e := exec_surpriseLinkDown hl
    obtain ⟨trk, replay, dec⟩ := portEvent_cut (downKept s p 2) p C.PRT_F_LINK (srcId 1 p) 0
    obtain ⟨noTrk, noReplay⟩ := downKept_cut hp hq hz free 2
    have event : HeadOnly p (downKept s p 2) (portEvent (downKept s p 2) p C.PRT_F_LINK (srcId 1 p) 0) := (HeadOnly.refl p _).portEventIn _ _ _ _ _
    have step := (downKept_linkStep hp hq hz free 2).headOnly event
    have fields := (linkFields_of_rg (event.rg (PRT_LINKSTAT p))).trans (linkFields_downKept hp hq hz free (kind := 2) (by decide))
    have decKept := dec.trans (downKept_dec hp hq hz free 2)
    have cutThere := isCut (x := ⟨0, 0, 0, 0, 2⟩) step ⟨trk.trans noTrk, replay.trans noReplay⟩ fields
    have downThere := shows fields
    generalize portEvent (downKept s p 2) p C.PRT_F_LINK (srcId 1 p) 0 = v at e step cutThere downThere decKept
    exact completes_next e rfl ⟨cutThere, downThere, decKept, by rw [State.report_reports, step.reports]⟩
  · obtain ⟨hq', hz', free', step⟩ := atLtssm 4
    have fields := (linkFields_uncommitted _ p).trans (congrArg (fun x : LinkFields => { x with memEn := 0 }) (linkFields_downKept hp hq' hz' free' (kind := 3) (by decide)))
    rw [linkFields_ltssm] at fields
    exact completes_next (exec_hotReset hl) rfl ⟨isCut (x := ⟨0, 0, 0, 0, 3⟩) (step.trans (downKept_linkStep hp hq' hz' free' 3).uncommitAll.clearFatal)
      (uncommitted_cut (downKept_cut hp hq' hz' free' 3)) fields, shows fields, uncommitted_decoders ..⟩
  · obtain ⟨hq', hz', free', step⟩ := atLtssm 3
    have fields := linkFields_downKept hp hq' hz' free' (kind := 4) (by decide)
    rw [linkFields_ltssm] at fields
    have dec := downKept_dec hp hq' hz' free' 4
    rw [ltssm_port] at dec
    exact completes_next (exec_linkDisable hl) rfl ⟨isCut (x := ⟨0, 0, 0, 0, 4⟩) (step.trans (downKept_linkStep hp hq' hz' free' 4)) (downKept_cut hp hq' hz' free' 4) fields,
      shows fields, dec⟩
  · have fields := linkFields_cutLinked free
    obtain ⟨-, -, up⟩ := linkUp_iff.1 hl
    exact completes_next (exec_cxlReset hl hq) rfl ⟨isCut (x := { linkFields s p with memEn := 0, lastrst := 5 }) (cutLinked_linkStep free) (cutLinked_cut free) fields,
      cutLinked_uncommitted, (congrArg LinkFields.up fields).trans up⟩
  · obtain ⟨undriven, host, up⟩ := linkUp_iff.1 hl
    have step : LinkStep p s ((endMailbox s p).fsat (PRT_LINKSTAT p) F.PRT_LINKSTAT_RESETS 1) := (LinkStep.refl p s).endMailbox.status _ _
    have fields := linkFields_counted (endMailbox s p) p
    rw [linkFields_endMailbox] at fields
    refine completes_next (exec_functionLevelReset hl) rfl ⟨?_, ?_, step.linkUp hp undriven host ((congrArg LinkFields.up fields).trans up), congrArg LinkFields.lastrst fields,
      congrArg LinkFields.resets fields, step.othersKept⟩
    · rw [State.fsat_port, endMailbox_trk]
    · exact (portUpd_regsKept _ s p _).trans (State.fset_regsKept _ _ _ _)
end

section
/-! PROOF. CXL.mem requests at a port: O36 (R84, R98, R102, R107). -/

namespace Sys2Proof.Machine

/-! What the load that a response shows is taken from (R107, R440, R444, R446). -/

/-- Nothing that the load of port `p` is taken from differs. -/
structure LoadKept (p : Nat) (s t : State) : Prop where
  log : (t.port p).heldLog = (s.port p).heldLog
  time : t.time = s.time
  chans : t.chans = s.chans
  waiting : t.home.waiting = s.home.waiting
  lines : t.tier = s.tier
  share : t.fget (QOS_MDRAM p) F.QOS_MDRAM_GUAR = s.fget (QOS_MDRAM p) F.QOS_MDRAM_GUAR
  cap : t.fget (QOS_MOCC p) F.QOS_MOCC_CAP = s.fget (QOS_MOCC p) F.QOS_MOCC_CAP
  speed : ∀ c, t.fget (DCH_STAT c) F.DCH_STAT_SPEED = s.fget (DCH_STAT c) F.DCH_STAT_SPEED

theorem capReached_of {s t : State} {p : Nat} (h : t.tier = s.tier) (hc : t.fget (QOS_MOCC p) F.QOS_MOCC_CAP = s.fget (QOS_MOCC p) F.QOS_MOCC_CAP) (sl : Nat) :
    capReached t sl p = capReached s sl p := by
  unfold capReached occupancy
  rw [hc, h]

namespace LoadKept

variable {p : Nat} {s t u : State}

theorem refl (p : Nat) (s : State) : LoadKept p s s := ⟨rfl, rfl, rfl, rfl, rfl, rfl, rfl, fun _ => rfl⟩

theorem trans (a : LoadKept p s t) (b : LoadKept p t u) : LoadKept p s u :=
  ⟨b.log.trans a.log, b.time.trans a.time, b.chans.trans a.chans, b.waiting.trans a.waiting, b.lines.trans a.lines, b.share.trans a.share, b.cap.trans a.cap,
    fun c => (b.speed c).trans (a.speed c)⟩

/-- The register of no channel and of no share is the counter of an event that is not a multiple of 16 plus one. -/
theorem ev (a : LoadKept p s t) (hp : p < 16) {e : Nat} (he : e < 1536) (h : e % 16 ≠ 1) : LoadKept p s (t.ev e) := by
  refine a.trans ⟨congrArg Port.heldLog (t.ev_port e p), t.ev_time e, t.ev_chans e, congrArg HomeState.waiting (t.ev_home e), t.ev_tier e, ?_, ?_, fun c => ?_⟩
  all_goals
    unfold State.fget
    rw [t.ev_rg_other e]
  · unfold QOS_MDRAM PMC_CNT
    omega
  · unfold QOS_MDRAM PMC_STAT
    omega
  · unfold QOS_MOCC PMC_CNT
    omega
  · unfold QOS_MOCC PMC_STAT
    omega
  · unfold DCH_STAT PMC_CNT
    omega
  · unfold DCH_STAT PMC_STAT
    omega

theorem diagAdd (a : LoadKept p s t) (d i n : Nat) : LoadKept p s (t.diagAdd d i n) := a.trans ⟨rfl, rfl, rfl, rfl, rfl, rfl, rfl, fun _ => rfl⟩

theorem put (a : LoadKept p s t) (o : Out) : LoadKept p s (t.put o) := a.trans ⟨rfl, rfl, rfl, rfl, rfl, rfl, rfl, fun _ => rfl⟩

theorem portHeld (a : LoadKept p s t) : portHeld t p = portHeld s p := by
  unfold Machine.portHeld passHeld capHeld
  rw [a.chans, a.waiting]
  simp only [capReached_of a.lines a.cap, lcFind_of_lc (congrArg TierState.lc a.lines)]

theorem devLoad (a : LoadKept p s t) : devLoad t p = devLoad s p := by
  have held : heldTime t p = heldTime s p := by rw [heldTime, a.log, a.time, heldTime]
  have share : atShare t p = atShare s p := by
    unfold atShare
    simp only [a.chans, a.time, a.share, a.speed]
  rw [Machine.devLoad, held, a.portHeld, share, Machine.devLoad]

end LoadKept

/-! A response (R84, R107). -/

/-- The last output is the response, with the load that the port shows after it. -/
theorem hostResponse_out (s : State) {p : Nat} (hp : p < 16) (tag : Nat) (d : Line) (poison : Bool) (mv : Nat) :
    (hostResponse s p tag d poison mv).out.head? = some (.hostCpl p tag d poison mv (devLoad (hostResponse s p tag d poison mv) p)) := by
  have load : LoadKept p s (hostResponse s p tag d poison mv) := by
    have first : LoadKept p s ((s.ev (16 * p + 3)).diagAdd dgCDC p 1) := ((LoadKept.refl p s).ev hp (by omega) (by omega)).diagAdd _ _ _
    unfold hostResponse
    dsimp only
    refine .put ?_ _
    split_ifs
    · exact (first.ev hp (by omega) (by omega)).ev hp (by omega) (by omega)
    · exact first.ev hp (by omega) (by omega)
    · exact first.ev hp (by omega) (by omega)
    · exact first
  rw [load.devLoad]
  rfl

/-! What a request changes besides. -/

/-- Nothing but event counters, ports and diagnostics differs. -/
structure Counted (s t : State) : Prop where
  frame : t = { s with regs := t.regs, levelNs := t.levelNs, ports := t.ports, diag := t.diag }
  regs : regsKept (fun off => counterReg off = true) s t

namespace Counted

variable {s t u : State}

theorem refl (s : State) : Counted s s := ⟨rfl, .refl _ s⟩

theorem trans (a : Counted s t) (b : Counted t u) : Counted s u := ⟨by rw [b.frame, a.frame], a.regs.trans b.regs⟩

theorem ev (a : Counted s t) {e : Nat} (he : e < 1536) : Counted s (t.ev e) := by
  refine a.trans ⟨?_, t.ev_regsKept e he⟩
  obtain ⟨r, l, h⟩ := t.ev_frame e
  rw [h]

theorem diagAdd (a : Counted s t) (d i n : Nat) : Counted s (t.diagAdd d i n) := a.trans ⟨rfl, .of_regs rfl⟩

theorem portUpd (a : Counted s t) (p : Nat) (f : Port → Port) : Counted s (portUpd t p f) := a.trans ⟨rfl, .of_regs rfl⟩

theorem home (a : Counted s t) : t.home = s.home := by rw [a.frame]
theorem dram (a : Counted s t) : t.dram = s.dram := by rw [a.frame]
theorem out (a : Counted s t) : t.out = s.out := by rw [a.frame]
theorem time (a : Counted s t) : t.time = s.time := by rw [a.frame]

end Counted

/-! The port takes a request. -/

/-- A host that is not in L1, in P0 without a power entry, changes nothing by being active. -/
theorem hostActive_awake {s : State} {p : Nat} (h1 : (s.port p).l1 = false) (hz : s.pst = 0) (hb : s.fget PWR_CTL F.PWR_CTL_BUSY = 0) :
    hostActive s p = portUpd s p id := by
  have asleep : wakeFrom 1 s.pst = false := by
    rw [hz]
    rfl
  have first : (if s.fget PWR_CTL F.PWR_CTL_BUSY = 1 then pwrAbort s else wake 1 s) = s := by
    rw [hb, if_neg (by decide), wake]
    split
    · rfl
    · rw [if_neg (by rw [hb]; decide)]
  have port : { s.port p with l1 := false } = s.port p := by
    rw [← h1]
  have e : hostActive s p = s.setPort p { s.port p with l1 := false } := by
    unfold hostActive
    rw [first]
    exact if_pos (by omega)
  rw [e, port]
  rfl

theorem hpaToDpa_of_dec {s t : State} {p : Nat} (h : (t.port p).dec = (s.port p).dec) (hpa n i : Nat) : hpaToDpa t p hpa n i = hpaToDpa s p hpa n i := by
  induction n generalizing i with
  | zero => rfl
  | succ n ih =>
    have dec : portDec t p i = portDec s p i := by rw [portDec, h, portDec]
    simp only [hpaToDpa, dec, ih]

/-- The counters of a request. -/
def requestCounted (s : State) (p : Nat) (wr : Bool) : State := (evPRT p (if wr then 2 else 1) (evPRT p 0 s)).diagAdd dgCDC p 1

theorem requestCounted_counted (s : State) {p : Nat} (hp : p < 16) (wr : Bool) : Counted s (requestCounted s p wr) :=
  (((Counted.refl s).ev (by omega)).ev (by cases wr <;> simp <;> omega)).diagAdd _ _ _

theorem requestCounted_port (s : State) (p : Nat) (wr : Bool) (k : Nat) : (requestCounted s p wr).port k = s.port k := by
  unfold requestCounted evPRT
  rw [State.diagAdd_port, State.ev_port, State.ev_port]

/-- The port as it tracks a request, with the counts of a request. -/
def requestTracked (s : State) (p : Nat) (wr : Bool) (q : PReq) : State :=
  let s1 := portUpd (requestCounted s p wr) p (fun x => { x with trk := x.trk ++ [q] })
  if (s.port p).trk.length = 2047 then evPRT p 13 s1 else s1

theorem requestTracked_counted (s : State) {p : Nat} (hp : p < 16) (wr : Bool) (q : PReq) : Counted s (requestTracked s p wr q) := by
  have tracked := (requestCounted_counted s hp wr).portUpd p (fun x => { x with trk := x.trk ++ [q] })
  unfold requestTracked
  dsimp only
  split
  · exact tracked.ev (by omega)
  · exact tracked

theorem requestTracked_trk (s : State) (p : Nat) (wr : Bool) (q : PReq) : ((requestTracked s p wr q).port p).trk = (s.port p).trk ++ [q] := by
  have tracked : (portUpd (requestCounted s p wr) p (fun x => { x with trk := x.trk ++ [q] })).port p = { s.port p with trk := (s.port p).trk ++ [q] } := by
    rw [portUpd_port, if_pos rfl, requestCounted_port]
  unfold requestTracked evPRT
  dsimp only
  split
  · rw [State.ev_port, tracked]
  · rw [tracked]

/-- A request to a DPA that the head may not use is recorded and reported. -/
def requestUnmapped (s : State) (p : Nat) (wr : Bool) (dpa : Nat) : State :=
  (portEvent (requestCounted s p wr) p C.PRT_W_UNMAPPED (srcId 1 p) dpa).reportAt 1 (srcId 1 p) 0 C.PRT_W_UNMAPPED dpa 0

theorem portEvent_trk (s : State) (p st src dpa : Nat) : ((portEvent s p st src dpa).port p).trk = (s.port p).trk := by
  unfold portEvent portEventIn msix
  dsimp only
  split_ifs <;> simp

section
variable (s : State) (p : Nat) (wr : Bool) (dpa : Nat)

theorem requestUnmapped_trk : ((requestUnmapped s p wr dpa).port p).trk = (s.port p).trk := by
  rw [requestUnmapped, State.reportAt_port, portEvent_trk, requestCounted_port]

theorem requestUnmapped_memory (hp : p < 16) : (requestUnmapped s p wr dpa).home = s.home ∧ (requestUnmapped s p wr dpa).dram = s.dram := by
  have counted := requestCounted_counted s hp wr
  have event : HeadOnly p (requestCounted s p wr) (portEvent (requestCounted s p wr) p C.PRT_W_UNMAPPED (srcId 1 p) dpa) := (HeadOnly.refl p _).portEventIn _ _ _ _ _
  rw [requestUnmapped, State.reportAt_home, State.reportAt_dram]
  exact ⟨event.home.trans counted.home, event.dram.trans counted.dram⟩

theorem mem_requestUnmapped : ∃ r ∈ (requestUnmapped s p wr dpa).reports, r.src = srcId 1 p ∧ r.code = C.PRT_W_UNMAPPED ∧ r.addr = dpa := by
  rw [requestUnmapped, State.reportAt_reports]
  exact ⟨_, List.mem_append_right _ (List.mem_singleton_self _), rfl, rfl, rfl⟩

end

/-- A response changes neither the port nor memory. -/
theorem hostResponse_keeps (s : State) (p tag : Nat) (d : Line) (poison : Bool) (mv : Nat) :
    (hostResponse s p tag d poison mv).port p = s.port p ∧ (hostResponse s p tag d poison mv).home = s.home ∧ (hostResponse s p tag d poison mv).dram = s.dram ∧
      (hostResponse s p tag d poison mv).reports = s.reports := by
  unfold hostResponse
  dsimp only
  split_ifs <;> simp

/-- The request as it is sent to its home slice. -/
def sentRequest (x : Port) (p op mv tag la : Nat) (data : Line) (mask : Nat) (poison : Bool) : HomeReq :=
  { kind := m2sKind op mv, who := .port p tag x.gen, la := la / 64 * 64, data := data,
    mask := if op = 1 ∧ mv ≠ 2 then 0 else if op = 2 then mask % 2 ^ 64 else 2 ^ 64 - 1, poison := poison && op == 2, master := p,
    mval := if op = 1 ∧ mv = 2 then 1 else if op == 2 then mv else 0 }

section
variable {s : State} {p op mv hpa tag mask dpa : Nat} {data : Line} {poison : Bool} (room : (s.port p).trk.length < 2048) (free : portHeld s p = false)
  (hd : hpaToDpa s p hpa 16 0 = some dpa)
include room free hd

theorem takeRequest_mapped {la : Nat} (hu : dpaUsable s p dpa = true) (hla : dpaToLa s p dpa = some la) : takeRequest p op mv hpa tag data mask poison s =
    homeSent (requestTracked s p (op == 2) ⟨tag, op == 2, la / 64 * 64, dpa, s.time⟩) (sentRequest (s.port p) p op mv tag la data mask poison) := by
  have vacant : ¬ (2048 ≤ (s.port p).trk.length ∨ portHeld s p = true) := by
    rw [free]
    simpa using room
  unfold takeRequest
  dsimp only
  rw [if_neg vacant, hd]
  simp only [Option.getD_some, Option.isSome_some, hu, Bool.and_self, if_true, hla]
  rfl

theorem takeRequest_unmapped (hu : dpaUsable s p dpa = false) : takeRequest p op mv hpa tag data mask poison s =
    if op == 2 then requestUnmapped s p (op == 2) dpa else hostResponse (requestUnmapped s p (op == 2) dpa) p tag 0 true 0 := by
  have vacant : ¬ (2048 ≤ (s.port p).trk.length ∨ portHeld s p = true) := by
    rw [free]
    simpa using room
  unfold takeRequest
  dsimp only
  rw [if_neg vacant, hd]
  simp only [Option.getD_some, Option.isSome_some, hu, Bool.and_false, Bool.false_eq_true, if_false]
  rfl

end
/-! The same port, as the request finds it. -/

section
variable (s : State) (p : Nat)

theorem portUpd_id_port (k : Nat) : (portUpd s p id).port k = s.port k := by
  rw [portUpd_port]
  split
  case isTrue h => rw [h, id]
  case isFalse => rfl

theorem portUpd_id_loadKept : LoadKept p s (portUpd s p id) := ⟨congrArg Port.heldLog (portUpd_id_port s p p), rfl, rfl, rfl, rfl, rfl, rfl, fun _ => rfl⟩

theorem portUpd_id_units : UnitRegsKept s (portUpd s p id) := portUpd_regsKept _ s p id

end

/-- An open port with a secure link takes the request. -/
theorem exec_cxlMemRequest {s : State} {p op mv hpa tag mask : Nat} {data : Line} {poison : Bool} (hl : linkUp s p = true)
    (hm : s.fget (PRT_LINKSTAT p) F.PRT_LINKSTAT_MEM_EN = 1) (hi : s.fget (PRT_LINKSTAT p) F.PRT_LINKSTAT_IDE = 0) (hf : s.fget (PRT_HEADSTAT p) F.PRT_HEADSTAT_FATAL = 0)
    (secure : (s.port p).ideInsecure = false) (h1 : (s.port p).l1 = false) (hc : coreOpen s = true) (hz : s.pst = 0) (hb : s.fget PWR_CTL F.PWR_CTL_BUSY = 0)
    (fresh : ∀ r ∈ (s.port p).trk, r.tag ≠ tag) :
    exec (.cxlMemRequest p op mv hpa tag data mask poison true) s = .next (takeRequest p op mv hpa tag data mask poison (portUpd s p id)) := by
  have same := portUpd_id_port s p p
  have link : linkUp (portUpd s p id) p = linkUp s p := rfl
  have core : coreOpen (portUpd s p id) = coreOpen s := rfl
  have unused : (s.port p).trk.any (fun r => r.tag == tag) = false := by simpa using fresh
  have e : cxlMemRequest p op mv hpa tag data mask poison true (if linkUp s p then hostActive s p else s) = takeRequest p op mv hpa tag data mask poison (portUpd s p id) := by
    rw [if_pos hl, hostActive_awake h1 hz hb, cxlMemRequest]
    dsimp only
    rw [link, core, portUpd_fget, portUpd_fget, portUpd_fget, same, hl, hm, hi, hf, secure, hc, unused]
    simp
  exact congrArg Host.Outcome.next e

end Sys2Proof.Machine

open Sys2Proof Sys2Proof.Machine

/-- Settles O36: an open port takes the request as its translation decides, and the load of its response is that of the state it leaves. -/
theorem hostRequestsReachTheirSlice : Obligations.HostRequestsReachTheirSlice := by
  intro s p op mv hpa tag mask dpa data poison hp hl hm hi hf secure h1 hopen hz hb fresh room free hd
  have e := exec_cxlMemRequest (op := op) (mv := mv) (hpa := hpa) (mask := mask) (data := data) (poison := poison) hl hm hi hf secure h1 hopen hz hb fresh
  have same : (portUpd s p id).port p = s.port p := portUpd_id_port s p p
  have units : UnitRegsKept s (portUpd s p id) := portUpd_id_units s p
  have start : Counted s (portUpd s p id) := (Counted.refl s).portUpd p id
  have room' : ((portUpd s p id).port p).trk.length < 2048 := same ▸ room
  have free' := (portUpd_id_loadKept s p).portHeld.trans free
  have hd' := (hpaToDpa_of_dec (congrArg Port.dec same) hpa 16 0).trans hd
  have usable : dpaUsable (portUpd s p id) p dpa = dpaUsable s p dpa := units.dpaUsable hp (congrArg Port.extents same) dpa
  generalize portUpd s p id = v at *
  refine ⟨fun la hu hla => ?_, fun hu => ?_⟩
  · rw [takeRequest_mapped room' free' hd' (usable.trans hu) ((units.dpaToLa hp dpa).trans hla)] at e
    have step := start.trans (requestTracked_counted v hp (op == 2) ⟨tag, op == 2, la / 64 * 64, dpa, v.time⟩)
    have trk := requestTracked_trk v p (op == 2) ⟨tag, op == 2, la / 64 * 64, dpa, v.time⟩
    rw [same, start.time] at trk
    rw [start.time] at step e
    generalize requestTracked v p (op == 2) ⟨tag, op == 2, la / 64 * 64, dpa, s.time⟩ = t at *
    refine completes_next e rfl ⟨⟨sentRequest (v.port p) p op mv tag la data mask poison, ?_, rfl, ?_, rfl, rfl, rfl⟩, ?_, ?_, ?_, ?_, step.regs.trans (homeSent_regsKept _ _ _)⟩
    · rw [homeSent_toHome, step.home]
    · rw [sentRequest, same]
    · rw [homeSent_port, trk]
    · rw [homeSent_out, step.out]
    · rw [homeSent_dram, step.dram]
    · rw [homeSent, step.frame]
  · rw [takeRequest_unmapped room' free' hd' (usable.trans hu)] at e
    have trk := (requestUnmapped_trk v p (op == 2) dpa).trans (congrArg Port.trk same)
    obtain ⟨home, dram⟩ := requestUnmapped_memory v p (op == 2) dpa hp
    have report := mem_requestUnmapped v p (op == 2) dpa
    generalize requestUnmapped v p (op == 2) dpa = t at *
    obtain ⟨port', home', dram', reports'⟩ := hostResponse_keeps t p tag 0 true 0
    by_cases hw : op = 2
    · rw [if_pos (by simp [hw])] at e
      exact completes_next e rfl ⟨home.trans start.home, dram.trans start.dram, trk, report, fun h => absurd (hw.symm.trans h) (by decide)⟩
    · rw [if_neg (by simp [hw])] at e
      exact completes_next e rfl ⟨home'.trans (home.trans start.home), dram'.trans (dram.trans start.dram), (congrArg Port.trk port').trans trk, reports'.symm ▸ report,
        fun _ => hostResponse_out t hp tag 0 true 0⟩
end

section
/-! PROOF. Dynamic Capacity: O31 (R99, R100). -/

namespace Sys2Proof.Machine

/-! Offers (R99). -/

/-- An event record leaves extents and offers as they are. -/
theorem portEventIn_extents (s : State) (p log st src dpa len : Nat) :
    ((portEventIn s p log st src dpa len).port p).extents = (s.port p).extents ∧ ((portEventIn s p log st src dpa len).port p).offered = (s.port p).offered := by
  unfold portEventIn msix
  dsimp only
  split_ifs <;> simp

/-- The records of the offered extents. -/
def offersRecorded (p : Nat) (es : List (Nat × Nat)) (s : State) : State := es.foldl (fun t e => portEventIn t p 4 0 (srcId 1 p) e.1 e.2) s

theorem offersRecorded_headOnly (p : Nat) (es : List (Nat × Nat)) (s : State) : HeadOnly p s (offersRecorded p es s) :=
  HeadOnly.foldl _ (fun t _ => (HeadOnly.refl p t).portEventIn _ _ _ _ _) es s

theorem offersRecorded_extents (p : Nat) (es : List (Nat × Nat)) (s : State) :
    ((offersRecorded p es s).port p).extents = (s.port p).extents ∧ ((offersRecorded p es s).port p).offered = (s.port p).offered := by
  unfold offersRecorded
  induction es generalizing s with
  | nil => exact ⟨rfl, rfl⟩
  | cons e r ih =>
    obtain ⟨h1, h2⟩ := ih (portEventIn s p 4 0 (srcId 1 p) e.1 e.2)
    obtain ⟨k1, k2⟩ := portEventIn_extents s p 4 0 (srcId 1 p) e.1 e.2
    exact ⟨h1.trans k1, h2.trans k2⟩

section
variable {s : State} {p : Nat} {es : List (Nat × Nat)}

theorem exec_initiateAdd_stranger {eid : Nat} (h : eid ≠ s.mgmt.fmEid) : exec (.initiateDynamicCapacityAdd p (eid, es)) s = .next s :=
  congrArg Host.Outcome.next (if_pos (.inr h))

theorem exec_initiateAdd_uncovered (hm : hostMode s p = true) (h : ∃ e ∈ es, hmCovers s p (e.1 + e.2) 513 e.1 = false) :
    exec (.initiateDynamicCapacityAdd p (s.mgmt.fmEid, es)) s = .next (s.put (.fmReply p 0 2 C.PRT_E_EXTENT_UNMAPPED)) := by
  have some : es.any (fun e => !hmCovers s p (e.1 + e.2) 513 e.1) = true := by
    obtain ⟨e, he, hc⟩ := h
    exact List.any_eq_true.2 ⟨e, he, by rw [hc]; rfl⟩
  have r : initiateDcAdd p s.mgmt.fmEid es s = s.put (.fmReply p 0 2 C.PRT_E_EXTENT_UNMAPPED) := by
    rw [initiateDcAdd, if_neg (by simp [hm]), if_pos some]
  exact congrArg Host.Outcome.next r

/-- The extents as the head holds them offered. -/
def offersMade (s : State) (p : Nat) (es : List (Nat × Nat)) : State := portUpd s p (fun x => { x with offered := x.offered ++ [es.map (fun e => ⟨e.1, e.2⟩)] })

theorem exec_initiateAdd_offers (hm : hostMode s p = true) (h : ∀ e ∈ es, hmCovers s p (e.1 + e.2) 513 e.1 = true ∧ extentFits s p e = true) :
    exec (.initiateDynamicCapacityAdd p (s.mgmt.fmEid, es)) s = .next ((offersRecorded p es (offersMade s p es)).put (.fmReply p 0 0 0)) := by
  have covered : ¬ es.any (fun e => !hmCovers s p (e.1 + e.2) 513 e.1) = true := by
    simp only [List.any_eq_true, not_exists, not_and]
    exact fun e he => by simp [(h e he).1]
  have fits : ¬ es.any (fun e => !extentFits s p e) = true := by
    simp only [List.any_eq_true, not_exists, not_and]
    exact fun e he => by simp [(h e he).2]
  have r : initiateDcAdd p s.mgmt.fmEid es s = (offersRecorded p es (offersMade s p es)).put (.fmReply p 0 0 0) := by
    rw [initiateDcAdd, if_neg (by simp [hm]), if_neg covered, if_neg fits]
    rfl
  exact congrArg Host.Outcome.next r

/-! The host's answer (R99). -/

/-- The extents accepted, and the offer answered. -/
def offerAnswered (es : List (Nat × Nat)) (x : Port) : Port := { x with extents := x.extents ++ es.map (fun e => ⟨e.1, e.2⟩), offered := x.offered.drop 1 }

/-- The accepted extents lie in whole blocks in the oldest offer. -/
def inOffer (s : State) (p : Nat) (es : List (Nat × Nat)) : Prop :=
  ∀ e ∈ es, 0 < e.2 ∧ e.1 % 2097152 = 0 ∧ e.2 % 2097152 = 0 ∧ ∃ o ∈ (s.port p).offered.headD [], o.dpa ≤ e.1 ∧ e.1 + e.2 ≤ o.dpa + o.len

theorem inOffer_iff : es.all (fun e => 0 < e.2 && e.1 % 2 ^ 21 == 0 && e.2 % 2 ^ 21 == 0 &&
    ((s.port p).offered.headD []).any (fun o => o.dpa ≤ e.1 && e.1 + e.2 ≤ o.dpa + o.len)) = true ↔ inOffer s p es := by
  simp [inOffer, and_assoc]

theorem exec_addDcResponse_fits (ho : mboxOpen s p = true) (h : inOffer s p es) :
    exec (.addDcResponse p es) s = .next (mboxDone (portUpd s p (offerAnswered es)) p 0x4802 0 0 []) := by
  have r : addDcResponse p es s = mboxDone (portUpd s p (offerAnswered es)) p 0x4802 0 0 [] := by
    rw [addDcResponse, if_neg (by simp [ho])]
    exact if_pos (inOffer_iff.2 h)
  exact congrArg Host.Outcome.next r

theorem exec_addDcResponse_unfit (ho : mboxOpen s p = true) (h : ¬ inOffer s p es) : exec (.addDcResponse p es) s = .next (mboxDone s p 0x4802 2 0 []) := by
  have r : addDcResponse p es s = mboxDone s p 0x4802 2 0 [] := by
    rw [addDcResponse, if_neg (by simp [ho])]
    exact if_neg fun e => h (inOffer_iff.1 e)
  exact congrArg Host.Outcome.next r

end

/-! Releases (R100). The port's entry of the table is the only one with something to release. -/

theorem tabIns_tabIns {α : Type} (t : Tab α) (k : Nat) (x y : α) : tabIns (tabIns t k x) k y = tabIns t k y := by
  induction t with
  | nil => simp [tabIns]
  | cons e r ih =>
    obtain ⟨j, v⟩ := e
    simp only [tabIns]
    split_ifs with h1 h2
    · simp [tabIns]
    · simp [tabIns]
    · simp [tabIns, h1, h2, ih]

/-- A key that is inserted stands between old entries. -/
theorem tabIns_split {α : Type} (t : Tab α) (k : Nat) (x : α) : ∃ l r, tabIns t k x = l ++ (k, x) :: r ∧ ∀ e ∈ l ++ r, e ∈ t := by
  induction t with
  | nil => exact ⟨[], [], rfl, fun _ h => h⟩
  | cons e t ih =>
    obtain ⟨j, v⟩ := e
    simp only [tabIns]
    split_ifs
    · exact ⟨[], t, rfl, fun _ h => List.mem_cons_of_mem _ h⟩
    · exact ⟨[], (j, v) :: t, rfl, fun _ h => h⟩
    · obtain ⟨l, r, e, old⟩ := ih
      refine ⟨(j, v) :: l, r, by rw [e]; rfl, fun y h => ?_⟩
      obtain h | h := List.mem_cons.1 h
      · exact h ▸ List.mem_cons_self
      · exact List.mem_cons_of_mem _ (old y h)

/-- Entries with nothing to release change nothing. -/
theorem foldl_releases_none (l : Tab Port) (h : ∀ x ∈ l, x.2.releasing = []) (t : State) :
    l.foldl (fun t x => (x.2.releasing.filter (fun r => releaseReady t x.1 r.2)).foldl (releaseEnd x.1) t) t = t := by
  induction l generalizing t with
  | nil => rfl
  | cons x r ih =>
    rw [List.foldl_cons, h x List.mem_cons_self]
    exact ih (fun y hy => h y (List.mem_cons_of_mem _ hy)) t

/-- Nothing waits at the slices, and port `p` alone has one release, which nothing holds up. -/
structure OneRelease (s : State) (p : Nat) (r : Bool × List (Nat × Nat)) : Prop where
  level : s.devLevel ≠ 4
  waiting : s.home.waiting = []
  arrived : s.home.arrived = []
  writes : s.tier.wbQueue = []
  banks : ∀ x ∈ s.tier.dc, x.2.isSome = true → bankOut s (dcBank x.1) = false
  table : ∃ l x m, s.ports = l ++ (p, x) :: m ∧ x.releasing = [r] ∧ ∀ y ∈ l ++ m, y.2.releasing = []
  ready : releaseReady s p r.2 = true

theorem releases_one {s : State} {p : Nat} {r : Bool × List (Nat × Nat)} (a : OneRelease s p r) : releases s = releaseEnd p s r := by
  obtain ⟨l, x, m, ports, one, none⟩ := a.table
  unfold releases
  rw [ports, List.foldl_append, List.foldl_cons, foldl_releases_none l fun y hy => none y (List.mem_append_left _ hy), one,
    foldl_releases_none m fun y hy => none y (List.mem_append_right _ hy)]
  simp only [List.filter_cons, a.ready, if_true, List.filter_nil, List.foldl_cons, List.foldl_nil]

/-- The turn of the waiting work ends the release. -/
theorem pump_releases {s : State} {p : Nat} {r : Bool × List (Nat × Nat)} (a : OneRelease s p r) (hw : (releaseEnd p s r).home.waiting = []) :
    pump s = releaseEnd p s r := by
  have one := releases_one a
  obtain ⟨level, waiting, arrived, writes, banks, ⟨l, x, m, ports, releasing, -⟩, ready⟩ := a
  have clear : { s with home := { s.home with arrived := [] } } = s := by rw [← arrived]
  have some : s.ports.any (fun x => x.2.releasing.any (fun r => releaseReady s x.1 r.2)) = true :=
    List.any_eq_true.2 ⟨(p, x), ports ▸ List.mem_append_right _ List.mem_cons_self, List.any_eq_true.2 ⟨r, releasing ▸ List.mem_singleton_self r, ready⟩⟩
  unfold pump
  rw [if_neg level]
  simp only [wbDrain_empty writes, dcSettle_settled banks, pumpAll_empty _ waiting, clear, some, if_true, one, pumpAll_empty _ hw]
  exact heldNotes_empty waiting hw

/-! The end of a release while no port holds a line. -/

/-- The port without the release. -/
def releaseTaken (r : Bool × List (Nat × Nat)) (x : Port) : Port := { x with releasing := x.releasing.erase r }

theorem heldIn_none {s : State} (h : s.home.dirEnt = []) (p lo len : Nat) : heldIn s p lo len = [] := by
  unfold heldIn heldLines
  rw [h]
  rfl

theorem recallNext_none {s : State} (h : s.home.recalls = []) (p : Nat) : recallNext s p = s := by
  unfold recallNext
  rw [h, List.find?_nil]
  split <;> rfl

theorem leaveDirectory_none {s : State} (h : s.home.recalls = []) (p : Nat) : leaveDirectory s p [] false = s := by
  have same : { s with home := { s.home with recalls := [] } } = s := by rw [← h]
  unfold leaveDirectory
  simp only [h, List.foldl_nil, List.filter_nil, List.map_nil, Bool.false_eq_true, if_false, same, recallNext_none h]

theorem releaseEnd_forced {s : State} (h : s.home.dirEnt = []) (p lo len : Nat) :
    releaseEnd p s (true, [(lo, len)]) = (portUpd s p (releaseTaken (true, [(lo, len)]))).put (.fmReply p 2 0 0) := by
  have none : (portUpd s p (releaseTaken (true, [(lo, len)]))).home.dirEnt = [] := h
  have same : portUpd s p (fun y => { y with releasing := y.releasing.erase (true, [(lo, len)]) }) = portUpd s p (releaseTaken (true, [(lo, len)])) := rfl
  unfold releaseEnd
  dsimp only
  rw [if_pos rfl, same, List.foldl_cons, List.foldl_nil, heldIn_none none, List.foldl_nil]

theorem releaseEnd_host {s : State} (h : s.home.dirEnt = []) (hr : s.home.recalls = []) (p lo len : Nat) :
    releaseEnd p s (false, [(lo, len)]) = (portUpd s p (releaseTaken (false, [(lo, len)]))).put (.fmReply p 1 0 0) := by
  have none : (portUpd s p (releaseTaken (false, [(lo, len)]))).home.dirEnt = [] := h
  have out : (portUpd s p (releaseTaken (false, [(lo, len)]))).home.recalls = [] := hr
  have same : portUpd s p (fun y => { y with releasing := y.releasing.erase (false, [(lo, len)]) }) = portUpd s p (releaseTaken (false, [(lo, len)])) := rfl
  unfold releaseEnd
  dsimp only
  rw [if_neg Bool.false_ne_true, same, List.foldl_cons, List.foldl_nil, heldIn_none none, leaveDirectory_none out]

/-! A release that nothing holds up, from the state that it is asked in. -/

/-- The port with a release to end. -/
def releaseAsked (r : Bool × List (Nat × Nat)) (x : Port) : Port := { x with releasing := x.releasing ++ [r] }

theorem tabIns_of_releasing {x : Port} {p : Nat} {r : Bool × List (Nat × Nat)} (t : Tab Port) (h : x.releasing = [r]) : tabSet (fun _ => Port.init) t p x = tabIns t p x := by
  refine if_neg fun e => ?_
  have none : x.releasing = [] := congrArg Port.releasing e
  exact List.cons_ne_nil _ _ (h.symm.trans none)

/-- Among entries with nothing to release the one that is inserted is the only one with a release. -/
theorem tabIns_oneRelease {t : Tab Port} (old : ∀ y ∈ t, y.2.releasing = []) {x : Port} {p : Nat} {r : Bool × List (Nat × Nat)} (h : x.releasing = [r]) :
    ∃ l y m, tabIns t p x = l ++ (p, y) :: m ∧ y.releasing = [r] ∧ ∀ z ∈ l ++ m, z.2.releasing = [] := by
  obtain ⟨l, m, e, sub⟩ := tabIns_split t p x
  exact ⟨l, x, m, e, h, fun z hz => old z (sub z hz)⟩

/-- A state that differs from a quiet one in the port and in outputs only has the one release that the port's entry shows. -/
theorem HeadOnly.oneRelease {s u : State} {p : Nat} {r : Bool × List (Nat × Nat)} (a : HeadOnly p s u) (quiet : nothingWaits s) (level : s.devLevel ≠ 4)
    (trk : (u.port p).trk = []) (table : ∃ l x m, u.ports = l ++ (p, x) :: m ∧ x.releasing = [r] ∧ ∀ y ∈ l ++ m, y.2.releasing = []) : OneRelease u p r := by
  obtain ⟨waiting, arrived, writes, -, banks⟩ := quiet
  have tier : u.tier = s.tier := by rw [a.frame]
  have sameLevel : u.devLevel = s.devLevel := by rw [a.frame]; rfl
  have sameBank : ∀ b, bankOut u b = bankOut s b := fun b => congrArg (bit · (b % 64)) (a.fget _ _)
  refine ⟨sameLevel ▸ level, a.home ▸ waiting, a.home ▸ arrived, tier ▸ writes, fun x hx hs => ?_, table, ?_⟩
  · rw [tier] at hx
    rw [sameBank, banks x hx hs]
  · rw [releaseReady, trk]
    rfl

section
variable {s : State} {p : Nat} {f g : Port → Port} {r : Bool × List (Nat × Nat)}

/-- The state with the extents cut and the release asked for. -/
def releaseBegun (s : State) (p : Nat) (f : Port → Port) (r : Bool × List (Nat × Nat)) : State := portUpd (portUpd s p f) p (releaseAsked r)

theorem releaseBegun_headOnly : HeadOnly p s (releaseBegun s p f r) := ((HeadOnly.refl p s).portUpd f).portUpd _

theorem releaseBegun_port : (releaseBegun s p f r).port p = releaseAsked r (f (s.port p)) := by
  rw [releaseBegun, portUpd_port, if_pos rfl, portUpd_port, if_pos rfl]

variable (quiet : nothingWaits s) (hf : (f (s.port p)).releasing = (s.port p).releasing)
include quiet hf

theorem portUpd_table : ∀ y ∈ (portUpd s p f).ports, y.2.releasing = [] := by
  obtain ⟨-, -, -, ports, -⟩ := nothingWaits_portUpd quiet hf
  exact ports

theorem releaseAsked_releasing : (releaseAsked r (f (s.port p))).releasing = [r] := by
  rw [releaseAsked, hf, port_releasing quiet, List.nil_append]

theorem releaseBegun_ports : (releaseBegun s p f r).ports = tabIns (portUpd s p f).ports p (releaseAsked r (f (s.port p))) := by
  rw [releaseBegun, portUpd_ports, portUpd_port, if_pos rfl]
  exact tabIns_of_releasing _ (releaseAsked_releasing quiet hf)

theorem releaseBegun_one (level : s.devLevel ≠ 4) (ht : (f (s.port p)).trk = []) : OneRelease (releaseBegun s p f r) p r := by
  refine releaseBegun_headOnly.oneRelease quiet level ?_ ?_
  · rw [releaseBegun_port, releaseAsked, ht]
  · rw [releaseBegun_ports quiet hf]
    exact tabIns_oneRelease (portUpd_table quiet hf) (releaseAsked_releasing quiet hf)

/-- The same once the host's command has ended, with its vector raised. -/
theorem releaseBegun_told_one (level : s.devLevel ≠ 4) (ht : (f (s.port p)).trk = []) (hg : ∀ x, (g x).releasing = x.releasing ∧ (g x).trk = x.trk) (o : Out) :
    OneRelease ((portUpd (releaseBegun s p f r) p g).put o) p r := by
  have one : (g (releaseAsked r (f (s.port p)))).releasing = [r] := (hg _).1.trans (releaseAsked_releasing quiet hf)
  refine ((releaseBegun_headOnly.portUpd g).put o).oneRelease quiet level ?_ ?_
  · rw [State.put_port, portUpd_port, if_pos rfl, (hg _).2, releaseBegun_port, releaseAsked, ht]
  · rw [State.put_ports, portUpd_ports, releaseBegun_port, releaseBegun_ports quiet hf, tabIns_of_releasing _ one, tabIns_tabIns]
    exact tabIns_oneRelease (portUpd_table quiet hf) one

end

/-! The two releases. -/

theorem portUpd_out (s : State) (p : Nat) (f : Port → Port) : (portUpd s p f).out = s.out := rfl

/-- The range is no longer among the port's extents; a forced release takes it out of the offers too. -/
def hostCut (lo len : Nat) (x : Port) : Port := { x with extents := extentCut lo len x.extents }
def forcedCut (lo len : Nat) (x : Port) : Port := { x with extents := extentCut lo len x.extents, offered := x.offered.map (extentCut lo len) }

theorem extentCut_whole {lo len : Nat} (h : 0 < len) : extentCut lo len [⟨lo, len⟩] = [] := by
  simp [extentCut, Nat.ne_of_gt h]

section
variable {s : State} {p lo len : Nat}

/-- The state after a release of the host, before the turn of the waiting work. -/
def hostReleased (s : State) (p lo len : Nat) : State :=
  (portUpd (releaseBegun s p (hostCut lo len) (false, [(lo, len)])) p (mboxEnded · p 0x4803 0 0 [])).put (.msix p 0)

theorem exec_releaseDc (ho : mboxOpen s p = true) (hm : vecMasked s p = false) (he : (s.port p).extents = [⟨lo, len⟩]) :
    exec (.releaseDc p [(lo, len)]) s = .next (pump (hostReleased s p lo len)) := by
  have owned : [(lo, len)].all (fun e => (s.port p).extents.any (fun o => o.dpa ≤ e.1 && e.1 + e.2 ≤ o.dpa + o.len)) = true := by simp [he]
  have unmasked : vecMasked (releaseBegun s p (hostCut lo len) (false, [(lo, len)])) p = false := by
    rw [vecMasked, releaseBegun_port]
    exact hm
  have e : releaseDc p [(lo, len)] s = pump (mboxDone (releaseBegun s p (hostCut lo len) (false, [(lo, len)])) p 0x4803 0 0 []) := by
    rw [releaseDc, if_neg (by simp [ho])]
    dsimp only
    rw [owned, if_neg (by decide)]
    rfl
  rw [mboxDone_unmasked unmasked] at e
  exact congrArg Host.Outcome.next e

theorem hostReleased_headOnly : HeadOnly p s (hostReleased s p lo len) := (releaseBegun_headOnly.portUpd _).put _

theorem pump_hostReleased (quiet : nothingWaits s) (level : s.devLevel ≠ 4) (ht : (s.port p).trk = []) (hr : s.home.recalls = []) (hd : s.home.dirEnt = []) :
    pump (hostReleased s p lo len) = (portUpd (hostReleased s p lo len) p (releaseTaken (false, [(lo, len)]))).put (.fmReply p 1 0 0) := by
  have home : (hostReleased s p lo len).home = s.home := hostReleased_headOnly.home
  have one : OneRelease (hostReleased s p lo len) p (false, [(lo, len)]) := 
    releaseBegun_told_one (f := hostCut lo len) (g := (mboxEnded · p 0x4803 0 0 [])) quiet rfl level ht (fun _ => ⟨rfl, rfl⟩) (.msix p 0)
  have ends := releaseEnd_host (s := hostReleased s p lo len) (by rw [home, hd]) (by rw [home, hr]) p lo len
  obtain ⟨waiting, -⟩ := quiet
  have still : (releaseEnd p (hostReleased s p lo len) (false, [(lo, len)])).home.waiting = [] := by
    rw [ends, ((hostReleased_headOnly.portUpd _).put _).home, waiting]
  rw [pump_releases one still, ends]

theorem hostReleased_port : (hostReleased s p lo len).port p = mboxEnded (releaseAsked (false, [(lo, len)]) (hostCut lo len (s.port p))) p 0x4803 0 0 [] := by
  rw [hostReleased, State.put_port, portUpd_port, if_pos rfl, releaseBegun_port]

theorem exec_forcedRelease (hm : hostMode s p = true) :
    exec (.forcedRelease p (s.mgmt.fmEid, lo) len) s = .next (pump (releaseBegun s p (forcedCut lo len) (true, [(lo, len)]))) :=
  congrArg Host.Outcome.next (if_neg (by simp [hm]))

theorem pump_forced (quiet : nothingWaits s) (level : s.devLevel ≠ 4) (ht : (s.port p).trk = []) (hd : s.home.dirEnt = []) :
    pump (releaseBegun s p (forcedCut lo len) (true, [(lo, len)])) =
      (portUpd (releaseBegun s p (forcedCut lo len) (true, [(lo, len)])) p (releaseTaken (true, [(lo, len)]))).put (.fmReply p 2 0 0) := by
  have begun : HeadOnly p s (releaseBegun s p (forcedCut lo len) (true, [(lo, len)])) := releaseBegun_headOnly
  have one : OneRelease (releaseBegun s p (forcedCut lo len) (true, [(lo, len)])) p (true, [(lo, len)]) := releaseBegun_one (f := forcedCut lo len) quiet rfl level ht
  have ends := releaseEnd_forced (s := releaseBegun s p (forcedCut lo len) (true, [(lo, len)])) (by rw [begun.home, hd]) p lo len
  obtain ⟨waiting, -⟩ := quiet
  have still : (releaseEnd p (releaseBegun s p (forcedCut lo len) (true, [(lo, len)])) (true, [(lo, len)])).home.waiting = [] := by
    rw [ends, ((begun.portUpd _).put _).home, waiting]
  rw [pump_releases one still, ends]

end

end Sys2Proof.Machine

open Sys2Proof Sys2Proof.Machine

/-- Settles O31: an offer and its answer change the port alone, and a release that nothing holds up is the only one that the turn of the waiting work ends. -/
theorem dynamicCapacityExtents : Obligations.DynamicCapacityExtents := by
  refine ⟨fun s p es hm => ⟨fun eid he => exec_initiateAdd_stranger he, fun h => completes_next (exec_initiateAdd_uncovered hm h) rfl rfl, fun h => ?_⟩,
    ?_, fun s p dpa len ho hv quiet level ht hr hd he hlen => ?_,
    fun s p dpa len hm quiet level ht hr hd => ⟨fun eid he => congrArg Host.Outcome.next (if_pos (.inr he)), ?_⟩⟩
  · have made : HeadOnly p s (offersMade s p es) := (HeadOnly.refl p s).portUpd _
    have all := (made.trans (offersRecorded_headOnly p es _)).put (.fmReply p 0 0 0)
    obtain ⟨extents, offered⟩ := offersRecorded_extents p es (offersMade s p es)
    refine completes_next (exec_initiateAdd_offers hm h) rfl ⟨?_, ?_, rfl, all.frame, all.others⟩
    · rw [State.put_port, offered, offersMade, portUpd_port, if_pos rfl]
    · rw [State.put_port, extents, offersMade, portUpd_port, if_pos rfl]
  · intro s p es ho hv fits
    by_cases h : fits
    · have unmasked : vecMasked (portUpd s p (offerAnswered es)) p = false := (vecMasked_portUpd rfl).trans hv
      have all : HeadOnly p s (mboxDone (portUpd s p (offerAnswered es)) p 0x4802 0 0 []) := ((HeadOnly.refl p s).portUpd _).mboxDone _ _ _ _
      have port : (mboxDone (portUpd s p (offerAnswered es)) p 0x4802 0 0 []).port p = mboxEnded (offerAnswered es (s.port p)) p 0x4802 0 0 [] := by
        rw [mboxDone_unmasked unmasked, State.put_port, portUpd_port, if_pos rfl, portUpd_port, if_pos rfl]
      have out : (mboxDone (portUpd s p (offerAnswered es)) p 0x4802 0 0 []).out = .msix p 0 :: s.out := by
        rw [mboxDone_unmasked unmasked]
        rfl
      refine completes_next (exec_addDcResponse_fits ho h) rfl ⟨fun _ => ?_, fun hn => absurd h hn, out, all.frame, all.others⟩
      rw [port]
      exact ⟨rfl, rfl, rfl⟩
    · have all : HeadOnly p s (mboxDone s p 0x4802 2 0 []) := (HeadOnly.refl p s).mboxDone _ _ _ _
      have port : (mboxDone s p 0x4802 2 0 []).port p = mboxEnded (s.port p) p 0x4802 2 0 [] := by
        rw [mboxDone_unmasked hv, State.put_port, portUpd_port, if_pos rfl]
      have out : (mboxDone s p 0x4802 2 0 []).out = .msix p 0 :: s.out := by
        rw [mboxDone_unmasked hv]
        rfl
      refine completes_next (exec_addDcResponse_unfit ho h) rfl ⟨fun hn => absurd hn h, fun _ => ?_, out, all.frame, all.others⟩
      rw [port]
      exact ⟨rfl, rfl, rfl⟩
  · have released : HeadOnly p s (hostReleased s p dpa len) := hostReleased_headOnly
    have all := (released.portUpd (releaseTaken (false, [(dpa, len)]))).put (.fmReply p 1 0 0)
    have port := hostReleased_port (s := s) (p := p) (lo := dpa) (len := len)
    refine completes_next (exec_releaseDc ho hv he) (pump_hostReleased quiet level ht hr hd) ⟨?_, ?_, ?_, all.dram, all.regs⟩
    · rw [State.put_port, portUpd_port, if_pos rfl, port]
      exact (congrArg (extentCut dpa len) he).trans (extentCut_whole hlen)
    · rw [State.put_port, portUpd_port, if_pos rfl, port]
      rfl
    · rw [State.put_out, portUpd_out, hostReleased, State.put_out, portUpd_out, releaseBegun, portUpd_out, portUpd_out]
  · have begun : HeadOnly p s (releaseBegun s p (forcedCut dpa len) (true, [(dpa, len)])) := releaseBegun_headOnly
    have all := (begun.portUpd (releaseTaken (true, [(dpa, len)]))).put (.fmReply p 2 0 0)
    refine completes_next (exec_forcedRelease hm) (pump_forced quiet level ht hd) ⟨?_, ?_, ?_, all.frame⟩
    · rw [State.put_port, portUpd_port, if_pos rfl, releaseBegun_port]
      rfl
    · rw [State.put_port, portUpd_port, if_pos rfl, releaseBegun_port]
      rfl
    · rw [State.put_out, portUpd_out, releaseBegun, portUpd_out, portUpd_out]
end

section
/-! PROOF. Cached lines: an entry of a cache that is found and rewritten, and a store to a line that the line cache holds (R72, R105, R119 to R122). -/

namespace Sys2Proof.Machine

/-! Nothing but the caches, the stamp, ports and the home's list of poisoned lines differs. -/

/-- What a store to a cached line may change: caches, the stamp, and what the heads know of poison. -/
structure CacheStep (s t : State) : Prop where
  frame : t = { s with stamp := t.stamp, ports := t.ports, tier := { s.tier with dc := t.tier.dc, lc := t.tier.lc, left := t.tier.left },
                       home := { s.home with poisonLas := t.home.poisonLas } }
  run : ∀ q, (t.port q).mboxRun = (s.port q).mboxRun
  releasing : (∀ x ∈ s.ports, x.2.releasing = []) → ∀ x ∈ t.ports, x.2.releasing = []

namespace CacheStep

variable {s t u : State}

theorem refl (s : State) : CacheStep s s := ⟨rfl, fun _ => rfl, id⟩

theorem trans (a : CacheStep s t) (b : CacheStep t u) : CacheStep s u :=
  ⟨by rw [b.frame, a.frame], fun q => (b.run q).trans (a.run q), fun h => b.releasing (a.releasing h)⟩

theorem caches (a : CacheStep s t) (n : Nat) (d : Tab (Option DcEntry)) (l : Tab (Option LcEntry)) (f : Tab (BitVec 512)) :
    CacheStep s { t with stamp := n, tier := { t.tier with dc := d, lc := l, left := f } } := a.trans ⟨rfl, fun _ => rfl, id⟩

theorem dcSetAt (a : CacheStep s t) (k : Nat) (e : Option DcEntry) : CacheStep s (dcSetAt t k e) := a.caches t.stamp _ t.tier.lc _

theorem lcPut (a : CacheStep s t) (k : Nat) (e : Option LcEntry) : CacheStep s (lcPut t k e) := a.caches t.stamp t.tier.dc _ _

theorem tick (a : CacheStep s t) : CacheStep s t.tick := a.caches _ t.tier.dc t.tier.lc t.tier.left

theorem portUpd (a : CacheStep s t) (p : Nat) {f : Port → Port} (hr : ∀ x, (f x).mboxRun = x.mboxRun) (hf : ∀ x, (f x).releasing = x.releasing) :
    CacheStep s (portUpd t p f) := by
  refine a.trans ⟨rfl, fun q => ?_, fun h => portUpd_releasing h (hf _)⟩
  rw [portUpd_port]
  split
  case isTrue e => rw [hr, e]
  case isFalse => rfl

theorem home (a : CacheStep s t) : t.home = { s.home with poisonLas := t.home.poisonLas } := congrArg State.home a.frame
theorem dram (a : CacheStep s t) : t.dram = s.dram := by rw [a.frame]

end CacheStep

/-! The descriptor cache. -/

theorem dcAt_dcSetAt (s : State) (k j : Nat) (e : Option DcEntry) : dcAt (dcSetAt s k e) j = if j = k then e else dcAt s j := tabGet_tabSet ..

/-- An entry that a scan finds lies in one of its ways, and is the page's. -/
theorem dcScan_some {s : State} {base page : Nat} {copy : Bool} {n w v : Nat} {x : DcEntry} (h : dcScan s base page copy n w = some (v, x)) :
    w ≤ v ∧ x.page = page ∧ x.copy = copy := by
  induction n generalizing w with
  | zero => cases h
  | succ n ih =>
    rw [dcScan] at h
    cases ha : dcAt s (base + w) with
    | none =>
      rw [ha] at h
      obtain ⟨lo, same⟩ := ih h
      exact ⟨by omega, same⟩
    | some e =>
      rw [ha] at h
      dsimp only at h
      split at h
      case isTrue hm =>
        cases h
        exact ⟨Nat.le_refl _, hm⟩
      case isFalse =>
        obtain ⟨lo, same⟩ := ih h
        exact ⟨by omega, same⟩

/-- The entry found is rewritten: a scan finds it in its way, as it is now. -/
theorem dcScan_dcSetAt {s : State} {base page : Nat} {copy : Bool} {n w v : Nat} {x y : DcEntry} (h : dcScan s base page copy n w = some (v, x))
    (hp : y.page = page) (hc : y.copy = copy) : dcScan (dcSetAt s (base + v) (some y)) base page copy n w = some (v, y) := by
  induction n generalizing w with
  | zero => cases h
  | succ n ih =>
    rw [dcScan] at h ⊢
    rw [dcAt_dcSetAt]
    by_cases hv : w = v
    · subst hv
      rw [if_pos rfl]
      exact if_pos ⟨hp, hc⟩
    · rw [if_neg (by omega)]
      cases ha : dcAt s (base + w) with
      | none =>
        rw [ha] at h
        exact ih h
      | some e =>
        rw [ha] at h
        dsimp only at h ⊢
        by_cases hm : e.page = page ∧ e.copy = copy
        · rw [if_pos hm] at h
          cases h
          exact absurd rfl hv
        · rw [if_neg hm] at h ⊢
          exact ih h

theorem dcTouch_cacheStep (s : State) (page : Nat) : CacheStep s (dcTouch s page) := by
  unfold dcTouch dcUpd
  split
  · exact (CacheStep.refl s).tick.dcSetAt _ _
  · exact (CacheStep.refl s).tick

/-- A page that is used keeps its descriptor. -/
theorem dcTouch_found {s : State} {page v : Nat} {x : DcEntry} (h : dcFind s page = some (v, x)) :
    dcFind (dcTouch s page) page = some (v, { x with stamp := s.stamp + 1 }) := by
  obtain ⟨-, hp, hc⟩ := dcScan_some h
  have e : dcTouch s page = dcSetAt s.tick (dcBase page + v) (some { x with stamp := s.stamp + 1 }) := by
    rw [dcTouch, dcUpd, show dcFind s.tick page = some (v, x) from h]
  rw [e]
  exact dcScan_dcSetAt (s := s.tick) h hp hc

/-- A page in the share is only touched. -/
theorem descFill_found {s : State} {page v : Nat} {x : DcEntry} (h : dcFind s page = some (v, x)) : descFill s page = dcTouch s page := by
  rw [descFill, h]

theorem dcScan_of_dc {s t : State} (h : t.tier.dc = s.tier.dc) (base page : Nat) (copy : Bool) (n w : Nat) : dcScan t base page copy n w = dcScan s base page copy n w := by
  induction n generalizing w with
  | zero => rfl
  | succ n ih =>
    have same : dcAt t (base + w) = dcAt s (base + w) := by rw [dcAt, h, dcAt]
    simp only [dcScan, same, ih]

theorem dcFind_of_dc {s t : State} (h : t.tier.dc = s.tier.dc) (page : Nat) : dcFind t page = dcFind s page := dcScan_of_dc h ..

/-! The line cache. -/

theorem lcAt_lcPut (s : State) (k j : Nat) (e : Option LcEntry) : lcAt (lcPut s k e) j = if j = k then e else lcAt s j := tabGet_tabSet ..

theorem lcScan_some {s : State} {base line : Nat} {copy : Bool} {n w k : Nat} {e : LcEntry} (h : lcScan s base line copy n w = some (k, e)) :
    base + w ≤ k ∧ k < base + w + n ∧ e.line = line ∧ e.copy = copy := by
  induction n generalizing w with
  | zero => cases h
  | succ n ih =>
    rw [lcScan] at h
    cases ha : lcAt s (base + w) with
    | none =>
      rw [ha] at h
      obtain ⟨lo, hi, same⟩ := ih h
      exact ⟨by omega, by omega, same⟩
    | some x =>
      rw [ha] at h
      dsimp only at h
      split at h
      case isTrue hm =>
        cases h
        exact ⟨by omega, by omega, hm⟩
      case isFalse =>
        obtain ⟨lo, hi, same⟩ := ih h
        exact ⟨by omega, by omega, same⟩

theorem lcScan_lcPut {s : State} {base line : Nat} {copy : Bool} {n w k : Nat} {e y : LcEntry} (h : lcScan s base line copy n w = some (k, e))
    (hl : y.line = line) (hc : y.copy = copy) : lcScan (lcPut s k (some y)) base line copy n w = some (k, y) := by
  induction n generalizing w with
  | zero => cases h
  | succ n ih =>
    rw [lcScan] at h ⊢
    rw [lcAt_lcPut]
    by_cases hk : base + w = k
    · rw [if_pos hk]
      dsimp only
      rw [if_pos ⟨hl, hc⟩, hk]
    · rw [if_neg hk]
      cases ha : lcAt s (base + w) with
      | none =>
        rw [ha] at h
        exact ih h
      | some x =>
        rw [ha] at h
        dsimp only at h ⊢
        by_cases hm : x.line = line ∧ x.copy = copy
        · rw [if_pos hm] at h
          cases h
          exact absurd rfl hk
        · rw [if_neg hm] at h ⊢
          exact ih h

/-- An entry outside the ways of a scan is not seen by it. -/
theorem lcScan_lcPut_outside {s : State} {base line k : Nat} {copy : Bool} {n w : Nat} (h : k < base ∨ base + w + n ≤ k) (e : Option LcEntry) :
    lcScan (lcPut s k e) base line copy n w = lcScan s base line copy n w := by
  induction n generalizing w with
  | zero => rfl
  | succ n ih =>
    simp only [lcScan]
    rw [lcAt_lcPut, if_neg (by omega), ih (w := w + 1) (by omega)]

/-- The sets of a line and of its copy are apart. -/
theorem lcBase_apart (la : Nat) : lcBase la + 16 ≤ lcCopyBase la ∨ lcCopyBase la + 16 ≤ lcBase la := by
  have other : slice la ^^^ 16 ≠ slice la := fun e => by
    have zero := congrArg (slice la ^^^ ·) e
    simp at zero
  have set : lcSet la < 768 := Nat.mod_lt _ (by decide)
  unfold lcBase lcCopyBase lcKey
  omega

theorem lcFind_lcPut_copy {s : State} {la k : Nat} {e : LcEntry} (h : copyFind s la = some (k, e)) (y : Option LcEntry) : lcFind (lcPut s k y) la = lcFind s la := by
  obtain ⟨lo, hi, -⟩ := lcScan_some h
  have apart := lcBase_apart la
  exact lcScan_lcPut_outside (by omega) y

theorem lcFind_lcPut {s : State} {la k : Nat} {e y : LcEntry} (h : lcFind s la = some (k, e)) (hl : y.line = e.line) (hc : y.copy = e.copy) :
    lcFind (lcPut s k (some y)) la = some (k, y) := by
  obtain ⟨-, -, line, copy⟩ := lcScan_some h
  exact lcScan_lcPut h (hl.trans line) (hc.trans copy)

/-! A store to a cached line (R105, R120, R121). -/

/-- The state of a line that has been written. -/
def writtenState (poison : Bool) : LcState := if poison then .poisoned else .dirty

/-- The written line is in its way `k`. -/
def LineWritten (t : State) (la k : Nat) (d : Line) (poison : Bool) : Prop := ∃ e, lcFind t la = some (k, e) ∧ e.data = d ∧ e.st = writtenState poison

theorem placeWay_cached {s : State} {la k : Nat} {e : LcEntry} (h : lcFind s la = some (k, e)) (hs : e.st ≠ .held) (hk : keptTwice s la = false) (d : Line)
    (poison : Bool) (m : Nat) : ∃ t, placeWay s la d poison m = (true, t) ∧ CacheStep s t ∧ LineWritten t la k d poison := by
  have placed : ∀ c : State, CacheStep s c → lcFind c la = some (k, e) →
      CacheStep s (lcPut c.tick k (some { e with st := writtenState poison, data := d, master := m, stamp := c.stamp + 1 })) ∧
        LineWritten (lcPut c.tick k (some { e with st := writtenState poison, data := d, master := m, stamp := c.stamp + 1 })) la k d poison := fun c step hc =>
    ⟨step.tick.lcPut _ _, _, lcFind_lcPut (s := c.tick) hc rfl rfl, rfl, rfl⟩
  have st : (if e.st = .held ∧ (!poison) = true then LcState.held else writtenState poison) = writtenState poison := if_neg fun hh => hs hh.1
  cases hc : copyFind s la with
  | none =>
    refine ⟨_, ?_, placed s (.refl s) h⟩
    simp only [placeWay, h, hc, hk]
    simp only [Option.isSome_none, Bool.or_self, Bool.false_eq_true, if_false, h, Bool.true_eq_false]
    rw [← st]
    rfl
  | some x =>
    obtain ⟨j, y⟩ := x
    have still : lcFind (lcPut s j (some { y with data := d, st := writtenState poison, master := m })) la = some (k, e) := (lcFind_lcPut_copy hc _).trans h
    refine ⟨_, ?_, placed _ ((CacheStep.refl s).lcPut j (some { y with data := d, st := writtenState poison, master := m })) still⟩
    have copied : placeCopy s la d (writtenState poison) m = (true, lcPut s j (some { y with data := d, st := writtenState poison, master := m })) := by
      rw [placeCopy, hc]
    have w : (if poison then LcState.poisoned else .dirty) = writtenState poison := rfl
    simp only [placeWay, h, hc, hk, w, copied]
    simp only [Option.isSome_some, Bool.or_true, if_true, still, Bool.true_eq_false, if_false, st]

theorem LineWritten.of_lc {s t : State} {la k : Nat} {d : Line} {poison : Bool} (a : LineWritten s la k d poison) (h : t.tier.lc = s.tier.lc) : LineWritten t la k d poison := by
  obtain ⟨e, found, same⟩ := a
  exact ⟨e, (lcFind_of_lc h la).trans found, same⟩

/-! What the heads know of poison (R105). -/

/-- Nothing but the lists of poisoned lines differs. -/
structure ListStep (s t : State) : Prop where
  cache : CacheStep s t
  tier : t.tier = s.tier

namespace ListStep

variable {s t : State}

theorem refl (s : State) : ListStep s s := ⟨.refl s, rfl⟩

theorem portUpd (a : ListStep s t) (p : Nat) {f : Port → Port} (hr : ∀ x, (f x).mboxRun = x.mboxRun) (hf : ∀ x, (f x).releasing = x.releasing) :
    ListStep s (portUpd t p f) := ⟨a.cache.portUpd p hr hf, a.tier⟩

theorem notePoison (a : ListStep s t) (p dpa : Nat) : ListStep s (notePoison t p dpa) :=
  a.portUpd p (fun x => by split_ifs <;> rfl) (fun x => by split_ifs <;> rfl)

theorem foldl {α : Type} (a : ListStep s t) (f : State → α → State) (h : ∀ v x, ListStep s v → ListStep s (f v x)) (l : List α) : ListStep s (l.foldl f t) := by
  induction l generalizing t with
  | nil => exact a
  | cons x r ih => exact ih (h t x a)

theorem lists (a : ListStep s t) (l : List Nat) : ListStep s { t with home := { t.home with poisonLas := l } } := ⟨a.cache.trans ⟨rfl, fun _ => rfl, id⟩, a.tier⟩

end ListStep

theorem poisonKnown_listStep (s : State) (la : Nat) (poison : Bool) : ListStep s (poisonKnown s la poison) := by
  unfold poisonKnown
  dsimp only
  split
  · exact .refl s
  · refine ((ListStep.refl s).lists _).foldl _ (fun t p step => ?_) _
    split_ifs
    · exact step.foldl _ (fun u d h => h.notePoison p d) _
    · exact step.portUpd p (fun _ => rfl) (fun _ => rfl)
    · exact step

/-! A whole line is stored (R66, R105, R194, R204, R605). -/

/-- The line is local and cached, its page is hot and takes writes. -/
structure Writable (s : State) (la k : Nat) (e : LcEntry) (ds : Desc) : Prop where
  home : la < 2 ^ 47
  extent : la / 4096 < pagesL s
  desc : descOf s (la / 4096) = some ds
  hot : dState ds = stHOT
  admitted : writeRefusal s (la / 4096) ds = none
  cached : lcFind s la = some (k, e)
  loaded : e.st ≠ .held

theorem writeRefusal_of_regs {s t : State} (h : t.regs = s.regs) (hk : t.keys = s.keys) (lpn : Nat) (d : Desc) : writeRefusal t lpn d = writeRefusal s lpn d := by
  unfold writeRefusal switchOk slotLive State.ftest State.fget State.rg
  rw [h, hk]

theorem Writable.of_tier {s t : State} {la k : Nat} {e : LcEntry} {ds : Desc} (w : Writable s la k e ds) (h : t.tier = s.tier) (hr : t.regs = s.regs) (hk : t.keys = s.keys) :
    Writable t la k e ds := by
  have extent : pagesL t = pagesL s := congrArg (fun r => fld (tabGet regReset r TIR_EXTENT).toNat F.TIR_EXTENT_L3G * (3 * gib)) hr
  refine ⟨w.home, extent.symm ▸ w.extent, ?_, w.hot, (writeRefusal_of_regs hr hk _ _).trans w.admitted, (lcFind_of_lc (congrArg TierState.lc h) la).trans w.cached, w.loaded⟩
  rw [descOf, dcFind_of_dc (congrArg TierState.dc h)]
  exact w.desc

namespace Writable

variable {s : State} {la k : Nat} {e : LcEntry} {ds : Desc} (w : Writable s la k e ds)
include w

theorem notGuest : isGuestLa la = false := by
  have := w.home
  simp only [isGuestLa, decide_eq_false_iff_not]
  omega

theorem single : keptTwice s la = false := by
  have plain : dProtected ds = false := by
    rw [dProtected, w.hot]
    rfl
  rw [keptTwice, w.notGuest, w.desc, Bool.false_or]
  exact plain

theorem store (d : Line) (poison : Bool) (m : Nat) (again : Bool) :
    ∃ t, lineStore s la d fullMask poison m again = (.done, t) ∧ CacheStep s t ∧ LineWritten t la k d poison := by
  obtain ⟨t, placed, step, written⟩ := placeWay_cached w.cached w.loaded w.single d poison m
  have lists := poisonKnown_listStep t la poison
  have there : placeLine s la d poison m = (true, poisonKnown t la poison) := by
    rw [placeLine, placed]
    exact if_pos rfl
  refine ⟨poisonKnown t la poison, ?_, step.trans lists.cache, written.of_lc (congrArg TierState.lc lists.tier)⟩
  have extent := w.extent
  rw [lineStore, if_neg (by rw [w.notGuest]; decide), if_neg (by omega), w.desc]
  dsimp only
  rw [if_neg (by rw [w.hot]; decide), w.admitted]
  dsimp only
  rw [if_neg (by rw [w.hot]; decide), if_pos rfl, storePlace, there]
  exact if_pos rfl

/-- A use of the page's descriptor leaves the line writable. -/
theorem touched : Writable (dcTouch s (la / 4096)) la k e ds := by
  have step := dcTouch_cacheStep s (la / 4096)
  have lc : (dcTouch s (la / 4096)).tier.lc = s.tier.lc := by
    unfold dcTouch dcUpd
    split <;> rfl
  have desc : descOf (dcTouch s (la / 4096)) (la / 4096) = some ds := by
    obtain ⟨⟨v, x⟩, found, rfl⟩ := Option.map_eq_some_iff.1 w.desc
    rw [descOf, dcTouch_found found]
    rfl
  refine ⟨w.home, ?_, desc, w.hot, ?_, (lcFind_of_lc lc la).trans w.cached, w.loaded⟩
  · rw [step.frame]
    exact w.extent
  · rw [step.frame]
    exact w.admitted

end Writable

/-! A write is served (R233). -/

theorem dirFind_none {s : State} (h : s.home.dirEnt = []) (la : Nat) : dirFind s la = none := by
  have scan : ∀ base tag n w, dirScan s base tag n w = none := fun base tag n => by
    induction n with
    | zero => exact fun _ => rfl
    | succ n ih =>
      intro w
      have empty : dirAt s (base + w) = none := by
        rw [dirAt, h]
        rfl
      rw [dirScan, empty]
      exact ih _
  unfold dirFind
  split
  · exact scan ..
  · rfl

/-- No recall, eviction or forwarding is under way, and the directory is empty. -/
structure NoHolders (s : State) : Prop where
  recalls : s.home.recalls = []
  evicting : s.home.evicting = []
  fwd : s.home.fwd = []
  dirEnt : s.home.dirEnt = []

/-- A write of a whole line by the device. -/
structure DeviceWrite (r : HomeReq) (n la : Nat) : Prop where
  kind : r.kind = .write
  line : r.la = la
  mask : r.mask = fullMask
  who : r.who = .dev n
  front : r.front = false
  noted : r.noted = 0

section
variable {s : State} {la k n : Nat} {e : LcEntry} {ds : Desc} {r : HomeReq} (w : Writable s la k e ds) (free : NoHolders s) (q : DeviceWrite r n la)
include w free q

theorem serveWrite_done : ∃ t, serveWrite r s = (true, answer t r none false 0 0) ∧ CacheStep s t ∧ LineWritten t la k r.data r.poison := by
  obtain ⟨t, stored, step, written⟩ := w.store r.data r.poison r.master (bit r.noted 3)
  refine ⟨t, ?_, step, written⟩
  have alone : (dirOf s la).state = 0 := by rw [dirOf, dirFind_none free.dirEnt]
  have told : reply t r none false 0 0 = answer t r none false 0 0 := by rw [reply, q.who]
  unfold serveWrite
  dsimp only
  rw [q.line, if_neg (by rw [w.notGuest]; simp), if_neg (by rw [q.mask]; decide), q.mask, stored]
  dsimp only
  rw [if_pos alone, told]

theorem serveLine_done (view : Bool) : ∃ t, serveLine r 32 view s = (true, answer t r none false 0 0) ∧ CacheStep s t ∧ LineWritten t la k r.data r.poison := by
  obtain ⟨t, served, step, written⟩ := serveWrite_done w free q
  refine ⟨t, ?_, step, written⟩
  have alone : (dirOf s la).state = 0 := by rw [dirOf, dirFind_none free.dirEnt]
  have none : needRecalls r 32 (dirOf s la) = [] := by
    rw [needRecalls, q.kind]
    exact if_pos alone
  have untouched : dirTouch s la = s := by rw [dirTouch, dirFind_none free.dirEnt]
  unfold serveLine
  dsimp only
  rw [q.line, recallsOut, free.recalls, free.evicting, free.fwd, none, q.kind, w.notGuest, untouched]
  simpa using served

end

end Sys2Proof.Machine
end

section
/-! PROOF. Inject Poison and Clear Poison: O30 (R105, R108). -/

namespace Sys2Proof.Machine

/-! The write on its way (R105). -/

/-- The write that a command sends. -/
def poisonRequest (s : State) (p la : Nat) (data : Line) (poison : Bool) : HomeReq :=
  { kind := .write, who := .dev (64 + p + 16 * (s.port p).mboxNo), la := la / 64 * 64, data := data, mask := fullMask, poison := poison, master := p, mval := 0 }

/-- The head while the command runs. -/
def poisonRuns (op : Nat) (x : Port) : Port := { x with mboxRun := some (op, x.mboxNo), mboxNo := x.mboxNo + 1 }

theorem poisonWrite_refused {s : State} {p dpa : Nat} (h : dpaUsable s p dpa = false) (op : Nat) (data : Line) (poison : Bool) :
    poisonWrite s p dpa op data poison = mboxDone s p op 0xF C.PRT_W_UNMAPPED [] := if_pos h

theorem poisonWrite_sent {s : State} {p dpa la : Nat} (h : dpaUsable s p dpa = true) (hl : dpaToLa s p dpa = some la) (op : Nat) (data : Line) (poison : Bool) :
    poisonWrite s p dpa op data poison = portUpd (homeSent s (poisonRequest s p la data poison)) p (poisonRuns op) := by
  rw [poisonWrite, if_neg (by simp [h]), hl]
  rfl

/-- Nothing but the head, outputs, the requests on their way, the power state and PWR_STAT differs. -/
def SendFrame (p : Nat) (s t : State) : Prop := (∀ q, q ≠ p → t.port q = s.port q) ∧
  t = { s with regs := t.regs, ports := t.ports, out := t.out, pst := t.pst, home := { s.home with toHome := t.home.toHome } } ∧ regsKept (fun off => off = PWR_STAT) s t

/-- The line has been sent, and the head runs the command. -/
def PoisonSent (s : State) (p op la : Nat) (poison : Bool) (fits : Line → Prop) (t : State) : Prop :=
  t.port p = { s.port p with mboxRun := some (op, (s.port p).mboxNo), mboxNo := (s.port p).mboxNo + 1 } ∧
    (∃ r : HomeReq, t.home.toHome = s.home.toHome ++ [r] ∧ r.kind = .write ∧ r.la = la / 64 * 64 ∧ r.mask = 2 ^ 64 - 1 ∧ r.poison = poison ∧ fits r.data ∧
      r.who = .dev (64 + p + 16 * (s.port p).mboxNo)) ∧ mboxOpen t p = false ∧ SendFrame p s t

section
variable {s : State} {p dpa op : Nat} {data : Line} {poison : Bool} {c : Instr} (hp : p < 16) (ho : mboxOpen s p = true)
  (hc : exec c s = .next (mbox p s fun s => poisonWrite s p dpa op data poison))
include hp ho hc

theorem poisonCommand_refused (hu : dpaUsable s p dpa = false) : completes c s (fun t => (t.port p).mbox = some ⟨op, 0xF, C.PRT_W_UNMAPPED, []⟩ ∧ t.home = s.home ∧
    (vecMasked s p = false → t.out.head? = some (.msix p 0)) ∧ SendFrame p s t) := by
  have same := s.irq_port (64 + p) p
  have unusable := ((s.irq_units (64 + p)).dpaUsable hp (congrArg Port.extents same) dpa).trans hu
  have masked : vecMasked (s.irq (64 + p)) p = vecMasked s p := by rw [vecMasked, same, vecMasked]
  rw [mbox_open hp ho, poisonWrite_refused unusable] at hc
  have head : HeadOnly p (s.irq (64 + p)) (mboxDone (s.irq (64 + p)) p op 0xF C.PRT_W_UNMAPPED []) := (HeadOnly.refl p _).mboxDone _ _ _ _
  have home := head.home.trans (s.irq_home (64 + p))
  obtain ⟨others, frame, regs⟩ := head.afterIrq
  have told := mboxDone_told masked op 0xF C.PRT_W_UNMAPPED []
  refine completes_next hc rfl ⟨told.mbox, home, told.1, others, ?_, regs⟩
  rw [home, ← frame]

theorem poisonCommand_sent {la : Nat} (hu : dpaUsable s p dpa = true) (hl : dpaToLa s p dpa = some la) : completes c s (PoisonSent s p op la poison (· = data)) := by
  have same := s.irq_port (64 + p) p
  have usable := ((s.irq_units (64 + p)).dpaUsable hp (congrArg Port.extents same) dpa).trans hu
  have mapped := ((s.irq_units (64 + p)).dpaToLa hp dpa).trans hl
  rw [mbox_open hp ho, poisonWrite_sent usable mapped] at hc
  have port : (portUpd (homeSent (s.irq (64 + p)) (poisonRequest (s.irq (64 + p)) p la data poison)) p (poisonRuns op)).port p = poisonRuns op (s.port p) := by
    rw [portUpd_port, if_pos rfl, homeSent_port, same]
  obtain ⟨r, k, o, e⟩ := s.irq_frame (64 + p)
  refine completes_next hc rfl ⟨port, ⟨poisonRequest (s.irq (64 + p)) p la data poison, ?_, rfl, rfl, rfl, rfl, rfl, ?_⟩, ?_, fun q hq => ?_, ?_, ?_⟩
  · exact (homeSent_toHome _ _).trans (by rw [State.irq_home])
  · rw [poisonRequest, same]
  · rw [mboxOpen, port]
    exact Bool.and_false _
  · rw [portUpd_port, if_neg hq, homeSent_port, State.irq_port]
  · rw [e]
    rfl
  · exact ((s.irq_regsKept (64 + p)).trans (homeSent_regsKept _ _ _)).trans (portUpd_regsKept _ _ p _)

end

/-! The write at its home slice (R233). -/

/-- The request as it waits at its slice. -/
def taken (s : State) (r : HomeReq) (la : Nat) : HomeReq := { r with la := la, born := s.time, cr := crOf s la, front := false, noted := 0 }

/-- The request alone waits. -/
def waitsAlone (s : State) (r : HomeReq) : State := { s with home := { s.home with toHome := [], waiting := [r] } }

theorem sameReq_refl (r : HomeReq) : sameReq r r = true := beq_self_eq_true _

theorem exec_homeWrite {s : State} {r : HomeReq} {n : Nat} (hk : r.kind = .write) (hw : r.who = .dev n) (hc : coreOpen s = true) (ht : s.home.toHome = [r])
    (hq : s.home.waiting = []) (hl : r.la % 64 = 0) : exec (.homeWrite r) s = .next (pump (waitsAlone s (taken { s with home := { s.home with toHome := [] } } r r.la))) := by
  have here : arrives s r = true := by
    rw [arrives, hw, ht]
    simp [hw, sameAgent]
  have line : r.la / 64 * 64 = r.la := by omega
  have gone : s.home.toHome.erase r = [] := by rw [ht, List.erase_cons_head]
  have e : execHomeWrite r s = .next (pump (waitsAlone s (taken { s with home := { s.home with toHome := [] } } r r.la))) := by
    rw [execHomeWrite, if_neg (by rw [hk]; decide), takeKind, if_pos ⟨hk, hc, here⟩, homeTake]
    dsimp only
    rw [gone, line, hq]
    rfl
  exact e

theorem isPlace_device {r : HomeReq} {n : Nat} (hw : r.who = .dev n) : isPlace r = false := by rw [isPlace, hw]

theorem itsTurn_alone {s : State} {r : HomeReq} (hw : s.home.waiting = [r]) (hp : isPlace r = false) : itsTurn s r = true := by
  have head : headReq s r.la = some r := by
    rw [headReq, hw]
    exact List.find?_cons_of_pos (beq_self_eq_true _)
  have first : behindPlace s r = false := by
    rw [behindPlace, hw]
    simp [sameReq_refl]
  rw [itsTurn, head]
  simp [sameReq_refl, hp, first]

theorem serve_deviceWrite {s : State} {la k n : Nat} {e : LcEntry} {ds : Desc} {r : HomeReq} (w : Writable s la k e ds) (free : NoHolders s) (q : DeviceWrite r n la)
    (plane : s.ftest GLB_ILNSTAT F.GLB_ILNSTAT_REMAP_BUSY (la / 64 % 4) = false) (idle : busyOf s (la / 4096) = false) :
    ∃ t, serve r s = (true, answer t r none false 0 0) ∧ CacheStep s t ∧ LineWritten t la k r.data r.poison := by
  obtain ⟨⟨v, x⟩, found, -⟩ := Option.map_eq_some_iff.1 w.desc
  have step := dcTouch_cacheStep s (la / 4096)
  have free' : NoHolders (dcTouch s (la / 4096)) := by
    rw [step.frame]
    exact ⟨free.recalls, free.evicting, free.fwd, free.dirEnt⟩
  obtain ⟨t, served, cached, written⟩ := serveLine_done w.touched free' q false
  refine ⟨t, ?_, step.trans cached, written⟩
  have present : (dcFind (dcTouch s (la / 4096)) (la / 4096)).isNone = false := by
    rw [dcTouch_found found]
    rfl
  have stands : standing (dcTouch s (la / 4096)) r = (.none, dcTouch s (la / 4096)) := by rw [standing, q.who]
  have same : asWrite (dcTouch s (la / 4096)) r 32 = r := by
    rw [asWrite, q.who]
    exact if_neg fun h => absurd (q.kind.symm.trans h.1) (by decide)
  have extent := w.extent
  unfold serve
  dsimp only
  rw [q.line, if_neg (by rw [q.front]; decide), if_neg (by rw [q.kind]; decide), planeOf]
  dsimp only
  rw [if_neg (by rw [plane]; decide), if_neg (by rw [idle]; decide), if_neg (by omega), descFill_found found, if_neg (by rw [present]; decide), stands]
  dsimp only
  rw [same, served]

/-! The turn of the waiting work, where one request waits and ends. -/

/-- The request is over. -/
def turnEnded (s : State) : State := { s with home := { s.home with waiting := [], arrived := [] } }

theorem pumpList_ends {s t : State} {r : HomeReq} {n : Nat} (turn : itsTurn s r = true) (served : serve r s = (true, t)) (hw : r.who = .dev n) (hn : r.noted = 0)
    (ht : t.home.waiting = [r]) : pumpList [r] s = { t with home := { t.home with waiting := [] } } := by
  have dropped : dropReq t.home.waiting r = [] := by
    rw [dropReq, ht]
    exact List.eraseP_cons_of_pos (sameReq_refl r)
  have held : bit r.noted 6 = false := by
    rw [hn]
    rfl
  simp only [pumpList, turn, served, if_true, dropped, released, held, Bool.false_eq_true, if_false, unreserve, hw]

/-- Nothing of the work at the slices but the one request that waits. -/
structure OneWaits (s : State) (r : HomeReq) : Prop where
  level : s.devLevel ≠ 4
  waiting : s.home.waiting = [r]
  writes : s.tier.wbQueue = []
  banks : ∀ x ∈ s.tier.dc, x.2.isSome = true → bankOut s (dcBank x.1) = false

theorem pump_one {s t : State} {r : HomeReq} {n : Nat} (a : OneWaits s r) (served : serve r s = (true, t)) (hw : r.who = .dev n) (hn : r.noted = 0)
    (ht : t.home.waiting = [r]) (hr : ∀ x ∈ t.ports, x.2.releasing = []) : pump s = turnEnded t := by
  obtain ⟨level, waiting, writes, banks⟩ := a
  have list : pumpList [r] s = { t with home := { t.home with waiting := [] } } := pumpList_ends (itsTurn_alone waiting (isPlace_device hw)) served hw hn ht
  have all : pumpAll (2 * s.home.waiting.length + 1) s = { t with home := { t.home with waiting := [] } } := by
    rw [pumpAll, waiting, list]
    exact if_neg fun h => absurd rfl h.1
  have none : ∀ v : State, t.ports.any (fun x => x.2.releasing.any (fun q => releaseReady v x.1 q.2)) = false := fun v => by
    rw [List.any_eq_false]
    intro x hx
    rw [hr x hx]
    exact Bool.false_ne_true
  have unheld : bit r.noted 3 = false := by
    rw [hn]
    rfl
  have notes : heldNotes s (turnEnded t) = turnEnded t := by
    simp [heldNotes, waiting, turnEnded, unheld]
  unfold pump
  rw [if_neg level]
  simp only [wbDrain_empty writes, dcSettle_settled banks, all]
  exact (congrArg (heldNotes s) (if_neg fun h => Bool.false_ne_true ((none _).symm.trans h))).trans notes

/-! The command ends with its write (R108). -/

/-- A command that no longer runs. -/
def runEnded (x : Port) : Port := { x with mboxRun := none }

theorem answer_poison {s : State} {p no op : Nat} {r : HomeReq} (hp : p < 16) (hw : r.who = .dev (64 + p + 16 * no)) (hr : (s.port p).mboxRun = some (op, no)) :
    answer s r none false 0 0 = mboxDone (portUpd s p runEnded) p op 0 0 [] := by
  have head : (64 + p + 16 * no) % 16 = p := by omega
  have number : (64 + p + 16 * no) / 16 - 4 = no := by omega
  rw [answer, hw]
  dsimp only
  rw [if_pos (by omega), head, number, mboxWritten, hr]
  exact if_pos rfl

/-- No release is asked for by the end of a command. -/
theorem commandEnd_releasing {s : State} (h : ∀ x ∈ s.ports, x.2.releasing = []) (p op : Nat) :
    ∀ x ∈ (mboxDone (portUpd s p runEnded) p op 0 0 []).ports, x.2.releasing = [] :=
  msix_releasing (portUpd_releasing (portUpd_releasing h rfl) rfl) p 0

theorem commandEnd_headOnly (s : State) (p op : Nat) : HeadOnly p s (mboxDone (portUpd s p runEnded) p op 0 0 []) := ((HeadOnly.refl p s).portUpd _).mboxDone _ _ _ _

theorem commandEnd_port (s : State) (p op : Nat) : ((mboxDone (portUpd s p runEnded) p op 0 0 []).port p).mbox = some ⟨op, 0, 0, []⟩ ∧
    ((mboxDone (portUpd s p runEnded) p op 0 0 []).port p).mboxRun = none := by
  have told := (mboxDone_told (s := s) (v := portUpd s p runEnded) (vecMasked_portUpd rfl) op 0 0 []).2
  rw [told, portUpd_port, if_pos rfl]
  split <;> exact ⟨rfl, rfl⟩

end Sys2Proof.Machine

open Sys2Proof Sys2Proof.Machine

/-- Settles O30: a command sends its write, or is refused, on the head alone; a slice with nothing else under way serves the write in its first turn. -/
theorem poisonCommandsGoThroughHome : Obligations.PoisonCommandsGoThroughHome := by
  refine ⟨fun s p dpa data hp ho => ⟨fun hu => ⟨?_, ?_⟩, fun la hu hl => ⟨?_, ?_⟩⟩, fun s p no op la k e r hp hw hr hq hla hd hc hds hrl hk hm ht => ?_⟩
  · exact poisonCommand_refused hp ho rfl hu
  · exact poisonCommand_refused hp ho rfl hu
  · obtain ⟨t, done, port, ⟨r, sent, kind, line, mask, poison, -, who⟩, rest⟩ := poisonCommand_sent (c := .injectPoison p dpa) hp ho rfl hu hl
    exact ⟨t, done, port, ⟨r, sent, kind, line, mask, poison, who⟩, rest⟩
  · exact poisonCommand_sent hp ho rfl hu hl
  · obtain ⟨⟨waiting, arrived, writes, ports, banks⟩, hopen, recalls, evicting, fwd, aligned, extent, plane, idle, -⟩ := hq
    obtain ⟨ds, desc, hot, admitted⟩ := hds
    obtain ⟨found, state⟩ := hc
    have loaded : e.st ≠ .held := fun h => by
      rw [h] at state
      exact absurd state (by decide)
    have level : s.devLevel ≠ 4 := fun h => by
      rw [coreOpen, h] at hopen
      exact Bool.false_ne_true hopen
    have e' := exec_homeWrite hk hw hopen ht waiting (hrl.symm ▸ aligned)
    rw [hrl] at e'
    generalize hx : taken { s with home := { s.home with toHome := [] } } r la = x at e'
    have q : DeviceWrite x (64 + p + 16 * no) la := hx ▸ ⟨hk, rfl, hm, hw, rfl, rfl⟩
    have data : x.data = r.data := hx ▸ rfl
    have poison : x.poison = r.poison := hx ▸ rfl
    have w : Writable (waitsAlone s x) la k e ds := (Writable.mk hla (extent hla) desc hot admitted found loaded).of_tier rfl rfl rfl
    have idle' : busyOf (waitsAlone s x) (la / 4096) = false := by
      rw [busyOf, dcFind_of_dc (t := waitsAlone s x) (s := s) rfl]
      exact idle
    obtain ⟨t, served, step, written⟩ := serve_deviceWrite w ⟨recalls, evicting, fwd, hd⟩ q plane idle'
    rw [answer_poison hp q.who ((step.run p).trans hr)] at served
    have head := commandEnd_headOnly t p op
    have still : (mboxDone (portUpd t p runEnded) p op 0 0 []).home.waiting = [x] := by
      rw [head.home, step.home]
      rfl
    have turn := pump_one (s := waitsAlone s x) ⟨level, rfl, writes, banks⟩ served q.who q.noted still (commandEnd_releasing (step.releasing ports) p op)
    obtain ⟨outcome, ended⟩ := commandEnd_port t p op
    have there := written.of_lc (t := turnEnded (mboxDone (portUpd t p runEnded) p op 0 0 [])) (by rw [turnEnded, head.frame])
    have dram := head.dram.trans step.dram
    generalize mboxDone (portUpd t p runEnded) p op 0 0 [] = v at *
    rw [LineWritten, data, poison] at there
    exact completes_next e' turn ⟨outcome, ended, dram, there⟩
end

section
/-! PROOF. O43 is refuted: a DESCWR loses its page's descriptor where the set of the descriptor's copy is full of entries of the page itself (R72, R280, R425). -/

namespace Sys2Proof.Machine

/-- The descriptor that is written: COLD with SIZE 0 and ACC 5 as `zeroPageDesc`, in key region 1, so that the change is of more than ACC and has a copy (R425). -/
def regionOneDesc : Desc := mkCold 1 0 5 0 0 [] 0

/-- The word DESCWR g2, g1, v0. -/
def descwrWord : Nat := 0x20 * 2 ^ 26 + 2 * 2 ^ 21 + 1 * 2 ^ 16 + 0 * 2 ^ 11 + 1

/-- A Bobbin with the capability TIER at a DESCWR of page 3. -/
def descWriter : Bob :=
  { Bob.init with run := 1, cap := [1], g := [(1, 3)], v := [(0, regionOneDesc)], text := [(0, descwrWord)], words := 2 }

/-- Bobbin 0 is to write the descriptor of page 3, whose entries fill the partner share's set. -/
def strayWrite : State := { strayDescriptors with bobs := [(0, descWriter)] }

theorem bobReady_strayWrite : bobReady strayWrite 0 descwrWord := by
  unfold bobReady noLaneWork
  decide +kernel

theorem nothingWaits_strayWrite : nothingWaits strayWrite := nothingWaitsNow_iff.1 (by decide +kernel)

/-- The write passes R73 and R215: the page is not hot and does not become hot, and nothing of it is discarded. -/
theorem regionOneDesc_plain : descOk strayWrite regionOneDesc = true ∧ dHot zeroPageDesc = false ∧ dHot regionOneDesc = false ∧
    dState regionOneDesc ≠ stINIT ∧ (dState regionOneDesc = stCOLD → 0 < dSize regionOneDesc →
      slotLive strayWrite (dKreg regionOneDesc) (dEpoch regionOneDesc) = true) := by decide +kernel

/-- Making room for the copy drops the page's own entry: the page is cached no more. -/
theorem exec_strayWrite_drops_page : ∃ t, exec (.stDescwr 0 2 1 0) strayWrite = .next t ∧ descOf t 3 = none :=
  ⟨_, rfl, Option.isNone_iff_eq_none.1 (by decide +kernel)⟩

end Sys2Proof.Machine

open Sys2Proof Sys2Proof.Machine

/-- Refutes O43: its clause of a DESCWR that discards nothing does not ask that each descriptor lies in its page's set. In `strayWrite` the set that takes the copy
of the written descriptor (R425) is full of entries of the same page; the entry that makes room is looked up by its page, so that the page's own, just written, is
dropped, where the clause has the page cached with what was written. -/
theorem not_descriptorOperationsOfABobbin : ¬ Obligations.DescriptorOperationsOfABobbin := by
  unfold Obligations.DescriptorOperationsOfABobbin
  intro holds
  obtain ⟨-, -, -, -, -, -, cached, -⟩ := holds strayWrite 0 2 1 0 (by decide) (by decide) (by decide) rfl rfl rfl
  obtain ⟨-, quiet⟩ := cached zeroPageDesc (by decide +kernel) (by decide +kernel) (by decide +kernel)
  obtain ⟨sound, -⟩ := quiet (by decide +kernel) nothingWaits_strayWrite
  obtain ⟨-, -, writes, -⟩ := sound (by decide +kernel)
  obtain ⟨ok, cold, rest⟩ := regionOneDesc_plain
  obtain ⟨t, run, dropped⟩ := exec_strayWrite_drops_page
  obtain ⟨-, found⟩ := (completes_iff run).1 (writes ⟨ok, .inr ⟨cold, rest⟩⟩ bobReady_strayWrite rfl)
  exact Option.some_ne_none _ (found.symm.trans dropped)
end

section
/-! PROOF. O45 is refuted: a line that is written back while a row test has its row goes to the test's buffer, and the cells keep the test's pattern (R120, R405). -/

namespace Sys2Proof.Machine

/-- The descriptor of page 0: HOT, in the first frame of channel 0's plain pool. -/
def testedDesc : Desc := mkHot stHOT 0 0 0 0 (plainBase deviceServes 0) 0

/-- The dirty line 0. -/
def testedLine : LcEntry := ⟨false, 0, .dirty, 0x77, 3, 0⟩

/-- Page 0 and its dirty line are cached. -/
def pageDirty : State :=
  { deviceServes with tier := { deviceServes.tier with dc := [(0, some ⟨0, testedDesc, false, false, 0, false⟩)], lc := [(0, some testedLine)] } }

/-- A corrected error in the page's frame has started the test of its row (R405). -/
def pageTested : State := rowTestReq pageDirty 0 (framePa pageDirty 0 (dFrameIdx testedDesc) 0)

theorem nothingWaits_pageTested : nothingWaits pageTested := nothingWaitsNow_iff.1 (by decide +kernel)

/-- With the line written back, the cells of its place hold the test's pattern. -/
theorem cells_lineWriteback_pageTested :
    tabGet (fun _ => (0 : Line)) (lineWriteback 0 pageTested).dram.lines (dramKey (dChan testedDesc) (dFrameIdx testedDesc) 0) = 0 := by decide +kernel

/-- The line's ciphertext under the next minor counter, 1, is not that pattern. -/
theorem lineCrypt_testedLine_ne_zero :
    lineCrypt (pageTested.slot (dKreg testedDesc) (dEpoch testedDesc)) 0 (dMajor testedDesc) (0 + 1) testedLine.data ≠ 0 := by decide +kernel

end Sys2Proof.Machine

open Sys2Proof Sys2Proof.Machine

/-- Refutes O45: its clause of LINE_WRITEBACK reads the cells, and does not ask that no row test runs. In `pageTested` a row test of channel 0 has the row of page
0's frame in its buffer, and takes the line there (R405): the cells hold the test's pattern 0, where the clause has the line's ciphertext. -/
theorem not_writeBacksAndRangeRecall : ¬ Obligations.WriteBacksAndRangeRecall := by
  unfold Obligations.WriteBacksAndRangeRecall
  rintro ⟨backs, -⟩
  obtain ⟨dirty, -⟩ := backs pageTested 0 0 testedLine testedDesc nothingWaits_pageTested (by decide +kernel) (by decide +kernel) rfl (by decide)
    (by decide +kernel) (by decide +kernel) (by decide +kernel) (by decide +kernel) (by decide +kernel) (by decide +kernel) (by decide +kernel)
    (by decide +kernel) (by decide +kernel) (by decide +kernel) (by decide +kernel) (by decide +kernel)
  obtain ⟨stored, -⟩ := (completes_iff rfl).1 (dirty rfl (by decide +kernel))
  have place : (dChan testedDesc * 2 ^ 28 + dFrameIdx testedDesc) * 64 + 0 / 64 % 64 = dramKey (dChan testedDesc) (dFrameIdx testedDesc) 0 := rfl
  have minor : testedDesc.toNat / 2 ^ (96 + 6 * (0 / 64 % 64)) % 64 = 0 := by decide +kernel
  rw [place, minor, cells_lineWriteback_pageTested] at stored
  exact lineCrypt_testedLine_ne_zero stored.symm
end

section
/-! PROOF. Writes of the key block's registers: which entry of an array an admitted write names, how the write ends, and what the key store and its fields
read as afterwards (R190, R191). -/

namespace Sys2Proof.Machine

/-! An admitted write and its end. -/

/-- The indices that the hook of an admitted write is given are those of the register at the offset. -/
theorem admitted_index {who : Who} {off : Nat} {val : Word} {s : State} {w : CtlWrite} {ix : List Nat} (ha : admitted who off val s w)
    (hi : (regFind off).map RegHit.idx = some ix) : w.hit.idx = ix := by
  obtain ⟨-, hok, -⟩ := ha
  obtain ⟨h, hf, rfl⟩ := Option.map_eq_some_iff.1 hi
  unfold ctlCheck at hok
  rw [hf] at hok
  by_cases hl : off < 0x100000000
  · rw [if_pos hl] at hok
    dsimp only at hok
    split_ifs at hok <;> cases hok <;> rfl
  · rw [if_neg hl] at hok
    dsimp only at hok
    split_ifs at hok

theorem regFind_keyRgn : ∀ k < 32, (regFind (KEY_RGN k)).map RegHit.idx = some [k] := by decide

theorem regFind_keyRctl : ∀ k < 32, (regFind (KEY_RCTL k)).map RegHit.idx = some [k] := by decide

/-- `t` is `u` after the end of an access with status `st`: the status is the last output, and a refusal stands in its record. -/
structure Ended (who : Who) (off st : Nat) (u t : State) : Prop where
  status : endedWith who off st t
  frame : t = { u with regs := t.regs, out := t.out }
  regs : regsKept errorReg u t

/-- An admitted write whose hook answers neither of the counted statuses is the hook's state with the access ended. -/
theorem rowWrite_ended {hook : Hook} {who : Who} {off st : Nat} {val : Word} {s u : State} {w : CtlWrite} (ha : admitted who off val s w)
    (h : hook w.hit.idx w.old w.new w.act s = (u, st)) (h1 : st ≠ C.CTL_E_WORLD) (h2 : st ≠ C.CTL_E_NOT_OWNER) :
    Ended who off st u (rowWrite hook who off val s) := by
  rw [rowWrite_admitted ha h]
  exact ⟨ctlEnd_endedWith .., (RegsOnly.refl u).ctlEnd _ _ _ h1 h2, (ctlEnd_uncounted _ _ _ u h1 h2).2⟩

namespace Ended

variable {who : Who} {off st : Nat} {u t : State} (a : Ended who off st u t)
include a

theorem dram : t.dram = u.dram := by rw [a.frame]
theorem tier : t.tier = u.tier := by rw [a.frame]
theorem keys : t.keys = u.keys := by rw [a.frame]
theorem slot (k e : Nat) : t.slot k e = u.slot k e := by rw [State.slot, a.keys, State.slot]

end Ended

/-- What waits at the slices is said by the slices, the caches, the ports and the fences of SRAM banks alone. -/
theorem nothingWaits_of_regsKept {ex : Nat → Prop} {s t : State} (h : nothingWaits s) (hh : t.home = s.home) (ht : t.tier = s.tier) (hp : t.ports = s.ports)
    (hr : regsKept ex s t) (fences : ∀ i, ¬ ex (SRM_FENCE i)) : nothingWaits t := by
  obtain ⟨waiting, arrived, writes, ports, banks⟩ := h
  have fence : ∀ b, bankOut t b = bankOut s b := fun b => by
    unfold bankOut State.ftest
    rw [hr.fget (fences _)]
  unfold nothingWaits
  rw [hh, ht, hp]
  exact ⟨waiting, arrived, writes, ports, fun x hx hs => (fence _).trans (banks x hx hs)⟩

/-! Bits of a field. -/

theorem fld_lt (x : Nat) (f : Fld) : fld x f < 2 ^ f.w := Nat.mod_lt _ (Nat.two_pow_pos _)

theorem bit_eq_getBits (x i : Nat) : bit x i = (getBits x i 1 == 1) := rfl

theorem bit_withBit_same (x i : Nat) (b : Bool) : bit (withBit x i b) i = b := by
  rw [bit_eq_getBits, withBit, getBits_putBits_same]
  cases b <;> rfl

theorem bit_withBit_other {x i j : Nat} (b : Bool) (h : j ≠ i) : bit (withBit x i b) j = bit x j := by
  rw [bit_eq_getBits, bit_eq_getBits, withBit]
  obtain below | above : j + 1 ≤ i ∨ i + 1 ≤ j := by omega
  · rw [getBits_putBits_below _ _ _ _ _ _ below]
  · rw [getBits_putBits_above _ _ _ _ _ _ above]

/-- One bit of a field is set: it reads as set, and the field's other bits as before. -/
theorem State.ftest_fbit (s : State) (off : Nat) (f : Fld) (i j : Nat) (b : Bool) (hf : f.lo + f.w ≤ 64) (hj : j < f.w) :
    (s.fbit off f i b).ftest off f j = if j = i then b else s.ftest off f j := by
  have low : ∀ x, bit (x % 2 ^ f.w) j = bit x j := fun x => by
    have h := bit_getBits x 0 f.w j
    rwa [getBits, Nat.pow_zero, Nat.div_one, decide_eq_true hj, Bool.true_and, Nat.zero_add] at h
  unfold State.ftest State.fbit
  rw [State.fset_fget_same _ _ _ _ hf, low]
  split
  case isTrue e => rw [e, bit_withBit_same]
  case isFalse e => rw [bit_withBit_other b e]

/-! The key slots (R190). -/

/-- A slot reads as it was set, and every other slot as before. -/
theorem State.setSlot_slot (s : State) (x : KeySlot) {k e j i : Nat} (he : e < 2) (hi : i < 2) :
    (s.setSlot k e x).slot j i = if j = k ∧ i = e then x else s.slot j i := by
  unfold State.slot State.setSlot
  rw [tabGet_tabSet]
  exact if_congr (by omega) rfl rfl

theorem slotLive_of_regs {s t : State} {k : Nat} (h : t.rg (KEY_RCTL k) = s.rg (KEY_RCTL k)) (e : Nat) : slotLive t k e = slotLive s k e := by
  unfold slotLive State.ftest State.fget
  rw [h]

/-- A field of KEY_RCTLk apart from LIVE leaves LIVE alone. -/
theorem slotLive_fset (s : State) (k e : Nat) {f : Fld} (v : Nat) (h : f.lo + f.w ≤ 64) (hd : f.lo + f.w ≤ 2 ∨ 4 ≤ f.lo) :
    slotLive (s.fset (KEY_RCTL k) f v) k e = slotLive s k e := by
  unfold slotLive State.ftest
  rw [State.fset_fget_apart _ _ _ _ _ h (by simp only [F.KEY_RCTL_LIVE]; omega)]

end Sys2Proof.Machine
end

section
/-! PROOF. Writes of KEY_RGNk and KEY_RCTLk (R189, R191, R192, R214). -/

namespace Sys2Proof.Machine

/-! Region ranges (R189). -/

/-- Another valid region of the 31 that have a range meets the one from `base` to `limit`. -/
def RangeClash (s : State) (k base limit : Nat) : Prop :=
  ∃ j, 1 ≤ j ∧ j < 32 ∧ j ≠ k ∧ s.fget (KEY_RGN j) F.KEY_RGN_VALID = 1 ∧ s.fget (KEY_RGN j) F.KEY_RGN_BASE ≤ limit ∧ base ≤ s.fget (KEY_RGN j) F.KEY_RGN_LIMIT

theorem rgnOverlap_iff (s : State) (k base limit : Nat) : rgnOverlap s k base limit = true ↔ RangeClash s k base limit := by
  unfold rgnOverlap
  simp only [List.any_eq_true, List.mem_map, List.mem_range, Bool.and_eq_true, bne_iff_ne, beq_iff_eq, decide_eq_true_eq]
  constructor
  · rintro ⟨_, ⟨i, hi, rfl⟩, ⟨⟨other, valid⟩, low⟩, high⟩
    exact ⟨i + 1, by omega, by omega, other, valid, low, high⟩
  · rintro ⟨j, h1, h32, other, valid, low, high⟩
    exact ⟨j, ⟨j - 1, by omega, by omega⟩, ⟨⟨other, valid⟩, low⟩, high⟩

/-- What R189 refuses of a new range: one of region 0, one whose ends are the wrong way round, a valid one that meets another's. -/
def RangeBad (s : State) (k new : Nat) : Prop :=
  k = 0 ∨ fld new F.KEY_RGN_LIMIT < fld new F.KEY_RGN_BASE ∨
    fld new F.KEY_RGN_VALID = 1 ∧ RangeClash s k (fld new F.KEY_RGN_BASE) (fld new F.KEY_RGN_LIMIT)

theorem hookKeyRgn_bad {s : State} {k new : Nat} (h : RangeBad s k new) (old act : Nat) : hookKeyRgn [k] old new act s = (s, C.KEY_E_RANGE) :=
  if_pos (h.imp_right (Or.imp_right (And.imp_right (rgnOverlap_iff ..).2)))

theorem hookKeyRgn_good {s : State} {k new : Nat} (h : ¬ RangeBad s k new) (old act : Nat) :
    hookKeyRgn [k] old new act s = (s.setRg (KEY_RGN k) (BitVec.ofNat 64 new), 0) :=
  if_neg fun hb => h (hb.imp_right (Or.imp_right (And.imp_right (rgnOverlap_iff ..).1)))

theorem keyRegionWrite_completes {s : State} {who : Who} {k : Nat} {val : Word} {w : CtlWrite} (hk : k < 32) (ha : admitted who (KEY_RGN k) val s w) :
    completes (.keyRegionWrite who k val) s (fun t => t = { s with regs := t.regs, out := t.out } ∧
      (RangeBad s k w.new → endedWith who (KEY_RGN k) C.KEY_E_RANGE t ∧ regsKept errorReg s t) ∧
      (¬ RangeBad s k w.new → endedWith who (KEY_RGN k) 0 t ∧ t.rg (KEY_RGN k) = BitVec.ofNat 64 w.new ∧ regsKept (fun off => off = KEY_RGN k) s t)) := by
  have index := admitted_index ha (regFind_keyRgn k hk)
  refine ⟨_, rfl, ?_⟩
  by_cases bad : RangeBad s k w.new
  · have e := rowWrite_ended ha (index ▸ hookKeyRgn_bad bad w.old w.act) (by decide) (by decide)
    exact ⟨e.frame, fun _ => ⟨e.status, e.regs⟩, fun good => absurd bad good⟩
  · rw [rowWrite_success ha (index ▸ hookKeyRgn_good bad w.old w.act)]
    exact ⟨rfl, fun h => absurd h bad, fun _ => ⟨rfl, State.setRg_rg_same .., (regsKept.refl (fun off => off = KEY_RGN k) s).setRg rfl _⟩⟩

/-! What an operation on a region's slots may change. -/

/-- Nothing but the key store and KEY_RCTLk differs, and of the slots only the region's own. -/
structure SlotStep (k : Nat) (s t : State) : Prop where
  frame : t = { s with regs := t.regs, keys := t.keys }
  others : ∀ j i, j ≠ k → i < 2 → t.slot j i = s.slot j i
  regs : regsKept (fun off => off = KEY_RCTL k) s t

namespace SlotStep

variable {k : Nat} {s t u : State}

theorem refl (k : Nat) (s : State) : SlotStep k s s := ⟨rfl, fun _ _ _ _ => rfl, .refl _ s⟩

theorem trans (a : SlotStep k s t) (b : SlotStep k t u) : SlotStep k s u :=
  ⟨by rw [b.frame, a.frame], fun j i hj hi => (b.others j i hj hi).trans (a.others j i hj hi), a.regs.trans b.regs⟩

theorem fset (a : SlotStep k s t) (f : Fld) (v : Nat) : SlotStep k s (t.fset (KEY_RCTL k) f v) :=
  a.trans ⟨rfl, fun _ _ _ _ => rfl, t.fset_regsKept _ f v⟩

theorem setSlot (a : SlotStep k s t) {e : Nat} (he : e < 2) (x : KeySlot) : SlotStep k s (t.setSlot k e x) :=
  a.trans ⟨rfl, fun _ _ hj hi => (t.setSlot_slot x he hi).trans (if_neg fun h => hj h.1), .of_regs rfl⟩

/-- The staging words and the list of blocked pages are apart from the slots. -/
theorem staging (a : SlotStep k s t) (m : Tab Nat) (l : List Nat) : SlotStep k s { t with keys := { t.keys with kmat := m, blocked := l } } :=
  a.trans ⟨rfl, fun _ _ _ _ => rfl, .of_regs rfl⟩

theorem dram (a : SlotStep k s t) : t.dram = s.dram := by rw [a.frame]
theorem tier (a : SlotStep k s t) : t.tier = s.tier := by rw [a.frame]

/-- Where nothing waited at the slices, nothing waits after it. -/
theorem quiet (a : SlotStep k s t) (hk : k < 32) (h : nothingWaits s) : nothingWaits t :=
  nothingWaits_of_regsKept h (by rw [a.frame]) a.tier (by rw [a.frame]) a.regs fun i => by unfold SRM_FENCE KEY_RCTL; omega

end SlotStep

/-! ERASE, LOAD and CUR. -/

theorem keyErase_step (s : State) (k : Nat) : SlotStep k s (keyErase s k) := (((SlotStep.refl k s).setSlot (by decide) _).setSlot (by decide) _).fset _ _

/-- An erased region has no LIVE slot, its keys are zero, and CUR stays (R214). -/
theorem keyErase_erased (s : State) (k : Nat) {i : Nat} (hi : i < 2) :
    slotLive (keyErase s k) k i = false ∧ (keyErase s k).slot k i = { s.slot k i with mat := 0 } := by
  constructor
  · have zero : (keyErase s k).fget (KEY_RCTL k) F.KEY_RCTL_LIVE = 0 := State.fset_fget_same _ _ _ _ (by decide)
    rw [slotLive, State.ftest, zero]
    exact Bool.eq_false_iff.2 fun h => absurd h (by simp [bit])
  · have e : (keyErase s k).slot k i = ((s.setSlot k 0 { s.slot k 0 with mat := 0 }).setSlot k 1
        { (s.setSlot k 0 { s.slot k 0 with mat := 0 }).slot k 1 with mat := 0 }).slot k i := rfl
    rw [e, State.setSlot_slot _ _ (by decide) hi, State.setSlot_slot _ _ (by decide) hi, State.setSlot_slot _ _ (by decide) (by decide)]
    obtain rfl | rfl : i = 0 ∨ i = 1 := by omega
    · simp
    · simp

theorem keyErase_cur (s : State) (k : Nat) : (keyErase s k).fget (KEY_RCTL k) F.KEY_RCTL_CUR = s.fget (KEY_RCTL k) F.KEY_RCTL_CUR :=
  State.fset_fget_apart _ _ _ _ _ (by decide) (by decide)

theorem keyLoad_inUse {s : State} {k e : Nat} (h : (s.slot k e).inuse ≠ 0) (gen : Bool) : keyLoad s k e gen = (s, C.KEY_E_SLOT_IN_USE) := if_pos h

/-- The slot takes its key `x`, and the staging registers are zero. -/
def keyStaged (s : State) (k e : Nat) (x : KeySlot) : State := kmatClear (s.setSlot k e x)

/-- The slot with its key is LIVE, and the newer. -/
def keyShown (s : State) (k e : Nat) (x : KeySlot) : State :=
  ((keyStaged s k e x).fbit (KEY_RCTL k) F.KEY_RCTL_LIVE e true).fset (KEY_RCTL k) F.KEY_RCTL_NEWER e

/-- The region's pages are blocked no more. -/
def keyUnblocked (s : State) (k : Nat) : State := { s with keys := { s.keys with blocked := s.keys.blocked.filter (fun y => y / 2 ^ 35 != k) } }

/-- LOAD of the key `x` into a slot that no descriptor uses (R191). -/
def keyLoaded (s : State) (k e : Nat) (x : KeySlot) : State := (keyUnblocked (keyShown s k e x) k).fset (KEY_RCTL k) F.KEY_RCTL_BLOCKED 0

/-- Without GEN the key is the twelve staged words. -/
theorem keyLoad_free {s : State} {k e : Nat} (h : (s.slot k e).inuse = 0) : keyLoad s k e false = (keyLoaded s k e ⟨kmatWords s 0 12, 0, 0⟩, 0) := by
  unfold keyLoad
  simp only [ne_eq, h, not_true_eq_false, if_false, Bool.false_eq_true]
  generalize kmatWords s 0 12 = m
  rfl

section

variable (s : State) (k : Nat) {e i : Nat} (x : KeySlot)

theorem keyLoaded_step (he : e < 2) : SlotStep k s (keyLoaded s k e x) :=
  ((((((SlotStep.refl k s).setSlot he x).staging [] _).fset _ _).fset _ _).staging _ _).fset _ _

/-- LOAD shows in the fields of KEY_RCTLk: the slot is NEWER, CUR stays. -/
theorem keyLoaded_fields (he : e < 2) : (keyLoaded s k e x).fget (KEY_RCTL k) F.KEY_RCTL_NEWER = e ∧
    (keyLoaded s k e x).fget (KEY_RCTL k) F.KEY_RCTL_CUR = s.fget (KEY_RCTL k) F.KEY_RCTL_CUR := by
  have blocked : ∀ f : Fld, f.lo + f.w ≤ 6 → (keyLoaded s k e x).fget (KEY_RCTL k) f = (keyShown s k e x).fget (KEY_RCTL k) f :=
    fun f hf => State.fset_fget_apart _ _ _ _ _ (by decide) (.inl hf)
  constructor
  · rw [blocked _ (by decide), keyShown, State.fset_fget_lt _ _ _ _ (by decide) he]
  · rw [blocked _ (by decide), keyShown, State.fset_fget_apart _ _ _ _ _ (by decide) (by decide)]
    exact State.fset_fget_apart _ _ _ _ _ (by decide) (by decide)

/-- LOAD makes its slot LIVE and leaves the other as it is. -/
theorem keyLoaded_live (hi : i < 2) : slotLive (keyLoaded s k e x) k i = if i = e then true else slotLive s k i := by
  have unblocked : slotLive (keyUnblocked (keyShown s k e x) k) k i = slotLive (keyShown s k e x) k i := slotLive_of_regs rfl i
  have live : slotLive ((keyStaged s k e x).fbit (KEY_RCTL k) F.KEY_RCTL_LIVE e true) k i = if i = e then true else slotLive s k i :=
    (keyStaged s k e x).ftest_fbit (KEY_RCTL k) F.KEY_RCTL_LIVE e i true (by decide) hi
  rw [keyLoaded, slotLive_fset _ _ _ _ (by decide) (by decide), unblocked, keyShown, slotLive_fset _ _ _ _ (by decide) (by decide), live]

/-- The slot holds its key; the other slot is as before. -/
theorem keyLoaded_slot (he : e < 2) (hi : i < 2) : (keyLoaded s k e x).slot k i = if i = e then x else s.slot k i :=
  (s.setSlot_slot _ he hi).trans (if_congr (by simp) rfl rfl)

theorem keyLoaded_kmat : (keyLoaded s k e x).keys.kmat = [] := rfl

end

theorem keyCur_same {s : State} {k e : Nat} (h : e = s.fget (KEY_RCTL k) F.KEY_RCTL_CUR) : keyCur s k e = (s, 0) := if_pos h

theorem keyCur_noKey {s : State} {k e : Nat} (h : e ≠ s.fget (KEY_RCTL k) F.KEY_RCTL_CUR) (hl : slotLive s k e = false) :
    keyCur s k e = (s, C.KEY_E_NO_KEY) := (if_neg h).trans (if_pos hl)

theorem keyCur_notNewer {s : State} {k e : Nat} (h : e ≠ s.fget (KEY_RCTL k) F.KEY_RCTL_CUR) (hl : slotLive s k e = true)
    (hn : s.fget (KEY_RCTL k) F.KEY_RCTL_NEWER ≠ e) : keyCur s k e = (s, C.KEY_E_NOT_NEWER) := by
  rw [keyCur, if_neg h, if_neg (by rw [hl]; decide), if_pos hn]

theorem keyCur_newer {s : State} {k e : Nat} (h : e ≠ s.fget (KEY_RCTL k) F.KEY_RCTL_CUR) (hl : slotLive s k e = true)
    (hn : s.fget (KEY_RCTL k) F.KEY_RCTL_NEWER = e) : keyCur s k e = (s.fset (KEY_RCTL k) F.KEY_RCTL_CUR e, 0) := by
  rw [keyCur, if_neg h, if_neg (by rw [hl]; decide), if_neg (not_not.2 hn)]

/-! A write of KEY_RCTLk while nothing waits at the slices. -/

/-- What every write of KEY_RCTLk leaves alone. -/
def RctlFrame (s : State) (k : Nat) (t : State) : Prop :=
  t.dram = s.dram ∧ t.tier = s.tier ∧ (∀ j i, j ≠ k → i < 2 → j < 32 → t.slot j i = s.slot j i) ∧ regsKept (fun off => off = KEY_RCTL k ∨ errorReg off) s t

theorem not_errorReg_keyRctl {k : Nat} (hk : k < 32) : ¬ errorReg (KEY_RCTL k) :=
  not_errorReg (by unfold KEY_RCTL MGT_CTLERR; omega) (by unfold KEY_RCTL; omega)

section

variable {s u t : State} {who : Who} {k st : Nat}

theorem Ended.rctlFrame (a : Ended who (KEY_RCTL k) st u t) (b : SlotStep k s u) : RctlFrame s k t :=
  ⟨a.dram.trans b.dram, a.tier.trans b.tier, fun j i hj hi _ => (a.slot j i).trans (b.others j i hj hi), (b.regs.mono fun _ => .inl).trans (a.regs.mono fun _ => .inr)⟩

theorem Ended.rctl_fget (a : Ended who (KEY_RCTL k) st u t) (hk : k < 32) (f : Fld) : t.fget (KEY_RCTL k) f = u.fget (KEY_RCTL k) f :=
  a.regs.fget (not_errorReg_keyRctl hk) f

theorem Ended.rctl_live (a : Ended who (KEY_RCTL k) st u t) (hk : k < 32) (e : Nat) : slotLive t k e = slotLive u k e :=
  slotLive_of_regs (a.regs _ (not_errorReg_keyRctl hk)) e

end

/-- ERASE and LOAD make `l`, with the status of LOAD, and CUR makes `c` of it (R192). -/
theorem hookKeyRctl_eq {s : State} {k new act : Nat} {l c : State × Nat}
    (load : (if fld act F.KEY_RCTL_LOAD = 1 then keyLoad (if fld act F.KEY_RCTL_ERASE = 1 then keyErase s k else s) k (fld act F.KEY_RCTL_SLOT)
      (fld act F.KEY_RCTL_GEN == 1) else (if fld act F.KEY_RCTL_ERASE = 1 then keyErase s k else s, 0)) = l)
    (cur : keyCur l.1 k (fld new F.KEY_RCTL_CUR) = c) (old : Nat) : hookKeyRctl [k] old new act s = (pump c.1, if l.2 ≠ 0 then l.2 else c.2) := by
  subst load cur
  rfl

section

variable {s : State} {who : Who} {k : Nat} {val : Word} {w : CtlWrite} (hk : k < 32) (ha : admitted who (KEY_RCTL k) val s w) (quiet : nothingWaits s)
include hk ha quiet

/-- ERASE and LOAD make `u`, CUR makes `v` of it, and the write ends with the status of LOAD or else of CUR. -/
theorem rctlWrite_ended {a b st : Nat} {u v : State}
    (load : (if fld w.act F.KEY_RCTL_LOAD = 1 then keyLoad (if fld w.act F.KEY_RCTL_ERASE = 1 then keyErase s k else s) k (fld w.act F.KEY_RCTL_SLOT)
      (fld w.act F.KEY_RCTL_GEN == 1) else (if fld w.act F.KEY_RCTL_ERASE = 1 then keyErase s k else s, 0)) = (u, a))
    (cur : keyCur u k (fld w.new F.KEY_RCTL_CUR) = (v, b)) (step : SlotStep k s v) (hst : (if a ≠ 0 then a else b) = st)
    (h1 : st ≠ C.CTL_E_WORLD) (h2 : st ≠ C.CTL_E_NOT_OWNER) : Ended who (KEY_RCTL k) st v (rowWrite hookKeyRctl who (KEY_RCTL k) val s) := by
  refine rowWrite_ended ha ?_ h1 h2
  rw [admitted_index ha (regFind_keyRctl k hk), hookKeyRctl_eq load cur w.old, pump_quiet (step.quiet hk quiet), hst]

/-- With ERASE and LOAD 0 the write is that of CUR (R192). -/
theorem curWrite_ended (hE : fld w.act F.KEY_RCTL_ERASE = 0) (hL : fld w.act F.KEY_RCTL_LOAD = 0) {b : Nat} {v : State}
    (cur : keyCur s k (fld w.new F.KEY_RCTL_CUR) = (v, b)) (step : SlotStep k s v) (h1 : b ≠ C.CTL_E_WORLD) (h2 : b ≠ C.CTL_E_NOT_OWNER) :
    Ended who (KEY_RCTL k) b v (rowWrite hookKeyRctl who (KEY_RCTL k) val s) :=
  rctlWrite_ended hk ha quiet (a := 0) (b := b) (by rw [hL, hE]; rfl) cur step rfl h1 h2

theorem keyCurWrite_completes (hE : fld w.act F.KEY_RCTL_ERASE = 0) (hL : fld w.act F.KEY_RCTL_LOAD = 0) :
    let cur := s.fget (KEY_RCTL k) F.KEY_RCTL_CUR
    let nx := fld w.new F.KEY_RCTL_CUR
    completes (.keyCurWrite who k val) s (fun t => RctlFrame s k t ∧ t.keys = s.keys ∧
      (nx = cur → endedWith who (KEY_RCTL k) 0 t) ∧
      (nx ≠ cur → slotLive s k nx = false → endedWith who (KEY_RCTL k) C.KEY_E_NO_KEY t ∧ t.fget (KEY_RCTL k) F.KEY_RCTL_CUR = cur) ∧
      (nx ≠ cur → slotLive s k nx = true → s.fget (KEY_RCTL k) F.KEY_RCTL_NEWER ≠ nx →
        endedWith who (KEY_RCTL k) C.KEY_E_NOT_NEWER t ∧ t.fget (KEY_RCTL k) F.KEY_RCTL_CUR = cur) ∧
      (nx ≠ cur → slotLive s k nx = true → s.fget (KEY_RCTL k) F.KEY_RCTL_NEWER = nx →
        endedWith who (KEY_RCTL k) 0 t ∧ t.fget (KEY_RCTL k) F.KEY_RCTL_CUR = nx)) := by
  intro cur nx
  refine ⟨_, rfl, ?_⟩
  have stay := SlotStep.refl k s
  by_cases same : nx = cur
  · have e := curWrite_ended hk ha quiet hE hL (keyCur_same same) stay (by decide) (by decide)
    exact ⟨e.rctlFrame stay, e.keys, fun _ => e.status, fun h => absurd same h, fun h => absurd same h, fun h => absurd same h⟩
  cases live : slotLive s k nx with
  | false =>
    have e := curWrite_ended hk ha quiet hE hL (keyCur_noKey same live) stay (by decide) (by decide)
    exact ⟨e.rctlFrame stay, e.keys, fun h => absurd h same, fun _ _ => ⟨e.status, e.rctl_fget hk _⟩, fun _ h => absurd h (by decide), fun _ h => absurd h (by decide)⟩
  | true =>
    by_cases newer : s.fget (KEY_RCTL k) F.KEY_RCTL_NEWER = nx
    · have step := stay.fset F.KEY_RCTL_CUR nx
      have e := curWrite_ended hk ha quiet hE hL (keyCur_newer same live newer) step (by decide) (by decide)
      exact ⟨e.rctlFrame step, e.keys, fun h => absurd h same, fun _ h => absurd h (by decide), fun _ _ h => absurd newer h, fun _ _ _ =>
        ⟨e.status, (e.rctl_fget hk _).trans (State.fset_fget_lt _ _ _ _ (by decide) (fld_lt _ _))⟩⟩
    · have e := curWrite_ended hk ha quiet hE hL (keyCur_notNewer same live newer) stay (by decide) (by decide)
      exact ⟨e.rctlFrame stay, e.keys, fun h => absurd h same, fun _ h => absurd h (by decide), fun _ _ _ => ⟨e.status, e.rctl_fget hk _⟩,
        fun _ _ h => absurd h newer⟩

/-- With ERASE 0 and LOAD the slot is loaded, and CUR, which names what stands, changes nothing more. -/
theorem loadWrite_ended (hE : fld w.act F.KEY_RCTL_ERASE = 0) (hL : fld w.act F.KEY_RCTL_LOAD = 1) {a : Nat} {u : State}
    (load : keyLoad s k (fld w.act F.KEY_RCTL_SLOT) (fld w.act F.KEY_RCTL_GEN == 1) = (u, a))
    (hc : fld w.new F.KEY_RCTL_CUR = u.fget (KEY_RCTL k) F.KEY_RCTL_CUR) (step : SlotStep k s u) (h1 : a ≠ C.CTL_E_WORLD) (h2 : a ≠ C.CTL_E_NOT_OWNER) :
    Ended who (KEY_RCTL k) a u (rowWrite hookKeyRctl who (KEY_RCTL k) val s) := by
  refine rctlWrite_ended hk ha quiet (a := a) (b := 0) ?_ (keyCur_same hc) step ?_ h1 h2
  · rw [if_pos hL, if_neg (by rw [hE]; decide), load]
  · by_cases h : a = 0
    · rw [if_neg (not_not.2 h), h]
    · rw [if_pos h]

/-- LOAD of a slot in use is refused (R191). -/
theorem keyLoad_inUse_completes (hE : fld w.act F.KEY_RCTL_ERASE = 0) (hL : fld w.act F.KEY_RCTL_LOAD = 1)
    (hc : fld w.new F.KEY_RCTL_CUR = s.fget (KEY_RCTL k) F.KEY_RCTL_CUR) (hu : (s.slot k (fld w.act F.KEY_RCTL_SLOT)).inuse ≠ 0) :
    completes (.keyLoad who k val) s (fun t => RctlFrame s k t ∧ endedWith who (KEY_RCTL k) C.KEY_E_SLOT_IN_USE t ∧ t.keys = s.keys) := by
  have stay := SlotStep.refl k s
  have e := loadWrite_ended hk ha quiet hE hL (keyLoad_inUse hu _) hc stay (by decide) (by decide)
  exact ⟨_, rfl, e.rctlFrame stay, e.status, e.keys⟩

theorem keyLoad_free_completes (hE : fld w.act F.KEY_RCTL_ERASE = 0) (hL : fld w.act F.KEY_RCTL_LOAD = 1)
    (hc : fld w.new F.KEY_RCTL_CUR = s.fget (KEY_RCTL k) F.KEY_RCTL_CUR) (hu : (s.slot k (fld w.act F.KEY_RCTL_SLOT)).inuse = 0)
    (hG : fld w.act F.KEY_RCTL_GEN = 0) :
    let e := fld w.act F.KEY_RCTL_SLOT
    completes (.keyLoad who k val) s (fun t => RctlFrame s k t ∧ endedWith who (KEY_RCTL k) 0 t ∧ slotLive t k e = true ∧
      t.fget (KEY_RCTL k) F.KEY_RCTL_NEWER = e ∧ t.fget (KEY_RCTL k) F.KEY_RCTL_CUR = s.fget (KEY_RCTL k) F.KEY_RCTL_CUR ∧
      slotLive t k (1 - e) = slotLive s k (1 - e) ∧ t.slot k (1 - e) = s.slot k (1 - e) ∧
      t.slot k e = ⟨kmatWords s 0 12, 0, 0⟩ ∧ ∀ i, tabGet (fun _ => 0) t.keys.kmat i = 0) := by
  intro e
  have he : e < 2 := fld_lt _ _
  have ho : 1 - e < 2 := by omega
  have other : 1 - e ≠ e := by omega
  have load := keyLoad_free hu
  generalize (⟨kmatWords s 0 12, 0, 0⟩ : KeySlot) = x at load ⊢
  have step := keyLoaded_step s k x he
  obtain ⟨newer, cur⟩ := keyLoaded_fields s k x he
  have a := loadWrite_ended hk ha quiet hE hL (by rw [hG]; exact load) (hc.trans cur.symm) step (by decide) (by decide)
  refine ⟨_, rfl, a.rctlFrame step, a.status, ?_, (a.rctl_fget hk _).trans newer, (a.rctl_fget hk _).trans cur, ?_, ?_, ?_, fun i => ?_⟩
  · rw [a.rctl_live hk, keyLoaded_live _ _ _ he, if_pos rfl]
  · rw [a.rctl_live hk, keyLoaded_live _ _ _ ho, if_neg other]
  · rw [a.slot, keyLoaded_slot _ _ _ he ho, if_neg other]
  · rw [a.slot, keyLoaded_slot _ _ _ he he, if_pos rfl]
  · rw [a.keys, keyLoaded_kmat]
    rfl

theorem keyErase_completes (hE : fld w.act F.KEY_RCTL_ERASE = 1) (hL : fld w.act F.KEY_RCTL_LOAD = 0)
    (hc : fld w.new F.KEY_RCTL_CUR = s.fget (KEY_RCTL k) F.KEY_RCTL_CUR) :
    completes (.keyErase who k val) s (fun t => RctlFrame s k t ∧ endedWith who (KEY_RCTL k) 0 t ∧
      ∀ i < 2, slotLive t k i = false ∧ t.slot k i = { s.slot k i with mat := 0 }) := by
  have step := keyErase_step s k
  have a := rctlWrite_ended hk ha quiet (a := 0) (u := keyErase s k) (by rw [hL, hE]; rfl) (keyCur_same (hc.trans (keyErase_cur s k).symm)) step rfl (by decide) (by decide)
  refine ⟨_, rfl, a.rctlFrame step, a.status, fun i hi => ?_⟩
  rw [a.rctl_live hk, a.slot]
  exact keyErase_erased s k hi

end

end Sys2Proof.Machine
end

section
/-! PROOF. The re-key sweep's control register and its pages, link keys, and a cipher unit's mismatch (R212, R213, R217, R219). -/

namespace Sys2Proof.Machine

/-! KEY_SWEEPCTL. -/

/-- What the sweep knows of a STOP. -/
def stopNoted (s : State) (stop : Bool) : State := { s with keys := { s.keys with sweepStop := stop } }

section

variable {s : State} {act : Nat} (idx : List Nat) (old new : Nat)

/-- START while a sweep runs (R212). -/
theorem hookSweepCtl_busy (hS : fld act F.KEY_SWEEPCTL_START = 1) (hT : fld act F.KEY_SWEEPCTL_STOP = 0)
    (hb : s.fget KEY_SWEEPCTL F.KEY_SWEEPCTL_BUSY = 1) : hookSweepCtl idx old new act s = (s, C.KEY_E_SWEEP_BUSY) := by
  simp [hookSweepCtl, hS, hT, hb]

/-- START in Basting mode. -/
theorem hookSweepCtl_basting (hS : fld act F.KEY_SWEEPCTL_START = 1) (hT : fld act F.KEY_SWEEPCTL_STOP = 0)
    (hb : s.fget KEY_SWEEPCTL F.KEY_SWEEPCTL_BUSY = 0) (hl : s.devLevel = 3) : hookSweepCtl idx old new act s = (s, C.FLT_E_BASTING) := by
  simp [hookSweepCtl, hS, hT, hb, hl]

/-- START of a sweep that is taken. -/
theorem hookSweepCtl_starts (hS : fld act F.KEY_SWEEPCTL_START = 1) (hT : fld act F.KEY_SWEEPCTL_STOP = 0)
    (hb : s.fget KEY_SWEEPCTL F.KEY_SWEEPCTL_BUSY = 0) (hl : s.devLevel ≠ 3) :
    hookSweepCtl idx old new act s = ((stopNoted s false).fset KEY_SWEEPCTL F.KEY_SWEEPCTL_BUSY 1, 0) := by
  simp [hookSweepCtl, hS, hT, hb, hl, stopNoted]

/-- STOP of the sweep that runs (R213). -/
theorem hookSweepCtl_stops (hS : fld act F.KEY_SWEEPCTL_START = 0) (hT : fld act F.KEY_SWEEPCTL_STOP = 1)
    (hb : s.fget KEY_SWEEPCTL F.KEY_SWEEPCTL_BUSY = 1) : hookSweepCtl idx old new act s = (stopNoted s true, 0) := by
  simp [hookSweepCtl, hS, hT, hb, stopNoted]

end

/-- The write ended with `st`; BUSY is `b`, a STOP is noted as `stop`, and nothing else but records of the access differs. -/
def SweepCtlEnds (who : Who) (s : State) (st b : Nat) (stop : Bool) (t : State) : Prop :=
  endedWith who KEY_SWEEPCTL st t ∧ t.fget KEY_SWEEPCTL F.KEY_SWEEPCTL_BUSY = b ∧
    t = { s with regs := t.regs, out := t.out, keys := { s.keys with sweepStop := stop } } ∧ regsKept (fun off => off = KEY_SWEEPCTL ∨ errorReg off) s t

/-- The hook's state differs in KEY_SWEEPCTL and in what is known of a STOP. -/
theorem sweepCtlWrite_ends {s u : State} {who : Who} {val : Word} {w : CtlWrite} {st b : Nat} {stop : Bool} (ha : admitted who KEY_SWEEPCTL val s w)
    (hook : hookSweepCtl w.hit.idx w.old w.new w.act s = (u, st)) (hb : u.fget KEY_SWEEPCTL F.KEY_SWEEPCTL_BUSY = b)
    (frame : u = { s with regs := u.regs, keys := { s.keys with sweepStop := stop } }) (regs : regsKept (fun off => off = KEY_SWEEPCTL) s u)
    (h1 : st ≠ C.CTL_E_WORLD) (h2 : st ≠ C.CTL_E_NOT_OWNER) : SweepCtlEnds who s st b stop (rowWrite hookSweepCtl who KEY_SWEEPCTL val s) := by
  have e := rowWrite_ended ha hook h1 h2
  refine ⟨e.status, (e.regs.fget (not_errorReg (by decide) (by decide)) _).trans hb, ?_, (regs.mono fun _ => .inl).trans (e.regs.mono fun _ => .inr)⟩
  rw [e.frame, frame]

/-! The sweep's page. -/

theorem mem_of_tabGet {α : Type} {d : Nat → α} {t : Tab α} {k : Nat} {v : α} (h : tabGet d t k = v) (hd : d k ≠ v) : (k, v) ∈ t := by
  induction t with
  | nil => exact absurd h hd
  | cons x r ih =>
    rw [show tabGet d (x :: r) k = if x.1 = k then x.2 else tabGet d r k from rfl] at h
    split at h
    case isTrue e =>
      subst e h
      exact List.mem_cons_self
    case isFalse => exact List.mem_cons_of_mem _ (ih h)

/-- What a scan finds is the entry of its way. -/
theorem dcScan_dcAt {s : State} {base page : Nat} {copy : Bool} {n w v : Nat} {x : DcEntry} (h : dcScan s base page copy n w = some (v, x)) :
    dcAt s (base + v) = some x := by
  induction n generalizing w with
  | zero => cases h
  | succ n ih =>
    rw [dcScan] at h
    cases ha : dcAt s (base + w) with
    | none =>
      rw [ha] at h
      exact ih h
    | some e =>
      rw [ha] at h
      dsimp only at h
      split at h
      case isTrue =>
        cases h
        exact ha
      case isFalse => exact ih h

namespace CacheStep

variable {s t : State} (a : CacheStep s t)
include a

theorem regs : t.regs = s.regs := by rw [a.frame]
theorem keys : t.keys = s.keys := by rw [a.frame]

theorem rg (off : Nat) : t.rg off = s.rg off := congrArg (tabGet regReset · off) a.regs
theorem fget (off : Nat) (f : Fld) : t.fget off f = s.fget off f := congrArg (fun v : Word => fld v.toNat f) (a.rg off)

end CacheStep

/-- Every entry after a way is set is the new one or an old one. -/
theorem mem_dcSetAt {s : State} {k : Nat} {e : Option DcEntry} {y : Nat × Option DcEntry} (h : y ∈ (dcSetAt s k e).tier.dc) : y = (k, e) ∨ y ∈ s.tier.dc :=
  mem_tabSet (d := fun _ => none) h

section

variable {s : State} {page v : Nat} {x : DcEntry} (found : dcFind s page = some (v, x))
include found

theorem dcTouch_eq : dcTouch s page = dcSetAt s.tick (dcBase page + v) (some { x with stamp := s.stamp + 1 }) := by
  rw [dcTouch, dcUpd, show dcFind s.tick page = some (v, x) from found]

/-- A page that is used stays in its way, whose bank served before: nothing waits that did not. -/
theorem nothingWaits_dcTouch (h : nothingWaits s) : nothingWaits (dcTouch s page) := by
  obtain ⟨waiting, arrived, writes, ports, banks⟩ := h
  rw [dcTouch_eq found]
  refine ⟨waiting, arrived, writes, ports, fun y hy hs => ?_⟩
  obtain rfl | old := mem_dcSetAt hy
  · exact banks (_, some x) (mem_of_tabGet (dcScan_dcAt found) (by simp)) rfl
  · exact banks y old hs

/-- A use of a page makes no entry busy, nor the page free. -/
theorem dcAt_dcTouch_busy (k : Nat) : (dcAt (dcTouch s page) k).map DcEntry.busy = (dcAt s k).map DcEntry.busy := by
  rw [dcTouch_eq found, dcAt_dcSetAt]
  split
  case isTrue e => rw [e, dcScan_dcAt found, Option.map_some, Option.map_some]
  case isFalse => rfl

end

/-- A set's busy ways depend on its entries' busy bits alone. -/
theorem dcBusyWays_eq (s : State) (page : Nat) :
    dcBusyWays s page = ((List.range 16).filter fun w => ((dcAt s (dcBase page + w)).map DcEntry.busy).getD false).length := by
  unfold dcBusyWays
  congr 2
  funext w
  cases dcAt s (dcBase page + w) <;> rfl

theorem canBusy_dcTouch {s : State} {page v : Nat} {x : DcEntry} (found : dcFind s page = some (v, x)) : canBusy (dcTouch s page) page = canBusy s page := by
  have busy : busyOf (dcTouch s page) page = busyOf s page := by
    unfold busyOf
    rw [dcTouch_found found, found]
  have ways : dcBusyWays (dcTouch s page) page = dcBusyWays s page := by
    rw [dcBusyWays_eq, dcBusyWays_eq]
    simp only [dcAt_dcTouch_busy found]
  have hurt : dcHurt (dcTouch s page) (pageSlice page) = dcHurt s (pageSlice page) := by
    unfold dcHurt bankOut State.ftest
    simp only [(dcTouch_cacheStep s page).fget]
  rw [canBusy, busy, ways, hurt, canBusy]

theorem descOf_dcTouch {s : State} {page : Nat} {d : Desc} (h : descOf s page = some d) : descOf (dcTouch s page) page = some d := by
  obtain ⟨⟨v, x⟩, found, rfl⟩ := Option.map_eq_some_iff.1 h
  rw [descOf, dcTouch_found found]
  rfl

/-- The region of an address is said by the range registers alone. -/
theorem keyRegion_of_fget {s t : State} (h : ∀ off f, t.fget off f = s.fget off f) (la n i : Nat) : keyRegion t la n i = keyRegion s la n i := by
  induction n generalizing i with
  | zero => rfl
  | succ n ih => simp only [keyRegion, h, ih]

/-- Page `lpn` is the sweep's last: a STOP, its limit, or the end of local memory. -/
def SweepLast (s : State) (lpn : Nat) : Prop := s.keys.sweepStop = true ∨ s.fget KEY_SWEEPLIM F.KEY_SWEEPLIM_LPN ≤ lpn ∨ pagesL s ≤ lpn + 1

theorem pagesL_fset {off : Nat} (h : TIR_EXTENT ≠ off) (s : State) (f : Fld) (v : Nat) : pagesL (s.fset off f v) = pagesL s :=
  congrArg (· * (3 * gib)) (s.fset_fget_off off _ f _ v h)

/-- The sweep's base stands after the page. -/
def sweepMoved (s : State) (lpn : Nat) : State := s.fset KEY_SWEEPBASE F.KEY_SWEEPBASE_LPN (lpn + 1)

/-- What the end of the sweep's page may change: registers of the sweep, and what is known of a STOP. -/
structure SweepStep (s t : State) : Prop where
  frame : t = { s with regs := t.regs, keys := { s.keys with sweepStop := t.keys.sweepStop } }
  regs : regsKept (fun off => off = KEY_SWEEPBASE ∨ off = KEY_SWEEPCTL) s t

namespace SweepStep

variable {s t u : State}

theorem refl (s : State) : SweepStep s s := ⟨rfl, .refl _ s⟩

theorem stopNoted (s : State) (stop : Bool) : SweepStep s (stopNoted s stop) := ⟨rfl, .of_regs rfl⟩

theorem trans (a : SweepStep s t) (b : SweepStep t u) : SweepStep s u := ⟨by rw [b.frame, a.frame], a.regs.trans b.regs⟩

theorem fset (a : SweepStep s t) {off : Nat} (h : off = KEY_SWEEPBASE ∨ off = KEY_SWEEPCTL) (f : Fld) (v : Nat) : SweepStep s (t.fset off f v) :=
  a.trans ⟨rfl, (regsKept.refl _ t).fset h f v⟩

theorem quiet (a : SweepStep s t) (h : nothingWaits s) : nothingWaits t :=
  nothingWaits_of_regsKept h (by rw [a.frame]) (by rw [a.frame]) (by rw [a.frame]) a.regs
    fun i => by unfold SRM_FENCE KEY_SWEEPBASE KEY_SWEEPCTL; omega

theorem dram (a : SweepStep s t) : t.dram = s.dram := by rw [a.frame]
theorem slots (a : SweepStep s t) : t.keys.slots = s.keys.slots := by rw [a.frame]

theorem descOf (a : SweepStep s t) (page : Nat) : descOf t page = descOf s page :=
  have dc : t.tier.dc = s.tier.dc := by rw [a.frame]
  congrArg (Option.map _) (dcFind_of_dc dc page)

end SweepStep

theorem sweepMoved_step (s : State) (lpn : Nat) : SweepStep s (sweepMoved s lpn) := (SweepStep.refl s).fset (.inl rfl) _ _

theorem sweepEnd_step (s : State) (st : Nat) : SweepStep s (sweepEnd s st) := ((SweepStep.stopNoted s false).fset (.inr rfl) _ _).fset (.inr rfl) _ _

theorem sweepEnd_base (s : State) (st : Nat) (f : Fld) : (sweepEnd s st).fget KEY_SWEEPBASE f = s.fget KEY_SWEEPBASE f := by
  rw [sweepEnd, State.fset_fget_off _ _ _ _ _ _ (by decide), State.fset_fget_off _ _ _ _ _ _ (by decide)]
  rfl

theorem sweepEnd_fields (s : State) {st : Nat} (h : st < 2 ^ 16) : (sweepEnd s st).fget KEY_SWEEPCTL F.KEY_SWEEPCTL_BUSY = 0 ∧
    (sweepEnd s st).fget KEY_SWEEPCTL F.KEY_SWEEPCTL_STATUS = st :=
  ⟨(State.fset_fget_apart _ _ _ _ _ (by decide) (by decide)).trans (State.fset_fget_lt _ _ _ _ (by decide) (by decide)),
    State.fset_fget_lt _ _ _ _ (by decide) h⟩

/-- Moving the base makes no page the last. -/
theorem sweepMoved_last {s : State} {lpn : Nat} : SweepLast (sweepMoved s lpn) lpn ↔ SweepLast s lpn := by
  unfold SweepLast sweepMoved
  rw [pagesL_fset (by decide), s.fset_fget_off _ _ _ _ _ (by decide), State.fset_keys]

section

variable {s : State} (h : s.devLevel ≠ 3) {lpn : Nat}
include h

theorem sweepMoved_level : ¬ (sweepMoved s lpn).devLevel = 3 := fun e => h ((s.fset_fget_off _ _ _ _ _ (by decide)).symm.trans e)

/-- After its last page the sweep ends with status 0. -/
theorem sweepAdvance_last (last : SweepLast s lpn) : sweepAdvance s lpn = sweepEnd (sweepMoved s lpn) 0 := by
  unfold sweepAdvance
  exact (if_neg (sweepMoved_level h)).trans (if_pos (sweepMoved_last.2 last))

/-- Before it the sweep goes on. -/
theorem sweepAdvance_more (more : ¬ SweepLast s lpn) : sweepAdvance s lpn = sweepMoved s lpn := by
  unfold sweepAdvance
  exact (if_neg (sweepMoved_level h)).trans (if_neg fun l => more (sweepMoved_last.1 l))

end

/-- The next page of a sweep that runs is hot and under its region's current slot: the sweep goes past it. -/
theorem sweepPage_swept {s : State} {d : Desc} {n : Nat} (hn : s.fget KEY_SWEEPBASE F.KEY_SWEEPBASE_LPN = n)
    (busy : s.fget KEY_SWEEPCTL F.KEY_SWEEPCTL_BUSY = 1) (opens : coreOpen s = true)
    (limit : n ≤ s.fget KEY_SWEEPLIM F.KEY_SWEEPLIM_LPN) (extent : n < pagesL s) (hd : descOf s n = some d) (free : canBusy s n = true) (hot : dHot d = true)
    (region : regionOf s (n * 4096) = dKreg d) (current : s.fget (KEY_RCTL (dKreg d)) F.KEY_RCTL_CUR = dEpoch d) :
    sweepPage s = pump (sweepAdvance (dcTouch s n) n) := by
  obtain ⟨⟨v, x⟩, found, -⟩ := Option.map_eq_some_iff.1 hd
  have touch := dcTouch_cacheStep s n
  have swept : sweptAlready (dcTouch s n) n d = true := by
    rw [sweptAlready, regionOf, keyRegion_of_fget touch.fget, touch.fget, current]
    rw [regionOf] at region
    rw [region, beq_self_eq_true, beq_self_eq_true, Bool.and_true]
  unfold sweepPage
  rw [if_neg (by rw [busy, opens]; decide)]
  dsimp only
  rw [hn, if_neg (by omega), descFill_found found, descOf_dcTouch hd]
  dsimp only
  rw [if_neg (by rw [canBusy_dcTouch found, free]; decide), if_pos hot, sweepHot, if_pos swept]

theorem sweepPage_completes {s : State} {d : Desc} {n : Nat} (hn : s.fget KEY_SWEEPBASE F.KEY_SWEEPBASE_LPN = n)
    (busy : s.fget KEY_SWEEPCTL F.KEY_SWEEPCTL_BUSY = 1) (level : s.devLevel ≠ 3) (opens : coreOpen s = true) (quiet : nothingWaits s)
    (limit : n ≤ s.fget KEY_SWEEPLIM F.KEY_SWEEPLIM_LPN) (extent : n < pagesL s) (hlt : n + 1 < 2 ^ 35) (hd : descOf s n = some d) (free : canBusy s n = true)
    (hot : dHot d = true) (region : regionOf s (n * 4096) = dKreg d) (current : s.fget (KEY_RCTL (dKreg d)) F.KEY_RCTL_CUR = dEpoch d) :
    completes .sweepPage s (fun t => t.fget KEY_SWEEPBASE F.KEY_SWEEPBASE_LPN = n + 1 ∧ descOf t n = some d ∧ t.dram = s.dram ∧ t.keys.slots = s.keys.slots ∧
      (SweepLast s n → t.fget KEY_SWEEPCTL F.KEY_SWEEPCTL_BUSY = 0 ∧ t.fget KEY_SWEEPCTL F.KEY_SWEEPCTL_STATUS = 0) ∧
      (¬ SweepLast s n → t.fget KEY_SWEEPCTL F.KEY_SWEEPCTL_BUSY = 1) ∧ regsKept (fun off => off = KEY_SWEEPBASE ∨ off = KEY_SWEEPCTL) s t) := by
  obtain ⟨⟨v, x⟩, found, -⟩ := Option.map_eq_some_iff.1 hd
  have touch := dcTouch_cacheStep s n
  have level' : (dcTouch s n).devLevel ≠ 3 := by rwa [State.devLevel, touch.fget]
  have same : SweepLast (dcTouch s n) n ↔ SweepLast s n := by
    unfold SweepLast pagesL
    rw [touch.fget, touch.fget, touch.keys]
  have base : (sweepMoved (dcTouch s n) n).fget KEY_SWEEPBASE F.KEY_SWEEPBASE_LPN = n + 1 := State.fset_fget_lt _ _ _ _ (by decide) hlt
  have kept : ∀ {t}, SweepStep (dcTouch s n) t → nothingWaits t ∧ descOf t n = some d ∧ t.dram = s.dram ∧ t.keys.slots = s.keys.slots ∧
      regsKept (fun off => off = KEY_SWEEPBASE ∨ off = KEY_SWEEPCTL) s t := fun {t} a =>
    ⟨a.quiet (nothingWaits_dcTouch found quiet), (a.descOf n).trans (descOf_dcTouch hd), a.dram.trans touch.dram,
      a.slots.trans (congrArg KeyState.slots touch.keys), (regsKept.of_regs touch.regs).trans a.regs⟩
  have run := sweepPage_swept hn busy opens limit extent hd free hot region current
  by_cases last : SweepLast s n
  · rw [sweepAdvance_last level' (same.2 last)] at run
    obtain ⟨still, desc, dram, slots, regs⟩ := kept ((sweepMoved_step _ n).trans (sweepEnd_step _ 0))
    refine completes_next rfl (run.trans (pump_quiet still)) ⟨?_, desc, dram, slots, fun _ => sweepEnd_fields _ (by decide), fun more => absurd last more, regs⟩
    rw [sweepEnd_base, base]
  · rw [sweepAdvance_more level' fun l => last (same.1 l)] at run
    obtain ⟨still, desc, dram, slots, regs⟩ := kept (sweepMoved_step _ n)
    refine completes_next rfl (run.trans (pump_quiet still)) ⟨base, desc, dram, slots, fun l => absurd l last, fun _ => ?_, regs⟩
    rw [sweepMoved, State.fset_fget_off _ _ _ _ _ _ (by decide), touch.fget, busy]

/-! Link keys (R218, R219). -/

/-- What installing a link key may change of the registers. -/
def linkKeyReg (off : Nat) : Prop := off = KEY_LINKCTL ∨ ∃ p, off = PRT_SEAMSTAT p

/-- The slot of the link-key table that a write of KEY_LINKCTL names. -/
def linkKeySlot (new : Nat) : Nat := fld new F.KEY_LINKCTL_PORT * 4 + fld new F.KEY_LINKCTL_DIR * 2 + fld new F.KEY_LINKCTL_SLOT

/-- LOAD puts the key in its slot and clears the staging registers. -/
theorem hookLinkCtl_load {s : State} {act : Nat} (hL : fld act F.KEY_LINKCTL_LOAD = 1) (idx : List Nat) (old new : Nat) :
    ∃ u, hookLinkCtl idx old new act s = (u, 0) ∧ u.dram = s.dram ∧ regsKept linkKeyReg s u ∧
      u.keys = { s.keys with link := tabSet (fun _ => none) s.keys.link (linkKeySlot new) (some (kmatWords s 0 4, kmatWords s 4 1)), kmat := [] } := by
  unfold hookLinkCtl
  simp only [hL, if_true]
  generalize kmatWords s 0 4 = key
  generalize kmatWords s 4 1 = salt
  refine ⟨_, rfl, ?_, ?_, ?_⟩
  · split_ifs <;> rfl
  · have ctl : regsKept linkKeyReg s (s.setRg KEY_LINKCTL (BitVec.ofNat 64 new)) := (regsKept.refl _ s).setRg (.inl rfl) _
    split_ifs
    · exact regsKept.fset (ctl.trans (.of_regs rfl)) (.inr ⟨_, rfl⟩) _ _
    · exact ctl.trans (.of_regs rfl)
    · exact regsKept.fset (ctl.trans (.of_regs rfl)) (.inr ⟨_, rfl⟩) _ _
    · exact ctl.trans (.of_regs rfl)
  · split_ifs <;> rfl

theorem linkKeyLoad_completes {s : State} {who : Who} {val : Word} {w : CtlWrite} (ha : admitted who KEY_LINKCTL val s w)
    (hL : fld w.act F.KEY_LINKCTL_LOAD = 1) :
    completes (.linkKeyLoad who val) s (fun t => endedWith who KEY_LINKCTL 0 t ∧
      tabGet (fun _ => none) t.keys.link (linkKeySlot w.new) = some (kmatWords s 0 4, kmatWords s 4 1) ∧
      (∀ j, j ≠ linkKeySlot w.new → tabGet (fun _ => none) t.keys.link j = tabGet (fun _ => none) s.keys.link j) ∧
      (∀ i, tabGet (fun _ => 0) t.keys.kmat i = 0) ∧ t.keys.slots = s.keys.slots ∧ t.dram = s.dram ∧ regsKept linkKeyReg s t) := by
  obtain ⟨u, hook, dram, regs, keys⟩ := hookLinkCtl_load hL w.hit.idx w.old w.new
  generalize some (kmatWords s 0 4, kmatWords s 4 1) = key at keys ⊢
  refine completes_next rfl (rowWrite_success ha hook) ⟨rfl, ?_, fun j hj => ?_, fun i => ?_, ?_, dram, regs.put _⟩
  · rw [State.put_keys, keys, tabGet_tabSet_same]
  · rw [State.put_keys, keys, tabGet_tabSet_other _ _ _ _ _ hj]
  · rw [State.put_keys, keys]
    rfl
  · rw [State.put_keys, keys]

/-! A cipher unit's mismatch (R217). -/

theorem keyFUnit_completes (s : State) (c : Nat) : completes (.keyFUnit c) s (fun t =>
    t = { s with diag := t.diag, reports := s.reports ++ [{ src := 5 * 128 + c, elem := 0, code := C.KEY_F_UNIT, addr := 0, detail := 0, level := none }] }) :=
  ⟨_, rfl, rfl⟩

end Sys2Proof.Machine

open Sys2Proof Sys2Proof.Machine

/-- Settles O48: each kind of write of the key block's registers, the sweep's page and a cipher unit's mismatch has its lemma above. -/
theorem keySlotsAndSweep : Obligations.KeySlotsAndSweep := by
  unfold Obligations.KeySlotsAndSweep
  refine ⟨fun _ _ _ _ _ hk ha => keyRegionWrite_completes hk ha, fun _ _ _ _ _ hk ha quiet => ⟨fun hE hL hc => ⟨?_, ?_⟩, ?_, ?_⟩,
    fun s who val w ha => ⟨fun hS hT => ⟨fun hb => ?_, fun hb hl => ?_, fun hb hl => ?_⟩, fun hS hT hb => ?_⟩,
    fun s d busy level opens quiet limit extent hlt hd free hot _ _ region current => ?_, fun s who val w ha hL => linkKeyLoad_completes ha hL,
    fun s c _ => keyFUnit_completes s c⟩
  · exact keyLoad_inUse_completes hk ha quiet hE hL hc
  · exact keyLoad_free_completes hk ha quiet hE hL hc
  · exact keyCurWrite_completes hk ha quiet
  · exact keyErase_completes hk ha quiet
  · exact ⟨_, rfl, sweepCtlWrite_ends ha (hookSweepCtl_busy _ _ _ hS hT hb) hb rfl (.refl _ s) (by decide) (by decide)⟩
  · exact ⟨_, rfl, sweepCtlWrite_ends ha (hookSweepCtl_basting _ _ _ hS hT hb hl) hb rfl (.refl _ s) (by decide) (by decide)⟩
  · exact ⟨_, rfl, sweepCtlWrite_ends ha (hookSweepCtl_starts _ _ _ hS hT hb hl) (State.fset_fget_lt _ _ _ _ (by decide) (by decide)) rfl
      ((regsKept.of_regs rfl).trans ((stopNoted s false).fset_regsKept _ _ _)) (by decide) (by decide)⟩
  · exact ⟨_, rfl, sweepCtlWrite_ends ha (hookSweepCtl_stops _ _ _ hS hT hb) hb rfl (.of_regs rfl) (by decide) (by decide)⟩
  · exact sweepPage_completes rfl busy level opens quiet limit extent hlt hd free hot region current
end

section
/-! PROOF. O53 is refuted: the route entry of a node ID past 14 bits would lie on the event counter of window refusals, in which the refusal of a transaction
from above MAXNODE is counted before its answer is routed (R355, R366, R449). -/

namespace Sys2Proof.Machine

/-- The node whose route entry would lie on the counter of window refusals, event 0x54B: past the 14 bits that R350 gives a node ID, and `Msg` does not. -/
def straySource : Nat := (PMC_CNT 0x54B - FAB_ROUTE 0) / 8

/-- A SvcWr of `straySource` for node 100, whose deadline is 8 µs. -/
def strayRequest : Msg :=
  { opc := 0x20, dst := 100, src := straySource, tid := 9, ocls := 2, reissue := false, ttl := 31, status := 0, dl := 8, grant := 0, addr := 0, data := 0 }

/-- `strayRequest` has arrived at port 2 of node 100, the only live port. The counter stands at 0x20007: read as a route entry, MODE 2 over ports 0 to 2. -/
def strayArrival : State :=
  { (((((State.reset.fset (PRT_CFG 2) F.PRT_CFG_MODE 1).fset (PRT_SEAMSTAT 2) F.PRT_SEAMSTAT_STATE 3).fset FAB_NODEID F.FAB_NODEID_NODE 100).fset
      FAB_TIMESTAT F.FAB_TIMESTAT_VALID 1).fset FAB_DFCFG F.FAB_DFCFG_MAXNODE 3).fset (PMC_CNT 0x54B) F.PMC_CNT_COUNT 0x20007 with
    seam := { State.reset.seam with ports := [(2, { SeamPort.init with rxq := [(strayRequest, 4)] })] } }

/-- The refusal goes to port 2 while the counter stands as it does. -/
theorem routePort_strayArrival :
    routePort strayArrival (reqAnswer strayArrival strayRequest (plainCpl strayRequest.opc) C.FAB_E_ACCESS 0 0) 16 = some 2 := by decide +kernel

/-- The refusal is counted first: the counter then reads as a route over port 3 alone, and nothing is put in port 2's queue. -/
theorem txq_transactionArrival_strayArrival : ((transactionArrival 2 4 strayArrival).sp 2).txq = [] := by decide +kernel

end Sys2Proof.Machine

open Sys2Proof Sys2Proof.Machine

/-- Refutes O53: its clause of FAB_E_ACCESS does not ask that the source is a node ID of 14 bits. In `strayArrival` the source's route entry lies on the counter of
window refusals, so that counting the refusal takes port 2 out of the route: the answer waits for a live port, where the clause has it in port 2's queue. -/
theorem not_seamTransactions : ¬ Obligations.SeamTransactions := by
  unfold Obligations.SeamTransactions
  rintro ⟨-, -, -, -, -, arrives, -⟩
  obtain ⟨-, -, refused, -⟩ := arrives strayArrival 2 4 4 strayRequest (by decide +kernel) rfl (by decide +kernel) (by decide) (by decide +kernel) rfl
  have ends := refused 2 (by decide +kernel) (by decide +kernel) (by decide +kernel) ⟨by decide +kernel, routePort_strayArrival⟩
  obtain ⟨⟨queued, -⟩, -⟩ := (completes_iff rfl).1 ends
  rw [txq_transactionArrival_strayArrival] at queued
  exact List.append_ne_nil_of_right_ne_nil _ (List.cons_ne_nil _ _) queued.symm
end

section
/-! PROOF. How an instruction of a Bobbin issues and retires: its slots, the program state after it, and what it leaves alone (R252, R253, R260, R266, R452). -/

namespace Sys2Proof.Machine

/-! Slot counters (R452). -/

theorem State.bump_regsOnly (s : State) (e : Nat) : RegsOnly s (s.bump e) := by
  obtain ⟨r, h⟩ := s.bump_frame e
  rw [h]
  rfl

/-- The slot counters ignore level mode. -/
theorem State.ev_slot (s : State) {e : Nat} (h : e / 256 = 4) : s.ev e = s.bump e := by
  have free : ¬ (s.ftest (PMC_MODE (e / 64)) F.PMC_MODE_LEVEL (e % 64) = true ∧ e / 256 ≠ 4) := fun level => level.2 h
  rw [State.ev, if_pos (by omega), if_neg free]

theorem evSlots_regsOnly {b k : Nat} (hb : b < 64) (hk : k < 4) (n : Nat) (s : State) : RegsOnly s (evSlots b k n s) :=
  RegsOnly.foldl _ (fun t _ => by rw [t.ev_slot (by omega)]; exact t.bump_regsOnly _) _ s

/-- Retired and wasted slots have a counter each. -/
theorem evSlots_regsKept {b k : Nat} (hk : k < 2) (n : Nat) (s : State) : regsKept (slotReg b) s (evSlots b k n s) := by
  intro off h
  have at' : slotReg b (PMC_CNT (0x400 + 4 * b + k)) := by
    obtain rfl | rfl : k = 0 ∨ k = 1 := by omega
    · exact .inl rfl
    · exact .inr (.inl (by unfold PMC_CNT; omega))
  exact evSlots_rg_other b k n off s (fun e => h (e ▸ at')) fun e => h (.inr (.inr e))

/-- The Bobbin's slot counters are event counters. -/
theorem counterReg_of_slotReg {b off : Nat} (hb : b < 64) (h : slotReg b off) : counterReg off = true := by
  rw [counterReg_iff]
  obtain rfl | rfl | rfl := h
  · exact .inl (by unfold PMC_CNT; omega)
  · exact .inl (by unfold PMC_CNT; omega)
  · exact .inr rfl

/-! Registers of the program. -/

/-- Writing a general register: g0 takes nothing. -/
theorem Bob.gr_setG (x : Bob) (r : Nat) (v : Word) (k : Nat) : (x.setG r v).gr k = if k = r ∧ k ≠ 0 then v else x.gr k := by
  unfold Bob.setG Bob.gr
  by_cases hr : r = 0
  · subst hr
    rw [if_pos rfl, if_neg (c := k = 0 ∧ k ≠ 0) fun h => h.2 h.1]
  · by_cases hk : k = 0
    · subst hk
      simp
    · simp [hr, hk, tabGet_tabSet]

theorem Bob.setG_frame (x : Bob) (r : Nat) (v : Word) : x.setG r v = { x with g := (x.setG r v).g } := by
  unfold Bob.setG
  split <;> rfl

@[simp] theorem Bob.setG_pc (x : Bob) (r : Nat) (v : Word) : (x.setG r v).pc = x.pc := by rw [x.setG_frame]
@[simp] theorem Bob.setG_words (x : Bob) (r : Nat) (v : Word) : (x.setG r v).words = x.words := by rw [x.setG_frame]

/-- A bit set in a number of bits. -/
theorem bit_withBit (x i : Nat) (p : Bool) (k : Nat) : bit (withBit x i p) k = if k = i then p else bit x k := by
  unfold withBit
  rw [bit_eq_getBits, bit_eq_getBits]
  obtain hk | hk | rfl : k < i ∨ i < k ∨ k = i := by omega
  · rw [getBits_putBits_below _ _ _ _ _ _ (by omega), if_neg (by omega)]
  · rw [getBits_putBits_above _ _ _ _ _ _ (by omega), if_neg (by omega)]
  · rw [getBits_putBits_same, if_pos rfl]
    cases p <;> rfl

theorem Bob.vr_setV (x : Bob) (r : Nat) (v : Line) (p : Bool) (k : Nat) : (x.setV r v p).vr k = if k = r then v else x.vr k := tabGet_tabSet ..
theorem Bob.vpois_setV (x : Bob) (r : Nat) (v : Line) (p : Bool) (k : Nat) : (x.setV r v p).vpois k = if k = r then p else x.vpois k := bit_withBit ..

/-! Issue (R252, R266). -/

/-- The program state with the index of the issued instruction noted. -/
def Bob.issued (x : Bob) : Bob := { x with last := x.pc }

@[simp] theorem Bob.issued_pc (x : Bob) : x.issued.pc = x.pc := rfl
@[simp] theorem Bob.issued_words (x : Bob) : x.issued.words = x.words := rfl
@[simp] theorem Bob.setV_pc (x : Bob) (r : Nat) (v : Line) (p : Bool) : (x.setV r v p).pc = x.pc := rfl
@[simp] theorem Bob.setV_words (x : Bob) (r : Nat) (v : Line) (p : Bool) : (x.setV r v p).words = x.words := rfl

/-- The state in which an issued instruction has its effect. -/
def State.issued (s : State) (b : Nat) : State := s.setBob b (s.bob b).issued

@[simp] theorem State.issued_bob (s : State) (b c : Nat) : (s.issued b).bob c = if c = b then (s.bob b).issued else s.bob c := s.setBob_bob ..

theorem vfree_none {x : Bob} (h : x.loads = []) (vs : List Nat) : vfree x vs = true := by simp [vfree, h]

theorem canIssue_ready {s : State} {b w : Nat} {vs : List Nat} (h : bobReady s b w) (hv : vfree (s.bob b) vs = true) : canIssue s b (some w) vs = true := by
  obtain ⟨-, core, run, idle, -, -, word, inside, -⟩ := h
  have before : (s.bob b).pc < (s.bob b).words := by omega
  simp [canIssue, core, run, idle, word, hv, before]

theorem issue_eq {s : State} {b : Nat} {w : Option Nat} {vs : List Nat} (h : canIssue s b w vs = true) (f : Bob → State → State) :
    issue b w vs f s = f (s.bob b).issued (s.issued b) := if_pos h

/-- A command that issues an instruction completes where the instruction's effect is as claimed. -/
theorem completes_issue {c : Instr} {s : State} {b w : Nat} {e : Option Nat} {vs : List Nat} {f : Bob → State → State} {P : State → Prop} (h : bobReady s b w)
    (run : exec c s = .next (issue b e vs f s)) (word : e = some w) (free : vfree (s.bob b) vs = true) (effect : P (f (s.bob b).issued (s.issued b))) :
    completes c s P :=
  completes_next run (issue_eq (word ▸ canIssue_ready h free) f) effect

theorem wordA_eq {rd rs1 rs2 func : Nat} (op : Nat) (h1 : rd < 32) (h2 : rs1 < 32) (h3 : rs2 < 32) (h4 : func < 2048) :
    wordA op rd rs1 rs2 func = some (op * 2 ^ 26 + rd * 2 ^ 21 + rs1 * 2 ^ 16 + rs2 * 2 ^ 11 + func) := if_pos ⟨h1, h2, h3, h4⟩

theorem wordB_eq {rd rs1 imm : Nat} (op : Nat) (h1 : rd < 32) (h2 : rs1 < 32) (h3 : imm < 65536) :
    wordB op rd rs1 imm = some (op * 2 ^ 26 + rd * 2 ^ 21 + rs1 * 2 ^ 16 + imm) := if_pos ⟨h1, h2, h3⟩

theorem wordC_eq {rt rb fn imm : Nat} (op : Nat) (h1 : rt < 32) (h2 : rb < 32) (h3 : fn < 8) (h4 : imm < 8192) :
    wordC op rt rb fn imm = some (op * 2 ^ 26 + rt * 2 ^ 21 + rb * 2 ^ 16 + fn * 2 ^ 13 + imm) := if_pos ⟨h1, h2, h3, h4⟩

/-! Retirement (R252, R260, R452). -/

section
variable {s u : State} {b : Nat} {x y : Bob}

theorem retire_bob (inside : x.pc + 1 < x.words) : (retire b x u).bob b = { x with pc := x.pc + 1, waits := false } := by
  rw [retire_next b x u inside, State.setBob_bob, if_pos rfl]

/-- The Bobbin that retires an instruction inside the text has the state it gives, with the PC on the next one. -/
theorem retire_nextAt (others : othersKept b s u) (inside : x.pc + 1 < x.words)
    (after : { x with pc := x.pc + 1, waits := false } = { y with pc := (s.bob b).pc + 1, last := (s.bob b).pc, waits := false }) : nextAt b y s (retire b x u) := by
  refine ⟨(retire_bob inside).trans after, fun c hc => ?_⟩
  rw [retire_next b x u inside, State.setBob_bob, if_neg hc, evSlots_bob, others c hc]

/-- Beside its Bobbin's state it changes the count of its slots. -/
theorem retire_frame (hb : b < 64) (inside : x.pc + 1 < x.words) :
    retire b x u = { u with bobs := (retire b x u).bobs, regs := (retire b x u).regs } ∧ regsKept (slotReg b) u (retire b x u) := by
  rw [retire_next b x u inside]
  have counted := evSlots_regsOnly hb (show 0 < 4 by decide) (slotsOf (u.bob b)) u
  refine ⟨?_, evSlots_regsKept (by decide) _ u⟩
  unfold State.setBob
  rw [counted]

theorem setBob_othersKept (s : State) (b : Nat) (x : Bob) : othersKept b s (s.setBob b x) := fun c hc => by rw [State.setBob_bob, if_neg hc]

/-- An instruction that has changed nothing but its program's state retires. -/
theorem retire_retired (hb : b < 64) (inside : x.pc + 1 < x.words)
    (after : { x with pc := x.pc + 1, waits := false } = { y with pc := (s.bob b).pc + 1, last := (s.bob b).pc, waits := false }) (z : Bob) :
    retired b y s (retire b x (s.setBob b z)) := by
  obtain ⟨frame, regs⟩ := retire_frame (u := s.setBob b z) hb inside
  exact ⟨retire_nextAt (setBob_othersKept s b z) inside after, frame, regs⟩

end

section
variable {s : State} {b w : Nat}

/-- An instruction whose only effect is a value in a general register. -/
theorem wroteG_retire (h : bobReady s b w) (rd : Nat) (v : Word) : wroteG b rd v s (retire b ((s.bob b).issued.setG rd v) (s.issued b)) := by
  obtain ⟨hb, -, -, -, -, -, -, inside, -⟩ := h
  have inside' : ((s.bob b).issued.setG rd v).pc + 1 < ((s.bob b).issued.setG rd v).words := by simpa using inside
  have ends := retire_bob (b := b) (u := s.issued b) inside'
  refine ⟨fun r => ?_, retire_retired hb inside' ?_ _⟩
  · rw [ends]
    exact (s.bob b).issued.gr_setG rd v r
  · rw [ends, Bob.setG_pc, Bob.setG_frame]
    rfl

/-- An instruction whose only effect is a line, with its poison flag, in a line register. -/
theorem wroteV_retire (h : bobReady s b w) (rd : Nat) (v : Line) (p : Bool) : wroteV b rd v p s (retire b ((s.bob b).issued.setV rd v p) (s.issued b)) := by
  obtain ⟨hb, -, -, -, -, -, -, inside, -⟩ := h
  have inside' : ((s.bob b).issued.setV rd v p).pc + 1 < ((s.bob b).issued.setV rd v p).words := by simpa using inside
  have ends := retire_bob (b := b) (u := s.issued b) inside'
  refine ⟨fun r => ?_, retire_retired hb inside' ?_ _⟩
  · rw [ends]
    exact ⟨(s.bob b).issued.vr_setV rd v p r, (s.bob b).issued.vpois_setV rd v p r⟩
  · rw [ends]
    rfl

/-- An instruction that only goes on. -/
theorem retired_retire (h : bobReady s b w) : retired b (s.bob b) s (retire b (s.bob b).issued (s.issued b)) := by
  obtain ⟨hb, -, -, -, -, -, -, inside, -⟩ := h
  exact retire_retired hb (x := (s.bob b).issued) (by simpa using inside) rfl _

end
end Sys2Proof.Machine
end

section
/-! PROOF. How a program of a Bobbin ends: the fault that is recorded, the slot that is claimed, and what is left alone (R256, R286, R287, R311). -/

namespace Sys2Proof.Machine

/-! Claims (R311). -/

theorem cmdUpd_frame (s : State) (q n : Nat) (f : Cmd → Cmd) : cmdUpd s q n f = { s with spools := (cmdUpd s q n f).spools } := rfl

theorem cmdUpd_spool (s : State) (q n : Nat) (f : Cmd → Cmd) (k : Nat) : (cmdUpd s q n f).spool k =
    if k = q then { s.spool q with cmds := (s.spool q).cmds.map (fun c => if c.n = n then f c else c) } else s.spool k := s.setSpool_spool ..

/-- A claim is the first of its command, or changes nothing. -/
theorem claimSlot_spool (s : State) (q n st res k : Nat) : (claimSlot s q n st res).spool k =
    if k = q then { s.spool q with cmds := (s.spool q).cmds.map (fun c => if c.n = n ∧ c.claim = none then { c with claim := some (st, res) } else c) } else s.spool k := by
  have first : ∀ c : Cmd, (if c.n = n then (if c.claim.isNone then { c with claim := some (st, res) } else c) else c) =
      if c.n = n ∧ c.claim = none then { c with claim := some (st, res) } else c := by
    intro c
    by_cases h1 : c.n = n <;> by_cases h2 : c.claim = none <;> simp [h1, h2]
  rw [claimSlot, cmdUpd_spool]
  simp only [first]

/-! Nothing of the Bobbin's waits (R74, R182, R280). -/

/-- Where no instruction of the Bobbin waits, giving up changes nothing. -/
theorem giveUp_quiet {s : State} {b : Nat} (disc : (s.bob b).disc = none) (free : noLaneWork s b) : giveUp b s = s := by
  obtain ⟨lanes, places⟩ := free
  have drop : ∀ cls, laneDrop s cls (bobWork b) = s := by
    intro cls
    have keep : s.tier.pleat.filter (fun w => !(w.la == bobWork b && w.cls == cls)) = s.tier.pleat :=
      List.filter_eq_self.2 fun w hw => by simp [lanes w hw]
    rw [laneDrop, keep]
  have place : hasPlace s b = false := by
    rw [hasPlace, List.any_eq_false]
    intro r hr
    simpa using places r hr
  simp [giveUp, disc, drop, place]

/-! The record of a fault (R287). -/

theorem bobClass_lt (s : State) (b : Nat) : bobClass s b < 8 := Nat.mod_lt _ (by decide)

theorem evSPL_frame (c k : Nat) (s : State) : ∃ r l, evSPL c k s = { s with regs := r, levelNs := l } := s.ev_frame _

theorem evSPL_regsKept {c k : Nat} (hc : c < 8) (hk : k < 8) (s : State) : regsKept (fun off => counterReg off = true) s (evSPL c k s) :=
  s.ev_regsKept _ (by omega)

/-- After an operation on registers, an event leaves all but registers and the marks of level mode. -/
theorem RegsOnly.counted {s u t : State} (a : RegsOnly s u) (h : ∃ r l, t = { u with regs := r, levelNs := l }) :
    t = { s with regs := t.regs, levelNs := t.levelNs } := by
  obtain ⟨r, l, rfl⟩ := h
  obtain ⟨r', rfl⟩ : ∃ r', u = { s with regs := r' } := ⟨_, a⟩
  rfl

/-- The registers of a Bobbin are no event counters. -/
theorem not_counterReg_of_lt {off : Nat} (h : off < 0xA00000) : ¬ counterReg off = true := by
  rw [counterReg_iff, PMC_STAT]
  omega

/-- BOB_PROGFLT with the fault's status, index and Spool. -/
def faultNamed (b st idx : Nat) (s : State) : State :=
  ((s.fset (BOB_PROGFLT b) F.BOB_PROGFLT_STATUS st).fset (BOB_PROGFLT b) F.BOB_PROGFLT_INDEX idx).fset (BOB_PROGFLT b) F.BOB_PROGFLT_SPOOL (s.bob b).q

/-- The fault counted and shown in BOB_PROGFLT. -/
def faultShown (b st idx : Nat) (s : State) : State :=
  ((faultNamed b st idx s).fsat (BOB_PROGFLT b) F.BOB_PROGFLT_COUNT 1).fset (BOB_PROGFLT b) F.BOB_PROGFLT_VALID 1

/-- The fault shown, and its event. -/
def faultRecorded (b st idx : Nat) (s : State) : State := evSPL (bobClass s b) 7 (faultShown b st idx s)

theorem progFault_eq (b st idx : Nat) (s : State) : progFault b st idx s =
    (if (s.bob b).posted then faultRecorded b st idx s else claimSlot (faultRecorded b st idx s) (s.bob b).q (s.bob b).n st (idx % 8192)).setBob b
      { s.bob b with run := 2 } := rfl

theorem faultShown_regsKept (b st idx : Nat) (s : State) : regsKept (fun off => off = BOB_PROGFLT b) s (faultShown b st idx s) :=
  (((((regsKept.refl (fun off => off = BOB_PROGFLT b) s).fset rfl _ _).fset rfl _ _).fset rfl _ _).fset rfl _ _).fset rfl _ _

theorem faultShown_regsOnly (b st idx : Nat) (s : State) : RegsOnly s (faultShown b st idx s) :=
  (((((RegsOnly.refl s).fset _ _ _).fset _ _ _).fset _ _ _).fset _ _ _).fset _ _ _

/-- A field of BOB_PROGFLT below VALID and COUNT stays as named. -/
theorem faultShown_low {f : Fld} (h : f.lo + f.w ≤ 48) (b st idx : Nat) (s : State) :
    (faultShown b st idx s).fget (BOB_PROGFLT b) f = (faultNamed b st idx s).fget (BOB_PROGFLT b) f := by
  unfold faultShown State.fsat
  rw [State.fset_fget_apart _ _ _ _ _ (by decide) (.inl (by show f.lo + f.w ≤ 63; omega)), State.fset_fget_apart _ _ _ _ _ (by decide) (.inl h)]

theorem faultShown_fields {st idx : Nat} (hst : st < 2 ^ 16) (hi : idx < 8192) (b : Nat) (s : State) :
    (faultShown b st idx s).fget (BOB_PROGFLT b) F.BOB_PROGFLT_STATUS = st ∧ (faultShown b st idx s).fget (BOB_PROGFLT b) F.BOB_PROGFLT_INDEX = idx ∧
    (faultShown b st idx s).fget (BOB_PROGFLT b) F.BOB_PROGFLT_VALID = 1 ∧
    (faultShown b st idx s).fget (BOB_PROGFLT b) F.BOB_PROGFLT_SPOOL = (s.bob b).q % 1024 := by
  refine ⟨?_, ?_, State.fset_fget_lt _ _ _ _ (by decide) (by decide), ?_⟩
  · rw [faultShown_low (by decide), faultNamed, State.fset_fget_apart _ _ _ _ _ (by decide) (by decide),
      State.fset_fget_apart _ _ _ _ _ (by decide) (by decide), State.fset_fget_lt _ _ _ _ (by decide) hst]
  · rw [faultShown_low (by decide), faultNamed, State.fset_fget_apart _ _ _ _ _ (by decide) (by decide), State.fset_fget_lt _ _ _ _ (by decide) hi]
  · rw [faultShown_low (by decide), faultNamed, State.fset_fget_same _ _ _ _ (by decide)]
    rfl

theorem BOB_PROGFLT_lt {b : Nat} (hb : b < 64) : BOB_PROGFLT b < 0xA00000 := by unfold BOB_PROGFLT; omega

/-- The recorded fault: BOB_PROGFLT names it, and nothing else has changed but event counters. -/
theorem faultRecorded_spec {b st idx : Nat} (hb : b < 64) (hst : st < 2 ^ 16) (hi : idx < 8192) (s : State) :
    let t := faultRecorded b st idx s
    t.fget (BOB_PROGFLT b) F.BOB_PROGFLT_STATUS = st ∧ t.fget (BOB_PROGFLT b) F.BOB_PROGFLT_INDEX = idx ∧
      t.fget (BOB_PROGFLT b) F.BOB_PROGFLT_VALID = 1 ∧ t.fget (BOB_PROGFLT b) F.BOB_PROGFLT_SPOOL = (s.bob b).q % 1024 ∧
      t = { s with regs := t.regs, levelNs := t.levelNs } ∧ regsKept (fun off => off = BOB_PROGFLT b ∨ counterReg off = true) s t := by
  intro t
  have counted : regsKept (fun off => counterReg off = true) (faultShown b st idx s) t := evSPL_regsKept (bobClass_lt s b) (by decide) _
  have shown : ∀ f, t.fget (BOB_PROGFLT b) f = (faultShown b st idx s).fget (BOB_PROGFLT b) f := counted.fget (not_counterReg_of_lt (BOB_PROGFLT_lt hb))
  obtain ⟨status, index, valid, spool⟩ := faultShown_fields hst hi b s
  refine ⟨(shown _).trans status, (shown _).trans index, (shown _).trans valid, (shown _).trans spool, ?_, ?_⟩
  · exact (faultShown_regsOnly b st idx s).counted (evSPL_frame _ _ _)
  · exact ((faultShown_regsKept b st idx s).mono fun _ => .inl).trans (counted.mono fun _ => .inr)

/-! The end of a program on a fault (R287). -/

theorem progFault_regs (b st idx : Nat) (s : State) : (progFault b st idx s).regs = (faultRecorded b st idx s).regs := by
  rw [progFault_eq]
  split <;> rfl

theorem progFault_bob (b st idx : Nat) (s : State) (c : Nat) : (progFault b st idx s).bob c =
    if c = b then { s.bob b with run := 2 } else (faultRecorded b st idx s).bob c := by
  rw [progFault_eq, State.setBob_bob, apply_ite (fun t : State => t.bob c)]
  exact if_congr Iff.rfl rfl (ite_self _)

/-- One that has posted has no slot to claim. -/
theorem progFault_spools_posted {b : Nat} {s : State} (h : (s.bob b).posted = true) (st idx : Nat) :
    (progFault b st idx s).spools = (faultRecorded b st idx s).spools := by
  rw [progFault_eq, if_pos h]
  rfl

theorem progFault_spool_claimed {b : Nat} {s : State} (h : (s.bob b).posted = false) (st idx k : Nat) :
    (progFault b st idx s).spool k = (claimSlot (faultRecorded b st idx s) (s.bob b).q (s.bob b).n st (idx % 8192)).spool k := by
  rw [progFault_eq, if_neg (by simp [h])]
  rfl

theorem progFault_frame (b st idx : Nat) (s : State) : progFault b st idx s =
    { faultRecorded b st idx s with bobs := (progFault b st idx s).bobs, spools := (progFault b st idx s).spools } := by
  rw [progFault_eq]
  split <;> rfl

/-- A program ends on a fault: recorded, its claim made, and its drain begun. -/
theorem progFault_programEnds {b st idx : Nat} (hb : b < 64) (hst : st < 2 ^ 16) (hi : idx < 8192) (s : State) :
    programEnds b st idx (s.bob b) s (progFault b st idx s) := by
  obtain ⟨status, index, valid, spool, frame, regs⟩ := faultRecorded_spec hb hst hi s
  have spools : ∀ q, (faultRecorded b st idx s).spool q = s.spool q := fun q => by rw [frame]; rfl
  have bobs : ∀ c, (faultRecorded b st idx s).bob c = s.bob c := fun c => by rw [frame]; rfl
  have recorded : regsKept (fun _ => False) (faultRecorded b st idx s) (progFault b st idx s) := .of_regs (progFault_regs b st idx s)
  have field : ∀ f, (progFault b st idx s).fget (BOB_PROGFLT b) f = (faultRecorded b st idx s).fget (BOB_PROGFLT b) f := recorded.fget id
  refine ⟨(field _).trans status, (field _).trans index, (field _).trans valid, (field _).trans spool, (progFault_bob ..).trans (if_pos rfl),
    fun c hc => (progFault_bob ..).trans ((if_neg hc).trans (bobs c)), fun h => ?_, fun h => ⟨fun q hq => ?_, ?_⟩, ?_, regs.trans (recorded.mono fun _ => False.elim)⟩
  · rw [progFault_spools_posted h, frame]
  · rw [progFault_spool_claimed h, claimSlot_spool, if_neg hq, spools]
  · rw [progFault_spool_claimed h, claimSlot_spool, if_pos rfl, spools, Nat.mod_eq_of_lt hi]
  · rw [progFault_frame, frame]

/-- The end of a program is told of the state from which the instruction was issued: the Bobbin's other state and its slot counters may have changed since. -/
theorem programEnds.of_slots {b st idx : Nat} {s u t : State} (a : programEnds b st idx (u.bob b) u t) (same : u = { s with bobs := u.bobs, regs := u.regs })
    (regs : regsKept (fun off => off = BOB_PROGFLT b ∨ counterReg off = true) s u) (others : othersKept b s u)
    (who : (u.bob b).q = (s.bob b).q ∧ (u.bob b).n = (s.bob b).n ∧ (u.bob b).posted = (s.bob b).posted) : programEnds b st idx (u.bob b) s t := by
  obtain ⟨status, index, valid, spool, bob, rest, posted, claimed, frame, kept⟩ := a
  obtain ⟨hq, hn, hp⟩ := who
  have spools : ∀ q, u.spool q = s.spool q := fun q => by rw [same]; rfl
  refine ⟨status, index, valid, hq ▸ spool, bob, fun c hc => (rest c hc).trans (others c hc), fun h => (posted (hp.trans h)).trans (by rw [same]), fun h => ?_,
    frame.trans (by rw [same]), regs.trans kept⟩
  obtain ⟨elsewhere, here⟩ := claimed (hp.trans h)
  rw [hq, hn, spools] at here
  exact ⟨fun q hqn => (elsewhere q (hq ▸ hqn)).trans (spools q), here⟩

section
variable {s u : State} {b st : Nat}

/-- A fault of a Bobbin of which nothing waits, since an instruction of it issued. -/
theorem bobFaultAt_programEnds {idx : Nat} (hb : b < 64) (hst : st < 2 ^ 16) (hi : idx < 8192) (same : u = { s with bobs := u.bobs, regs := u.regs })
    (regs : regsKept (slotReg b) s u) (others : othersKept b s u)
    (who : (u.bob b).q = (s.bob b).q ∧ (u.bob b).n = (s.bob b).n ∧ (u.bob b).posted = (s.bob b).posted) (disc : (u.bob b).disc = none) (free : noLaneWork s b) :
    programEnds b st idx (u.bob b) s (bobFaultAt b st idx u) := by
  have quiet : giveUp b u = u := giveUp_quiet disc (by rw [same]; exact free)
  rw [bobFaultAt, quiet]
  exact (progFault_programEnds hb hst hi u).of_slots same (regs.mono fun off hs => .inr (counterReg_of_slotReg hb hs)) others who

/-- A fault of the instruction that has issued: its slots are wasted. -/
theorem bobFault_programEnds (hb : b < 64) (hst : st < 2 ^ 16) (hi : (u.bob b).last < 8192) (same : u = { s with bobs := u.bobs }) (others : othersKept b s u)
    (who : (u.bob b).q = (s.bob b).q ∧ (u.bob b).n = (s.bob b).n ∧ (u.bob b).posted = (s.bob b).posted) (disc : (u.bob b).disc = none) (free : noLaneWork s b) :
    programEnds b st (u.bob b).last (u.bob b) s (bobFault b st u) := by
  have counted := evSlots_regsOnly hb (show 1 < 4 by decide) (slotsOf (u.bob b)) u
  have wasted := evSlots_regsKept (b := b) (show 1 < 2 by decide) (slotsOf (u.bob b)) u
  have own := evSlots_bob b 1 (slotsOf (u.bob b)) b u
  have kept : regsKept (slotReg b) s u := .of_regs (by rw [same])
  have ends := bobFaultAt_programEnds (u := evSlots b 1 (slotsOf (u.bob b)) u) hb hst hi (by rw [counted, same]) (kept.trans wasted)
    (fun c hc => by rw [evSlots_bob, others c hc]) (by rwa [own]) (by rwa [own]) free
  rwa [own] at ends

end

/-- A fault of an instruction that has issued and changed nothing. -/
theorem bobFault_faultsWith {s u : State} {b w st : Nat} (h : bobReady s b w) (hst : st < 2 ^ 16) (same : u = { s with bobs := u.bobs }) (others : othersKept b s u)
    (own : u.bob b = (s.bob b).issued) : faultsWith b st s (bobFault b st u) := by
  obtain ⟨hb, -, -, -, disc, free, -, inside, small⟩ := h
  have ends := bobFault_programEnds (st := st) hb hst (by rw [own]; show (s.bob b).pc < 8192; omega) same others (by rw [own]; exact ⟨rfl, rfl, rfl⟩)
    (by rw [own]; exact disc) free
  rw [own] at ends
  exact ends

theorem issued_faultsWith {s : State} {b w st : Nat} (h : bobReady s b w) (hst : st < 2 ^ 16) : faultsWith b st s (bobFault b st (s.issued b)) :=
  bobFault_faultsWith h hst rfl (setBob_othersKept s b _) (by rw [State.issued_bob, if_pos rfl])

end Sys2Proof.Machine
end

section
/-! PROOF. The integer, immediate and RDSYS instructions, O38: each result as its table gives it (R257, R258, R259). -/

namespace Sys2Proof.Machine

/-! Results of the integer instructions (R257). -/

theorem shiftLeft_eq (x : Word) (n : Nat) : x <<< n = BitVec.ofNat 64 (x.toNat * 2 ^ n) := by
  rw [← BitVec.toNat_inj, BitVec.toNat_shiftLeft, BitVec.toNat_ofNat, Nat.shiftLeft_eq]

theorem ushiftRight_eq (x : Word) (n : Nat) : x >>> n = BitVec.ofNat 64 (x.toNat / 2 ^ n) := by
  have small : x.toNat / 2 ^ n < 2 ^ 64 := (Nat.div_le_self _ _).trans_lt x.isLt
  rw [← BitVec.toNat_inj, BitVec.toNat_ushiftRight, BitVec.toNat_ofNat, Nat.shiftRight_eq_div_pow, Nat.mod_eq_of_lt small]

theorem sshiftRight_eq (x : Word) (n : Nat) : x.sshiftRight n = BitVec.ofInt 64 (x.toInt / 2 ^ n) := by
  rw [BitVec.sshiftRight, Int.shiftRight_eq_div_pow]
  norm_cast

theorem rotateRight_eq (x : Word) {n : Nat} (h : n < 64) : x.rotateRight n = x >>> n ||| x <<< (64 - n) := by
  rw [BitVec.rotateRight_def, Nat.mod_eq_of_lt h]

theorem divu_eq (x y : Word) : divu x y = if y = 0 then BitVec.allOnes 64 else BitVec.ofNat 64 (x.toNat / y.toNat) := by
  have small : x.toNat / y.toNat < 2 ^ 64 := (Nat.div_le_self _ _).trans_lt x.isLt
  have value : x / y = BitVec.ofNat 64 (x.toNat / y.toNat) := by
    rw [← BitVec.toNat_inj, BitVec.toNat_udiv, BitVec.toNat_ofNat, Nat.mod_eq_of_lt small]
  rw [divu, value]

theorem remu_eq (x y : Word) : remu x y = if y = 0 then x else BitVec.ofNat 64 (x.toNat % y.toNat) := by
  have small : x.toNat % y.toNat < 2 ^ 64 := (Nat.mod_le _ _).trans_lt x.isLt
  have value : x % y = BitVec.ofNat 64 (x.toNat % y.toNat) := by
    rw [← BitVec.toNat_inj, BitVec.toNat_umod, BitVec.toNat_ofNat, Nat.mod_eq_of_lt small]
  rw [remu, value]

/-- The quotient that no word holds is the dividend again. -/
theorem divs_overflow : divs (BitVec.intMin 64) (BitVec.allOnes 64) = BitVec.intMin 64 := by decide
theorem rems_overflow : rems (BitVec.intMin 64) (BitVec.allOnes 64) = 0 := by decide

/-- Leading zeros of an `n`-bit value: the value is below the power that they leave, and not below the next. -/
theorem clzN_spec {v n : Nat} (h : v < 2 ^ n) : clzN v n ≤ n ∧ v < 2 ^ (n - clzN v n) ∧ (clzN v n < n → 2 ^ (n - 1 - clzN v n) ≤ v) := by
  induction n with
  | zero => exact ⟨Nat.le_refl 0, h, fun hlt => absurd hlt (Nat.not_lt_zero _)⟩
  | succ n ih =>
    rw [clzN]
    split
    · next set =>
      have top : 2 ^ n ≤ v := by
        rw [bit_eq_testBit] at set
        exact Nat.ge_two_pow_of_testBit set
      exact ⟨Nat.zero_le _, h, fun _ => top⟩
    · next clear =>
      have below : v < 2 ^ n := by
        rw [bit_eq_testBit, Bool.not_eq_true] at clear
        refine Nat.lt_pow_two_of_testBit v fun i hi => ?_
        obtain rfl | hi := Nat.eq_or_lt_of_le hi
        · exact clear
        · exact Nat.testBit_lt_two_pow (h.trans_le (Nat.pow_le_pow_right (by decide) hi))
      obtain ⟨most, upper, lower⟩ := ih below
      refine ⟨by omega, by rwa [show n + 1 - (1 + clzN v n) = n - clzN v n by omega], fun hlt => ?_⟩
      rw [show n + 1 - 1 - (1 + clzN v n) = n - 1 - clzN v n by omega]
      exact lower (by omega)

/-- Trailing zeros among `n` bits from bit `i`: the bits passed are clear, and the next is set. -/
theorem ctzN_spec (v n i : Nat) : ctzN v n i ≤ n ∧ (∀ j < ctzN v n i, v.testBit (i + j) = false) ∧ (ctzN v n i < n → v.testBit (i + ctzN v n i) = true) := by
  induction n generalizing i with
  | zero => exact ⟨Nat.le_refl 0, fun j hj => absurd hj (Nat.not_lt_zero _), fun hlt => absurd hlt (Nat.not_lt_zero _)⟩
  | succ n ih =>
    rw [ctzN]
    split
    · next set =>
      rw [bit_eq_testBit] at set
      exact ⟨Nat.zero_le _, fun j hj => absurd hj (Nat.not_lt_zero _), fun _ => set⟩
    · next clear =>
      rw [bit_eq_testBit, Bool.not_eq_true] at clear
      obtain ⟨most, zeros, one⟩ := ih (i + 1)
      refine ⟨by omega, fun j hj => ?_, fun hlt => ?_⟩
      · cases j with
        | zero => exact clear
        | succ j =>
          rw [show i + (j + 1) = i + 1 + j by omega]
          exact zeros j (by omega)
      · rw [← Nat.add_assoc]
        exact one (by omega)

theorem ctzN_mod (v n : Nat) : v % 2 ^ ctzN v n 0 = 0 := by
  obtain ⟨-, zeros, -⟩ := ctzN_spec v n 0
  refine Nat.eq_of_testBit_eq fun j => ?_
  rw [Nat.testBit_mod_two_pow, Nat.zero_testBit]
  by_cases hj : j < ctzN v n 0
  · simpa using fun _ => zeros j hj
  · simp [hj]

theorem popN_eq (v n : Nat) : popN v n = (List.range n).countP fun k => v.testBit k := by
  induction n with
  | zero => rfl
  | succ n ih =>
    rw [popN, ih, List.range_succ, List.countP_append, List.countP_singleton, bit_eq_testBit]

/-! Bytes of a number. -/

theorem getD_leBytes {n k : Nat} (h : k < n) (v : Nat) : (leBytes n v).getD k 0 = v / 256 ^ k % 256 := by
  induction n generalizing v k with
  | zero => exact absurd h (Nat.not_lt_zero _)
  | succ n ih =>
    cases k with
    | zero => simp [leBytes]
    | succ k =>
      rw [leBytes, List.getD_cons_succ, ih (by omega), Nat.div_div_eq_div_mul, Nat.pow_succ, Nat.mul_comm (256 ^ k)]

theorem leNat_byte (b : Bytes) (k : Nat) : leNat b / 256 ^ k % 256 = b.getD k 0 % 256 := by
  induction b generalizing k with
  | nil => simp [leNat]
  | cons x r ih =>
    cases k with
    | zero =>
      rw [leNat, List.getD_cons_zero]
      omega
    | succ k =>
      have low : (x % 256 + 256 * leNat r) / 256 = leNat r := by omega
      rw [leNat, List.getD_cons_succ, ← ih k, Nat.pow_succ, Nat.mul_comm (256 ^ k), ← Nat.div_div_eq_div_mul, low]

/-- A byte of a word, as a number. -/
theorem extractByte_eq {w : Nat} (v : BitVec w) (k : Nat) : v.extractLsb' (8 * k) 8 = BitVec.ofNat 8 (v.toNat / 256 ^ k) := by
  rw [← BitVec.toNat_inj, BitVec.extractLsb'_toNat, Nat.shiftRight_eq_div_pow, BitVec.toNat_ofNat, Nat.pow_mul]

theorem leBytes_lt {n v : Nat} (k : Nat) : (leBytes n v).getD k 0 < 256 := by
  by_cases h : k < n
  · rw [getD_leBytes h]
    exact Nat.mod_lt _ (by decide)
  · rw [List.getD_eq_default _ _ (by rw [length_leBytes]; omega)]
    decide

/-- BSWAP turns the bytes of a word round. -/
theorem bswap_byte (x : Word) {k : Nat} (h : k < 8) : (bswap x).extractLsb' (8 * k) 8 = x.extractLsb' (56 - 8 * k) 8 := by
  have long : (leBytes 8 x.toNat).reverse.length = 8 := by rw [List.length_reverse, length_leBytes]
  have small : leNat (leBytes 8 x.toNat).reverse < 2 ^ 64 := by
    have := leNat_lt (leBytes 8 x.toNat).reverse
    rwa [long] at this
  have turned : (leBytes 8 x.toNat).reverse.getD k 0 = (leBytes 8 x.toNat).getD (7 - k) 0 := by
    rw [List.getD_eq_getElem?_getD, List.getElem?_reverse (by rw [length_leBytes]; exact h), length_leBytes, ← List.getD_eq_getElem?_getD,
      show 8 - 1 - k = 7 - k by omega]
  rw [show 56 - 8 * k = 8 * (7 - k) by omega, extractByte_eq, extractByte_eq, bswap, BitVec.toNat_ofNat, Nat.mod_eq_of_lt small, ← BitVec.toNat_inj,
    BitVec.toNat_ofNat, BitVec.toNat_ofNat, show 2 ^ 8 = 256 from rfl, leNat_byte, turned, getD_leBytes (by omega), Nat.mod_mod]

/-! Immediates (R258). -/

/-- SHI by the two bits of its immediate that say which shift. -/
theorem shi_eq (x : Word) {k : Nat} (h : k < 64) : shi k x = BitVec.ofNat 64 (x.toNat * 2 ^ k) ∧ shi (64 + k) x = BitVec.ofNat 64 (x.toNat / 2 ^ k) ∧
    shi (128 + k) x = BitVec.ofInt 64 (x.toInt / 2 ^ k) ∧ shi (192 + k) x = x >>> k ||| x <<< (64 - k) := by
  refine ⟨?_, ?_, ?_, ?_⟩
  · rw [← shiftLeft_eq]
    simp only [shi, show k % 64 = k by omega, show k / 64 % 4 = 0 by omega]
  · rw [← ushiftRight_eq]
    simp only [shi, show (64 + k) % 64 = k by omega, show (64 + k) / 64 % 4 = 1 by omega]
  · rw [← sshiftRight_eq]
    simp only [shi, show (128 + k) % 64 = k by omega, show (128 + k) / 64 % 4 = 2 by omega]
  · rw [← rotateRight_eq x h]
    simp only [shi, show (192 + k) % 64 = k by omega, show (192 + k) / 64 % 4 = 3 by omega]

theorem testBit_putBits (x lo w v i : Nat) : (putBits x lo w v).testBit i = if lo ≤ i ∧ i < lo + w then v.testBit (i - lo) else x.testBit i := by
  have one : ∀ y j, Nat.testBit y j = bit (getBits y j 1) 0 := fun y j => by rw [bit_getBits, bit_eq_testBit]; simp
  obtain hb | ha | ⟨h1, h2⟩ : i + 1 ≤ lo ∨ lo + w ≤ i ∨ lo ≤ i ∧ i < lo + w := by omega
  · rw [one, getBits_putBits_below _ _ _ _ _ _ hb, ← one, if_neg (by omega)]
  · rw [one, getBits_putBits_above _ _ _ _ _ _ ha, ← one, if_neg (by omega)]
  · have field := bit_getBits (putBits x lo w v) lo w (i - lo)
    rw [getBits_putBits_same, Nat.add_sub_of_le h1, bit_eq_testBit, bit_eq_testBit, Nat.testBit_mod_two_pow, decide_eq_true (by omega), Bool.true_and,
      Bool.true_and] at field
    rw [if_pos ⟨h1, h2⟩, field]

/-- INS16 as masks: quarter `k` of the word is replaced. -/
theorem ins16_eq (x : Word) (imm : Nat) (h : imm < 2 ^ 16) (k : Nat) :
    BitVec.ofNat 64 (putBits x.toNat (16 * k) 16 imm) = x &&& ~~~((0xFFFF : Word) <<< (16 * k)) ||| BitVec.ofNat 64 imm <<< (16 * k) := by
  refine BitVec.eq_of_getLsbD_eq fun i hi => ?_
  have ones : ∀ j, (0xFFFF : Word).getLsbD j = decide (j < 16) := by
    intro j
    rw [show (0xFFFF : Word) = BitVec.ofNat 64 (2 ^ 16 - 1) from rfl, BitVec.getLsbD_ofNat, Nat.testBit_two_pow_sub_one]
    by_cases hj : j < 16
    · simp [hj, show j < 64 by omega]
    · simp [hj]
  rw [BitVec.getLsbD_ofNat, testBit_putBits, BitVec.getLsbD_or, BitVec.getLsbD_and, BitVec.getLsbD_not, BitVec.getLsbD_shiftLeft, BitVec.getLsbD_shiftLeft,
    ones, BitVec.getLsbD_ofNat, decide_eq_true hi]
  obtain below | inside | above : i < 16 * k ∨ 16 * k ≤ i ∧ i < 16 * k + 16 ∨ 16 * k + 16 ≤ i := by omega
  · rw [if_neg (by omega), decide_eq_true below]
    simp [BitVec.getLsbD]
  · rw [if_pos inside, decide_eq_false (show ¬ i < 16 * k by omega), decide_eq_true (show i - 16 * k < 16 by omega), decide_eq_true (show i - 16 * k < 64 by omega)]
    simp
  · have clear : imm.testBit (i - 16 * k) = false := Nat.testBit_lt_two_pow (h.trans_le (Nat.pow_le_pow_right (by decide) (by omega)))
    rw [if_neg (by omega), decide_eq_false (show ¬ i < 16 * k by omega), decide_eq_false (show ¬ i - 16 * k < 16 by omega), clear]
    simp [BitVec.getLsbD]

/-! The forms of the integer instructions. -/

section
variable {c : Instr} {s : State} {b rd rs1 rs2 : Nat}

theorem alu_gives {func : Nat} {f : Word → Word → Word} (run : exec c s = alu b func rd rs1 rs2 f s) (h1 : rd < 32) (h2 : rs1 < 32) (h3 : rs2 < 32)
    (h4 : func < 2048) (h : bobReady s b (1 * 2 ^ 26 + rd * 2 ^ 21 + rs1 * 2 ^ 16 + rs2 * 2 ^ 11 + func)) :
    completes c s (wroteG b rd (f ((s.bob b).gr rs1) ((s.bob b).gr rs2)) s) :=
  completes_issue h run (wordA_eq 1 h1 h2 h3 h4) rfl (wroteG_retire h rd _)

theorem alu1_gives {func : Nat} {f : Word → Word} (run : exec c s = alu1 b func rd rs1 f s) (h1 : rd < 32) (h2 : rs1 < 32) (h4 : func < 2048)
    (h : bobReady s b (1 * 2 ^ 26 + rd * 2 ^ 21 + rs1 * 2 ^ 16 + 0 * 2 ^ 11 + func)) : completes c s (wroteG b rd (f ((s.bob b).gr rs1)) s) :=
  completes_issue h run (wordA_eq 1 h1 h2 (by decide) h4) rfl (wroteG_retire h rd _)

theorem aluI_gives {op imm : Nat} {f : Word → Word} (run : exec c s = aluI b op rd rs1 imm f s) (h1 : rd < 32) (h2 : rs1 < 32) (h3 : imm < 2 ^ 16)
    (h : bobReady s b (op * 2 ^ 26 + rd * 2 ^ 21 + rs1 * 2 ^ 16 + imm)) : completes c s (wroteG b rd (f ((s.bob b).gr rs1)) s) :=
  completes_issue h run (wordB_eq op h1 h2 h3) rfl (wroteG_retire h rd _)

theorem shi_gives {imm : Nat} (h1 : rd < 32) (h2 : rs1 < 32) (h3 : imm < 256) (h : bobReady s b (0x0E * 2 ^ 26 + rd * 2 ^ 21 + rs1 * 2 ^ 16 + imm)) :
    completes (.stShi b rd rs1 imm) s (wroteG b rd (shi imm ((s.bob b).gr rs1)) s) :=
  completes_issue h rfl ((if_pos h3).trans (wordB_eq _ h1 h2 (by omega))) rfl (wroteG_retire h rd _)

theorem ins16_gives {k imm : Nat} (h1 : rd < 32) (hk : k < 4) (h3 : imm < 2 ^ 16) (h : bobReady s b (0x0F * 2 ^ 26 + rd * 2 ^ 21 + k * 2 ^ 16 + imm)) :
    completes (.stIns16 b rd k imm) s (wroteG b rd (BitVec.ofNat 64 (putBits ((s.bob b).gr rd).toNat (16 * k) 16 imm)) s) :=
  completes_issue h rfl ((if_pos hk).trans (wordB_eq _ h1 (by omega) h3)) rfl (wroteG_retire h rd _)

/-- The system values are those of the state before the instruction. -/
theorem sysValue_issued (s : State) (b sel : Nat) : sysValue (s.issued b) b sel = sysValue s b sel := by
  have own : (s.issued b).bob b = (s.bob b).issued := by rw [State.issued_bob, if_pos rfl]
  unfold sysValue
  rw [own]
  rfl

theorem rdsys_gives {k : Nat} (h1 : rd < 32) (hk : k < 8) (h : bobReady s b (0x36 * 2 ^ 26 + rd * 2 ^ 21 + 0 * 2 ^ 16 + k)) :
    completes (.stRdsys b rd k) s (wroteG b rd (sysValue s b k) s) := by
  refine completes_issue h rfl ((if_pos hk).trans (wordB_eq _ h1 (by decide) (by omega))) rfl ?_
  rw [sysValue_issued]
  exact wroteG_retire h rd _

end
end Sys2Proof.Machine

open Sys2Proof Sys2Proof.Machine

/-- Settles O38: each instruction writes the value of its table to rd, and its other effects are those of any instruction that retires. -/
theorem integerInstructions : Obligations.IntegerInstructions := by
  intro s b rd rs1 rs2 imm hrd h1 h2 him x y a i gives sx zx n one
  have alu : ∀ {c func v} (f : Word → Word → Word), exec c s = alu b func rd rs1 rs2 f s → func < 2048 → f x y = v → gives c (a func rs2) v :=
    fun _ run hf e h => e ▸ alu_gives run hrd h1 h2 hf h
  have alu1 : ∀ {c func v} (f : Word → Word), exec c s = alu1 b func rd rs1 f s → func < 2048 → f x = v → gives c (a func 0) v := fun _ run hf e h => e ▸ alu1_gives run hrd h1 hf h
  have aluI : ∀ {c op v} (f : Word → Word), exec c s = aluI b op rd rs1 imm f s → f x = v → gives c (i op rs1 imm) v := fun _ run e h => e ▸ aluI_gives run hrd h1 him h
  have shifts : ∀ {k v}, k < 256 → shi k x = v → gives (.stShi b rd rs1 k) (i 0x0E rs1 k) v := fun hk e h => e ▸ shi_gives hrd h1 hk h
  have sys : ∀ {k v}, k < 8 → sysValue s b k = v → gives (.stRdsys b rd k) (i 0x36 0 k) v := fun hk e h => e ▸ rdsys_gives hrd hk h
  have amount_lt : amount y < 64 := Nat.mod_lt _ (by decide)
  obtain ⟨clzMost, clzUpper, clzLower⟩ := clzN_spec x.isLt
  obtain ⟨ctzMost, -, ctzOne⟩ := ctzN_spec x.toNat 64 0
  refine ⟨alu (· + ·) rfl (by decide) rfl, alu (· - ·) rfl (by decide) rfl, alu (· &&& ·) rfl (by decide) rfl, alu (· ||| ·) rfl (by decide) rfl,
    alu (· ^^^ ·) rfl (by decide) rfl, alu (fun v w => v &&& ~~~w) rfl (by decide) rfl, alu (fun v w => v <<< amount w) rfl (by decide) (shiftLeft_eq x n),
    alu (fun v w => v >>> amount w) rfl (by decide) (ushiftRight_eq x n), alu (fun v w => v.sshiftRight (amount w)) rfl (by decide) (sshiftRight_eq x n),
    alu (fun v w => v.rotateRight (amount w)) rfl (by decide) (rotateRight_eq x amount_lt), alu (fun v w => flag (v.slt w)) rfl (by decide) rfl,
    alu (fun v w => flag (v.ult w)) rfl (by decide) rfl, alu (· * ·) rfl (by decide) rfl, alu mulhu rfl (by decide) rfl,
    alu divu rfl (by decide) (divu_eq x y), alu remu rfl (by decide) (remu_eq x y), alu divs rfl (by decide) rfl, alu rems rfl (by decide) rfl,
    fun hx hy => ⟨alu divs rfl (by decide) (by rw [hx, hy]; exact divs_overflow), alu rems rfl (by decide) (by rw [hx, hy]; exact rems_overflow)⟩,
    ⟨_, clzMost, clzUpper, clzLower, alu1 (fun v => BitVec.ofNat 64 (clzN v.toNat 64)) rfl (by decide) rfl⟩,
    ⟨_, ctzMost, ctzN_mod x.toNat 64, fun hlt => by simpa [BitVec.getLsbD] using ctzOne hlt, alu1 (fun v => BitVec.ofNat 64 (ctzN v.toNat 64 0)) rfl (by decide) rfl⟩,
    alu1 (fun v => BitVec.ofNat 64 (popN v.toNat 64)) rfl (by decide) (congrArg (BitVec.ofNat 64) (popN_eq x.toNat 64)), ⟨_, fun k hk => bswap_byte x hk, alu1 bswap rfl (by decide) rfl⟩,
    aluI (· + sext 16 imm) rfl rfl, aluI (· &&& BitVec.ofNat 64 imm) rfl rfl, aluI (· ||| BitVec.ofNat 64 imm) rfl rfl,
    aluI (· ^^^ BitVec.ofNat 64 imm) rfl rfl, aluI (fun v => flag (v.slt (sext 16 imm))) rfl rfl, aluI (fun v => flag (v.ult (sext 16 imm))) rfl rfl, fun k hk => ?_, fun k hk h => ?_,
    sys (by decide) rfl, sys (by decide) rfl, sys (by decide) rfl, sys (by decide) rfl, sys (by decide) rfl, sys (by decide) ?_, sys (by decide) rfl,
    sys (by decide) rfl⟩
  · obtain ⟨sll, srl, sra, rotr⟩ := shi_eq x hk
    exact ⟨shifts (by omega) sll, shifts (by omega) srl, shifts (by omega) sra, shifts (by omega) rotr⟩
  · rw [← ins16_eq _ _ him]
    exact ins16_gives hrd hk him h
  · show BitVec.ofNat 64 (pagesL s * 4096) = _
    rw [pagesL, Nat.mul_assoc]
    rfl
end

section
/-! PROOF. O40 is refuted: an atomic on another Bobbin's scratchpad meets the range of a stitch that runs there (R264, R283). -/

namespace Sys2Proof.Machine

/-- A FILL of the first word of the scratchpad, under way on tag 0. -/
def fillUnderWay : Job :=
  { tag := 0, kind := 1, flags := 2, d := 0, s := 0, l := 8, x := 0, after := 0, racy := false, lines := [], prod := none, progress := 0, asked := false }

/-- The word AADD g2, g1, g0. -/
def aaddWord : Nat := 3 * 2 ^ 26 + 2 * 2 ^ 21 + 1 * 2 ^ 16 + 0 * 2 ^ 11 + 0

/-- A Bobbin with SCRATCH_ALL at an AADD to the first word of Bobbin 1's scratchpad. -/
def neighbourAdder : Bob := { Bob.init with run := 1, cap := [4], g := [(1, 2 ^ 17)], text := [(0, aaddWord)], words := 2 }

/-- A Bobbin whose data mover fills that word. -/
def wordFiller : Bob := { Bob.init with run := 1, jobs := [fillUnderWay], tags := [(0, ⟨1, 0, 0⟩)] }

/-- Bobbin 0 is to add to a word that a stitch of Bobbin 1 is writing. -/
def neighbourRace : State := { State.reset with bobs := [(0, neighbourAdder), (1, wordFiller)] }

theorem bobReady_neighbourRace : bobReady neighbourRace 0 aaddWord := by
  unfold bobReady noLaneWork
  decide +kernel

/-- The old value is one that the manual leaves open, which the model takes from its stream of such values. -/
theorem exec_neighbourRace_draws : ∃ t, exec (.stAadd 0 2 1 0) neighbourRace = .next t ∧ t.ctr ≠ neighbourRace.ctr :=
  ⟨_, rfl, by decide +kernel⟩

end Sys2Proof.Machine

open Sys2Proof Sys2Proof.Machine

/-- Refutes O40: its clause of AADD asks that no stitch runs in the mover of the Bobbin that issues it, and not in that of the Bobbin whose word it names. In
`neighbourRace` a FILL of Bobbin 1 runs on the word that Bobbin 0 adds to: the value read is unspecified (R283), and the state of the unspecified values moves on, where
the clause has nothing changed but Bobbins and registers. -/
theorem not_lineRegistersAndScratchpad : ¬ Obligations.LineRegistersAndScratchpad := by
  unfold Obligations.LineRegistersAndScratchpad
  intro holds
  obtain ⟨-, -, -, -, -, -, atomics⟩ := holds neighbourRace 0 2 1 0 0 0 (by decide) (by decide)
  obtain ⟨adds, -⟩ := atomics (by decide) (by decide) (by decide)
  obtain ⟨t, run, drawn⟩ := exec_neighbourRace_draws
  obtain ⟨-, -, -, reached⟩ := (completes_iff run).1 (adds bobReady_neighbourRace)
  obtain ⟨-, -, -, -, frame, -⟩ := reached (by decide +kernel) (by decide +kernel) (.inr (by decide +kernel)) (by decide +kernel) rfl (by decide +kernel)
  exact drawn (by rw [frame])
end

section
/-! PROOF. Jumps, and the ways in which a Bobbin becomes free, O39 (R256, R260, R286 to R289). -/

namespace Sys2Proof.Machine

/-! Jumps (R260). -/

theorem State.axt_frame (s : State) (kind inst payload : Nat) : s.axt kind inst payload = { s with out := (s.axt kind inst payload).out } := by
  unfold State.axt
  split <;> rfl

/-- Axtil sends nothing while it is off (R577). -/
theorem State.axt_off {s : State} (h : s.fget CAL_AXTCFG F.CAL_AXTCFG_EN = 0) (kind inst payload : Nat) : s.axt kind inst payload = s :=
  if_neg fun on => absurd (h.symm.trans on.1) (by decide)

/-- The instruction has changed the program's state and its slots, and Axtil may have been told (R577). -/
def onlyTraced (b : Nat) (s t : State) : Prop :=
  othersKept b s t ∧ t = { s with bobs := t.bobs, out := t.out, regs := t.regs } ∧ regsKept (slotReg b) s t ∧ (s.fget CAL_AXTCFG F.CAL_AXTCFG_EN = 0 → t.out = s.out)

/-- The configuration of Axtil is no slot counter. -/
theorem not_slotReg_axtcfg {b : Nat} (hb : b < 64) : ¬ slotReg b CAL_AXTCFG := fun h =>
  absurd (counterReg_of_slotReg hb h) (by decide)

theorem onlyTraced_traceBob {s u : State} {b : Nat} {z : Bob} (hb : b < 64) (same : RegsOnly (s.setBob b z) u) (regs : regsKept (slotReg b) s u) (old x : Bob) :
    onlyTraced b s ((traceBob b old u).setBob b x) := by
  have frame := u.axt_frame 2 b (old.pc + old.q * 2 ^ 32)
  unfold traceBob
  refine ⟨fun c hc => ?_, ?_, ?_, fun off => ?_⟩
  · rw [State.setBob_bob, if_neg hc, frame, same]
    exact setBob_othersKept s b z c hc
  · unfold State.setBob
    rw [frame, same]
    rfl
  · rw [frame]
    exact regs
  · rw [State.axt_off ((regs.fget (not_slotReg_axtcfg hb) _).trans off), same]
    rfl

section
variable {s : State} {b w : Nat} {k : Int}

/-- A target inside the text is where the program goes. -/
theorem jump_goes (h : bobReady s b w) (h0 : 0 ≤ k) (h1 : k < ((s.bob b).words : Int)) (x : Bob) :
    (jump b k (s.bob b).issued x (s.issued b)).bob b = { x with pc := k.toNat } ∧ onlyTraced b s (jump b k (s.bob b).issued x (s.issued b)) := by
  obtain ⟨hb, -⟩ := h
  have retired := evSlots_regsOnly hb (show 0 < 4 by decide) 1 (s.issued b)
  have wasted := evSlots_regsOnly hb (show 1 < 4 by decide) 1 (evSlots b 0 1 (s.issued b))
  have regs : regsKept (slotReg b) s (evSlots b 1 1 (evSlots b 0 1 (s.issued b))) :=
    (evSlots_regsKept (by decide) 1 (s.issued b)).trans (evSlots_regsKept (by decide) 1 _)
  rw [jump_taken b k (s.bob b).issued x (s.issued b) h0 h1]
  exact ⟨by rw [State.setBob_bob, if_pos rfl], onlyTraced_traceBob hb (retired.trans wasted) regs _ _⟩

/-- A target outside the text ends the program. -/
theorem jump_faults (h : bobReady s b w) (out : ¬ (0 ≤ k ∧ k < ((s.bob b).words : Int))) (x : Bob) :
    faultsWith b C.BOB_E_PC_RANGE s (jump b k (s.bob b).issued x (s.issued b)) := by
  rw [jump_outside b k (s.bob b).issued x (s.issued b) (show k < 0 ∨ ((s.bob b).words : Int) ≤ k by omega)]
  refine bobFault_faultsWith h (by decide) rfl (fun c hc => ?_) (by rw [State.setBob_bob, if_pos rfl])
  rw [State.setBob_bob, if_neg hc, State.issued_bob, if_neg hc]

/-- A branch by its condition `p`. -/
theorem branch_completes {c : Instr} {op rs1 rs2 imm : Nat} {p : Word → Word → Bool} (run : exec c s = branch b op rs1 rs2 imm p s) (h1 : rs1 < 32) (h2 : rs2 < 32)
    (h3 : imm < 2 ^ 16) (h : bobReady s b (op * 2 ^ 26 + rs1 * 2 ^ 21 + rs2 * 2 ^ 16 + imm)) :
    completes c s (fun t => t = if p ((s.bob b).gr rs1) ((s.bob b).gr rs2) then
      jump b ((s.bob b).pc + (BitVec.ofNat 16 imm).toInt) (s.bob b).issued (s.bob b).issued (s.issued b) else retire b (s.bob b).issued (s.issued b)) :=
  completes_issue h run (wordB_eq op h1 h2 h3) rfl rfl

end

/-! A program that is gone (R286, R287, R316). -/

/-- A command whose record is written, or on its way, gets none. -/
theorem sendRecord_none {s : State} {q n : Nat} (h : ∀ c ∈ (s.spool q).cmds, c.n = n → c.recd ≠ 0) : sendRecord s q n = s := by
  have none : (s.spool q).cmds.find? (fun c => c.n == n && c.recd == 0 && c.claim.isSome) = none := by
    refine List.find?_eq_none.2 fun c hc hp => ?_
    simp only [Bool.and_eq_true, beq_iff_eq] at hp
    exact h c hc hp.1.1 hp.1.2
  unfold sendRecord
  rw [none]

/-- A Bobbin without a program. -/
def Bob.freed (x : Bob) : Bob :=
  { x with run := 0, loads := [], stores := [], jobs := [], opRd := none, waits := false, held := 0, posted := false, load := [], asked := false }

theorem bobFree_eq {s : State} {b : Nat} (disc : (s.bob b).disc = none) (free : noLaneWork s b) (busy : s.fget (BOB_STAT b) F.BOB_STAT_STATE = 1) :
    bobFree b s = (s.setBob b (s.bob b).freed).fset (BOB_STAT b) F.BOB_STAT_STATE (bobIdle s b) := by
  unfold bobFree
  rw [giveUp_quiet disc free]
  exact if_pos busy

theorem cmdEnd_spool (s : State) (q n k : Nat) : (cmdEnd s q n).spool k =
    if k = q then { s.spool q with cmds := liveCmds ((s.spool q).cmds.map fun c => if c.n = n then { c with stage := 2 } else c) } else s.spool k := by
  rw [cmdEnd, State.setSpool_spool, cmdUpd_spool, cmdUpd_spool, if_pos rfl]
  by_cases hk : k = q <;> simp [hk]

theorem cmdEnd_frame (s : State) (q n : Nat) : cmdEnd s q n = { s with spools := (cmdEnd s q n).spools } := rfl

/-- The ended command is in its last stage. -/
theorem cmdEnd_stage {s : State} {q n : Nat} {c : Cmd} (hc : c ∈ ((cmdEnd s q n).spool q).cmds) (hn : c.n = n) : c.stage = 2 := by
  rw [cmdEnd_spool, if_pos rfl] at hc
  obtain ⟨e, -, rfl⟩ := List.mem_map.1 (List.mem_filter.1 hc).1
  split at hn <;> simp_all

/-- The Bobbin of a program that has ended, with its record, is free. -/
theorem bobEnd_frees {s : State} {b : Nat} (recorded : ∀ c ∈ (s.spool (s.bob b).q).cmds, c.n = (s.bob b).n → c.recd ≠ 0) (disc : (s.bob b).disc = none)
    (free : noLaneWork s b) (busy : s.fget (BOB_STAT b) F.BOB_STAT_STATE = 1) (untested : bobTestDue s b = false) :
    (bobEnd b s).bob b = (s.bob b).freed ∧ (bobEnd b s).fget (BOB_STAT b) F.BOB_STAT_STATE = (if s.fget (BOB_CFG b) F.BOB_CFG_DRAIN = 1 then 2 else 0) ∧
    othersKept b s (bobEnd b s) ∧ (∀ q, q ≠ (s.bob b).q → (bobEnd b s).spool q = s.spool q) ∧
    (∀ c ∈ ((bobEnd b s).spool (s.bob b).q).cmds, c.n = (s.bob b).n → c.stage = 2) ∧
    bobEnd b s = { s with regs := (bobEnd b s).regs, bobs := (bobEnd b s).bobs, spools := (bobEnd b s).spools } ∧
    regsKept (fun off => off = BOB_STAT b) s (bobEnd b s) := by
  have ends : bobEnd b s = cmdEnd ((s.setBob b (s.bob b).freed).fset (BOB_STAT b) F.BOB_STAT_STATE (bobIdle s b)) (s.bob b).q (s.bob b).n := by
    simp only [bobEnd]
    rw [sendRecord_none recorded, bobFree_eq disc free busy]
  have idle : bobIdle s b = if s.fget (BOB_CFG b) F.BOB_CFG_DRAIN = 1 then 2 else 0 := by simp [bobIdle, untested]
  have shown := State.fset_regsKept (s.setBob b (s.bob b).freed) (BOB_STAT b) F.BOB_STAT_STATE (bobIdle s b)
  have shows : RegsOnly (s.setBob b (s.bob b).freed) _ := (RegsOnly.refl _).fset (BOB_STAT b) F.BOB_STAT_STATE (bobIdle s b)
  have state := State.fset_fget_lt (s.setBob b (s.bob b).freed) (BOB_STAT b) F.BOB_STAT_STATE (bobIdle s b) (by decide) (by rw [idle]; split <;> decide)
  rw [ends]
  generalize ((s.setBob b (s.bob b).freed).fset (BOB_STAT b) F.BOB_STAT_STATE (bobIdle s b)) = u at shown shows state
  have bobs : ∀ c, u.bob c = if c = b then (s.bob b).freed else s.bob c := fun c => by rw [← State.setBob_bob, shows]; rfl
  refine ⟨(bobs b).trans (if_pos rfl), idle ▸ state, fun c hc => (bobs c).trans (if_neg hc), fun q hq => ?_, fun c hc hn => cmdEnd_stage hc hn, ?_, shown⟩
  · rw [cmdEnd_spool, if_neg hq, shows]
    rfl
  · rw [cmdEnd_frame, shows]
    rfl

/-! A hardware fault (R289). -/

/-- The lanes of each of the Bobbin's stitches are given up. -/
def jobLanesDropped (b : Nat) (js : List Job) (s : State) : State := js.foldl (fun t j => laneDrop t 4 (jobWork b j.tag)) s

theorem jobLanesDropped_frame (b : Nat) (js : List Job) (s : State) : ∃ p, jobLanesDropped b js s = { s with tier := { s.tier with pleat := p } } := by
  induction js generalizing s with
  | nil => exact ⟨s.tier.pleat, rfl⟩
  | cons j r ih =>
    obtain ⟨p, h⟩ := ih (laneDrop s 4 (jobWork b j.tag))
    exact ⟨p, h⟩

/-- The Bobbin has stopped, with its stitches and their lanes gone. -/
def stopped (b : Nat) (js : List Job) (s : State) : State :=
  (jobLanesDropped b js s).setBob b { (jobLanesDropped b js s).bob b with run := 4, jobs := [] }

theorem stopped_eq {s r : State} (only : RegsOnly s r) (b : Nat) (js : List Job) : ∃ p,
    stopped b js r = ({ r with tier := { r.tier with pleat := p } } : State).setBob b { s.bob b with run := 4, jobs := [] } := by
  obtain ⟨p, dropped⟩ := jobLanesDropped_frame b js r
  have own : r.bob b = s.bob b := only.same (fun t => t.bob b) fun _ => rfl
  refine ⟨p, ?_⟩
  rw [stopped, dropped, ← own]
  rfl

theorem bobStop_running {s : State} {b : Nat} (h : (s.bob b).run = 1 ∨ (s.bob b).run = 2) :
    bobStop b s = stopped b (s.bob b).jobs (faultShown b C.BOB_F_ENGINE (s.bob b).last s) := by
  have runs : ¬ ((s.bob b).run = 0 ∨ (s.bob b).run = 4) := by omega
  simp only [bobStop, if_neg runs, stopped, jobLanesDropped, faultShown, faultNamed]

/-- A running Bobbin stops: BOB_PROGFLT shows it, and its stitches and their lanes are gone. -/
theorem bobStop_eq {s : State} {b : Nat} (h : (s.bob b).run = 1 ∨ (s.bob b).run = 2) : ∃ (r : State) (p : List PleatWork), RegsOnly s r ∧
    regsKept (fun off => off = BOB_PROGFLT b) s r ∧ bobStop b s = ({ r with tier := { r.tier with pleat := p } } : State).setBob b { s.bob b with run := 4, jobs := [] } := by
  have only := faultShown_regsOnly b C.BOB_F_ENGINE (s.bob b).last s
  obtain ⟨p, stops⟩ := stopped_eq only b (s.bob b).jobs
  exact ⟨_, p, only, faultShown_regsKept b C.BOB_F_ENGINE (s.bob b).last s, (bobStop_running h).trans stops⟩

theorem State.report_bob (s : State) (src elem code addr detail c : Nat) : (s.report src elem code addr detail).bob c = s.bob c := rfl

/-- What a hardware fault leaves: the Bobbin has stopped, and its report has set off. -/
theorem engineFault_spec {s : State} {b : Nat} (hb : b < 64) (h : (s.bob b).run = 1 ∨ (s.bob b).run = 2) :
    let t := engineFault b s
    t.bob b = { s.bob b with run := 4, jobs := [] } ∧ othersKept b s t ∧ t.spools = s.spools ∧ t.dram = s.dram ∧ t.home = s.home ∧
      t.tier = { s.tier with pleat := t.tier.pleat } ∧
      t.reports = s.reports ++ [{ src := srcId 4 b, elem := 0, code := C.BOB_F_ENGINE, addr := 0, detail := 0, level := none }] ∧
      regsKept (fun off => off = BOB_PROGFLT b) s t := by
  obtain ⟨r, p, only, regs, stops⟩ := bobStop_eq h
  obtain ⟨rs, rfl⟩ : ∃ rs, r = { s with regs := rs } := ⟨_, only⟩
  have reported : engineFault b s = (({ s with regs := rs, tier := { s.tier with pleat := p } } : State).setBob b
      { s.bob b with run := 4, jobs := [] }).report (srcId 4 b) 0 C.BOB_F_ENGINE 0 0 := by
    rw [engineFault, if_pos hb, stops]
  simp only [reported]
  refine ⟨?_, fun c hc => ?_, rfl, rfl, rfl, rfl, rfl, regs⟩
  · rw [State.report_bob, State.setBob_bob, if_pos rfl]
  · rw [State.report_bob, State.setBob_bob, if_neg hc]
    rfl

/-! The end of the text (R260). -/

/-- The last instruction of the text takes effect, and falling through it ends the program. -/
theorem retire_falls {s : State} {b : Nat} {x : Bob} (hb : b < 64) (last : x.words ≤ x.pc + 1) (run : x.run = 1) (index : x.last < 8192)
    (who : x.q = (s.bob b).q ∧ x.n = (s.bob b).n ∧ x.posted = (s.bob b).posted) (disc : x.disc = none) (free : noLaneWork s b) :
    programEnds b C.BOB_E_PC_RANGE x.last x s (retire b x (s.issued b)) := by
  have counted := evSlots_regsOnly hb (show 0 < 4 by decide) (slotsOf ((s.issued b).bob b)) ((s.issued b).setBob b x)
  have kept := evSlots_regsKept (b := b) (show 0 < 2 by decide) (slotsOf ((s.issued b).bob b)) ((s.issued b).setBob b x)
  have falls : retire b x (s.issued b) = bobFaultAt b C.BOB_E_PC_RANGE x.last (evSlots b 0 (slotsOf ((s.issued b).bob b)) ((s.issued b).setBob b x)) :=
    if_pos ⟨last, run⟩
  have own : (evSlots b 0 (slotsOf ((s.issued b).bob b)) ((s.issued b).setBob b x)).bob b = x := by rw [evSlots_bob, State.setBob_bob, if_pos rfl]
  have ends := bobFaultAt_programEnds (s := s) (st := C.BOB_E_PC_RANGE) (idx := x.last) hb (by decide) index (by rw [counted]; rfl) kept
    (fun c hc => by rw [evSlots_bob, State.setBob_bob, if_neg hc, State.issued_bob, if_neg hc]) (by rwa [own]) (by rwa [own]) free
  rw [own] at ends
  rwa [falls]

/-- The last instruction of the text writes its general register before the program ends. -/
theorem setG_falls {s : State} {b : Nat} (hb : b < 64) (run : (s.bob b).run = 1) (disc : (s.bob b).disc = none) (free : noLaneWork s b)
    (last : (s.bob b).words = (s.bob b).pc + 1) (small : (s.bob b).words ≤ 8192) (rd : Nat) (v : Word) :
    let t := retire b ((s.bob b).issued.setG rd v) (s.issued b)
    (∀ r, (t.bob b).gr r = if r = rd ∧ r ≠ 0 then v else (s.bob b).gr r) ∧
      programEnds b C.BOB_E_PC_RANGE (s.bob b).pc { s.bob b with g := (t.bob b).g, last := (s.bob b).pc } s t := by
  intro t
  have state := (s.bob b).issued.setG_frame rd v
  have ends : programEnds b C.BOB_E_PC_RANGE (s.bob b).pc ((s.bob b).issued.setG rd v) s t := by
    have falls := retire_falls (s := s) (x := (s.bob b).issued.setG rd v) hb (by simpa using last.le) (by rwa [state]) (by rw [state]; show (s.bob b).pc < 8192; omega)
      (by rw [state]; exact ⟨rfl, rfl, rfl⟩) (by rwa [state]) free
    rwa [show ((s.bob b).issued.setG rd v).last = (s.bob b).pc by rw [state]; rfl] at falls
  have ⟨_, _, _, _, own, _⟩ := ends
  refine ⟨fun r => ?_, ?_⟩
  · rw [own]
    exact (s.bob b).issued.gr_setG rd v r
  · rw [own]
    rw [state] at ends
    exact ends

/-! Words that are no instruction (R256). -/

/-- A word with an unassigned major opcode, or zero, is illegal. -/
theorem stitchLegal_unassigned {w : Nat} (h : w < 2 ^ 32) (un : w = 0 ∨ w / 2 ^ 26 ∉ [1, 2, 3, 4, 8, 9, 10, 11, 12, 13, 14, 15, 16, 17, 18, 19, 20, 21, 24, 25, 26,
    27, 28, 29, 30, 31, 32, 48, 49, 50, 51, 52, 53, 54, 56]) : stitchLegal w = false := by
  have major : getBits w 26 6 = w / 2 ^ 26 := Nat.mod_eq_of_lt (by omega)
  have none : w / 2 ^ 26 ∉ [1, 2, 3, 4, 8, 9, 10, 11, 12, 13, 14, 15, 16, 17, 18, 19, 20, 21, 24, 25, 26, 27, 28, 29, 30, 31, 32, 48, 49, 50, 51, 52, 53, 54, 56] := by
    obtain rfl | un := un
    · decide
    · exact un
  unfold stitchLegal
  rw [major]
  generalize w / 2 ^ 26 = op at none
  simp only [List.mem_cons, List.not_mem_nil, or_false, not_or] at none
  dsimp only
  repeat rw [if_neg (by omega)]

theorem illegalInstruction_ready {s : State} {b w : Nat} (h : bobReady s b w) (bad : stitchLegal w = false) :
    illegalInstruction b s = bobFault b C.BOB_E_ILLEGAL (s.issued b) := by
  obtain ⟨-, core, run, idle, -, -, word, inside, -⟩ := h
  exact if_pos ⟨core, run, idle, by omega, word ▸ bad⟩

end Sys2Proof.Machine

open Sys2Proof Sys2Proof.Machine

/-- Settles O39: a branch or jump retires, goes or faults as its condition and target say, and each other end of a program is one record, one claim and one drain. -/
theorem controlFlowAndProgramEnds : Obligations.ControlFlowAndProgramEnds := by
  intro s b rd rs1 rs2 imm hb hrd h1 h2 him u x y off d inText goes branches jumps
  have branch : ∀ {c op} (p : Word → Word → Bool) {q : Prop}, exec c s = branch b op rs1 rs2 imm p s → (p x y = true ↔ q) → branches c op q := by
    intro c op p q run cond h
    obtain ⟨t, ends, chosen⟩ := branch_completes run h1 h2 him h
    refine ⟨fun hq inside => ⟨t, ends, ?_⟩, fun hq out => ⟨t, ends, ?_⟩, fun hq => ⟨t, ends, ?_⟩⟩
    · rw [if_pos (cond.2 hq)] at chosen
      rw [chosen]
      exact jump_goes h inside.1 inside.2 _
    · rw [if_pos (cond.2 hq)] at chosen
      rw [chosen]
      exact jump_faults h out _
    · rw [if_neg fun hp => hq (cond.1 hp)] at chosen
      rw [chosen]
      exact retired_retire h
  have jump : ∀ {c w e k} (target : Bob → Int),
      exec c s = .next (issue b e [] (fun v t => jump b (target v) v (v.setG rd (BitVec.ofNat 64 (v.pc + 1))) t) s) → e = some w → target u.issued = k → jumps c w k := by
    rintro c w e _ target run word rfl h
    refine ⟨fun inside => completes_issue h run word rfl ?_, fun out => completes_issue h run word rfl (jump_faults h out _)⟩
    obtain ⟨bob, rest⟩ := jump_goes h inside.1 inside.2 (u.issued.setG rd (BitVec.ofNat 64 (u.issued.pc + 1)))
    refine ⟨⟨?_, rest⟩, fun r => ?_⟩
    · rw [bob, Bob.setG_frame]
      rfl
    · rw [bob]
      exact u.issued.gr_setG rd _ r
  refine ⟨branch (fun v w => v == w) rfl beq_iff_eq, branch (fun v w => v != w) rfl bne_iff_ne, branch (fun v w => v.slt w) rfl BitVec.slt_iff_toInt_lt,
    branch (fun v w => !v.slt w) rfl ?_, branch (fun v w => v.ult w) rfl BitVec.ult_iff_toNat_lt, branch (fun v w => !v.ult w) rfl ?_,
    jump (fun v => v.pc + sextI 16 imm) rfl ((wordB_eq _ hrd (by decide) him).trans (by rw [Nat.zero_mul, Nat.add_zero])) rfl,
    jump (fun v => (v.gr rs1).toInt + sextI 16 imm) rfl (wordB_eq _ hrd h1 him) rfl,
    ?_, fun w hw un h => completes_next rfl (illegalInstruction_ready h (stitchLegal_unassigned hw un)) (issued_faultsWith h (by decide)), ?_, ?_, ?_⟩
  · rw [BitVec.slt_eq_decide]
    simp
  · rw [BitVec.ult_eq_decide]
    simp
  · intro core run idle disc free last small word
    have can : canIssue s b (wordB 0x08 rd rs1 imm) [] = true := by
      have before : u.pc < u.words := by omega
      rw [wordB_eq _ hrd h1 him]
      simp [canIssue, core, run, idle, word, before, vfree, u]
    exact completes_next rfl (issue_eq can _) (setG_falls hb run disc free last small rd _)
  · intro run inside limit
    exact completes_next rfl (if_pos ⟨run, limit⟩) (progFault_programEnds hb (by decide) inside s)
  · intro run
    exact completes_next rfl rfl (engineFault_spec hb run)
  · intro run awake stores jobs idle disc free recorded busy untested
    have ends : drainComplete b s = bobEnd b s := by
      simp [drainComplete, awake, run, storesDone, stitchesDone, stores, jobs, idle, disc, u]
    obtain ⟨bob, state, others, spools, -, frame, regs⟩ := bobEnd_frees recorded disc free busy untested
    exact completes_next rfl ends ⟨by rw [bob]; rfl, by rw [bob]; rfl, state, others, spools, by rw [frame], regs⟩
end

section
/-! PROOF. A program starts in the state of its table, O50: the scratchpad's bytes, and what a launch sets (R254, R263, R294, R295, R314). -/

namespace Sys2Proof.Machine

/-! Bytes of the scratchpad (R263). -/

theorem scrWord_scrPut (x : Bob) (i v j : Nat) : scrWord (scrPut x i v) j = if j = i then v % 2 ^ 64 else scrWord x j := by
  unfold scrWord scrPut
  rw [tabGet_tabSet]
  split
  · exact BitVec.toNat_ofNat ..
  · rfl

theorem scrWord_lt (x : Bob) (i : Nat) : scrWord x i < 2 ^ 64 := BitVec.isLt _

theorem scrByte_eq (x : Bob) (a : Nat) : scrByte x a = getBits (scrWord x (a / 8)) (8 * (a % 8)) 8 := rfl

/-- One byte stored. -/
theorem scrByte_put (x : Bob) (a v k : Nat) :
    scrByte (scrPut x (a / 8) (putBits (scrWord x (a / 8)) (8 * (a % 8)) 8 v)) k = if k = a then v % 256 else scrByte x k := by
  have small : putBits (scrWord x (a / 8)) (8 * (a % 8)) 8 v < 2 ^ 64 := putBits_lt _ _ _ _ _ (scrWord_lt x _) (by omega)
  rw [scrByte_eq, scrWord_scrPut, Nat.mod_eq_of_lt small]
  by_cases word : k / 8 = a / 8
  · rw [if_pos word]
    obtain below | same | above : k % 8 < a % 8 ∨ k % 8 = a % 8 ∨ a % 8 < k % 8 := by omega
    · rw [getBits_putBits_below _ _ _ _ _ _ (by omega), if_neg (by omega), scrByte_eq, word]
    · rw [same, getBits_putBits_same, if_pos (by omega)]
      rfl
    · rw [getBits_putBits_above _ _ _ _ _ _ (by omega), if_neg (by omega), scrByte_eq, word]
  · rw [if_neg word, if_neg (fun e => word (congrArg (· / 8) e)), scrByte_eq]

/-- Bytes stored from `a` on are those of the range, and no other. -/
theorem scrByte_scrStore (x : Bob) (a : Nat) (l : Bytes) (k : Nat) :
    scrByte (scrStore x a l) k = if a ≤ k ∧ k < a + l.length then l.getD (k - a) 0 % 256 else scrByte x k := by
  induction l generalizing x a with
  | nil => exact (if_neg (by simp)).symm
  | cons v r ih =>
    rw [scrStore, ih, scrByte_put, List.length_cons]
    by_cases later : a + 1 ≤ k ∧ k < a + 1 + r.length
    · rw [if_pos later, if_pos (by omega), show k - a = k - (a + 1) + 1 by omega, List.getD_cons_succ]
    · rw [if_neg later]
      by_cases first : k = a
      · rw [if_pos first, if_pos (by omega), first, Nat.sub_self, List.getD_cons_zero]
      · rw [if_neg first, if_neg (by omega)]

theorem scrStore_frame (x : Bob) (a : Nat) (l : Bytes) : scrStore x a l = { x with scratch := (scrStore x a l).scratch } := by
  induction l generalizing x a with
  | nil => rfl
  | cons v r ih =>
    rw [scrStore, ih]
    rfl

theorem scrByte_clear {x : Bob} (h : x.scratch = []) (k : Nat) : scrByte x k = 0 := by
  unfold scrByte scrWord
  rw [h]
  simp [tabGet]

/-! Tables filled in a loop (R254). -/

/-- Entries 1 to `n` of an empty table are set. -/
theorem tabGet_numbered {α : Type} [DecidableEq α] (d : Nat → α) (f : Nat → α) (n k : Nat) :
    tabGet d ((List.range n).foldl (fun t i => tabSet d t (i + 1) (f i)) []) k = if 1 ≤ k ∧ k ≤ n then f (k - 1) else d k := by
  induction n with
  | zero => exact (if_neg (by omega)).symm
  | succ n ih =>
    rw [List.range_succ, List.foldl_append, List.foldl_cons, List.foldl_nil, tabGet_tabSet, ih]
    by_cases last : k = n + 1
    · rw [if_pos last, if_pos (by omega), last, Nat.add_sub_cancel]
    · rw [if_neg last]
      exact if_congr (by omega) rfl rfl

theorem tabGet_imgWords (m : Bytes) (n i : Nat) (t : Tab Nat) (k : Nat) :
    tabGet (fun _ => 0) (imgWords m n i t) k = if i ≤ k ∧ k < i + n then hdrField m (64 + 4 * k) 4 else tabGet (fun _ => 0) t k := by
  induction n generalizing i t with
  | zero => exact (if_neg (by omega)).symm
  | succ n ih =>
    rw [imgWords, ih, tabGet_tabSet]
    by_cases first : k = i
    · subst first
      rw [if_neg (by omega), if_pos rfl, if_pos (by omega)]
    · rw [if_neg first]
      exact if_congr (by omega) rfl rfl

/-! The state at launch (R254, R300). -/

/-- The bytes of an image's initialisation data (R294). -/
def imgInit (m : Bytes) : Bytes := (m.drop (64 + 4 * imgText m)).take (imgSLen m)

/-- The launch state with its scratchpad still clear. -/
def launchClear (x : Bob) (d : Line) (m : Bytes) (id : Nat × Nat) : Bob :=
  { x with run := 1, v := tabSet (fun _ => 0) [] 0 d, vp := 0, pc := imgEntry m, last := imgEntry m, words := imgText m, scratch := [], lost := [], tags := [],
           g := (List.range 6).foldl (fun (t : Tab Word) k => tabSet (fun _ => 0) t (k + 1) (BitVec.ofNat 64 (getBits d.toNat (128 + 64 * k) 64))) [],
           text := if x.img = id then x.text else imgWords m (imgText m) 0 [],
           posted := false, loads := [], stores := [], held := 0, jobs := [], opRd := none, img := id, load := [], asked := false, disc := none }

theorem launchState_eq (x : Bob) (d : Line) (m : Bytes) (id : Nat × Nat) : launchState x d m id = scrStore (launchClear x d m id) (imgSOff m) (imgInit m) := rfl

theorem launchState_frame (x : Bob) (d : Line) (m : Bytes) (id : Nat × Nat) :
    launchState x d m id = { launchClear x d m id with scratch := (launchState x d m id).scratch } := scrStore_frame ..

section
variable (x : Bob) (d : Line) (m : Bytes) (id : Nat × Nat)

/-- g1 to g6 are words 2 to 7 of the descriptor. -/
theorem launchState_gr (k : Nat) : (launchState x d m id).gr k = if 1 ≤ k ∧ k ≤ 6 then d.extractLsb' (64 * (k + 1)) 64 else 0 := by
  rw [launchState_frame]
  unfold Bob.gr
  by_cases zero : k = 0
  · rw [if_pos zero, if_neg (by omega)]
  · rw [if_neg zero]
    refine (tabGet_numbered (fun _ => (0 : Word)) (fun i => BitVec.ofNat 64 (getBits d.toNat (128 + 64 * i) 64)) 6 k).trans ?_
    refine if_congr Iff.rfl ?_ rfl
    rw [← BitVec.toNat_inj, BitVec.toNat_ofNat, BitVec.extractLsb'_toNat, Nat.shiftRight_eq_div_pow, getBits, Nat.mod_mod,
      show 128 + 64 * (k - 1) = 64 * (k + 1) by omega]

theorem launchState_vr (k : Nat) : (launchState x d m id).vr k = (if k = 0 then d else 0) ∧ (launchState x d m id).vpois k = false := by
  rw [launchState_frame]
  refine ⟨tabGet_tabSet .., ?_⟩
  unfold Bob.vpois bit
  rw [show (launchClear x d m id).vp = 0 from rfl, Nat.zero_div]
  rfl

theorem launchState_text (h : x.img ≠ id) (i : Nat) :
    tabGet (fun _ => 0) (launchState x d m id).text i = if i < imgText m then hdrField m (64 + 4 * i) 4 else 0 := by
  have text : (launchState x d m id).text = imgWords m (imgText m) 0 [] := by
    rw [launchState_frame]
    exact if_neg h
  rw [text, tabGet_imgWords]
  exact if_congr (by omega) rfl rfl

/-- The scratchpad holds the initialisation bytes at their offset, and is clear elsewhere. -/
theorem launchState_scratch (small : ∀ v ∈ m, v < 256) (k : Nat) : scrByte (launchState x d m id) k =
    if imgSOff m ≤ k ∧ k < imgSOff m + imgSLen m then m.getD (64 + 4 * imgText m + (k - imgSOff m)) 0 else 0 := by
  have clear : scrByte (launchClear x d m id) k = 0 := scrByte_clear rfl k
  have byte : ∀ i, m.getD i 0 % 256 = m.getD i 0 := by
    intro i
    refine Nat.mod_eq_of_lt ?_
    by_cases hi : i < m.length
    · rw [List.getD_eq_getElem _ _ hi]
      exact small _ (List.getElem_mem hi)
    · rw [List.getD_eq_default _ _ (by omega)]
      decide
  have long : (imgInit m).length = min (imgSLen m) (m.length - (64 + 4 * imgText m)) := by rw [imgInit, List.length_take, List.length_drop]
  rw [launchState_eq, scrByte_scrStore, clear, long]
  by_cases range : imgSOff m ≤ k ∧ k < imgSOff m + imgSLen m
  · rw [if_pos range]
    by_cases held : 64 + 4 * imgText m + (k - imgSOff m) < m.length
    · rw [if_pos (by omega), ← byte, imgInit, List.getD_eq_getElem?_getD, List.getElem?_take_of_lt (by omega), List.getElem?_drop,
        List.getD_eq_getElem?_getD]
    · rw [if_neg (by omega), List.getD_eq_default _ _ (by omega)]
  · rw [if_neg range, if_neg (by omega)]

end

/-! The launch of an image that has been read (R295, R314). -/

/-- The image read so far, from its first byte on. -/
def imageRead (s : State) (b ga : Nat) : Bytes := ((s.bob b).load.reverse.flatMap lineBytes).drop (ga % 64)

theorem lt_of_mem_imageRead {s : State} {b ga v : Nat} (h : v ∈ imageRead s b ga) : v < 256 := by
  obtain ⟨l, -, hl⟩ := List.mem_flatMap.1 (List.mem_of_mem_drop h)
  exact lt_of_mem_leBytes _ _ v hl

/-- An image that passes has a header that passes. -/
theorem imgHdrOk_of_imgOk {m : Bytes} (h : imgOk m = true) : imgHdrOk (m.take 64) = true := by
  simp only [imgOk, Bool.and_eq_true] at h
  exact h.1.1.1

/-- The launch counted. -/
def launchCounted (b : Nat) (s : State) : State := s.fset (BOB_LAUNCHES b) F.BOB_LAUNCHES_COUNT (s.fget (BOB_LAUNCHES b) F.BOB_LAUNCHES_COUNT + 1)

/-- The state of the device when a program starts in the state `x` of its Bobbin: the launch counted and the command's Bobbin noted. -/
def launched (b : Nat) (x : Bob) (s : State) : State :=
  evSPL (bobClass s b) 1 ((cmdUpd (launchCounted b s) (s.bob b).q (s.bob b).n (fun c => { c with bob := b })).setBob b x)

section
variable {s : State} {b : Nat} {d : Line} {m : Bytes} (dir : dProg d < 256)
include dir

theorem launchDone_launched (ok : imgOk m = true) (needs : imgNeeds m &&& ((s.bob b).cap.getD 0 0) % 32 = imgNeeds m) :
    launchDone b d m s = launched b (launchState (s.bob b) d m (dProg d, (s.prog (dProg d)).gen)) s := by
  have known : ¬ dProg d = 0xFFFF := by omega
  simp only [launchDone, if_neg known, ok, needs, ne_eq, not_true_eq_false, Bool.true_eq_false, if_false, launched, launchCounted]

/-- Once every line is there the image is checked and the program started. -/
theorem loadImage_launchDone (n : Nat) (header : lineCount (s.prog (dProg d)).addr 64 ≤ (s.bob b).load.length)
    (whole : lineCount (s.prog (dProg d)).addr (imgLen ((imageRead s b (s.prog (dProg d)).addr).take 64)) ≤ (s.bob b).load.length)
    (image : m = (imageRead s b (s.prog (dProg d)).addr).take (imgLen ((imageRead s b (s.prog (dProg d)).addr).take 64))) (ok : imgOk m = true) :
    loadImage b d (n + 1) s = launchDone b d m s := by
  have known : ¬ dProg d = 0xFFFF := by omega
  have addr : imageAddr s d = (s.prog (dProg d)).addr := if_neg known
  have top : m.take 64 = (imageRead s b (s.prog (dProg d)).addr).take 64 := by
    rw [image, List.take_take, Nat.min_eq_left (by unfold imgLen; omega)]
  have good : imgHdrOk ((imageRead s b (s.prog (dProg d)).addr).take 64) = true := top ▸ imgHdrOk_of_imgOk ok
  have user : (dProg d == 0xFFFF) = false := by simpa using known
  rw [loadImage, addr]
  unfold imageRead at good whole image
  simp only [user, good, header, whole, Bool.false_eq_true, Bool.true_eq_false, false_and, and_false, and_true, if_false, if_true, ← image]

end

/-- A command's entry and a Bobbin's state set, and an event. -/
theorem evSPL_setBob_spec {s u : State} {b c q n : Nat} {f : Cmd → Cmd} {ex : Nat → Prop} (only : RegsOnly s u) (regs : regsKept ex s u) (hc : c < 8) (x : Bob) :
    let t := evSPL c 1 ((cmdUpd u q n f).setBob b x)
    t.bob b = x ∧ othersKept b s t ∧ t = { s with regs := t.regs, levelNs := t.levelNs, bobs := t.bobs, spools := t.spools } ∧
      regsKept (fun off => ex off ∨ counterReg off = true) s t := by
  intro t
  have events : regsKept (fun off => counterReg off = true) ((cmdUpd u q n f).setBob b x) t := evSPL_regsKept hc (by decide) _
  obtain ⟨r, l, counted⟩ := evSPL_frame c 1 ((cmdUpd u q n f).setBob b x)
  obtain ⟨rs, rfl⟩ : ∃ rs, u = { s with regs := rs } := ⟨_, only⟩
  have bobs : ∀ k, t.bob k = if k = b then x else s.bob k := by
    intro k
    rw [show t = _ from counted]
    exact State.setBob_bob ..
  refine ⟨(bobs b).trans (if_pos rfl), fun k hk => (bobs k).trans (if_neg hk), ?_, ?_⟩
  · rw [show t = _ from counted]
    rfl
  · exact (regs.mono fun off h => Or.inl h).trans (events.mono fun off h => Or.inr h)

/-- A launch sets the Bobbin's state and, beside it, changes its count, its command and event counters. -/
theorem launched_spec (b : Nat) (x : Bob) (s : State) : let t := launched b x s
    t.bob b = x ∧ othersKept b s t ∧ t = { s with regs := t.regs, levelNs := t.levelNs, bobs := t.bobs, spools := t.spools } ∧
      regsKept (fun off => off = BOB_LAUNCHES b ∨ counterReg off = true) s t :=
  evSPL_setBob_spec (u := launchCounted b s) ((RegsOnly.refl s).fset _ _ _) (s.fset_regsKept (BOB_LAUNCHES b) F.BOB_LAUNCHES_COUNT _) (bobClass_lt s b) x

/-- A Bobbin that has read its image goes on with its launch. -/
theorem programLaunch_loads {s : State} {b : Nat} {c : Cmd} (hb : b < 64) (core : coreOpen s = true) (level : s.devLevel ≠ 3) (on : gated s (68 + b) = false)
    (loading : (s.bob b).run = 3) (runs : bobCmd s b = some c) : programLaunch b s = loadImage b c.desc 4096 s := by
  have open' : ¬ (64 ≤ b ∨ coreOpen s = false ∨ s.devLevel = 3 ∨ gated s (68 + b) = true) := by
    simp [core, level, on]
    omega
  simp only [programLaunch, if_neg open', if_pos loading, runs]

end Sys2Proof.Machine

open Sys2Proof Sys2Proof.Machine

/-- Settles O50: an image that has been read and passes starts its program, in the launch state of its descriptor and bytes. -/
theorem programLaunchSetsTheState : Obligations.ProgramLaunchSetsTheState := by
  intro s b c hb core level on loading runs u p ga bytes m field dir header whole ok needs other
  have small : ∀ v ∈ m, v < 256 := fun v hv => lt_of_mem_imageRead (List.mem_of_mem_take hv)
  have run : programLaunch b s = launched b (launchState u c.desc m (p, (s.prog p).gen)) s :=
    (programLaunch_loads hb core level on loading runs).trans
      ((loadImage_launchDone dir 4095 header whole rfl ok).trans (launchDone_launched dir ok needs))
  obtain ⟨own, others, frame, regs⟩ := launched_spec b (launchState u c.desc m (p, (s.prog p).gen)) s
  have state := launchState_frame u c.desc m (p, (s.prog p).gen)
  refine completes_next rfl run ⟨?_, ?_, ?_, ?_, ?_, ?_, ?_, ?_, ?_, ?_, ?_, ?_, others, frame, regs⟩
  all_goals rw [own]
  · rw [state]; rfl
  · rw [state]; rfl
  · rw [state]; rfl
  · exact launchState_gr u c.desc m _
  · exact launchState_vr u c.desc m _
  · exact launchState_text u c.desc m _ other
  · exact launchState_scratch u c.desc m _ small
  · intro k
    rw [state]
    rfl
  · rw [state]; rfl
  · rw [state]; rfl
  · rw [state]; rfl
  · rw [state]; rfl
end

section
/-! PROOF. How a stitch issues, and how its tag answers, O42 (R268, R269, R278, R293). -/

namespace Sys2Proof.Machine

/-! Issue of a stitch (R268, R269, R293). -/

theorem wordE_eq {kind rd rs rl tag flags : Nat} (h0 : kind < 16) (h1 : rd < 32) (h2 : rs < 32) (h3 : rl < 32) (h4 : tag < 16) (h5 : flags < 8) :
    wordE kind rd rs rl tag flags = some (0x38 * 2 ^ 26 + kind * 2 ^ 22 + rd * 2 ^ 17 + rs * 2 ^ 12 + rl * 2 ^ 7 + tag * 2 ^ 3 + flags) :=
  if_pos ⟨h0, h1, h2, h3, h4, h5⟩

/-- Value of a stitch's second length register (R269): none follows g31. -/
def Bob.pairOf (x : Bob) (rl : Nat) : Nat := if rl = 31 then 0 else (x.gr (rl + 1)).toNat

/-- The program has the flag that a kind of stitch needs (R268, R276, R277). -/
def stitchPermit (x : Bob) (kind flags : Nat) : Bool :=
  if kind = 5 ∨ kind = 6 then capFlag x capPLEAT else if kind = 7 then capFlag x (if bit flags 2 then capTIER else capMIGRATE) else true

/-- The stitch as it enters the data mover. -/
def newJob (x : Bob) (kind rd rs rl tag flags : Nat) : Job :=
  { tag := tag, kind := kind, flags := flags, d := (x.gr rd).toNat, s := (x.gr rs).toNat, l := (x.gr rl).toNat, x := x.pairOf rl, after := x.io,
    racy := false, lines := [], prod := none, progress := 0, asked := false }

/-- The program goes on with a tag in a new state and these stitches. -/
def tagGoes (b tag : Nat) (v : TagSt) (js : List Job) (x : Bob) (t : State) : State :=
  retire b { x.setTag tag v with jobs := js } (traceBob b x t)

/-- The checks of a stitch, in the order of log entry 70. -/
theorem stitchIssue_eq (b kind rd rs rl tag flags : Nat) (x : Bob) (t : State) : stitchIssue b kind rd rs rl tag flags x t =
    if stitchPermit x kind flags = false then bobFault b C.BOB_E_CAP t
    else if badParam t kind (x.gr rd).toNat (x.gr rs).toNat (x.gr rl).toNat (x.pairOf rl) flags rl = false ∧
        ¬ ∀ w ∈ jobWindows kind (x.gr rd).toNat (x.gr rs).toNat (x.gr rl).toNat (x.pairOf rl) flags, capOk t x w.1 w.2.1 w.2.2 = true then bobFault b C.BOB_E_CAP t
    else if (x.tag tag).st = 1 then bobFault b C.BOB_E_TAG_BUSY t
    else if badParam t kind (x.gr rd).toNat (x.gr rs).toNat (x.gr rl).toNat (x.pairOf rl) flags rl = true then
      tagGoes b tag ⟨2, if kind = 5 ∨ kind = 6 then C.PLT_E_BAD_JOB else C.BOB_E_PARAM, 0⟩ x.jobs x t
    else (zeroJob kind (x.gr rl).toNat (x.pairOf rl)).elim (tagGoes b tag ⟨1, 0, 0⟩ (x.jobs ++ [newJob x kind rd rs rl tag flags]) x t)
      fun r => tagGoes b tag ⟨2, 0, r⟩ x.jobs x t := by
  have windows : ∀ l : List (Nat × Nat × Nat), (l.any (fun w => !capOk t x w.1 w.2.1 w.2.2) = true) = ¬ ∀ w ∈ l, capOk t x w.1 w.2.1 w.2.2 = true := fun l => by
    simp
  unfold stitchIssue
  simp only [windows, Bob.pairOf, newJob]
  generalize zeroJob _ _ _ = o
  by_cases pleat : kind = 5 ∨ kind = 6
  · simp only [stitchPermit, if_pos pleat, Bool.not_eq_true']
    cases o <;> rfl
  · by_cases migrate : kind = 7
    · simp only [stitchPermit, if_neg pleat, if_pos migrate, Bool.not_eq_true']
      cases o <;> rfl
    · simp only [stitchPermit, if_neg pleat, if_neg migrate]
      cases o <;> rfl

/-- The stitch's tag and the stitches of its program have changed, and Axtil may have been told (R268, R577). -/
def tagged (b tag : Nat) (s : State) (v : TagSt) (js : List Job) (t : State) : Prop :=
  (∀ k, (t.bob b).tag k = if k = tag then v else (s.bob b).tag k) ∧ nextAt b { s.bob b with tags := (t.bob b).tags, jobs := js } s t ∧
    t = { s with bobs := t.bobs, out := t.out, regs := t.regs } ∧ regsKept (slotReg b) s t ∧ (s.fget CAL_AXTCFG F.CAL_AXTCFG_EN = 0 → t.out = s.out)

/-- What is claimed of the issue of a stitch: `permit` is its flag of the capability, `bad0` the status of a parameter out of range. -/
def stitchIssues (b kind rd rs rl tag flags : Nat) (permit : Bool) (bad0 : Nat) (s : State) (c : Instr) : Prop :=
  let u := s.bob b
  let bad := badParam s kind (u.gr rd).toNat (u.gr rs).toNat (u.gr rl).toNat (u.pairOf rl) flags rl
  let granted := ∀ w ∈ jobWindows kind (u.gr rd).toNat (u.gr rs).toNat (u.gr rl).toNat (u.pairOf rl) flags, capOk s u w.1 w.2.1 w.2.2 = true
  (rl % 2 = 1 ∨ (kind < 7 ∧ 2 ^ 30 < (u.gr rl).toNat) → bad = true) ∧
  (permit = false → completes c s (faultsWith b C.BOB_E_CAP s)) ∧
  (permit = true → bad = false → ¬ granted → completes c s (faultsWith b C.BOB_E_CAP s)) ∧
  (permit = true → bad = true ∨ granted → (u.tag tag).st = 1 → completes c s (faultsWith b C.BOB_E_TAG_BUSY s)) ∧
  (permit = true → bad = true → (u.tag tag).st ≠ 1 → completes c s (tagged b tag s ⟨2, bad0, 0⟩ u.jobs)) ∧
  (permit = true → bad = false → granted → (u.tag tag).st ≠ 1 → (u.gr rl).toNat = 0 → kind ≠ 5 → kind ≠ 7 → ∃ res, completes c s (tagged b tag s ⟨2, 0, res⟩ u.jobs)) ∧
  (permit = true → bad = false → granted → (u.tag tag).st ≠ 1 → 0 < (u.gr rl).toNat → completes c s fun t => ∃ j : Job, tagged b tag s ⟨1, 0, 0⟩ (u.jobs ++ [j]) t ∧
    j.tag = tag ∧ j.kind = kind ∧ j.flags = flags ∧ j.d = (u.gr rd).toNat ∧ j.s = (u.gr rs).toNat ∧ j.l = (u.gr rl).toNat ∧ j.x = u.pairOf rl ∧ j.after = u.io ∧
    j.prod = none ∧ j.lines = [])

theorem Bob.tag_setTag (x : Bob) (t : Nat) (v : TagSt) (k : Nat) : (x.setTag t v).tag k = if k = t then v else x.tag k := tabGet_tabSet ..

section
variable {s : State} {b w kind rd rs rl tag flags : Nat} {c : Instr}

/-- The program has gone on with its tag in the state given. -/
theorem tagGoes_tagged (h : bobReady s b w) (v : TagSt) (js : List Job) : tagged b tag s v js (tagGoes b tag v js (s.bob b).issued (s.issued b)) := by
  obtain ⟨hb, -, -, -, -, -, -, inside, -⟩ := h
  have inside' : ({ (s.bob b).issued.setTag tag v with jobs := js } : Bob).pc + 1 < ({ (s.bob b).issued.setTag tag v with jobs := js } : Bob).words := inside
  have traced : traceBob b (s.bob b).issued (s.issued b) = { s.issued b with out := (traceBob b (s.bob b).issued (s.issued b)).out } := State.axt_frame ..
  have bobs : ∀ c, (traceBob b (s.bob b).issued (s.issued b)).bob c = (s.issued b).bob c := fun c => by rw [traced]; rfl
  obtain ⟨frame, regs⟩ := retire_frame (u := traceBob b (s.bob b).issued (s.issued b)) hb inside'
  have own := retire_bob (b := b) (u := traceBob b (s.bob b).issued (s.issued b)) inside'
  refine ⟨fun k => ?_, retire_nextAt (fun c hc => ?_) inside' ?_, ?_, ?_, fun off => ?_⟩
  · rw [tagGoes, own]
    exact (s.bob b).issued.tag_setTag tag v k
  · rw [bobs, State.issued_bob, if_neg hc]
  · rw [tagGoes, own]
    rfl
  · rw [tagGoes, frame, traced]
    rfl
  · exact (regsKept.of_regs (by rw [traced]; rfl)).trans regs
  · rw [tagGoes, frame]
    have silent : traceBob b (s.bob b).issued (s.issued b) = s.issued b := State.axt_off (s := s.issued b) off _ _ _
    show (traceBob b (s.bob b).issued (s.issued b)).out = s.out
    rw [silent]
    rfl

/-- What the issue of a stitch does when the program holds no status. -/
theorem completes_stitch {P : State → Prop} (run : exec c s = stitchCmd b kind rd rs rl tag flags s) (hk : kind < 8) (h1 : rd < 32) (h2 : rs < 32) (h3 : rl < 32)
    (h4 : tag < 16) (h5 : flags < 8) (held : (s.bob b).held = 0)
    (h : bobReady s b (0x38 * 2 ^ 26 + kind * 2 ^ 22 + rd * 2 ^ 17 + rs * 2 ^ 12 + rl * 2 ^ 7 + tag * 2 ^ 3 + flags))
    (effect : P (stitchIssue b kind rd rs rl tag flags (s.bob b).issued (s.issued b))) : completes c s P := by
  refine completes_issue h run (wordE_eq (by omega) h1 h2 h3 h4 h5) rfl ?_
  rw [orHeld, if_neg (fun n : (s.bob b).issued.held ≠ 0 => n held)]
  exact effect

/-- An odd register number, or too long a range, is out of range for every kind that has bytes (R269). -/
theorem badParam_of_length {s : State} {d sr l x : Nat} (h : rl % 2 = 1 ∨ (kind < 7 ∧ 2 ^ 30 < l)) : badParam s kind d sr l x flags rl = true := by
  by_cases odd : rl % 2 = 1
  · exact if_pos odd
  · obtain ⟨hk, hl⟩ := h.resolve_left odd
    simp only [badParam, if_neg odd, if_neg (show kind ≠ 7 by omega), decide_eq_true hl, Bool.or_true, Bool.true_or]

theorem stitch_issues (run : exec c s = stitchCmd b kind rd rs rl tag flags s) (hk : kind < 8) (h1 : rd < 32) (h2 : rs < 32) (h3 : rl < 32) (h4 : tag < 16) (h5 : flags < 8)
    (held : (s.bob b).held = 0) (h : bobReady s b (0x38 * 2 ^ 26 + kind * 2 ^ 22 + rd * 2 ^ 17 + rs * 2 ^ 12 + rl * 2 ^ 7 + tag * 2 ^ 3 + flags)) :
    stitchIssues b kind rd rs rl tag flags (stitchPermit (s.bob b) kind flags) (if kind = 5 ∨ kind = 6 then C.PLT_E_BAD_JOB else C.BOB_E_PARAM) s c := by
  have effect : ∀ {P : State → Prop} {t : State}, stitchIssue b kind rd rs rl tag flags (s.bob b).issued (s.issued b) = t → P t → completes c s P :=
    fun e p => completes_stitch run hk h1 h2 h3 h4 h5 held h (e ▸ p)
  have eq := stitchIssue_eq b kind rd rs rl tag flags (s.bob b).issued (s.issued b)
  have permitted : stitchPermit (s.bob b).issued kind flags = stitchPermit (s.bob b) kind flags := rfl
  have bads : ∀ d sr l y, badParam (s.issued b) kind d sr l y flags rl = badParam s kind d sr l y flags rl := fun _ _ _ _ => rfl
  have caps : ∀ w : Nat × Nat × Nat, capOk (s.issued b) (s.bob b).issued w.1 w.2.1 w.2.2 = capOk s (s.bob b) w.1 w.2.1 w.2.2 := fun _ => rfl
  have tags : (s.bob b).issued.tag tag = (s.bob b).tag tag := rfl
  have grs : ∀ k, (s.bob b).issued.gr k = (s.bob b).gr k := fun _ => rfl
  have pair : (s.bob b).issued.pairOf rl = (s.bob b).pairOf rl := rfl
  simp only [permitted, bads, caps, tags, grs, pair] at eq
  refine ⟨badParam_of_length, fun p => ?_, fun p nb ng => ?_, fun p bg busy => ?_, fun p hbad idle => ?_, fun p nb g idle zero n5 n7 => ?_, fun p nb g idle long => ?_⟩
  · exact effect (eq.trans (if_pos p)) (issued_faultsWith h (by decide))
  · rw [if_neg (by simp [p]), if_pos ⟨nb, ng⟩] at eq
    exact effect eq (issued_faultsWith h (by decide))
  · rw [if_neg (by simp [p]), if_neg (fun no => bg.elim (fun hb => by simp [hb] at no) no.2), if_pos busy] at eq
    exact effect eq (issued_faultsWith h (by decide))
  · rw [if_neg (by simp [p]), if_neg (fun no => by simp [hbad] at no), if_neg idle, if_pos hbad] at eq
    exact effect eq (tagGoes_tagged h _ _)
  · rw [if_neg (by simp [p]), if_neg (fun no => no.2 g), if_neg idle, if_neg (by simp [nb])] at eq
    have once : ∃ r, zeroJob kind ((s.bob b).gr rl).toNat ((s.bob b).pairOf rl) = some r := by simp [zeroJob, zero, n5, n7]
    obtain ⟨r, hr⟩ := once
    rw [hr] at eq
    exact ⟨r, effect eq (tagGoes_tagged h _ _)⟩
  · rw [if_neg (by simp [p]), if_neg (fun no => no.2 g), if_neg idle, if_neg (by simp [nb])] at eq
    have later : zeroJob kind ((s.bob b).gr rl).toNat ((s.bob b).pairOf rl) = none := if_pos (.inl (by omega))
    rw [later] at eq
    exact effect eq ⟨newJob (s.bob b).issued kind rd rs rl tag flags, tagGoes_tagged h _ _, rfl, rfl, rfl, rfl, rfl, rfl, rfl, rfl, rfl, rfl⟩

end

end Sys2Proof.Machine
end

section
/-! PROOF. How a stitch ends, and how its tag answers, O42 (R268, R273, R278). -/

namespace Sys2Proof.Machine

/-! WAIT, TEST and TRES (R278). -/

section
variable {s : State} {b rd tag : Nat}

/-- An instruction that reads a tag puts `v` in rd. -/
theorem tagRead_gives {c : Instr} {op : Nat} {f : TagSt → Word} (run : exec c s = .next (issue b (if tag < 16 then wordB op rd 0 tag else none) []
    (fun x t => retire b (x.setG rd (f (x.tag tag))) t) s)) (h1 : rd < 32) (h4 : tag < 16) (h : bobReady s b (op * 2 ^ 26 + rd * 2 ^ 21 + tag)) :
    completes c s (wroteG b rd (f ((s.bob b).tag tag)) s) := by
  have word : (if tag < 16 then wordB op rd 0 tag else none) = some (op * 2 ^ 26 + rd * 2 ^ 21 + tag) := by
    rw [if_pos h4, wordB_eq op h1 (by decide) (by omega), Nat.zero_mul, Nat.add_zero]
  exact completes_issue h run word rfl (wroteG_retire h rd _)

/-- What is claimed of an instruction that reads a tag: `running` and `done` are its answers while the stitch runs and after it. -/
def tagReads (b rd tag : Nat) (s : State) (c : Instr) (op running done : Nat) : Prop :=
  bobReady s b (op * 2 ^ 26 + rd * 2 ^ 21 + tag) →
    (op = 0x30 → ((s.bob b).tag tag).st = 1 → exec c s = .next s) ∧
    (op ≠ 0x30 → ((s.bob b).tag tag).st = 1 → completes c s (wroteG b rd (BitVec.ofNat 64 running) s)) ∧
    (((s.bob b).tag tag).st = 2 → completes c s (wroteG b rd (BitVec.ofNat 64 done) s)) ∧
    (((s.bob b).tag tag).st = 0 → completes c s (wroteG b rd 0 s))

theorem stWait_reads (h1 : rd < 32) (h4 : tag < 16) : tagReads b rd tag s (.stWait b rd tag) 0x30 0 ((s.bob b).tag tag).status := fun h => by
  have ends (n : ((s.bob b).tag tag).st ≠ 1) :=
    tagRead_gives (s := s) (c := .stWait b rd tag) (op := 0x30) (f := fun g => if g.st = 2 then BitVec.ofNat 64 g.status else 0) (congrArg Host.Outcome.next (if_neg n)) h1 h4 h
  refine ⟨fun _ running => congrArg Host.Outcome.next (if_pos running), fun n => absurd rfl n, fun two => ?_, fun zero => ?_⟩
  · have e := ends (by omega)
    rwa [if_pos two] at e
  · have e := ends (by omega)
    rwa [if_neg (by omega)] at e

theorem stTest_reads (h1 : rd < 32) (h4 : tag < 16) : tagReads b rd tag s (.stTest b rd tag) 0x31 C.BOB_S_PENDING ((s.bob b).tag tag).status := fun h => by
  have ends := tagRead_gives (f := fun g => BitVec.ofNat 64 (if g.st = 2 then g.status else if g.st = 1 then C.BOB_S_PENDING else 0)) (c := .stTest b rd tag) rfl h1 h4 h
  refine ⟨fun n => absurd n (by decide), fun _ one => ?_, fun two => ?_, fun zero => ?_⟩
  · rwa [if_neg (by omega), if_pos one] at ends
  · rwa [if_pos two] at ends
  · rwa [if_neg (by omega), if_neg (by omega)] at ends

theorem stTres_reads (h1 : rd < 32) (h4 : tag < 16) : tagReads b rd tag s (.stTres b rd tag) 0x32 0 ((s.bob b).tag tag).result := fun h => by
  have ends := tagRead_gives (f := fun g => if g.st = 2 then BitVec.ofNat 64 g.result else 0) (c := .stTres b rd tag) rfl h1 h4 h
  refine ⟨fun n => absurd n (by decide), fun _ one => ?_, fun two => ?_, fun zero => ?_⟩
  · rwa [if_neg (by omega)] at ends
  · rwa [if_pos two] at ends
  · rwa [if_neg (by omega)] at ends

end

/-! The data mover's run of a stitch whose source and product are in the scratchpad (R271, R273, R278). -/

section
variable {s : State} {b tag : Nat} {j : Job}

/-- The only stitch of a program runs when no earlier store is left. -/
theorem jobMayRun_single (jobs : (s.bob b).jobs = [j]) (own : j.tag = tag) (stores : (s.bob b).stores = []) (core : coreOpen s = true)
    (runs : (s.bob b).run = 1 ∨ (s.bob b).run = 2) (passes : classHeld s b = false) : jobMayRun s b tag = some j := by
  simp [jobMayRun, jobs, own, stores, core, runs, passes]

/-- A stitch without work in a Pleat unit loses none. -/
theorem laneLost_none (free : ∀ w ∈ s.tier.pleat, w.la ≠ jobWork b j.tag) : laneLost s b j = false := by
  refine List.any_eq_false.2 fun w hw => ?_
  simp [free w hw]

theorem laneDrop_none {cls key : Nat} (free : ∀ w ∈ s.tier.pleat, w.la ≠ key) : laneDrop s cls key = s := by
  have all : s.tier.pleat.filter (fun w => !(w.la == key && w.cls == cls)) = s.tier.pleat := List.filter_eq_self.2 fun w hw => by simp [free w hw]
  rw [laneDrop, all]

/-- A stitch that is done makes its tag DONE. -/
theorem stitchDone_eq {st r : Nat} {t : State} (may : jobMayRun s b tag = some j) (kind : j.kind ≠ 7) (run : jobRun b (jobFuel j) j s = (.done st r, t)) :
    stitchDone b tag s = tagDone b tag st r t := by
  simp only [stitchDone, may, if_neg (fun h : j.kind = 7 ∧ bit j.flags 2 = true => kind h.1), if_neg kind, run]

/-- A stitch whose product is in place is done. -/
theorem jobRun_placed {st r : Nat} (n : Nat) (prod : j.prod = some (st, r, [])) (free : ∀ w ∈ s.tier.pleat, w.la ≠ jobWork b j.tag) :
    jobRun b (n + 1) j s = (.done st r, s) := by
  simp [jobRun, prod, laneLost_none free]

/-- The source bytes of a stitch whose source is in the scratchpad. -/
def scrSource (x : Bob) (j : Job) : Bytes := if j.kind = 1 then [] else scrBytes x j.s j.l

/-- A stitch of the first kinds whose source is in the scratchpad has it at once. -/
theorem jobRun_scratch (n : Nat) (prod : j.prod = none) (source : jobSource j = none) (calm : j.racy = false) (kind : j.kind < 5) (lost : (s.bob b).lost = [])
    (free : ∀ w ∈ s.tier.pleat, w.la ≠ jobWork b j.tag) :
    jobRun b (n + 1) j s = jobRun b n (jobCompute b 0 j (scrSource (s.bob b) j) (fun _ => false) false s).1
      (jobCompute b 0 j (scrSource (s.bob b) j) (fun _ => false) false s).2 := by
  have whole : scrLost (s.bob b) j.s j.l = false := by simp [scrLost, lost]
  have lane : jobLane b j s = (.got s, 0) := if_pos ⟨by omega, by omega⟩
  simp [jobRun, prod, source, calm, whole, laneLost_none free, jobYield, lane, scrSource]

/-- A product for the scratchpad is put there. -/
theorem jobProduct_scratch {st res : Nat} {data : Bytes} {bad : Nat → Bool} (some : data ≠ []) (there : bit j.flags 1 = true) (kind : j.kind ≠ 7)
    (lost : (s.bob b).lost = []) (calm : j.racy = false) : jobProduct b j st res data bad s =
    ({ j with prod := .some (st, res, []), progress := data.length, asked := false }, s.setBob b (scrStore (s.bob b) j.d data)) := by
  have heal : ∀ n, scrHeal (s.bob b) j.d n = s.bob b := fun n => by
    unfold scrHeal
    rw [lost]
    show ({ s.bob b with lost := [] } : Bob) = s.bob b
    rw [← lost]
  have whole : scrNarrowLost (s.bob b) j.d data.length = false := by simp [scrNarrowLost, heal, scrLost, lost]
  simp [jobProduct, some, there, kind, whole, calm, heal]

/-- The stitch has ended with its result, and the scratchpad holds these words. -/
def stitchEnds (b tag res : Nat) (s t : State) : Prop :=
  (∀ k, (t.bob b).tag k = if k = tag then ⟨2, 0, res⟩ else (s.bob b).tag k) ∧
    t.bob b = { s.bob b with tags := (t.bob b).tags, scratch := (t.bob b).scratch, jobs := [] } ∧ othersKept b s t ∧ t = { s with bobs := t.bobs }

/-- The program's state when its only stitch has ended. -/
def Bob.stitched (y : Bob) (tag st res : Nat) : Bob := { y.setTag tag ⟨2, st, res⟩ with jobs := [] }

/-- The end of the program's only stitch: `y` is its state with the product in place. -/
theorem tagDone_ends {u : State} {y : Bob} {st res : Nat} (jobs : (s.bob b).jobs = [j]) (own : j.tag = tag) (free : ∀ w ∈ s.tier.pleat, w.la ≠ jobWork b tag)
    (same : y = { s.bob b with scratch := y.scratch }) (put : u = { s with bobs := u.bobs }) (bobs : ∀ c, u.bob c = if c = b then y else s.bob c) (ok : st = 0) :
    stitchEnds b tag res s (tagDone b tag st res u) ∧ ((tagDone b tag st res u).bob b).scratch = y.scratch := by
  have gone : (y.jobs.filter fun k => k.tag != tag) = [] := by
    rw [same]
    simp [jobs, own]
  have done : tagDone b tag st res u = u.setBob b (y.stitched tag st res) := by
    simp only [tagDone, bobs b, if_pos trivial, gone, Bob.stitched]
    exact laneDrop_none (by rw [put]; exact free)
  have own' : (tagDone b tag st res u).bob b = (y.stitched tag st res) := by rw [done, State.setBob_bob, if_pos rfl]
  refine ⟨⟨fun k => ?_, ?_, fun c hc => ?_, ?_⟩, by rw [own']; rfl⟩
  · rw [own', ← ok]
    refine (y.tag_setTag tag ⟨2, st, res⟩ k).trans ?_
    rw [same]
    rfl
  · rw [own', same]
    rfl
  · rw [done, State.setBob_bob, if_neg hc, bobs, if_neg hc]
  · rw [done, put]
    rfl

/-- The program's only stitch: it has done nothing yet, nothing holds it back, and no word of the scratchpad is lost. -/
def stitchAlone (b tag : Nat) (s : State) (j : Job) : Prop :=
  (s.bob b).jobs = [j] ∧ j.tag = tag ∧ j.prod = none ∧ j.racy = false ∧ (s.bob b).lost = [] ∧ (∀ w ∈ s.tier.pleat, w.la ≠ jobWork b tag) ∧ jobMayRun s b tag = some j

/-- A stitch whose outcome is `res`, with the scratchpad of `y`, ends so. -/
theorem stitch_computes {u : State} {y : Bob} {res p : Nat} (h : stitchAlone b tag s j) (kind : j.kind < 5) (source : jobSource j = none)
    (compute : jobCompute b 0 j (scrSource (s.bob b) j) (fun _ => false) false s = ({ j with prod := some (0, res, []), progress := p, asked := false }, u))
    (same : y = { s.bob b with scratch := y.scratch }) (put : u = { s with bobs := u.bobs }) (bobs : ∀ c, u.bob c = if c = b then y else s.bob c) :
    stitchEnds b tag res s (stitchDone b tag s) ∧ ((stitchDone b tag s).bob b).scratch = y.scratch := by
  obtain ⟨jobs, own, prod, calm, lost, free, may⟩ := h
  have free' : ∀ w ∈ s.tier.pleat, w.la ≠ jobWork b j.tag := own ▸ free
  have run : jobRun b (jobFuel j) j s = (.done 0 res, u) := by
    refine (jobRun_scratch _ prod source calm kind lost free').trans ?_
    rw [compute]
    exact jobRun_placed _ rfl (by rw [put]; exact free')
  rw [stitchDone_eq may (by omega) run]
  exact tagDone_ends jobs own free same put bobs rfl

/-- A stitch with a product in the scratchpad stores it there. -/
theorem stitch_stores {data : Bytes} {res : Nat} (h : stitchAlone b tag s j) (kind : j.kind < 5) (source : jobSource j = none) (some : data ≠ []) (there : bit j.flags 1 = true)
    (compute : jobCompute b 0 j (scrSource (s.bob b) j) (fun _ => false) false s = jobProduct b j 0 res data (fun _ => false) s) :
    stitchEnds b tag res s (stitchDone b tag s) ∧
      ∀ k, scrByte ((stitchDone b tag s).bob b) k = if j.d ≤ k ∧ k < j.d + data.length then data.getD (k - j.d) 0 % 256 else scrByte (s.bob b) k := by
  have ⟨_, _, _, calm, lost, _, _⟩ := h
  obtain ⟨ends, scratch⟩ := stitch_computes (y := scrStore (s.bob b) j.d data) h kind source (compute.trans (jobProduct_scratch some there (by omega) lost calm))
    (scrStore_frame ..) rfl (fun c => by rw [State.setBob_bob])
  refine ⟨ends, fun k => ?_⟩
  rw [← scrByte_scrStore]
  unfold scrByte scrWord
  rw [scratch]

end

/-! Bytes that a stitch yields. -/

theorem length_scrBytes (x : Bob) (a n : Nat) : (scrBytes x a n).length = n := by simp [scrBytes]

theorem getD_scrBytes {x : Bob} {a n i : Nat} (h : i < n) : (scrBytes x a n).getD i 0 = scrByte x (a + i) := by simp [scrBytes, List.getD, h]

/-- A pattern of eight bytes, repeated. -/
def fillBytes (n v : Nat) : Bytes := (List.range n).flatMap fun _ => leBytes 8 v

theorem fillBytes_succ (n v : Nat) : fillBytes (n + 1) v = fillBytes n v ++ leBytes 8 v := by simp [fillBytes, List.range_succ]

theorem length_fillBytes (n v : Nat) : (fillBytes n v).length = 8 * n := by
  induction n with
  | zero => rfl
  | succ n ih => rw [fillBytes_succ, List.length_append, ih, length_leBytes]; rfl

theorem getD_fillBytes {n i : Nat} (h : i < 8 * n) (v : Nat) : (fillBytes n v).getD i 0 = v / 2 ^ (8 * (i % 8)) % 256 := by
  induction n with
  | zero => omega
  | succ n ih =>
    have long := length_fillBytes n v
    rw [fillBytes_succ]
    by_cases before : i < 8 * n
    · rw [List.getD_append _ _ _ _ (by omega), ih before]
    · rw [List.getD_append_right _ _ _ _ (by omega), getD_leBytes (by omega), Nat.pow_mul, long, show i - 8 * n = i % 8 by omega]

/-- Numbers of `n` bytes survive the round trip. -/
theorem leNat_leBytes (n v : Nat) : leNat (leBytes n v) = v % 256 ^ n := by
  induction n generalizing v with
  | zero => simp [leBytes, leNat, Nat.mod_one]
  | succ n ih => rw [leBytes, leNat, ih, Nat.mod_mod, Nat.pow_succ', Nat.mod_mul]

/-- The bytes of a word of the scratchpad. -/
theorem scrBytes_word {x : Bob} {a : Nat} (h : a % 8 = 0) : scrBytes x a 8 = leBytes 8 (scrWord x (a / 8)) := by
  refine List.ext_getElem (by rw [length_scrBytes, length_leBytes]) fun i h1 h2 => ?_
  rw [length_scrBytes] at h1
  rw [← List.getD_eq_getElem _ 0, ← List.getD_eq_getElem _ 0, getD_scrBytes h1, getD_leBytes h1]
  unfold scrByte
  rw [show (a + i) / 8 = a / 8 by omega, show (a + i) % 8 = i by omega, Nat.pow_mul]

/-- Eight aligned bytes are their word. -/
theorem leNat_scrBytes {x : Bob} {a : Nat} (h : a % 8 = 0) : leNat (scrBytes x a 8) = scrWord x (a / 8) := by
  rw [scrBytes_word h, leNat_leBytes, Nat.mod_eq_of_lt (show scrWord x (a / 8) < 256 ^ 8 from scrWord_lt x _)]

/-! SCAN (R273). -/

theorem scrBytes_drop (x : Bob) (a n : Nat) : (scrBytes x a (n + 8)).take 8 = scrBytes x a 8 ∧ (scrBytes x a (n + 8)).drop 8 = scrBytes x (a + 8) n := by
  constructor
  · unfold scrBytes
    rw [← List.map_take, List.take_range, Nat.min_eq_left (by omega)]
  · refine List.ext_getElem (by simp [length_scrBytes]) fun i h1 h2 => ?_
    simp [scrBytes, Nat.add_assoc]

/-- The word at offset `o` of the range from `a` on matches. -/
def scanHit (x : Bob) (a mask pat o : Nat) : Prop := scrWord x ((a + o) / 8) &&& mask = pat &&& mask

/-- The offset found is that of the first match, and there is none if none is found. -/
theorem scanFrom_spec {x : Bob} {a : Nat} (mask pat n i : Nat) (h : a % 8 = 0) (hi : i % 8 = 0) :
    (∀ r, scanFrom mask pat (n + 1) (scrBytes x (a + i) (8 * n)) i = some r →
      r % 8 = 0 ∧ i ≤ r ∧ r < i + 8 * n ∧ scanHit x a mask pat r ∧ ∀ o, o % 8 = 0 → i ≤ o → o < r → ¬ scanHit x a mask pat o) ∧
    (scanFrom mask pat (n + 1) (scrBytes x (a + i) (8 * n)) i = none → ∀ o, o % 8 = 0 → i ≤ o → o < i + 8 * n → ¬ scanHit x a mask pat o) := by
  induction n generalizing i with
  | zero =>
    have short : scanFrom mask pat 1 (scrBytes x (a + i) 0) i = none := if_pos (by rw [length_scrBytes]; decide)
    rw [Nat.mul_zero, Nat.zero_add, short]
    exact ⟨fun r e => (nomatch e), fun _ o _ h1 h2 => by omega⟩
  | succ n ih =>
    obtain ⟨hit, rest⟩ := scrBytes_drop x (a + i) (8 * n)
    have step : scanFrom mask pat (n + 1 + 1) (scrBytes x (a + i) (8 * (n + 1))) i =
        if scrWord x ((a + i) / 8) &&& mask = pat &&& mask then some i else scanFrom mask pat (n + 1) (scrBytes x (a + (i + 8)) (8 * n)) (i + 8) := by
      rw [Nat.mul_succ, scanFrom, if_neg (by rw [length_scrBytes]; omega), hit, rest, leNat_scrBytes (by omega), Nat.add_assoc]
    rw [step]
    split
    next first =>
      refine ⟨fun r e => ?_, fun e => (nomatch e)⟩
      obtain rfl := Option.some.inj e
      exact ⟨hi, le_refl _, by omega, first, fun o _ h1 h2 => by omega⟩
    next other =>
      obtain ⟨found, none⟩ := ih (i + 8) (by omega)
      have later : ∀ o, o % 8 = 0 → i ≤ o → o ≠ i → i + 8 ≤ o := fun o h1 h2 h3 => by omega
      refine ⟨fun r e => ?_, fun e o h1 h2 h3 => ?_⟩
      · obtain ⟨r1, r2, r3, r4, r5⟩ := found r e
        refine ⟨r1, by omega, by omega, r4, fun o h1 h2 h3 => ?_⟩
        by_cases here : o = i
        · exact here ▸ other
        · exact r5 o h1 (later o h1 h2 here) h3
      · by_cases here : o = i
        · exact here ▸ other
        · exact none e o h1 (later o h1 h2 here) (by omega)

/-- SCAN of an aligned range of the scratchpad. -/
theorem scan_spec {x : Bob} {a l : Nat} (mask pat : Nat) (h : a % 8 = 0) (hl : l % 8 = 0) :
    (∀ r, scan mask pat (scrBytes x a l) = some r → r % 8 = 0 ∧ r < l ∧ scanHit x a mask pat r ∧ ∀ o, o % 8 = 0 → o < r → ¬ scanHit x a mask pat o) ∧
    (scan mask pat (scrBytes x a l) = none → ∀ o, o % 8 = 0 → o < l → ¬ scanHit x a mask pat o) := by
  obtain ⟨found, none⟩ := scanFrom_spec (x := x) mask pat (l / 8) 0 h rfl
  rw [Nat.add_zero, show 8 * (l / 8) = l by omega] at found none
  have eq : scan mask pat (scrBytes x a l) = scanFrom mask pat (l / 8 + 1) (scrBytes x a l) 0 := by rw [scan, length_scrBytes]
  rw [eq]
  refine ⟨fun r e => ?_, fun e o h1 h2 => none e o h1 (Nat.zero_le _) (by omega)⟩
  obtain ⟨r1, -, r3, r4, r5⟩ := found r e
  exact ⟨r1, by omega, r4, fun o h1 h2 => r5 o h1 (Nat.zero_le _) h2⟩

/-! The stitches that stay in the scratchpad (R271, R273). -/

section
variable {s : State} {b tag : Nat} {j : Job}

/-- FILL of aligned words. -/
theorem fill_ends (h : stitchAlone b tag s j) (long : 0 < j.l) (kind : j.kind = 1) (flags : j.flags = 2) (hd : j.d % 8 = 0) (hl : j.l % 8 = 0) :
    stitchEnds b tag j.l s (stitchDone b tag s) ∧
      ∀ k, scrByte ((stitchDone b tag s).bob b) k = if j.d ≤ k ∧ k < j.d + j.l then j.s / 2 ^ (8 * (k % 8)) % 256 else scrByte (s.bob b) k := by
  have size : (fillBytes (j.l / 8) j.s).length = j.l := by rw [length_fillBytes]; omega
  have compute : jobCompute b 0 j (scrSource (s.bob b) j) (fun _ => false) false s = jobProduct b j 0 j.l (fillBytes (j.l / 8) j.s) (fun _ => false) s := by
    simp [jobCompute, kind, fillBytes]
  obtain ⟨ends, bytes⟩ := stitch_stores h (by omega) (if_pos kind) (fun e => by simp [e] at size; omega) (by rw [flags]; decide) compute
  refine ⟨ends, fun k => ?_⟩
  rw [bytes, size]
  by_cases inside : j.d ≤ k ∧ k < j.d + j.l
  · rw [if_pos inside, if_pos inside, getD_fillBytes (by omega), Nat.mod_mod, show (k - j.d) % 8 = k % 8 by omega]
  · rw [if_neg inside, if_neg inside]

/-- COPY within the scratchpad, without overlap. -/
theorem copy_ends (h : stitchAlone b tag s j) (long : 0 < j.l) (kind : j.kind = 0) (flags : j.flags = 3) (apart : j.s + j.l ≤ j.d ∨ j.d + j.l ≤ j.s) :
    stitchEnds b tag j.l s (stitchDone b tag s) ∧
      ∀ k, scrByte ((stitchDone b tag s).bob b) k = if j.d ≤ k ∧ k < j.d + j.l then scrByte (s.bob b) (j.s + (k - j.d)) else scrByte (s.bob b) k := by
  have size := length_scrBytes (s.bob b) j.s j.l
  have source : scrSource (s.bob b) j = scrBytes (s.bob b) j.s j.l := if_neg (by omega)
  have clear : overlap j.s j.l j.d j.l = false := by simp [overlap]; omega
  have compute : jobCompute b 0 j (scrSource (s.bob b) j) (fun _ => false) false s = jobProduct b j 0 j.l (scrBytes (s.bob b) j.s j.l) (fun _ => false) s := by
    simp [jobCompute, kind, source, clear, size]
  have inside : jobSource j = none := by rw [jobSource, kind, flags]; rfl
  obtain ⟨ends, bytes⟩ := stitch_stores h (by omega) inside (fun e => by simp [e] at size; omega) (by rw [flags]; decide) compute
  refine ⟨ends, fun k => ?_⟩
  rw [bytes, size]
  by_cases within : j.d ≤ k ∧ k < j.d + j.l
  · rw [if_pos within, if_pos within, getD_scrBytes (by omega)]
    exact Nat.mod_eq_of_lt (Nat.mod_lt _ (by decide))
  · rw [if_neg within, if_neg within]

/-- SCAN of aligned words of the scratchpad. -/
theorem scan_ends (h : stitchAlone b tag s j) (kind : j.kind = 4) (flags : j.flags = 1) :
    stitchEnds b tag ((scan j.d j.x (scrBytes (s.bob b) j.s j.l)).getD (2 ^ 64 - 1)) s (stitchDone b tag s) ∧
      ((stitchDone b tag s).bob b).scratch = (s.bob b).scratch := by
  have source : scrSource (s.bob b) j = scrBytes (s.bob b) j.s j.l := if_neg (by omega)
  have inside : jobSource j = none := by rw [jobSource, kind, flags]; rfl
  refine stitch_computes (u := s) (y := s.bob b) (p := j.progress) h (by omega) inside ?_ rfl rfl (fun c => ?_)
  · simp [jobCompute, kind, source, jobProduct]
  · split
    next e => rw [e]
    next => rfl

end

end Sys2Proof.Machine

open Sys2Proof Sys2Proof.Machine

/-- Settles O42: the checks of an issue in their order, the answers of a tag, and the run of a stitch that stays in the scratchpad. -/
theorem stitchesIssueAndFinish : Obligations.StitchesIssueAndFinish := by
  intro s b rd rs rl tag flags h1 h2 h3 h4 h5
  have starts {kind : Nat} {c : Instr} (run : exec c s = stitchCmd b kind rd rs rl tag flags s) (hk : kind < 8) := stitch_issues run hk h1 h2 h3 h4 h5
  refine ⟨starts rfl (by decide), starts rfl (by decide), starts rfl (by decide), starts rfl (by decide), starts rfl (by decide), starts rfl (by decide),
    starts rfl (by decide), fun low held h => ?_, fun high held h => ?_, ⟨stWait_reads h1 h4, stTest_reads h1 h4, stTres_reads h1 h4⟩, ?_⟩
  · have off : bit flags 2 = false := by simp [bit]; omega
    have permit : stitchPermit (s.bob b) 7 flags = bit ((s.bob b).cap.getD 0 0) 4 := by simp [stitchPermit, off, capFlag, capMIGRATE]
    exact permit ▸ starts (if_neg (by simp [off])) (by decide) held h
  · have on : bit flags 2 = true := by simp [bit]; omega
    have permit : stitchPermit (s.bob b) 7 flags = bit ((s.bob b).cap.getD 0 0) 0 := by simp [stitchPermit, on, capFlag, capTIER]
    exact permit ▸ starts (if_pos on) (by decide) held h
  · intro j jobs own lines prod calm long stores lost core free runs passes
    have alone : stitchAlone b tag s j := ⟨jobs, own, prod, calm, lost, free, jobMayRun_single jobs own stores core runs passes⟩
    refine ⟨fun kind flags hd hl _ => ⟨_, rfl, fill_ends alone long kind flags hd hl⟩,
      fun kind flags _ _ apart => ⟨_, rfl, copy_ends alone long kind flags apart⟩, fun kind flags hs hl _ => ?_⟩
    obtain ⟨ends, scratch⟩ := scan_ends alone kind flags
    obtain ⟨found, none⟩ := scan_spec (x := s.bob b) j.d j.x hs hl
    generalize scan j.d j.x (scrBytes (s.bob b) j.s j.l) = result at ends found none
    refine ⟨_, rfl, _, ends, ?_, fun ⟨o, h1, h2, h3⟩ => ?_, fun no => ?_⟩
    · obtain ⟨-, own, -, -⟩ := ends
      rw [scratch] at own
      exact own
    · cases result with
      | none => exact absurd h3 (none rfl o h1 h2)
      | some r => exact found r rfl
    · cases result with
      | none => rfl
      | some r =>
        obtain ⟨r1, r2, r3, -⟩ := found r rfl
        exact absurd r3 (no r r1 r2)
end

section
/-! PROOF. The home side leaves the Bobbins' programs alone: whatever a line request sets off at its home slice (caches, directory, tier, channels, answers, R48, R233), no
program state of a Bobbin is in it. One lemma per function of the model, in the order in which they call each other. Where the lemma holds by computation it
is given as `(rfl)`: `simp` then cites it, and the kernel never has to compare two long states. -/

namespace Sys2Proof.Machine

/-! Requests, ports and reports. -/

@[simp] theorem frontReq_bobs (s : State) (r : HomeReq) : (frontReq s r).bobs = s.bobs := (rfl)
@[simp] theorem notStored_bobs (la : Nat) (s : State) : (notStored la s).bobs = s.bobs := (rfl)
@[simp] theorem portUpd_bobs (s : State) (p : Nat) (f : Port → Port) : (portUpd s p f).bobs = s.bobs := (rfl)

/-- The state in which a request for lanes leaves the machine. -/
def LaneRes.state : LaneRes → State
  | .got s | .wait s | .failed s => s

/-- The state in which a page operation leaves the machine. -/
def OpRes.state : OpRes → State
  | .ok s | .wait s | .failed s | .error _ s => s

/-- A loop of steps that leave the programs alone. -/
theorem foldl_bobs {α : Type} {f : State → α → State} (h : ∀ s x, (f s x).bobs = s.bobs) (l : List α) (s : State) : (l.foldl f s).bobs = s.bobs := by
  induction l generalizing s with
  | nil => rfl
  | cons x r ih => exact (ih _).trans (h s x)

@[simp] theorem notePoison_bobs (s : State) (p dpa : Nat) : (notePoison s p dpa).bobs = s.bobs := (rfl)

@[simp] theorem poisonKnown_bobs (s : State) (la : Nat) (poison : Bool) : (poisonKnown s la poison).bobs = s.bobs := by
  rw [poisonKnown]
  grind [portUpd_bobs, notePoison_bobs, foldl_bobs]

/-! The caches of lines and of descriptors. -/

@[simp] theorem lcPut_bobs (s : State) (k : Nat) (e : Option LcEntry) : (lcPut s k e).bobs = s.bobs := (rfl)
@[simp] theorem dcSetAt_bobs (s : State) (k : Nat) (e : Option DcEntry) : (dcSetAt s k e).bobs = s.bobs := (rfl)

@[simp] theorem dcUpd_bobs (s : State) (page : Nat) (f : DcEntry → DcEntry) : (dcUpd s page f).bobs = s.bobs := by
  rw [dcUpd]
  split <;> simp

@[simp] theorem bumpAcc_bobs (s : State) (page : Nat) : (bumpAcc s page).bobs = s.bobs := by
  simp [bumpAcc]

@[simp] theorem countWb_bobs (s : State) (page : Nat) : (countWb s page).bobs = s.bobs := by
  rw [countWb]
  split <;> simp

/-! Counters, interrupts and frames. -/

@[simp] theorem evTIR_bobs (k : Nat) (s : State) : (evTIR k s).bobs = s.bobs := by
  simp [evTIR]

@[simp] theorem guestAsk_bobs (s : State) (r : HomeReq) : (guestAsk s r).bobs = s.bobs := by
  rw [guestAsk]
  split <;> simp

@[simp] theorem guestWb_bobs (s : State) (la : Nat) (e : LcEntry) : (guestWb s la e).bobs = s.bobs := by
  simp [guestWb]

@[simp] theorem frameEmpty_bobs (s : State) (g : Nat) : (frameEmpty s g).bobs = s.bobs := by
  simp [frameEmpty]

@[simp] theorem noteFail_bobs (s : State) (lpn st : Nat) : (noteFail s lpn st).bobs = s.bobs := by
  rw [noteFail]
  split <;> simp

@[simp] theorem wbRefused_bobs (s : State) (lpn st : Nat) : (wbRefused s lpn st).2.bobs = s.bobs := by
  simp [wbRefused]

@[simp] theorem wbWaits_bobs (s : State) (la lpn : Nat) : (wbWaits s la lpn).2.bobs = s.bobs := by
  rw [wbWaits]
  split <;> simp

@[simp] theorem dropCopy_bobs (s : State) (la : Nat) : (dropCopy s la).bobs = s.bobs := by
  rw [dropCopy]
  split <;> simp

@[simp] theorem cleanPage_bobs (s : State) (lpn n i : Nat) : (cleanPage s lpn n i).bobs = s.bobs := by
  induction n generalizing s i with
  | zero => rfl
  | succ n ih =>
    rw [cleanPage]
    split <;> simp [ih]

@[simp] theorem setBusy_bobs (s : State) (page : Nat) (b : Bool) : (setBusy s page b).bobs = s.bobs := by
  rw [setBusy]
  split <;> simp

@[simp] theorem coreWoken_bobs (s : State) : (coreWoken s).bobs = s.bobs := by
  rw [coreWoken]
  split <;> simp

@[simp] theorem State.irq_bobs (s : State) (n : Nat) : (s.irq n).bobs = s.bobs := by
  rw [State.irq]
  repeat' split
  all_goals simp

@[simp] theorem frameLow_bobs (s : State) (c : Nat) (mirror : Bool) : (frameLow s c mirror).bobs = s.bobs := by
  simp [frameLow, apply_ite State.bobs]

theorem framePopBut_bobs {s : State} {g : Nat} {mirror : Bool} {skip : List Nat} {c f : Nat} {t : State} (h : framePopBut s g mirror skip = some (c, f, t)) :
    t.bobs = s.bobs := by
  rw [framePopBut] at h
  grind [frameLow_bobs, State.setChan_bobs]

theorem framePop_bobs {s : State} {g : Nat} {mirror : Bool} {c f : Nat} {t : State} (h : framePop s g mirror = some (c, f, t)) :
    t.bobs = s.bobs := framePopBut_bobs h

@[simp] theorem dcCopyDrop_bobs (s : State) (page : Nat) : (dcCopyDrop s page).bobs = s.bobs := by
  rw [dcCopyDrop]
  split <;> simp

/-! Channels: writes and the merge buffer. -/

@[simp] theorem mergeDrop_bobs (s : State) (c frame line : Nat) : (mergeDrop s c frame line).bobs = s.bobs := by
  rw [mergeDrop]
  split <;> simp

@[simp] theorem cellsSet_bobs (s : State) (r : RowLine) : (cellsSet s r).bobs = s.bobs := (rfl)

@[simp] theorem linePut_bobs (s : State) (c : Nat) (r : RowLine) : (linePut s c r).bobs = s.bobs := by
  rw [linePut]
  grind [State.setChan_bobs, cellsSet_bobs]

@[simp] theorem cellsWrite_bobs (s : State) (c frame line : Nat) (d : Line) (poison : Bool) : (cellsWrite s c frame line d poison).bobs = s.bobs := by
  simp [cellsWrite]

@[simp] theorem dramWrite_bobs (c frame line : Nat) (d : Line) (poison : Bool) (s : State) : (dramWrite c frame line d poison s).bobs = s.bobs := by
  simp [dramWrite]

/-! Descriptors. -/

@[simp] theorem descStore_bobs (s : State) (lpn : Nat) (d : Desc) : (descStore s lpn d).bobs = s.bobs := by
  simp [descStore, apply_ite State.bobs]

@[simp] theorem dcDrop_bobs (s : State) (page : Nat) : (dcDrop s page).bobs = s.bobs := by
  rw [dcDrop]
  repeat' split
  all_goals simp

@[simp] theorem dcWriteBack_bobs (s : State) (page : Nat) : (dcWriteBack s page).bobs = s.bobs := by
  rw [dcWriteBack]
  split <;> simp

@[simp] theorem dcCopy_bobs (s : State) (page : Nat) (d : Desc) : (dcCopy s page d).bobs = s.bobs := by
  rw [dcCopy]
  grind [dcSetAt_bobs, dcDrop_bobs, dcWriteBack_bobs]

@[simp] theorem addUse_bobs (s : State) (u : Option (Nat × Nat)) (up : Bool) : (addUse s u up).bobs = s.bobs := by
  unfold addUse
  split <;> simp

@[simp] theorem addLive_bobs (s : State) (d : Desc) (up : Bool) : (addLive s d up).bobs = s.bobs := by
  rw [addLive]
  split <;> simp

@[simp] theorem putDesc_bobs (s : State) (page : Nat) (d : Desc) : (putDesc s page d).bobs = s.bobs := by
  rw [putDesc]
  dsimp only
  split
  · rfl
  · split <;> simp

/-! Pages placed, and pages moved to another frame. -/

@[simp] theorem cuUse_bobs (c : Nat) (s : State) : (cuUse c s).bobs = s.bobs := by
  simp [cuUse, apply_ite State.bobs]

@[simp] theorem frameWrite_bobs (x : KeySlot) (lpn c f major : Nat) (p : PageData) (i : Nat) (s : State) : (frameWrite x lpn c f major p i s).bobs = s.bobs := by
  induction p generalizing i s with
  | nil => rfl
  | cons l r ih => exact (ih _ _).trans (dramWrite_bobs ..)

@[simp] theorem placeFrame_bobs (x : KeySlot) (lpn c f major : Nat) (mirror : Bool) (p : PageData) (s : State) :
    (placeFrame x lpn c f major mirror p s).bobs = s.bobs := by
  simp [placeFrame, apply_ite State.bobs]

@[simp] theorem keyIrq_bobs (s : State) : (keyIrq s).bobs = s.bobs := by
  rw [keyIrq]
  split <;> simp

@[simp] theorem epochWarn_bobs (s : State) (k old v : Nat) : (epochWarn s k old v).bobs = s.bobs := by
  rw [epochWarn]
  split <;> simp

@[simp] theorem placeAt_bobs (s : State) (lpn c f k e : Nat) (mirror : Bool) (p : PageData) (acc : Nat) : (placeAt s lpn c f k e mirror p acc).bobs = s.bobs := by
  simp [placeAt]

theorem placePage_bobs {s t : State} {lpn : Nat} {mirror : Bool} {p : PageData} {acc : Nat} (h : placePage s lpn mirror p acc = .ok t) : t.bobs = s.bobs := by
  rw [placePage] at h
  grind [framePop_bobs, setBusy_bobs, placeAt_bobs]

@[simp] theorem unblock_bobs (s : State) (k lpn : Nat) : (unblock s k lpn).bobs = s.bobs := by
  simp [unblock, apply_ite State.bobs]

@[simp] theorem raiseFloor_bobs (s : State) (k e v : Nat) : (raiseFloor s k e v).bobs = s.bobs := by
  simp [raiseFloor, apply_ite State.bobs]

theorem relocate_bobs {s t : State} {lpn : Nat} {d : Desc} (h : relocate s lpn d = .ok t) : t.bobs = s.bobs := by
  rw [relocate] at h
  grind [placePage_bobs, raiseFloor_bobs, cleanPage_bobs, unblock_bobs]

@[simp] theorem wbRelocate_bobs (s : State) (la lpn : Nat) (d : Desc) : (wbRelocate s la lpn d).2.bobs = s.bobs := by
  rw [wbRelocate]
  grind [wbRefused_bobs, wbWaits_bobs, relocate_bobs]

/-! Reads of DRAM, and of hot pages. -/

@[simp] theorem blockPage_bobs (s : State) (k lpn : Nat) : (blockPage s k lpn).bobs = s.bobs := by
  simp [blockPage, apply_ite State.bobs]

@[simp] theorem countNibs_bobs (s : State) (c sub pa : Nat) (ns l : List Nat) : (countNibs s c sub pa ns l).bobs = s.bobs := by
  induction l generalizing s with
  | nil => rfl
  | cons n r ih => simp [countNibs, ih, apply_ite State.bobs]

@[simp] theorem mergeRoom_bobs (s : State) (c : Nat) : (mergeRoom s c).bobs = s.bobs := by
  rw [mergeRoom]
  split <;> simp

@[simp] theorem correct_bobs (s : State) (c frame line : Nat) (x : Line) (later : Bool) (m : Nat) : (correct s c frame line x later m).bobs = s.bobs := by
  simp [correct, apply_ite State.bobs]

@[simp] theorem dramReadVia_bobs (later : Bool) (m c frame line : Nat) (s : State) : (dramReadVia later m c frame line s).2.bobs = s.bobs := by
  rw [dramReadVia]
  grind [State.reportAt_bobs, State.ev_bobs, State.fsat_bobs, State.report_bobs, countNibs_bobs, correct_bobs]

@[simp] theorem dramRead_bobs (c frame line : Nat) (s : State) : (dramRead c frame line s).2.bobs = s.bobs := by
  simp [dramRead]

@[simp] theorem frameRead_bobs (s : State) (x : KeySlot) (la c f : Nat) (major minor : Nat) : (frameRead s x la c f major minor).2.bobs = s.bobs := by
  rw [frameRead]
  grind [cuUse_bobs, dramRead_bobs]

@[simp] theorem noKeyReport_bobs (k la : Nat) (s : State) : (noKeyReport k la s).bobs = s.bobs := (rfl)

@[simp] theorem hotRead_bobs (s : State) (la : Nat) (d : Desc) : (hotRead s la d).2.bobs = s.bobs := by
  rw [hotRead]
  grind [State.ev_bobs, dramWrite_bobs, cuUse_bobs, dramRead_bobs, frameRead_bobs, noKeyReport_bobs]

@[simp] theorem hotPageLines_bobs (lpn : Nat) (d : Desc) (n i : Nat) (s : State) : (hotPageLines lpn d n i s).2.bobs = s.bobs := by
  induction n generalizing i s with
  | zero => rfl
  | succ n ih =>
    have kept := (ih (i + 1) (hotRead s (lpn * 4096 + i * 64) d).2).trans (hotRead_bobs ..)
    rw [hotPageLines]
    split <;> exact kept

@[simp] theorem hotPage_bobs (s : State) (lpn : Nat) (d : Desc) : (hotPage s lpn d).2.bobs = s.bobs := by
  simp [hotPage]

/-! Hot pages written anew. -/

@[simp] theorem reencrypt_bobs (s : State) (lpn : Nat) (d : Desc) (k' e' major : Nat) (ln : Option (Nat × Line × Bool)) :
    (reencrypt s lpn d k' e' major ln).bobs = s.bobs := by
  simp [reencrypt]

@[simp] theorem storeHot_bobs (s : State) (d : Desc) (i : Nat) (ct : Line) (poison : Bool) : (storeHot s d i ct poison).bobs = s.bobs := by
  simp [storeHot, apply_ite State.bobs]

@[simp] theorem writeHot_bobs (s : State) (lpn : Nat) (d : Desc) (i : Nat) (l : Line) (poison : Bool) : (writeHot s lpn d i l poison).2.bobs = s.bobs := by
  rw [writeHot]
  grind [evTIR_bobs, putDesc_bobs, cuUse_bobs, unblock_bobs, raiseFloor_bobs, blockPage_bobs, reencrypt_bobs, storeHot_bobs]

@[simp] theorem dcTouch_bobs (s : State) (page : Nat) : (dcTouch s page).bobs = s.bobs := by
  simp [dcTouch]

@[simp] theorem descCopy_bobs (s : State) (lpn c f l : Nat) : (descCopy s lpn c f l).2.bobs = s.bobs := by
  rw [descCopy]
  grind [State.reportAt_bobs, State.fset_bobs, dramRead_bobs]

@[simp] theorem descLoad_bobs (s : State) (lpn : Nat) : (descLoad s lpn).2.bobs = s.bobs := by
  rw [descLoad]
  grind [State.reportAt_bobs, dramWrite_bobs, descCopy_bobs]

@[simp] theorem descFill_bobs (s : State) (page : Nat) : (descFill s page).bobs = s.bobs := by
  rw [descFill]
  repeat' split
  all_goals simp

theorem placeLost_bobs {s t : State} {lpn : Nat} {d : Desc} {i : Nat} {l : Line} {poison : Bool} (h : placeLost s lpn d i l poison = .ok t) : t.bobs = s.bobs := by
  rw [placeLost] at h
  grind [placePage_bobs, State.fset_bobs, State.reportAt_bobs]

/-! Cold pages: sectors, segments and their repair. -/

@[simp] theorem pltError_bobs (s : State) (u : Nat) (e : PErr) (mode source la : Nat) : (pltError s u e mode source la).bobs = s.bobs := by
  simp [pltError]

@[simp] theorem sectorsWrite_bobs (s : State) (n : Nat) (b : Bytes) (x : Nat) : (sectorsWrite s n b x).bobs = s.bobs := by
  induction n generalizing s b x with
  | zero => rfl
  | succ n ih => simp [sectorsWrite, ih, apply_ite State.bobs]

@[simp] theorem segSettle_bobs (s : State) (lpn : Nat) (d : Desc) (i : Nat) (r : SegRes) : (segSettle s lpn d i r).bobs = s.bobs := by
  unfold segSettle
  split <;> simp

@[simp] theorem settleAll_bobs (lpn : Nat) (d : Desc) (i : Nat) (l : List SegRes) (s : State) : (settleAll lpn d i l s).bobs = s.bobs := by
  induction l generalizing i s with
  | nil => rfl
  | cons r l ih => exact (ih _ _).trans (segSettle_bobs ..)

@[simp] theorem parityFold_bobs (c f l : Nat) (ks : List Nat) (acc : Option Line) (s : State) : (parityFold c f l ks acc s).2.bobs = s.bobs := by
  induction ks generalizing acc s with
  | nil => rfl
  | cons k r ih =>
    have read := dramRead_bobs k f l s
    rw [parityFold]
    grind

@[simp] theorem parityRebuild_bobs (s : State) (c f l : Nat) : (parityRebuild s c f l).2.bobs = s.bobs := by
  simp [parityRebuild]

@[simp] theorem sectorRebuilt_bobs (s : State) (sector : Nat) : (sectorRebuilt s sector).2.bobs = s.bobs := by
  simp [sectorRebuilt]

theorem sectorsRead_bobs {read : State → Nat → Option Line × State} (h : ∀ s x, (read s x).2.bobs = s.bobs) (s : State) (n x : Nat) :
    (sectorsRead read s n x).2.bobs = s.bobs := by
  induction n generalizing s x with
  | zero => rfl
  | succ n ih =>
    rw [sectorsRead]
    split <;> exact (ih _ _).trans (h s x)

@[simp] theorem sectorRead_bobs (s : State) (sector : Nat) : (sectorRead s sector).2.bobs = s.bobs := by
  rw [sectorRead]
  grind [dramRead_bobs, parityRebuild_bobs]

@[simp] theorem segTry_bobs (s : State) (u c lpn : Nat) (d : Desc) (i : Nat) (force : Bool) : (segTry s u c lpn d i force).2.bobs = s.bobs := by
  have plain := sectorsRead_bobs sectorRead_bobs
  have rebuilt := sectorsRead_bobs sectorRebuilt_bobs
  rw [segTry]
  dsimp only
  repeat' split
  all_goals grind [cuUse_bobs, State.ev_bobs, pltError_bobs]

@[simp] theorem coldSegs_bobs (u c lpn : Nat) (d : Desc) (force : Bool) (n i : Nat) (s : State) : (coldSegs u c lpn d force n i s).2.bobs = s.bobs := by
  induction n generalizing i s with
  | zero => rfl
  | succ n ih => exact (ih _ _).trans (segTry_bobs ..)

theorem coldHdr_bobs {read : State → Nat → Option Line × State} (h : ∀ s x, (read s x).2.bobs = s.bobs) (s : State) (lpn : Nat) (d : Desc) :
    (coldHdr read s lpn d).2.bobs = s.bobs := by
  have kept := h s (dSector d)
  rw [coldHdr]
  grind

@[simp] theorem coldAgain_bobs (s : State) (u c lpn : Nat) (d : Desc) : (coldAgain s u c lpn d).2.bobs = s.bobs := by
  have header := coldHdr_bobs sectorRebuilt_bobs s lpn d
  rw [coldAgain]
  grind [pltError_bobs, State.reportAt_bobs, coldSegs_bobs, settleAll_bobs, sectorsWrite_bobs]

@[simp] theorem coldPage_bobs (s : State) (u c lpn : Nat) (d : Desc) : (coldPage s u c lpn d).2.bobs = s.bobs := by
  have header := coldHdr_bobs sectorRead_bobs s lpn d
  rw [coldPage]
  grind [pltError_bobs, coldAgain_bobs, coldSegs_bobs, settleAll_bobs]

/-! The journal, and the lanes of the Pleat units. -/

@[simp] theorem addOp_bobs (s : State) (o : PageOp) : (addOp s o).bobs = s.bobs := (rfl)
@[simp] theorem setStripes_bobs (s : State) (l : List OpenStripe) : (setStripes s l).bobs = s.bobs := (rfl)

@[simp] theorem headNext_bobs (s : State) (g : Nat) : (headNext s g).bobs = s.bobs := by
  simp [headNext, apply_ite State.bobs]

@[simp] theorem closeHead_bobs (s : State) (g : Nat) (early : Bool) : (closeHead s g early).bobs = s.bobs := by
  rw [closeHead]
  split <;> simp

@[simp] theorem appendSector_bobs (s : State) (g : Nat) (l : Line) : (appendSector s g l).bobs = s.bobs := by
  simp [appendSector, apply_ite State.bobs]

@[simp] theorem appendAll_bobs (s : State) (g : Nat) (l : List Line) : (appendAll s g l).bobs = s.bobs := by
  induction l generalizing s with
  | nil => rfl
  | cons x r ih => exact (ih _).trans (appendSector_bobs ..)

/-- The stripes that an append closes early. -/
theorem closeHeads_bobs (g n : Nat) (s : State) : ((List.range n).foldl (fun t _ => closeHead t g true) s).bobs = s.bobs := by
  generalize List.range n = l
  induction l generalizing s with
  | nil => rfl
  | cons x r ih => rw [List.foldl_cons, ih, closeHead_bobs]

theorem journalAppend_bobs {s t : State} {g k f l : Nat} {sects : List Line} {useReserve : Bool} (h : journalAppend s g sects useReserve = .ok (k, f, l, t)) :
    t.bobs = s.bobs := by
  rw [journalAppend] at h
  dsimp only at h
  generalize (if appendWraps s g sects.length then stripesOf s g - headStripe s g else 0) = n at h
  split at h
  · cases h
  · split at h
    all_goals
      split at h <;> cases h
      exact (appendAll_bobs ..).trans (closeHeads_bobs ..)

@[simp] theorem compressAppend_bobs (s : State) (u lpn : Nat) (d : Desc) (p : PageData) (kind bob rd : Nat) (merged : List (Nat × Line)) :
    (compressAppend s u lpn d p kind bob rd merged).state.bobs = s.bobs := by
  rw [compressAppend]
  dsimp only
  repeat' split
  all_goals grind [OpRes.state, State.ev_bobs, State.diagAdd_bobs, State.report_bobs, addOp_bobs, journalAppend_bobs, cuUse_bobs]

@[simp] theorem setPromos_bobs (s : State) (l : List Promo) : (setPromos s l).bobs = s.bobs := (rfl)

@[simp] theorem appendRefused_bobs (s : State) (g st : Nat) (merge : Bool) : (appendRefused s g st merge).bobs = s.bobs := by
  simp [appendRefused, apply_ite State.bobs]

@[simp] theorem laneDrop_bobs (s : State) (cls key : Nat) : (laneDrop s cls key).bobs = s.bobs := (rfl)

@[simp] theorem promoOver_bobs (s : State) (lpn : Nat) : (promoOver s lpn).bobs = s.bobs := by
  simp [promoOver]

@[simp] theorem promoGiveUp_bobs (s : State) (lpn key : Nat) : (promoGiveUp s lpn key).bobs = s.bobs := by
  rw [promoGiveUp]
  repeat' split
  all_goals simp

@[simp] theorem dropWork_bobs (s : State) (w : PleatWork) : (dropWork s w).bobs = s.bobs := (rfl)

@[simp] theorem pleatAsk_bobs (s : State) (u cls la need : Nat) (enc : Bool) : (pleatAsk s u cls la need enc).bobs = s.bobs := by
  rw [pleatAsk]
  split <;> simp

@[simp] theorem laneFor_bobs (s : State) (u cls key need : Nat) (enc : Bool) : (laneFor s u cls key need enc).state.bobs = s.bobs := by
  rw [laneFor]
  grind [LaneRes.state, pleatAsk_bobs, dropWork_bobs]

/-! Write-backs to a cold page. -/

@[simp] theorem wbMerge_bobs (s : State) (la lpn : Nat) (d : Desc) (l : Line) (poison : Bool) : (wbMerge s la lpn d l poison).2.bobs = s.bobs := by
  rw [wbMerge]
  dsimp only
  repeat' split
  all_goals grind [setBusy_bobs, coldPage_bobs, compressAppend_bobs, setPromos_bobs, appendRefused_bobs, promoGiveUp_bobs, laneFor_bobs, LaneRes.state, OpRes.state]

@[simp] theorem promoGo_bobs (s : State) (lpn key : Nat) (d : Desc) (ln : Option (Nat × Line × Bool)) (c f : Nat) (mirror : Bool) :
    (promoGo s lpn key d ln c f mirror).state.bobs = s.bobs := by
  rw [promoGo]
  grind [evTIR_bobs, placeAt_bobs, coldPage_bobs, promoOver_bobs, promoGiveUp_bobs, laneFor_bobs, LaneRes.state, OpRes.state]

@[simp] theorem promotePage_bobs (s : State) (lpn key : Nat) (d : Desc) (la : Option Nat) (ln : Option (Nat × Line × Bool)) :
    (promotePage s lpn key d la ln).state.bobs = s.bobs := by
  rw [promotePage]
  grind [OpRes.state, promoGo_bobs, framePop_bobs, setBusy_bobs, setPromos_bobs]

@[simp] theorem wbCold_bobs (s : State) (la lpn : Nat) (d : Desc) (l : Line) (poison : Bool) : (wbCold s la lpn d l poison).2.bobs = s.bobs := by
  rw [wbCold]
  grind [noteFail_bobs, wbWaits_bobs, promoGiveUp_bobs, wbMerge_bobs, promotePage_bobs, OpRes.state]

/-! Write-backs. -/

@[simp] theorem wbTier_bobs (s : State) (la : Nat) (l : Line) (poison : Bool) : (wbTier s la l poison).2.bobs = s.bobs := by
  rw [wbTier]
  dsimp only
  repeat' split
  all_goals grind [notStored_bobs, descFill_bobs, wbWaits_bobs, writeHot_bobs, wbRelocate_bobs, wbCold_bobs, placeLost_bobs, wbRefused_bobs]

@[simp] theorem evDIR_bobs (k : Nat) (s : State) : (evDIR k s).bobs = s.bobs := by
  simp [evDIR]

@[simp] theorem recallGo_bobs (s : State) (r : Recall) : (recallGo s r).bobs = s.bobs := by
  rw [recallGo]
  split <;> simp

@[simp] theorem sendRecall_bobs (s : State) (la b kind : Nat) (unknown : Bool) : (sendRecall s la b kind unknown).bobs = s.bobs := by
  simp [sendRecall, apply_ite State.bobs]

@[simp] theorem lcDrop_bobs (s : State) (la : Nat) : (lcDrop s la).bobs = s.bobs := by
  rw [lcDrop]
  grind [lcPut_bobs, dropCopy_bobs]

/-- The state part of an outcome. -/
theorem snd_bobs {α : Type} (w : α) (t : State) : (w, t).2.bobs = t.bobs := (rfl)

@[simp] theorem wbOnce_bobs (s : State) (la : Nat) : (wbOnce s la).2.bobs = s.bobs := by
  rw [wbOnce]
  split
  · rfl
  · split
    · rfl
    · dsimp only
      split
      · split <;> simp
      · split
        case h_5 => exact (snd_bobs _ _).trans (wbTier_bobs ..)
        all_goals simp [apply_ite State.bobs]

@[simp] theorem setWbQueue_bobs (s : State) (q : List Nat) : (setWbQueue s q).bobs = s.bobs := (rfl)

@[simp] theorem wbLine_bobs (s : State) (la : Nat) : (wbLine s la).2.bobs = s.bobs := by
  rw [wbLine]
  grind [promoGiveUp_bobs, wbOnce_bobs, setWbQueue_bobs]

@[simp] theorem qosMiss_bobs (s : State) (m r short : Nat) : (qosMiss s m r short).bobs = s.bobs := by
  simp [qosMiss, apply_ite State.bobs]

@[simp] theorem lcTake_bobs (s : State) (k m : Nat) : (lcTake s k m).bobs = s.bobs := by
  rw [lcTake]
  split <;> simp [apply_ite State.bobs]

/-! Lines placed in the cache. -/

@[simp] theorem makeWay_bobs (s : State) (base m n : Nat) (skip : List Nat) : (makeWay s base m n skip).2.bobs = s.bobs := by
  induction n generalizing s skip with
  | zero => rfl
  | succ n ih =>
    rw [makeWay]
    dsimp only
    repeat' split
    all_goals simp [ih]

@[simp] theorem placeCopy_bobs (s : State) (la : Nat) (d : Line) (st : LcState) (m : Nat) : (placeCopy s la d st m).2.bobs = s.bobs := by
  rw [placeCopy]
  grind [lcPut_bobs, evTIR_bobs, State.tick_bobs, wbLine_bobs, makeWay_bobs]

@[simp] theorem placeWay_bobs (s : State) (la : Nat) (d : Line) (poison : Bool) (m : Nat) : (placeWay s la d poison m).2.bobs = s.bobs := by
  rw [placeWay]
  grind [lcPut_bobs, State.tick_bobs, makeWay_bobs, placeCopy_bobs]

@[simp] theorem placeLine_bobs (s : State) (la : Nat) (d : Line) (poison : Bool) (m : Nat) : (placeLine s la d poison m).2.bobs = s.bobs := by
  rw [placeLine]
  grind [poisonKnown_bobs, placeWay_bobs]

/-! Answers to the requesters. -/

@[simp] theorem msix_bobs (s : State) (p v : Nat) : (msix s p v).bobs = s.bobs := by
  simp [msix, apply_ite State.bobs]

@[simp] theorem portEventIn_bobs (s : State) (p log st src dpa len : Nat) : (portEventIn s p log st src dpa len).bobs = s.bobs := by
  simp [portEventIn, apply_ite State.bobs]

@[simp] theorem portEvent_bobs (s : State) (p st src dpa : Nat) : (portEvent s p st src dpa).bobs = s.bobs := by
  simp [portEvent]

@[simp] theorem withhold_bobs (s : State) (p tag gen st : Nat) : (withhold s p tag gen st).bobs = s.bobs := by
  rw [withhold]
  split <;> simp

@[simp] theorem histOne_bobs (m point : Nat) (wr : Bool) (start : Nat) (s : State) (h : Nat) : (histOne m point wr start s h).bobs = s.bobs := by
  simp [histOne, apply_ite State.bobs]

@[simp] theorem histSample_bobs (m point : Nat) (wr : Bool) (start : Nat) (s : State) : (histSample m point wr start s).bobs = s.bobs := by
  rw [histSample]
  grind [histOne_bobs, foldl_bobs]

@[simp] theorem hostResponse_bobs (s : State) (p tag : Nat) (d : Line) (poison : Bool) (mv : Nat) : (hostResponse s p tag d poison mv).bobs = s.bobs := by
  simp [hostResponse, apply_ite State.bobs]

@[simp] theorem cplHost_bobs (s : State) (p tag gen : Nat) (d : Line) (poison : Bool) (mv : Nat) : (cplHost s p tag gen d poison mv).bobs = s.bobs := by
  rw [cplHost]
  split <;> simp

@[simp] theorem mboxDone_bobs (s : State) (p op rc vendor : Nat) (payload : List Nat) : (mboxDone s p op rc vendor payload).bobs = s.bobs := by
  simp [mboxDone]

@[simp] theorem mboxWritten_bobs (s : State) (p no st : Nat) : (mboxWritten s p no st).bobs = s.bobs := by
  rw [mboxWritten]
  repeat' split
  all_goals simp

@[simp] theorem addReply_bobs (s : State) (x : BobReply) : (addReply s x).bobs = s.bobs := (rfl)

@[simp] theorem spoolIrq_bobs (s : State) (q : Nat) : (spoolIrq s q).bobs = s.bobs := by
  rw [spoolIrq]
  split <;> simp

@[simp] theorem evSPL_bobs (c k : Nat) (s : State) : (evSPL c k s).bobs = s.bobs := by
  simp [evSPL]

@[simp] theorem recordWritten_bobs (s : State) (q n : Nat) : (recordWritten s q n).bobs = s.bobs := by
  rw [recordWritten]
  grind [State.fset_bobs, histSample_bobs, State.setSpool_bobs, spoolIrq_bobs, evSPL_bobs]

@[simp] theorem answer_bobs (s : State) (r : HomeReq) (d : Option Line) (poison : Bool) (status st : Nat) : (answer s r d poison status st).bobs = s.bobs := by
  rw [answer]
  repeat' split
  all_goals simp

@[simp] theorem reply_bobs (s : State) (r : HomeReq) (d : Option Line) (poison : Bool) (status st : Nat) : (reply s r d poison status st).bobs = s.bobs := by
  rw [reply]
  split <;> simp

@[simp] theorem refuse_bobs (s : State) (r : HomeReq) (st : Nat) : (refuse s r st).bobs = s.bobs := by
  rw [refuse]
  split <;> simp

/-! The directory. -/

@[simp] theorem toHomeFor_bobs (s : State) (la : Nat) (d : Line) (poison : Bool) (m : Nat) (who : Requester) (born : Nat) :
    (toHomeFor s la d poison m who born).bobs = s.bobs := by
  rw [toHomeFor]
  repeat' split
  all_goals simp [apply_ite State.bobs]

@[simp] theorem toHomeData_bobs (s : State) (la : Nat) (d : Line) (poison : Bool) (m : Nat) : (toHomeData s la d poison m).bobs = s.bobs := by
  simp [toHomeData]

@[simp] theorem poisonLine_bobs (s : State) (la : Nat) : (poisonLine s la).bobs = s.bobs := by
  simp [poisonLine]

@[simp] theorem bindPut_bobs (s : State) (k : Nat) (e : Option BindEntry) : (bindPut s k e).bobs = s.bobs := (rfl)

@[simp] theorem slotCount_bobs (s : State) (la b : Nat) (up : Bool) : (slotCount s la b up).bobs = s.bobs := by
  rw [slotCount]
  repeat' split
  all_goals simp

@[simp] theorem dirPutAt_bobs (s : State) (k : Nat) (e : Option DirEntry) : (dirPutAt s k e).bobs = s.bobs := (rfl)

@[simp] theorem dirWrite_bobs (s : State) (la st sharers owner : Nat) : (dirWrite s la st sharers owner).bobs = s.bobs := by
  rw [dirWrite]
  grind [State.diagSet_bobs, State.tick_bobs, slotCount_bobs, dirPutAt_bobs, foldl_bobs]

@[simp] theorem settle_bobs (s : State) (la : Nat) : (settle s la).bobs = s.bobs := by
  rw [settle]
  grind [sendRecall_bobs, dirWrite_bobs, foldl_bobs]

@[simp] theorem headPoisoned_bobs (s : State) (p n : Nat) : (headPoisoned s p n).bobs = s.bobs := by
  simp [headPoisoned]

@[simp] theorem recallNext_bobs (s : State) (p : Nat) : (recallNext s p).bobs = s.bobs := by
  rw [recallNext]
  repeat' split
  all_goals simp

@[simp] theorem dirRemove_bobs (s : State) (la b : Nat) : (dirRemove s la b).bobs = s.bobs := by
  simp [dirRemove, apply_ite State.bobs]

@[simp] theorem leaveDirectory_bobs (s : State) (p : Nat) (lines : List Nat) (poison : Bool) : (leaveDirectory s p lines poison).bobs = s.bobs := by
  rw [leaveDirectory]
  grind [poisonLine_bobs, settle_bobs, headPoisoned_bobs, recallNext_bobs, dirRemove_bobs, foldl_bobs]

/-! Releases and recalls that end. -/

@[simp] theorem releaseEnd_bobs (p : Nat) (s : State) (x : Bool × List (Nat × Nat)) : (releaseEnd p s x).bobs = s.bobs := by
  rw [releaseEnd]
  grind [portUpd_bobs, State.put_bobs, sendRecall_bobs, leaveDirectory_bobs, foldl_bobs]

@[simp] theorem releases_bobs (s : State) : (releases s).bobs = s.bobs := by
  rw [releases]
  grind [releaseEnd_bobs, foldl_bobs]

@[simp] theorem wbDrain_bobs (s : State) : (wbDrain s).bobs = s.bobs := by
  rw [wbDrain]
  grind [wbLine_bobs, foldl_bobs]

@[simp] theorem released_bobs (s : State) (r : HomeReq) : (released s r).bobs = s.bobs := by
  rw [released]
  split <;> simp

@[simp] theorem unreserve_bobs (s : State) (r : HomeReq) : (unreserve s r).bobs = s.bobs := by
  rw [unreserve]
  repeat' split
  all_goals simp

@[simp] theorem afterWriteBack_bobs (s : State) (la b keep : Nat) : (afterWriteBack s la b keep).bobs = s.bobs := by
  rw [afterWriteBack]
  repeat' split
  all_goals simp

@[simp] theorem endRecall_bobs (s : State) (rc : Recall) : (endRecall s rc).bobs = s.bobs := by
  rw [endRecall]
  split <;> simp

@[simp] theorem dropFwd_bobs (s : State) (la : Nat) : (dropFwd s la).bobs = s.bobs := (rfl)

@[simp] theorem applyAnswer_bobs (s : State) (rc : Recall) (rsp : Nat) (d : Option Line) (poison : Bool) (who : Requester) (born : Nat) :
    (applyAnswer s rc rsp d poison who born).bobs = s.bobs := by
  rw [applyAnswer]
  repeat' split
  all_goals simp

@[simp] theorem answerBack_bobs (s : State) (r : HomeReq) (rc : Recall) (d : Line) (poison : Bool) : (answerBack s r rc d poison).bobs = s.bobs := by
  rw [answerBack]
  repeat' split
  all_goals simp

@[simp] theorem noteReq_bobs (s : State) (r : HomeReq) (k : Nat) : (noteReq s r k).bobs = s.bobs := (rfl)

/-! Reads and stores of a line. -/

@[simp] theorem lcFill_bobs (s : State) (la : Nat) (d : Line) (m : Nat) (startWb : Bool) : (lcFill s la d m startWb).bobs = s.bobs := by
  rw [lcFill]
  repeat' split
  all_goals simp

@[simp] theorem segAsk_bobs (s : State) (d : Desc) (la : Nat) : (segAsk s d la).bobs = s.bobs := by
  simp [segAsk]

@[simp] theorem countFill_bobs (s : State) (page : Nat) : (countFill s page).bobs = s.bobs := by
  rw [countFill]
  split <;> simp

@[simp] theorem lineRead_bobs (s : State) (la m : Nat) (again : Bool) : (lineRead s la m again).2.bobs = s.bobs := by
  rw [lineRead]
  dsimp only
  repeat' split
  all_goals grind [lcPut_bobs, State.tick_bobs, State.ev_bobs, notStored_bobs, hotRead_bobs, countFill_bobs, lcFill_bobs, evTIR_bobs, poisonKnown_bobs,
    noKeyReport_bobs, segAsk_bobs]

@[simp] theorem wholeLine_bobs (s : State) (r : HomeReq) : (wholeLine s r).2.bobs = s.bobs := by
  rw [wholeLine]
  grind [noteReq_bobs, lineRead_bobs]

@[simp] theorem serveBeyond_bobs (r : HomeReq) (s : State) : (serveBeyond r s).bobs = s.bobs := by
  rw [serveBeyond]
  split <;> simp

@[simp] theorem protocolErr_bobs (s : State) (la node : Nat) : (protocolErr s la node).bobs = s.bobs := by
  simp [protocolErr]

@[simp] theorem cleanEvict_bobs (s : State) (r : HomeReq) : (cleanEvict s r).bobs = s.bobs := by
  simp [cleanEvict, apply_ite State.bobs]

@[simp] theorem guestDrop_bobs (s : State) (la : Nat) : (guestDrop s la).bobs = s.bobs := by
  simp [guestDrop]

@[simp] theorem noteHeld_bobs (s : State) (r : HomeReq) : (noteHeld s r).bobs = s.bobs := by
  rw [noteHeld]
  split <;> simp

@[simp] theorem writeWaits_bobs (s : State) (la m : Nat) (again : Bool) : (writeWaits s la m again).bobs = s.bobs := by
  simp [writeWaits, apply_ite State.bobs]

@[simp] theorem storePlace_bobs (s : State) (la : Nat) (d : Line) (poison : Bool) (m : Nat) (again : Bool) : (storePlace s la d poison m again).2.bobs = s.bobs := by
  rw [storePlace]
  grind [placeLine_bobs, writeWaits_bobs]

@[simp] theorem storeMerge_bobs (s : State) (la : Nat) (e : LcEntry) (d : Line) (mask : Nat) (poison : Bool) (m : Nat) (again : Bool) :
    (storeMerge s la e d mask poison m again).2.bobs = s.bobs := by
  simp [storeMerge]

@[simp] theorem storeHotPart_bobs (s : State) (la : Nat) (ds : Desc) (d : Line) (mask : Nat) (poison : Bool) (m : Nat) (again : Bool) :
    (storeHotPart s la ds d mask poison m again).2.bobs = s.bobs := by
  rw [storeHotPart]
  grind [poisonKnown_bobs, countWb_bobs, State.ev_bobs, hotRead_bobs, writeHot_bobs, storePlace_bobs]

@[simp] theorem storeLost_bobs (s : State) (la : Nat) (ds : Desc) (d : Line) (mask : Nat) (poison again : Bool) :
    (storeLost s la ds d mask poison again).2.bobs = s.bobs := by
  rw [storeLost]
  grind [poisonKnown_bobs, noteFail_bobs, placeLost_bobs, lcDrop_bobs]

@[simp] theorem lineStore_bobs (s : State) (la : Nat) (d : Line) (mask : Nat) (poison : Bool) (m : Nat) (again : Bool) :
    (lineStore s la d mask poison m again).2.bobs = s.bobs := by
  rw [lineStore]
  repeat' split
  all_goals simp

/-! Requests served. -/

@[simp] theorem serveWrite_bobs (r : HomeReq) (s : State) : (serveWrite r s).2.bobs = s.bobs := by
  rw [serveWrite]
  grind [poisonKnown_bobs, reply_bobs, refuse_bobs, dirWrite_bobs, guestDrop_bobs, noteHeld_bobs, lineStore_bobs]

@[simp] theorem grantRead_bobs (s : State) (r : HomeReq) (rb : Nat) (d : Line) (poison fwded : Bool) : (grantRead s r rb d poison fwded).bobs = s.bobs := by
  simp [grantRead, apply_ite State.bobs]

@[simp] theorem evictLine_bobs (s : State) (la : Nat) : (evictLine s la).bobs = s.bobs := by
  rw [evictLine]
  grind [sendRecall_bobs, foldl_bobs]

@[simp] theorem evictCounted_bobs (s : State) (la : Nat) : (evictCounted s la).bobs = s.bobs := by
  rw [evictCounted]
  split <;> simp

@[simp] theorem dirRoom_bobs (s : State) (la : Nat) : (dirRoom s la).2.bobs = s.bobs := by
  rw [dirRoom]
  grind [evictCounted_bobs]

@[simp] theorem readData_bobs (s : State) (r : HomeReq) : (readData s r).2.bobs = s.bobs := by
  rw [readData]
  grind [evDIR_bobs, noteReq_bobs, lineRead_bobs]

@[simp] theorem serveRead_bobs (r : HomeReq) (rb : Nat) (view : Bool) (s : State) : (serveRead r rb view s).2.bobs = s.bobs := by
  rw [serveRead]
  grind [reply_bobs, toHomeData_bobs, dropFwd_bobs, grantRead_bobs, dirRoom_bobs, readData_bobs]

@[simp] theorem dirTouch_bobs (s : State) (la : Nat) : (dirTouch s la).bobs = s.bobs := by
  rw [dirTouch]
  split <;> simp

theorem guestNeed_bobs {s t : State} {r : HomeReq} (h : guestNeed s r = some t) : t.bobs = s.bobs := by
  rw [guestNeed] at h
  grind [guestAsk_bobs]

@[simp] theorem ownerBack_bobs (s : State) (r : HomeReq) (b : Nat) : (ownerBack s r b).2.bobs = s.bobs := by
  rw [ownerBack]
  grind [notStored_bobs, evTIR_bobs, placeLine_bobs, reply_bobs, refuse_bobs, afterWriteBack_bobs, wholeLine_bobs, noteHeld_bobs, writeWaits_bobs]

@[simp] theorem serveLine_bobs (r : HomeReq) (rb : Nat) (view : Bool) (s : State) : (serveLine r rb view s).2.bobs = s.bobs := by
  rw [serveLine]
  grind [sendRecall_bobs, reply_bobs, protocolErr_bobs, cleanEvict_bobs, serveWrite_bobs, serveRead_bobs, dirTouch_bobs, guestNeed_bobs, ownerBack_bobs, foldl_bobs]

theorem bindIn_bobs {s : State} {k n : Nat} {e : BindEntry} {i : Nat} {t : State} (h : bindIn s k n e = some (i, t)) : t.bobs = s.bobs := by
  rw [bindIn] at h
  grind [bindPut_bobs]

@[simp] theorem overflow_bobs (s : State) (r : HomeReq) : (overflow s r).2.bobs = s.bobs := by
  rw [overflow]
  repeat' split
  all_goals simp

@[simp] theorem dirIrq_bobs (s : State) : (dirIrq s).bobs = s.bobs := by
  rw [dirIrq]
  split <;> simp

@[simp] theorem bindFull_bobs (s : State) (r : HomeReq) : (bindFull s r).bobs = s.bobs := by
  rw [bindFull]
  split <;> simp

@[simp] theorem nodeStanding_bobs (s : State) (r : HomeReq) (n : Nat) : (nodeStanding s r n).2.bobs = s.bobs := by
  rw [nodeStanding]
  grind [State.fset_bobs, evDIR_bobs, noteReq_bobs, bindIn_bobs, overflow_bobs, bindFull_bobs]

@[simp] theorem standing_bobs (s : State) (r : HomeReq) : (standing s r).2.bobs = s.bobs := by
  rw [standing]
  split <;> simp

@[simp] theorem serve_bobs (r : HomeReq) (s : State) : (serve r s).2.bobs = s.bobs := by
  rw [serve]
  grind [evTIR_bobs, descFill_bobs, placeLine_bobs, reply_bobs, answerBack_bobs, noteReq_bobs, wholeLine_bobs, serveBeyond_bobs, serveLine_bobs, standing_bobs]

/-! The requests of a slice, each in its turn. -/

@[simp] theorem pumpList_bobs (l : List HomeReq) (s : State) : (pumpList l s).bobs = s.bobs := by
  induction l generalizing s with
  | nil => rfl
  | cons r rest ih => simp [pumpList, ih, apply_ite State.bobs]

@[simp] theorem pumpAll_bobs (n : Nat) (s : State) : (pumpAll n s).bobs = s.bobs := by
  induction n generalizing s with
  | zero => rfl
  | succ n ih => simp [pumpAll, ih, apply_ite State.bobs]

@[simp] theorem heldNote_bobs (before after : State) (p : Nat) : (heldNote before after p).bobs = after.bobs := by
  rw [heldNote]
  dsimp only
  repeat' split
  all_goals rfl

@[simp] theorem heldNotes_bobs (before after : State) : (heldNotes before after).bobs = after.bobs := foldl_bobs (fun s p => by simp) _ _

/-! Displaced descriptors. -/

@[simp] theorem recallPage_bobs (s : State) (page : Nat) : (recallPage s page).bobs = s.bobs := by
  rw [recallPage]
  grind [evictCounted_bobs, foldl_bobs]

@[simp] theorem guestLeave_bobs (s : State) (page : Nat) : (guestLeave s page).bobs = s.bobs := by
  rw [guestLeave]
  grind [lcPut_bobs, guestAsk_bobs, wbLine_bobs, foldl_bobs]

@[simp] theorem dcLeave_bobs (s : State) (page : Nat) : (dcLeave s page).bobs = s.bobs := by
  simp [dcLeave, apply_ite State.bobs]

@[simp] theorem dcMakeRoom_bobs (s : State) (base : Nat) : (dcMakeRoom s base).bobs = s.bobs := by
  rw [dcMakeRoom]
  repeat' split
  all_goals simp

@[simp] theorem dcRefill_bobs (s : State) (page : Nat) : (dcRefill s page).bobs = s.bobs := by
  rw [dcRefill]
  repeat' split
  all_goals simp

@[simp] theorem dcRestore_bobs (s : State) (page : Nat) : (dcRestore s page).bobs = s.bobs := by
  rw [dcRestore]
  split <;> simp

@[simp] theorem dirRetag_bobs (s : State) (page wOld wNew : Nat) : (dirRetag s page wOld wNew).bobs = s.bobs := by
  rw [dirRetag]
  grind [dirPutAt_bobs, foldl_bobs]

@[simp] theorem dcMove_bobs (lost : Bool) (s : State) (k : Nat) : (dcMove lost s k).bobs = s.bobs := by
  rw [dcMove]
  grind [dcSetAt_bobs, dcWriteBack_bobs, dcLeave_bobs, dcMakeRoom_bobs, dcRestore_bobs, dirRetag_bobs]

@[simp] theorem dcSettle_bobs (s : State) : (dcSettle s).bobs = s.bobs := by
  rw [dcSettle]
  grind [dcMove_bobs, foldl_bobs]

/-! The whole of it. -/

@[simp] theorem pump_bobs (s : State) : (pump s).bobs = s.bobs := by
  rw [pump]
  grind [releases_bobs, wbDrain_bobs, pumpAll_bobs, heldNotes_bobs, dcSettle_bobs]

@[simp] theorem homeTake_bobs (r : HomeReq) (s : State) : (homeTake r s).bobs = s.bobs := by
  simp [homeTake]

end Sys2Proof.Machine
end

section
/-! PROOF. Line accesses of a Bobbin and the fences that wait for them, for O41 (R265, R266, R267, R284). -/

namespace Sys2Proof.Machine

/-! Line accesses set off (R265). -/

/-- The address of LDL and STL is taken modulo 2^64 (log entry 69). -/
theorem lineAddr_eq (x : Bob) (rb imm : Nat) : lineAddr x rb imm = ((((x.gr rb).toNat : Int) + (BitVec.ofNat 13 imm).toInt * 64) % 2 ^ 64).toNat := by
  unfold lineAddr sextI
  rw [BitVec.toNat_add, BitVec.toNat_ofInt]
  have small := (x.gr rb).isLt
  omega

/-- One line access has set off to the home that its address names. -/
def lineSent (b : Nat) (kind : ReqKind) (ga : Nat) (d : Line) (mask : Nat) (p : Bool) (s t : State) : Prop :=
  ∃ r : HomeReq, r.kind = kind ∧ r.who = .bob b (s.bob b).io ∧ r.data = d ∧ r.mask = mask ∧
    r.poison = p ∧ r.master = 16 + s.fget (BOB_STAT b) F.BOB_STAT_CLASS ∧ t = { s with bobs := t.bobs, home := t.home, regs := t.regs } ∧ regsKept (slotReg b) s t ∧
    (ga / 2 ^ 47 % 2 ^ 14 = s.fget FAB_NODEID F.FAB_NODEID_NODE → r.la = ga % 2 ^ 47 ∧ t.home = { s.home with toHome := s.home.toHome ++ [r] }) ∧
    (ga / 2 ^ 47 % 2 ^ 14 ≠ s.fget FAB_NODEID F.FAB_NODEID_NODE → r.la = guestLa ga ∧ t.home = { s.home with guestReqs := s.home.guestReqs ++ [r] })

/-- The request of a line access: its address at the home is `la`. -/
def lineReq (s : State) (b : Nat) (kind : ReqKind) (la : Nat) (d : Line) (mask : Nat) (p : Bool) : HomeReq :=
  { kind := kind, who := .bob b (s.bob b).io, la := la, data := d, mask := mask, poison := p, master := 16 + s.fget (BOB_STAT b) F.BOB_STAT_CLASS, mval := 0 }

/-- The access leaves the issuing Bobbin. -/
def State.sent (s : State) (b : Nat) (kind : ReqKind) (ga : Nat) (d : Line) (mask : Nat) (p : Bool) : State :=
  bobSend (s.issued b) (.bob b (s.bob b).issued.io) kind ga d mask p (16 + bobClass (s.issued b) b)

section
variable {s : State} {b w ga mask : Nat} {kind : ReqKind} {d : Line} {p : Bool}

theorem State.sent_frame : s.sent b kind ga d mask p = { s.issued b with home := (s.sent b kind ga d mask p).home } := by
  unfold State.sent bobSend
  split <;> rfl

theorem State.sent_local (here : ga / 2 ^ 47 % 2 ^ 14 = s.fget FAB_NODEID F.FAB_NODEID_NODE) :
    (s.sent b kind ga d mask p).home = { s.home with toHome := s.home.toHome ++ [lineReq s b kind (ga % 2 ^ 47) d mask p] } :=
  congrArg State.home (if_pos (beq_iff_eq.2 here))

theorem State.sent_remote (away : ga / 2 ^ 47 % 2 ^ 14 ≠ s.fget FAB_NODEID F.FAB_NODEID_NODE) :
    (s.sent b kind ga d mask p).home = { s.home with guestReqs := s.home.guestReqs ++ [lineReq s b kind (guestLa ga) d mask p] } :=
  congrArg State.home (if_neg fun e => away (beq_iff_eq.1 e))

theorem frame_of_sent {s u t : State} (left : u = { s.issued b with home := u.home }) (frame : t = { u with bobs := t.bobs, regs := t.regs }) :
    t = { s with bobs := t.bobs, home := t.home, regs := t.regs } := by
  rw [frame, left]
  rfl

/-- The instruction that sets off a line access retires. -/
theorem sent_retires {y z : Bob} (h : bobReady s b w) (inside : y.pc + 1 < y.words)
    (after : { y with pc := y.pc + 1, waits := false } = { z with pc := (s.bob b).pc + 1, last := (s.bob b).pc, waits := false }) :
    lineSent b kind ga d mask p s (retire b y (s.sent b kind ga d mask p)) ∧ nextAt b z s (retire b y (s.sent b kind ga d mask p)) := by
  obtain ⟨hb, -⟩ := h
  have left : s.sent b kind ga d mask p = { s.issued b with home := (s.sent b kind ga d mask p).home } := State.sent_frame
  obtain ⟨frame, regs⟩ := retire_frame (u := s.sent b kind ga d mask p) hb inside
  have home : (retire b y (s.sent b kind ga d mask p)).home = (s.sent b kind ga d mask p).home := by rw [frame]
  have kept : regsKept (slotReg b) s (s.sent b kind ga d mask p) := .of_regs (by rw [left]; rfl)
  refine ⟨?_, retire_nextAt (fun c hc => ?_) inside after⟩
  · have whole := frame_of_sent left frame
    by_cases here : ga / 2 ^ 47 % 2 ^ 14 = s.fget FAB_NODEID F.FAB_NODEID_NODE
    · exact ⟨lineReq s b kind (ga % 2 ^ 47) d mask p, rfl, rfl, rfl, rfl, rfl, rfl, whole, kept.trans regs,
        fun _ => ⟨rfl, home.trans (State.sent_local here)⟩, fun away => absurd here away⟩
    · exact ⟨lineReq s b kind (guestLa ga) d mask p, rfl, rfl, rfl, rfl, rfl, rfl, whole, kept.trans regs,
        fun e => absurd e here, fun away => ⟨rfl, home.trans (State.sent_remote away)⟩⟩
  · rw [left]
    exact setBob_othersKept s b _ c hc

/-- What is claimed of a store of line register `v` at the address `g`. -/
def lineStored (b v g mask : Nat) (s t : State) : Prop :=
  (g % 64 ≠ 0 → faultsWith b C.BOB_E_ALIGN s t) ∧ (g % 64 = 0 → capOk s (s.bob b) g 64 2 = false → faultsWith b C.BOB_E_CAP s t) ∧
    (g % 64 = 0 → capOk s (s.bob b) g 64 2 = true → lineSent b .write g ((s.bob b).vr v) mask ((s.bob b).vpois v) s t ∧
      nextAt b { s.bob b with io := (s.bob b).io + 1, stores := (s.bob b).stores ++ [(s.bob b).io] } s t)

theorem postStore_lineStored (h : bobReady s b w) (v g mask : Nat) : lineStored b v g mask s (postStore b v g mask (s.bob b).issued (s.issued b)) := by
  have caps : capOk (s.issued b) (s.bob b).issued g 64 2 = capOk s (s.bob b) g 64 2 := rfl
  obtain ⟨-, -, -, -, -, -, -, inside, -⟩ := id h
  unfold postStore
  rw [caps]
  refine ⟨fun odd => ?_, fun even no => ?_, fun even yes => ?_⟩
  · rw [if_pos odd]
    exact issued_faultsWith h (by decide)
  · rw [if_neg (not_not.2 even), if_pos no]
    exact issued_faultsWith h (by decide)
  · rw [if_neg (not_not.2 even), if_neg (by simp [yes])]
    exact sent_retires h inside rfl

/-- What is claimed of a load into line register `v` from the address `g`. -/
def lineLoads (b v g : Nat) (s t : State) : Prop :=
  (g % 64 ≠ 0 → faultsWith b C.BOB_E_ALIGN s t) ∧ (g % 64 = 0 → capOk s (s.bob b) g 64 1 = false → faultsWith b C.BOB_E_CAP s t) ∧
    (g % 64 = 0 → capOk s (s.bob b) g 64 1 = true → lineSent b .readCurrent g 0 0 false s t ∧
      nextAt b { s.bob b with io := (s.bob b).io + 1, loads := (s.bob b).loads ++ [⟨(s.bob b).io, v, (s.bob b).pc⟩] } s t)

theorem vregs_wordC {op rt rb imm : Nat} (h1 : rt < 8) (h2 : rb < 32) (h3 : imm < 8192) :
    vregs [rt] (wordC op rt rb 0 imm) = some (op * 2 ^ 26 + rt * 2 ^ 21 + rb * 2 ^ 16 + imm) := by
  rw [vregs, if_pos (by simp [h1]), wordC_eq op (by omega) h2 (by decide) h3, Nat.zero_mul, Nat.add_zero]

theorem vfree_lineFree {v : Nat} (h : lineFree s b v) : vfree (s.bob b) [v] = true := by
  simp only [vfree, List.all_cons, List.all_nil, Bool.and_true, Bool.not_eq_true', List.any_eq_false, beq_iff_eq]
  exact h

theorem stLdl_lineLoads {rt rb imm : Nat} (h1 : rt < 8) (h2 : rb < 32) (h3 : imm < 8192) (passes : classHeld s b = false) (free : lineFree s b rt)
    (h : bobReady s b (0x12 * 2 ^ 26 + rt * 2 ^ 21 + rb * 2 ^ 16 + imm)) : completes (.stLdl b rt rb imm) s (lineLoads b rt (lineAddr (s.bob b) rb imm) s) := by
  have caps : ∀ g, capOk (s.issued b) (s.bob b).issued g 64 1 = capOk s (s.bob b) g 64 1 := fun _ => rfl
  have addr : lineAddr (s.bob b).issued rb imm = lineAddr (s.bob b) rb imm := rfl
  obtain ⟨-, -, -, -, -, -, -, inside, -⟩ := id h
  refine completes_issue h (congrArg Host.Outcome.next (if_neg (by simp [passes]))) (vregs_wordC h1 h2 h3) (vfree_lineFree free) ?_
  dsimp only
  rw [addr, caps]
  refine ⟨fun odd => ?_, fun even no => ?_, fun even yes => ?_⟩
  · rw [if_pos odd]
    exact issued_faultsWith h (by decide)
  · rw [if_neg (not_not.2 even), if_pos no]
    exact issued_faultsWith h (by decide)
  · rw [if_neg (not_not.2 even), if_neg (by simp [yes])]
    exact sent_retires h inside rfl

theorem stStl_lineStored {rt rb imm : Nat} (h1 : rt < 8) (h2 : rb < 32) (h3 : imm < 8192) (passes : classHeld s b = false) (free : lineFree s b rt)
    (h : bobReady s b (0x13 * 2 ^ 26 + rt * 2 ^ 21 + rb * 2 ^ 16 + imm)) :
    completes (.stStl b rt rb imm) s (lineStored b rt (lineAddr (s.bob b) rb imm) fullMask s) :=
  completes_issue h (congrArg Host.Outcome.next (if_neg (by simp [passes]))) (vregs_wordC h1 h2 h3) (vfree_lineFree free) (postStore_lineStored h rt _ fullMask)

/-- STLM: a mask of zero only retires (log entry 69). -/
theorem stStlm_lineStored {rd rs1 rs2 : Nat} (h1 : rd < 8) (h2 : rs1 < 32) (h3 : rs2 < 32) (passes : classHeld s b = false) (free : lineFree s b rd)
    (h : bobReady s b (4 * 2 ^ 26 + rd * 2 ^ 21 + rs1 * 2 ^ 16 + rs2 * 2 ^ 11)) : completes (.stStlm b rd rs1 rs2) s (fun t =>
      ((s.bob b).gr rs2 = 0 → retired b (s.bob b) s t) ∧
        ((s.bob b).gr rs2 ≠ 0 → lineStored b rd ((s.bob b).gr rs1).toNat ((s.bob b).gr rs2).toNat s t)) := by
  have word : vregs [rd] (wordA 4 rd rs1 rs2 0) = some (4 * 2 ^ 26 + rd * 2 ^ 21 + rs1 * 2 ^ 16 + rs2 * 2 ^ 11) := by
    rw [vregs, if_pos (by simp [h1]), wordA_eq 4 (by omega) h2 h3 (by decide), Nat.add_zero]
  have mask : (s.bob b).issued.gr rs2 = (s.bob b).gr rs2 := rfl
  refine completes_issue h (congrArg Host.Outcome.next (if_neg (by simp [passes]))) word (vfree_lineFree free) ?_
  rw [mask]
  refine ⟨fun none => ?_, fun some => ?_⟩
  · rw [if_pos none]
    exact retired_retire h
  · rw [if_neg some]
    exact postStore_lineStored h rd _ _

end

/-! Replies (R266, R267). -/

section
variable {s : State} {b : Nat} {r : BobReply}

/-- The state without a reply that has been taken. -/
def State.replied (s : State) (r : BobReply) : State := { s with home := { s.home with bobReplies := s.home.bobReplies.erase r } }

/-- The only reply of an access is the one that is taken. -/
theorem takeReply_only (here : r ∈ s.home.bobReplies) (only : ∀ x ∈ s.home.bobReplies, x.bob = r.bob → x.slot = r.slot → x = r) :
    takeReply s r.bob r.slot = (some r, s.replied r) := by
  have found : s.home.bobReplies.find? (fun x => x.bob == r.bob && x.slot == r.slot) = some r := by
    cases e : s.home.bobReplies.find? (fun x => x.bob == r.bob && x.slot == r.slot) with
    | none => simpa using List.find?_eq_none.1 e r here
    | some x =>
      have hit := List.find?_some e
      simp only [Bool.and_eq_true, beq_iff_eq] at hit
      rw [only x (List.mem_of_find?_eq_some e) hit.1 hit.2]
  rw [takeReply, found]
  rfl

/-- The program state whose load has its reply. -/
def Bob.loaded (x : Bob) (no : Nat) : Bob := { x with loads := x.loads.filter fun e => e.no != no }

theorem ldlReturn_eq {l : Load} (here : r ∈ s.home.bobReplies) (only : ∀ x ∈ s.home.bobReplies, x.bob = r.bob → x.slot = r.slot → x = r)
    (asked : l ∈ (s.bob r.bob).loads) (no : l.no = r.slot) (one : ∀ x ∈ (s.bob r.bob).loads, x.no = r.slot → x = l) : ldlReturn r.bob r.slot s =
      if 2 ≤ statusClass r.status then
        if (s.bob r.bob).run = 1 then bobFaultAt r.bob r.status l.pc ((s.replied r).setBob r.bob ((s.bob r.bob).loaded r.slot))
        else (s.replied r).setBob r.bob ((s.bob r.bob).loaded r.slot)
      else (s.replied r).setBob r.bob (((s.bob r.bob).loaded r.slot).setV l.v r.data r.poison) := by
  have found : (s.bob r.bob).loads.find? (fun x => x.no == r.slot) = some l := by
    cases e : (s.bob r.bob).loads.find? (fun x => x.no == r.slot) with
    | none => simpa [no] using List.find?_eq_none.1 e l asked
    | some x =>
      have hit : (x.no == r.slot) = true := List.find?_some (p := fun x : Load => x.no == r.slot) e
      rw [one x (List.mem_of_find?_eq_some e) (beq_iff_eq.1 hit)]
  have bob : (s.replied r).bob r.bob = s.bob r.bob := rfl
  simp only [ldlReturn, takeReply_only here only, bob, found]
  rfl

theorem storeResult_eq (here : r ∈ s.home.bobReplies) (only : ∀ x ∈ s.home.bobReplies, x.bob = r.bob → x.slot = r.slot → x = r)
    (asked : r.slot ∈ (s.bob r.bob).stores) : storeResult r.bob r.slot s = (s.replied r).setBob r.bob { s.bob r.bob with
      stores := (s.bob r.bob).stores.filter (· != r.slot)
      held := if (s.bob r.bob).held = 0 ∧ 2 ≤ statusClass r.status then r.status else (s.bob r.bob).held } := by
  simp only [storeResult, if_pos (List.contains_iff_mem.2 asked), takeReply_only here only]

end

/-! Fences (R284). -/

/-- What is claimed of FENCE with the operand `k`: `done` is its condition, `held` the status that it looks at. -/
def fences (b : Nat) (s : State) (c : Instr) (k : Nat) (done : Prop) (held : Nat) : Prop :=
  bobReady s b (0x33 * 2 ^ 26 + k) →
    (done → held = 0 → completes c s (retired b (s.bob b) s)) ∧ (done → held ≠ 0 → held < 0x10000 → completes c s (faultsWith b held s)) ∧
    (¬ done → exec c s = .next s)

section
variable {s : State} {b k : Nat} {c : Instr} {ready : Bob → Bool} {f : Bob → State → State} {done : Prop} {held : Nat}

theorem fence_fences (run : exec c s = fence b k ready f s) (hk : k < 3) (cond : ready (s.bob b) = true ↔ done)
    (effect : f (s.bob b).issued (s.issued b) = if held ≠ 0 then bobFault b held (s.issued b) else retire b (s.bob b).issued (s.issued b)) :
    fences b s c k done held := fun h => by
  have word : wordB 0x33 0 0 k = some (0x33 * 2 ^ 26 + k) := by
    rw [wordB_eq _ (by decide) (by decide) (by omega), Nat.zero_mul, Nat.zero_mul, Nat.add_zero]
  have issues (hd : done) : exec c s = .next (issue b (wordB 0x33 0 0 k) [] f s) := run.trans (congrArg Host.Outcome.next (if_pos (cond.2 hd)))
  refine ⟨fun hd clear => completes_issue h (issues hd) word rfl ?_, fun hd bad small => completes_issue h (issues hd) word rfl ?_,
    fun no => run.trans (congrArg Host.Outcome.next (if_neg fun e => no (cond.1 e)))⟩
  · rw [effect, if_neg (not_not.2 clear)]
    exact retired_retire h
  · rw [effect, if_pos bad]
    exact issued_faultsWith h small

theorem stFenceL_fences : fences b s (.stFenceL b) 0 ((s.bob b).stores = []) (s.bob b).held :=
  fence_fences rfl (by decide) List.isEmpty_iff rfl

theorem stFenceT_fences : fences b s (.stFenceT b) 1 ((s.bob b).jobs = []) 0 :=
  fence_fences rfl (by decide) List.isEmpty_iff rfl

theorem stFenceA_fences : fences b s (.stFenceA b) 2 ((s.bob b).stores = [] ∧ (s.bob b).jobs = []) (s.bob b).held :=
  fence_fences (ready := fun x => storesDone x && stitchesDone x) (f := orHeld b (retire b)) rfl (by decide)
    (Bool.and_eq_true_iff.trans (and_congr List.isEmpty_iff List.isEmpty_iff)) rfl

end

end Sys2Proof.Machine
end

section
/-! PROOF. POST and END, and the line accesses of a Bobbin, O41 (R265, R266, R267, R284, R285, R286, R301, R302). -/

namespace Sys2Proof.Machine

/-! The completion record (R301, R302). -/

theorem leNat_append (a b : Bytes) : leNat (a ++ b) = leNat a + 256 ^ a.length * leNat b := by
  induction a with
  | nil => simp [leNat]
  | cons x r ih =>
    rw [List.cons_append, leNat, ih, leNat, List.length_cons, Nat.pow_succ]
    ring

theorem leNat_replicate_zero (n : Nat) : leNat (List.replicate n 0) = 0 := by
  induction n with
  | zero => rfl
  | succ n ih => rw [List.replicate_succ, leNat, ih]

/-- Where the record of command `n` goes. -/
def recordAddr (s : State) (q n : Nat) : Nat := s.fget (SPL_CQBASE q) F.SPL_CQBASE_LPN * 4096 + n % 2 ^ sqLog s q * 16

/-- The record as a number of 16 bytes. -/
def recordValue (s : State) (q : Nat) (c : Cmd) (st res : Nat) : Nat :=
  res + c.n % 2 ^ 32 * 2 ^ 64 + st * 2 ^ 96 + c.bob % 256 * 2 ^ 112 + (1 - c.n / 2 ^ sqLog s q % 2) * 2 ^ 120

theorem leNat_recordBytes {s : State} {q st res : Nat} {c : Cmd} (claim : c.claim = some (st, res)) (h1 : st < 2 ^ 16) (h2 : res < 2 ^ 64) :
    leNat (recordBytes s q c) = recordValue s q c st res ∧ recordValue s q c st res < 2 ^ 128 := by
  have phase : (if c.n / 2 ^ sqLog s q % 2 = 0 then 1 else 0) = 1 - c.n / 2 ^ sqLog s q % 2 := by split <;> omega
  have bytes : leNat (recordBytes s q c) = recordValue s q c st res := by
    simp only [recordBytes, claim, Option.getD_some, leNat_append, leNat_leBytes, length_leBytes, leNat, phase, recordValue, List.length_append]
    omega
  have small : 1 - c.n / 2 ^ sqLog s q % 2 ≤ 1 := Nat.sub_le ..
  refine ⟨bytes, ?_⟩
  unfold recordValue
  omega

/-- The record stands at its place in the line. -/
theorem lineOf_record {l : Bytes} {off v : Nat} (value : leNat l = v) (small : v < 2 ^ 128) (room : off ≤ 48) :
    (lineOf (List.replicate off 0 ++ l)).toNat / 2 ^ (8 * off) % 2 ^ 128 = v := by
  have power : 256 ^ off = 2 ^ (8 * off) := by rw [show (256 : Nat) = 2 ^ 8 by rfl, Nat.pow_mul]
  have fits : 2 ^ (8 * off) * v < 2 ^ 512 := by
    calc 2 ^ (8 * off) * v < 2 ^ (8 * off) * 2 ^ 128 := Nat.mul_lt_mul_of_pos_left small (Nat.two_pow_pos _)
      _ = 2 ^ (8 * off + 128) := (Nat.pow_add ..).symm
      _ ≤ 2 ^ 512 := Nat.pow_le_pow_right (by decide) (by omega)
  rw [lineOf, leNat_append, leNat_replicate_zero, List.length_replicate, value, Nat.zero_add, power, BitVec.toNat_ofNat, Nat.mod_eq_of_lt fits,
    Nat.mul_div_cancel_left _ (Nat.two_pow_pos _), Nat.mod_eq_of_lt small]

/-- The write that takes the record of a claimed command to its slot. -/
def recordReq (s : State) (q : Nat) (c : Cmd) : HomeReq :=
  { kind := .write, who := .spool q c.n, la := recordAddr s q c.n / 64 * 64, data := lineOf (List.replicate (recordAddr s q c.n % 64) 0 ++ recordBytes s q c),
    mask := (2 ^ 16 - 1) * 2 ^ (recordAddr s q c.n % 64), poison := false, master := 28, mval := 0 }

/-- The claimed command's record sets off. -/
theorem sendRecord_only {s : State} {q : Nat} {c : Cmd} (here : c ∈ (s.spool q).cmds) (only : ∀ x ∈ (s.spool q).cmds, x.n = c.n → x = c) (new : c.recd = 0)
    (claimed : c.claim.isSome = true) : sendRecord s q c.n = homeTake (recordReq s q c) (cmdUpd s q c.n fun e => { e with recd := 1 }) := by
  have found : (s.spool q).cmds.find? (fun x => x.n == c.n && x.recd == 0 && x.claim.isSome) = some c := by
    cases e : (s.spool q).cmds.find? (fun x => x.n == c.n && x.recd == 0 && x.claim.isSome) with
    | none => simpa [new, claimed] using List.find?_eq_none.1 e c here
    | some x =>
      have hit : (x.n == c.n && x.recd == 0 && x.claim.isSome) = true := List.find?_some (p := fun x : Cmd => x.n == c.n && x.recd == 0 && x.claim.isSome) e
      simp only [Bool.and_eq_true, beq_iff_eq] at hit
      rw [only x (List.mem_of_find?_eq_some e) hit.1.1]
  unfold sendRecord
  rw [found]
  rfl

theorem slotClaimed_only {s : State} {q : Nat} {c : Cmd} (here : c ∈ (s.spool q).cmds) (only : ∀ x ∈ (s.spool q).cmds, x.n = c.n → x = c) :
    slotClaimed s q c.n = c.claim.isSome := by
  have found : (s.spool q).cmds.find? (fun x => x.n == c.n) = some c := by
    cases e : (s.spool q).cmds.find? (fun x => x.n == c.n) with
    | none => simpa using List.find?_eq_none.1 e c here
    | some x =>
      have hit : (x.n == c.n) = true := List.find?_some (p := fun x : Cmd => x.n == c.n) e
      rw [only x (List.mem_of_find?_eq_some e) (beq_iff_eq.1 hit)]
  rw [slotClaimed, found]
  rfl

/-! POST (R285). -/

theorem homeTake_bob (r : HomeReq) (s : State) (b : Nat) : (homeTake r s).bob b = s.bob b := by
  unfold State.bob
  rw [homeTake_bobs]

/-- POST puts `v` in rd and the program goes on. -/
def postedWith (b rd v : Nat) (s t : State) : Prop :=
  (∀ r, (t.bob b).gr r = if r = rd ∧ r ≠ 0 then BitVec.ofNat 64 v else (s.bob b).gr r) ∧ nextAt b { s.bob b with g := (t.bob b).g, posted := true } s t

section
variable {s u : State} {b w rd rs1 rs2 : Nat}

/-- POST retires on the state `u` that its claim has left. -/
theorem post_retires (h : bobReady s b w) (others : othersKept b s u) (own : u.bob b = (s.bob b).issued) (v : Nat) :
    let t := retire b (({ u.bob b with posted := true } : Bob).setG rd (BitVec.ofNat 64 v)) u
    postedWith b rd v s t ∧ t = { u with bobs := t.bobs, regs := t.regs } ∧ regsKept (slotReg b) u t := by
  obtain ⟨hb, -, -, -, -, -, -, inside, -⟩ := h
  rw [own]
  have inside' : (({ (s.bob b).issued with posted := true } : Bob).setG rd (BitVec.ofNat 64 v)).pc + 1 <
      (({ (s.bob b).issued with posted := true } : Bob).setG rd (BitVec.ofNat 64 v)).words := by
    rw [Bob.setG_pc, Bob.setG_words]
    exact inside
  have ends := retire_bob (b := b) (u := u) inside'
  refine ⟨⟨fun r => ?_, retire_nextAt others inside' ?_⟩, retire_frame hb inside'⟩
  · rw [ends]
    exact Bob.gr_setG _ rd _ r
  · rw [ends, Bob.setG_pc, Bob.setG_frame]
    rfl

theorem completes_post {P : State → Prop} (h1 : rd < 32) (h2 : rs1 < 32) (h3 : rs2 < 32) (stores : (s.bob b).stores = []) (jobs : (s.bob b).jobs = [])
    (held : (s.bob b).held = 0) (first : (s.bob b).posted = false) (h : bobReady s b (0x34 * 2 ^ 26 + rd * 2 ^ 21 + rs1 * 2 ^ 16 + rs2 * 2 ^ 11))
    (effect : P (postEffect b rd rs1 rs2 (s.bob b).issued (s.issued b))) : completes (.stPost b rd rs1 rs2) s P := by
  have run : exec (.stPost b rd rs1 rs2) s = .next (issue b (wordA 0x34 rd rs1 rs2 0) [] (orHeld b (postEffect b rd rs1 rs2)) s) := by
    refine congrArg Host.Outcome.next ((if_neg (by simp [first])).trans (if_pos ?_))
    simp [storesDone, stitchesDone, stores, jobs]
  refine completes_issue h run (wordA_eq _ h1 h2 h3 (by decide)) rfl ?_
  rw [orHeld, if_neg fun n : (s.bob b).issued.held ≠ 0 => n held]
  exact effect

/-- A second POST ends the program. -/
theorem stPost_twice (h1 : rd < 32) (h2 : rs1 < 32) (h3 : rs2 < 32) (posted : (s.bob b).posted = true)
    (h : bobReady s b (0x34 * 2 ^ 26 + rd * 2 ^ 21 + rs1 * 2 ^ 16 + rs2 * 2 ^ 11)) : completes (.stPost b rd rs1 rs2) s (faultsWith b C.BOB_E_POST_TWICE s) := by
  have run : exec (.stPost b rd rs1 rs2) s = .next (issue b (wordA 0x34 rd rs1 rs2 0) [] (fun _ t => bobFault b C.BOB_E_POST_TWICE t) s) :=
    congrArg Host.Outcome.next (if_pos posted)
  exact completes_issue h run (wordA_eq _ h1 h2 h3 (by decide)) rfl (issued_faultsWith h (by decide))

variable {c : Cmd}

/-- POST after a claim of another (R285, R311). -/
theorem postEffect_aborted (h : bobReady s b w) (here : c ∈ (s.spool (s.bob b).q).cmds) (no : c.n = (s.bob b).n)
    (only : ∀ x ∈ (s.spool (s.bob b).q).cmds, x.n = (s.bob b).n → x = c) (claimed : c.claim ≠ none) :
    let t := postEffect b rd rs1 rs2 (s.bob b).issued (s.issued b)
    postedWith b rd C.BOB_W_ABORTED_FIRST s t ∧ t = { s with bobs := t.bobs, regs := t.regs } ∧ regsKept (slotReg b) s t := by
  have lost : slotClaimed (s.issued b) (s.bob b).q (s.bob b).n = true := by
    rw [← no] at only ⊢
    exact (slotClaimed_only (s := s.issued b) here only).trans (Option.isSome_iff_ne_none.2 claimed)
  have effect : postEffect b rd rs1 rs2 (s.bob b).issued (s.issued b) =
      retire b (({ (s.issued b).bob b with posted := true } : Bob).setG rd (BitVec.ofNat 64 C.BOB_W_ABORTED_FIRST)) (s.issued b) := by
    have won : (!slotClaimed (s.issued b) (s.bob b).issued.q (s.bob b).issued.n) = false := by
      show (!slotClaimed (s.issued b) (s.bob b).q (s.bob b).n) = false
      rw [lost]
      rfl
    simp only [postEffect, won, Bool.false_eq_true, if_false]
  rw [effect]
  exact post_retires h (setBob_othersKept s b _) (by rw [State.setBob_bob, if_pos rfl]) _

/-- The state in which the record of POST sets off: its command is claimed, and its record is under way. -/
def recordOut (s : State) (b : Nat) (st res : Nat) : State :=
  cmdUpd (claimSlot (s.issued b) (s.bob b).q (s.bob b).n st res) (s.bob b).q (s.bob b).n fun e => { e with recd := 1 }

theorem recordOut_spool (only : ∀ x ∈ (s.spool (s.bob b).q).cmds, x.n = (s.bob b).n → x = c) (free : c.claim = none) (st res q : Nat) :
    (recordOut s b st res).spool q = if q = (s.bob b).q then { s.spool (s.bob b).q with
      cmds := (s.spool (s.bob b).q).cmds.map fun x => if x.n = (s.bob b).n then { c with claim := some (st, res), recd := 1 } else x } else s.spool q := by
  have each : ∀ x ∈ (s.spool (s.bob b).q).cmds,
      (fun e : Cmd => if e.n = (s.bob b).n then { e with recd := 1 } else e) (if x.n = (s.bob b).n ∧ x.claim = none then { x with claim := some (st, res) } else x) =
      if x.n = (s.bob b).n then { c with claim := some (st, res), recd := 1 } else x := fun x hx => by
    by_cases hn : x.n = (s.bob b).n
    · obtain rfl := only x hx hn
      simp [hn, free]
    · simp [hn]
  have spool : ∀ k, (s.issued b).spool k = s.spool k := fun _ => rfl
  rw [recordOut, cmdUpd_spool]
  split
  · rw [claimSlot_spool, if_pos rfl, spool, List.map_map]
    exact congrArg (fun l => { s.spool (s.bob b).q with cmds := l }) (List.map_congr_left each)
  next other => rw [claimSlot_spool, if_neg other, spool]

theorem recordOut_frame (s : State) (b st res : Nat) : recordOut s b st res = { s with bobs := (recordOut s b st res).bobs, spools := (recordOut s b st res).spools } := rfl

theorem recordOut_bob (s : State) (b st res k : Nat) : (recordOut s b st res).bob k = (s.issued b).bob k := rfl

/-- The command once POST has claimed its slot. -/
def Cmd.claimedBy (c : Cmd) (st res : Nat) : Cmd := { c with claim := some (st, res) }

/-- The claim makes the record set off (R302). -/
theorem sendRecord_claimed (here : c ∈ (s.spool (s.bob b).q).cmds) (no : c.n = (s.bob b).n) (only : ∀ x ∈ (s.spool (s.bob b).q).cmds, x.n = (s.bob b).n → x = c)
    (free : c.claim = none) (new : c.recd = 0) (st res : Nat) :
    sendRecord (claimSlot (s.issued b) (s.bob b).q (s.bob b).n st res) (s.bob b).q (s.bob b).n =
      homeTake (recordReq s (s.bob b).q (c.claimedBy st res)) (recordOut s b st res) := by
  have cmds : ((claimSlot (s.issued b) (s.bob b).q (s.bob b).n st res).spool (s.bob b).q).cmds =
      (s.spool (s.bob b).q).cmds.map fun x => if x.n = (s.bob b).n ∧ x.claim = none then { x with claim := some (st, res) } else x := by
    rw [claimSlot_spool, if_pos rfl]
    rfl
  have here' : c.claimedBy st res ∈ ((claimSlot (s.issued b) (s.bob b).q (s.bob b).n st res).spool (s.bob b).q).cmds := by
    rw [cmds]
    exact List.mem_map.2 ⟨c, here, if_pos ⟨no, free⟩⟩
  have only' : ∀ x ∈ ((claimSlot (s.issued b) (s.bob b).q (s.bob b).n st res).spool (s.bob b).q).cmds, x.n = (c.claimedBy st res).n → x = c.claimedBy st res := by
    rw [cmds]
    intro x hx hn
    obtain ⟨y, hy, rfl⟩ := List.mem_map.1 hx
    have name : y.n = (s.bob b).n := by
      have n' : (c.claimedBy st res).n = (s.bob b).n := no
      rw [n'] at hn
      split at hn
      next h => exact h.1
      next => exact hn
    obtain rfl := only y hy name
    exact if_pos ⟨name, free⟩
  have sent := sendRecord_only here' only' new rfl
  rw [show (c.claimedBy st res).n = (s.bob b).n from no] at sent
  exact sent

/-- POST on a free slot: it claims the slot, and the record sets off (R285, R301, R302). -/
theorem postEffect_won (h : bobReady s b w) (here : c ∈ (s.spool (s.bob b).q).cmds) (no : c.n = (s.bob b).n)
    (only : ∀ x ∈ (s.spool (s.bob b).q).cmds, x.n = (s.bob b).n → x = c) (free : c.claim = none) (new : c.recd = 0) :
    let t := postEffect b rd rs1 rs2 (s.bob b).issued (s.issued b)
    let st := ((s.bob b).gr rs1).toNat % 65536
    let res := ((s.bob b).gr rs2).toNat
    let v := homeTake (recordReq s (s.bob b).q (c.claimedBy st res)) (recordOut s b st res)
    postedWith b rd 0 s t ∧ t = { v with bobs := t.bobs, regs := t.regs } ∧ regsKept (slotReg b) v t := by
  intro t st res v
  have unclaimed : slotClaimed (s.issued b) (s.bob b).q (s.bob b).n = false := by
    have claims : slotClaimed s (s.bob b).q c.n = c.claim.isSome := slotClaimed_only here (no ▸ only)
    rw [no, free] at claims
    exact claims
  have effect : t = retire b (({ v.bob b with posted := true } : Bob).setG rd (BitVec.ofNat 64 0)) v := by
    have won : (!slotClaimed (s.issued b) (s.bob b).issued.q (s.bob b).issued.n) = true := by
      show (!slotClaimed (s.issued b) (s.bob b).q (s.bob b).n) = true
      rw [unclaimed]
      rfl
    have sent : sendRecord (claimSlot (s.issued b) (s.bob b).issued.q (s.bob b).issued.n st res) (s.bob b).issued.q (s.bob b).issued.n = v :=
      sendRecord_claimed here no only free new st res
    show postEffect b rd rs1 rs2 (s.bob b).issued (s.issued b) = _
    simp only [postEffect, won, if_true]
    rw [← sent]
    rfl
  have bobs : ∀ k, v.bob k = (s.issued b).bob k := fun k => homeTake_bob ..
  rw [effect]
  exact post_retires h (fun k hk => by rw [bobs, State.issued_bob, if_neg hk]) (by rw [bobs, State.issued_bob, if_pos rfl]) 0

end

/-! END (R286). -/

/-- The Bobbin is free, and its command is in its last stage. -/
def bobEnded (b : Nat) (s t : State) : Prop :=
  (t.bob b).run = 0 ∧ (t.bob b).posted = false ∧ t.fget (BOB_STAT b) F.BOB_STAT_STATE = (if s.fget (BOB_CFG b) F.BOB_CFG_DRAIN = 1 then 2 else 0) ∧
    othersKept b s t ∧ (∀ q, q ≠ (s.bob b).q → t.spool q = s.spool q) ∧ (∀ c ∈ (t.spool (s.bob b).q).cmds, c.n = (s.bob b).n → c.stage = 2) ∧
    t = { s with regs := t.regs, bobs := t.bobs, spools := t.spools } ∧ regsKept (fun off => off = BOB_STAT b ∨ slotReg b off) s t

section
variable {s : State} {b : Nat}

theorem BOB_STAT_lt (hb : b < 64) : BOB_STAT b < 0xA00000 := by unfold BOB_STAT; omega
theorem BOB_CFG_lt (hb : b < 64) : BOB_CFG b < 0xA00000 := by unfold BOB_CFG; omega

/-- The program of the issued END ends. -/
theorem bobEnd_ended {w : Nat} (h : bobReady s b w) (recorded : ∀ c ∈ (s.spool (s.bob b).q).cmds, c.n = (s.bob b).n → c.recd ≠ 0)
    (busy : s.fget (BOB_STAT b) F.BOB_STAT_STATE = 1) (untested : bobTestDue s b = false) : bobEnded b s (bobEnd b (evSlots b 0 1 (s.issued b))) := by
  obtain ⟨hb, -, -, -, disc, free, -⟩ := h
  have counted : RegsOnly (s.issued b) (evSlots b 0 1 (s.issued b)) := evSlots_regsOnly hb (by decide) 1 _
  have kept : regsKept (slotReg b) (s.issued b) (evSlots b 0 1 (s.issued b)) := evSlots_regsKept (by decide) 1 _
  have same : ∀ {off} (f : Fld), off < 0xA00000 → (evSlots b 0 1 (s.issued b)).fget off f = s.fget off f :=
    fun f low => kept.fget (fun slot => not_counterReg_of_lt low (counterReg_of_slotReg hb slot)) f
  have own : (evSlots b 0 1 (s.issued b)).bob b = (s.bob b).issued := by rw [evSlots_bob, State.issued_bob, if_pos rfl]
  have spools : ∀ q, (evSlots b 0 1 (s.issued b)).spool q = s.spool q := fun q => by rw [counted]; rfl
  have tests : bobTestDue (evSlots b 0 1 (s.issued b)) b = bobTestDue s b := by rw [counted]; rfl
  have lanes : noLaneWork (evSlots b 0 1 (s.issued b)) b := by rw [counted]; exact free
  have others : othersKept b s (evSlots b 0 1 (s.issued b)) := fun c hc => by rw [evSlots_bob, State.issued_bob, if_neg hc]
  have q : ((evSlots b 0 1 (s.issued b)).bob b).q = (s.bob b).q := by rw [own]; rfl
  have n : ((evSlots b 0 1 (s.issued b)).bob b).n = (s.bob b).n := by rw [own]; rfl
  obtain ⟨bob, state, rest, elsewhere, stage, frame, regs⟩ := bobEnd_frees (s := evSlots b 0 1 (s.issued b)) (b := b) (by rw [q, n, spools]; exact recorded)
    (by rw [own]; exact disc) lanes ((same _ (BOB_STAT_lt hb)).trans busy) (tests.trans untested)
  rw [q, n] at stage
  rw [q] at elsewhere
  rw [same _ (BOB_CFG_lt hb)] at state
  refine ⟨by rw [bob]; rfl, by rw [bob]; rfl, state, fun c hc => (rest c hc).trans (others c hc), fun k hk => (elsewhere k hk).trans (spools k), stage, ?_, ?_⟩
  · rw [frame, counted]
    rfl
  · have first : regsKept (slotReg b) s (evSlots b 0 1 (s.issued b)) := kept
    exact (first.mono fun _ => .inr).trans (regs.mono fun _ => .inl)

theorem completes_end {P : State → Prop} (stores : (s.bob b).stores = []) (jobs : (s.bob b).jobs = []) (h : bobReady s b (0x35 * 2 ^ 26))
    (effect : P (orHeld b (fun x t => bobEnd b (evSlots b 0 1 (if x.posted then t else claimSlot t x.q x.n C.BOB_E_NO_POST 0))) (s.bob b).issued (s.issued b))) :
    completes (.stEnd b) s P :=
  completes_issue h (congrArg Host.Outcome.next (if_pos (by simp [storesDone, stitchesDone, stores, jobs]))) rfl rfl effect

end

end Sys2Proof.Machine

open Sys2Proof Sys2Proof.Machine

/-- Settles O41: a line access is one request to the home that its address names, its reply is taken once, and fences, POST and END wait for all of them; what a home
does with the record of POST touches no Bobbin. -/
theorem lineAccessesFencesPostEnd : Obligations.LineAccessesFencesPostEnd := by
  intro s b rd rs1 rs2 rb imm hb him u does sets ga stores
  refine ⟨fun passes hrd free => ⟨?_, fun h1 h2 h => stStlm_lineStored hrd h1 h2 passes free h⟩, fun r l here mine only => ?_,
    ⟨stFenceL_fences, stFenceT_fences, stFenceA_fences⟩, fun hrd h1 h2 h => ?_, fun h none idle => ⟨fun bad small => ?_, fun held posted recorded busy untested => ?_⟩⟩
  · have addr : lineAddr (s.bob b) rb imm = ga := lineAddr_eq ..
    exact ⟨fun h => addr ▸ stLdl_lineLoads hrd hb him passes free h, fun h => addr ▸ stStl_lineStored hrd hb him passes free h⟩
  · subst mine
    refine ⟨fun asked no one => ⟨fun ok => ?_, fun bad small inside hb run disc lanes => ?_⟩, fun asked => completes_next rfl (storeResult_eq here (only · ·) asked) ?_⟩
    · have low : ¬ 2 ≤ statusClass r.status := by
        unfold statusClass
        omega
      refine completes_next rfl ((ldlReturn_eq here (only · ·) asked no one).trans (if_neg low)) ⟨fun k => ?_, ?_, setBob_othersKept (s.replied r) r.bob _, rfl⟩
      · rw [State.setBob_bob, if_pos rfl]
        exact ⟨Bob.vr_setV .., Bob.vpois_setV ..⟩
      · rw [State.setBob_bob, if_pos rfl]
        rfl
    · have high : 2 ≤ statusClass r.status := by
        unfold statusClass
        omega
      refine completes_next rfl ((ldlReturn_eq here (only · ·) asked no one).trans ((if_pos high).trans (if_pos run))) ?_
      have own : ((s.replied r).setBob r.bob ((s.bob r.bob).loaded r.slot)).bob r.bob = (s.bob r.bob).loaded r.slot := by rw [State.setBob_bob, if_pos rfl]
      have ends := bobFaultAt_programEnds (s := s.replied r) (u := (s.replied r).setBob r.bob ((s.bob r.bob).loaded r.slot)) (b := r.bob) (st := r.status)
        hb small inside rfl (.of_regs rfl) (setBob_othersKept _ _ _) (by rw [own]; exact ⟨rfl, rfl, rfl⟩) (by rw [own]; exact disc) lanes
      rw [own] at ends
      exact ends
    · exact ⟨setBob_othersKept (s.replied r) r.bob _, by rw [State.setBob_bob, if_pos rfl]; rfl, rfl⟩
  · refine ⟨fun posted => stPost_twice hrd h1 h2 posted h, fun first none idle held c here no only =>
      ⟨fun claimed => completes_post hrd h1 h2 none idle held first h (postEffect_aborted h here no only claimed), fun free new => ?_⟩⟩
    refine completes_post hrd h1 h2 none idle held first h ?_
    obtain ⟨posts, frame, regs⟩ := postEffect_won (rd := rd) (rs1 := rs1) (rs2 := rs2) h here no only free new
    obtain ⟨value, small⟩ := leNat_recordBytes (s := s) (q := u.q) (c := c.claimedBy ((u.gr rs1).toNat % 65536) (u.gr rs2).toNat) rfl
      (Nat.mod_lt _ (by decide)) (u.gr rs2).isLt
    have room : recordAddr s u.q c.n % 64 ≤ 48 := by
      unfold recordAddr
      omega
    have spool := recordOut_spool only free ((u.gr rs1).toNat % 65536) (u.gr rs2).toNat
    exact ⟨posts, recordReq s u.q (c.claimedBy ((u.gr rs1).toNat % 65536) (u.gr rs2).toNat), recordOut s b ((u.gr rs1).toNat % 65536) (u.gr rs2).toNat, rfl,
      congrArg (Requester.spool u.q) no, rfl, rfl, rfl, lineOf_record value small room, rfl, fun q hq => (spool q).trans (if_neg hq), (spool u.q).trans (if_pos rfl),
      frame, regs⟩
  · refine completes_end none idle h ?_
    rw [orHeld, if_pos (show (s.bob b).issued.held ≠ 0 from bad)]
    exact issued_faultsWith h small
  · refine completes_end none idle h ?_
    rw [orHeld, if_neg (fun n : (s.bob b).issued.held ≠ 0 => n held), if_pos (show (s.bob b).issued.posted = true from posted)]
    exact bobEnd_ended h recorded busy untested
end

section
/-! PROOF. Which entry of its array a write of a Spool's or a Bobbin's register names, and what an operation on registers and event counters leaves alone (R58, R297,
R316, R449). -/

namespace Sys2Proof.Machine

/-! Places of a register in its block's table (R58). -/

/-- A row whose registers are `st` apart, at the offset of its entry `q` and `o` bytes on: the rest of its dimensions decides. -/
theorem regIdx_array {st q o cnt : Nat} (ho : o < st) (hq : q < cnt) (ds : List (Nat × Nat)) :
    regIdx (q * st + o) ((st, cnt) :: ds) = (regIdx o ds).map (q :: ·) := by
  have quot : (q * st + o) / st = q := Nat.div_eq_of_lt_le (by omega) (by rw [Nat.succ_mul]; omega)
  have rem : (q * st + o) % st = o := by rw [Nat.add_comm, Nat.add_mul_mod_self_right, Nat.mod_eq_of_lt ho]
  cases h : regIdx o ds <;> simp [regIdx, quot, rem, hq, h]

/-- In a block of pages `st` bytes apart, an offset in page `q` is found in the row whose registers it meets; the rows before that hold one register a page,
which lies below it. -/
theorem regFindIn_page {rows rest : List RegDesc} {r : RegDesc} {B q o st cnt : Nat} {ds : List (Nat × Nat)} {ix : List Nat}
    (before : ∀ x ∈ rows, x.dims = [(st, cnt)] ∧ B ≤ x.base ∧ x.base < r.base) (hd : r.dims = (st, cnt) :: ds) (ho : r.base + o < B + st) (hB : B ≤ r.base)
    (hq : q < cnt) (hit : regIdx o ds = some ix) : regFindIn (r.base + (q * st + o)) (rows ++ r :: rest) = some ⟨r, q :: ix⟩ := by
  induction rows with
  | nil => rw [List.nil_append, regFindIn, if_pos (Nat.le_add_right ..), Nat.add_sub_cancel_left, hd, regIdx_array (by omega) hq, hit, Option.map_some]
  | cons x xs ih =>
    obtain ⟨⟨dims, low, high⟩, others⟩ := List.forall_mem_cons.1 before
    obtain ⟨d, far⟩ := Nat.exists_eq_add_of_lt high
    have apart : regIdx (r.base + (q * st + o) - x.base) x.dims = none := by
      rw [show r.base + (q * st + o) - x.base = q * st + (d + o + 1) by omega, dims, regIdx_array (by omega) hq]
      rfl
    rw [List.cons_append, regFindIn, if_pos (by omega), apart]
    exact ih others

theorem regsAt_spl {off : Nat} (h : 0x600000 ≤ off) (h' : off < 0x700000) : regsAt off = regsSPL := by
  unfold regsAt
  iterate 8 rw [if_neg (by omega)]
  rw [if_pos h']

theorem regsAt_bob {off : Nat} (h : 0x500000 ≤ off) (h' : off < 0x600000) : regsAt off = regsBOB := by
  unfold regsAt
  iterate 7 rw [if_neg (by omega)]
  rw [if_pos h']

section
variable {q : Nat} (hq : q < 1024)
include hq

/-- Row `k` of the Spool block, `o` bytes into the entry of Spool `q`. -/
theorem regFind_spl {k base o : Nat} {ds : List (Nat × Nat)} {ix : List Nat} (hk : k < regsSPL.length) (hb : regsSPL[k].base = base) (low : 0x600000 ≤ base)
    (before : ∀ x ∈ regsSPL.take k, x.dims = [(0x100, 1024)] ∧ 0x600000 ≤ x.base ∧ x.base < base) (hd : regsSPL[k].dims = (0x100, 1024) :: ds)
    (ho : base + o < 0x600100) (hit : regIdx o ds = some ix) : (regFind (base + (q * 0x100 + o))).map RegHit.idx = some (q :: ix) := by
  subst hb
  have row : regsSPL = regsSPL.take k ++ regsSPL[k] :: regsSPL.drop (k + 1) := by rw [List.getElem_cons_drop, List.take_append_drop]
  have found := regFindIn_page (rest := regsSPL.drop (k + 1)) before hd ho low hq hit
  rw [← row] at found
  rw [regFind, regsAt_spl (by omega) (by omega), found, Option.map_some]

/-- A row of the Spool block with one register a Spool. -/
theorem regFind_splOne {k base : Nat} (hk : k < regsSPL.length) (hb : regsSPL[k].base = base) (low : 0x600000 ≤ base) (high : base < 0x600100)
    (before : ∀ x ∈ regsSPL.take k, x.dims = [(0x100, 1024)] ∧ 0x600000 ≤ x.base ∧ x.base < base) (hd : regsSPL[k].dims = [(0x100, 1024)]) :
    (regFind (base + q * 0x100)).map RegHit.idx = some [q] := by
  have found := regFind_spl hq (o := 0) hk hb low before hd high rfl
  rwa [Nat.add_zero] at found

theorem regFind_splDoorbell : (regFind (SPL_DOORBELL q)).map RegHit.idx = some [q] :=
  regFind_splOne hq (k := 0) (by decide) rfl (by decide) (by decide) (by decide) rfl
theorem regFind_splAbort : (regFind (SPL_ABORT q)).map RegHit.idx = some [q] :=
  regFind_splOne hq (k := 2) (by decide) rfl (by decide) (by decide) (by decide) rfl
theorem regFind_splCfg : (regFind (SPL_CFG q)).map RegHit.idx = some [q] :=
  regFind_splOne hq (k := 4) (by decide) rfl (by decide) (by decide) (by decide) rfl
theorem regFind_splSqBase : (regFind (SPL_SQBASE q)).map RegHit.idx = some [q] :=
  regFind_splOne hq (k := 5) (by decide) rfl (by decide) (by decide) (by decide) rfl
theorem regFind_splCqBase : (regFind (SPL_CQBASE q)).map RegHit.idx = some [q] :=
  regFind_splOne hq (k := 6) (by decide) rfl (by decide) (by decide) (by decide) rfl

theorem regFind_splCap {k : Nat} (hk : k < 17) : (regFind (SPL_CAP q k)).map RegHit.idx = some [q, k] := by
  have word : regIdx (k * 8) [(8, 17)] = some [k] := regIdx_array (st := 8) (o := 0) (by decide) hk []
  have high : 0x600070 + k * 8 < 0x600100 := by omega
  rw [SPL_CAP, Nat.add_assoc]
  exact regFind_spl hq (k := 9) (by decide) rfl (by decide) (by decide) rfl high word

end

theorem regFind_bobCfg {b : Nat} (hb : b < 64) : (regFind (BOB_CFG b)).map RegHit.idx = some [b] := by
  have found := regFindIn_page (rows := []) (r := regsBOB[0]) (rest := regsBOB.drop 1) (B := 0x500000) (o := 0) (ds := []) (ix := [])
    (fun x hx => absurd hx List.not_mem_nil) rfl (by decide) (by decide) hb rfl
  rw [Nat.add_zero] at found
  rw [regFind, regsAt_bob (by unfold BOB_CFG; omega) (by unfold BOB_CFG; omega)]
  exact congrArg (Option.map RegHit.idx) found

end Sys2Proof.Machine
end

section
/-! PROOF. An operation on registers and event counters, and the doorbells of a Spool (R92, R303, R449). -/

namespace Sys2Proof.Machine

/-! Nothing but registers and the marks of level mode differs. -/

/-- Nothing but registers and the marks of the level-mode counters differs. -/
def RegsMarks (s t : State) : Prop := t = { s with regs := t.regs, levelNs := t.levelNs }

namespace RegsMarks

variable {s t u : State}

theorem refl (s : State) : RegsMarks s s := rfl

theorem trans (a : RegsMarks s t) (b : RegsMarks t u) : RegsMarks s u := by
  unfold RegsMarks at *
  rw [b, a]

theorem fset (a : RegsMarks s t) (off : Nat) (f : Fld) (v : Nat) : RegsMarks s (t.fset off f v) := a.trans (u := t.fset off f v) rfl

theorem evSPL (a : RegsMarks s t) (c k : Nat) : RegsMarks s (evSPL c k t) := by
  obtain ⟨r, l, h⟩ := evSPL_frame c k t
  rw [h]
  exact a.trans (u := { t with regs := r, levelNs := l }) rfl

/-- What reads the same whatever the registers and the marks are, such an operation does not change. -/
theorem same {β : Type} (a : RegsMarks s t) (p : State → β) (h : ∀ r l, p { s with regs := r, levelNs := l } = p s) : p t = p s := by
  rw [a]
  exact h _ _

theorem bob (a : RegsMarks s t) (b : Nat) : t.bob b = s.bob b := a.same (·.bob b) fun _ _ => rfl
theorem spool (a : RegsMarks s t) (q : Nat) : t.spool q = s.spool q := a.same (·.spool q) fun _ _ => rfl
theorem dram (a : RegsMarks s t) : t.dram = s.dram := a.same (·.dram) fun _ _ => rfl

theorem only (a : RegsMarks s t) : onlyRegisters s t := by
  unfold onlyRegisters
  rw [a]

/-- The output of a write that succeeds is all that such an operation may add. -/
theorem put (a : RegsMarks s t) (o : Out) : onlyRegisters s (t.put o) := by
  unfold onlyRegisters
  rw [a]
  rfl

/-- Also after a refusal and its record. -/
theorem ended {who : Who} {off st : Nat} (a : RegsMarks s t) (e : Ended who off st t u) : onlyRegisters s u := by
  unfold onlyRegisters
  rw [e.frame, a]

end RegsMarks

theorem State.put_bob (s : State) (o : Out) (b : Nat) : (s.put o).bob b = s.bob b := by rw [State.bob, State.put_bobs, State.bob]
theorem State.put_spool (s : State) (o : Out) (q : Nat) : (s.put o).spool q = s.spool q := by rw [State.spool, State.put_spools, State.spool]

theorem RegsOnly.marks {s t : State} (a : RegsOnly s t) : RegsMarks s t := by
  unfold RegsMarks
  rw [a]

/-- A write that is refused without a change of its own. -/
theorem Ended.onlyRegisters {who : Who} {off st : Nat} {s t : State} (e : Ended who off st s t) : onlyRegisters s t := (RegsMarks.refl s).ended e

theorem onlyRegisters.trans {s t u : State} (a : onlyRegisters s t) (b : onlyRegisters t u) : onlyRegisters s u := by
  unfold Machine.onlyRegisters at *
  rw [b, a]

/-! The registers of a Spool are no counters, and its class is one of eight. -/

theorem spoolClass_lt (s : State) (q : Nat) : spoolClass s q < 8 := fld_lt _ _

section
variable {q : Nat}

theorem not_counterReg_spl (hq : q < 1024) {o : Nat} (ho : o < 0x100) : ¬ counterReg (0x600000 + o + q * 0x100) = true :=
  not_counterReg_of_lt (by omega)

theorem not_errorReg_spl (hq : q < 1024) {o : Nat} (ho : o < 0x100) (h : o ≠ 0x20) : ¬ errorReg (0x600000 + o + q * 0x100) :=
  not_errorReg (by unfold MGT_CTLERR; omega) (by omega)

end

/-! Indexes modulo 2^32 (R303). -/

theorem larger_iff (a b : Nat) : larger a b = true ↔ 0 < (a + 2 ^ 32 - b) % 2 ^ 32 ∧ (a + 2 ^ 32 - b) % 2 ^ 32 < 2 ^ 31 := by
  rw [larger, Bool.and_eq_true, bne_iff_ne, decide_eq_true_eq, ahead, Nat.pos_iff_ne_zero]

/-- The later of a new index and the one that stands. -/
def laterIndex (a b : Nat) : Nat := if larger a b then a else b

theorem laterIndex_eq (a b : Nat) :
    laterIndex a b = if 0 < (a + 2 ^ 32 - b) % 2 ^ 32 ∧ (a + 2 ^ 32 - b) % 2 ^ 32 < 2 ^ 31 then a else b := if_congr (larger_iff a b) rfl rfl

theorem laterIndex_lt {a b n : Nat} (ha : a < n) (hb : b < n) : laterIndex a b < n := by
  unfold laterIndex
  split
  · exact ha
  · exact hb

/-! A doorbell that is taken, and one that is refused (R303). -/

/-- The indexes of a doorbell pass neither the ring's end nor the records that are written. -/
def bellLawful (s : State) (q tail head : Nat) : Prop := ahead tail (splCons s q) ≤ 2 ^ sqLog s q ∧ ¬ larger head (splDone s q) = true

/-- A field that is not ahead is counted as stale. -/
def bellCounted (s : State) (q : Nat) (stale : Bool) : State := if stale then evSPL (spoolClass s q) 5 (s.fsat (SPL_STAT q) F.SPL_STAT_STALE 1) else s

/-- SPL_DOORBELL takes both indexes. -/
def bellRung (s : State) (q : Nat) (stale : Bool) (tail head : Nat) : State :=
  ((bellCounted s q stale).fset (SPL_DOORBELL q) F.SPL_DOORBELL_SQTAIL tail).fset (SPL_DOORBELL q) F.SPL_DOORBELL_CQHEAD head

/-- A Spool that waits for its slot is woken. -/
def bellWoken (s : State) (q : Nat) : State := if splState s q = 2 ∨ splState s q = 3 then setSplState s q (splLive s) else s

section
variable {s : State} {q new : Nat} (busy : s.fget PWR_CTL F.PWR_CTL_BUSY = 0)
include busy

theorem hookDoorbell_lawful (h : bellLawful s q (laterIndex (fld new F.SPL_DOORBELL_SQTAIL) (splTail s q)) (laterIndex (fld new F.SPL_DOORBELL_CQHEAD) (splHead s q)))
    (old act : Nat) : ∃ stale, hookDoorbell [q] old new act s =
      (bellWoken (bellRung s q stale (laterIndex (fld new F.SPL_DOORBELL_SQTAIL) (splTail s q)) (laterIndex (fld new F.SPL_DOORBELL_CQHEAD) (splHead s q))) q, 0) := by
  obtain ⟨ring, written⟩ := h
  have here : pwrAbort s = s := if_pos busy
  refine ⟨!(larger (fld new F.SPL_DOORBELL_SQTAIL) (splTail s q)) || !(larger (fld new F.SPL_DOORBELL_CQHEAD) (splHead s q)), ?_⟩
  unfold hookDoorbell
  rw [here]
  exact if_neg (not_or.2 ⟨Nat.not_lt.2 ring, written⟩)

theorem hookDoorbell_unlawful
    (h : ¬ bellLawful s q (laterIndex (fld new F.SPL_DOORBELL_SQTAIL) (splTail s q)) (laterIndex (fld new F.SPL_DOORBELL_CQHEAD) (splHead s q))) (old act : Nat) :
    hookDoorbell [q] old new act s = (s.fset (SPL_STAT q) F.SPL_STAT_LASTDB C.SPL_E_DOORBELL, C.SPL_E_DOORBELL) := by
  have here : pwrAbort s = s := if_pos busy
  unfold hookDoorbell
  rw [here]
  refine if_pos ?_
  by_contra hn
  obtain ⟨ring, written⟩ := not_or.1 hn
  exact h ⟨Nat.not_lt.1 ring, written⟩

end

/-- What a doorbell that is taken may change. -/
def bellReg (q off : Nat) : Prop := off = SPL_DOORBELL q ∨ off = SPL_STAT q ∨ counterReg off = true

section
variable (s : State) (q : Nat) (stale : Bool)

theorem bellCounted_marks : RegsMarks s (bellCounted s q stale) := by
  unfold bellCounted
  split
  · exact ((RegsMarks.refl s).fset _ _ _).evSPL _ _
  · exact .refl s

theorem bellCounted_regsKept : regsKept (fun off => off = SPL_STAT q ∨ counterReg off = true) s (bellCounted s q stale) := by
  unfold bellCounted
  split
  · have shown := (regsKept.refl (fun off => off = SPL_STAT q ∨ counterReg off = true) s).fset (.inl rfl) F.SPL_STAT_STALE
      (satAdd F.SPL_STAT_STALE.w (s.fget (SPL_STAT q) F.SPL_STAT_STALE) 1)
    exact shown.trans ((evSPL_regsKept (spoolClass_lt s q) (by decide) _).mono fun _ => .inr)
  · exact .refl _ s

/-- The count of stale doorbells is apart from the Spool's state. -/
theorem bellCounted_state (hq : q < 1024) : splState (bellCounted s q stale) q = splState s q := by
  unfold bellCounted
  split
  · have counted := (evSPL_regsKept (spoolClass_lt s q) (by decide : 5 < 8) (s.fsat (SPL_STAT q) F.SPL_STAT_STALE 1)).fget
      (not_counterReg_spl hq (o := 0x18) (by decide)) F.SPL_STAT_STATE
    exact counted.trans (s.fset_fget_apart _ _ _ _ (by decide) (by decide))
  · rfl

variable (tail head : Nat)

theorem bellRung_marks : RegsMarks s (bellRung s q stale tail head) := ((bellCounted_marks s q stale).fset _ _ _).fset _ _ _

theorem bellRung_regsKept : regsKept (bellReg q) s (bellRung s q stale tail head) :=
  (((bellCounted_regsKept s q stale).mono fun _ => .inr).fset (.inl rfl) _ _).fset (.inl rfl) _ _

theorem bellRung_state (hq : q < 1024) : splState (bellRung s q stale tail head) q = splState s q := by
  have apart : SPL_STAT q ≠ SPL_DOORBELL q := by unfold SPL_STAT SPL_DOORBELL; omega
  exact (State.fset_fget_off _ _ _ _ _ _ apart).trans ((State.fset_fget_off _ _ _ _ _ _ apart).trans (bellCounted_state s q stale hq))

variable {tail head}

theorem bellRung_tail (h : tail < 2 ^ 32) : splTail (bellRung s q stale tail head) q = tail :=
  (State.fset_fget_apart _ _ _ _ _ (by decide) (by decide)).trans (State.fset_fget_lt _ _ _ _ (by decide) h)

theorem bellRung_head (h : head < 2 ^ 32) : splHead (bellRung s q stale tail head) q = head := State.fset_fget_lt _ _ _ _ (by decide) h

end

/-! The Spool's state. -/

theorem splLive_lt (s : State) : splLive s < 2 ^ 3 := by
  unfold splLive
  split <;> decide

/-- Every other register is as before when the Spool's state changes. -/
theorem setSplState_regsKept (s : State) (q v : Nat) : regsKept (fun off => off = SPL_STAT q) s (setSplState s q v) := s.fset_regsKept _ _ _

theorem setSplState_same (s : State) (q : Nat) {v : Nat} (h : v < 2 ^ 3) : splState (setSplState s q v) q = v := State.fset_fget_lt _ _ _ _ (by decide) h

section
variable (s : State) (q : Nat)

theorem bellWoken_marks : RegsMarks s (bellWoken s q) := by
  unfold bellWoken
  split
  · exact (RegsMarks.refl s).fset _ _ _
  · exact .refl s

theorem bellWoken_regsKept : regsKept (fun off => off = SPL_STAT q) s (bellWoken s q) := by
  unfold bellWoken
  split
  · exact setSplState_regsKept s q _
  · exact .refl _ s

theorem bellWoken_state : splState (bellWoken s q) q = if splState s q = 2 ∨ splState s q = 3 then splLive s else splState s q := by
  unfold bellWoken
  split
  · exact setSplState_same s q (splLive_lt s)
  · rfl

end

/-! A head's refused doorbell stands at its place in BAR4 (R92, R117). -/

theorem statusClass_success : ¬ 2 ≤ statusClass 0 := by decide

theorem bar4Record_success (s : State) (who : Who) (q : Nat) {off : Nat} {t : State} (h : t.out.head? = some (.ctlDone who off 0)) : bar4Record s who q t = t := by
  unfold bar4Record
  rw [h]
  split
  next p off st e =>
    cases e
    rw [if_neg fun c => statusClass_success c.2]
  next => rfl

theorem bar4Record_frame (s : State) (who : Who) (q : Nat) (t : State) :
    RegsMarks t (bar4Record s who q t) ∧ (bar4Record s who q t).out = t.out ∧ regsKept errorReg t (bar4Record s who q t) := by
  unfold bar4Record
  split
  · split
    · exact ⟨(RegsMarks.refl t).fset _ _ _, State.fset_out .., (regsKept.refl errorReg t).fset (.inr ⟨_, rfl⟩) _ _⟩
    · exact ⟨.refl t, rfl, .refl _ t⟩
  · exact ⟨.refl t, rfl, .refl _ t⟩

end Sys2Proof.Machine
end

section
/-! PROOF. A doorbell write of a Spool, from its check to its end (R303). -/

namespace Sys2Proof.Machine

/-- A doorbell leaves the device level alone. -/
theorem bellRung_live {q : Nat} (hq : q < 1024) (s : State) (stale : Bool) (tail head : Nat) : splLive (bellRung s q stale tail head) = splLive s := by
  have apart : ¬ bellReg q FLT_STAT := by
    rintro (e | e | e)
    · unfold FLT_STAT SPL_DOORBELL at e
      omega
    · unfold FLT_STAT SPL_STAT at e
      omega
    · exact absurd e (by decide)
  have level : (bellRung s q stale tail head).devLevel = s.devLevel := (bellRung_regsKept s q stale tail head).fget apart _
  rw [splLive, level, splLive]

section
variable {s : State} {who : Who} {q : Nat} {val : Word} {w : CtlWrite} (hq : q < 1024) (ha : admitted who (SPL_DOORBELL q) val s w)
  (busy : s.fget PWR_CTL F.PWR_CTL_BUSY = 0)
include hq ha busy

/-- A lawful doorbell keeps the later of each index, and wakes a Spool that waits. -/
theorem spoolDoorbell_lawful {tail head : Nat} (ht : tail = laterIndex (fld w.new F.SPL_DOORBELL_SQTAIL) (splTail s q))
    (hh : head = laterIndex (fld w.new F.SPL_DOORBELL_CQHEAD) (splHead s q)) (lawful : bellLawful s q tail head) :
    completes (.spoolDoorbell who q val) s (fun t => onlyRegisters s t ∧ endedWith who (SPL_DOORBELL q) 0 t ∧ splTail t q = tail ∧ splHead t q = head ∧
      splState t q = (if splState s q = 2 ∨ splState s q = 3 then splLive s else splState s q) ∧ regsKept (bellReg q) s t) := by
  subst ht hh
  obtain ⟨stale, taken⟩ := hookDoorbell_lawful busy lawful w.old w.act
  have written := rowWrite_success ha (admitted_index ha (regFind_splDoorbell hq) ▸ taken)
  have run := (bar4Record_success s who q (congrArg (·.out.head?) written)).trans written
  have htail : laterIndex (fld w.new F.SPL_DOORBELL_SQTAIL) (splTail s q) < 2 ^ 32 := laterIndex_lt (fld_lt _ _) (fld_lt _ _)
  have hhead : laterIndex (fld w.new F.SPL_DOORBELL_CQHEAD) (splHead s q) < 2 ^ 32 := laterIndex_lt (fld_lt _ _) (fld_lt _ _)
  generalize laterIndex (fld w.new F.SPL_DOORBELL_SQTAIL) (splTail s q) = tail at *
  generalize laterIndex (fld w.new F.SPL_DOORBELL_CQHEAD) (splHead s q) = head at *
  have marks := bellRung_marks s q stale tail head
  have kept := bellRung_regsKept s q stale tail head
  have woken := bellWoken_regsKept (bellRung s q stale tail head) q
  have apart : SPL_DOORBELL q ≠ SPL_STAT q := by unfold SPL_STAT SPL_DOORBELL; omega
  have live := bellRung_live hq s stale tail head
  have shows : ∀ off f, ((bellWoken (bellRung s q stale tail head) q).put (.ctlDone who (SPL_DOORBELL q) 0)).fget off f =
    (bellWoken (bellRung s q stale tail head) q).fget off f := fun _ _ => State.put_fget ..
  refine completes_next rfl run ⟨(marks.trans (bellWoken_marks _ q)).put _, rfl, ?_, ?_, ?_, (kept.trans (woken.mono fun _ h => .inr (.inl h))).put _⟩
  · rw [splTail, shows, woken.fget apart]
    exact bellRung_tail s q stale htail
  · rw [splHead, shows, woken.fget apart]
    exact bellRung_head s q stale hhead
  · rw [splState, shows]
    refine (bellWoken_state _ q).trans ?_
    rw [bellRung_state s q stale tail head hq, live]

/-- Any other doorbell is not applied. -/
theorem spoolDoorbell_unlawful (unlawful : ¬ bellLawful s q (laterIndex (fld w.new F.SPL_DOORBELL_SQTAIL) (splTail s q))
      (laterIndex (fld w.new F.SPL_DOORBELL_CQHEAD) (splHead s q))) :
    completes (.spoolDoorbell who q val) s (fun t => onlyRegisters s t ∧ endedWith who (SPL_DOORBELL q) C.SPL_E_DOORBELL t ∧
      t.rg (SPL_DOORBELL q) = s.rg (SPL_DOORBELL q) ∧ t.fget (SPL_STAT q) F.SPL_STAT_LASTDB = C.SPL_E_DOORBELL ∧
      regsKept (fun off => off = SPL_STAT q ∨ errorReg off) s t) := by
  have e := rowWrite_ended ha (admitted_index ha (regFind_splDoorbell hq) ▸ hookDoorbell_unlawful busy unlawful w.old w.act) (by decide) (by decide)
  obtain ⟨marks, out, record⟩ := bar4Record_frame s who q (rowWrite hookDoorbell who (SPL_DOORBELL q) val s)
  have kept : regsKept (fun off => off = SPL_STAT q ∨ errorReg off) s _ :=
    (((s.fset_regsKept (SPL_STAT q) F.SPL_STAT_LASTDB C.SPL_E_DOORBELL).mono fun _ => .inl).trans (e.regs.mono fun _ => .inr)).trans (record.mono fun _ => .inr)
  have bell : ¬ (SPL_DOORBELL q = SPL_STAT q ∨ errorReg (SPL_DOORBELL q)) :=
    not_or.2 ⟨by unfold SPL_STAT SPL_DOORBELL; omega, not_errorReg_spl hq (o := 0) (by decide) (by decide)⟩
  have stat : ¬ errorReg (SPL_STAT q) := not_errorReg_spl hq (o := 0x18) (by decide) (by decide)
  refine ⟨_, rfl, (((RegsMarks.refl s).fset _ _ _).ended e).trans marks.only, ?_, kept _ bell, ?_, kept⟩
  · rw [endedWith, out]
    exact e.status
  · exact ((record.fget stat _).trans (e.regs.fget stat _)).trans (State.fset_fget_lt _ _ _ _ (by decide) (by decide))

end

end Sys2Proof.Machine
end

section
/-! PROOF. A Spool consumes a command whose slot has arrived, or waits for the slot (R304, R305). -/

namespace Sys2Proof.Machine

theorem dSeq_eq (d : Line) : dSeq d = d.toNat % 2 ^ 32 := by rw [dSeq, getBits, Nat.pow_zero, Nat.div_one]

/-! What the answer of a slot's read may change. -/

def progressReg (q off : Nat) : Prop := off = SPL_PROGRESS q ∨ off = SPL_STAT q ∨ counterReg off = true

/-- The reply is taken, and nothing but the Spool, its registers and event counters differs. -/
structure SlotAnswer (s : State) (q : Nat) (r : BobReply) (t : State) : Prop where
  frame : t = { s with regs := t.regs, levelNs := t.levelNs, spools := t.spools, home := { s.home with bobReplies := s.home.bobReplies.erase r } }
  others : ∀ p, p ≠ q → t.spool p = s.spool p
  regs : regsKept (progressReg q) s t

/-- The answer has come: the Spool asks for no slot. -/
def slotAnswered (s : State) (q : Nat) (r : BobReply) : State := (s.replied r).setSpool q { s.spool q with asked := false }

theorem SlotAnswer.setSpool {s t : State} {q : Nat} {r : BobReply} (a : SlotAnswer s q r t) (x : Spool) : SlotAnswer s q r (t.setSpool q x) where
  frame := by
    have b := a.frame
    generalize tt : t.setSpool q x = v
    rw [State.setSpool, b] at tt
    rw [← tt]
  others p hp := by rw [State.setSpool_spool, if_neg hp, a.others p hp]
  regs := a.regs

theorem SlotAnswer.marks {s t u : State} {q : Nat} {r : BobReply} (a : SlotAnswer s q r t) (m : RegsMarks t u) (k : regsKept (progressReg q) t u) :
    SlotAnswer s q r u where
  frame := by rw [m, a.frame]
  others p hp := (m.spool p).trans (a.others p hp)
  regs := a.regs.trans k

theorem slotAnswered_answer (s : State) (q : Nat) (r : BobReply) : SlotAnswer s q r (slotAnswered s q r) :=
  SlotAnswer.setSpool (t := s.replied r) ⟨rfl, fun _ _ => rfl, .of_regs rfl⟩ _

theorem slotAnswered_spool (s : State) (q : Nat) (r : BobReply) : (slotAnswered s q r).spool q = { s.spool q with asked := false } := by
  rw [slotAnswered, State.setSpool_spool, if_pos rfl]

section
variable {s : State} {q : Nat}

theorem RegsMarks.setSplState {t : State} (a : RegsMarks s t) (v : Nat) : RegsMarks s (setSplState t q v) := a.fset _ _ _

theorem splCons_setSplState (s : State) (q v : Nat) : splCons (setSplState s q v) q = splCons s q :=
  State.fset_fget_off _ _ _ _ _ _ (by unfold SPL_PROGRESS SPL_STAT; omega)

/-! The three ends of a slot's read. -/

/-- The Spool waits for its slot in state `v`; nothing is consumed. -/
theorem slotWaits {u : State} {r : BobReply} (a : SlotAnswer s q r u) {v : Nat} (hv : v < 2 ^ 3) : SlotAnswer s q r (setSplState u q v) ∧
    splState (setSplState u q v) q = v ∧ (setSplState u q v).spool q = u.spool q ∧ splCons (setSplState u q v) q = splCons u q :=
  ⟨a.marks ((RegsMarks.refl u).setSplState v) ((setSplState_regsKept u q v).mono fun _ h => .inr (.inl h)), setSplState_same u q hv,
    ((RegsMarks.refl u).setSplState v).spool q, splCons_setSplState u q v⟩

/-- A command as it enters the table of its Spool. -/
def freshCmd (n : Nat) (d : Line) (now : Nat) : Cmd := { n := n, desc := d, stage := 0, bob := 255, claim := none, recd := 0, failed := none, born := now }

/-- The Spool goes on, with the next command to consume. -/
def consAdvanced (s : State) (q n : Nat) : State := (setSplState s q (splLive s)).fset (SPL_PROGRESS q) F.SPL_PROGRESS_CONS ((n + 1) % 2 ^ 32)

/-- The command enters the table. -/
def withCmd (s : State) (q : Nat) (c : Cmd) : State := s.setSpool q { s.spool q with cmds := (s.spool q).cmds ++ [c] }

/-- The next command is consumed. -/
def cmdEntered (s : State) (q n : Nat) (d : Line) : State := evSPL (spoolClass s q) 0 (withCmd (consAdvanced s q n) q (freshCmd n d s.time))

theorem withCmd_spool (s : State) (q : Nat) (c : Cmd) : (withCmd s q c).spool q = { s.spool q with cmds := (s.spool q).cmds ++ [c] } := by
  rw [withCmd, State.setSpool_spool, if_pos rfl]

theorem evSPL_spool (c k : Nat) (s : State) (q : Nat) : (evSPL c k s).spool q = s.spool q := ((RegsMarks.refl s).evSPL c k).spool q

theorem slotRead_poison (u : State) (q : Nat) (d : Line) : slotRead q d true u = setSplState u q 3 := rfl

theorem slotRead_wrong {u : State} {q : Nat} {d : Line} (h : dSeq d ≠ splCons u q) : slotRead q d false u = setSplState u q 2 := if_pos h

theorem slotRead_right {u : State} {q : Nat} {d : Line} (h : dSeq d = splCons u q) (pass : cmdStatus (cmdEntered u q (splCons u q) d) q d = 0) :
    slotRead q d false u = cmdEntered u q (splCons u q) d := by
  refine (if_neg (not_not.2 h)).trans ?_
  exact if_pos pass

end

section
variable {u : State} {q : Nat} {d : Line}

theorem consAdvanced_marks (u : State) (q n : Nat) : RegsMarks u (consAdvanced u q n) := ((RegsMarks.refl u).setSplState _).fset _ _ _

theorem consAdvanced_regsKept (u : State) (q n : Nat) : regsKept (progressReg q) u (consAdvanced u q n) :=
  ((setSplState_regsKept u q _).mono fun _ h => .inr (.inl h)).fset (.inl rfl) _ _

/-- The registers of a Spool from SPL_CFG on stay as they are. -/
theorem not_progressReg_spl {o : Nat} (hq : q < 1024) (h : 0x40 ≤ o) (ho : o < 0x100) : ¬ progressReg q (0x600000 + o + q * 0x100) := by
  rintro (e | e | e)
  · unfold SPL_PROGRESS at e; omega
  · unfold SPL_STAT at e; omega
  · exact not_counterReg_spl hq ho e

theorem not_progressReg_fltStat (hq : q < 1024) : ¬ progressReg q FLT_STAT := by
  rintro (e | e | e)
  · unfold FLT_STAT SPL_PROGRESS at e; omega
  · unfold FLT_STAT SPL_STAT at e; omega
  · exact absurd e (by decide)

/-- What a command is checked against. -/
theorem cmdStatus_congr {s t : State} (progs : t.progs = s.progs) (level : t.devLevel = s.devLevel) (cls : ∀ f, t.fget (SPL_CLASSINFO q) f = s.fget (SPL_CLASSINFO q) f)
    (cfg : ∀ f, t.fget (SPL_CFG q) f = s.fget (SPL_CFG q) f) : cmdStatus t q d = cmdStatus s q d := by
  unfold cmdStatus spoolClass State.prog
  rw [progs, level, cfg]
  simp only [cls]

end

section
variable {s u : State} {q : Nat} {r : BobReply}

theorem cmdEntered_regsKept (u : State) (q n : Nat) (d : Line) : regsKept (fun off => counterReg off = true) (consAdvanced u q n) (cmdEntered u q n d) := by
  unfold cmdEntered
  generalize consAdvanced u q n = t
  exact (regsKept.of_regs (State.setSpool_regs ..)).trans (evSPL_regsKept (spoolClass_lt u q) (by decide) _)

theorem cmdEntered_progress (hq : q < 1024) (u : State) (n : Nat) (d : Line) : splCons (cmdEntered u q n d) q = (n + 1) % 2 ^ 32 := by
  have kept := (cmdEntered_regsKept u q n d).fget (not_counterReg_spl hq (o := 8) (by decide)) F.SPL_PROGRESS_CONS
  exact kept.trans (State.fset_fget_lt _ _ _ _ (by decide) (Nat.mod_lt _ (by decide)))

theorem cmdEntered_state (hq : q < 1024) (u : State) (n : Nat) (d : Line) : splState (cmdEntered u q n d) q = splLive u := by
  have apart : SPL_STAT q ≠ SPL_PROGRESS q := by unfold SPL_STAT SPL_PROGRESS; omega
  have kept := (cmdEntered_regsKept u q n d).fget (not_counterReg_spl hq (o := 0x18) (by decide)) F.SPL_STAT_STATE
  exact kept.trans ((State.fset_fget_off _ _ _ _ _ _ apart).trans (setSplState_same u q (splLive_lt u)))

theorem cmdEntered_spool (u : State) (q n : Nat) (d : Line) :
    (cmdEntered u q n d).spool q = { u.spool q with cmds := (u.spool q).cmds ++ [freshCmd n d u.time] } := by
  have before : (consAdvanced u q n).spool q = u.spool q := (consAdvanced_marks u q n).spool q
  rw [cmdEntered, evSPL_spool, withCmd_spool, before]

variable (a : SlotAnswer s q r u)
include a

theorem SlotAnswer.entered (n : Nat) (d : Line) : SlotAnswer s q r (cmdEntered u q n d) :=
  ((a.marks (consAdvanced_marks u q n) (consAdvanced_regsKept u q n)).setSpool _).marks ((RegsMarks.refl _).evSPL _ _)
    ((evSPL_regsKept (spoolClass_lt u q) (by decide) _).mono fun _ h => .inr (.inr h))

theorem SlotAnswer.devLevel (hq : q < 1024) : u.devLevel = s.devLevel := a.regs.fget (not_progressReg_fltStat hq) _

theorem SlotAnswer.splLive (hq : q < 1024) : splLive u = splLive s := by rw [Machine.splLive, a.devLevel hq, Machine.splLive]

theorem SlotAnswer.cmdStatus (hq : q < 1024) (d : Line) : cmdStatus u q d = cmdStatus s q d :=
  cmdStatus_congr (by rw [a.frame]) (a.devLevel hq) (fun _ => a.regs.fget (not_progressReg_spl hq (o := 0x58) (by decide) (by decide)) _)
    (fun _ => a.regs.fget (not_progressReg_spl hq (o := 0x40) (by decide) (by decide)) _)

end

/-! A Spool whose slot has arrived. -/

section
variable {s : State} {q : Nat} {r : BobReply} (may : mayConsume s q = true) (here : r ∈ s.home.bobReplies) (bob : r.bob = 128 + q) (slot : r.slot = 0)
  (only : ∀ x ∈ s.home.bobReplies, x.bob = 128 + q → x.slot = 0 → x = r) (ok : r.status = 0)
include may here bob slot only ok

theorem consume_answered : consume q s = slotRead q r.data r.poison (slotAnswered s q r) := by
  have taken : takeReply s (128 + q) 0 = (some r, s.replied r) := by
    have e := takeReply_only here (by rwa [bob, slot])
    rwa [bob, slot] at e
  have fine : (r.poison || decide (2 ≤ statusClass r.status)) = r.poison := by
    rw [ok, decide_eq_false statusClass_success, Bool.or_false]
  unfold consume
  rw [if_neg (by rw [may]; decide), taken]
  dsimp only
  rw [fine]
  rfl

/-- What the slot is decides: poison, another command's number, or the next command. -/
theorem consume_completes (hq : q < 1024) (pass : r.poison = true ∨ dSeq r.data ≠ splCons s q ∨ cmdStatus s q r.data = 0) :
    SlotAnswer s q r (consume q s) ∧
    (r.poison = true → splState (consume q s) q = 3 ∧ ((consume q s).spool q).cmds = (s.spool q).cmds ∧ splCons (consume q s) q = splCons s q) ∧
    (r.poison = false → dSeq r.data ≠ splCons s q →
      splState (consume q s) q = 2 ∧ ((consume q s).spool q).cmds = (s.spool q).cmds ∧ splCons (consume q s) q = splCons s q) ∧
    (r.poison = false → dSeq r.data = splCons s q → splCons (consume q s) q = (splCons s q + 1) % 2 ^ 32 ∧ splState (consume q s) q = splLive s ∧
      ∃ born, ((consume q s).spool q).cmds = (s.spool q).cmds ++ [freshCmd (splCons s q) r.data born]) := by
  have a := slotAnswered_answer s q r
  have table : ((slotAnswered s q r).spool q).cmds = (s.spool q).cmds := by rw [slotAnswered_spool]
  have cons : splCons (slotAnswered s q r) q = splCons s q := State.setSpool_fget ..
  rw [consume_answered may here bob slot only ok]
  generalize slotAnswered s q r = u at *
  cases poison : r.poison with
  | true =>
    obtain ⟨answer, state, spool, next⟩ := slotWaits a (v := 3) (by decide)
    rw [slotRead_poison]
    exact ⟨answer, fun _ => ⟨state, by rw [spool, table], next.trans cons⟩, fun h => absurd h (by decide), fun h => absurd h (by decide)⟩
  | false =>
    by_cases seq : dSeq r.data = splCons s q
    · have entered := a.entered (splCons u q) r.data
      have checks : cmdStatus (cmdEntered u q (splCons u q) r.data) q r.data = 0 :=
        (entered.cmdStatus hq _).trans ((pass.resolve_left (by rw [poison]; decide)).resolve_left (not_not.2 seq))
      rw [slotRead_right (seq.trans cons.symm) checks]
      refine ⟨entered, fun h => absurd h (by decide), fun _ h => absurd seq h, fun _ _ => ⟨?_, ?_, u.time, ?_⟩⟩
      · rw [cmdEntered_progress hq, cons]
      · rw [cmdEntered_state hq, a.splLive hq]
      · rw [cmdEntered_spool, table, cons]
    · obtain ⟨answer, state, spool, next⟩ := slotWaits a (v := 2) (by decide)
      rw [slotRead_wrong fun h => seq (h.trans cons)]
      exact ⟨answer, fun h => absurd h (by decide), fun _ _ => ⟨state, by rw [spool, table], next.trans cons⟩, fun _ h => absurd h seq⟩

end

end Sys2Proof.Machine
end

section
/-! PROOF. Configuration of a Spool and of a Bobbin: rings, resets, capabilities and drains (R298, R309, R312, R316). -/

namespace Sys2Proof.Machine

/-! The register before an admitted write. -/

/-- An admitted write is given the stored value of its register. -/
theorem admitted_old {who : Who} {off : Nat} {val : Word} {s : State} {w : CtlWrite} (ha : admitted who off val s w) (f : Fld) : fld w.old f = s.fget off f := by
  have old : w.old = (s.rg off).toNat := by
    obtain ⟨-, hok, -⟩ := ha
    unfold ctlCheck at hok
    cases hf : if off < 0x100000000 then regFind off else none with
    | none =>
      rw [hf] at hok
      dsimp only at hok
      split_ifs at hok
    | some h =>
      rw [hf] at hok
      dsimp only at hok
      split_ifs at hok <;> cases hok <;> rfl
  rw [old, State.fget]

/-! A Spool with no command and no slot read under way. -/

section
variable {s t : State} {q : Nat}

/-- Where no slot read was under way, none is after a change of registers. -/
theorem RegsOnly.dropSlotRead (a : RegsOnly s t) (h : dropSlotRead s q = s) : dropSlotRead t q = t := by
  have apart : ∀ r, Machine.dropSlotRead { s with regs := r } q = { Machine.dropSlotRead s q with regs := r } := fun _ => rfl
  rw [a, apart, h]

theorem stopCmds_none (h : (s.spool q).cmds = []) (all : Bool) (a b : Nat) : stopCmds all a b s q = s := by rw [stopCmds, h, List.foldl_nil]

theorem RegsOnly.setSplState (a : RegsOnly s t) (v : Nat) : RegsOnly s (setSplState t q v) := a.fset _ _ _

theorem RegsOnly.zeroIndexes (a : RegsOnly s t) : RegsOnly s (zeroIndexes t q) := (a.setRg _ _).setRg _ _

theorem resetSpool_idle (cmds : (s.spool q).cmds = []) (drop : dropSlotRead s q = s) : resetSpool s q = setSplState s q 4 := by
  have a := (RegsOnly.refl s).setSplState (q := q) 4
  have none : ((setSplState s q 4).spool q).cmds = [] := (a.same (·.spool q) fun _ => rfl) ▸ cmds
  rw [resetSpool, a.dropSlotRead drop, stopCmds_none none]

end

/-! SPL_CFG (R298, R309). -/

/-- What R298 asks of the rings of a Spool with `2 ^ lg` slots. -/
def ringsLawful (s : State) (q lg : Nat) : Prop :=
  let sq := s.fget (SPL_SQBASE q) F.SPL_SQBASE_LPN * 4096
  let cq := s.fget (SPL_CQBASE q) F.SPL_CQBASE_LPN * 4096
  4 ≤ lg ∧ lg ≤ 16 ∧ sq + 64 * 2 ^ lg ≤ pagesL s * 4096 ∧ cq + 16 * 2 ^ lg ≤ pagesL s * 4096 ∧ (sq + 64 * 2 ^ lg ≤ cq ∨ cq + 16 * 2 ^ lg ≤ sq)

theorem ringsOk_iff (s : State) (q lg : Nat) : ringsOk s q lg = true ↔ ringsLawful s q lg := by
  unfold ringsOk ringsLawful overlap
  simp only [Bool.and_eq_true, decide_eq_true_eq, Bool.not_eq_true', Bool.and_eq_false_iff, decide_eq_false_iff_not, Nat.not_lt]
  constructor
  · rintro ⟨⟨⟨⟨low, high⟩, sq⟩, cq⟩, apart⟩
    exact ⟨low, high, sq, cq, apart.symm⟩
  · rintro ⟨low, high, sq, cq, apart⟩
    exact ⟨⟨⟨⟨low, high⟩, sq⟩, cq⟩, apart.symm⟩

section
variable {s : State} {who : Who} {q old new act : Nat}

/-- The Spool is live on empty rings. -/
def spoolEnabled (s : State) (q new : Nat) : State :=
  setSplState ((zeroIndexes (s.setRg (SPL_CFG q) (BitVec.ofNat 64 new)) q).fset (SPL_STAT q) F.SPL_STAT_STALE 0) q
    (splLive (s.setRg (SPL_CFG q) (BitVec.ofNat 64 new)))

theorem hookSplCfg_enable (reset : fld act F.SPL_CFG_RESET = 0) (en : fld new F.SPL_CFG_EN = 1) (was : fld old F.SPL_CFG_EN = 0) (cmds : (s.spool q).cmds = [])
    (drop : dropSlotRead s q = s) (rings : ringsLawful s q (fld new F.SPL_CFG_SQLOG)) (state : splState s q ≠ 4) :
    hookSplCfg [q] old new act s = (spoolEnabled s q new, 0) := by
  have kept := ((RegsOnly.refl s).setRg (SPL_CFG q) (BitVec.ofNat 64 new)).dropSlotRead drop
  have ok := (ringsOk_iff ..).2 rings
  simp [hookSplCfg, en, was, reset, cmds, ok, state, kept, spoolEnabled]

theorem hookSplCfg_notEnabled (reset : fld act F.SPL_CFG_RESET = 0) (en : fld new F.SPL_CFG_EN = 1) (was : fld old F.SPL_CFG_EN = 0)
    (bad : ¬ ringsLawful s q (fld new F.SPL_CFG_SQLOG) ∨ splState s q = 4) : hookSplCfg [q] old new act s = (s, C.SPL_E_CONFIG) := by
  rw [← ringsOk_iff, Bool.not_eq_true] at bad
  obtain bad | bad := bad <;> simp [hookSplCfg, en, was, reset, bad]

theorem hookSplCfg_reset (reset : fld act F.SPL_CFG_RESET = 1) (en : fld new F.SPL_CFG_EN = fld old F.SPL_CFG_EN)
    (lg : fld new F.SPL_CFG_SQLOG = fld old F.SPL_CFG_SQLOG) (cmds : (s.spool q).cmds = []) (drop : dropSlotRead s q = s) (state : splState s q ≠ 4) :
    hookSplCfg [q] old new act s = (setSplState (s.setRg (SPL_CFG q) (BitVec.ofNat 64 new)) q 4, 0) := by
  have a := (RegsOnly.refl s).setRg (SPL_CFG q) (BitVec.ofNat 64 new)
  have none : ((s.setRg (SPL_CFG q) (BitVec.ofNat 64 new)).spool q).cmds = [] := (a.same (·.spool q) fun _ => rfl) ▸ cmds
  have done := resetSpool_idle none (a.dropSlotRead drop)
  by_cases e : fld old F.SPL_CFG_EN = 1 <;> simp [hookSplCfg, en, lg, reset, state, done, e]

theorem hookSplCfg_resetting (reset : fld act F.SPL_CFG_RESET = 1) (lg : fld new F.SPL_CFG_SQLOG = fld old F.SPL_CFG_SQLOG) (state : splState s q = 4) :
    hookSplCfg [q] old new act s = (s, C.SPL_E_CONFIG) := by
  simp [hookSplCfg, lg, reset, state]

end

/-- What EN may change. -/
def ringReg (q off : Nat) : Prop := off = SPL_CFG q ∨ off = SPL_PROGRESS q ∨ off = SPL_DOORBELL q ∨ off = SPL_STAT q

section
variable (s : State) (q new : Nat)

theorem spoolEnabled_only : RegsOnly s (spoolEnabled s q new) := ((((RegsOnly.refl s).setRg _ _).zeroIndexes).fset _ _ _).setSplState _

theorem zeroIndexes_regsKept : regsKept (fun off => off = SPL_PROGRESS q ∨ off = SPL_DOORBELL q) s (zeroIndexes s q) :=
  ((regsKept.refl _ s).setRg (.inl rfl) _).setRg (.inr rfl) _

theorem zeroIndexes_rg : (zeroIndexes s q).rg (SPL_PROGRESS q) = 0 ∧ (zeroIndexes s q).rg (SPL_DOORBELL q) = 0 := by
  have apart : SPL_PROGRESS q ≠ SPL_DOORBELL q := by unfold SPL_PROGRESS SPL_DOORBELL; omega
  exact ⟨(State.setRg_rg_other _ _ _ _ apart).trans (State.setRg_rg_same ..), State.setRg_rg_same ..⟩

theorem spoolEnabled_regsKept : regsKept (ringReg q) s (spoolEnabled s q new) := by
  have zeroed := (zeroIndexes_regsKept (s.setRg (SPL_CFG q) (BitVec.ofNat 64 new)) q).mono (ex' := ringReg q) fun _ h => .inr (h.imp_right .inl)
  exact ((((regsKept.refl (ringReg q) s).setRg (.inl rfl) _).trans zeroed).fset (.inr (.inr (.inr rfl))) _ _).fset (.inr (.inr (.inr rfl))) _ _

/-- Both indexes are zero, SPL_CFG is as written, and the Spool is live. -/
theorem spoolEnabled_reads : (spoolEnabled s q new).rg (SPL_CFG q) = BitVec.ofNat 64 new ∧ (spoolEnabled s q new).rg (SPL_PROGRESS q) = 0 ∧
    (spoolEnabled s q new).rg (SPL_DOORBELL q) = 0 ∧ splState (spoolEnabled s q new) q = splLive s := by
  obtain ⟨progress, bell⟩ := zeroIndexes_rg (s.setRg (SPL_CFG q) (BitVec.ofNat 64 new)) q
  have cfg : (zeroIndexes (s.setRg (SPL_CFG q) (BitVec.ofNat 64 new)) q).rg (SPL_CFG q) = BitVec.ofNat 64 new :=
    (zeroIndexes_regsKept _ q _ (by unfold SPL_CFG SPL_PROGRESS SPL_DOORBELL; omega)).trans (State.setRg_rg_same ..)
  have live : splLive (s.setRg (SPL_CFG q) (BitVec.ofNat 64 new)) = splLive s := by
    have level : (s.setRg (SPL_CFG q) (BitVec.ofNat 64 new)).devLevel = s.devLevel :=
      ((regsKept.refl (fun off => off = SPL_CFG q) s).setRg rfl _).fget (by unfold FLT_STAT SPL_CFG; omega) _
    unfold splLive
    rw [level]
  have shown : ∀ u : State, ∀ off, off ≠ SPL_STAT q → (setSplState (u.fset (SPL_STAT q) F.SPL_STAT_STALE 0) q (splLive s)).rg off = u.rg off := fun u off h =>
    (State.fset_rg_other _ _ _ _ _ h).trans (State.fset_rg_other _ _ _ _ _ h)
  unfold spoolEnabled
  rw [live]
  generalize zeroIndexes (s.setRg (SPL_CFG q) (BitVec.ofNat 64 new)) q = u at *
  refine ⟨?_, ?_, ?_, setSplState_same _ q (splLive_lt s)⟩
  · rw [shown u _ (by unfold SPL_CFG SPL_STAT; omega), cfg]
  · rw [shown u _ (by unfold SPL_PROGRESS SPL_STAT; omega), progress]
  · rw [shown u _ (by unfold SPL_DOORBELL SPL_STAT; omega), bell]

end

section
variable {s : State} {who : Who} {q : Nat} {val : Word} {w : CtlWrite} (hq : q < 1024) (ha : admitted who (SPL_CFG q) val s w)
  (cmds : (s.spool q).cmds = []) (drop : dropSlotRead s q = s)
include hq ha

/-- A write that is refused with SPL_E_CONFIG is not applied. -/
theorem splCfg_refused (h : hookSplCfg [q] w.old w.new w.act s = (s, C.SPL_E_CONFIG)) :
    endedWith who (SPL_CFG q) C.SPL_E_CONFIG (rowWrite hookSplCfg who (SPL_CFG q) val s) ∧ onlyRegisters s (rowWrite hookSplCfg who (SPL_CFG q) val s) ∧
      regsKept errorReg s (rowWrite hookSplCfg who (SPL_CFG q) val s) := by
  have e := rowWrite_ended ha (admitted_index ha (regFind_splCfg hq) ▸ h) (by decide) (by decide)
  exact ⟨e.status, e.onlyRegisters, e.regs⟩

include cmds drop

theorem en_completes (reset : fld w.act F.SPL_CFG_RESET = 0) (en : fld w.new F.SPL_CFG_EN = 1) (was : s.fget (SPL_CFG q) F.SPL_CFG_EN = 0) :
    completes (.en who q val) s (fun t =>
      (ringsLawful s q (fld w.new F.SPL_CFG_SQLOG) → splState s q ≠ 4 → endedWith who (SPL_CFG q) 0 t ∧ onlyRegisters s t ∧
        t.rg (SPL_CFG q) = BitVec.ofNat 64 w.new ∧ t.rg (SPL_PROGRESS q) = 0 ∧ t.rg (SPL_DOORBELL q) = 0 ∧ splState t q = splLive s ∧ regsKept (ringReg q) s t) ∧
      (¬ ringsLawful s q (fld w.new F.SPL_CFG_SQLOG) ∨ splState s q = 4 → endedWith who (SPL_CFG q) C.SPL_E_CONFIG t ∧ onlyRegisters s t ∧ regsKept errorReg s t)) := by
  have old := (admitted_old ha F.SPL_CFG_EN).trans was
  refine ⟨_, rfl, fun rings state => ?_, fun bad => splCfg_refused hq ha (hookSplCfg_notEnabled reset en old bad)⟩
  have enabled := hookSplCfg_enable reset en old cmds drop rings state
  rw [rowWrite_success ha (admitted_index ha (regFind_splCfg hq) ▸ enabled)]
  obtain ⟨cfg, progress, bell, live⟩ := spoolEnabled_reads s q w.new
  exact ⟨rfl, (spoolEnabled_only s q w.new).marks.put _, (State.put_rg ..).trans cfg, (State.put_rg ..).trans progress, (State.put_rg ..).trans bell,
    (State.put_fget ..).trans live, (spoolEnabled_regsKept s q w.new).put _⟩

theorem splReset_completes (reset : fld w.act F.SPL_CFG_RESET = 1) (en : fld w.new F.SPL_CFG_EN = s.fget (SPL_CFG q) F.SPL_CFG_EN)
    (lg : fld w.new F.SPL_CFG_SQLOG = s.fget (SPL_CFG q) F.SPL_CFG_SQLOG) : completes (.splReset who q val) s (fun t =>
      (splState s q = 4 → endedWith who (SPL_CFG q) C.SPL_E_CONFIG t ∧ onlyRegisters s t ∧ regsKept errorReg s t) ∧
      (splState s q ≠ 4 → endedWith who (SPL_CFG q) 0 t ∧ splState t q = 4 ∧ onlyRegisters s t ∧ regsKept (fun off => off = SPL_CFG q ∨ off = SPL_STAT q) s t)) := by
  rw [← admitted_old ha] at en lg
  refine ⟨_, rfl, fun state => splCfg_refused hq ha (hookSplCfg_resetting reset lg state), fun state => ?_⟩
  have begun := hookSplCfg_reset reset en lg cmds drop state
  rw [rowWrite_success ha (admitted_index ha (regFind_splCfg hq) ▸ begun)]
  have kept := ((regsKept.refl (fun off => off = SPL_CFG q ∨ off = SPL_STAT q) s).setRg (.inl rfl) (BitVec.ofNat 64 w.new)).fset (.inr rfl) F.SPL_STAT_STATE 4
  exact ⟨rfl, (State.put_fget ..).trans (setSplState_same _ q (by decide)), (((RegsOnly.refl s).setRg _ _).setSplState _).marks.put _, kept.put _⟩

end

/-! The end of a reset (R309). -/

/-- The registers of a Spool whose reset has ended. -/
def resetEnded (s : State) (q : Nat) : State := setSplState ((zeroIndexes s q).fset (SPL_CFG q) F.SPL_CFG_EN 0) q 0

theorem spoolResetFinish_completes {s : State} {q : Nat} (state : splState s q = 4) (cmds : (s.spool q).cmds = []) (mbox : (s.spool q).mbox = []) :
    completes (.spoolResetFinish q) s (fun t => t.fget (SPL_CFG q) F.SPL_CFG_EN = 0 ∧ splState t q = 0 ∧ t.rg (SPL_PROGRESS q) = 0 ∧ t.rg (SPL_DOORBELL q) = 0 ∧
      t.spool q = s.spool q ∧ t = { s with regs := t.regs, spools := t.spools } ∧ regsKept (ringReg q) s t) := by
  have e : resetFinish q s = (resetEnded s q).setSpool q (s.spool q) := by
    have same : { s.spool q with mbox := [] } = s.spool q := by rw [← mbox]
    rw [resetFinish, if_pos ⟨state, cmds⟩]
    dsimp only
    rw [same, mbox, List.foldl_nil, resetEnded]
  have run : exec (.spoolResetFinish q) s = .next ((resetEnded s q).setSpool q (s.spool q)) := congrArg Host.Outcome.next e
  obtain ⟨progress, bell⟩ := zeroIndexes_rg s q
  have zeroed := (zeroIndexes_regsKept s q).mono (ex' := ringReg q) fun _ h => .inr (h.imp_right .inl)
  have only : RegsOnly s (resetEnded s q) := (((RegsOnly.refl s).zeroIndexes).fset _ _ _).setSplState _
  have kept : regsKept (ringReg q) s (resetEnded s q) := (zeroed.fset (.inl rfl) _ _).fset (.inr (.inr (.inr rfl))) _ _
  have cfgStat : SPL_CFG q ≠ SPL_STAT q := by unfold SPL_CFG SPL_STAT; omega
  have shown : ∀ off, off ≠ SPL_CFG q → off ≠ SPL_STAT q → (resetEnded s q).rg off = (zeroIndexes s q).rg off := fun off h1 h2 =>
    (State.fset_rg_other _ _ _ _ _ h2).trans (State.fset_rg_other _ _ _ _ _ h1)
  refine (completes_iff run).2 ⟨?_, ?_, ?_, ?_, ?_, ?_, ?_⟩
  · rw [State.setSpool_fget, resetEnded, setSplState, State.fset_fget_off _ _ _ _ _ _ cfgStat]
    exact State.fset_fget_lt _ _ _ _ (by decide) (by decide)
  · exact (State.setSpool_fget ..).trans (setSplState_same _ q (by decide))
  · rw [State.setSpool_rg, shown _ (by unfold SPL_PROGRESS SPL_CFG; omega) (by unfold SPL_PROGRESS SPL_STAT; omega), progress]
  · rw [State.setSpool_rg, shown _ (by unfold SPL_DOORBELL SPL_CFG; omega) (by unfold SPL_DOORBELL SPL_STAT; omega), bell]
  · rw [State.setSpool_spool, if_pos rfl]
  · generalize resetEnded s q = u at *
    rw [only]
    rfl
  · exact kept

/-! Registers that only a quiet Spool takes (R312). -/

theorem splQuiet_iff (s : State) (q : Nat) : splQuiet s q = true ↔ s.fget (SPL_CFG q) F.SPL_CFG_EN = 0 ∧ (s.spool q).cmds = [] := by
  have narrow : s.fget (SPL_CFG q) F.SPL_CFG_EN < 2 ^ 1 := fld_lt _ _
  have off : s.fget (SPL_CFG q) F.SPL_CFG_EN ≠ 1 ↔ s.fget (SPL_CFG q) F.SPL_CFG_EN = 0 := by omega
  rw [splQuiet, splEn, Bool.and_eq_true, Bool.not_eq_true', List.isEmpty_iff, beq_eq_false_iff_ne, off]

/-- A write that a live Spool or one with commands refuses, and a quiet one takes unless it is `bad`. -/
theorem quietWrite_completes {s : State} {who : Who} {q off err : Nat} {val : Word} {w : CtlWrite} {c : Instr} {hook : Hook} {ok : Prop} [Decidable ok]
    (ha : admitted who off val s w) (run : exec c s = .next (rowWrite hook who off val s)) (h1 : err ≠ C.CTL_E_WORLD) (h2 : err ≠ C.CTL_E_NOT_OWNER)
    (does : hook w.hit.idx w.old w.new w.act s =
      if splQuiet s q = false then (s, C.SPL_E_CONFIG) else if ok then (s.setRg off (BitVec.ofNat 64 w.new), 0) else (s, err)) :
    let quiet := s.fget (SPL_CFG q) F.SPL_CFG_EN = 0 ∧ (s.spool q).cmds = []
    completes c s (fun t => onlyRegisters s t ∧ (¬ quiet → endedWith who off C.SPL_E_CONFIG t ∧ regsKept errorReg s t) ∧
      (quiet → ¬ ok → endedWith who off err t ∧ regsKept errorReg s t) ∧
      (quiet → ok → endedWith who off 0 t ∧ t.rg off = BitVec.ofNat 64 w.new ∧ regsKept (fun o => o = off) s t)) := by
  intro quiet
  refine (completes_iff run).2 ?_
  by_cases hq : quiet
  · rw [if_neg (by rw [(splQuiet_iff s q).2 hq]; decide)] at does
    by_cases good : ok
    · rw [if_pos good] at does
      rw [rowWrite_success ha does]
      exact ⟨((RegsOnly.refl s).setRg _ _).marks.put _, fun h => absurd hq h, fun _ h => absurd good h,
        fun _ _ => ⟨rfl, (State.put_rg ..).trans (State.setRg_rg_same ..), ((regsKept.refl (fun o => o = off) s).setRg rfl _).put _⟩⟩
    · rw [if_neg good] at does
      have e := rowWrite_ended ha does h1 h2
      exact ⟨e.onlyRegisters, fun h => absurd hq h, fun _ _ => ⟨e.status, e.regs⟩, fun _ h => absurd h good⟩
  · rw [if_pos (by rwa [← Bool.not_eq_true, splQuiet_iff])] at does
    have e := rowWrite_ended ha does (by decide) (by decide)
    exact ⟨e.onlyRegisters, fun _ => ⟨e.status, e.regs⟩, fun h => absurd h hq, fun h => absurd h hq⟩

/-- SPL_CAP0 takes no flag outside FLAGCEIL. -/
theorem hookCap_eq (s : State) (q k old new act : Nat) : hookCap [q, k] old new act s =
    if splQuiet s q = false then (s, C.SPL_E_CONFIG)
    else if k = 0 → new % 32 &&& s.fget (SPL_CLASSINFO q) F.SPL_CLASSINFO_FLAGCEIL = new % 32 then (s.setRg (SPL_CAP q k) (BitVec.ofNat 64 new), 0)
    else (s, C.SPL_E_CAP_CEILING) := by
  simp only [hookCap, List.headD_cons, List.getD_cons_succ, List.getD_cons_zero]
  by_cases h0 : k = 0 <;> by_cases hc : new % 32 &&& s.fget (SPL_CLASSINFO q) F.SPL_CLASSINFO_FLAGCEIL = new % 32 <;> simp [h0, hc]

/-! DRAIN (R316). -/

/-- DRAIN takes an idle Bobbin out of service, and its end takes it back. -/
def drained (d st : Nat) : Nat := if d = 1 ∧ st = 0 then 2 else if d = 0 ∧ st = 2 then 0 else st

/-- BOB_CFG is as written. -/
def bobConfigured (s : State) (b new : Nat) : State := s.setRg (BOB_CFG b) (BitVec.ofNat 64 new)

theorem hookBobCfg_eq {s : State} {b : Nat} (test : bobTestDue s b = false) (old new act : Nat) : ∃ t, hookBobCfg [b] old new act s = (t, 0) ∧
    (t = bobConfigured s b new ∨ ∃ v, t = (bobConfigured s b new).fset (BOB_STAT b) F.BOB_STAT_STATE v) ∧
    t.fget (BOB_STAT b) F.BOB_STAT_STATE = drained (fld new F.BOB_CFG_DRAIN) (s.fget (BOB_STAT b) F.BOB_STAT_STATE) := by
  have narrow : fld new F.BOB_CFG_DRAIN < 2 ^ 1 := fld_lt _ _
  have off : ¬ fld new F.BOB_CFG_DRAIN = 1 ↔ fld new F.BOB_CFG_DRAIN = 0 := by omega
  have apart : BOB_STAT b ≠ BOB_CFG b := by unfold BOB_STAT BOB_CFG; omega
  have stat : (bobConfigured s b new).fget (BOB_STAT b) F.BOB_STAT_STATE = s.fget (BOB_STAT b) F.BOB_STAT_STATE :=
    ((regsKept.refl (fun off => off = BOB_CFG b) s).setRg rfl _).fget apart _
  have set : ∀ v < 8, ((bobConfigured s b new).fset (BOB_STAT b) F.BOB_STAT_STATE v).fget (BOB_STAT b) F.BOB_STAT_STATE = v := fun v hv =>
    State.fset_fget_lt _ _ _ _ (by decide) hv
  simp only [hookBobCfg, List.headD_cons, test, Bool.false_eq_true, if_false, beq_iff_eq, beq_eq_false_iff_ne, off]
  refine ⟨_, rfl, ?_⟩
  unfold drained
  split
  · exact ⟨.inr ⟨2, rfl⟩, set 2 (by decide)⟩
  · split
    · exact ⟨.inr ⟨0, rfl⟩, set 0 (by decide)⟩
    · exact ⟨.inl rfl, stat⟩

theorem drain_completes {s : State} {who : Who} {b : Nat} {val : Word} {w : CtlWrite} (hb : b < 64) (ha : admitted who (BOB_CFG b) val s w)
    (test : bobTestDue s b = false) : completes (.drain who b val) s (fun t => endedWith who (BOB_CFG b) 0 t ∧ onlyRegisters s t ∧
      t.rg (BOB_CFG b) = BitVec.ofNat 64 w.new ∧ regsKept (fun off => off = BOB_CFG b ∨ off = BOB_STAT b) s t ∧
      t.fget (BOB_STAT b) F.BOB_STAT_STATE = drained (fld w.new F.BOB_CFG_DRAIN) (s.fget (BOB_STAT b) F.BOB_STAT_STATE)) := by
  obtain ⟨u, does, form, state⟩ := hookBobCfg_eq test w.old w.new w.act
  have only : RegsOnly s (bobConfigured s b w.new) := (RegsOnly.refl s).setRg _ _
  have kept : regsKept (fun off => off = BOB_CFG b ∨ off = BOB_STAT b) s (bobConfigured s b w.new) := (regsKept.refl _ s).setRg (.inl rfl) _
  have cfg : (bobConfigured s b w.new).rg (BOB_CFG b) = BitVec.ofNat 64 w.new := State.setRg_rg_same ..
  refine completes_next rfl (rowWrite_success ha (admitted_index ha (regFind_bobCfg hb) ▸ does)) ⟨rfl, ?_, ?_, ?_, (State.put_fget ..).trans state⟩
  · obtain rfl | ⟨v, rfl⟩ := form
    · exact only.marks.put _
    · exact (only.fset _ _ _).marks.put _
  · rw [State.put_rg]
    obtain rfl | ⟨v, rfl⟩ := form
    · exact cfg
    · exact (State.fset_rg_other _ _ _ _ _ (by unfold BOB_CFG BOB_STAT; omega)).trans cfg
  · obtain rfl | ⟨v, rfl⟩ := form
    · exact kept.put _
    · exact (kept.fset (.inr rfl) _ _).put _

end Sys2Proof.Machine
end

section
/-! PROOF. Aborts of a Spool's commands, and its delayed interrupt (R91, R310, R322). -/

namespace Sys2Proof.Machine

/-! An abort (R310). -/

/-- The command is told to stop: its slot is claimed, and its program ends at the next instruction boundary. -/
def runStopped (s : State) (q n b : Nat) : State := (claimSlot s q n C.SPL_W_ABORTED 0).setBob b { s.bob b with run := 2 }

theorem claimSlot_bob (s : State) (q n st res k : Nat) : (claimSlot s q n st res).bob k = s.bob k := by
  rw [claimSlot, cmdUpd_frame]
  rfl

theorem runStopped_bob (s : State) (q n b k : Nat) : (runStopped s q n b).bob k = if k = b then { s.bob b with run := 2 } else s.bob k := by
  rw [runStopped, State.setBob_bob, claimSlot_bob]

theorem runStopped_spool (s : State) (q n b k : Nat) : (runStopped s q n b).spool k = (claimSlot s q n C.SPL_W_ABORTED 0).spool k := by
  rw [State.spool, runStopped, State.setBob_spools, State.spool]

theorem runStopped_dram (s : State) (q n b : Nat) : (runStopped s q n b).dram = s.dram := by
  rw [runStopped, State.setBob_dram, claimSlot, cmdUpd_frame]

section
variable {s : State} {q n : Nat}

theorem abortCmd_notConsumed (h : ahead (splCons s q) n = 0 ∨ 2 ^ 31 ≤ ahead (splCons s q) n) : abortCmd q n s = (C.SPL_E_NOT_CONSUMED, s) := if_pos h

theorem bobOf_claimSlot (s : State) (q n st res k m : Nat) : bobOf (claimSlot s q n st res) k m = bobOf s k m := by rw [bobOf, claimSlot, cmdUpd_frame, bobOf]

theorem stopProgram_running {b : Nat} (runs : bobOf s q n = some b) (run : (s.bob b).run = 1) : stopProgram s q n = s.setBob b { s.bob b with run := 2 } := by
  rw [stopProgram, runs]
  exact if_pos (.inl run)

theorem abortCmd_running {c : Cmd} {b : Nat} (hb : 0 < ahead (splCons s q) n) (hb' : ahead (splCons s q) n < 2 ^ 31) (ring : ahead (splCons s q) n ≤ 2 ^ sqLog s q)
    (cmds : (s.spool q).cmds = [c]) (name : c.n = n) (stage : c.stage = 1) (claim : c.claim = none) (runs : bobOf s q n = some b) (run : (s.bob b).run = 1) :
    abortCmd q n s = (0, evSPL (spoolClass s q) 4 (runStopped s q n b)) := by
  have found : (s.spool q).cmds.find? (fun c => c.n == n) = some c := by rw [cmds, List.find?_cons_of_pos (by rw [name, beq_self_eq_true])]
  have stopped : stopCmd false C.SPL_E_CANCELLED C.SPL_W_ABORTED q s c = runStopped s q n b := by
    have other : ¬ c.stage = 0 := by rw [stage]; decide
    rw [stopCmd, if_neg other, if_pos ⟨stage, .inr (by rw [claim]; rfl)⟩, name, stopProgram_running ((bobOf_claimSlot ..).trans runs) run]
    rfl
  rw [abortCmd, if_neg (by omega), if_neg (by omega), found]
  dsimp only
  rw [if_neg (by rw [claim]; decide), stopped]

/-- The abort's outcome stands in RESULT. -/
theorem hookAbort_eq {old new act st : Nat} {u : State} (go : fld act F.SPL_ABORT_GO = 1) (busy : s.fget (SPL_ABORT q) F.SPL_ABORT_BUSY = 0)
    (o : abortCmd q (fld new F.SPL_ABORT_SEQ) (s.fset (SPL_ABORT q) F.SPL_ABORT_SEQ (fld new F.SPL_ABORT_SEQ)) = (st, u)) :
    hookAbort [q] old new act s = (u.fset (SPL_ABORT q) F.SPL_ABORT_RESULT st, 0) := by
  have free : ¬ s.fget (SPL_ABORT q) F.SPL_ABORT_BUSY = 1 := by rw [busy]; decide
  rw [hookAbort]
  dsimp only
  rw [if_pos go, List.headD_cons, if_neg free, o]

end

/-- The abort is counted, and RESULT says that it was done. -/
def abortEnded (s : State) (q n b : Nat) : State := (evSPL (spoolClass s q) 4 (runStopped s q n b)).fset (SPL_ABORT q) F.SPL_ABORT_RESULT 0

section
variable (s : State) (q n b : Nat)

theorem abortEnded_marks : RegsMarks (runStopped s q n b) (abortEnded s q n b) := ((RegsMarks.refl _).evSPL _ _).fset _ _ _

theorem abortEnded_result : (abortEnded s q n b).fget (SPL_ABORT q) F.SPL_ABORT_RESULT = 0 := State.fset_fget_lt _ _ _ _ (by decide) (by decide)

theorem abortEnded_bob (k : Nat) : (abortEnded s q n b).bob k = if k = b then { s.bob b with run := 2 } else s.bob k := by
  rw [(abortEnded_marks s q n b).bob, runStopped_bob]

theorem abortEnded_dram : (abortEnded s q n b).dram = s.dram := by rw [(abortEnded_marks s q n b).dram, runStopped_dram]

end

/-- The only command of the Spool has its slot claimed. -/
theorem abortEnded_spool {s : State} {q n : Nat} {c : Cmd} (b : Nat) (cmds : (s.spool q).cmds = [c]) (name : c.n = n) (claim : c.claim = none) :
    (abortEnded s q n b).spool q = { s.spool q with cmds := [{ c with claim := some (C.SPL_W_ABORTED, 0) }] } := by
  rw [(abortEnded_marks s q n b).spool, runStopped_spool, claimSlot_spool, if_pos rfl, cmds, List.map_singleton, if_pos ⟨name, claim⟩]

section
variable {s : State} {who : Who} {q : Nat} {val : Word} {w : CtlWrite} (hq : q < 1024) (ha : admitted who (SPL_ABORT q) val s w)
  (go : fld w.act F.SPL_ABORT_GO = 1) (busy : s.fget (SPL_ABORT q) F.SPL_ABORT_BUSY = 0)
include hq ha go busy

/-- An abort of a command that no one has consumed says so. -/
theorem spoolAbort_notConsumed (far : ahead (splCons s q) (fld w.new F.SPL_ABORT_SEQ) = 0 ∨ 2 ^ 31 ≤ ahead (splCons s q) (fld w.new F.SPL_ABORT_SEQ)) :
    completes (.spoolAbort who q val) s (fun t => endedWith who (SPL_ABORT q) 0 t ∧ onlyRegisters s t ∧
      t.fget (SPL_ABORT q) F.SPL_ABORT_RESULT = C.SPL_E_NOT_CONSUMED ∧ regsKept (fun off => off = SPL_ABORT q) s t) := by
  have cons : splCons (s.fset (SPL_ABORT q) F.SPL_ABORT_SEQ (fld w.new F.SPL_ABORT_SEQ)) q = splCons s q :=
    State.fset_fget_off _ _ _ _ _ _ (by unfold SPL_PROGRESS SPL_ABORT; omega)
  have does := hookAbort_eq (old := w.old) go busy (abortCmd_notConsumed (by rwa [cons]))
  refine completes_next rfl (rowWrite_success ha (admitted_index ha (regFind_splAbort hq) ▸ does)) ⟨rfl, ?_, ?_, ?_⟩
  · exact (((RegsMarks.refl s).fset _ _ _).fset _ _ _).put _
  · rw [State.put_fget]
    exact State.fset_fget_lt _ _ _ _ (by decide) (by decide)
  · exact (((regsKept.refl (fun off => off = SPL_ABORT q) s).fset rfl _ _).fset rfl _ _).put _

/-- An abort of a running command claims its slot and stops its program. -/
theorem spoolAbort_running {c : Cmd} {b : Nat} (hb : 0 < ahead (splCons s q) (fld w.new F.SPL_ABORT_SEQ)) (hb' : ahead (splCons s q) (fld w.new F.SPL_ABORT_SEQ) < 2 ^ 31)
    (ring : ahead (splCons s q) (fld w.new F.SPL_ABORT_SEQ) ≤ 2 ^ sqLog s q) (cmds : (s.spool q).cmds = [c]) (name : c.n = fld w.new F.SPL_ABORT_SEQ)
    (stage : c.stage = 1) (claim : c.claim = none) (runs : bobOf s q (fld w.new F.SPL_ABORT_SEQ) = some b) (run : (s.bob b).run = 1) :
    completes (.spoolAbort who q val) s (fun t => endedWith who (SPL_ABORT q) 0 t ∧ t.fget (SPL_ABORT q) F.SPL_ABORT_RESULT = 0 ∧
      t.bob b = { s.bob b with run := 2 } ∧ othersKept b s t ∧ t.spool q = { s.spool q with cmds := [{ c with claim := some (C.SPL_W_ABORTED, 0) }] } ∧ t.dram = s.dram) := by
  have only : RegsMarks s (s.fset (SPL_ABORT q) F.SPL_ABORT_SEQ (fld w.new F.SPL_ABORT_SEQ)) := (RegsMarks.refl s).fset _ _ _
  have kept := s.fset_regsKept (SPL_ABORT q) F.SPL_ABORT_SEQ (fld w.new F.SPL_ABORT_SEQ)
  have cons : splCons (s.fset (SPL_ABORT q) F.SPL_ABORT_SEQ (fld w.new F.SPL_ABORT_SEQ)) q = splCons s q := kept.fget (by unfold SPL_PROGRESS SPL_ABORT; omega) _
  have log : sqLog (s.fset (SPL_ABORT q) F.SPL_ABORT_SEQ (fld w.new F.SPL_ABORT_SEQ)) q = sqLog s q := kept.fget (by unfold SPL_CFG SPL_ABORT; omega) _
  have does := fun o => hookAbort_eq (old := w.old) (new := w.new) (st := 0) (u := o) go busy
  generalize s.fset (SPL_ABORT q) F.SPL_ABORT_SEQ (fld w.new F.SPL_ABORT_SEQ) = u at *
  generalize fld w.new F.SPL_ABORT_SEQ = n at *
  have aborted := abortCmd_running (s := u) (by rwa [cons]) (by rwa [cons]) (by rwa [cons, log]) (by rwa [only.spool]) name stage claim
    ((only.same (bobOf · q n) fun _ _ => rfl).trans runs) (by rwa [only.bob])
  have done := rowWrite_success ha (admitted_index ha (regFind_splAbort hq) ▸ does _ aborted)
  have result := abortEnded_result u q n b
  have bob := abortEnded_bob u q n b
  have spool := abortEnded_spool (n := n) b (by rwa [only.spool]) name claim
  have dram := abortEnded_dram u q n b
  rw [← abortEnded] at done
  generalize abortEnded u q n b = v at *
  refine completes_next rfl done ⟨rfl, (State.put_fget ..).trans result, ?_, fun k hk => ?_, ?_, ?_⟩
  · rw [State.put_bob, bob, if_pos rfl, only.bob]
  · rw [State.put_bob, bob, if_neg hk, only.bob]
  · rw [State.put_spool, spool, only.spool]
  · rw [State.put_dram, dram, only.dram]

end

/-! The delayed interrupt (R322). -/

/-- The count of unreported records starts again. -/
def reported (s : State) (q : Nat) : State := s.setSpool q { s.spool q with unrep := 0 }

theorem reported_spool (s : State) (q p : Nat) : (reported s q).spool p = if p = q then { s.spool q with unrep := 0 } else s.spool p := State.setSpool_spool ..

/-- A head's vector is put out, or stands pending where it is masked; nothing else of the device moves. -/
theorem msix_cases (s : State) (p v : Nat) :
    (bit (tabGet msixReset (s.port p).msixTab (2 * v + 1)) 32 = false ∧ msix s p v = s.put (.msix p v)) ∨
      bit (tabGet msixReset (s.port p).msixTab (2 * v + 1)) 32 = true ∧ msix s p v = s.setPort p { s.port p with msixPend := withBit (s.port p).msixPend v true } := by
  by_cases masked : bit (tabGet msixReset (s.port p).msixTab (2 * v + 1)) 32 = true
  · exact .inr ⟨masked, if_pos masked⟩
  · exact .inl ⟨Bool.not_eq_true _ ▸ masked, if_neg masked⟩

theorem spoolIrq_same {β : Type} (f : State → β) (irq : ∀ (t : State) r k o, f { t with regs := r, pst := k, out := o } = f t)
    (port : ∀ (t : State) p, f { t with ports := p } = f t) (notice : ∀ (t : State) n, f { t with notices := n } = f t) (s : State) (q : Nat) :
    f (spoolIrq s q) = f (reported s q) := by
  unfold spoolIrq
  dsimp only
  split
  · obtain ⟨-, e⟩ | ⟨-, e⟩ := msix_cases (reported s q) (s.fget (SPL_CLASSINFO q) F.SPL_CLASSINFO_OWNER) (s.fget (SPL_IRQ q) F.SPL_IRQ_VECTOR)
    · exact (congrArg f e).trans (irq _ _ _ _)
    · exact (congrArg f e).trans (port _ _)
  · exact notice _ _
  · exact State.irq_same f irq _ _
  · rfl

theorem spoolIrqDelay_completes {s : State} {q : Nat} (en : s.fget (SPL_IRQ q) F.SPL_IRQ_EN = 1) (some : 0 < (s.spool q).unrep)
    (delay : s.fget (SPL_IRQ q) F.SPL_IRQ_DELAY_US ≠ 0) :
    let o := s.fget (SPL_CLASSINFO q) F.SPL_CLASSINFO_OWNER
    let kind := s.fget (SPL_CLASSINFO q) F.SPL_CLASSINFO_OWNERKIND
    completes (.spoolIrqDelay q) s (fun t => t.spool q = { s.spool q with unrep := 0 } ∧ (∀ p, p ≠ q → t.spool p = s.spool p) ∧ t.dram = s.dram ∧
      (kind = 0 → t.regs = s.regs ∧ let v := s.fget (SPL_IRQ q) F.SPL_IRQ_VECTOR
        let masked := bit (tabGet msixReset (s.port o).msixTab (2 * v + 1)) 32
        (masked = false → t.out = .msix o v :: s.out) ∧ (masked = true → t.out = s.out ∧ bit (t.port o).msixPend v = true)) ∧
      (kind = 1 → t.notices = s.notices ++ [(o, q)] ∧ t.regs = s.regs)) := by
  intro o kind
  have run : exec (.spoolIrqDelay q) s = .next (spoolIrq s q) := congrArg Host.Outcome.next (if_pos ⟨en, some, delay⟩)
  have spool : ∀ p, (spoolIrq s q).spool p = if p = q then { s.spool q with unrep := 0 } else s.spool p := fun p =>
    (spoolIrq_same (·.spool p) (fun _ _ _ _ => rfl) (fun _ _ => rfl) (fun _ _ => rfl) s q).trans (reported_spool s q p)
  have dram : (spoolIrq s q).dram = s.dram := spoolIrq_same (·.dram) (fun _ _ _ _ => rfl) (fun _ _ => rfl) (fun _ _ => rfl) s q
  refine (completes_iff run).2 ⟨(spool q).trans (if_pos rfl), fun p hp => (spool p).trans (if_neg hp), dram, fun head => ?_, fun node => ?_⟩
  · have e : spoolIrq s q = msix (reported s q) o (s.fget (SPL_IRQ q) F.SPL_IRQ_VECTOR) := by
      unfold spoolIrq
      dsimp only
      rw [show s.fget (SPL_CLASSINFO q) F.SPL_CLASSINFO_OWNERKIND = 0 from head]
      rfl
    rw [e]
    obtain ⟨open', told⟩ | ⟨masked, told⟩ := msix_cases (reported s q) o (s.fget (SPL_IRQ q) F.SPL_IRQ_VECTOR)
    · rw [told]
      exact ⟨rfl, fun _ => rfl, fun h => absurd (open'.symm.trans h) (by decide)⟩
    · rw [told]
      refine ⟨rfl, fun h => absurd (masked.symm.trans h) (by decide), fun _ => ⟨rfl, ?_⟩⟩
      rw [State.setPort_port, if_pos rfl]
      exact bit_withBit_same ..
  · have e : spoolIrq s q = { reported s q with notices := (reported s q).notices ++ [(o, q)] } := by
      unfold spoolIrq
      dsimp only
      rw [show s.fget (SPL_CLASSINFO q) F.SPL_CLASSINFO_OWNERKIND = 1 from node]
      rfl
    rw [e]
    exact ⟨rfl, rfl⟩

end Sys2Proof.Machine
end

section
/-! PROOF. Doorbells, consumption, rings, resets, aborts, capabilities and interrupts of a Spool (R298, R303, R304, R305, R309, R310, R312, R316, R322). -/

open Sys2Proof Sys2Proof.Machine

/-- Settles O49: each write of a Spool's register is its hook's case with the end of the access, a slot that has arrived is read from its reply, and each of these
leaves alone all but the Spool's own registers, event counters and table. -/
theorem spoolsTakeAndEndCommands : Obligations.SpoolsTakeAndEndCommands := by
  unfold Obligations.SpoolsTakeAndEndCommands
  refine ⟨fun s who q val w hq ha busy => ?_, fun s q r hq may here bob slot only ok => ?_, fun s who q val w hq ha cmds drop => ⟨?_, ?_⟩, ?_,
    fun s who q val w hq ha go busy => ⟨?_, ?_⟩, fun s who q val w hq => ⟨?_, ?_, ?_⟩, fun s who b val w hb ha test => ?_, ?_⟩
  case refine_1 =>
    intro far max' tl hd done lawful
    have tail : tl = laterIndex (fld w.new F.SPL_DOORBELL_SQTAIL) (splTail s q) := (laterIndex_eq ..).symm
    have head : hd = laterIndex (fld w.new F.SPL_DOORBELL_CQHEAD) (splHead s q) := (laterIndex_eq ..).symm
    have iff : lawful ↔ bellLawful s q tl hd := and_congr Iff.rfl (not_congr (larger_iff hd done).symm)
    by_cases h : lawful
    · obtain ⟨t, run, registers, ended⟩ := spoolDoorbell_lawful hq ha busy tail head (iff.1 h)
      exact ⟨t, run, registers, fun _ => ended, fun hn => absurd h hn⟩
    · obtain ⟨t, run, registers, ended⟩ := spoolDoorbell_unlawful hq ha busy (tail ▸ head ▸ fun hl => h (iff.2 hl))
      exact ⟨t, run, registers, fun hl => absurd hl h, fun _ => ended⟩
  case refine_2 =>
    rw [← dSeq_eq]
    intro n reads pass
    obtain ⟨answer, poison, wrong, right⟩ := consume_completes may here bob slot only ok hq pass
    have read : ∀ c, exec c s = .next (consume q s) → reads c := fun c run => by
      refine (completes_iff run).2 ⟨answer.frame, answer.others, answer.regs, poison, wrong, fun h1 h2 => ?_⟩
      obtain ⟨cons, state, born, table⟩ := right h1 h2
      exact ⟨cons, state, freshCmd n r.data born, table, rfl, rfl, rfl, rfl, rfl, rfl⟩
    refine ⟨fun live => read _ (congrArg Host.Outcome.next (if_neg (by omega))), fun waits => read _ (congrArg Host.Outcome.next (if_pos waits))⟩
  case refine_3 => exact fun reset en was => en_completes hq ha cmds drop reset en was
  case refine_4 => exact fun reset en lg => splReset_completes hq ha cmds drop reset en lg
  case refine_5 => exact fun s q _ state cmds mbox => spoolResetFinish_completes state cmds mbox
  case refine_6 => exact fun far => spoolAbort_notConsumed hq ha go busy far
  case refine_7 => exact fun c b h1 h2 ring cmds name stage claim runs run => spoolAbort_running hq ha go busy h1 h2 ring cmds name stage claim runs run
  case refine_8 => exact fun k hk ha => quietWrite_completes ha rfl (by decide) (by decide) (admitted_index ha (regFind_splCap hq hk) ▸ hookCap_eq ..)
  case refine_9 => exact fun ha => quietWrite_completes ha rfl (by decide) (by decide) (admitted_index ha (regFind_splCqBase hq) ▸ by simp only [if_true]; rfl)
  case refine_10 => exact fun ha => quietWrite_completes ha rfl (by decide) (by decide) (admitted_index ha (regFind_splSqBase hq) ▸ by simp only [if_true]; rfl)
  case refine_11 => exact drain_completes hb ha test
  case refine_12 => exact fun s q _ en some delay => spoolIrqDelay_completes en some delay
end

section
/-! PROOF. O57 is refuted: the call's own event moves the counter on which the fences of a bank that no cache has would lie (R75, R435, R449, R486). -/

namespace Sys2Proof.Machine

/-- A descriptor-cache way past the last share: its bank's fences would lie where the event counter of service calls does. -/
def farWay : Nat := 8192 * 1297826

/-- The descriptor of page 0: HOT, in the first frame of channel 0's plain pool. -/
def farDesc : Desc := mkHot stHOT 0 0 0 0 (plainBase deviceServes 0) 0

/-- Page 0 is cached in its set, and `farWay` holds a copy of its entry. The hypervisor may call KEY_CTL from core 0, no service has been called yet, and the line
of DRAM that holds the page's descriptor is poisoned. -/
def farCopy : State :=
  { deviceServes.setCoreState 0 0 with
    mgmt := { deviceServes.mgmt with run := true, hyp := [0], svcmask := 2 ^ 6 }
    dram := { deviceServes.dram with poison := [(0, true)] }
    tier := { deviceServes.tier with
      dc := [(dcBase 0, some ⟨0, farDesc, false, false, 0, false⟩), (farWay, some ⟨0, farDesc, false, false, 0, true⟩)] } }

theorem nothingWaits_farCopy : nothingWaits farCopy := nothingWaitsNow_iff.1 (by decide +kernel)

/-- KEY_CTL's ERASE of region 0 from core 0. -/
def farErase : State :=
  keyCtl 0 0 (fun t => putf (putf 0 F.KEY_RCTL_CUR (t.fget (KEY_RCTL 0) F.KEY_RCTL_CUR)) F.KEY_RCTL_ERASE 1) true farCopy

/-- The copy leaves its way, and the page's descriptor is written to DRAM: its line is poisoned no more. -/
theorem farErase_poison : farErase.dram.poison = [] := by decide +kernel

end Sys2Proof.Machine

open Sys2Proof Sys2Proof.Machine

/-- Refutes O57: its clause of KEY_CTL's ERASE has DRAM unchanged, and does not ask that each entry of the descriptor caches lies in a way that a cache has. In
`farCopy` one lies so far out that the fences of its bank are the bits of the counter of service calls: the call counts itself, the bank reads as fenced, and the
entry's descriptor is written to DRAM as the write of KEY_RCTL gives what waits its turn. -/
theorem not_thimbleServices : ¬ Obligations.ThimbleServices := by
  unfold Obligations.ThimbleServices
  intro services
  obtain ⟨-, -, -, -, -, -, -, keyCtl, -⟩ := services farCopy 0 (by decide +kernel) rfl nothingWaits_farCopy 0 0 0 0 0 0 0 0 0 0 0 0
  obtain ⟨-, -, -, erase, -⟩ := keyCtl (by decide +kernel)
  have run : exec (.keyCtlErase 0 0) farCopy = .next farErase := rfl
  obtain ⟨-, -, -, -, -, dram⟩ := (completes_iff run).1 (erase (by decide))
  have poison : farErase.dram.poison = [(0, true)] := congrArg DramState.poison dram
  rw [farErase_poison] at poison
  cases poison
end
